-- ==== Sys2Proof/Word.lean ====
section
/-! DEFINITION. The byte type and the plainest arithmetic on field widths: little-endian fields (spec/00_scope.md R2), wrapping and saturating counts. -/

namespace Sys2Proof

/-- One byte of a buffer, a record or a register. -/
abbrev Byte := BitVec 8

/-- An fp32 encoding (spec/00_scope.md, IEEE 754-2019 binary32). -/
abbrev F32 := BitVec 32

/-- A byte memory: (address, byte) pairs. Its canonical form is `Machine.Mem.wf`. -/
abbrev Mem := List (Nat × Byte)

/-- `n` reduced to a field of `w` bits. -/
def wrapTo (w n : Nat) : Nat := n % 2 ^ w

/-- A count of `w` bits that stays at its largest value (spec/19_register_file.md R414). -/
def satTo (w n : Nat) : Nat := min n (2 ^ w - 1)

/-- `ceil (a / b)` on naturals, 0 for `b = 0`. -/
def ceilDiv (a b : Nat) : Nat := if b = 0 then 0 else (a + b - 1) / b

/-- `n` rounded up to a multiple of `m`. -/
def roundUp (n m : Nat) : Nat := ceilDiv n m * m

/-- 1 for true, 0 for false. -/
def bit (b : Bool) : Nat := if b then 1 else 0

end Sys2Proof
end

