-- ==== Sys2Proof/Syntax.lean ====
section
/-! DEFINITION. The commands of the block: one constructor of Instr per row of spec/opcode_table.json. The table gives the rows no bits and no operands; each constructor's operands name what the row acts on (an instance, a window, a context, a sequence's flow, an outpost) and carry what comes from outside (a register write's value, the bytes a read of a host buffer returns, a peer message). -/

namespace Sys2Proof

/-- The two instances of a package: A on H0, B on H1 (spec/01 R14). -/
inductive InstId where
  | A
  | B
  deriving DecidableEq, Repr

/-- The names a channel message gives its row: bits [23:0] of the step, the wave, the row of the wave (spec/07 R166). -/
structure RowHandle where
  step : Nat
  wave : Nat
  row  : Nat
  deriving DecidableEq, Repr

/-- What a lane pass met (spec/07 R158, R168): nothing, a Larder parity error in a lane, or an upset that adds `delta` to the mass the outpost reports. -/
inductive PassEvent where
  | ok
  | parity (lane : Nat)
  | upset (delta : Nat)
  deriving DecidableEq, Repr

/-- Where an uncorrectable error was found (spec/17 R359). -/
inductive EccSite where
  | parlour (lid : Nat)
  | hbmOfSequence (lid : Nat)
  | hbmStepBuffer (step : Nat)
  | hbmShared
  | hubTable
  | hearthShared
  deriving DecidableEq, Repr

/-- How a core is lost: its watchdog ran out, or its local SRAM had an uncorrectable error (spec/13 R280). -/
structure CoreLoss where
  core : Nat
  sram : Bool
  deriving DecidableEq, Repr

/-- A peer message: the header of spec/16 R340 and its payload. -/
structure PeerMsg where
  type        : Nat
  reason      : Nat
  src         : Nat
  dst         : Nat
  srcGen      : Nat
  dstGen      : Nat
  srcRole     : Nat
  admitReason : Nat
  subject     : Nat
  attempt     : Nat
  offset      : Nat
  peerSubject : Nat
  check       : Nat
  payload     : List Byte
  deriving DecidableEq, Repr

/-- The commands. Operands: `i` instance, `w` mailbox window, `c` context, `lid` local sequence id (a flow), `o` outpost, `m` model. -/
inductive Instr where
  -- package, time, reset
  | powerOnReset
  | blockReset (i : InstId)
  | functionLevelReset
  | resetControlWrite (a b : Bool)
  | tick
  | livenessAdvance (i : InstId)
  -- Dawn
  | flashGrant
  | imageReadComplete (i : InstId) (img : List Byte)
  | signatureVerified (i : InstId)
  | coresReady (i : InstId)
  | discoveryComplete (i : InstId)
  | discoveryTimeout (i : InstId)
  | watchdogExpiry (i : InstId) (core : CoreLoss)
  | coreRestartDone (i : InstId) (core : Nat)
  | uncorrectableEcc (i : InstId) (site : EccSite)
  -- mailbox transport
  | mailboxGo (i : InstId) (w : Nat)
  | mailboxGoTaken (i : InstId) (w : Nat)
  | resHeadWrite (i : InstId) (w v : Nat)
  -- mailbox commands
  | placeRegion (i : InstId) (w : Nat)
  | driveRange (i : InstId) (w : Nat)
  | identity (i : InstId) (w : Nat)
  | pairing (i : InstId) (w : Nat)
  | hostTrims (i : InstId) (w : Nat) (table : List Byte)
  | dawnComplete (i : InstId) (w : Nat)
  | class0Reserve (i : InstId) (w : Nat)
  | contextOpen (i : InstId) (w : Nat)
  | contextConfigure (i : InstId) (w : Nat)
  | contextClose (i : InstId) (w : Nat)
  | contextCloseDone (i : InstId) (c : Nat)
  | contextQuery (i : InstId) (w : Nat)
  | recipeDefine (i : InstId) (w : Nat) (img : List Byte)
  | recipeUndefine (i : InstId) (w : Nat)
  | planRegister (i : InstId) (w : Nat)
  | planUnregister (i : InstId) (w : Nat)
  | planQuery (i : InstId) (w : Nat)
  | cancel (i : InstId) (w : Nat)
  | park (i : InstId) (w : Nat)
  | resume (i : InstId) (w : Nat)
  | extend (i : InstId) (w : Nat) (toks : List Nat)
  | querySequence (i : InstId) (w : Nat)
  | modelDescribe (i : InstId) (w : Nat) (desc : List Byte)
  | modelQuery (i : InstId) (w : Nat)
  | modelForget (i : InstId) (w : Nat)
  | modelLoaded (i : InstId) (w : Nat)
  | modelLoadDeclined (i : InstId) (w : Nat)
  | modelUnloaded (i : InstId) (w : Nat)
  | modelPin (i : InstId) (w : Nat)
  | epochStage (i : InstId) (w : Nat) (desc : List Byte)
  | epochReady (i : InstId) (w : Nat)
  | epochCommit (i : InstId) (w : Nat)
  | epochUnstage (i : InstId) (w : Nat)
  | epochRetire (i : InstId) (w : Nat)
  | evening (i : InstId) (w : Nat)
  | eveningComplete (i : InstId)
  | morning (i : InstId) (w : Nat)
  | turnCost (i : InstId) (w : Nat)
  | poolLend (i : InstId) (w : Nat)
  | poolReturn (i : InstId) (w : Nat)
  | snapshot (i : InstId) (w : Nat)
  | restore (i : InstId) (w : Nat)
  | restoreComplete (i : InstId)
  | lossBound (i : InstId) (w : Nat)
  | driveRetry (i : InstId) (w : Nat)
  | migrate (i : InstId) (w : Nat)
  | directionsSet (i : InstId) (w : Nat) (list : List Byte)
  | watch (i : InstId) (w : Nat)
  | trace (i : InstId) (w : Nat)
  | traceDrained (i : InstId)
  | counters (i : InstId) (w : Nat)
  | imageWrite (i : InstId) (w : Nat) (img : List Byte)
  | imageProgramDone (i : InstId) (ok : Bool)
  | firmwareConfirm (i : InstId) (w : Nat)
  -- rings, Foyer, interrupts
  | sqTailDoorbell (i : InstId) (c v : Nat)
  | submitEntry (i : InstId) (c : Nat) (entry : List Byte) (prompt : List Nat) (stop : List Byte)
  | sqNop (i : InstId) (c : Nat) (entry : List Byte)
  | sqBadKind (i : InstId) (c : Nat) (entry : List Byte)
  | foyerReevaluation (i : InstId)
  | deferLimitExpiry (i : InstId) (c : Nat)
  | cqHeadWrite (i : InstId) (c v : Nat)
  | cqRingWrite (i : InstId) (c : Nat)
  | irqModerationTimer (i : InstId) (c : Nat)
  | irqStatusClear (i : InstId) (wide : Bool) (off v : Nat)
  | irqEnableWrite (i : InstId) (wide : Bool) (off v : Nat)
  | dmaError (i : InstId) (c : Nat)
  | teardownComplete (i : InstId) (c : Nat)
  -- steps and the sampler engine
  | composeStep (i : InstId) (fuse : Bool)
  | drawList (o : Nat)
  | keystreamBlock (o : Nat) (h : RowHandle) (lane : Nat) (low : Nat)
  | classMapLoaded (o : Nat) (plan : Nat) (lane : Nat)
  | larderGranuleWrite (o : Nat) (off : Nat) (data : List Byte)
  | waveDoneMarker (o : Nat) (step wave : Nat)
  | waveLandedNotice (i : InstId) (die step wave : Nat)
  | completionNotice (i : InstId) (die step : Nat)
  | killAcknowledgement (i : InstId) (die step : Nat)
  | kernelFault (i : InstId) (die step : Nat)
  | lanePassComplete (o : Nat) (h : RowHandle) (ev : PassEvent)
  | rowSetup (o : Nat)
  | maxResult (o : Nat)
  | roundReq (o : Nat)
  | cut (o : Nat)
  | quotas (o : Nat)
  | locate (o : Nat)
  | doneMsg (o : Nat)
  | maxSum (i : InstId) (o : Nat)
  | massSum (i : InstId) (o : Nat)
  | roundSum (i : InstId) (o : Nat)
  | keptSum (i : InstId) (o : Nat)
  | raceSum (i : InstId) (o : Nat)
  | located (i : InstId) (o : Nat)
  | parity (i : InstId) (o : Nat)
  | laneGroupSelftestDone (o : Nat) (failed : BitVec 32)
  | fenceMaskWrite (i : InstId) (o : Nat) (wide : Bool) (v : Nat)
  | commitPoint (i : InstId) (step : Nat)
  -- usher applies
  | tokenCommit (i : InstId) (lid : Nat)
  | stopCheck (i : InstId) (lid : Nat)
  | kill (i : InstId) (lid : Nat)
  | admitSeq (i : InstId) (lid : Nat)
  | warm (i : InstId) (lid : Nat)
  | cool (i : InstId) (lid : Nat)
  | coolMarkWrite (i : InstId) (wide : Bool) (v : Nat)
  | pageHeadroomWrite (i : InstId) (wide : Bool) (v : Nat)
  | evictionPark (i : InstId) (lid : Nat)
  | evictionResume (i : InstId) (lid : Nat)
  | kvInvalidation (i : InstId) (lid : Nat)
  | sequenceCancel (i : InstId) (lid : Nat)
  | sequencePark (i : InstId) (lid : Nat)
  | sequenceResume (i : InstId) (lid : Nat)
  | sequenceExtend (i : InstId) (lid : Nat)
  | forceRun (i : InstId) (lid : Nat)
  | midnight (i : InstId) (m : Nat)
  | midnightEvent (i : InstId) (lid : Nat)
  | epochAbort (i : InstId) (lid : Nat)
  | eveningEvent (i : InstId) (lid : Nat)
  | morningEvent (i : InstId) (lid : Nat)
  | broadcastSweep (i : InstId) (lid : Nat)
  | migrateOut (i : InstId) (lid : Nat)
  | migrateAck (i : InstId) (lid : Nat)
  | migrateFail (i : InstId) (lid : Nat)
  | migrateIn (i : InstId) (lid : Nat)
  | migrateDone (i : InstId) (lid : Nat)
  | household (i : InstId) (lid : Nat)
  | teardown (i : InstId) (lid : Nat)
  | planReady (i : InstId) (lid : Nat)
  | context (i : InstId) (c : Nat)
  -- Dusk lists
  | deadlineEntry (i : InstId) (lid : Nat)
  | parkWake (i : InstId) (lid : Nat)
  | migrationRetry (i : InstId) (subject : Nat)
  | migrationTimeout (i : InstId) (subject : Nat)
  | arrivalTimeout (i : InstId) (subject : Nat)
  | mailboxCommandTimeout (i : InstId) (core : Nat)
  | duskSpillRefill (i : InstId) (list : Nat)
  | planFetchDone (i : InstId) (plan : Nat) (img : List Byte)
  -- latches
  | latchAcquire (i : InstId) (latch step : Nat)
  | latchRelease (i : InstId) (latch : Nat)
  | latchConfigWrite (i : InstId) (wide : Bool) (off v : Nat)
  -- peer fabric
  | announce (i : InstId) (msg : PeerMsg)
  | announceReply (i : InstId) (msg : PeerMsg)
  | offer (i : InstId) (msg : PeerMsg)
  | accept (i : InstId) (msg : PeerMsg)
  | refuse (i : InstId) (msg : PeerMsg)
  | dataMsg (i : InstId) (msg : PeerMsg)
  | dataAck (i : InstId) (msg : PeerMsg)
  | handover (i : InstId) (msg : PeerMsg)
  | ack (i : InstId) (msg : PeerMsg)
  | nak (i : InstId) (msg : PeerMsg)
  | abandon (i : InstId) (msg : PeerMsg)
  | bounce (i : InstId) (msg : PeerMsg)
  | reorderRelease (i : InstId)
  | injectionSeedWrite (i : InstId) (wide : Bool) (v : Nat)
  | stairwellTimingWrite (i : InstId) (wide : Bool) (off v : Nat)
  -- reliability
  | mirrorMessage (i : InstId) (bad : Bool)
  | mirrorAck (i : InstId)
  | mirrorSyncComplete (i : InstId)
  | heartbeat
  | heartbeatLost (i : InstId)
  | livenessCheck (i : InstId)
  | failMsg (i : InstId)
  | claim (i : InstId) (o : Nat)
  | takeover (i : InstId)
  | claimRefused (i : InstId)
  | digestPair (i : InstId)
  | driveCompletion (i : InstId) (ok : Bool)
  | driveTimeout (i : InstId)
  | journalFlush (i : InstId)
  | flushDeferExpiry (i : InstId)
  | flushComplete (i : InstId)
  | bulkImageStart (i : InstId)
  | bulkImageDurable (i : InstId)
  -- Study
  | graphBuild (i : InstId)
  | traceWaitLimit (i : InstId) (waiter holder reason object : Nat)
  | traceBurstTimeout (i : InstId)
  | traceSync (i : InstId)
  | traceRpWrite (i : InstId) (wide : Bool) (off v : Nat)
  | dumpRequest (i : InstId) (wide : Bool) (v : Nat)
  | dumpComplete (i : InstId) (incomplete : Bool)
  | dumpAck (i : InstId) (wide : Bool) (v : Nat)
  | studyCauseClear (i : InstId) (wide : Bool) (v : Nat)
  | epochRetiredClear (i : InstId) (wide : Bool) (off v : Nat)
  | wdogExpiredClear (i : InstId) (wide : Bool) (v : Nat)
  | fenceRefusedClear (i : InstId) (o : Nat) (wide : Bool) (v : Nat)
  | kitchenLimitWrite (i : InstId) (wide : Bool) (off v : Nat)
  | rcFieldRead (i : InstId) (wide : Bool) (off : Nat)
  | registerWrite (i : InstId) (wide : Bool) (off v : Nat)
  | powerLoss
  | linkCreditsReturned (i : InstId) (n : Nat)
  | pathRestored
  deriving DecidableEq, Repr

end Sys2Proof
end

