-- ==== Sys2Proof/Machine/Bytes.lean ====
section
/-! DEFINITION. Byte lists, little-endian fields, and the byte memories: HBM, host memory, Larders, mailbox staging areas. An unlisted byte reads 0 (DESIGN CHOICE, log 3). -/

namespace Sys2Proof.Machine

open Sys2Proof

/-- The byte at an address; an unlisted address reads 0 (DESIGN CHOICE, log 3). -/
def memGet : Mem → Nat → Byte
  | [], _ => 0
  | (k, v) :: t, a => if k = a then v else memGet t a

/-- Write one byte, keeping the canonical form: addresses rising, no listed 0. -/
def memSet : Mem → Nat → Byte → Mem
  | [], a, v => if v = 0 then [] else [(a, v)]
  | (k, w) :: t, a, v =>
    if a < k then (if v = 0 then (k, w) :: t else (a, v) :: (k, w) :: t)
    else if a = k then (if v = 0 then t else (a, v) :: t)
    else (k, w) :: memSet t a v

/-- `n` bytes from an address. -/
def memGets (m : Mem) (a n : Nat) : List Byte := (List.range n).map fun i => memGet m (a + i)

/-- Write bytes from an address on. -/
def memPuts : Mem → Nat → List Byte → Mem
  | m, _, [] => m
  | m, a, b :: bs => memPuts (memSet m a b) (a + 1) bs

/-- Every address from `lo` on, rising, and no byte 0. -/
def memWfFrom : Nat → Mem → Bool
  | _, [] => true
  | lo, (k, v) :: t => decide (lo ≤ k) && (v != 0) && memWfFrom (k + 1) t

/-- The canonical form of a byte memory. -/
def Mem.wf (m : Mem) : Bool := memWfFrom 0 m

/-- The value of a little-endian field (spec/00 R2). -/
def leNat : List Byte → Nat
  | [] => 0
  | b :: bs => b.toNat + 256 * leNat bs

/-- A value as `n` little-endian bytes (spec/00 R2). -/
def leBytes : Nat → Nat → List Byte
  | 0, _ => []
  | n + 1, v => BitVec.ofNat 8 v :: leBytes n (v / 256)

/-- The little-endian field of `n` bytes at offset `off` of a byte list; bytes past the end read 0. -/
def fld (bs : List Byte) (off n : Nat) : Nat := leNat ((bs.drop off).take n)

/-- The bytes [off, off + n), padded with zeros. -/
def slice (bs : List Byte) (off n : Nat) : List Byte :=
  let x := (bs.drop off).take n
  x ++ List.replicate (n - x.length) 0

/-- Bits [hi:lo] of a value (spec/00 R3). -/
def bits (v hi lo : Nat) : Nat := v / 2 ^ lo % 2 ^ (hi + 1 - lo)

/-- Bit `k` of a value. -/
def tbit (v k : Nat) : Bool := v.testBit k

/-- Every byte is 0. -/
def zeros (bs : List Byte) : Bool := bs.all (· == 0)

/-- A byte list of `n` bytes with the fields written at their offsets: (offset, bytes). -/
def layout (n : Nat) (fs : List (Nat × List Byte)) : List Byte :=
  fs.foldl (fun acc f => acc.take f.1 ++ f.2 ++ acc.drop (f.1 + f.2.length)) (List.replicate n 0)

/-- The little-endian field as an entry of `layout`. -/
def lf (off n v : Nat) : Nat × List Byte := (off, leBytes n v)

/-- Consecutive fields of `w` bytes. -/
def words (w : Nat) (vs : List Nat) : List Byte := vs.flatMap (leBytes w)

/-- The list read as consecutive little-endian fields of `w` bytes, `n` of them from `off`. -/
def unwords (bs : List Byte) (off w n : Nat) : List Nat :=
  (List.range n).map fun k => fld bs (off + k * w) w

/-- Is the value a power of two? -/
def isPow2 (n : Nat) : Bool := n != 0 && n == 2 ^ n.log2

/-- The element at an index replaced by `f` of it. -/
def modAt {α : Type} : List α → Nat → (α → α) → List α
  | [], _, _ => []
  | x :: xs, 0, f => f x :: xs
  | x :: xs, n + 1, f => x :: modAt xs n f

/-- The entry of a key in a list of pairs. -/
def look {α β : Type} [BEq α] (k : α) (l : List (α × β)) : Option β := (l.find? (·.1 == k)).map (·.2)

/-- The first element that no other stands before. -/
def firstBy {α : Type} (lt : α → α → Bool) : List α → Option α
  | [] => none
  | x :: xs => some (xs.foldl (fun b y => if lt y b then y else b) x)

/-- The list of pairs with the key's entry put in at the front and any old one taken out. -/
def put {α β : Type} [BEq α] (k : α) (v : β) (l : List (α × β)) : List (α × β) := (k, v) :: l.filter (·.1 != k)

/-- The list of pairs without the key's entry. -/
def del {α β : Type} [BEq α] (k : α) (l : List (α × β)) : List (α × β) := l.filter (·.1 != k)

/-- Sum of a list. -/
def sumNat (l : List Nat) : Nat := l.foldl (· + ·) 0

/-- Insert by a strict order `lt`, after equal elements. -/
def insertBy {α : Type} (lt : α → α → Bool) (x : α) : List α → List α
  | [] => [x]
  | y :: ys => if lt x y then x :: y :: ys else y :: insertBy lt x ys

/-- Stable insertion sort by a strict order. -/
def sortBy {α : Type} (lt : α → α → Bool) (l : List α) : List α := l.foldl (fun acc x => insertBy lt x acc) []

/-- First `k` at or above `lo`, below `lo + n`, that `p` holds of. -/
def firstFree (p : Nat → Bool) : Nat → Nat → Option Nat
  | _, 0 => none
  | lo, n + 1 => if p lo then some lo else firstFree p (lo + 1) n

/-- The numbers of the set bits of a mask of `n` bits. -/
def maskBits (n v : Nat) : List Nat := (List.range n).filter (tbit v)

/-- The mask of a list of bit numbers. -/
def maskOf (l : List Nat) : Nat := l.foldl (fun m k => m ||| 2 ^ k) 0

/-- How many bits of an `n`-bit value are set. -/
def popCount (n v : Nat) : Nat := (maskBits n v).length

end Sys2Proof.Machine
end

