-- ==== Sys2Proof/Machine/Crypto.lean ====
section
/-! DEFINITION. CRC-32C, AES-128 (FIPS 197) and SHA-384 (FIPS 180-4), on naturals: what the spec names for images, messages, the keystream and the digests. -/

namespace Sys2Proof.Machine

open Sys2Proof

/-! ### CRC-32C (Castagnoli): polynomial 0x1EDC6F41, reflected, initial and final value all ones -/

def crcBit (c : Nat) : Nat := if c % 2 = 1 then Nat.xor (c / 2) 0x82F63B78 else c / 2

def crcByte (c : Nat) (b : Byte) : Nat :=
  crcBit (crcBit (crcBit (crcBit (crcBit (crcBit (crcBit (crcBit (Nat.xor c b.toNat))))))))

/-- CRC-32C of a byte list. -/
def crc32c (bs : List Byte) : Nat := Nat.xor (bs.foldl crcByte 0xFFFFFFFF) 0xFFFFFFFF

/-- The byte list with `n` bytes at `off` taken as zero. -/
def zeroAt (bs : List Byte) (off n : Nat) : List Byte := bs.take off ++ List.replicate n 0 ++ bs.drop (off + n)

/-! ### AES-128 (FIPS 197) -/

/-- Multiplication by x in GF(2^8). -/
def gfX (a : Nat) : Nat := if a < 128 then 2 * a else Nat.xor (2 * a - 256) 0x1B

/-- Product in GF(2^8), over the bits of `b` from the highest of `n` down. -/
def gfMulN : Nat → Nat → Nat → Nat
  | 0, _, _ => 0
  | n + 1, a, b => Nat.xor (gfX (gfMulN n a (b / 2))) (if b % 2 = 1 then a else 0)

def gfMul (a b : Nat) : Nat := gfMulN 8 a b

/-- The inverse a^254; 0 for 0. -/
def gfInv (a : Nat) : Nat :=
  let a2 := gfMul a a
  let a3 := gfMul a2 a
  let a6 := gfMul a3 a3
  let a12 := gfMul a6 a6
  let a15 := gfMul a12 a3
  let a30 := gfMul a15 a15
  let a60 := gfMul a30 a30
  let a120 := gfMul a60 a60
  let a126 := gfMul a120 a6
  let a127 := gfMul a126 a
  gfMul a127 a127

/-- Rotate a byte left. -/
def rotl8 (a k : Nat) : Nat := (a * 2 ^ k) % 256 + a / 2 ^ (8 - k)

/-- The S-box of a byte. -/
def sboxOf (a : Nat) : Nat :=
  let b := gfInv a
  Nat.xor (Nat.xor (Nat.xor b (rotl8 b 1)) (Nat.xor (rotl8 b 2) (rotl8 b 3))) (Nat.xor (rotl8 b 4) 0x63)

/-- The S-box as a table. -/
def sbox : List Nat := (List.range 256).map sboxOf

def subByte (a : Nat) : Nat := sbox.getD a 0

/-- Round constants. -/
def rcon : List Nat := [0x01, 0x02, 0x04, 0x08, 0x10, 0x20, 0x40, 0x80, 0x1B, 0x36]

def xorList (a b : List Nat) : List Nat := List.zipWith Nat.xor a b

/-- The next round key (four words of four bytes) from the last. -/
def nextKey (rc : Nat) (k : List Nat) : List Nat :=
  let t := [Nat.xor (subByte (k.getD 13 0)) rc, subByte (k.getD 14 0), subByte (k.getD 15 0), subByte (k.getD 12 0)]
  let w0 := xorList (k.take 4) t
  let w1 := xorList ((k.drop 4).take 4) w0
  let w2 := xorList ((k.drop 8).take 4) w1
  let w3 := xorList ((k.drop 12).take 4) w2
  w0 ++ w1 ++ w2 ++ w3

/-- ShiftRows on a column-major state. -/
def shiftRows (st : List Nat) : List Nat :=
  (List.range 16).map fun k => st.getD ((k % 4 + 4 * ((k / 4 + k % 4) % 4))) 0

/-- MixColumns on one column. -/
def mixColumn (c : List Nat) : List Nat :=
  let a := c.getD 0 0; let b := c.getD 1 0; let d := c.getD 2 0; let e := c.getD 3 0
  let m3 (x : Nat) : Nat := Nat.xor (gfX x) x
  [ Nat.xor (Nat.xor (gfX a) (m3 b)) (Nat.xor d e), Nat.xor (Nat.xor a (gfX b)) (Nat.xor (m3 d) e),
    Nat.xor (Nat.xor a b) (Nat.xor (gfX d) (m3 e)), Nat.xor (Nat.xor (m3 a) b) (Nat.xor d (gfX e)) ]

def mixColumns (st : List Nat) : List Nat :=
  mixColumn (st.take 4) ++ mixColumn ((st.drop 4).take 4) ++ mixColumn ((st.drop 8).take 4) ++ mixColumn ((st.drop 12).take 4)

/-- The rounds that the round constants left call for; the last has no MixColumns. -/
def aesRounds : List Nat → List Nat → List Nat → List Nat
  | [], _, st => st
  | rc :: rest, k, st =>
    let k' := nextKey rc k
    let sr := shiftRows (st.map subByte)
    aesRounds rest k' (xorList (if rest.isEmpty then sr else mixColumns sr) k')

/-- AES-128 encryption of a 16-byte block under a 16-byte key (FIPS 197). -/
def aes128 (key block : List Nat) : List Nat := aesRounds rcon key (xorList block key)

/-! ### SHA-384 (FIPS 180-4) -/

/-- Floor of the square root, by bits from 2^`n` down. -/
def sqrtBits (v : Nat) : Nat → Nat → Nat
  | 0, r => r
  | n + 1, r => let t := r + 2 ^ n; sqrtBits v n (if t * t ≤ v then t else r)

/-- Floor of the cube root, by bits. -/
def cbrtBits (v : Nat) : Nat → Nat → Nat
  | 0, r => r
  | n + 1, r => let t := r + 2 ^ n; cbrtBits v n (if t * t * t ≤ v then t else r)

/-- The first 80 primes. -/
def primes80 : List Nat := ((List.range 410).filter fun n => decide (2 ≤ n) && (List.range n).all fun d => d < 2 || n % d != 0).take 80

/-- The 80 round constants: fractions of the cube roots of the first 80 primes. -/
def shaK : List Nat := primes80.map fun p => cbrtBits (p * 2 ^ 192) 67 0 % 2 ^ 64

/-- The initial hash of SHA-384: fractions of the square roots of the 9th to the 16th prime. -/
def shaH : List Nat := ((primes80.drop 8).take 8).map fun p => sqrtBits (p * 2 ^ 128) 67 0 % 2 ^ 64

def rotr64 (x k : Nat) : Nat := x / 2 ^ k + (x % 2 ^ k) * 2 ^ (64 - k)

def xor3 (a b c : Nat) : Nat := Nat.xor (Nat.xor a b) c

/-- Big-endian value of a byte list. -/
def beNat (bs : List Byte) : Nat := bs.foldl (fun v b => 256 * v + b.toNat) 0

def beBytes (n v : Nat) : List Byte := (leBytes n v).reverse

/-- Extend the message schedule, newest word first. -/
def shaSched : Nat → List Nat → List Nat
  | 0, w => w
  | n + 1, w =>
    let x15 := w.getD 14 0
    let x2 := w.getD 1 0
    let s0 := xor3 (rotr64 x15 1) (rotr64 x15 8) (x15 / 2 ^ 7)
    let s1 := xor3 (rotr64 x2 19) (rotr64 x2 61) (x2 / 2 ^ 6)
    shaSched n (((w.getD 15 0 + s0 + w.getD 6 0 + s1) % 2 ^ 64) :: w)

/-- One round on the eight working variables. -/
def shaRound (v : List Nat) (kw : Nat × Nat) : List Nat :=
  let a := v.getD 0 0; let b := v.getD 1 0; let c := v.getD 2 0; let d := v.getD 3 0
  let e := v.getD 4 0; let f := v.getD 5 0; let g := v.getD 6 0; let h := v.getD 7 0
  let S1 := xor3 (rotr64 e 14) (rotr64 e 18) (rotr64 e 41)
  let ch := Nat.xor (Nat.land e f) (Nat.land (2 ^ 64 - 1 - e) g)
  let t1 := h + S1 + ch + kw.1 + kw.2
  let S0 := xor3 (rotr64 a 28) (rotr64 a 34) (rotr64 a 39)
  let mj := xor3 (Nat.land a b) (Nat.land a c) (Nat.land b c)
  [(t1 + S0 + mj) % 2 ^ 64, a, b, c, (d + t1) % 2 ^ 64, e, f, g]

/-- One block of 128 bytes. -/
def shaBlock (h : List Nat) (blk : List Byte) : List Nat :=
  let w0 := ((List.range 16).map fun k => beNat ((blk.drop (8 * k)).take 8)).reverse
  let w := (shaSched 64 w0).reverse
  let v := (List.zip shaK w).foldl shaRound h
  List.zipWith (fun a b => (a + b) % 2 ^ 64) h v

/-- The blocks of a padded message. -/
def shaBlocks : Nat → List Byte → List Nat → List Nat
  | 0, _, h => h
  | n + 1, bs, h => shaBlocks n (bs.drop 128) (shaBlock h (bs.take 128))

/-- The message with its padding. -/
def shaPad (bs : List Byte) : List Byte :=
  let n := bs.length
  let z := (128 - (n + 17) % 128) % 128
  bs ++ [0x80] ++ List.replicate z 0 ++ beBytes 16 (8 * n)

/-- SHA-384 of a byte list. -/
def sha384 (bs : List Byte) : List Byte :=
  let p := shaPad bs
  ((shaBlocks (p.length / 128) p shaH).take 6).flatMap (beBytes 8)

end Sys2Proof.Machine
end

