-- ==== Sys2Proof/Machine/Fp.lean ====
section
/-! DEFINITION. The arithmetic of spec/06: fp32 operations rounded to nearest even with saturation (R131), keys (R137), the mass function (R139), and correctly rounded logarithms (R144, R145, R148). A finite fp32 is held as its exact value in units of 2^-149. The real functions are bracketed, and the bracket is tightened until both ends round alike, as R139 does for the mass function. -/

namespace Sys2Proof.Machine

open Sys2Proof

/-! ### fp32 (R131) -/

/-- The encoding without its sign. -/
def fMag (x : F32) : Nat := x.toNat % 2 ^ 31

def fNeg (x : F32) : Bool := x.getLsbD 31

/-- Neither NaN nor infinite. -/
def fFinite (x : F32) : Bool := decide (fMag x < 0x7F800000)

/-- The magnitude of a finite fp32 in units of 2^-149. -/
def fAbsVal (x : F32) : Nat :=
  let e := fMag x / 2 ^ 23
  let m := fMag x % 2 ^ 23
  if e = 0 then m else (m + 2 ^ 23) * 2 ^ (e - 1)

/-- The value of a finite fp32 in units of 2^-149. -/
def fVal (x : F32) : Int := if fNeg x then -(fAbsVal x : Int) else (fAbsVal x : Int)

/-- The encoding of the fp32 magnitude nearest to `num / den` units of 2^-149, ties to even; at or above 0x7F80_0000 past the finite range. -/
def rndMag (num den : Nat) : Nat :=
  let q := num / den
  let sh := if q < 2 ^ 24 then 0 else q.log2 - 23
  let d := den * 2 ^ sh
  let m := num / d
  let r := num % d
  let up := if 2 * r < d then 0 else if d < 2 * r then 1 else m % 2
  sh * 2 ^ 23 + m + up

/-- Sign and magnitude as an encoding. -/
def fMake (neg : Bool) (mag : Nat) : F32 := BitVec.ofNat 32 (mag + 2 ^ 31 * bit neg)

/-- Saturation (R131). -/
def fSat (neg : Bool) (mag : Nat) : F32 := fMake neg (min mag 0x7F7FFFFF)

def fAbs (x : F32) : F32 := fMake false (fMag x)

def fFlip (x : F32) : F32 := fMake (!fNeg x) (fMag x)

/-- x + y. -/
def fAdd (x y : F32) : F32 :=
  let v := fVal x + fVal y
  if v = 0 then fMake (fNeg x && fNeg y) 0 else fSat (decide (v < 0)) (rndMag v.natAbs 1)

/-- x - y. -/
def fSub (x y : F32) : F32 := fAdd x (fFlip y)

/-- x * y. -/
def fMul (x y : F32) : F32 := fSat (fNeg x != fNeg y) (rndMag (fAbsVal x * fAbsVal y) (2 ^ 149))

/-- A count as fp32. -/
def fOfNat (n : Nat) : F32 := fSat false (rndMag (n * 2 ^ 149) 1)

/-- x < y as real values. -/
def fLt (x y : F32) : Bool := decide (fVal x < fVal y)

/-- The key of a scaled logit (R137). -/
def keyOf (x : F32) : Nat :=
  let b := if x = 0x80000000 then (0 : F32) else x
  if fNeg b then 2 ^ 32 - 1 - b.toNat else b.toNat + 2 ^ 31

/-- The value of a key, -0 read as +0 (R138). -/
def ofKey (k : Nat) : F32 := if 2 ^ 31 ≤ k then BitVec.ofNat 32 (k - 2 ^ 31) else BitVec.ofNat 32 (2 ^ 32 - 1 - k)

/-! ### The mass function (R139) -/

/-- The sum of x^i / i! for i up to n, with x = -p / q, as numerator over q^n * n!. -/
def expSum (p q : Nat) : Nat → Nat → Int × Nat
  | 0, _ => (1, 1)
  | n + 1, i =>
    let t := expSum p q n (i + 1)
    ((q * i * t.2 : Nat) - (p : Int) * t.1, q * i * t.2)

/-- floor(2^60 * (a / b)^64 + 1/2). -/
def pow64Round (a b : Nat) : Nat := (2 ^ 61 * a ^ 64 + b ^ 64) / (2 * b ^ 64)

/-- The two ends of the bracket of 2^60 * e^(-64 p / q) with n terms, rounded. -/
def expBracket (p q n : Nat) : Nat × Nat :=
  let t := expSum p q n 1
  let f := q * (n + 1)
  let den := t.2 * f
  let s := t.1.toNat * f
  let r := p ^ (n + 1)
  (pow64Round (s - r) den, pow64Round (s + r) den)

/-- The loop of R139: the terms double until both ends agree. -/
def expLoop (p q : Nat) : Nat → Nat → Nat
  | 0, n => (expBracket p q n).1
  | k + 1, n =>
    let b := expBracket p q n
    if b.1 = b.2 then b.1 else expLoop p q k (2 * n)

/-- The mass E(d) of a difference d (R139): 2^60 at zero, 0 from the floor's encoding down. -/
def massE (d : F32) : Nat :=
  let v := fAbsVal d
  if v = 0 then 2 ^ 60
  else if 0x422920BF ≤ fMag d then 0
  else
    let g := Nat.gcd v (2 ^ 155)
    expLoop (v / g) (2 ^ 155 / g) 8 40

/-! ### Logarithms -/

/-- Sum of w^(2j+1) / (2j+1) in units of 2^-P, `n` terms from power `pw` on. -/
def atanhSum (P w2 : Nat) : Nat → Nat → Nat → Nat
  | 0, _, _ => 0
  | n + 1, pw, j => pw / (2 * j + 1) + atanhSum P w2 n (pw * w2 / 2 ^ P) (j + 1)

/-- 2 * artanh(num / den) for num / den at most 1/3, in units of 2^-P. -/
def atanh2 (P num den : Nat) : Nat :=
  let w := num * 2 ^ P / den
  2 * atanhSum P (w * w / 2 ^ P) (P / 3 + 2) w 0

/-- A bracket of ln(a / b) in units of 2^-P: k ln 2 + 2 artanh((y - 1) / (y + 1)) with y between 1/2 and 2. Each of the P/3 + 2 terms of a series is short by fewer than 8 units, and there are |k| + 1 series. -/
def lnFix (P a b : Nat) : Int × Int :=
  if a = b then (0, 0)
  else
    let k : Int := (a.log2 : Int) - (b.log2 : Int)
    let a' := if k < 0 then a * 2 ^ k.natAbs else a
    let b' := if k < 0 then b else b * 2 ^ k.natAbs
    let z := atanh2 P (if a' < b' then b' - a' else a' - b') (a' + b')
    let v := k * (atanh2 P 1 3 : Int) + (if a' < b' then -(z : Int) else (z : Int))
    let e : Int := 16 * (P / 3 + 2) * (k.natAbs + 1)
    (v - e, v + e)

/-- A value in units of 2^-P as the nearest fp32, unsaturated: past the finite range, the infinity of its sign (R145). -/
def rndFix (P : Nat) (v : Int) : F32 :=
  if v = 0 then 0 else fMake (decide (v < 0)) (min (rndMag (v.natAbs * 2 ^ 149) (2 ^ P)) 0x7F800000)

/-- The fp32 nearest to a real number given by its brackets: the precision doubles until both ends round alike. -/
def nearestF (f : Nat → Int × Int) : Nat → Nat → F32
  | 0, P => rndFix P (f P).1
  | n + 1, P =>
    let b := f P
    if rndFix P b.1 = rndFix P b.2 then rndFix P b.1 else nearestF f n (2 * P)

/-- The log value of a token with mass `e` and difference `d` under a total (R145). -/
def logValue (e : Nat) (d : F32) (total : Nat) : F32 :=
  if 0 < e then (if e = total then 0 else nearestF (fun P => lnFix P e total) 5 96)
  else nearestF (fun P =>
    let b := lnFix P total (2 ^ 60)
    let x := fVal d * 2 ^ P / 2 ^ 149
    (x - b.2, x - b.1)) 5 96

/-- The Gumbel variate G(u) = -ln(-ln u), u = (w + 1/2) / 2^b (R144). -/
def gumbel (w b : Nat) : F32 :=
  nearestF (fun P =>
    let l := lnFix P (2 ^ (b + 1)) (2 * w + 1)
    (-(lnFix P l.2.toNat (2 ^ P)).2, -(lnFix P l.1.toNat (2 ^ P)).1)) 5 96

/-- The nearest integer to a value in units of 2^-P, scaled by 2^26. -/
def rndInt26 (P : Nat) (v : Int) : Nat := ((v * 2 ^ 27 + 2 ^ P) / 2 ^ (P + 1)).toNat

/-- lam(E): the integer nearest to 2^26 ln E (R148). -/
def lamOf : Nat → Nat → Nat → Nat
  | 0, P, e => rndInt26 P (lnFix P e 1).1
  | n + 1, P, e =>
    let b := lnFix P e 1
    if rndInt26 P b.1 = rndInt26 P b.2 then rndInt26 P b.1 else lamOf n (2 * P) e

def lam (e : Nat) : Nat := if e ≤ 1 then 0 else lamOf 5 96 e

/-- The entropy output (R148); a negative result is +0.0. -/
def entropyOf (zPi sH : Nat) : F32 :=
  let h := nearestF (fun P =>
    let b := lnFix P zPi 1
    let q : Int := ((sH * 2 ^ P / (2 ^ 26 * zPi) : Nat) : Int)
    (b.1 - q - 1, b.2 - q)) 5 96
  if fNeg h then 0 else h

end Sys2Proof.Machine
end

