-- ==== Sys2Proof/Config.lean ====
section
/-! DEFINITION. What the spec leaves to an implementation or leaves open: opaque constants without a body, so that no proof can see a value of them. Each is named in notes/assumptions. -/

namespace Sys2Proof.Config

/-- The free value number `n`: nothing constrains it (DESIGN CHOICE, log 2). -/
opaque freeNat : Nat → Nat

/-- The time in ticks after which the Hearth's command-timeout entry of a mailbox command, by its code, falls due (spec/12 R261): the spec gives no interval (DESIGN CHOICE, log 28). -/
opaque mailboxTimeout : Nat → Nat

/-- The digest of a stop sequence, implementation-defined by spec/02 R44 (DESIGN CHOICE, log 2). -/
opaque stopSeqDigest : List Nat → BitVec 32

/-- The SHA-384 digest of the image signing key that the boot ROM holds (spec/13 R268): the spec gives no value (DESIGN CHOICE, log 4). -/
opaque romKeyDigest : List Byte

/-- The calibration registers that exist, by unit and index (spec/13 R276): the spec names none (DESIGN CHOICE, log 4). -/
opaque calibKnown : Nat → Nat → Bool

/-- ECDSA verification over P-384 (spec/13 R272, check 5 of R274) of a signature under a public key over an image hash: named by the spec through FIPS 186-5, uninterpreted here (DESIGN CHOICE, log 4). -/
opaque ecdsaP384Verify : (publicKey digest signature : List Byte) → Bool

/-- The bytes of what the spec names and does not lay out: a bulk image, a superblock, a TRANSFER or an OBJECT entry, an event's work, the mailbox journal and a recorder entry in a dump (spec/17 R372, R374, spec/12 R250, spec/18 R401; DESIGN CHOICE, log 18). -/
opaque imageBytes : {α : Type} → α → List Byte

/-- The capability version and the next capability's offset in the header of the reset control's capability (spec/20 R434): the spec gives neither (DESIGN CHOICE, log 111). -/
opaque capChain : Nat

end Sys2Proof.Config
end

