-- ==== Sys2Proof/Machine/State.lean ====
section
/-! DEFINITION. The state of a GL-4 package as Shapa's manual gives it: two instances, eight outposts, the memories and paths they share, and the queue of waiting commands. Plain data; every field's default is its value after reset. Fault and Refusal name how a step can stop. -/

namespace Sys2Proof.Machine

open Sys2Proof

/-! ### Sequences (spec/02) -/

/-- The eleven sequence states of spec/02 R38. -/
inductive SeqState where
  | free | admitted | prefilling | decoding | parked | paused | shuttered | reheating | migrating | finished | aborted
  deriving DecidableEq, Repr

/-- `kv_state` of spec/02 R45. -/
inductive KvState where
  | valid | shuttered | released | stale
  deriving DecidableEq, Repr

/-- The 512-byte sequence record, field by field (spec/02 R45). Reserved bytes are zero and not held. -/
structure Record where
  hostTag : Nat := 0
  localId : Nat := 0
  household : Nat := 0
  ordinal : Nat := 0
  state : SeqState := .free
  returnState : SeqState := .free
  context : Nat := 0
  cls : Nat := 0
  model : Nat := 0
  recipe : Nat := 0
  seedGiven : Bool := false
  planValid : Bool := false
  notifyAdmit : Bool := false
  notifyPark : Bool := false
  leader : Bool := false
  holdHousehold : Bool := false
  hot : Bool := false
  crossed : Bool := false
  drawId : Nat := 0
  epoch : Nat := 0
  startEpoch : Nat := 0
  seed : List Byte := []
  admitTick : Nat := 0
  deadlineTick : Nat := 0
  promptLen : Nat := 0
  committedLen : Nat := 0
  newTokens : Nat := 0
  maxNewTokens : Nat := 0
  maxWallTicks : Nat := 0
  wallUsed : Nat := 0
  trailCapacity : Nat := 0
  kvLen : Nat := 0
  trailAddr : Nat := 0
  promptAddr : Nat := 0
  auxAddr : Nat := 0
  stopBlockAddr : Nat := 0
  planId : Nat := 0xFFFF
  planSlot : Nat := 0
  nest : Nat := 0
  planState : Nat := 0
  siblings : Nat := 0
  liveMembers : Nat := 0
  stopTokenCount : Nat := 0
  stopSeqCount : Nat := 0
  drawSlotCursor : Nat := 0
  penaltyStart : Nat := 0
  progressInterval : Nat := 0
  nextProgress : Nat := 0
  completionSeqno : Nat := 0
  recentCount : Nat := 0
  recentHead : Nat := 0
  stopSeqLen : List Nat := List.replicate 8 0
  stopSeqDigest : List (BitVec 32) := List.replicate 8 0
  stopTokens : List Nat := List.replicate 16 0
  recentTokens : List Nat := List.replicate 16 0
  pageListAddr : Nat := 0
  pageCount : Nat := 0
  sharedPages : Nat := 0
  layoutTag : Nat := 0
  kvState : KvState := .valid
  pageSizeLog2 : Nat := 4
  lastStep : Nat := 0
  draftLen : Nat := 0
  draftMode : Nat := 0
  duskHandles : List Nat := List.replicate 4 0xFFFFFFFF
  peerSequence : Nat := 0
  migrateSeqno : Nat := 0
  waitTicks : Nat := 0
  preemptions : Nat := 0
  stepsCommitted : Nat := 0
  reheatTokens : Nat := 0
  deriving DecidableEq, Repr

/-- An entry of a page list (spec/05 R105). -/
structure PageEnt where
  page   : Nat
  shared : Bool := false
  deriving DecidableEq, Repr

/-- A page held for an uncommitted row: its index in the chain, the page, whether it is of the draft chain (spec/05 R106). -/
structure AheadPage where
  k     : Nat
  page  : Nat
  draft : Bool := false
  deriving DecidableEq, Repr

/-- An event that waits for the commit or kill of a row in flight (spec/02 R42), with the mailbox command that awaits its result. -/
inductive WaitEvent where
  | cancel (cmd : Option Nat)
  | park (wake : Nat) (cmd : Option Nat)
  | wall
  | epochAbort
  | migrateOut (cmd : Nat) (withKv : Bool) (dst : Nat)
  | extend (toks : List Nat) (mode nest pstate : Nat) (cmd : Nat)
  deriving DecidableEq, Repr

/-- What a Midnight event carries: the model, the previous and the new epoch, their tags, whether Morning changed the outpost set (spec/11 R240, R248). -/
structure MidnightInfo where
  model  : Nat
  old    : Nat
  new    : Nat
  oldTag : Nat
  newTag : Nat
  newSet : Bool := false
  deriving DecidableEq, Repr

/-- A broadcast of spec/12 R256, as it waits for a flow. -/
inductive Bcast where
  | midnight (info : MidnightInfo)
  | epochAbort (model : Nat) (epoch : Nat)
  | evening
  | morning
  | morningResume
  | teardown
  deriving DecidableEq, Repr

/-- A sequence: its record and what Shapa keeps beside it. -/
structure Seq where
  r : Record := {}
  /-- Target page list (05 R105). -/
  pages : List PageEnt := []
  /-- Draft chain (05 R105). -/
  draftPages : List Nat := []
  /-- Ahead pages (05 R106). -/
  ahead : List AheadPage := []
  /-- List blocks of the page-list area that the chains use (05 R105). -/
  blocks : List Nat := []
  /-- Draft list (09 R200). -/
  draftList : List Nat := []
  /-- Draft-valid length L_d (09 R201). -/
  draftValid : Nat := 0
  /-- Draft model and epoch under which L_d holds (09 R201). -/
  draftEpoch : Option (Nat × Nat) := none
  /-- A DRAFT commit entered a FORCE, PAUSE or ACCEPT_END state: the round's drafting has stopped (09 R196). -/
  draftStopped : Bool := false
  /-- Top-N count N fixed at admission (02 R50). -/
  auxTopN : Nat := 0
  /-- Kills by preemption since the last commit (15 R322). -/
  shield : Nat := 0
  /-- Consecutive steps of its model in which it was passed over (04 R82). -/
  passedOver : Nat := 0
  /-- Tick of the last touch, for cooling (02 R46). -/
  touched : Nat := 0
  /-- Admission order (03 R65). -/
  admitNo : Nat := 0
  /-- The next entry committed carries CROSS (11 R241). -/
  crossPending : Bool := false
  /-- Parked by eviction (05 R127). -/
  evicted : Bool := false
  /-- Its household has been passed to composition (03 R65). -/
  passed : Bool := false
  /-- Events that wait for the commit or the kill of its row in flight (02 R42). -/
  waiting : List WaitEvent := []
  /-- Broadcasts not yet in its flow while it is cold, each with the tick of the broadcast (12 R256). -/
  bcast : List (Bcast × Nat) := []
  /-- A park wake held until Morning completes (12 R265), by due tick. -/
  heldWake : Option Nat := none
  /-- The model whose Midnight event waits for the end of a migration (11 R240). -/
  migMidnight : List MidnightInfo := []
  /-- Ticks of the wall budget that have passed and are not charged to `wall_used` yet: a commit or an event of the sequence charges them (02 R40, R45). -/
  wall : Nat := 0
  deriving DecidableEq, Repr

/-- A household: its page charge and prefix figures (02 R36, 03 R56). -/
structure Household where
  id : Nat
  leader : Nat
  context : Nat
  cls : Nat
  model : Nat
  /-- Prompt length L. -/
  promptLen : Nat
  /-- Trail capacity C. -/
  capacity : Nat
  /-- Pages S + [f > 0] of the prefix. -/
  prefixPages : Nat
  /-- Prefix pages allocated so far. -/
  prefixAlloc : Nat := 0
  /-- The prefix page of each index, as shared (05 R114); all ones where it is no longer held. -/
  prefixIds : List Nat := []
  /-- Per-member share of the charge. -/
  share : Nat
  /-- Unallocated part of the admission page charge. -/
  unalloc : Nat
  deriving DecidableEq, Repr

/-! ### Recipes, plans, models, requests -/

/-- A bias entry (06 R129). -/
structure Bias where
  token : Nat
  mask  : Bool
  value : F32
  deriving DecidableEq, Repr

/-- A recipe as RECIPE_DEFINE copied it (06 R129). -/
structure Recipe where
  id : Nat := 0
  drawRace : Bool := false
  race16 : Bool := false
  policyPlanMask : Bool := false
  entropy : Bool := false
  penaliseExtend : Bool := false
  invTemperature : F32 := 0x3F800000
  topK : Nat := 0
  topP : Nat := 0
  minP : Nat := 0
  repetition : F32 := 0
  presence : F32 := 0
  frequency : F32 := 0
  penaltySpan : Nat := 0
  topN : Nat := 0
  draftValid : Bool := false
  draftModel : Nat := 0
  draftLen : Nat := 0
  draftMode : Nat := 0
  /-- Parent of node n at index n (09 R194). -/
  draftTree : List Nat := []
  bias : List Bias := []
  /-- CRC-32C of the image (16 R347, `recipe_check`). -/
  check : Nat := 0
  deriving DecidableEq, Repr

/-- A plan's state entry (10 R220). -/
structure PlanState where
  domain : Nat
  band0 : Nat
  band1 : Nat
  band2 : Nat
  transBase : Nat
  word : Nat
  deriving DecidableEq, Repr

/-- A validated plan image (10 R218-R220); masks are sets of classes as bit sets. -/
structure Plan where
  planId : Nat
  vocab : Nat
  classCount : Nat
  classMap : List Nat
  states : List PlanState
  masks : List Nat
  trans : List Nat
  check : Nat
  deriving DecidableEq, Repr

/-- A registered plan (10 R215). -/
structure PlanReg where
  id : Nat
  addr : Nat
  size : Nat
  deriving DecidableEq, Repr

/-- A Library slot in use: fetching (no plan yet) or resident (10 R216). -/
structure LibSlot where
  slot : Nat
  planId : Nat
  plan : Option Plan := none
  deriving DecidableEq, Repr

/-- The Library. -/
structure Library where
  registry : List PlanReg := []
  /-- FAILED ids with the number of the failed check. -/
  failed : List (Nat × Nat) := []
  slots : List LibSlot := []
  /-- The tick at which a committed row last used each plan; none: no row has (10 R217). -/
  used : List (Nat × Nat) := []
  /-- Demanded plans in order, with the class-0 mark of the demand. -/
  demand : List (Nat × Bool) := []
  deriving DecidableEq, Repr

/-- Residency states of 03 R69. -/
inductive ModelState where
  | empty | described | loadPending | resident | evicting | refused
  deriving DecidableEq, Repr

/-- States of a staged epoch (11 R233). -/
inductive StageState where
  | none | staged | ready | armed
  deriving DecidableEq, Repr

/-- What an epoch descriptor gives (11 R231). -/
structure EpochDesc where
  epoch : Nat := 0
  layoutTag : Nat := 0
  vocab : Nat := 0
  weightHandle : List Byte := []
  deriving DecidableEq, Repr

/-- A model of the directory (03 R68) with its epochs. -/
structure Model where
  state : ModelState := .empty
  pageSizeLog2 : Nat := 0
  pinned : Bool := false
  wide : Bool := false
  vocabMax : Nat := 0
  maxPositions : Nat := 0
  weightFootprint : Nat := 0
  lastStep : Nat := 0
  requestTick : Nat := 0
  /-- Committed epoch, valid when EPOCH_VALID. -/
  committed : Option EpochDesc := none
  /-- Co-resident old epoch, valid when OLD_EPOCH_VALID. -/
  old : Option EpochDesc := none
  stage : StageState := .none
  staged : EpochDesc := {}
  /-- A NO_SLOT refusal made the model a claimant (03 R71). -/
  noSlotClaim : Bool := false
  deriving DecidableEq, Repr

/-- The model directory (03 R68-R71). -/
structure Directory where
  models : List Model := List.replicate 64 {}
  /-- FIFO of demanded models with the class-0 mark of the demand. -/
  demand : List (Nat × Bool) := []
  loadRequest : BitVec 64 := 0
  evictRequest : BitVec 64 := 0
  epochRetired : BitVec 64 := 0
  deriving DecidableEq, Repr

/-- A request descriptor (02 R30). -/
structure Request where
  hostTag : Nat := 0
  seedGiven : Bool := false
  planValid : Bool := false
  notifyAdmit : Bool := false
  notifyPark : Bool := false
  cls : Nat := 0
  model : Nat := 0
  recipe : Nat := 0
  planId : Nat := 0
  planStartState : Nat := 0
  siblings : Nat := 0
  stopTokenCount : Nat := 0
  stopSeqCount : Nat := 0
  maxNewTokens : Nat := 0
  maxWallTicks : Nat := 0
  deadlineTick : Nat := 0
  drawId : Nat := 0
  promptLen : Nat := 0
  promptAddr : Nat := 0
  trailAddr : Nat := 0
  trailCapacity : Nat := 0
  progressInterval : Nat := 0
  auxAddr : Nat := 0
  stopBlockAddr : Nat := 0
  seed : List Byte := []
  stopTokens : List Nat := []
  deriving DecidableEq, Repr

/-- A deferred request (03 R61, R64; 16 R345, R346). -/
structure Deferred where
  req : Request
  arrival : Nat
  /-- Order of arrival over all contexts. -/
  arrivalNo : Nat
  /-- Blocks later requests of its context (03 R61). -/
  blocks : Bool := false
  /-- Deferred for its model's residency (03 R68 `deferred_requests`). -/
  forModel : Bool := false
  /-- Number of the open forward (16 R346). -/
  fwd : Option Nat := none
  /-- Peers it was offered to, with the tick (16 R345). -/
  offered : List (Nat × Nat) := []
  deriving DecidableEq, Repr

/-- A completion record (02 R51). -/
structure Completion where
  hostTag : Nat := 0
  localId : Nat := 0
  household : Nat := 0
  ordinal : Nat := 0
  kind : Nat := 0
  reason : Nat := 0
  state : SeqState := .free
  promptReleased : Bool := false
  kvReleased : Bool := false
  crossed : Bool := false
  committedLen : Nat := 0
  newTokens : Nat := 0
  epoch : Nat := 0
  seqno : Nat := 0
  /-- Base of the arrival whose space returns once the host has passed this record (16 R349); not in the record's bytes. -/
  arrival : Option Nat := none
  deriving DecidableEq, Repr

/-! ### Contexts and the Porch (spec/14, spec/15) -/

/-- A token bucket: capacity, rate and level, the level and rate in 1/65,536 of its unit (15 R318). -/
structure Bucket where
  capacity : Nat := 0
  rate : Nat := 0
  level : Int := 0
  deriving DecidableEq, Repr

/-- What CONTEXT_OPEN and CONTEXT_CONFIGURE set (14 R300). -/
structure CtxCfg where
  admin : Bool := false
  c0Service : Bool := false
  /-- false SHUTTER, true RELEASE. -/
  kvTurnRelease : Bool := false
  /-- 0 DRAIN, 1 CROSS, 2 ABORT (11 R239). -/
  epochPolicy : Nat := 0
  /-- false KEEP, true REHEAT. -/
  crossReheat : Bool := false
  deferLimit : Nat := 0
  seed : List Byte := List.replicate 16 0
  sqBase : Nat := 0
  sqEntries : Nat := 0
  cqEntries : Nat := 0
  cqBase : Nat := 0
  shadow : Nat := 0
  deriving DecidableEq, Repr

/-- The counters of the accounting record (15 R331). -/
structure Acct where
  rowsCommitted : Nat := 0
  entriesCommitted : Nat := 0
  rowWaitTicks : Nat := 0
  regulatorWaitTicks : Nat := 0
  latchWaitTicks : Nat := 0
  deferTicks : Nat := 0
  cmdWaitTicks : Nat := 0
  preemptedRows : Nat := 0
  preemptedSteps : Nat := 0
  preempting : Nat := 0
  killedRowsOther : Nat := 0
  planFaults : Nat := 0
  raisedSteps : Nat := 0
  deriving DecidableEq, Repr

/-- One context: its Porch group (14 R311), configuration, buckets, queues and faults. -/
structure Ctx where
  cfg : CtxCfg := {}
  sqTail : Nat := 0
  sqHead : Nat := 0
  cqHead : Nat := 0
  cqTail : Nat := 0
  stream : List Completion := []
  isOpen : Bool := false
  cqHold : Bool := false
  faulted : Bool := false
  sqBadKind : Nat := 0
  irqCount : Nat := 0
  irqTicks : Nat := 0
  /-- Records written to the ring since irq_cq was last cleared, and the tick of the oldest (14 R312). -/
  unsignalled : Nat := 0
  oldestTick : Nat := 0
  closing : Bool := false
  teardown : Bool := false
  faultCause : Nat := 0
  /-- HBM address of the failing read behind cause 3 (17 R388). -/
  faultAddr : Nat := 0
  adm : Bucket := {}
  row : Bucket := {}
  hbm : Bucket := {}
  acct : Acct := {}
  defer : List Deferred := []
  /-- Arrivals that return when cq_head passes a ring index: (index, base) (16 R349). -/
  arrivalDue : List (Nat × Nat) := []
  deriving DecidableEq, Repr

/-- Interrupt status and enable (14 R311). -/
structure Irq where
  cq : BitVec 16 := 0
  mb : BitVec 16 := 0
  dir : Bool := false
  fault : Bool := false
  study : Bool := false
  hearth : Bool := false
  enable : BitVec 36 := 0
  deriving DecidableEq, Repr

/-! ### Mailbox (spec/14) -/

/-- A result entry (14 R293). -/
structure ResultEntry where
  cookie : Nat := 0
  code : Nat := 0
  result : Nat := 0
  detail : Nat := 0
  doneTick : Nat := 0
  data : List Byte := []
  deriving DecidableEq, Repr

/-- A mailbox window (14 R288). -/
structure Window where
  accepted : Nat := 0
  pending : Bool := false
  resHead : Nat := 0
  resTail : Nat := 0
  /-- The command staging area, 1,024 bytes from offset 0. -/
  cmd : Mem := []
  /-- Result queue: (index mod 32, entry). -/
  results : List (Nat × ResultEntry) := []
  deriving DecidableEq, Repr

/-- Journal state of an accepted command (13 R282). -/
inductive CmdPhase where
  | accepted | issued
  deriving DecidableEq, Repr

/-- An entry of the mailbox journal (13 R282): an accepted command whose result is not yet written. -/
structure MboxCmd where
  id : Nat
  window : Nat
  code : Nat
  irq : Bool
  cookie : Nat
  params : List Byte
  acceptTick : Nat
  /-- Tick at which its processing began. -/
  startTick : Nat := 0
  phase : CmdPhase := .accepted
  /-- Hallway events not yet resolved, and how many acted (14 R441). -/
  outstanding : Nat := 0
  acted : Nat := 0
  withdrawn : Nat := 0
  /-- The handle of its command-timeout entry (12 R261). -/
  timer : Option Nat := none
  deriving DecidableEq, Repr

/-! ### Kitchen (spec/04, spec/05) -/

/-- Row kinds (04 R77). -/
inductive RowKind where
  | prefill | decode | draft | verify | draftScore
  deriving DecidableEq, Repr

/-- A page-table entry (05 R112). -/
structure PtEntry where
  page : Nat
  write : Bool := false
  shared : Bool := false
  copyDst : Bool := false
  deriving DecidableEq, Repr

/-- A copy directive (05 R111). -/
structure CopyDir where
  src : Nat
  dst : Nat
  positions : Nat
  row : Nat
  deriving DecidableEq, Repr

/-- A row of a step (04 R89). -/
structure StepRow where
  lid : Nat
  context : Nat
  cls : Nat
  kind : RowKind
  start : Nat
  count : Nat
  tokenOffset : Nat := 0
  tokens : List Nat := []
  ptOffset : Nat := 0
  pt : List PtEntry := []
  wave : Option Nat := none
  waveRow : Nat := 0
  logitCount : Nat := 0
  pair : Option Nat := none
  planId : Option Nat := none
  hbmCharge : Nat := 0
  /-- The admission of the row's sequence: a local id may be taken again before a late event of the row is applied. -/
  admitNo : Nat := 0
  deriving DecidableEq, Repr

/-- Phases of a step (04 R74). -/
inductive Phase where
  | composing | issued | landing | sampled | committing | committed | killed
  deriving DecidableEq, Repr

/-- The outputs of one logit row (06 R149). -/
structure RowOut where
  token : Nat := 0
  behaviour : F32 := 0
  policy : F32 := 0
  entropy : F32 := 0
  top : List (Nat × F32) := []
  deriving DecidableEq, Repr

/-- Trail sources (02 R48). -/
inductive Source where
  | sampled | forced | extend | draftAccepted | residual | bonus
  deriving DecidableEq, Repr

/-- The result of a row, as the Landing holds it: the tokens to commit, the draft tokens drawn, the accepted path's figures, or U = 0. -/
structure RowResult where
  row : Nat
  outs : List (Source × RowOut) := []
  drafts : List Nat := []
  /-- The spine length m of 09 R211. -/
  spine : Nat := 0
  empty : Bool := false
  deriving DecidableEq, Repr

/-- A step (04 R73-R91). -/
structure Step where
  num : Nat
  model : Nat
  epoch : Nat
  layoutTag : Nat := 0
  vocab : Nat := 0
  draftModel : Option (Nat × Nat) := none
  phase : Phase := .composing
  rows : List StepRow := []
  copies : List CopyDir := []
  wide : Bool := false
  class0 : Bool := false
  c0Caps : Bool := false
  fused : Bool := false
  fuseIndex : Nat := 0
  fuseBase : Nat := 0
  firstHalf : Nat := 0
  waves : Nat := 0
  composeTick : Nat := 0
  slot : Nat := 0
  outposts : BitVec 8 := 0
  landed : List Nat := []
  completed : List Nat := []
  /-- A kill, or the end of composition for a Midnight, of its model since it was composed: no later step continues a fused run from it (04 R91, 11 R235). -/
  runOver : Bool := false
  killAcked : List Nat := []
  results : List RowResult := []
  committedRows : List Nat := []
  /-- Peer-channel credits reserved (15 R323). -/
  credits : Nat := 0
  /-- The class at which it was raised (15 R327). -/
  raisedAt : Option Nat := none
  /-- The latches for which it was raised (15 R327). -/
  raisedBy : List Nat := []
  commitTick : Nat := 0
  deriving DecidableEq, Repr

/-- Where the day cycle stands (11 R244, R247). -/
inductive Turn where
  | service | evening | training | morning
  deriving DecidableEq, Repr

/-- The Kitchen's registers and turn (19 Kitchen block). -/
structure Kitchen where
  stepLogitLimit : Nat := 16384
  stepPrefillLimit : Nat := 262144
  chunkLimit : Nat := 8192
  c0LogitCap : Nat := 4096
  c0PrefillCap : Nat := 16384
  starveSteps : Nat := 64
  fuseMax : Nat := 4
  depth : Nat := 2
  preemptMask : Nat := 1
  preemptShield : Nat := 3
  stepAssigned : Nat := 0
  stepCommitted : Nat := 0
  c0Caps : Bool := false
  effLogit : Nat := 16384
  effPrefill : Nat := 262144
  kills : Nat := 0
  preemptKills : Nat := 0
  fused : Nat := 0
  passedOver : Nat := 0
  quiesced : Bool := false
  /-- The Evening broadcast of the turn in progress has been made (11 R245). -/
  eveningSent : Bool := false
  turn : Turn := .service
  /-- Morning under way changed the outpost set (11 R247, R248). -/
  newSet : Bool := false
  /-- Rows that a takeover reruns before the Midnight of their ARMED model: (model, admission) (11 R249). -/
  rerun : List (Nat × Nat) := []
  /-- The stage of 11 R247 that a Morning under way is in; 0: none. -/
  morningStage : Nat := 0
  /-- Steps outside COMMITTED, or killed and not yet acknowledged by every die. -/
  steps : List Step := []
  /-- The latest COMMITTED step of each model, for fused runs (04 R91). -/
  lastCommitted : List Step := []
  nextSlot : Nat := 0
  nextHalf : Nat := 0
  /-- Contexts raised, as the latest composition found them (15 R327): (latch, context, class). -/
  raises : List (Nat × Nat × Nat) := []
  /-- Rows of a step killed by a KERNEL_FAULT (17 R360). -/
  kernelFaultRows : List Nat := []
  deriving DecidableEq, Repr

/-- The Foyer (19 Foyer and directory block). -/
structure Foyer where
  pageHeadroom : Nat := 4096
  coolMark : Nat := 57344
  c0Sequences : Nat := 0
  c0Pages : Nat := 0
  /-- Context whose queue head was last taken (03 R63). -/
  turn : Nat := 15
  nextArrival : Nat := 0
  nextAdmit : Nat := 0
  /-- Forwarded requests entered ahead of new ring entries (16 R351): context, request. -/
  forwarded : List (Nat × Request) := []
  deriving DecidableEq, Repr

/-- States of a page that is not FREE (05 R104). -/
inductive PageState where
  | ahead | held (count : Nat) | lent
  /-- In no list any more, and not free while the page table of an uncommitted step names it (05 R104). -/
  | pinned
  deriving DecidableEq, Repr

/-- The Pantry: the pages that are not FREE, by page id; every other id below N is FREE. -/
structure Pantry where
  used : List (Nat × PageState) := []
  deriving DecidableEq, Repr

/-! ### Latches, Dusk lists -/

/-- A latch (15 R329). -/
structure Latch where
  owner : Nat := 0
  held : Bool := false
  across : Bool := false
  waiting : Bool := false
  heldSteps : Nat := 0
  holder : Nat := 0
  maxHold : Nat := 0
  enable : Bool := false
  models : BitVec 64 := 0
  acquires : Nat := 0
  raises : Nat := 0
  deriving DecidableEq, Repr

/-- A flow of the Hallway (12 R250). -/
inductive Flow where
  | seq (lid : Nat)
  | unit (n : Nat)
  deriving DecidableEq, Repr

/-- A Dusk entry (12 R261): list 0 deadline, 1 retry, 2 park timeout, 3 command timeout. -/
structure Dusk where
  list : Nat
  flow : Flow
  due : Nat
  handle : Nat
  spilled : Bool := false
  deriving DecidableEq, Repr

/-- One Dusk list's counters (12 R266). -/
structure DuskCount where
  fired : Nat := 0
  late : Nat := 0
  stale : Nat := 0
  deriving DecidableEq, Repr

/-! ### Peer fabric (spec/16) -/

/-- A peer-table entry (16 R342). -/
structure Peer where
  addr : Nat
  role : Nat := 0
  gen : Nat := 0xFFFF
  reachable : Bool := false
  lastTick : Nat := 0
  resident : BitVec 64 := 0
  described : BitVec 64 := 0
  opens : BitVec 16 := 0
  flags : Nat := 0
  arrivalFree : Nat := 0
  freeIds : Nat := 0
  fwBuild : Nat := 0
  /-- Its answer is awaited by the running discovery (16 R343). -/
  asked : Bool := false
  deriving DecidableEq, Repr

/-- A DATA chunk of a transfer: part, byte offset, length, acknowledged (16 R350). -/
structure Chunk where
  part : Nat
  offset : Nat
  length : Nat
  acked : Bool := false
  deriving DecidableEq, Repr

/-- A message of a transfer as last sent: its type, its part and offset, and the generation it named (16 R338, R339). -/
structure SentAs where
  type : Nat
  part : Nat
  offset : Nat
  gen : Nat
  deriving DecidableEq, Repr

/-- Stages of an outgoing transfer (16 R347); `failed` until its `migrate_fail` is applied. -/
inductive OutStage where
  | offered | data | handover | failed
  deriving DecidableEq, Repr

/-- An outgoing transfer: a migration of a sequence, or a forward of a deferred request (16 R347). -/
structure OutXfer where
  subject : Nat
  attempt : Nat
  forward : Bool
  lid : Nat := 0
  context : Nat := 0
  dst : Nat
  withKv : Bool := false
  stage : OutStage := .offered
  chunks : List Chunk := []
  peerSubject : Nat := 0
  kvTaken : Bool := false
  lastProgress : Nat := 0
  /-- Tick of the last retry (16 R350). -/
  lastSend : Nat := 0
  cmd : Option Nat := none
  req : Option Request := none
  /-- What has been sent, and under which generation of the peer (16 R339, R358). -/
  told : List SentAs := []
  deriving DecidableEq, Repr

/-- An incoming transfer (16 R347, R349). -/
structure InXfer where
  subject : Nat
  attempt : Nat
  forward : Bool
  src : Nat
  context : Nat
  lid : Nat := 0
  /-- Base of its space in the arrival area. -/
  arrival : Nat := 0
  promptAddr : Nat := 0
  stopAddr : Nat := 0
  trailAddr : Nat := 0
  auxAddr : Nat := 0
  kvTaken : Bool := false
  kvPages : List Nat := []
  handedOver : Bool := false
  /-- Tick of the OFFER (16 R350). -/
  opened : Nat := 0
  offer : List Byte := []
  /-- Part 0 has been checked and the arrival placed (16 R348, R349). -/
  placed : Bool := false
  /-- The final record or descriptor, once HANDOVER has arrived (16 R347). -/
  final : List Byte := []
  /-- Staged journal entries that must be durable before ACK (16 R351). -/
  ackWait : Option Nat := none
  /-- What has been sent, and under which generation of the peer (16 R339, R358). -/
  told : List SentAs := []
  deriving DecidableEq, Repr

/-! ### The mirrored state of an instance (17 R361, 19 R416) -/

/-- Everything the mirror stream carries, and so what the mirror of a twin pair holds. -/
structure Mirrored where
  windows : List Window := List.replicate 64 {}
  mbox : List MboxCmd := []
  nextCmd : Nat := 0
  ctxs : List Ctx := List.replicate 16 {}
  irq : Irq := {}
  seqs : List Seq := []
  households : List Household := []
  foyer : Foyer := {}
  dir : Directory := {}
  recipes : List Recipe := []
  lib : Library := {}
  pantry : Pantry := {}
  kitchen : Kitchen := {}
  latches : List Latch := List.replicate 256 {}
  dusk : List Dusk := []
  nextHandle : Nat := 0
  outXfers : List OutXfer := []
  inXfers : List InXfer := []
  nextForward : Nat := 0
  directions : List (Nat × List Nat) := []
  /-- Arrivals in the arrival area: base address, 64 KiB blocks (16 R349). -/
  arrivals : List (Nat × Nat) := []
  traceMin : Nat := 16
  causeEnable : Nat := 0
  deriving DecidableEq, Repr

/-! ### Hearth (spec/13) -/

/-- Dawn stages (13 R275). -/
inductive DawnStage where
  | rom | read | verify | start | config | discovery | ready | failed
  deriving DecidableEq, Repr

/-- What a hub die asks the flash grant for (01 R25). -/
inductive FlashUse where
  | dawn | program
  /-- FIRMWARE_CONFIRM's rewrite of the boot record (13 R279). -/
  | confirm (cmd : Nat)
  deriving DecidableEq, Repr

/-- A section entry of an image (13 R273). -/
structure Section where
  offset : Nat
  size : Nat
  target : Nat
  digest : List Byte
  deriving DecidableEq, Repr

/-- What the Hearth keeps of the image it runs (13 R272). -/
structure ImageInfo where
  ifMinor : Nat := 0
  ifMajor : Nat := 0
  fwBuild : Nat := 0
  watchdogMs : Nat := 0
  publicKey : List Byte := []
  signature : List Byte := []
  imageHash : List Byte := []
  reservedZero : Bool := true
  sections : List Section := []
  trims : List Byte := []
  deriving DecidableEq, Repr

/-- An image-write in progress (13 R279). -/
structure ImgWrite where
  cmd : Nat
  slot : Bool
  prefer : Bool
  img : List Byte
  /-- The grant is held and programming runs. -/
  programming : Bool := false
  deriving DecidableEq, Repr

/-- The Hearth (13 R286 and the parts of R268). -/
structure Hearth where
  stage : DawnStage := .rom
  slot : Bool := false
  fellBack : Bool := false
  trial : Bool := false
  coreUp : BitVec 4 := 0
  coreFenced : BitVec 4 := 0
  restarts : Nat := 0
  ifMinor : Nat := 0
  ifMajor : Nat := 0
  fwBuild : Nat := 0
  watchdogMs : Nat := 0
  load : List Nat := List.replicate 4 0
  busyReplies : Nat := 0
  wdogExpired : BitVec 4 := 0
  flushDefer : Nat := 0
  flushDeferMax : Nat := 0
  trimApplied : Nat := 0
  trimIgnored : Nat := 0
  dawnUs : Nat := 0
  resetTick : Nat := 0
  /-- ROM: the slot it tried first, the slot being read, and the slots still to try. -/
  firstSlot : Bool := false
  trying : Bool := false
  left : List Bool := []
  image : ImageInfo := {}
  sectionTable : List Section := []
  /-- The Cellar firmware copy exists (13 R281). -/
  cellarCopy : Bool := false
  /-- Ticks of each core's watchdog expiries (13 R283). -/
  expiries : List (Nat × Nat) := []
  imgWrite : Option ImgWrite := none
  /-- Ticks since each core last kicked its watchdog (13 R280). -/
  wdog : List Nat := List.replicate 4 0
  /-- The sections that stand in the local SRAM of cores 0 to 3 and in shared SRAM (13 R268, R273). -/
  sram : List (List Byte) := List.replicate 5 []
  deriving DecidableEq, Repr

/-! ### Hallway (spec/12) -/

/-- The work of a request event (12 R251), with the mailbox command that awaits it. -/
inductive EvKind where
  | tokenCommit (step row : Nat)
  | stopCheck (step row : Nat)
  | kill (step : Nat)
  | admission
  /-- From the Foyer (4), the Porch (2) or the Hallway (8). -/
  | warm (src : Nat)
  | cool
  | evictPark
  | evictResume
  | prefixTake (kvLen : Nat)
  | invalidate
  | cancel (cmd : Option Nat)
  | park (wake : Nat) (cmd : Option Nat)
  | resume (cmd : Option Nat)
  | extend (toks : List Nat) (mode nest pstate : Nat) (cmd : Nat)
  | forceRun
  | midnight (info : MidnightInfo)
  | epochAbort (cmd : Option Nat)
  | evening
  | morning
  | morningResume
  | migrateOut (cmd : Nat) (withKv : Bool) (dst : Nat)
  | migrateAck
  | migrateFail (reason : Nat)
  | migrateIn (subject : Nat)
  | migrateDone (subject : Nat)
  | household
  | teardown
  | planReady
  /-- From the Porch (2) or the Hearth (9). -/
  | context (src : Nat)
  /-- An expired Dusk entry: its list, its handle, its due tick (12 R263, R265). -/
  | timer (list handle due : Nat)
  deriving DecidableEq, Repr

/-- A request event (12 R250): in an usher's queue, or in or before an intake queue. -/
structure Event where
  flow : Flow
  /-- Its arrival number, given as the scheduler accepts it into its flow (12 R252). -/
  arrival : Nat := 0
  kind : EvKind
  bcast : Bool := false
  late : Bool := false
  class0 : Bool := false
  tick : Nat := 0
  /-- Usher whose queue holds it (12 R257). -/
  usher : Nat := 0
  deriving DecidableEq, Repr

/-- Usher registers that are not read off its queue (12 R266). -/
structure Usher where
  busy : Bool := false
  load : Nat := 0
  released : Nat := 0
  waitCycles : Nat := 0
  waitMax : Nat := 0
  stallUs : Nat := 0
  deriving DecidableEq, Repr

/-- Intake queue registers that are not read off the queue, and the tick since which its source is held (12 R259, R260, R266). -/
structure Intake where
  highWater : Nat := 0
  heldCycles : Nat := 0
  heldSince : Option Nat := none
  deriving DecidableEq, Repr

/-- The Hallway. -/
structure Hallway where
  /-- Events in the ushers' queues, in the order in which the scheduler accepted them (12 R252, R257). -/
  events : List Event := []
  /-- Events in the intake queues, and behind each full one those that its source still holds (12 R259). -/
  waiting : List Event := []
  /-- The intake queue served last (12 R259). -/
  served : Nat := 4
  /-- Next arrival number of each flow with events outstanding (12 R252). -/
  nextArrival : List (Flow × Nat) := []
  /-- Affinity usher of a flow (12 R257). -/
  affinity : List (Flow × Nat) := []
  ushers : List Usher := List.replicate 32 {}
  intakes : List Intake := List.replicate 5 {}
  counts : List DuskCount := List.replicate 4 {}
  /-- Entries of each Dusk list that have fired in the present tick (12 R264). -/
  firedNow : List Nat := List.replicate 4 0
  deriving DecidableEq, Repr

/-! ### Landing and outposts (spec/06, spec/07, spec/08) -/

/-- A 64-bit draw of a logit row: its kind, position and draw slot (08 R179-R183). -/
structure RowDraw where
  kind : Nat
  position : Nat
  low : Nat
  deriving DecidableEq, Repr

/-- What names a row's draws (07 R159, 08 R181, R186): key bytes, draw id, the position of its RACE blocks, and its 64-bit draws. -/
structure DrawName where
  key : List Byte := []
  drawId : Nat := 0
  position : Nat := 0
  draws : List RowDraw := []
  deriving DecidableEq, Repr

/-- A row set-up (07 R159). -/
structure RowSetup where
  h : RowHandle
  vocab : Nat
  wide : Bool
  /-- The outpost set of the step, as a mask (07 R152). -/
  outposts : BitVec 8
  firstHalf : Nat
  recipe : Recipe
  /-- The row is a draft row: no truncation, inverse draw (09 R198). -/
  draft : Bool := false
  /-- The row is a target row of a VERIFY pair: it takes part in the pair's verification and draws nothing of its own (09 R205). -/
  verify : Bool := false
  penalty : List (Nat × Nat) := []
  /-- Plan governing the row: its id, and the class-allowed mask of its state (10 R222). -/
  plan : Option (Nat × Nat) := none
  draw : DrawName := {}
  deriving DecidableEq, Repr

/-- A histogram bin (07 R160): bin, count, mass, least and greatest key. -/
structure Bin where
  b : Nat
  count : Nat
  mass : Nat
  minKey : Nat
  maxKey : Nat
  deriving DecidableEq, Repr

/-- The cut of a row (07 R162): key, quota (none: ALL) and kept mass. -/
structure Cut where
  kb : Nat
  quota : Option Nat
  mass : Nat
  deriving DecidableEq, Repr

/-- The pass a CUT message asks for (07 R166). -/
inductive NextPass where
  | kept | race
  deriving DecidableEq, Repr

/-- How the residual pass weighs an id of a verified row (09 R206, R208): the target's kept mass under a cut whose tie group ends at an id, folded with the draft row's mass under (Zq, Y, shift) of each rejection; no fold for a bonus draw. -/
structure ResidSpec where
  kb : Nat
  tieEnd : Nat
  draft : Option (RowSetup × F32)
  folds : List (Nat × Nat × Nat)
  deriving DecidableEq, Repr

/-- How a verification ends: the accepted nodes, the slot of the last token, its draw, whether it is a bonus, and the rejections at that slot (09 R205-R208). -/
structure Verdict where
  path : List Nat
  slot : Nat
  draw : Nat
  bonus : Bool
  folds : List (Nat × Nat × Nat)
  deriving DecidableEq, Repr

/-- Messages down a channel (07 R166). -/
inductive DownMsg where
  | rowSetup (su : RowSetup)
  | maxResult (h : RowHandle) (m mPi : F32)
  | roundReq (h : RowHandle) (round keyPrefix : Nat)
  | cut (h : RowHandle) (kb : Nat) (quota : Option Nat) (pass : NextPass)
  | quotas (h : RowHandle) (q : List Nat)
  /-- The CUT that runs the residual pass (09 R207). -/
  | resid (h : RowHandle) (spec : ResidSpec)
  | locate (h : RowHandle) (sliver residual kb quota lane : Nat)
  | done (h : RowHandle)
  deriving DecidableEq, Repr

/-- A top-N candidate: token, policy difference, policy mass (07 R160). -/
structure Cand where
  token : Nat
  dPi : F32
  ePi : Nat
  key : Nat
  deriving DecidableEq, Repr

/-- MASS pass results of an outpost (07 R160). -/
structure MassInfo where
  z : Nat
  zPi : Nat
  sH : Nat
  minCount : Nat
  cands : List Cand
  hist : List Bin
  /-- The row's INVERSE draws, from the outpost of rank 0. -/
  us : List Nat
  deriving DecidableEq, Repr

/-- The located or winning token (07 R165). -/
structure LocInfo where
  id : Nat
  d : F32
  e : Nat
  dPi : F32
  ePi : Nat
  before : Nat
  deriving DecidableEq, Repr

/-- Messages up a channel (07 R166). -/
inductive UpMsg where
  | maxSum (h : RowHandle) (best policy : Option (Nat × Nat)) (count : Nat) (race : Option (F32 × Nat))
  | massSum (h : RowHandle) (info : MassInfo)
  | roundSum (h : RowHandle) (hist : List Bin)
  | keptSum (h : RowHandle) (slivers : List (Nat × Nat))
  /-- The KEPT_SUM of a residual pass: the outpost's total and its slivers' shares (09 R207). -/
  | residSum (h : RowHandle) (total : Nat) (l : List Nat)
  | raceSum (h : RowHandle) (best : Option (F32 × Nat))
  | located (h : RowHandle) (info : LocInfo)
  | parity (h : RowHandle) (lane : Nat)
  deriving DecidableEq, Repr

/-- Stages of a row on an outpost (07 R160). -/
inductive OutStagePass where
  | setup | maxPass | maxSent | massPass | massSent | roundPass | roundSent | keptPass | keptSent | residPass | residSent | racePass | raceSent | locatePass | locateSent
  deriving DecidableEq, Repr

/-- A row held by an outpost. -/
structure OutRow where
  su : RowSetup
  stage : OutStagePass := .setup
  m : F32 := 0
  mPi : F32 := 0
  round : Nat := 1
  keyPrefix : Nat := 0
  kb : Nat := 0
  quota : Option Nat := none
  quotas : List Nat := []
  sliver : Nat := 0
  residual : Nat := 0
  /-- The residual pass that the row is in (09 R207). -/
  resid : Option ResidSpec := none
  /-- The lane whose slice was re-requested from the die, and whether the die has rewritten it (07 R158). -/
  rereq : Option Nat := none
  rewritten : Bool := false
  /-- The lanes whose slice the die has rewritten and no MAX pass has read since (17 R359). -/
  reread : List Nat := []
  /-- Its step was killed while its pass was in hand: it leaves at the end of the pass (07 R172). -/
  killed : Bool := false
  /-- The fenced groups under which the row's passes began (07 R171). -/
  fences : BitVec 32 := 0
  /-- The instance whose Landing it belongs to. -/
  inst : InstId := .A
  deriving DecidableEq, Repr

/-- A granule or a marker on its way into a Larder (07 R156, R157). -/
inductive PortItem where
  | granule (off : Nat) (data : List Byte)
  | marker (step wave : Nat)
  deriving DecidableEq, Repr

/-- The draw list of a step at an outpost (08 R186): its race rows and row draws still to generate. -/
structure DrawList where
  step : Nat
  rows : List RowSetup
  deriving DecidableEq, Repr

/-- A keystream block in a FIFO: the row-draw buffer is lane 512 (08 R186). -/
structure KeyBlock where
  h : RowHandle
  kind : Nat
  lane : Nat
  low : Nat
  value : BitVec 128
  deriving DecidableEq, Repr

/-- A class-map slot (10 R224): the plan and the lanes whose slice has arrived. -/
structure MapSlot where
  plan : Nat
  lanes : List Nat := []
  lastUse : Nat := 0
  deriving DecidableEq, Repr

/-- An outpost and its compute die's sequencer ownership (01 R18, 07, 19 Outposts block). -/
structure Outpost where
  owner : Option InstId := none
  fenceMask : BitVec 32 := 0
  testFence : BitVec 32 := 0
  /-- Fences in force for the waves begun since the last change (07 R171). -/
  fenceInForce : BitVec 32 := 0
  selftest : Bool := false
  faultA : Bool := false
  faultB : Bool := false
  fenceRefusedA : Bool := false
  fenceRefusedB : Bool := false
  parityEvents : Nat := 0
  selftestFences : Nat := 0
  larderWaitUs : Nat := 0
  larder : Mem := []
  half0Free : Bool := true
  half1Free : Bool := true
  port : List PortItem := []
  /-- Waves whose marker has been taken and whose rows are not all finished: step bits, wave, half. -/
  markers : List (Nat × Nat × Nat) := []
  rows : List OutRow := []
  maps : List MapSlot := []
  drawsPending : List DrawList := []
  draws : List DrawList := []
  fifo : List KeyBlock := []
  upA : List UpMsg := []
  upB : List UpMsg := []
  downA : List DownMsg := []
  downB : List DownMsg := []
  deriving DecidableEq, Repr

/-- An outpost's figures at the open bin of a row: the mass above it, its mass and count, its least and greatest key (07 R162, R168). -/
structure BinNote where
  o : Nat
  above : Nat
  mass : Nat
  count : Nat
  minKey : Nat
  maxKey : Nat
  deriving DecidableEq, Repr

/-- Stages of a row at the Landing. -/
inductive LandStage where
  | max | mass | round | kept | race | locate | pairWait | resid | done
  deriving DecidableEq, Repr

/-- A logit row at the Landing (07 R161-R169). -/
structure LandRow where
  su : RowSetup
  rowIdx : Nat
  /-- Logit row within the row entry. -/
  sub : Nat
  lid : Nat
  stage : LandStage := .max
  /-- Summaries of the current pass, by outpost. -/
  sums : List (Nat × UpMsg) := []
  resamples : Nat := 0
  parities : List Nat := []
  unmasked : List (Nat × Nat) := []
  maxKey : Nat := 0
  maxId : Nat := 0
  m : F32 := 0
  mPi : F32 := 0
  race : Option (F32 × Nat) := none
  z : Nat := 0
  zPi : Nat := 0
  sH : Nat := 0
  minCount : Nat := 0
  cands : List Cand := []
  us : List Nat := []
  round : Nat := 1
  aboveC : Nat := 0
  aboveM : Nat := 0
  keyPrefix : Nat := 0
  /-- What each outpost's histograms say of the open bin, for the checks of 07 R168. -/
  perOut : List BinNote := []
  theCut : Option Cut := none
  /-- Ids that the cut keeps, and the mass of one id of its tie group. -/
  keptCount : Nat := 0
  tieMass : Nat := 0
  kept : List (Nat × List (Nat × Nat)) := []
  sliver : Nat := 0
  residual : Nat := 0
  /-- The verification whose last token the row locates (09 R207). -/
  verdict : Option Verdict := none
  /-- Tokens drawn so far: one for each child of a DRAFT row's node (09 R199). -/
  drawn : List Nat := []
  empty : Bool := false
  deriving DecidableEq, Repr

/-! ### Stairwell, reliability, Study -/

/-- One injection class (16 R356). -/
structure InjectClass where
  drop : Nat := 0
  corrupt : Nat := 0
  reorder : Nat := 0
  depth : Nat := 0
  injected : Nat := 0
  count : Nat := 0
  deriving DecidableEq, Repr

/-- A message handed to the link layer, with the bit that injection inverted. -/
structure SentMsg where
  msg : PeerMsg
  flip : Option Nat := none
  deriving DecidableEq, Repr

/-- A message held by reorder injection: still to be passed, and the tick it is sent at the latest (16 R356). -/
structure HeldMsg where
  sent : SentMsg
  after : Nat
  due : Nat
  deriving DecidableEq, Repr

/-- What a discovery belongs to (16 R343). -/
inductive Discovery where
  | none | dawn (cmd : Nat) | morning (cmd : Option Nat)
  deriving DecidableEq, Repr

/-- The Stairwell (16 R357). Roles: 0 IDLE, 1 GENERATE, 2 TRAIN. -/
structure Stairwell where
  role : Nat := 0
  roleGen : Nat := 0
  discovery : Discovery := .none
  discoveryTick : Nat := 0
  retryTicks : Nat := 200
  timeoutTicks : Nat := 100000
  peers : List Peer := []
  sent : Nat := 0
  received : Nat := 0
  bouncedOut : Nat := 0
  bouncedIn : Nat := 0
  crcDiscards : Nat := 0
  staleDiscards : Nat := 0
  transfersDone : Nat := 0
  transfersFailed : Nat := 0
  injectEnable : Bool := false
  seedLo : BitVec 64 := 0
  seedHi : BitVec 64 := 0
  classes : List InjectClass := List.replicate 4 {}
  outbox : List SentMsg := []
  held : List HeldMsg := []
  lastAnnounce : Nat := 0
  /-- Masks told in the last ANNOUNCE, to see a change (16 R343). -/
  toldResident : BitVec 64 := 0
  toldOpen : BitVec 16 := 0
  /-- Peer-channel credits in the pool, and spent by committed steps (15 R323). -/
  credits : Nat := 64
  creditsOut : Nat := 0
  deriving DecidableEq, Repr

/-- Mirror states (17 R363). -/
inductive MirrorState where
  | none | syncing | current | lost
  deriving DecidableEq, Repr

/-- A fault-log entry (17 R388). -/
structure FaultEntry where
  tick : Nat
  code : Nat
  unit : Nat
  context : Option Nat := none
  detail : Nat := 0
  step : Nat := 0
  address : Nat := 0
  deriving DecidableEq, Repr

/-- The ROW payload (17 R375). -/
structure RowPay where
  lid : Nat
  context : Nat := 0
  committedLen : Nat
  newTokens : Nat
  kvLen : Nat
  cursor : Nat
  penaltyStart : Nat
  wallUsed : Nat
  planState : Nat
  nest : Nat
  state : SeqState
  returnState : SeqState
  epoch : Nat
  draftList : List Nat
  entries : List Byte
  deriving DecidableEq, Repr

/-- Objects of the journal's OBJECT entries (17 R370, R374). -/
inductive JObj where
  | recipe (id : Nat) (v : Option Recipe)
  | plan (id : Nat) (v : Option PlanReg)
  | model (id : Nat) (v : Model)
  | ctx (c : Nat) (isOpen : Bool) (cfg : CtxCfg) (adm row hbm : Bucket) (irqCount irqTicks : Nat)
  | class0 (sequences pages : Nat)
  | latch (k maxHold : Nat) (enable : Bool) (models : BitVec 64)
  | directions (m : Nat) (list : List Nat)
  | turn (training : Bool)
  deriving DecidableEq, Repr

/-- Journal entries (17 R374). -/
inductive JEntry where
  | step (n commitTick : Nat)
  | row (step : Nat) (pay : RowPay)
  | aux (lid context first count : Nat) (data : List Byte)
  | record (r : Record) (auxTopN : Nat) (draftList : List Nat)
  | prompt (lid context addr : Nat) (data : List Byte)
  | stopBlock (lid context addr : Nat) (data : List Byte)
  | stream (c : Nat) (rec' : Completion)
  | ring (c sqHead cqHead : Nat)
  | deferAdd (c : Nat) (d : Deferred)
  | deferDel (c hostTag : Nat)
  | object (obj : JObj)
  | transferOut (t : OutXfer) (isOpen : Bool)
  | transferIn (t : InXfer) (isOpen : Bool)
  | regulator (levels : List (Int × Int × Int))
  | bulkMark (seqno : Nat)
  | pad
  deriving DecidableEq, Repr

/-- A mirror-stream message (17 R361): the mirrored state after a change, the request events outstanding, the role and its generation, and the journal entries staged with it. -/
structure MirrorMsg where
  img : Mirrored
  events : List Event := []
  waiting : List Event := []
  nextArrival : List (Flow × Nat) := []
  role : Nat := 0
  roleGen : Nat := 0
  /-- The active instance's outpost set, which a takeover moves unchanged (01 R17). -/
  outposts : BitVec 8 := 0
  entries : List JEntry := []
  deriving DecidableEq, Repr

/-- A sequence in a bulk image: its record, its draft list, its trail and auxiliary entries. -/
structure ImgSeq where
  r : Record
  auxTopN : Nat := 0
  draftList : List Nat := []
  trail : List Byte := []
  aux : List Byte := []
  deriving DecidableEq, Repr

/-- A prompt or a stop block as the journal holds it: for which local id, its address, its bytes. -/
structure ImgBuf where
  lid : Nat
  addr : Nat
  data : List Byte
  deriving DecidableEq, Repr

/-- A bulk image, by the classes of 17 R370; also what replay builds. -/
structure DurImage where
  seqs : List ImgSeq := []
  bufs : List ImgBuf := []
  ctxs : List (Nat × Ctx) := []
  outXfers : List OutXfer := []
  inXfers : List InXfer := []
  recipes : List Recipe := []
  registry : List PlanReg := []
  models : List (Nat × Model) := []
  c0Sequences : Nat := 0
  c0Pages : Nat := 0
  latches : List (Nat × Latch) := []
  directions : List (Nat × List Nat) := []
  training : Bool := false
  lastStep : Nat := 0
  deriving DecidableEq, Repr

/-- A superblock copy (17 R372): its fields, the current bulk slot with its seqno and digest, the block at which replay begins. -/
structure Superblock where
  magic : Nat := 0x4B505553
  address : Nat
  split : Bool
  seqno : Nat
  /-- The current bulk slot: 1 where true. -/
  slot : Bool
  bulkSeqno : Nat
  digest : BitVec 384
  replay : Nat
  check : Nat := 0
  /-- Entries of the replay blocks, in order, that the image holds already. -/
  skip : Nat := 0
  deriving DecidableEq, Repr

/-- A bulk slot's contents (17 R372): bulk seqno, class mask, replay block, the sections. -/
structure BulkSlot where
  seqno : Nat
  mask : Nat
  replay : Nat
  image : DurImage
  deriving DecidableEq, Repr

/-- A bulk image in progress (17 R378): its seqno, class mask and replay block, the command that asked, the image, the tick at which it began, how many of the ring's and of the staged entries it holds already. -/
structure BulkRun where
  seqno : Nat
  mask : Nat
  replay : Nat
  cmd : Option Nat
  image : DurImage
  began : Nat
  skip : Nat
  deriving DecidableEq, Repr

/-- A block of the journal ring (17 R373): its header's fields and its entries. -/
structure JBlock where
  magic : Nat := 0x4C4E524A
  address : Nat
  seqno : Nat
  bulkSeqno : Nat
  check : Nat
  entries : List JEntry
  deriving DecidableEq, Repr

/-- What an instance's range of the board drive holds (17 R372, R379): it outlives a reset and a loss of power (01 R26, 20 R436). -/
structure Disk where
  /-- Namespace, first block and length of the range (01 R26). -/
  range : Option (Nat × Nat × Nat) := none
  /-- The two superblock copies and the two bulk slots. -/
  super0 : Option Superblock := none
  super1 : Option Superblock := none
  slot0 : Option BulkSlot := none
  slot1 : Option BulkSlot := none
  /-- Blocks of the ring that are not free, oldest first, and the seqno of the last block written. -/
  ring : List JBlock := []
  lastBlock : Nat := 0
  /-- The digest log: the 64 bytes of each entry written, by its index modulo 4,096, and the entries written so far (17 R379). -/
  digestLog : List (Nat × List Byte) := []
  digestCount : Nat := 0
  deriving DecidableEq, Repr

/-- What a drive command in flight is for (01 R27). -/
inductive DriveOp where
  | flush | bulk | probe (cmd : Nat) | restore (cmd : Nat) | digest (pair : Nat × BitVec 384 × Nat)
  deriving DecidableEq, Repr

/-- A drive command in flight: what it is for, the tick at which it was issued, whether it is the retry, the handle of its 2 s entry, its first LBA (01 R26, R27, 12 R261, 17 R372). -/
structure DriveCmd where
  op : DriveOp
  start : Nat
  retried : Bool := false
  handle : Nat := 0xFFFFFFFF
  lba : Nat := 0
  deriving DecidableEq, Repr

/-- Outcomes shown in `restore` (17 R387). -/
inductive RestoreState where
  | none | running | verified | unverified | forced | failed
  deriving DecidableEq, Repr

/-- The Reliability block and the journal (17 R387, R370-R379). -/
structure Reliability where
  mirror : MirrorState := .none
  active : Bool := false
  failed : Bool := false
  pathUp : Bool := false
  driveFailed : Bool := false
  takeovers : Nat := 0
  lossBound : Nat := 0
  durableStep : Nat := 0
  durableBlock : Nat := 0
  bulkSeqno : Nat := 0
  flushes : Nat := 0
  restore : RestoreState := .none
  restoreCheck : Nat := 0
  restoredStep : Nat := 0
  restoreCmd : Option Nat := none
  restoreForce : Bool := false
  eccCorrected : Nat := 0
  hbMissed : Nat := 0
  journalStallUs : Nat := 0
  faultLog : List (Nat × FaultEntry) := []
  faultCount : Nat := 0
  /-- Staged and not durable; how many of them the flush in progress covers. -/
  staged : List JEntry := []
  flushing : Option Nat := none
  lastFlush : Nat := 0
  flushDue : Option Nat := none
  flushForced : Bool := false
  /-- A bulk image has fallen due and is deferred (13 R284). -/
  bulkDue : Option Nat := none
  disk : Disk := {}
  bulk : Option BulkRun := none
  bulkBegan : Nat := 0
  /-- A bulk image of every class that a takeover, a restored path or a growth asks for (17 R378). -/
  bulkForced : Bool := false
  digestsIn : List (Nat × BitVec 384 × Nat) := []
  drive : List DriveCmd := []
  /-- LARDER_FAULT history: outpost, lane, tick (17 R360). -/
  larderFaults : List (Nat × Nat × Nat) := []
  /-- Mirror stream: sent and not applied; applied and not acknowledged; retries of the message in flight (17 R359, R361). -/
  streamOut : List MirrorMsg := []
  acksDue : Nat := 0
  resends : Nat := 0
  lastHeartbeat : Nat := 0
  livenessRead : Option (Nat × Nat) := none
  claiming : Bool := false
  claims : BitVec 8 := 0
  /-- FAIL is on its way to the partner (17 R364). -/
  failSent : Bool := false
  /-- Commands for the drive that wait for room in the queue pair, oldest first, each with whether it is a retry (01 R26). -/
  driveNext : List (DriveOp × Bool) := []
  /-- The interrupt registers as the mirror stream last gave them (17 R361). -/
  streamIrq : Irq := {}
  /-- The twin has taken over from this instance: its slice serves nothing until its reset (17 R368). -/
  overtaken : Bool := false
  /-- The set of the twin pair, as the stream tells the mirror (01 R17). -/
  twinSet : BitVec 8 := 0
  /-- Role and generation of the active instance, as the stream last gave them (17 R366). -/
  twinRole : Nat := 0
  twinGen : Nat := 0
  deriving DecidableEq, Repr

/-- A trace record (18 R391). -/
structure TraceRec where
  time : Nat
  kind : Nat
  reason : Nat
  waiter : Nat
  holder : Nat
  duration : Nat
  object : Nat
  deriving DecidableEq, Repr

/-- A message of a Landing channel, either way (07 R166). -/
inductive ChannelMsg where
  | down (m : DownMsg)
  | up (m : UpMsg)
  deriving DecidableEq, Repr

/-- An event-ring entry (18 R397): the ring, time, unit, event number, object and payload, which in the Landing's ring is a message. -/
structure RingEvent where
  ring : Nat
  time : Nat
  unit : Nat
  event : Nat
  object : Nat
  payload : List Nat := []
  message : Option ChannelMsg := none
  deriving DecidableEq, Repr

/-- A wait: an edge of the wait-for graph, or one of those that the trace follows (18 R391, R398). -/
structure Edge where
  src : Nat
  dst : Nat
  reason : Nat
  /-- What the wait is about, as a trace record names it (18 R391). -/
  object : Nat := 0
  /-- Tick at which it began; for a wait of the trace its Study cycle. -/
  since : Nat := 0
  deriving DecidableEq, Repr

/-- An armed watch (18 R405). -/
structure Watch where
  cmd : Nat
  context : Nat
  lid : Nat
  position : Nat
  tensor : Nat
  addr : Nat
  size : Nat
  deriving DecidableEq, Repr

/-- A counter bank (18 R406). -/
structure Bank where
  busy : Nat := 0
  stalled : Nat := 0
  idle : Nat := 0
  stall : List Nat := List.replicate 16 0
  deriving DecidableEq, Repr

/-- A dump being written or held (18 R400-R402). -/
structure Dump where
  fatal : Bool
  code : Nat
  index : Nat
  began : Nat
  deriving DecidableEq, Repr

/-- The Study (18 R409). -/
structure Study where
  traceOn : Bool := false
  draining : Option Nat := none
  dumpState : Nat := 0
  dumpFatal : Bool := false
  cycle : Bool := false
  traceMask : Nat := 0
  traceWp : Nat := 0
  traceRp : Nat := 0
  dropped : Nat := 0
  gaps : Nat := 0
  fifo : List TraceRec := []
  /-- Study cycle of the last record that entered the FIFO (18 R394). -/
  lastRec : Nat := 0
  /-- Waits under way, since which Study cycle (18 R391, R393). -/
  waits : List Edge := []
  /-- Records lost since the last written record (18 R395). -/
  lost : Nat := 0
  cause : BitVec 4 := 0
  noticeDiscards : Nat := 0
  channelDiscards : Nat := 0
  resamples : Nat := 0
  selftests : Nat := 0
  graphTick : Nat := 0
  graph : List Edge := []
  /-- The latch waits under way, each with the tick since which it has lasted (18 R398). -/
  latchWaits : List Edge := []
  watches : List Watch := []
  dump : Option Dump := none
  rings : List RingEvent := []
  banks : List Bank := List.replicate 21 {}
  deriving DecidableEq, Repr

/-! ### Instance -/

/-- A placed region (14 R298). -/
structure Region where
  base : Nat
  size : Nat
  frameLog2 : Nat := 0
  aux : Nat := 0
  deriving DecidableEq, Repr

/-- Placements, drive range, identity, pairing (14 R295, R298, R299; 19 Identity block). -/
structure Place where
  regions : List (Nat × Region) := []
  drive : Option (Nat × Nat × Nat) := none
  identityGiven : Bool := false
  pairingGiven : Bool := false
  split : Bool := false
  outposts : BitVec 8 := 0
  node : Nat := 0
  serial : Nat := 0
  deriving DecidableEq, Repr

/-- One Shapa instance. -/
structure Inst where
  id : InstId
  place : Place := {}
  liveness : Nat := 0
  hearth : Hearth := {}
  mir : Mirrored := {}
  hall : Hallway := {}
  landing : List LandRow := []
  stair : Stairwell := {}
  rel : Reliability := {}
  study : Study := {}
  deriving DecidableEq, Repr

/-! ### Package -/

/-- The boot record (13 R271). -/
structure BootRecord where
  magic : Nat := 0
  preferred : Nat := 0
  trial : Nat := 0
  markA : Nat := 0
  markB : Nat := 0
  seqno : Nat := 0
  check : Nat := 0
  deriving DecidableEq, Repr

/-- The flash die and its grant (01 R25, 13 R270). -/
structure Flash where
  holder : Option (InstId × FlashUse) := none
  waiting : List (InstId × FlashUse) := [(.A, .dawn), (.B, .dawn)]
  boot : BootRecord := {}
  slotA : Option (List Byte) := none
  slotB : Option (List Byte) := none
  deriving DecidableEq, Repr

/-- The reset capability (20 R434) and the ticks at which the holds began. -/
structure ResetCap where
  inResetA : Bool := false
  inResetB : Bool := false
  causeA : Nat := 0
  causeB : Nat := 0
  sinceA : Nat := 0
  sinceB : Nat := 0
  deriving DecidableEq, Repr

/-- The package and the queue of commands that wait. -/
structure State where
  /-- Power is good (20 R435, R440). -/
  powered : Bool
  tick : Nat
  a : Inst
  b : Inst
  outposts : List Outpost
  flash : Flash
  cap : ResetCap
  /-- HBM (01 R20); an unlisted byte reads 0 (DESIGN CHOICE, log 3). -/
  hbm : Mem
  /-- Host bus memory that Shapa writes: completion rings and index shadows (14 R308, R309). -/
  host : Mem
  /-- The hub-to-hub path is up (01 R29). -/
  pathUp : Bool
  /-- Calibration registers: (part, index, value), parts 0 hub H0, 1 to 8 outposts, 9 hub H1; an unlisted one holds 0 (13 R276; DESIGN CHOICE, log 4). -/
  calib : List (Nat × Nat × Nat)
  /-- What the board drive holds in ranges that no instance uses at present (01 R26). -/
  board : List ((Nat × Nat × Nat) × Disk)
  /-- MSI-X entries sent, oldest first (14 R312). -/
  msix : List Nat
  /-- Doorbells and kill notices sent to compute dies: (die, doorbell?, value) (04 R90, R97). -/
  notices : List (Nat × Bool × Nat)
  /-- What the last read of an RC field returned (19 R414). -/
  busData : BitVec 64
  /-- The MODEL'S own counter of free values taken (DESIGN CHOICE, log 2); no rule of the spec names it. -/
  free : Nat
  /-- Commands that wait, first in, first out. -/
  pending : List Instr
  deriving DecidableEq, Repr

/-- Why a step stops with a fault: a case whose result the manual leaves undefined. All are safe: the model stops where the hardware goes on. -/
inductive Fault where
  /-- A case of spec/00 R12's table, by its number: raised by the meaning that meets it. Safe. -/
  | undefinedCase (n : Nat)
  deriving DecidableEq, Repr

/-- Why a step has no meaning. -/
inductive Refusal where
  /-- The command is not modelled yet; raised only by exec's own arms. Safe. -/
  | notModelled (mnemonic : String)
  deriving DecidableEq, Repr

/-- The package right after a power-on reset (20 R435): both Dawns stand at the ROM stage and wait for the flash grant; `active` reads 0 until Dawn has an outpost set (17 R387). -/
def State.reset : State where
  powered := true
  tick := 0
  a := { id := .A }
  b := { id := .B }
  outposts := List.replicate 8 {}
  flash := {}
  cap := {}
  hbm := []
  host := []
  pathUp := true
  calib := []
  board := []
  msix := []
  notices := []
  busData := 0
  free := 0
  pending := []

end Sys2Proof.Machine
end

