-- ==== Sys2Proof/Machine/Sampling.lean ====
section
/-! DEFINITION. One logit row as pure functions: where its logits lie (spec/07 R152-R155), scaled and policy logits and masks (spec/06 R132-R136, R147), the draws' blocks (spec/08 R173-R183), what each pass of an outpost computes (spec/07 R160), the cut (R162), and verification over exact masses (spec/09 R205-R211). -/

namespace Sys2Proof.Machine

open Sys2Proof

/-! ### Placement (R152-R155, R170) -/

/-- Outposts of a mask in order. -/
def outList (mask : BitVec 8) : List Nat := maskBits 8 mask.toNat

/-- The rank of an outpost in its set (R152). -/
def rankOf (mask : BitVec 8) (o : Nat) : Nat := ((outList mask).filter (· < o)).length

/-- Slivers of a vocabulary. -/
def sliversOf (vocab : Nat) : Nat := ceilDiv vocab 256

/-- Local slivers S of an outpost (R152). -/
def localSlivers (vocab d : Nat) : Nat := ceilDiv (sliversOf vocab) d

/-- Row sets (R154). -/
def rowSets (wide : Bool) (s : Nat) : Nat :=
  ([64, 32, 16, 8, 4, 2].find? fun p => decide (p ≤ (if wide then 32 else 64)) && decide (p * s ≤ 512)).getD 1

def suD (su : RowSetup) : Nat := (outList su.outposts).length

/-- Row sets of a row's outposts. -/
def suRho (su : RowSetup) : Nat := rowSets su.wide (localSlivers su.vocab (suD su))

/-- The Larder half of a row (R155). -/
def suHalf (su : RowSetup) : Nat := (su.firstHalf + su.h.wave) % 2

/-- The lane that holds a local sliver of a row (R154). -/
def laneOfSliver (su : RowSetup) (j : Nat) : Nat := su.h.row % suRho su * (512 / suRho su) + j

/-- The lane whose slice holds a token's logit. -/
def laneOf (su : RowSetup) (v : Nat) : Nat := laneOfSliver su (v / 256 / suD su)

/-- The Larder offset of a logit (R155). -/
def larderOff (su : RowSetup) (v : Nat) : Nat :=
  laneOf su v * 0x10000 + suHalf su * 0x8000 + su.h.row / suRho su * (if su.wide then 1024 else 512)
    + v % 256 * (if su.wide then 4 else 2)

/-- The slivers of an outpost in ascending order (R152). -/
def outSlivers (su : RowSetup) (o : Nat) : List Nat :=
  (List.range (sliversOf su.vocab)).filter fun g => g % suD su == rankOf su.outposts o

/-- The ids of a sliver below V. -/
def sliverIds (vocab g : Nat) : List Nat := ((List.range 256).map (· + 256 * g)).filter (· < vocab)

/-- The ids an outpost holds, ascending. -/
def outIds (su : RowSetup) (o : Nat) : List Nat := (outSlivers su o).flatMap (sliverIds su.vocab)

/-- The outpost that holds a sliver. -/
def outOfSliver (su : RowSetup) (g : Nat) : Nat := (outList su.outposts).getD (g % suD su) 0

/-- A logit as fp32: bf16 gains 16 zero bits (spec/06 R132). -/
def logitAt (larder : Mem) (su : RowSetup) (v : Nat) : F32 :=
  let a := larderOff su v
  if su.wide then BitVec.ofNat 32 (leNat (memGets larder a 4)) else BitVec.ofNat 32 (leNat (memGets larder a 2) * 2 ^ 16)

/-- The lane that works on a token's id under a set of fenced groups (R170). -/
def procLane (fences : BitVec 32) (su : RowSetup) (v : Nat) : Nat :=
  let l := laneOf su v
  if fences.getLsbD (l / 16) then
    let fenced := (List.range 512).filter fun k => fences.getLsbD (k / 16)
    let free := (List.range 512).filter fun k => !fences.getLsbD (k / 16)
    let seg := (fenced.filter (· < l)).length * 8 + v % 256 / 32
    free.getD (seg % free.length) l
  else l

/-! ### Draws (spec/08) -/

def kindInverse : Nat := 1
def kindRace : Nat := 2
def kindAccept : Nat := 3
def kindResidual : Nat := 4
def kindBonus : Nat := 5
def kindResample : Nat := 6

/-- The output block of a draw's name (R173-R178). -/
def drawBlock (key : List Byte) (kind drawId position low : Nat) : Nat :=
  let t := kind * 2 ^ 96 + drawId % 2 ^ 32 * 2 ^ 64 + position % 2 ^ 32 * 2 ^ 32 + low % 2 ^ 32
  beNat ((aes128 (key.map (·.toNat)) ((beBytes 16 t).map (·.toNat))).map (BitVec.ofNat 8))

/-- A 64-bit draw (R180). -/
def draw64 (key : List Byte) (kind drawId position low : Nat) : Nat := drawBlock key kind drawId position low % 2 ^ 64

/-- The RACE block of a token and its element (R180). -/
def raceBlock (r16 : Bool) (v : Nat) : Nat := v / (if r16 then 8 else 5)

def raceElement (r16 : Bool) (block v : Nat) : Nat := if r16 then bits block (16 * (v % 8) + 15) (16 * (v % 8)) else bits block (24 * (v % 5) + 23) (24 * (v % 5))

/-- The Gumbel term of a token (spec/06 R144). -/
def raceNoise (su : RowSetup) (v : Nat) : F32 :=
  let r16 := su.recipe.race16
  gumbel (raceElement r16 (drawBlock su.draw.key kindRace su.draw.drawId su.draw.position (raceBlock r16 v)) v) (if r16 then 16 else 24)

/-! ### One token of a row (spec/06 R133-R137, R147) -/

/-- A token of a row: its id, whether it is unmasked, its scaled logit and key, whether it is policy-unmasked, its policy logit and key. -/
structure TokVal where
  v : Nat
  on : Bool
  s : F32
  key : Nat
  pOn : Bool
  l : F32
  pKey : Nat
  deriving DecidableEq, Repr

/-- The plan mask excludes a token (spec/10 R222). -/
def planMasked (su : RowSetup) (cls : Nat → Nat) (v : Nat) : Bool :=
  match su.plan with
  | some p => !tbit p.2 (cls v)
  | none => false

/-- The adjusted logit (R135). -/
def adjusted (su : RowSetup) (x : F32) (v : Nat) : F32 :=
  let rc := su.recipe
  let a1 := fAdd x (((rc.bias.find? (·.token == v)).map (·.value)).getD 0)
  let c := (look v su.penalty).getD 0
  if 0 < rc.penaltySpan ∧ 1 ≤ c then
    let a2 := fSub a1 (fMul rc.repetition (fAbs a1))
    fSub (fSub a2 rc.presence) (fMul rc.frequency (fOfNat c))
  else a1

/-- A token's values in a row. -/
def tokVal (su : RowSetup) (cls : Nat → Nat) (larder : Mem) (v : Nat) : TokVal :=
  let x := logitAt larder su v
  let s := fMul (adjusted su x v) su.recipe.invTemperature
  let pm := planMasked su cls v
  { v := v, on := !pm && !(su.recipe.bias.any fun b => b.token == v && b.mask), s := s, key := keyOf s,
    pOn := !(su.recipe.policyPlanMask && pm), l := x, pKey := keyOf x }

/-- The row draws no race: a draft row always draws in inverse mode, a VERIFY row's tokens come from the verification (spec/09 R198, R207). -/
def inverseRow (su : RowSetup) : Bool := su.draft || su.verify || !su.recipe.drawRace

/-- Race mode with `top_k` = 0: the race is decided in the MAX pass (R164). -/
def raceInMax (su : RowSetup) : Bool := !inverseRow su && decide (su.recipe.topK = 0)

/-! ### Passes (R160) -/

/-- The greater key, the first of equals: ids come ascending. -/
def bestKey (l : List (Nat × Nat)) : Option (Nat × Nat) :=
  l.foldl (fun b x => match b with
    | none => some x
    | some y => if y.1 < x.1 then some x else b) none

/-- The greater score, the first of equals (spec/06 R144). -/
def bestScore (l : List (F32 × Nat)) : Option (F32 × Nat) :=
  l.foldl (fun b x => match b with
    | none => some x
    | some y => if fLt y.1 x.1 then some x else b) none

/-- The race scores of tokens. -/
def raceScores (su : RowSetup) (l : List TokVal) : List (F32 × Nat) := l.map fun t => (fAdd t.s (raceNoise su t.v), t.v)

/-- MAX. -/
def passMax (su : RowSetup) (l : List TokVal) : UpMsg :=
  let on := l.filter (·.on)
  .maxSum su.h (bestKey (on.map fun t => (t.key, t.v))) (bestKey ((l.filter (·.pOn)).map fun t => (t.pKey, t.v))) on.length
    (if raceInMax su then bestScore (raceScores su on) else none)

/-- Enter a key and mass in a histogram, bins ascending. -/
def binAdd (b key mass : Nat) : List Bin → List Bin
  | [] => [{ b := b, count := 1, mass := mass, minKey := key, maxKey := key }]
  | x :: t =>
    if b < x.b then { b := b, count := 1, mass := mass, minKey := key, maxKey := key } :: x :: t
    else if b = x.b then { x with count := x.count + 1, mass := x.mass + mass, minKey := min x.minKey key, maxKey := max x.maxKey key } :: t
    else x :: binAdd b key mass t

/-- The histogram of round `r` over keys under a prefix (R160). -/
def histogram (r pre : Nat) (l : List (Nat × Nat)) : List Bin :=
  (l.filter fun x => x.1 / 2 ^ (32 - 8 * (r - 1)) == pre).foldl (fun h x => binAdd (x.1 / 2 ^ (32 - 8 * r) % 256) x.1 x.2 h) []

/-- Policy order: the greater key, then the lower id. -/
def candBefore (a b : Cand) : Bool := decide (b.key < a.key) || (a.key == b.key && decide (a.token < b.token))

/-- Keys and masses of the unmasked tokens under a maximum (spec/06 R138, R139). -/
def massesOf (m : F32) (l : List TokVal) : List (TokVal × Nat) := (l.filter (·.on)).map fun t => (t, massE (fSub t.s m))

/-- MASS; `us` are the row's 64-bit draws, at the outpost of rank 0. -/
def passMass (su : RowSetup) (m mPi : F32) (us : List Nat) (l : List TokVal) : MassInfo :=
  let ms := massesOf m l
  let ps := (l.filter (·.pOn)).map fun t => (t, massE (fSub t.l mPi))
  { z := sumNat (ms.map (·.2)), zPi := sumNat (ps.map (·.2)), sH := sumNat (ps.map fun p => p.2 * lam p.2),
    minCount := if su.recipe.minP = 0 then 0 else (ms.filter fun p => decide (su.recipe.minP * 2 ^ 60 ≤ p.2 * 2 ^ 32)).length,
    cands := (sortBy candBefore (ps.map fun p => { token := p.1.v, dPi := fSub p.1.l mPi, ePi := p.2, key := p.1.pKey })).take su.recipe.topN,
    hist := histogram 1 0 (ms.map fun p => (p.1.key, p.2)), us := us }

/-- ROUND. -/
def passRound (m : F32) (r pre : Nat) (l : List TokVal) : List Bin := histogram r pre ((massesOf m l).map fun p => (p.1.key, p.2))

/-- KEPT: for each local sliver, the mass of the keys above kb and the count of those at it (R160, R163). -/
def passKept (su : RowSetup) (o : Nat) (m : F32) (kb : Nat) (l : List TokVal) : List (Nat × Nat) :=
  let ms := massesOf m l
  (outSlivers su o).map fun g =>
    let mine := ms.filter fun p => p.1.v / 256 == g
    (sumNat ((mine.filter fun p => decide (kb < p.1.key)).map (·.2)), (mine.filter fun p => p.1.key == kb).length)

/-- The ids that a cut keeps of a sliver with a tie quota, ascending (R163). -/
def keptOfSliver (kb : Nat) (all : Bool) (quota : Nat) (l : List (TokVal × Nat)) : List (TokVal × Nat) :=
  (l.foldl (fun (a : List (TokVal × Nat) × Nat) p =>
    if kb < p.1.key then (a.1 ++ [p], a.2)
    else if p.1.key = kb then (if all || decide (a.2 < quota) then (a.1 ++ [p], a.2 + 1) else a)
    else a) ([], 0)).1

/-- RACE: the kept ids of each local sliver race (R160, R164). -/
def passRace (su : RowSetup) (o : Nat) (m : F32) (kb : Nat) (quota : Option Nat) (quotas : List Nat) (l : List TokVal) : Option (F32 × Nat) :=
  let ms := massesOf m l
  bestScore (raceScores su ((outSlivers su o).zipIdx.flatMap fun g =>
    (keptOfSliver kb quota.isNone (quotas.getD g.2 0) (ms.filter fun p => p.1.v / 256 == g.1)).map (·.1)))

/-- The first kept id at which the running mass exceeds the target, with the mass before it (R163). -/
def scanFor (target : Nat) : List (TokVal × Nat) → Nat → Option (TokVal × Nat × Nat)
  | [], _ => none
  | p :: t, acc => if target < acc + p.2 then some (p.1, p.2, acc) else scanFor target t (acc + p.2)

/-- LOCATE. -/
def passLocate (m mPi : F32) (g residual kb quota : Nat) (l : List TokVal) : LocInfo :=
  let ms := (massesOf m l).filter fun p => p.1.v / 256 == g
  match scanFor residual (keptOfSliver kb false quota ms) 0 with
  | some x => { id := x.1.v, d := fSub x.1.s m, e := x.2.1, dPi := fSub x.1.l mPi, ePi := massE (fSub x.1.l mPi), before := x.2.2 }
  | none => { id := 0, d := 0, e := 0, dPi := 0, ePi := 0, before := residual + 1 }

/-! ### The cut (R162) -/

/-- How a walk over one round's histogram ends. -/
inductive CutStep where
  | fixed (kb : Nat) (quota : Option Nat) (mass count tieMass : Nat)
  | again (aboveC aboveM bin : Nat)
  deriving DecidableEq, Repr

/-- The first of `n` tie counts from `j` on at which top-p is reached. -/
def topPTies (p z aboveM e : Nat) : Nat → Nat → Nat
  | 0, j => j
  | n + 1, j => if p * z ≤ (aboveM + j * e) * 2 ^ 32 then j else topPTies p z aboveM e n (j + 1)

/-- One round of `cut`: bins from the highest down (R162). -/
def cutWalk (r n0 p z : Nat) : List Bin → Nat → Nat → CutStep
  | [], c, m => .fixed 0 none m c 0
  | h :: t, aboveC, aboveM =>
    let hit := p != 0 && decide (p * z ≤ (aboveM + h.mass) * 2 ^ 32)
    if n0 ≤ aboveC + h.count || hit then
      if aboveC + h.count = n0 ∧ !hit then .fixed h.minKey none (aboveM + h.mass) n0 0
      else if h.minKey = h.maxKey ∨ r = 4 then
        let e := h.mass / h.count
        let j0 := n0 - aboveC
        let j := if p = 0 then j0 else min j0 (topPTies p z aboveM e h.count 1)
        if j < h.count then .fixed h.minKey (some j) (aboveM + j * e) (aboveC + j) e
        else .fixed h.minKey none (aboveM + h.mass) (aboveC + h.count) e
      else .again aboveC aboveM h.b
    else cutWalk r n0 p z t (aboveC + h.count) (aboveM + h.mass)

/-- Merge two bins of one number. -/
def binMerge (x : Bin) : List Bin → List Bin
  | [] => [x]
  | y :: t =>
    if x.b < y.b then x :: y :: t
    else if x.b = y.b then { y with count := y.count + x.count, mass := y.mass + x.mass, minKey := min x.minKey y.minKey, maxKey := max x.maxKey y.maxKey } :: t
    else y :: binMerge x t

/-- The merged histogram, from the highest bin down. -/
def mergeHists (hs : List (List Bin)) : List Bin := (hs.flatten.foldl (fun acc x => binMerge x acc) []).reverse

/-! ### Whole rows: the kept masses of every id (spec/06 R141), for verification -/

/-- Every token of a row with its mass, ascending by id; `larder o` is the Larder of outpost `o`. -/
def rowTokens (su : RowSetup) (cls : Nat → Nat) (larder : Nat → Mem) : List TokVal :=
  (List.range su.vocab).map fun v => tokVal su cls (larder (outOfSliver su (v / 256))) v

/-- The kept mass of every id of a row below V, 0 outside the kept set (R205). -/
def keptMasses (m : F32) (c : Cut) (l : List TokVal) : List Nat :=
  let ms := massesOf m l
  let kept := keptOfSliver c.kb c.quota.isNone (c.quota.getD 0) ms
  l.map fun t => ((kept.find? fun p => p.1.v == t.v).map (·.2)).getD 0

/-- The slots' masses of a VERIFY pair: at slot n, the target's kept masses and total and the draft's masses and total. -/
structure SlotMass where
  w : List Nat
  kp : Nat
  v : List Nat
  zq : Nat
  deriving DecidableEq, Repr

/-- Chain verification from draft `j` on (R205-R207). The draws come from `u kind position ordinal`. -/
def verifyChain (u : Nat → Nat → Nat → Nat) (kv : Nat) (slots : Nat → SlotMass) : List Nat → Nat → Verdict
  | [], j => { path := (List.range (j - 1)).map (· + 1), slot := j - 1, draw := u kindBonus (kv + j) 0, bonus := true, folds := [] }
  | x :: xs, j =>
    let sl := slots (j - 1)
    if u kindAccept (kv + j) 0 * sl.v.getD x 0 * sl.kp < 2 ^ 64 * sl.w.getD x 0 * sl.zq then verifyChain u kv slots xs (j + 1)
    else { path := (List.range (j - 1)).map (· + 1), slot := j - 1, draw := u kindResidual (kv + j) 0, bonus := false, folds := [(sl.zq, sl.kp, 0)] }

/-- Bits of a number. -/
def bitLength (n : Nat) : Nat := if n = 0 then 0 else n.log2 + 1

/-- An id's residual weight after rejections: `w` and `v` are its target and draft masses (R206, R208). -/
def residWeight (folds : List (Nat × Nat × Nat)) (w v : Nat) : Nat := folds.foldl (fun r f => (r * f.1 - v * f.2.1) / 2 ^ f.2.2) w

/-- The rejection at a tree node whose reduced masses are `rho` with total `y`: its fold (R208). -/
def treeFold (rho v : List Nat) (y zq : Nat) : Nat × Nat × Nat :=
  (zq, y, bitLength (sumNat (List.zipWith (fun a b => a * zq - b * y) rho v)) - 80)

/-- The children of a tree node, tested in order: the accepted child, or the rejections (R208). -/
def testKids (u : Nat → Nat → Nat → Nat) (pos : Nat) (tok : Nat → Nat) (v : List Nat) (zq : Nat) :
    List Nat → List Nat → Nat → List (Nat × Nat × Nat) → Option Nat × List (Nat × Nat × Nat)
  | [], _, _, fs => (none, fs)
  | c :: cs, rho, y, fs =>
    if u kindAccept pos c * v.getD (tok c) 0 * y < 2 ^ 64 * rho.getD (tok c) 0 * zq then (some c, fs)
    else
      let f := treeFold rho v y zq
      let rho' := List.zipWith (residWeight [f]) rho v
      testKids u pos tok v zq cs rho' (sumNat rho') (fs ++ [f])

/-- Tree verification from a node on (R208): `kids` its children, at most 16 deep. -/
def verifyTree (u : Nat → Nat → Nat → Nat) (kv : Nat) (kids : Nat → List Nat) (tok : Nat → Nat) (slots : Nat → SlotMass) :
    Nat → Nat → List Nat → Verdict
  | 0, node, path => { path := path, slot := node, draw := 0, bonus := true, folds := [] }
  | n + 1, node, path =>
    let sl := slots node
    let pos := kv + path.length + 1
    if (kids node).isEmpty then { path := path, slot := node, draw := u kindBonus pos 0, bonus := true, folds := [] }
    else match testKids u pos tok sl.v sl.zq (kids node) sl.w sl.kp [] with
      | (some c, _) => verifyTree u kv kids tok slots n c (path ++ [c])
      | (none, fs) => { path := path, slot := node, draw := u kindResample pos 0, bonus := false, folds := fs }

/-- The weights of a residual pass on the ids of a sliver, ascending; `d` are the draft row's tokens (R207). -/
def residOf (m : F32) (sp : ResidSpec) (l d : List TokVal) (g : Nat) : List (TokVal × Nat) :=
  let dm := (sp.draft.map (·.2)).getD 0
  ((massesOf m l).filter fun p => p.1.v / 256 == g).map fun p =>
    let kept := decide (sp.kb < p.1.key) || (p.1.key == sp.kb && decide (p.1.v < sp.tieEnd))
    let v := ((d.find? fun t => t.v == p.1.v && t.on).map fun t => massE (fSub t.s dm)).getD 0
    (p.1, residWeight sp.folds (if kept then p.2 else 0) v)

/-- The residual pass of an outpost: its total and its slivers' shares (R207). -/
def passResid (su : RowSetup) (o : Nat) (m : F32) (sp : ResidSpec) (l d : List TokVal) : Nat × List Nat :=
  let shares := (outSlivers su o).map fun g => sumNat ((residOf m sp l d g).map (·.2))
  (sumNat shares, shares)

/-- LOCATE in a residual pass (R207). -/
def residLocate (m mPi : F32) (sp : ResidSpec) (g residual : Nat) (l d : List TokVal) : LocInfo :=
  match scanFor residual (residOf m sp l d g) 0 with
  | some x => { id := x.1.v, d := fSub x.1.s m, e := x.2.1, dPi := fSub x.1.l mPi, ePi := massE (fSub x.1.l mPi), before := x.2.2 }
  | none => { id := 0, d := 0, e := 0, dPi := 0, ePi := 0, before := residual + 1 }

/-- The spine length m of an accepted path (R211). -/
def spineOf : List Nat → Nat → Nat
  | [], m => m
  | c :: cs, m => if c = m + 1 then spineOf cs (m + 1) else m

/-! ### Watched tensors (spec/18 R403) -/

/-- The bytes of tensor 0 to 3 over tokens: logits, scaled logits, masses, the mask. -/
def tensorOf (wide : Bool) (m : F32) (tensor : Nat) (l : List TokVal) : List Byte :=
  match tensor with
  | 0 => l.flatMap fun t => if wide then leBytes 4 t.l.toNat else leBytes 2 (t.l.toNat / 2 ^ 16)
  | 1 => l.flatMap fun t => leBytes 4 (if t.on then t.s.toNat else 0xFF800000)
  | 2 => l.flatMap fun t => leBytes 8 (if t.on then massE (fSub t.s m) else 0)
  | _ => leBytes 32 (maskOf ((l.filter (·.on)).map (·.v % 256)))

/-- Where a sliver's part of a tensor begins. -/
def tensorAt (wide : Bool) (tensor g : Nat) : Nat :=
  256 * g * (match tensor with | 0 => if wide then 4 else 2 | 1 => 4 | 2 => 8 | _ => 0) + if tensor = 3 then 32 * g else 0

end Sys2Proof.Machine
end

