-- ==== Sys2Proof/Machine/Flags.lean ====
section
/-! DEFINITION. The flag computations: the 36 interrupt status bits of an instance as one word and back (spec/14 R311), the set bits of an interrupt word that rise, and the predicates that the rules of spec/02 read off a sequence's state. -/

namespace Sys2Proof.Machine

open Sys2Proof

/-! ### Interrupt status (spec/14 R311-R313) -/

/-- The 36 status bits of an instance. -/
def irqStatus (q : Irq) : BitVec 36 :=
  q.cq.setWidth 36 ||| (q.mb.setWidth 36 <<< 16) ||| (BitVec.ofBool q.dir).setWidth 36 <<< 32
    ||| (BitVec.ofBool q.fault).setWidth 36 <<< 33 ||| (BitVec.ofBool q.study).setWidth 36 <<< 34
    ||| (BitVec.ofBool q.hearth).setWidth 36 <<< 35

/-- The status fields with the 36 bits given. -/
def irqPut (q : Irq) (v : BitVec 36) : Irq :=
  { q with cq := v.extractLsb' 0 16, mb := v.extractLsb' 16 16, dir := v.getLsbD 32, fault := v.getLsbD 33,
           study := v.getLsbD 34, hearth := v.getLsbD 35 }

/-- Bits of the instance group: directory, fault, Study, Hearth (spec/14 R311). -/
def irqDir : Nat := 32
def irqFault : Nat := 33
def irqStudy : Nat := 34
def irqHearth : Nat := 35

/-- The status word with one bit raised (spec/14 R312). -/
def irqRaise (v : BitVec 36) (b : Nat) : BitVec 36 := v ||| (1#36 <<< b)

/-- The status word after a write that clears the bits written as one (spec/14 R311). -/
def irqAck (v w : BitVec 36) : BitVec 36 := v &&& ~~~w

/-- The bits that send a message when the enabled word goes from `before` to `after` (spec/14 R312). -/
def irqRisen (before after : BitVec 36) : BitVec 36 := after &&& ~~~before

/-! ### States of a sequence (spec/02 R38, R40) -/

def SeqState.code : SeqState → Nat
  | .free => 0 | .admitted => 1 | .prefilling => 2 | .decoding => 3 | .parked => 4 | .paused => 5
  | .shuttered => 6 | .reheating => 7 | .migrating => 8 | .finished => 9 | .aborted => 10

def seqStateOf (n : Nat) : SeqState :=
  [.free, .admitted, .prefilling, .decoding, .parked, .paused, .shuttered, .reheating, .migrating, .finished, .aborted].getD n .free

/-- ADMITTED through MIGRATING (spec/02 R38). -/
def SeqState.live : SeqState → Bool
  | .free | .finished | .aborted => false
  | _ => true

/-- The states in which `wall_used` counts (spec/02 R40). -/
def SeqState.runsWall : SeqState → Bool
  | .admitted | .prefilling | .decoding | .parked | .reheating | .migrating => true
  | _ => false

/-- PREFILLING, DECODING or REHEATING. -/
def SeqState.composed : SeqState → Bool
  | .prefilling | .decoding | .reheating => true
  | _ => false

end Sys2Proof.Machine
end

