-- ==== Sys2Proof/Machine/Ops.lean ====
section
/-! DEFINITION. The named operations that every meaning uses: reading and writing one part of the state, free values, event rings, request events, Dusk entries, completion records, journal entries, and the wrapper that ends a meaning. -/

namespace Sys2Proof.Machine

open Sys2Proof

/-- What a meaning answers. -/
abbrev Result := Host.Outcome State Fault Refusal

/-! ### Parts of the state -/

def getInst (s : State) : InstId → Inst
  | .A => s.a
  | .B => s.b

/-- The other instance of the package. -/
def other : InstId → InstId
  | .A => .B
  | .B => .A

/-- The instance bit (spec/01 R14). -/
def ibit : InstId → Nat
  | .A => 0
  | .B => 1

def modInst (i : InstId) (f : Inst → Inst) (s : State) : State :=
  match i with
  | .A => { s with a := f s.a }
  | .B => { s with b := f s.b }

def modMir (i : InstId) (f : Mirrored → Mirrored) (s : State) : State :=
  modInst i (fun x => { x with mir := f x.mir }) s

def modHearth (i : InstId) (f : Hearth → Hearth) (s : State) : State :=
  modInst i (fun x => { x with hearth := f x.hearth }) s

def modHall (i : InstId) (f : Hallway → Hallway) (s : State) : State :=
  modInst i (fun x => { x with hall := f x.hall }) s

def modStair (i : InstId) (f : Stairwell → Stairwell) (s : State) : State :=
  modInst i (fun x => { x with stair := f x.stair }) s

def modRel (i : InstId) (f : Reliability → Reliability) (s : State) : State :=
  modInst i (fun x => { x with rel := f x.rel }) s

def modStudy (i : InstId) (f : Study → Study) (s : State) : State :=
  modInst i (fun x => { x with study := f x.study }) s

def modKit (i : InstId) (f : Kitchen → Kitchen) (s : State) : State :=
  modMir i (fun m => { m with kitchen := f m.kitchen }) s

def modFoyer (i : InstId) (f : Foyer → Foyer) (s : State) : State :=
  modMir i (fun m => { m with foyer := f m.foyer }) s

def modDir (i : InstId) (f : Directory → Directory) (s : State) : State :=
  modMir i (fun m => { m with dir := f m.dir }) s

def modLib (i : InstId) (f : Library → Library) (s : State) : State :=
  modMir i (fun m => { m with lib := f m.lib }) s

def modPantry (i : InstId) (f : Pantry → Pantry) (s : State) : State :=
  modMir i (fun m => { m with pantry := f m.pantry }) s

def modOutpost (o : Nat) (f : Outpost → Outpost) (s : State) : State :=
  { s with outposts := modAt s.outposts o f }

/-- Mirrored state of an instance. -/
def mir (s : State) (i : InstId) : Mirrored := (getInst s i).mir

def getCtx (m : Mirrored) (c : Nat) : Ctx := m.ctxs.getD c {}

def modCtx (i : InstId) (c : Nat) (f : Ctx → Ctx) (s : State) : State :=
  modMir i (fun m => { m with ctxs := modAt m.ctxs c f }) s

def modAcct (i : InstId) (c : Nat) (f : Acct → Acct) (s : State) : State :=
  modCtx i c (fun x => { x with acct := f x.acct }) s

def getModel (m : Mirrored) (k : Nat) : Model := m.dir.models.getD k {}

def modModel (i : InstId) (k : Nat) (f : Model → Model) (s : State) : State :=
  modDir i (fun d => { d with models := modAt d.models k f }) s

def getWin (m : Mirrored) (w : Nat) : Window := m.windows.getD w {}

def modWin (i : InstId) (w : Nat) (f : Window → Window) (s : State) : State :=
  modMir i (fun m => { m with windows := modAt m.windows w f }) s

def getLatch (m : Mirrored) (k : Nat) : Latch := m.latches.getD k {}

def modLatch (i : InstId) (k : Nat) (f : Latch → Latch) (s : State) : State :=
  modMir i (fun m => { m with latches := modAt m.latches k f }) s

def findSeq (m : Mirrored) (lid : Nat) : Option Seq := m.seqs.find? (·.r.localId == lid)

/-- The sequence of a local id; a blank one where the id is FREE. -/
def getSeq (m : Mirrored) (lid : Nat) : Seq := (findSeq m lid).getD {}

def mapSeq (lid : Nat) (f : Seq → Seq) (m : Mirrored) : Mirrored :=
  { m with seqs := m.seqs.map fun q => if q.r.localId == lid then f q else q }

def modSeq (i : InstId) (lid : Nat) (f : Seq → Seq) (s : State) : State := modMir i (mapSeq lid f) s

def modRec (i : InstId) (lid : Nat) (f : Record → Record) (s : State) : State :=
  modSeq i lid (fun q => { q with r := f q.r }) s

def seqOf (s : State) (i : InstId) (lid : Nat) : Seq := getSeq (mir s i) lid

def findHouse (m : Mirrored) (h : Nat) : Option Household := m.households.find? (·.id == h)

def modHouse (i : InstId) (h : Nat) (f : Household → Household) (s : State) : State :=
  modMir i (fun m => { m with households := m.households.map fun x => if x.id == h then f x else x }) s

/-- Members of a household that still have a record. -/
def members (m : Mirrored) (h : Nat) : List Seq := m.seqs.filter (·.r.household == h)

def findRecipe (m : Mirrored) (k : Nat) : Option Recipe := m.recipes.find? (·.id == k)

def getStep (m : Mirrored) (n : Nat) : Option Step := m.kitchen.steps.find? (·.num == n)

def modStep (i : InstId) (n : Nat) (f : Step → Step) (s : State) : State :=
  modKit i (fun k => { k with steps := k.steps.map fun x => if x.num == n then f x else x }) s

/-- A step outside COMMITTED and KILLED (spec/04 R75). -/
def uncommitted (st : Step) : Bool := st.phase != .committed && st.phase != .killed

/-- The row is of the sequence that has its local id now: the id may have been taken again (spec/02 R35). -/
def rowOwned (m : Mirrored) (row : StepRow) : Bool := (findSeq m row.lid).any (·.admitNo == row.admitNo)

/-- The uncommitted step that holds a row of a sequence (spec/04 R76). -/
def stepOfSeq (m : Mirrored) (lid : Nat) : Option Step :=
  m.kitchen.steps.find? fun st => uncommitted st && st.rows.any fun r => r.lid == lid && rowOwned m r

/-- The page table of an uncommitted step names the page (spec/05 R104). -/
def inPageTable (m : Mirrored) (page : Nat) : Bool :=
  m.kitchen.steps.any fun st => uncommitted st && st.rows.any fun r => r.pt.any (·.page == page)

/-- A row of the sequence is in an uncommitted step and not yet committed (spec/02 R42). -/
def inFlight (m : Mirrored) (lid : Nat) : Bool :=
  m.kitchen.steps.any fun st => uncommitted st &&
    (st.rows.zipIdx.any fun r => r.1.lid == lid && !(st.committedRows.contains r.2) && rowOwned m r.1)

/-- The outposts of an instance's current set, in order. -/
def outpostSet (s : State) (i : InstId) : List Nat := maskBits 8 (getInst s i).place.outposts.toNat

/-- READY and not FAILED: the instance runs (spec/13 R275, spec/17 R369). -/
def running (s : State) (i : InstId) : Bool :=
  (getInst s i).hearth.stage == .ready && !(getInst s i).rel.failed

/-- The instance runs and composes (spec/17 R387 `active`). -/
def activeInst (s : State) (i : InstId) : Bool := running s i && (getInst s i).rel.active

/-! ### Free values -/

/-- Take a free value (DESIGN CHOICE, log 2). -/
def takeFree (s : State) : Nat × State := (Config.freeNat s.free, { s with free := s.free + 1 })

/-! ### HBM and host memory -/

def hbmPut (a : Nat) (bs : List Byte) (s : State) : State := { s with hbm := memPuts s.hbm a bs }

def hostPut (a : Nat) (bs : List Byte) (s : State) : State := { s with host := memPuts s.host a bs }

/-! ### Interrupts (spec/14 R311-R313) -/

/-- The MSI-X entry of a status bit (spec/14 R312). -/
def msixEntry (i : InstId) (b : Nat) : Nat := b + 64 * ibit i

/-- The status bits that rise or become enabled send one message each (spec/14 R312). -/
def sendIrq (i : InstId) (before after : BitVec 36) (s : State) : State :=
  { s with msix := s.msix ++ ((maskBits 36 (irqRisen before after).toNat).map (msixEntry i)) }

/-- Raise status bit `b` (spec/14 R312). -/
def raiseIrq (i : InstId) (b : Nat) (s : State) : State :=
  let q := (mir s i).irq
  let v := irqStatus q
  let v' := irqRaise v b
  sendIrq i (v &&& q.enable) (v' &&& q.enable) (modMir i (fun m => { m with irq := irqPut m.irq v' }) s)

/-! ### Fault log and event rings -/

/-- Log a fault and raise `irq_fault` (spec/17 R388). -/
def logFault (i : InstId) (code unit : Nat) (ctx : Option Nat) (detail step addr : Nat) (s : State) : State :=
  raiseIrq i irqFault <| modRel i (fun r =>
    { r with faultLog := put (r.faultCount % 64)
               { tick := s.tick, code := code, unit := unit, context := ctx, detail := detail, step := step, address := addr } r.faultLog,
             faultCount := r.faultCount + 1 }) s

/-- Errors corrected and retries that succeeded, counted and not logged (spec/17 R359). -/
def countFixed (i : InstId) (n : Nat) (s : State) : State := if n = 0 then s else modRel i (fun r => { r with eccCorrected := satTo 32 (r.eccCorrected + n) }) s

/-- Study cycles of an instance since its last power-on or block reset ended: 500 a tick (spec/20 R430, spec/18 R391, whose example has cycle 16,000,000 at 32 ms after reset; DEDUCED, log 67). -/
def studyTime (s : State) (i : InstId) : Nat := wrapTo 48 (500 * (s.tick - (getInst s i).hearth.resetTick))

/-- The last 256 events of each ring: drop the oldest of that ring when it is full (spec/18 R397). -/
def ringTrim (ring : Nat) (l : List RingEvent) : List RingEvent :=
  if (l.filter (·.ring == ring)).length < 256 then l
  else match l.find? (·.ring == ring) with
    | some e => l.erase e
    | none => l

/-- Enter an event in its ring (spec/18 R397). -/
def ringEnter (i : InstId) (e : RingEvent) (s : State) : State := modStudy i (fun y => { y with rings := ringTrim e.ring y.rings ++ [e] }) s

/-- Enter an event of a unit with a payload of fields (spec/18 R397). -/
def ringPush (i : InstId) (ring unit event object : Nat) (payload : List Nat) (s : State) : State :=
  ringEnter i { ring := ring, time := studyTime s i, unit := unit, event := event, object := object, payload := payload } s

/-- Enter a message that the Landing sends (event 1) or receives (event 2) (spec/18 R397). -/
def ringMessage (i : InstId) (event step : Nat) (m : ChannelMsg) (s : State) : State :=
  ringEnter i { ring := 1, time := studyTime s i, unit := 0x021, event := event, object := step % 2 ^ 24, message := some m } s

/-- A live sequence's total positions T (spec/02 R38). -/
def seqT (r : Record) : Nat := r.promptLen + r.committedLen

/-- No deadline (spec/02 R30). -/
def noDeadline : Nat := 0xFFFFFFFFFFFF

/-! ### Hallway: request events (spec/12 R250-R260) -/

/-- Events that an usher's queue holds. -/
def usherLoad (h : Hallway) (u : Nat) : Nat := (h.events.filter (·.usher == u)).length

/-- The usher with the fewest queued events, the lower index first. -/
def leastUsher (h : Hallway) : Nat :=
  (List.range 32).foldl (fun best u => if usherLoad h u < usherLoad h best then u else best) 0

/-- The usher on which the scheduler places an event of a flow (spec/12 R257). -/
def placeUsher (h : Hallway) (f : Flow) : Nat :=
  match look f h.affinity with
  | some u => if usherLoad h u < 48 then u else leastUsher h
  | none => leastUsher h

/-- Type, subtype and source of a request event (spec/12 R250, R251). The taking of a prefix is the Pantry's resume (spec/05 R124). -/
def EvKind.codes : EvKind → Nat × Nat × Nat
  | .tokenCommit _ _ => (0x01, 0, 0)
  | .stopCheck _ _ => (0x02, 0, 1)
  | .kill _ => (0x03, 0, 0)
  | .admission => (0x04, 0, 4)
  | .warm src => (0x05, 0, src)
  | .cool => (0x06, 0, 8)
  | .evictPark => (0x07, 0, 5)
  | .evictResume => (0x07, 1, 5)
  | .prefixTake _ => (0x07, 1, 5)
  | .invalidate => (0x07, 2, 5)
  | .cancel _ => (0x08, 0, 2)
  | .park _ _ => (0x08, 1, 2)
  | .resume _ => (0x08, 2, 2)
  | .extend _ _ _ _ _ => (0x08, 3, 2)
  | .forceRun => (0x09, 0, 8)
  | .midnight _ => (0x0A, 0, 0)
  | .epochAbort _ => (0x0A, 1, 0)
  | .evening => (0x0B, 0, 0)
  | .morning => (0x0B, 1, 0)
  | .morningResume => (0x0B, 1, 0)
  | .migrateOut _ _ _ => (0x0C, 0, 2)
  | .migrateAck => (0x0C, 1, 3)
  | .migrateFail _ => (0x0C, 2, 3)
  | .migrateIn _ => (0x0C, 3, 3)
  | .migrateDone _ => (0x0C, 4, 3)
  | .timer list _ _ => (0x0D, list, 7)
  | .household => (0x0E, 0, 8)
  | .teardown => (0x0F, 0, 9)
  | .planReady => (0x10, 0, 6)
  | .context src => (0x11, 0, src)

/-- The intake queue of a source: Kitchen, Landing, Porch, Stairwell, Internal (spec/12 R259). -/
def intakeOf (k : EvKind) : Nat := min 4 k.codes.2.2

/-- Entries of an intake queue (spec/12 R259). -/
def intakeEntries (k : Nat) : Nat := if k = 0 then 4096 else if k = 4 then 8192 else 1024

/-- The events at an intake queue, those that its source still holds last. -/
def atIntake (k : Nat) (h : Hallway) : List Event := h.waiting.filter fun e => intakeOf e.kind == k

/-- The events in an intake queue. -/
def inIntake (k : Nat) (h : Hallway) : List Event := (atIntake k h).take (intakeEntries k)

/-- An intake queue is full: its sources are held (spec/12 R259). -/
def intakeFull (k : Nat) (h : Hallway) : Bool := decide (intakeEntries k ≤ (atIntake k h).length)

/-- A broadcast event that arrived before it waits for the same flow: the event follows it (spec/12 R256). -/
def behindBcast (h : Hallway) (e : Event) : Bool := (h.waiting.takeWhile (· != e)).any fun w => w.bcast && w.flow == e.flow

/-- The event that the scheduler takes next: the intake queues in turn, in each the class-0 events first, none ahead of its flow's broadcast (spec/12 R256, R259). -/
def nextEntry (h : Hallway) : Option (Nat × Event) :=
  ((List.range 5).map fun n => (h.served + 1 + n) % 5).findSome? fun k =>
    let q := (inIntake k h).filter fun e => !behindBcast h e
    ((q.find? (·.class0)).or q.head?).map fun e => (k, e)

/-- An event as it is accepted at a tick: a TIMER keeps its due tick and is late where that has passed, a broadcast has arrived at its own tick, any other carries the tick of acceptance (spec/12 R250, R253, R256). -/
def acceptedAt (tick : Nat) (e : Event) : Event :=
  match e.kind with
  | .timer _ _ due => { e with late := decide (due < tick) }
  | _ => if e.bcast then e else { e with tick := tick }

/-- A TIMER that is accepted late is counted in its list (spec/12 R264, R266). -/
def countLate (e : Event) (cs : List DuskCount) : List DuskCount :=
  match e.kind with
  | .timer l _ _ => modAt cs l fun c => { c with late := satTo 32 (c.late + bit e.late) }
  | _ => cs

/-- The scheduler accepts one event into its flow: its arrival number, its usher (spec/12 R252, R257). -/
def acceptEvent (tick : Nat) (e : Event) (h : Hallway) : Hallway :=
  let n := (look e.flow h.nextArrival).getD 0
  let u := placeUsher h e.flow
  let e := acceptedAt tick e
  { h with
    events := h.events ++ [{ e with arrival := n, usher := u }]
    nextArrival := put e.flow (wrapTo 32 (n + 1)) h.nextArrival
    affinity := put e.flow u h.affinity
    counts := countLate e h.counts }

/-- Some usher's queue has room (spec/12: 64 events each). -/
def usherRoom (h : Hallway) : Bool := (List.range 32).any fun u => usherLoad h u < 64

/-- The scheduler serves the intake queues while an usher has room. -/
def dispatch (tick : Nat) : Nat → Hallway → Hallway
  | 0, h => h
  | n + 1, h =>
    if !usherRoom h then h
    else match nextEntry h with
      | none => h
      | some x => dispatch tick n (acceptEvent tick x.2 { h with waiting := h.waiting.erase x.2, served := x.1 })

/-- The depth that an intake queue has reached, and the tick since which its source is held (spec/12 R260, R266). -/
def noteIntake (k tick : Nat) (h : Hallway) : Hallway :=
  let n := (atIntake k h).length
  { h with intakes := modAt h.intakes k fun q =>
      { q with highWater := max q.highWater (min n (intakeEntries k)),
               heldSince := if intakeEntries k < n then some (q.heldSince.getD tick) else q.heldSince } }

/-- The source of an intake queue is still held: the Kitchen's and the Internal one's events wait outside it, the others find it full (spec/12 R259). -/
def sourceHeld (k : Nat) (h : Hallway) : Bool := if k = 0 ∨ k = 4 then decide (intakeEntries k < (atIntake k h).length) else intakeFull k h

/-- A source that finds its intake queue full is held from this tick on (spec/12 R259, R260). -/
def holdSource (k tick : Nat) (h : Hallway) : Hallway :=
  { h with intakes := modAt h.intakes k fun q => { q with heldSince := some (q.heldSince.getD tick) } }

/-- An event reaches its intake queue, and the scheduler serves the queues (spec/12 R259). -/
def enterIntake (tick : Nat) (e : Event) (h : Hallway) : Hallway :=
  let h := noteIntake (intakeOf e.kind) tick { h with waiting := h.waiting ++ [e] }
  dispatch tick h.waiting.length h

/-- The flow's events are of class 0 (spec/12 R258). -/
def flowClass0 (m : Mirrored) : Flow → Bool
  | .seq l => (getSeq m l).r.cls == 0 && (findSeq m l).isSome
  | .unit n => n == 17 || n == 18

/-- Post an event to a flow: as a broadcast or not, and the tick that it carries if it keeps one. -/
def postTo (i : InstId) (f : Flow) (k : EvKind) (b : Bool) (tick : Nat) (s : State) : State :=
  modHall i (enterIntake s.tick { flow := f, kind := k, bcast := b, class0 := flowClass0 (mir s i) f, tick := tick }) s

/-- The event that a broadcast puts into a sequence's flow (spec/12 R256). -/
def bcastKind : Bcast → EvKind
  | .midnight info => .midnight info
  | .epochAbort _ _ => .epochAbort none
  | .evening => .evening
  | .morning => .morning
  | .morningResume => .morningResume
  | .teardown => .teardown

/-- Put a cold record's broadcasts into its flow, each as of the tick of its broadcast (spec/12 R256). -/
def flushBcast (i : InstId) (lid : Nat) (s : State) : State :=
  let bs := (seqOf s i lid).bcast
  bs.foldl (fun s b => postTo i (.seq lid) (bcastKind b.1) true b.2 s) (modSeq i lid (fun q => { q with bcast := [] }) s)

/-- Post an event to a sequence's flow, behind the broadcasts that wait for it (spec/12 R256). -/
def postSeq (i : InstId) (lid : Nat) (k : EvKind) (s : State) : State :=
  postTo i (.seq lid) k false s.tick (flushBcast i lid s)

/-- Post an event to a unit flow. -/
def postUnit (i : InstId) (n : Nat) (k : EvKind) (s : State) : State := postTo i (.unit n) k false s.tick s

/-- Broadcast to one sequence: at once where it is hot, else held beside its record (spec/12 R256). -/
def broadcastTo (i : InstId) (b : Bcast) (lid : Nat) (s : State) : State :=
  if (seqOf s i lid).r.hot then postTo i (.seq lid) (bcastKind b) true s.tick s
  else modSeq i lid (fun q => { q with bcast := q.bcast ++ [(b, s.tick)] }) s

/-- Broadcast to every sequence that `p` holds of, live or with its ADMIT still to be applied, in ascending local id. -/
def broadcast (i : InstId) (b : Bcast) (p : Seq → Bool) (s : State) : State :=
  (sortBy (· < ·) (((mir s i).seqs.filter fun q => (q.r.state.live || q.r.state == .free) && p q).map (·.r.localId))).foldl
    (fun s lid => broadcastTo i b lid s) s

/-- Every event outstanding, the queued ones first. -/
def outstanding (h : Hallway) : List Event := h.events ++ h.waiting

/-- A flow has an event outstanding that `p` holds of. -/
def flowHas (h : Hallway) (f : Flow) (p : EvKind → Bool) : Bool := (outstanding h).any fun e => e.flow == f && p e.kind

/-- An answer of the migration's peer, and the retry that resends HANDOVER, go ahead of the events held behind an outstanding HANDOVER (spec/16 R350, R351). -/
def endsHandover : EvKind → Bool
  | .migrateAck | .migrateFail _ => true
  | .timer list _ _ => list == 1
  | _ => false

/-- The source holds the sequence's events behind an outstanding HANDOVER (spec/16 R351). -/
def handoverHeld (m : Mirrored) (lid : Nat) : Bool := m.outXfers.any fun t => !t.forward && t.lid == lid && t.stage == .handover

/-- The event of a flow that may be applied next (spec/12 R254, spec/16 R351). -/
def headEvent (x : Inst) (f : Flow) : Option Event :=
  let held := match f with | .seq l => handoverHeld x.mir l | .unit _ => false
  x.hall.events.find? fun e => e.flow == f && (!held || endsHandover e.kind)

/-- The event that an usher takes next: the oldest of class 0 whose apply may begin, else the oldest whose apply may begin (spec/12 R258). -/
def usherNext (x : Inst) (u : Nat) : Option Event :=
  let q := x.hall.events.filter fun e => e.usher == u && headEvent x e.flow == some e
  (q.find? (·.class0)).or q.head?

/-- The event of a flow that its usher applies next. -/
def dueEvent (x : Inst) (f : Flow) : Option Event :=
  match headEvent x f with
  | some e => if usherNext x e.usher == some e then some e else none
  | none => none

/-- The step that an event names. -/
def EvKind.stepOf : EvKind → Nat
  | .tokenCommit n _ | .stopCheck n _ | .kill n => n
  | _ => 0

/-- The 64-byte request event (spec/12 R250); its payload, which R250 does not lay out, is uninterpreted (DESIGN CHOICE, log 64). -/
def eventBytes (m : Mirrored) (e : Event) : List Byte :=
  let r := match e.flow with | .seq l => (getSeq m l).r | .unit _ => {}
  let flow := match e.flow with
    | .seq l => l % 2 ^ 22 + r.context * 2 ^ 23 + r.cls * 2 ^ 27
    | .unit n => n + 2 ^ 22
  let k := e.kind.codes
  layout 64 [ lf 0x00 1 k.1, lf 0x01 1 k.2.1, lf 0x02 1 k.2.2, lf 0x03 1 (bit e.class0 + 2 * bit e.bcast + 4 * bit e.late), lf 0x04 4 flow,
              lf 0x08 4 e.arrival, lf 0x0C 4 e.usher, lf 0x10 8 (wrapTo 48 e.tick), lf 0x18 8 e.kind.stepOf,
              (0x20, slice (Config.imageBytes e.kind) 0 32) ]

/-- Release the event of a flow that is applied: its usher has run it, and the scheduler serves the intake queues (spec/12 R254, R259). -/
def releaseEvent (i : InstId) (f : Flow) (s : State) : State :=
  match headEvent (getInst s i) f with
  | none => s
  | some e => ringPush i 7 e.usher 1 (match f with | .seq l => l | .unit n => n) (unwords (eventBytes (mir s i) e) 0 8 8) <|
      modHall i (fun h => dispatch s.tick h.waiting.length { h with
        events := h.events.erase e
        ushers := modAt h.ushers e.usher fun x => { x with released := x.released + 1 } }) s

/-- The events of a flow that `p` holds of leave it without effect. -/
def voidFlow (tick : Nat) (f : Flow) (p : EvKind → Bool) (h : Hallway) : Hallway :=
  let gone (e : Event) : Bool := e.flow == f && p e.kind
  let h := { h with events := h.events.filter fun e => !gone e, waiting := h.waiting.filter fun e => !gone e }
  dispatch tick h.waiting.length h

/-! ### Dusk lists (spec/12 R261-R265) -/

/-- Entries a list holds in the Hallway (spec/12 R264). -/
def duskOnChip : Nat := 262144

/-- No entry (spec/12 R261). -/
def noHandle : Nat := 0xFFFFFFFF

/-- Keep a list's on-chip entries within bounds: the latest due spills first (spec/12 R264). -/
def duskSpill (list : Nat) (ds : List Dusk) : List Dusk :=
  let chip := ds.filter fun d => d.list == list && !d.spilled
  if chip.length ≤ duskOnChip then ds
  else
    let last := chip.foldl (fun m d => if m.due ≤ d.due then d else m) (chip.headD { list := 0, flow := .unit 0, due := 0, handle := 0 })
    ds.map fun d => if d == last then { d with spilled := true } else d

/-- Insert an entry. -/
def duskAdd (list : Nat) (f : Flow) (due handle : Nat) (ds : List Dusk) : List Dusk :=
  let sp := ds.any fun d => d.list == list && d.spilled && d.due ≤ due
  duskSpill list (ds ++ [{ list := list, flow := f, due := due, handle := handle, spilled := sp }])

/-- Remove a flow's entries of a list. -/
def duskDel (list : Nat) (f : Flow) (ds : List Dusk) : List Dusk := ds.filter fun d => !(d.list == list && d.flow == f)

/-- Insert a sequence's entry in a list in place of any old one, and give its record the handle (spec/12 R261). -/
def duskSet (i : InstId) (list lid due : Nat) (s : State) : State :=
  let h := (mir s i).nextHandle
  modRec i lid (fun r => { r with duskHandles := modAt r.duskHandles list fun _ => h }) <|
    modMir i (fun m => { m with dusk := duskAdd list (.seq lid) due h (duskDel list (.seq lid) m.dusk),
                                nextHandle := (h + 1) % noHandle }) s

/-- Remove a sequence's entry from a list (spec/12 R265). -/
def duskClear (i : InstId) (list lid : Nat) (s : State) : State :=
  modRec i lid (fun r => { r with duskHandles := modAt r.duskHandles list fun _ => noHandle }) <|
    modMir i (fun m => { m with dusk := duskDel list (.seq lid) m.dusk }) s

/-- Insert a unit's entry, in place of any old one. -/
def duskUnit (i : InstId) (list n due : Nat) (s : State) : State :=
  modMir i (fun m => { m with dusk := duskAdd list (.unit n) due m.nextHandle (duskDel list (.unit n) m.dusk),
                              nextHandle := (m.nextHandle + 1) % noHandle }) s

/-- Insert one more entry of a unit; its handle is the next one (spec/12 R261). -/
def duskMore (i : InstId) (list n due : Nat) (s : State) : State :=
  modMir i (fun m => { m with dusk := duskAdd list (.unit n) due m.nextHandle m.dusk, nextHandle := (m.nextHandle + 1) % noHandle }) s

/-- Withdraw a unit's entry by its handle. -/
def duskDrop (i : InstId) (list handle : Nat) (s : State) : State :=
  modMir i (fun m => { m with dusk := m.dusk.filter fun d => !(d.list == list && d.handle == handle) }) s

/-- The ticks that a sequence has spent of its wall budget (spec/02 R40). -/
def wallSpent (q : Seq) : Nat := satTo 32 (q.r.wallUsed + q.wall)

/-- `wall_used` takes up what has passed: at a commit or an event (spec/02 R40, R45). -/
def chargeSeq (q : Seq) : Seq := { q with wall := 0, r := { q.r with wallUsed := wallSpent q } }

/-- The wall tick of a sequence (spec/12 R262). -/
def wallTick (tick : Nat) (q : Seq) : Option Nat :=
  if q.r.maxWallTicks ≠ 0 ∧ q.r.state.runsWall then some (tick + (q.r.maxWallTicks - wallSpent q)) else none

/-- The due tick of a sequence's deadline entry (spec/12 R261, R262): none without a deadline and a running wall budget. -/
def deadlineDue (tick : Nat) (q : Seq) : Option Nat :=
  let d := if q.r.deadlineTick = noDeadline then none else some (q.r.deadlineTick + 1)
  match d, wallTick tick q with
  | some x, some y => some (min x y)
  | some x, none => some x
  | none, y => y

/-- Insert or withdraw the deadline entry for the sequence's present state (spec/12 R262). -/
def retime (i : InstId) (lid : Nat) (s : State) : State :=
  match deadlineDue s.tick (seqOf s i lid) with
  | some due => duskSet i 0 lid due s
  | none => duskClear i 0 lid s

/-- An entry fires: it leaves its list, is counted, and its TIMER enters its flow (spec/12 R253, R263, R264, R266). -/
def fireEntry (i : InstId) (d : Dusk) (s : State) : State :=
  let s := modMir i (fun m => { m with dusk := m.dusk.filter (· != d) }) s
  let s := modHall i (fun h => { h with
    counts := modAt h.counts d.list fun c => { c with fired := wrapTo 64 (c.fired + 1) }
    firedNow := modAt h.firedNow d.list (· + 1) }) s
  let s := match d.flow with | .seq l => flushBcast i l s | .unit _ => s
  postTo i d.flow (.timer d.list d.handle d.due) false d.due s

/-- The entries of a list that may still fire in the present tick: those on chip that are due, the earliest first, at most one a Hallway cycle (spec/12 R253, R263, R264). -/
def dueEntries (x : Inst) (list tick : Nat) : List Dusk :=
  (sortBy (fun a b => decide (a.due < b.due)) (x.mir.dusk.filter fun d => d.list == list && !d.spilled && decide (d.due ≤ tick))).take
    (1200 - x.hall.firedNow.getD list 0)

/-- The due entries of which `p` holds fire, list by list, while the Internal intake queue has room, else the lists are held (spec/12 R253, R259, R260). -/
def fireSome (i : InstId) (p : Dusk → Bool) (s : State) : State :=
  [0, 1, 2, 3].foldl (fun s l => ((dueEntries (getInst s i) l s.tick).filter p).foldl (fun s d =>
    if intakeFull 4 (getInst s i).hall then modHall i (holdSource 4 s.tick) s else fireEntry i d s) s) s

/-- At the end of a tick the Dusk lists fire (spec/12 R253). -/
def fireLists (i : InstId) (s : State) : State := modHall i (fun h => { h with firedNow := List.replicate 4 0 }) (fireSome i (fun _ => true) s)

/-- A TIMER with no effect (spec/12 R265, R266). -/
def countStale (i : InstId) (list : Nat) (s : State) : State :=
  modHall i (fun h => { h with counts := modAt h.counts list fun c => { c with stale := satTo 32 (c.stale + 1) } }) s

/-- Enter a state: the record's state, the deadline entry, the touch (spec/02 R40, R46, spec/12 R262). -/
def enterState (i : InstId) (lid : Nat) (st : SeqState) (s : State) : State :=
  if (seqOf s i lid).r.state == st then s
  else retime i lid (modSeq i lid (fun q => { q with r := { q.r with state := st }, touched := s.tick }) s)

/-! ### Journal (spec/17 R374) -/

/-- Stage journal entries. -/
def journal (i : InstId) (es : List JEntry) (s : State) : State :=
  modRel i (fun r => { r with staged := r.staged ++ es }) s

/-- The RECORD entry of a sequence after a non-step event (spec/17 R374). -/
def journalRecord (i : InstId) (lid : Nat) (s : State) : State :=
  match findSeq (mir s i) lid with
  | some q => journal i [.record q.r q.auxTopN q.draftList] s
  | none => journal i [.record { localId := lid } 0 []] s

/-- The RING entry of a context (spec/17 R374). -/
def journalRing (i : InstId) (c : Nat) (s : State) : State :=
  let x := getCtx (mir s i) c
  journal i [.ring c x.sqHead x.cqHead] s

/-- An OBJECT entry (spec/17 R374). -/
def journalObj (i : InstId) (o : JObj) (s : State) : State := journal i [.object o] s

/-! ### Completion records (spec/02 R51-R53, spec/14 R309, R310) -/

/-- A failing HBM read stands at an address for the fault log, if the context has no fault yet (spec/17 R388). -/
def faultAt (i : InstId) (c addr : Nat) (s : State) : State := modCtx i c (fun x => if x.isOpen && x.faultCause == 0 then { x with faultAddr := addr } else x) s

/-- The context that a fault names as its first cause; teardown begins at the end of the meaning (spec/15 R332). -/
def askFault (i : InstId) (c cause : Nat) (s : State) : State :=
  modCtx i c (fun x => if x.isOpen && x.faultCause == 0 then { x with faultCause := cause } else x) s

/-- The arrival whose space holds an address (spec/16 R349). -/
def arrivalAt (m : Mirrored) (addr : Nat) : Option Nat :=
  (m.arrivals.find? fun a => decide (a.1 ≤ addr) && decide (addr < a.1 + 0x10000 * a.2)).map (·.1)

/-- Return an arrival's blocks to the free space (spec/16 R349). -/
def freeArrival (i : InstId) (base : Nat) (s : State) : State :=
  modMir i (fun m => { m with arrivals := m.arrivals.filter (·.1 != base) }) s

/-- A record that is never delivered: the buffer that it releases is released all the same (spec/14 R309). -/
def discardRecord (i : InstId) (rec : Completion) (s : State) : State :=
  match rec.arrival with
  | some a => freeArrival i a s
  | none => s

/-- The 32 bytes of a completion record (spec/02 R51). -/
def completionBytes (x : Completion) : List Byte :=
  leBytes 8 x.hostTag ++ leBytes 4 x.localId ++ leBytes 4 (x.household + x.ordinal * 2 ^ 20) ++
  [BitVec.ofNat 8 x.kind, BitVec.ofNat 8 x.reason, BitVec.ofNat 8 x.state.code,
   BitVec.ofNat 8 (bit x.promptReleased + 2 * bit x.kvReleased + 4 * bit x.crossed)] ++
  leBytes 4 x.committedLen ++ leBytes 4 x.newTokens ++ leBytes 2 x.epoch ++ leBytes 2 x.seqno

/-- The slot of the Cellar's stream area in which record `n` of a context's stream stands: 2 MiB for each context, behind the page lists and the firmware copy, of which records in order take 32 bytes each, in a ring (spec/17 R371; the order within the area is the model's, DESIGN CHOICE, log 104). -/
def streamSlot (x : Inst) (c n : Nat) : Option Nat :=
  (look 1 x.place.regions).map fun r => r.base + r.aux + 0x1000000 + 0x200000 * c + 32 * (n % 65536)

/-- Write a record into the stream's area (spec/14 R310). -/
def storeRecord (i : InstId) (c : Nat) (rec : Completion) (s : State) : State :=
  let x := getInst s i
  let y := getCtx x.mir c
  match streamSlot x c (y.cqTail + y.stream.length) with
  | some a => hbmPut a (completionBytes rec) s
  | none => s

/-- The completion stream of a context with one more record: `cq_hold` above 16,384, a context fault at 65,536, discarded where the context is not open (spec/14 R309, R310). -/
def postRecord (i : InstId) (c : Nat) (rec : Completion) (s : State) : State :=
  let x := getCtx (mir s i) c
  if !x.isOpen then discardRecord i rec s
  else if 65536 ≤ x.stream.length then askFault i c 1 (discardRecord i rec s)
  else
    let hold := x.cqHold || 16384 < x.stream.length + 1
    let s' := journal i [.stream c rec] (modCtx i c (fun x => { x with stream := x.stream ++ [rec], cqHold := hold }) (storeRecord i c rec s))
    if hold && !x.cqHold then ringPush i 5 0x025 3 0 [c] s' else s'

/-- The completion record of a sequence's event (spec/02 R51). -/
def seqCompletion (q : Seq) (kind reason : Nat) (promptReleased : Bool) : Completion :=
  let r := q.r
  { hostTag := r.hostTag, localId := r.localId, household := r.household, ordinal := r.ordinal, kind := kind, reason := reason,
    state := r.state, promptReleased := promptReleased,
    kvReleased := kind == 5 || kind == 6 || r.kvState == .released || r.kvState == .stale,
    crossed := r.crossed, committedLen := r.committedLen, newTokens := r.newTokens, epoch := r.epoch, seqno := r.completionSeqno }

/-- Post a record of a sequence and advance its record number (spec/02 R51, R52). -/
def postSeqRecord (i : InstId) (lid kind reason : Nat) (promptReleased : Bool) (s : State) : State :=
  let q := seqOf s i lid
  postRecord i q.r.context { seqCompletion q kind reason promptReleased with
      arrival := if promptReleased then arrivalAt (mir s i) q.r.promptAddr else none }
    (modRec i lid (fun r => { r with completionSeqno := wrapTo 16 (r.completionSeqno + 1) }) s)

/-- Post a REJECT record (spec/02 R51). -/
def postReject (i : InstId) (c : Nat) (r : Request) (reason : Nat) (s : State) : State :=
  postRecord i c { hostTag := r.hostTag, localId := 0x3FFFFF, kind := 7, reason := reason, promptReleased := true,
                   arrival := arrivalAt (mir s i) r.promptAddr } s

/-- Plan faults counted in a context's accounting (spec/10 R229). -/
def notePlanFaults (i : InstId) (c n : Nat) (s : State) : State :=
  modAcct i c (fun a => { a with planFaults := satTo 32 (a.planFaults + n) }) s

/-- A deferred request that has left its queue is rejected; PLAN_UNKNOWN is the plan fault of a plan that has failed validation (spec/03 R58, spec/10 R229). -/
def rejectLeft (i : InstId) (c : Nat) (r : Request) (reason : Nat) (s : State) : State :=
  ringPush i 2 0x022 1 0 [r.hostTag, c, 2, reason] (postReject i c r reason (notePlanFaults i c (bit (reason == 37)) s))

/-! ### The end of a meaning -/

/-- A failing active instance streams nothing behind its FAIL, on which the mirror acts: it kills and reruns the uncommitted steps itself (spec/17 R364, R366; DEDUCED, log 112). -/
def streamEnded (t : State) (i : InstId) : Bool := (getInst t i).rel.failed && ((getInst t i).rel.failSent || (getInst t (other i)).rel.claiming)

/-- The mirror stream carries every change of the active twin's mirrored state, with the journal entries staged (spec/17 R361, R363). -/
def mirrorOut (i : InstId) (s t : State) : State :=
  let x := getInst s i
  let y := getInst t i
  if y.rel.active && !streamEnded t i && (y.rel.mirror == .syncing || y.rel.mirror == .current) &&
      (x.mir != y.mir || x.hall.events != y.hall.events || x.hall.waiting != y.hall.waiting || x.stair.role != y.stair.role || x.stair.roleGen != y.stair.roleGen || x.place.outposts != y.place.outposts
        || x.rel.staged.length < y.rel.staged.length) then
    let msg : MirrorMsg := { img := y.mir, events := y.hall.events, waiting := y.hall.waiting, nextArrival := y.hall.nextArrival, role := y.stair.role,
                             roleGen := y.stair.roleGen, outposts := y.place.outposts, entries := y.rel.staged.drop x.rel.staged.length }
    modRel i (fun r => { r with streamOut := r.streamOut ++ [msg] }) t
  else t

/-- A meaning that acts on instance `i` ends: its state after, with the mirror message. -/
def done (i : InstId) (s t : State) : Result := .next (mirrorOut i s t)

end Sys2Proof.Machine
end

