-- ==== Sys2Proof/Machine/Larder.lean ====
section
/-! DEFINITION. An outpost's Larder: its write port, wave markers, halves, the beginning of a wave's passes, and what a kill discards (spec/07 R155-R158, R167, R171, R172; spec/04 R97). -/

namespace Sys2Proof.Machine

open Sys2Proof

/-- Groups fenced for any cause (spec/19 R425). -/
def fencedOf (o : Outpost) : BitVec 32 := o.fenceMask ||| o.testFence

/-- The half accepts granules (R157). -/
def halfFree (o : Outpost) (h : Nat) : Bool := if h = 0 then o.half0Free else o.half1Free

def setHalf (h : Nat) (v : Bool) (o : Outpost) : Outpost := if h = 0 then { o with half0Free := v } else { o with half1Free := v }

/-- The set-ups the outpost has heard of through its draw lists. -/
def knownSetups (o : Outpost) : List RowSetup := (o.drawsPending ++ o.draws).flatMap (·.rows)

/-- A granule lies in the slice that the outpost re-requested for a row (R158). -/
def rewritesRow (off : Nat) (r : OutRow) : Bool :=
  r.rereq == some (off / 0x10000) && suHalf r.su == off / 0x8000 % 2 && r.su.h.row / suRho r.su == off % 0x8000 / (if r.su.wide then 1024 else 512)

/-- A granule rewrites a slice that the outpost re-requested (R158). -/
def rewrites (o : Outpost) (off : Nat) : Bool := o.rows.any (rewritesRow off)

/-- Rows of a wave that the outpost holds. -/
def waveRows (o : Outpost) (step wave : Nat) : List OutRow := o.rows.filter fun r => r.su.h.step == step && r.su.h.wave == wave

/-- The passes over a row have begun here (R157). -/
def rowBegun (r : OutRow) : Bool := r.stage != .setup || r.rereq.isSome

/-- Change a row that an outpost holds. -/
def modRow (h : RowHandle) (f : OutRow → OutRow) (x : Outpost) : Outpost :=
  { x with rows := x.rows.map fun r => if r.su.h == h then f r else r }

/-- The passes of a wave begin once its marker and the set-up of every row of it are here (R157). -/
def beginWave (step wave : Nat) (o : Outpost) : Outpost :=
  let want := ((knownSetups o).filter fun su => su.h.step == step && su.h.wave == wave).length
  let have' := (waveRows o step wave).filter fun r => !rowBegun r
  if (o.markers.any fun m => m.1 == step && m.2.1 == wave) && decide (0 < want) && have'.length == want then
    { o with
      fenceInForce := fencedOf o
      rows := o.rows.map fun r => if r.su.h.step == step && r.su.h.wave == wave then { r with stage := .maxPass, fences := fencedOf o } else r }
  else o

/-- A wave-done marker is taken: it ends the rewriting of one re-requested slice, whose row goes on, or the wave's half is locked and its passes may begin; one that names no row here is discarded (R157, R158, R172). -/
def takeMarker (step wave : Nat) (o : Outpost) : Outpost :=
  match (waveRows o step wave).find? (·.rewritten) with
  | some r => modRow r.su.h (fun q => { q with rereq := none, rewritten := false, reread := q.rereq.toList ++ q.reread, stage := .maxPass }) o
  | none =>
    if o.markers.any fun m => m.1 == step && m.2.1 == wave then o
    else match (knownSetups o).find? (fun su => su.h.step == step && su.h.wave == wave) with
      | none => o
      | some su => beginWave step wave (setHalf (suHalf su) false { o with markers := o.markers ++ [(step, wave, suHalf su)] })

/-- A granule enters the Larder. -/
def takeGranule (off : Nat) (data : List Byte) (o : Outpost) : Outpost :=
  { o with larder := memPuts o.larder off data, rows := o.rows.map fun r => { r with rewritten := r.rewritten || rewritesRow off r } }

/-- The write port takes what its halves accept, in order (R156, R157); a rewritten row behind a granule that is held waits with it (DESIGN CHOICE, log 118). -/
def drainItems : List PortItem → Outpost → Outpost
  | [], o => { o with port := [] }
  | .granule off data :: t, o =>
    if halfFree o (off / 0x8000 % 2) || rewrites o off then drainItems t (takeGranule off data o)
    else { o with port := .granule off data :: t }
  | .marker step wave :: t, o => drainItems t (takeMarker step wave o)

def drainPort (o : Outpost) : Outpost := drainItems o.port o

/-- Every row of a wave is finished: none is held here, and none of the draw lists is still to be set up (R157). -/
def waveOver (o : Outpost) (step wave : Nat) : Bool :=
  (waveRows o step wave).isEmpty && !(knownSetups o).any fun su => su.h.step == step && su.h.wave == wave

/-- The half of a wave whose rows are all finished is released (R157). -/
def releaseWaves (o : Outpost) : Outpost :=
  let gone := o.markers.filter fun m => waveOver o m.1 m.2.1
  let o' := gone.foldl (fun o m => setHalf m.2.2 true o) o
  drainPort { o' with markers := o.markers.filter fun m => !waveOver o m.1 m.2.1 }

/-- An up message's row. -/
def UpMsg.h : UpMsg → RowHandle
  | .maxSum h _ _ _ _ | .massSum h _ | .roundSum h _ | .keptSum h _ | .residSum h _ _ | .raceSum h _ | .located h _ | .parity h _ => h

/-- A down message's row. -/
def DownMsg.h : DownMsg → RowHandle
  | .rowSetup su => su.h
  | .maxResult h _ _ | .roundReq h _ _ | .cut h _ _ _ | .quotas h _ | .resid h _ | .locate h _ _ _ _ _ | .done h => h

/-! ### What a pass waits for (spec/08 R188, spec/10 R225) -/

/-- The fences under which an outpost works on a row: those of its begun passes, else the present ones (R171). -/
def rowFences (x : Outpost) (h : RowHandle) : BitVec 32 :=
  match x.rows.find? (fun r => r.su.h == h && rowBegun r) with
  | some r => r.fences
  | none => fencedOf x

/-- The lane number under which the row-draw buffer is held. -/
def rowDrawLane : Nat := 512

/-- The RACE block indices that a lane needs for a row (spec/08 R185, R188). -/
def laneBlocks (x : Outpost) (o : Nat) (su : RowSetup) (lane : Nat) : List Nat :=
  (((outIds su o).filter fun v => procLane (rowFences x su.h) su v == lane).map (raceBlock su.recipe.race16)).eraseDups

/-- A block stands in a FIFO. -/
def holdsBlock (x : Outpost) (h : RowHandle) (lane kind low : Nat) : Bool := x.fifo.any fun b => b.h == h && b.lane == lane && b.kind == kind && b.low == low

/-- Lanes that hold a row's slivers on an outpost. -/
def rowLanes (su : RowSetup) (o : Nat) : List Nat := (outSlivers su o).map fun g => laneOfSliver su (g / suD su)

/-- The row's class-map slices have arrived (spec/10 R225). -/
def mapsReady (x : Outpost) (su : RowSetup) (o : Nat) : Bool :=
  match su.plan with
  | none => true
  | some p => (rowLanes su o).all fun l => x.maps.any fun m => m.plan == p.1 && m.lanes.contains l

/-- Every RACE block of the row is in its lane's FIFO (spec/08 R188). -/
def raceReady (x : Outpost) (su : RowSetup) (o : Nat) : Bool :=
  (outIds su o).all fun v => holdsBlock x su.h (procLane (rowFences x su.h) su v) kindRace (raceBlock su.recipe.race16 v)

/-- The row's 64-bit blocks are in the row-draw buffer of the outpost of rank 0 (spec/08 R185, R188). -/
def drawsReady (x : Outpost) (su : RowSetup) (o : Nat) : Bool :=
  rankOf su.outposts o != 0 || su.draw.draws.all fun d => holdsBlock x su.h rowDrawLane d.kind d.low

/-- The pass can run: what it waits for is here (spec/08 R188, spec/10 R225). -/
def passReady (x : Outpost) (r : OutRow) (o : Nat) : Bool :=
  match r.stage with
  | .maxPass => mapsReady x r.su o && (!raceInMax r.su || raceReady x r.su o)
  | .massPass => drawsReady x r.su o
  | .racePass => raceReady x r.su o
  | .roundPass | .keptPass | .residPass | .locatePass => true
  | .setup | .maxSent | .massSent | .roundSent | .keptSent | .residSent | .raceSent | .locateSent => false

/-! ### Fences (R171, spec/08 R185, R192) -/

/-- The lowest-indexed unfenced lane group, whose core generates the row draws (spec/08 R185). -/
def rowDrawGroup (fences : BitVec 32) : Nat := ((List.range 32).find? fun g => !fences.getLsbD g).getD 0

/-- The lane group in whose FIFOs a block stands. -/
def blockGroup (x : Outpost) (b : KeyBlock) : Nat := if b.lane = rowDrawLane then rowDrawGroup (rowFences x b.h) else b.lane / 16

/-- A change of the fences: the blocks in the FIFOs of the groups that lose their service leave, and, of rows not begun, those that another lane now needs (spec/08 R192). -/
def fenceChange (o : Nat) (x y : Outpost) : Outpost :=
  let fresh := fencedOf y &&& ~~~ fencedOf x
  let kept := y.fifo.filter fun b => !fresh.getLsbD (blockGroup x b)
  { y with fifo := kept.filter fun b => b.lane == rowDrawLane || match (knownSetups y).find? (·.h == b.h) with
      | some su => (laneBlocks y o su b.lane).contains b.low
      | none => true }

/-! ### A kill (R172) -/

/-- An outpost stops the rows of a step: those in a pass at its end, the others at once; their draws and blocks go, and the halves that no row is left in are released (R172, spec/04 R97, spec/08 R187). -/
def discardStep (n24 o : Nat) (x : Outpost) : Outpost :=
  releaseWaves { x with
    rows := (x.rows.filter fun r => r.su.h.step != n24 || r.killed || passReady x r o).map fun r => if r.su.h.step == n24 then { r with killed := true } else r
    drawsPending := x.drawsPending.filter (·.step != n24)
    draws := x.draws.filter (·.step != n24)
    fifo := x.fifo.filter (·.h.step != n24) }

end Sys2Proof.Machine
end

