-- ==== Sys2Proof/Machine/Pages.lean ====
section
/-! DEFINITION. A record's bytes and its Attic copy (spec/02 R45, R46), and the Pantry's operations (spec/05): page states, budgets, page lists and their blocks, ensuring a row's pages, sharing, release. -/

namespace Sys2Proof.Machine

open Sys2Proof

/-! ### The record's bytes (spec/02 R45) -/

def KvState.code : KvState → Nat
  | .valid => 0 | .shuttered => 1 | .released => 2 | .stale => 3

/-- The `flags` of a record (spec/02 R45). -/
def recFlags (r : Record) : Nat :=
  bit r.seedGiven + 2 * bit r.planValid + 4 * bit r.notifyAdmit + 8 * bit r.notifyPark + 16 * bit r.leader
    + 32 * bit r.holdHousehold + 64 * bit r.hot + 128 * bit r.crossed

/-- The 512 bytes of a record (spec/02 R45). -/
def recordBytes (r : Record) : List Byte := layout 512
  [ lf 0x000 8 r.hostTag, lf 0x008 4 r.localId, lf 0x00C 4 (r.household + r.ordinal * 2 ^ 20),
    lf 0x010 1 (r.state.code + 16 * r.returnState.code), lf 0x011 1 r.context, lf 0x012 1 r.cls, lf 0x013 1 (r.model % 64),
    lf 0x014 2 r.recipe, lf 0x016 2 (recFlags r), lf 0x018 4 r.drawId, lf 0x01C 2 r.epoch, lf 0x01E 2 r.startEpoch,
    (0x020, slice r.seed 0 16), lf 0x030 8 r.admitTick, lf 0x038 8 r.deadlineTick, lf 0x040 4 r.promptLen,
    lf 0x044 4 r.committedLen, lf 0x048 4 r.newTokens, lf 0x04C 4 r.maxNewTokens, lf 0x050 4 r.maxWallTicks,
    lf 0x054 4 r.wallUsed, lf 0x058 4 r.trailCapacity, lf 0x05C 4 r.kvLen, lf 0x060 8 r.trailAddr, lf 0x068 8 r.promptAddr,
    lf 0x070 8 r.auxAddr, lf 0x078 8 r.stopBlockAddr, lf 0x080 2 r.planId, lf 0x082 1 r.planSlot, lf 0x083 1 r.nest,
    lf 0x084 2 r.planState, lf 0x086 2 r.siblings, lf 0x088 2 r.liveMembers, lf 0x08A 1 r.stopTokenCount,
    lf 0x08B 1 r.stopSeqCount, lf 0x08C 4 r.drawSlotCursor, lf 0x090 4 r.penaltyStart, lf 0x094 4 r.progressInterval,
    lf 0x098 4 r.nextProgress, lf 0x09C 2 r.completionSeqno, lf 0x09E 1 r.recentCount, lf 0x09F 1 r.recentHead,
    (0x0A0, slice (words 1 r.stopSeqLen) 0 8), (0x0A8, slice (words 4 (r.stopSeqDigest.map (·.toNat))) 0 32),
    (0x0D0, slice (words 4 r.stopTokens) 0 64), (0x110, slice (words 4 r.recentTokens) 0 64),
    lf 0x150 8 r.pageListAddr, lf 0x158 4 r.pageCount, lf 0x15C 4 r.sharedPages, lf 0x160 2 r.layoutTag,
    lf 0x162 1 r.kvState.code, lf 0x163 1 r.pageSizeLog2, lf 0x170 8 r.lastStep, lf 0x178 1 r.draftLen, lf 0x179 1 r.draftMode,
    (0x180, slice (words 4 r.duskHandles) 0 16), lf 0x190 8 r.peerSequence, lf 0x198 4 r.migrateSeqno,
    lf 0x1A0 8 r.waitTicks, lf 0x1A8 4 r.preemptions, lf 0x1AC 4 r.stepsCommitted, lf 0x1B0 4 r.reheatTokens ]

/-- The record's home slot in the Attic (spec/02 R35). -/
def atticAddr (x : Inst) (lid : Nat) : Nat := ((look 0 x.place.regions).map (·.base)).getD 0 + 512 * lid

/-- Write the record to its Attic slot, where the Attic copy governs (spec/02 R46). -/
def writeAttic (i : InstId) (lid : Nat) (s : State) : State :=
  let r := (seqOf s i lid).r
  if r.hot then s else hbmPut (atticAddr (getInst s i) lid) (recordBytes r) s

/-! ### Frames and page states (R101-R104) -/

/-- The page count N of the pool (R101). -/
def poolPages (x : Inst) : Nat :=
  match look 4 x.place.regions with
  | some r => r.size / 2 ^ r.frameLog2
  | none => 0

/-- log2 of FRAME_BYTES. -/
def frameLog2 (x : Inst) : Nat := ((look 4 x.place.regions).map (·.frameLog2)).getD 0

/-- A page's state; none: FREE. -/
def pageSt (p : Pantry) (id : Nat) : Option PageState := look id p.used

/-- Set a page's state, ids rising. -/
def usedPut (id : Nat) (st : PageState) : List (Nat × PageState) → List (Nat × PageState)
  | [] => [(id, st)]
  | (k, v) :: t => if id < k then (id, st) :: (k, v) :: t else if id = k then (id, st) :: t else (k, v) :: usedPut id st t

def pagePut (id : Nat) (st : PageState) (p : Pantry) : Pantry := { p with used := usedPut id st p.used }

def pageFree (id : Nat) (p : Pantry) : Pantry := { p with used := del id p.used }

/-- The lowest free page id (R103). -/
def lowestPage (n : Nat) (p : Pantry) : Option Nat := firstFree (fun k => (pageSt p k).isNone) 0 (min n (p.used.length + 1))

/-- Pages that are FREE. -/
def freePages (x : Inst) : Nat := poolPages x - x.mir.pantry.used.length

/-- A page that no list holds is free, unless an uncommitted step's page table names it (R104). -/
def letGo (id : Nat) (m : Mirrored) : Mirrored :=
  { m with pantry := if inPageTable m id then pagePut id .pinned m.pantry else pageFree id m.pantry }

/-- One reference less: at 0 the page is let go (R116). -/
def unref (id : Nat) (m : Mirrored) : Mirrored :=
  match pageSt m.pantry id with
  | some (.held n) => if n ≤ 1 then letGo id m else { m with pantry := pagePut id (.held (n - 1)) m.pantry }
  | some .ahead => letGo id m
  | _ => m

/-- A step is COMMITTED or KILLED: the pages that only its page table kept are free (R104). -/
def unpin (m : Mirrored) : Mirrored := { m with pantry := { m.pantry with used := m.pantry.used.filter fun u => u.2 != .pinned || inPageTable m u.1 } }

/-- One reference more. -/
def pageInc (id : Nat) (p : Pantry) : Pantry :=
  match pageSt p id with
  | some (.held n) => pagePut id (.held (n + 1)) p
  | some .ahead => pagePut id (.held 1) p
  | _ => p

def pageCountOf (p : Pantry) (id : Nat) : Nat :=
  match pageSt p id with
  | some (.held n) => n
  | some .ahead => 1
  | _ => 0

/-! ### Budgets (R56, R60) -/

/-- Every page a sequence holds, ahead pages included. -/
def seqPages (q : Seq) : List Nat := q.pages.map (·.page) ++ q.draftPages ++ q.ahead.map (·.page)

/-- Allocated pages of class-0 sequences. -/
def c0Allocated (m : Mirrored) : Nat := ((m.seqs.filter (·.r.cls == 0)).flatMap seqPages).eraseDups.length

/-- Class-0 pages charged (R67): the unallocated charges and the allocated pages. -/
def c0Charged (m : Mirrored) : Nat :=
  sumNat ((m.households.filter (·.cls == 0)).map (·.unalloc)) + c0Allocated m

/-- The pages withheld (R60). -/
def withheld (m : Mirrored) : Nat :=
  (m.foyer.c0Pages - c0Allocated m) + sumNat ((m.households.filter (·.cls != 0)).map (·.unalloc))

/-- Free pages less the pages withheld. -/
def availPages (x : Inst) : Nat := freePages x - withheld x.mir

/-- The pages available to a class 1-3 request (R60). -/
def availRequest (x : Inst) : Nat := availPages x - x.mir.foyer.pageHeadroom

/-- Pages that R108 lets a sequence draw: its household's unused charge, then the second source. -/
def drawable (x : Inst) (q : Seq) : Nat :=
  let charge := ((findHouse x.mir q.r.household).map (·.unalloc)).getD 0
  min (freePages x) (charge + availPages x)

/-! ### List blocks (R105) -/

/-- Blocks of the page-list area. -/
def areaBlocks (x : Inst) : Nat := ((look 1 x.place.regions).map (·.aux / 256)).getD 0

def listBase (x : Inst) : Nat := ((look 1 x.place.regions).map (·.base)).getD 0

/-- Blocks a sequence's two chains need. -/
def blocksFor (target draft : Nat) : Nat := max 1 (ceilDiv target 60) + ceilDiv draft 60

def usedBlocks (m : Mirrored) : List Nat := m.seqs.flatMap (·.blocks)

/-- A block list of `n` blocks: the old ones, the lowest free ones added, the last ones dropped. -/
def growBlocks (area : Nat) (used : List Nat) : Nat → List Nat → List Nat
  | 0, bs => bs
  | n + 1, bs =>
    match firstFree (fun k => !(used.contains k) && !(bs.contains k)) 0 area with
    | some b => growBlocks area used n (bs ++ [b])
    | none => bs

/-- One list block (R105): its entries, the next block, the draft chain's head and length (first block only). -/
def blockBytes (es : List Nat) (next dh dp : Nat) (first : Bool) : List Byte :=
  leBytes 4 es.length ++ leBytes 4 next ++ (if first then leBytes 4 dh ++ leBytes 4 dp else leBytes 8 0) ++ slice (words 4 es) 0 240

/-- Write a chain of blocks. -/
def writeChain (base : Nat) (dh dp : Nat) : Bool → List Nat → List Nat → State → State
  | _, [], _, s => s
  | first, b :: bs, es, s =>
    writeChain base dh dp false bs (es.drop 60) (hbmPut (base + 256 * b) (blockBytes (es.take 60) (bs.headD 0xFFFFFFFF) dh dp first) s)

/-- Hold `n` blocks for the chains of a sequence, which are not written yet (R105). -/
def holdBlocks (i : InstId) (lid n : Nat) (s : State) : State :=
  let x := getInst s i
  let others := (x.mir.seqs.filter (·.r.localId != lid)).flatMap (·.blocks)
  modSeq i lid (fun q => { q with blocks := growBlocks (areaBlocks x) others (n - q.blocks.length) q.blocks }) s

/-- Give a sequence the blocks its chains need, and write them (R105, R106); a cold record's Attic copy follows its page fields (spec/02 R45, R46). -/
def writeList (i : InstId) (lid : Nat) (s : State) : State :=
  let x := getInst s i
  let q := seqOf s i lid
  let need := blocksFor q.pages.length q.draftPages.length
  let othersB := (x.mir.seqs.filter (·.r.localId != lid)).flatMap (·.blocks)
  let bs := growBlocks (areaBlocks x) othersB (need - q.blocks.length) (q.blocks.take need)
  let nT := max 1 (ceilDiv q.pages.length 60)
  let tb := bs.take nT
  let db := bs.drop nT
  let entry (e : PageEnt) : Nat := e.page + 2 ^ 24 * bit e.shared
  let s := modSeq i lid (fun q => { q with blocks := bs, r := { q.r with
      pageListAddr := listBase x + 256 * bs.headD 0
      pageCount := q.pages.length + q.draftPages.length
      sharedPages := (q.pages.filter (·.shared)).length } }) s
  let s := writeChain (listBase x) (db.headD 0xFFFFFFFF) q.draftPages.length true tb (q.pages.map entry) s
  writeAttic i lid (writeChain (listBase x) 0 0 false db q.draftPages s)

/-! ### References (R116, R117) -/

/-- Where a page's count has come to 1, its one list entry loses SHARED (R116). -/
def clearLone (i : InstId) (page : Nat) (s : State) : State :=
  if pageCountOf (mir s i).pantry page == 1 then
    match (mir s i).seqs.find? (fun q => q.pages.any fun e => e.page == page && e.shared) with
    | some q => writeList i q.r.localId (modSeq i q.r.localId (fun q => { q with pages := q.pages.map fun e =>
        if e.page == page then { e with shared := false } else e }) s)
    | none => s
  else s

/-- A freed page is no household's prefix page any more. -/
def forgetPrefix (page : Nat) (m : Mirrored) : Mirrored :=
  if pageCountOf m.pantry page == 0 then
    { m with households := m.households.map fun h => { h with prefixIds := h.prefixIds.map fun p => if p == page then 0xFFFFFFFF else p } }
  else m

/-- Drop a reference to a page (R116). -/
def dropPage (i : InstId) (page : Nat) (s : State) : State :=
  clearLone i page (modMir i (fun m => forgetPrefix page (unref page m)) s)

/-- Free ahead pages that `p` holds of (R109). -/
def freeAhead (i : InstId) (lid : Nat) (p : AheadPage → Bool) (s : State) : State :=
  let gone := (seqOf s i lid).ahead.filter p
  let s := modSeq i lid (fun q => { q with ahead := q.ahead.filter fun a => !p a }) s
  gone.foldl (fun s a => modMir i (letGo a.page) s) s

/-- Release every page and ahead page of a sequence. -/
def releasePages (i : InstId) (lid : Nat) (s : State) : State :=
  let q := seqOf s i lid
  let s := freeAhead i lid (fun _ => true) s
  let s := modSeq i lid (fun q => { q with pages := [], draftPages := [], draftValid := 0, draftEpoch := none }) s
  let s := (q.pages.map (·.page) ++ q.draftPages).foldl (fun s p => dropPage i p s) s
  writeList i lid s

/-- Positions per page of a sequence. -/
def pageP (r : Record) : Nat := 2 ^ r.pageSizeLog2

/-- The household's prefix page `k`, where a member holds it with valid KV under tag `tag` (R117); a private copy of the last prefix page is not one (DESIGN CHOICE, log 95). -/
def prefixEntry (ids : List Nat) (tag : Nat) (q : Seq) (k : Nat) : Option Nat :=
  if q.r.state.live && q.r.layoutTag == tag && (q.r.kvState == .valid || q.r.kvState == .shuttered) then
    match q.pages[k]?, ids[k]? with
    | some e, some p => if e.page == p then some p else none
    | _, _ => none
  else none

/-- The pages of the valid shared prefix, from page `k` on (R117). -/
def prefixRunFrom (ids : List Nat) (ms : List Seq) (tag : Nat) : Nat → Nat → List Nat
  | _, 0 => []
  | k, n + 1 =>
    match ms.findSome? (fun q => prefixEntry ids tag q k) with
    | some p => p :: prefixRunFrom ids ms tag (k + 1) n
    | none => []

/-- Prefix pages of a prompt: ceil((L - 1) / P) (R114). -/
def prefixPagesOf (r : Record) : Nat := ceilDiv (r.promptLen - 1) (pageP r)

/-- Members whose prefix pages another may take; under `cross_kv` REHEAT not those of another epoch, whose KV the new weights do not reuse (R117, spec/11 R240, R249). -/
def prefixLenders (m : Mirrored) (r : Record) : List Seq :=
  (members m r.household).filter fun q => q.r.localId != r.localId && (q.r.epoch == r.epoch || !(getCtx m r.context).cfg.crossReheat)

/-- The valid shared prefix as the other members hold it: its pages (R117). -/
def sharedPrefix (m : Mirrored) (r : Record) : List Nat :=
  prefixRunFrom (((findHouse m r.household).map (·.prefixIds)).getD []) (prefixLenders m r) r.layoutTag 0 (prefixPagesOf r)

/-- The valid shared prefix in positions, capped at L - 1 (R117). -/
def prefixPositions (r : Record) (run : List Nat) : Nat := min (run.length * pageP r) (r.promptLen - 1)

/-- Set SHARED on every list entry that holds a page (R116, R117). -/
def markShared (i : InstId) (page : Nat) (s : State) : State :=
  ((mir s i).seqs.filter fun q => q.pages.any (·.page == page)).foldl (fun s q =>
    writeList i q.r.localId (modSeq i q.r.localId (fun q => { q with pages := q.pages.map fun e =>
      if e.page == page then { e with shared := true } else e }) s)) s

/-- The members whose page lists take the prefix pages of a household prefill's chunk (R114): the live members with valid KV as far as the row's own. -/
def prefixSharers (m : Mirrored) (q : Seq) : List Nat :=
  ((members m q.r.household).filter fun x => x.r.state.live && (x.r.kvState == .valid || x.r.state == .admitted) && x.r.kvLen == q.r.kvLen
    && x.pages.length == q.pages.length && (x.r.state == .admitted || x.r.state == .prefilling || x.r.state == .parked)).map (·.r.localId)

/-- The sequence prefills its household's prompt (R37). -/
def inPrefix (q : Seq) : Bool :=
  (q.r.state == .admitted || q.r.state == .prefilling) && decide (q.r.kvLen < q.r.promptLen - 1) && decide (1 < q.r.siblings)

/-- The chain's length with the ahead pages that will enter it. -/
def chainReach (q : Seq) (draft : Bool) (n : Nat) : Nat := (q.ahead.filter (·.draft == draft)).foldl (fun n a => max n (a.k + 1)) n

/-- List blocks that a sequence's ahead pages will take at their commit, for each member that shares them (R105, R107, R114). -/
def aheadBlocks (m : Mirrored) (q : Seq) : Nat :=
  (blocksFor (chainReach q false q.pages.length) (chainReach q true q.draftPages.length) - q.blocks.length)
    * (if inPrefix q then max 1 (prefixSharers m q).length else 1)

/-- List blocks neither used nor spoken for by rows of other sequences than `lid` (R105, R107). -/
def freeBlocks (x : Inst) (lid : Option Nat) : Nat :=
  areaBlocks x - (usedBlocks x.mir).length - sumNat ((x.mir.seqs.filter fun q => some q.r.localId != lid && !q.ahead.isEmpty).map (aheadBlocks x.mir))

/-- Take a reference to each page of the household's valid shared prefix, as far as list blocks are free for them (DEDUCED, log 31); `kv_len` becomes the prefix length (R117, R39, R105). -/
def takePrefix (i : InstId) (lid : Nat) (s : State) : State :=
  let q := seqOf s i lid
  let run := (sharedPrefix (mir s i) q.r).take (60 * (q.blocks.length + freeBlocks (getInst s i) (some lid)))
  let s := modSeq i lid (fun q => { q with
    pages := run.map fun p => { page := p, shared := true }
    r := { q.r with kvLen := prefixPositions q.r run } }) s
  let s := run.foldl (fun s p => markShared i p (modPantry i (pageInc p) s)) s
  writeList i lid s

/-! ### Ensuring a row's pages (R107, R108, R111, R112) -/

/-- A row to ensure: its sequence, its span, its chain's page size, whether the draft chain. -/
structure EnsureReq where
  lid : Nat
  a : Nat
  b : Nat
  pageSize : Nat
  draft : Bool := false
  deriving DecidableEq, Repr

/-- The chain's entry of page `k`. -/
def chainEntry (q : Seq) (draft : Bool) (k : Nat) : Option PageEnt :=
  if draft then q.draftPages[k]?.map fun p => { page := p } else q.pages[k]?

def aheadOf (q : Seq) (draft : Bool) (k : Nat) : Option Nat := (q.ahead.find? fun a => a.k == k && a.draft == draft).map (·.page)

/-- The page indices a row writes for which it needs a page it does not hold (R107). -/
def pageNeeds (q : Seq) (e : EnsureReq) : List Nat :=
  let lo := e.a / e.pageSize
  let hi := ceilDiv e.b e.pageSize
  ((List.range (hi - lo)).map (· + lo)).filter fun k =>
    (aheadOf q e.draft k).isNone &&
      match chainEntry q e.draft k with
      | some x => x.shared
      | none => true

/-- A row of the household's prefix that the members share (R114): list growth counts for each. -/
def listSharers (m : Mirrored) (q : Seq) (e : EnsureReq) : Nat :=
  if !e.draft && inPrefix q then max 1 (prefixSharers m q).length else 1

/-- New list blocks the row's pages may need at its commit. -/
def blockNeeds (m : Mirrored) (q : Seq) (e : EnsureReq) : Nat :=
  let n := ceilDiv e.b e.pageSize
  let t := if e.draft then q.pages.length else max q.pages.length n
  let d := if e.draft then max q.draftPages.length n else q.draftPages.length
  (blocksFor t d - q.blocks.length) * listSharers m q e

/-- Take the lowest free pages for the given indices as ahead pages of a sequence, out of its household's charge first (R103, R106, R108). -/
def takeAhead (i : InstId) (lid : Nat) (draft : Bool) (ks : List Nat) (s : State) : State :=
  ks.foldl (fun s k =>
    let x := getInst s i
    match lowestPage (poolPages x) x.mir.pantry with
    | some p =>
      modHouse i (seqOf s i lid).r.household (fun h => { h with unalloc := h.unalloc - 1 }) <|
        modSeq i lid (fun q => { q with ahead := q.ahead ++ [{ k := k, page := p, draft := draft }] }) <|
          modPantry i (pagePut p .ahead) s
    | none => s) s

/-- The row's page-table entries (R112). -/
def ptEntries (q : Seq) (e : EnsureReq) : List PtEntry :=
  (List.range (ceilDiv e.b e.pageSize)).filterMap fun k =>
    let w := decide (e.a / e.pageSize ≤ k)
    match aheadOf q e.draft k, chainEntry q e.draft k with
    | some p, some _ => some { page := p, write := w, copyDst := w }
    | some p, none => some { page := p, write := w }
    | none, some x => some { page := x.page, write := w, shared := x.shared && !w }
    | none, none => none

/-- The row's copy directives: a rerun carries the directive of a killed step into the same ahead page, though a sibling's commit may have cleared SHARED since (R111, R113, R115, R128). -/
def copyDirs (q : Seq) (e : EnsureReq) (row : Nat) : List CopyDir :=
  (List.range (ceilDiv e.b e.pageSize)).filterMap fun k =>
    if k < e.a / e.pageSize then none
    else match aheadOf q e.draft k, chainEntry q e.draft k with
      | some p, some x => some { src := x.page, dst := p, positions := e.a - k * e.pageSize, row := row }
      | _, _ => none

/-- The pages that a list of candidate rows of one sequence lacks (R107). -/
def ensureLack (x : Inst) (q : Seq) (es : List EnsureReq) : Nat :=
  sumNat (es.map fun e => (pageNeeds q e).length) - drawable x q

/-- The list blocks that they lack, which count as pages lacked (R105, R125; DEDUCED, log 31). -/
def ensureBlocksLack (x : Inst) (q : Seq) (es : List EnsureReq) : Nat :=
  sumNat (es.map (blockNeeds x.mir q)) - freeBlocks x (some q.r.localId)

/-- Fresh prefix pages among a row's needs (R56: the prefix part of the charge). -/
def freshPrefix (q : Seq) (e : EnsureReq) : Nat :=
  if e.draft then 0 else ((pageNeeds q e).filter fun k => (chainEntry q false k).isNone && decide (k < prefixPagesOf q.r)).length

/-- Take the pages of a list of rows of one sequence. -/
def ensureTake (i : InstId) (es : List EnsureReq) (s : State) : State :=
  es.foldl (fun s e =>
    let q := seqOf s i e.lid
    let n := freshPrefix q e
    takeAhead i e.lid e.draft (pageNeeds q e)
      (modHouse i q.r.household (fun h => { h with prefixAlloc := min h.prefixPages (h.prefixAlloc + n) }) s)) s

/-! ### A row's commit (R106, R109, R114-R116) -/

/-- One ahead page enters the target chain at its index: replacing a SHARED entry, or appended (R106, R115). -/
def commitAhead (i : InstId) (lid : Nat) (a : AheadPage) (s : State) : State :=
  let q := seqOf s i lid
  let s := modPantry i (pagePut a.page (.held 1)) s
  let s := modSeq i lid (fun q => { q with ahead := q.ahead.filter (· != a) }) s
  if a.draft then modSeq i lid (fun q => { q with draftPages := q.draftPages.take a.k ++ [a.page] ++ q.draftPages.drop (a.k + 1) }) s
  else match q.pages[a.k]? with
    | some old => dropPage i old.page (modSeq i lid (fun q => { q with pages := modAt q.pages a.k fun _ => { page := a.page } }) s)
    | none => modSeq i lid (fun q => { q with pages := q.pages ++ [{ page := a.page }] }) s

/-- A completed prefix page leaves the holder's ahead pages for the lists of the sharers (R114). -/
def sharePrefix (i : InstId) (holder : Nat) (sharers : List Nat) (a : AheadPage) (s : State) : State :=
  let n := sharers.length
  let s := modPantry i (pagePut a.page (.held n)) s
  let s := modSeq i holder (fun q => { q with ahead := q.ahead.filter (· != a) }) s
  let s := modHouse i (seqOf s i holder).r.household (fun h => { h with prefixIds := h.prefixIds.take a.k ++ [a.page] }) s
  sharers.foldl (fun s l => modSeq i l (fun q => { q with pages := q.pages ++ [{ page := a.page, shared := decide (1 < n) }] }) s) s

/-- Ahead pages of a chain in order of index. -/
def aheadSorted (q : Seq) (p : AheadPage → Bool) : List AheadPage := sortBy (fun a b => decide (a.k < b.k)) (q.ahead.filter p)

/-- The prefix pages that the commit of a chunk ending at `b` shares (R114): completed ones; at the prefix's end, all. -/
def prefixReady (r : Record) (b : Nat) (a : AheadPage) : Bool :=
  !a.draft && decide ((a.k + 1) * pageP r ≤ b || r.promptLen - 1 ≤ b)

/-- Pages at the commit of a chunk of the household's prefill that ends at `b` (R114). -/
def commitPrefix (i : InstId) (lid b : Nat) (sharers : List Nat) (s : State) : State :=
  let q := seqOf s i lid
  let s := (aheadSorted q (prefixReady q.r b)).foldl (fun s a => sharePrefix i lid sharers a s) s
  sharers.foldl (fun s l => writeList i l s) s

/-- The pages of a rebuilt prefix that are complete with `kv` positions become the household's prefix pages (R114, R117, R124). -/
def notePrefix (i : InstId) (lid kv : Nat) (s : State) : State :=
  let q := seqOf s i lid
  let n := if q.r.promptLen - 1 ≤ kv then prefixPagesOf q.r else kv / pageP q.r
  modHouse i q.r.household (fun h => { h with prefixIds := (q.pages.take n).map (·.page) ++ h.prefixIds.drop n }) s

/-- Pages at the commit of a chunk of a prefix that one member rebuilds for others: complete ones enter its list, a partial one stays ahead (R114, R124). -/
def commitRebuild (i : InstId) (lid : Nat) (s : State) : State :=
  let q := seqOf s i lid
  writeList i lid ((aheadSorted q (prefixReady q.r q.r.kvLen)).foldl (fun s a => commitAhead i lid a s) s)

/-- Target pages at a row's commit, for the new `kv_len` and T of the record: the ahead pages below `kv_len` enter the list, those that pending input needs stay ahead, the rest are free (R106, R109, R115). -/
def commitTarget (i : InstId) (lid : Nat) (s : State) : State :=
  let q := seqOf s i lid
  let s := (aheadSorted q fun a => !a.draft && decide (a.k * pageP q.r < q.r.kvLen)).foldl (fun s a => commitAhead i lid a s) s
  writeList i lid (freeAhead i lid (fun a => !a.draft && decide (ceilDiv (seqT q.r) (pageP q.r) ≤ a.k)) s)

/-- Draft pages at the commit of a row of the draft model that ends at position `b`: its ahead pages enter the draft chain (R106). -/
def commitDraft (i : InstId) (lid b draftP : Nat) (s : State) : State :=
  let q := seqOf s i lid
  writeList i lid ((aheadSorted q fun a => a.draft && decide (a.k * draftP < b)).foldl (fun s a => commitAhead i lid a s) s)

/-- Every draft page wholly at or beyond the draft-valid length is free (R105, spec/09 R211). -/
def trimDraft (i : InstId) (lid draftP : Nat) (s : State) : State :=
  let q := seqOf s i lid
  let s := freeAhead i lid (·.draft) (commitDraft i lid q.draftValid draftP s)
  let keep := ceilDiv q.draftValid draftP
  let gone := (seqOf s i lid).draftPages.drop keep
  let s := modSeq i lid (fun q => { q with draftPages := q.draftPages.take keep }) s
  writeList i lid (gone.foldl (fun s p => modMir i (unref p) s) s)

/-! ### Resuming evicted sequences (R127) -/

/-- Pages an eviction-parked sequence needs to resume. -/
def resumePages (m : Mirrored) (q : Seq) : Nat := ceilDiv (seqT q.r - 1) (pageP q.r) - (sharedPrefix m q.r).length

/-- Eviction-parked sequences in the order of R127; of equal class and admission tick by admission number, then as the records stand (DESIGN CHOICE, log 94). -/
def evictedOrder (m : Mirrored) : List Seq :=
  sortBy (fun a b => decide (a.r.cls < b.r.cls || a.r.cls = b.r.cls && (a.r.admitTick < b.r.admitTick || a.r.admitTick = b.r.admitTick && a.admitNo < b.admitNo)))
    (m.seqs.filter fun q => q.evicted && q.r.state == .parked)

/-- One pass: post a resume for each evicted sequence that fits, pages and list blocks, until one does not (R105, R127). -/
def evictPass (i : InstId) : List Seq → Nat → Nat → State → State
  | [], _, _, s => s
  | q :: qs, used, lists, s =>
    let x := getInst s i
    let need := resumePages x.mir q
    let blocks := blocksFor (ceilDiv (seqT q.r - 1) (pageP q.r)) 0 - q.blocks.length
    let avail := (if q.r.cls == 0 then availPages x + (x.mir.foyer.c0Pages - c0Charged x.mir) else availPages x) - x.mir.foyer.pageHeadroom - used
    if need ≤ avail ∧ lists + blocks ≤ freeBlocks x none then evictPass i qs (used + need) (lists + blocks) (postSeq i q.r.localId .evictResume s) else s

/-- Run at each commit and each release: outside a training turn, the Pantry resumes evicted sequences (R127). DESIGN CHOICE (log 102): the release that an eviction is does not resume the sequence that it evicts, of `own`. -/
def evictResumes (i : InstId) (own : List Nat) (s : State) : State :=
  let x := getInst s i
  if x.mir.kitchen.turn != .service then s
  else evictPass i ((evictedOrder x.mir).filter fun q => !own.contains q.r.localId && !flowHas x.hall (.seq q.r.localId) (· == .evictResume)) 0 0 s

end Sys2Proof.Machine
end

