-- ==== Sys2Proof/Machine/Directory.lean ====
section
/-! DEFINITION. The model directory's and the Library's shared operations: weight slots, demands, victims, epoch tags and retirement (spec/03 R68-R71, spec/11 R242, spec/10 R216, R217). -/

namespace Sys2Proof.Machine

open Sys2Proof

/-! ### Epochs of a model -/

/-- The descriptor of an epoch that the model holds: committed or co-resident. -/
def epochOf (md : Model) (e : Nat) : Option EpochDesc :=
  match md.committed with
  | some d => if d.epoch = e then some d else md.old.bind fun o => if o.epoch = e then some o else none
  | none => md.old.bind fun o => if o.epoch = e then some o else none

/-- The KV layout tag of a sequence's epoch. -/
def tagOf (m : Mirrored) (r : Record) : Nat := ((epochOf (getModel m r.model) r.epoch).map (·.layoutTag)).getD 0

/-- Live sequences of a model, those whose ADMIT is still to be applied among them (R68, R54). -/
def liveOfModel (m : Mirrored) (k : Nat) : Nat := (m.seqs.filter fun q => q.r.model == k && (q.r.state.live || q.r.state == .free)).length

/-! ### Weight slots (R69-R71) -/

/-- Weight slots a model occupies: one for each resident epoch, one for a staged epoch that claimed its slot. -/
def slotsOf (md : Model) : Nat :=
  (if md.state == .loadPending || md.state == .resident || md.state == .evicting then 1 + bit md.old.isSome else 0)
    + bit (md.stage == .ready || md.stage == .armed)

def slotsUsed (m : Mirrored) : Nat := sumNat (m.dir.models.map slotsOf)

/-- Slots free of the 8. -/
def slotsFree (m : Mirrored) : Nat := 8 - slotsUsed m

/-- A resident model that may be chosen as victim (R71). -/
def evictable (m : Mirrored) (k : Nat) : Bool :=
  let md := getModel m k
  md.state == .resident && !md.pinned && md.stage == .none &&
    !(m.seqs.any fun q => q.r.model == k && (q.r.state.composed || (q.passed && q.r.state == .admitted))) &&
    !(m.kitchen.steps.any fun st => uncommitted st && (st.model == k || (st.draftModel.map (·.1)) == some k))

/-- Claimants for a weight slot (R71). -/
def claimants (m : Mirrored) : Nat :=
  ((List.range 64).filter fun k =>
    let md := getModel m k
    (m.dir.demand.any (·.1 == k) && md.state == .described && md.stage != .armed) || (md.noSlotClaim && md.stage == .staged)).length

def evictingCount (m : Mirrored) : Nat := (m.dir.models.filter (·.state == .evicting)).length

/-- The victim: the evictable model with the smallest `last_step`, the lower id between equals (R71). -/
def victim (m : Mirrored) : Option Nat :=
  ((List.range 64).filter (evictable m)).foldl (fun best k =>
    match best with
    | none => some k
    | some b => if (getModel m k).lastStep < (getModel m b).lastStep then some k else some b) none

/-- Set a model's load or evict request bit, its request tick, and signal the directory where the bit rises (R70, spec/19 R423). -/
def requestBit (i : InstId) (k : Nat) (load : Bool) (s : State) : State :=
  let d := (mir s i).dir
  let t := modModel i k (fun md => { md with requestTick := s.tick }) <|
    modDir i (fun d => if load then { d with loadRequest := d.loadRequest ||| (1#64 <<< k) }
                       else { d with evictRequest := d.evictRequest ||| (1#64 <<< k) }) s
  if (if load then d.loadRequest else d.evictRequest).getLsbD k then t else raiseIrq i irqDir t

/-- Choose victims while fewer models are EVICTING than claimants wait (R71). -/
def chooseVictims (i : InstId) : Nat → State → State
  | 0, s => s
  | n + 1, s =>
    let m := mir s i
    if evictingCount m < claimants m then
      match victim m with
      | some k => chooseVictims i n (requestBit i k false (modModel i k (fun md => { md with state := .evicting }) s))
      | none => s
    else s

/-- Victims wherever one is due: at a demand, a NO_SLOT, a model that becomes evictable (R71). -/
def dirCheck (i : InstId) (s : State) : State := chooseVictims i 8 s

/-- A resident model has become evictable between two states (R71). -/
def newlyEvictable (m m' : Mirrored) : Bool := (List.range 64).any fun k => evictable m' k && !evictable m k

/-- Victims where a model has become evictable since `s`; a slot that merely comes free chooses none (R71). -/
def dirEdge (i : InstId) (s t : State) : State := if newlyEvictable (mir s i) (mir t i) then dirCheck i t else t

/-- Slots a model's load needs: its committed epoch and a co-resident old one (R70). -/
def loadNeeds (md : Model) : Nat := 1 + bit md.old.isSome

/-- Enter a demand in a FIFO: class 0 before classes 1 to 3, a queued one only moved up (R70, spec/10 R216). -/
def demandPut (k : Nat) (c0 : Bool) (l : List (Nat × Bool)) : List (Nat × Bool) :=
  if l.any (fun x => x.1 == k && (x.2 || !c0)) then l
  else
    let l := l.filter (·.1 != k)
    if c0 then l.filter (·.2) ++ [(k, true)] ++ l.filter (fun x => !x.2) else l ++ [(k, false)]

/-- Freed slots go to the first demanded models; the first waits for all the slots it needs, and the later ones for it (R70, R71; DESIGN CHOICE, log 115). -/
def grantSlots (i : InstId) : Nat → State → State
  | 0, s => s
  | n + 1, s =>
    match (mir s i).dir.demand with
    | (k, _) :: rest =>
      let md := getModel (mir s i) k
      if md.state != .described || md.stage == .armed then grantSlots i n (modDir i (fun d => { d with demand := rest }) s)
      else if loadNeeds md ≤ slotsFree (mir s i) then
        grantSlots i n (requestBit i k true (modModel i k (fun md => { md with state := .loadPending })
          (modDir i (fun d => { d with demand := rest }) s)))
      else s
    | [] => s

/-- A request or RESUME needs a model that is DESCRIBED (R69); a demand of class 0 that comes first takes a free slot (R70). -/
def demandModel (i : InstId) (k : Nat) (c0 : Bool) (s : State) : State :=
  let md := getModel (mir s i) k
  if md.state != .described || md.stage == .armed then s
  else if loadNeeds md ≤ slotsFree (mir s i) && (mir s i).dir.demand.isEmpty then
    dirCheck i (requestBit i k true (modModel i k (fun md => { md with state := .loadPending }) s))
  else
    ringPush i 2 0x022 3 0 [k] (dirCheck i (grantSlots i 64 (modDir i (fun d => { d with demand := demandPut k c0 d.demand }) s)))

/-- An epoch is retired: its model's bit rises, and `irq_dir` with it; a bit that is set already causes no second message (spec/03 R68, spec/19 R423). -/
def epochGone (i : InstId) (k : Nat) (s : State) : State :=
  if (mir s i).dir.epochRetired.getLsbD k then s else raiseIrq i irqDir (modDir i (fun d => { d with epochRetired := d.epochRetired ||| (1#64 <<< k) }) s)

/-- The end of co-residence: no live sequence runs under the old epoch (R242). -/
def retireCheck (i : InstId) (k : Nat) (s : State) : State :=
  let m := mir s i
  match (getModel m k).old with
  | none => s
  | some o =>
    if m.seqs.any (fun q => q.r.model == k && q.r.epoch == o.epoch && (q.r.state.live || q.r.state == .free)) then s
    else
      grantSlots i 64 (epochGone i k (modModel i k (fun md => { md with old := none }) s))

/-! ### Library (spec/10 R216, R217) -/

def findPlan (m : Mirrored) (id : Nat) : Option LibSlot := m.lib.slots.find? (·.planId == id)

/-- The plan of a resident id. -/
def residentPlan (m : Mirrored) (id : Nat) : Option Plan := (findPlan m id).bind (·.plan)

def registered (m : Mirrored) (id : Nat) : Bool := m.lib.registry.any (·.id == id)

/-- A resident plan that may be chosen as victim (R217). -/
def planEvictable (m : Mirrored) (h : Hallway) (sl : LibSlot) : Bool :=
  sl.plan.isSome && !(m.seqs.any fun q => q.r.planValid && q.r.planId == sl.planId &&
    (q.r.hot || (stepOfSeq m q.r.localId).isSome || flowHas h (.seq q.r.localId) (fun k => match k with | .warm _ => true | _ => false) ||
      q.waiting.any fun w => match w with | .extend .. => true | _ => false))

def planVictim (m : Mirrored) (h : Hallway) : Option LibSlot :=
  let used (x : LibSlot) : Nat := ((look x.planId m.lib.used).map (· + 1)).getD 0
  (m.lib.slots.filter (planEvictable m h)).foldl (fun best x =>
    match best with
    | none => some x
    | some b => if used x < used b || (used x == used b && x.planId < b.planId) then some x else some b) none

/-- Give Library slots to the demanded plans in order, evicting victims (R216, R217). -/
def libAssign (i : InstId) : Nat → State → State
  | 0, s => s
  | n + 1, s =>
    let m := mir s i
    match m.lib.demand with
    | [] => s
    | (id, _) :: rest =>
      let take (slots : List LibSlot) (s : State) : State :=
        match firstFree (fun k => !(slots.any (·.slot == k))) 0 256 with
        | some k => libAssign i n (modLib i (fun l => { l with demand := rest, slots := slots ++ [{ slot := k, planId := id }] }) s)
        | none => s
      if m.lib.slots.length < 256 then take m.lib.slots s
      else match planVictim m (getInst s i).hall with
        | some v => take (m.lib.slots.filter (· != v)) (ringPush i 4 0x024 4 0 [v.planId, v.slot] s)
        | none => s

/-- Demand a plan (R216): registered, and neither resident nor being fetched. -/
def demandPlan (i : InstId) (id : Nat) (c0 : Bool) (s : State) : State :=
  if registered (mir s i) id && (findPlan (mir s i) id).isNone then
    libAssign i 256 (ringPush i 4 0x024 1 0 [id] (modLib i (fun l => { l with demand := demandPut id c0 l.demand }) s))
  else s

end Sys2Proof.Machine
end

