-- ==== Sys2Proof/Machine/Trace.lean ====
section
/-! DEFINITION. The synchronisation trace (spec/18 R391-R396): records, the FIFO, the trace buffer and its indices, the Study causes. -/

namespace Sys2Proof.Machine

open Sys2Proof

/-! ### Causes (R409) -/

/-- Cause bits: HALF, GAP, DUMP, CYCLE. -/
def causeHalf : Nat := 0
def causeGap : Nat := 1
def causeDump : Nat := 2
def causeCycle : Nat := 3

/-- Set a cause bit; `irq_study` rises when an enabled bit rises (R409). -/
def setCause (i : InstId) (k : Nat) (s : State) : State :=
  let x := getInst s i
  if x.study.cause.getLsbD k then s
  else
    let s := modStudy i (fun y => { y with cause := y.cause ||| (1#4 <<< k) }) s
    if tbit x.mir.causeEnable k then raiseIrq i irqStudy s else s

/-! ### Records (R391, R392) -/

/-- The 16 bytes of a trace record (R391). -/
def traceBytes (r : TraceRec) : List Byte :=
  leBytes 6 r.time ++ leBytes 1 (r.kind + 16 * r.reason) ++ leBytes 3 (r.waiter + 2 ^ 12 * r.holder) ++ leBytes 3 r.duration ++ leBytes 3 r.object

/-- The mask bit that selects a waiter's records (R396); none for a code that waits on nothing. -/
def waiterClass (u : Nat) : Option Nat :=
  if u < 0x20 then some 3
  else if u = 0x20 then some 0
  else if u = 0x21 then some 1
  else if u < 0x25 then some 4
  else if u = 0x25 then some 5
  else if u = 0x26 then some 7
  else if u = 0x27 then some 3
  else if u < 0x2C then some 6
  else if u < 0x30 then none
  else if u < 0x40 then some 2
  else if u < 0x80 then some 5
  else if u < 0x90 then some 8
  else if u < 0x200 then none
  else if u < 0x300 then some 2
  else none

/-- A number split over `duration` and `object` (R392). -/
def wideRec (time kind n : Nat) : TraceRec :=
  { time := time, kind := kind, reason := 0, waiter := 0, holder := 0, duration := n % 2 ^ 24, object := n / 2 ^ 24 % 2 ^ 24 }

/-- A SYNC record: the tick at a Study cycle (R392). -/
def syncRec (s : State) (i : InstId) : TraceRec := wideRec (studyTime s i) 3 s.tick

/-- A GAP record: the records lost before it (R392). -/
def gapRec (s : State) (i : InstId) (n : Nat) : TraceRec := wideRec (studyTime s i) 2 n

/-- A MARK record: a command boundary, side 0 at acceptance and 1 at the result (R392). -/
def markRec (s : State) (i : InstId) (side w code : Nat) : TraceRec :=
  { time := studyTime s i, kind := 4, reason := side, waiter := 0x040 + w, holder := 0, duration := (getWin (mir s i) w).accepted % 2 ^ 24, object := code }

/-! ### The buffer (R394, R395) -/

/-- C: records that the trace buffer holds; 0 where none is placed (R394, R409). -/
def traceCap (x : Inst) : Nat := ((look 5 x.place.regions).map (·.size / 16)).getD 0

/-- Records of the buffer that the host has not passed. -/
def traceHeld (y : Study) : Nat := (y.traceWp + 2 ^ 32 - y.traceRp) % 2 ^ 32

/-- Write one record at `trace_wp`, where the buffer has room; true where it was written (R394, R395). -/
def traceStore (i : InstId) (r : TraceRec) (s : State) : State × Bool :=
  let x := getInst s i
  match look 5 x.place.regions with
  | none => (s, false)
  | some g =>
    let held := traceHeld x.study
    if traceCap x ≤ held then (s, false)
    else
      let s := hbmPut (g.base + 16 * (x.study.traceWp % traceCap x)) (traceBytes r) s
      let s := modStudy i (fun y => { y with traceWp := wrapTo 32 (y.traceWp + 1) }) s
      (if held + 1 = traceCap x / 2 then setCause i causeHalf s else s, true)

/-- A GAP record and a SYNC record go ahead of the next record after a loss; one that cannot be written is not counted as lost (R395). -/
def traceGap (i : InstId) (s : State) : State :=
  let n := (getInst s i).study.lost
  if n = 0 then s
  else
    let w := traceStore i (gapRec s i n) s
    if w.2 then
      let t := setCause i causeGap (modStudy i (fun y => { y with gaps := satTo 32 (y.gaps + 1), lost := 0 }) w.1)
      (traceStore i (syncRec t i) t).1
    else w.1

/-- A record is dropped and counted; a GAP or a SYNC record is not counted as lost (R395). -/
def traceDrop (i : InstId) (r : TraceRec) (s : State) : State :=
  if r.kind = 2 ∨ r.kind = 3 then s else modStudy i (fun y => { y with dropped := wrapTo 64 (y.dropped + 1), lost := y.lost + 1 }) s

/-- A record leaves the FIFO: written, or dropped (R395). -/
def traceWrite (i : InstId) (r : TraceRec) (s : State) : State :=
  let w := traceStore i r (traceGap i s)
  if w.2 then w.1 else traceDrop i r w.1

/-- Write the `n` oldest records of the FIFO as a burst (R394). -/
def traceBurst (i : InstId) (n : Nat) (s : State) : State :=
  let l := (getInst s i).study.fifo
  (l.take n).foldl (fun s r => traceWrite i r s) (modStudy i (fun y => { y with fifo := y.fifo.drop n }) s)

/-- Enter a record in the FIFO; a full burst of 64 bytes is written at once, and a record that finds the FIFO full is dropped (R394, R395). -/
def traceAdd (i : InstId) (r : TraceRec) (s : State) : State :=
  let y := (getInst s i).study
  if !y.traceOn then s
  else if 4096 ≤ y.fifo.length then traceDrop i r s
  else
    let s := modStudy i (fun y => { y with fifo := y.fifo ++ [r], lastRec := studyTime s i }) s
    if 4 ≤ y.fifo.length + 1 then traceBurst i 4 s else s

/-- The records of a class are recorded (R396). -/
def traces (s : State) (i : InstId) (k : Nat) : Bool := (getInst s i).study.traceOn && tbit (getInst s i).study.traceMask k

/-- A MARK record at a command boundary (R392, R396). -/
def traceMark (i : InstId) (side w code : Nat) (s : State) : State :=
  if traces s i 9 then traceAdd i (markRec s i side w code) s else s

end Sys2Proof.Machine
end

