-- ==== Sys2Proof/Machine/Results.lean ====
section
/-! DEFINITION. Result entries and the mailbox journal (spec/14 R288-R294, R441; spec/13 R282, R285; spec/18 R408). -/

namespace Sys2Proof.Machine

open Sys2Proof

/-- Result codes (spec/14 R294). -/
def rOk : Nat := 0
def rBusy : Nat := 1
def rInvalid : Nat := 2
def rWrongState : Nat := 3
def rNoSlot : Nat := 4
def rUnknown : Nat := 5
def rNotPermitted : Nat := 6
def rNotFound : Nat := 7
def rExists : Nat := 8
def rFull : Nat := 9
def rFaulted : Nat := 10
def rIoError : Nat := 11
def rCheckFailed : Nat := 12

/-- The context of a window (spec/01 R23). -/
def winCtx (w : Nat) : Nat := w / 4

/-- The core now serving a context's windows: core c / 4, or its cover core (spec/13 R269, R283); none when all are out of service. -/
def servingCore (h : Hearth) (c : Nat) : Option Nat :=
  ([c / 4 % 4, (c / 4 + 1) % 4, (c / 4 + 2) % 4, (c / 4 + 3) % 4]).find? fun k => h.coreUp.getLsbD k

/-- The core that has a core's background duty is in service (spec/13 R269, R283). -/
def onDuty (s : State) (i : InstId) (core : Nat) : Bool := (servingCore (getInst s i).hearth (4 * core)).isSome

/-- Write one entry of a window's result queue and advance `res_tail` (spec/14 R291). -/
def pushResult (i : InstId) (w : Nat) (irq : Bool) (e : ResultEntry) (s : State) : State :=
  let s := modWin i w (fun x => { x with results := put (x.resTail % 32) e x.results, resTail := wrapTo 32 (x.resTail + 1) }) s
  if irq then raiseIrq i (16 + winCtx w) s else s

/-- An engine's bank as 256 bytes (spec/18 R406). -/
def bankBytes (b : Bank) : List Byte := leBytes 8 b.busy ++ leBytes 8 b.stalled ++ leBytes 8 b.idle ++ leBytes 8 0 ++ words 8 b.stall ++ leBytes 96 0

/-- At a command's acceptance (side 0) and before its result (side 1) the Study enters a MARK record and latches the engine banks and the usher counters, in the last 2 MiB of the dump area, the banks of engines 21 to 31 and the reserved bytes zero (spec/18 R392, R406, R408). -/
def commandLatch (i : InstId) (side w code cookie : Nat) (s : State) : State :=
  let s := traceMark i side w code s
  let x := getInst s i
  match look 6 x.place.regions with
  | none => s
  | some r =>
    let base := r.base + 0x03E00000 + 0x8000 * w + 0x4000 * side
    let head := leBytes 8 cookie ++ leBytes 2 code ++ [BitVec.ofNat 8 side, 0] ++ leBytes 4 (getWin x.mir w).accepted ++
      leBytes 8 s.tick ++ leBytes 8 (studyTime s i) ++ leBytes 32 0
    let ush := x.hall.ushers.flatMap fun u => leBytes 8 u.released ++ leBytes 8 u.waitCycles ++ leBytes 4 u.stallUs ++ leBytes 12 0
    let banks := (List.range 32).flatMap fun e => bankBytes (x.study.banks.getD e {})
    hbmPut base (head ++ leBytes 960 0 ++ ush ++ leBytes 0x1800 0 ++ banks) s

/-- A command of the mailbox journal by its number. -/
def findCmd (m : Mirrored) (id : Nat) : Option MboxCmd := m.mbox.find? (·.id == id)

def modCmd (i : InstId) (id : Nat) (f : MboxCmd → MboxCmd) (s : State) : State :=
  modMir i (fun m => { m with mbox := m.mbox.map fun x => if x.id == id then f x else x }) s

/-- The first eight bytes of a command's header (spec/14 R292). -/
def cmdWord (c : MboxCmd) : Nat := c.code + 2 ^ 16 * bit c.irq + 2 ^ 32 * (16 + c.params.length)

/-- Write a command's result and take it out of the mailbox journal (spec/14 R291, spec/13 R282). -/
def finishCmd (i : InstId) (id result detail : Nat) (data : List Byte) (s : State) : State :=
  match findCmd (mir s i) id with
  | none => s
  | some c =>
    let s := commandLatch i 1 c.window c.code c.cookie s
    let s := modMir i (fun m => { m with mbox := m.mbox.filter (·.id != id) }) s
    let s := match c.timer with
      | some h => duskDrop i 3 h s
      | none => s
    let core := ((servingCore (getInst s i).hearth (winCtx c.window)).getD 0)
    let s := ringPush i (8 + core) (0x028 + core) 2 c.code [cmdWord c, c.cookie, result] s
    pushResult i c.window c.irq
      { cookie := c.cookie, code := c.code, result := result, detail := detail, doneTick := s.tick, data := slice data 0 40 } s

/-- A command's result once every event it sent is resolved (spec/14 R304, R441): OK when some member was acted on or a request withdrawn. -/
def closeCmd (i : InstId) (id : Nat) (s : State) : State :=
  match findCmd (mir s i) id with
  | none => s
  | some c =>
    if c.outstanding ≠ 0 then s
    else if c.acted + c.withdrawn = 0 then finishCmd i id rWrongState 0 [] s
    else finishCmd i id rOk 0 (leBytes 4 c.acted ++ (if c.code = 0x50 then leBytes 4 c.withdrawn else [])) s

/-- One event of a command is resolved, acting or not (spec/14 R441). -/
def resolveEvent (i : InstId) (cmd : Option Nat) (acted : Bool) (s : State) : State :=
  match cmd with
  | none => s
  | some id => closeCmd i id (modCmd i id (fun c => { c with outstanding := c.outstanding - 1, acted := c.acted + bit acted }) s)

/-- The watches that `p` holds of end, with a result (spec/18 R405). -/
def endWatches (i : InstId) (result : Nat) (p : Watch → Bool) (s : State) : State :=
  let gone := (getInst s i).study.watches.filter p
  gone.foldl (fun s w => finishCmd i w.cmd result 0 [] s) (modStudy i (fun y => { y with watches := y.watches.filter fun w => !p w }) s)

/-- The source code of the trail entry at a position of a sequence (spec/02 R48). -/
def sourceAt (hbm : Mem) (r : Record) (position : Nat) : Nat := leNat (memGets hbm (r.trailAddr + 16 * (position - r.promptLen) + 6) 1) % 8

/-- After appends: the watches of positions now committed end, OK where the entry has a logit row of its own, WRONG_STATE where it is a forced, extend or accepted draft token (spec/18 R405). -/
def watchAppended (i : InstId) (lid : Nat) (s : State) : State :=
  let r := (seqOf s i lid).r
  let at' (w : Watch) : Bool := w.lid == lid && decide (w.position < seqT r)
  let ok (w : Watch) : Bool := [0, 4, 5].contains (sourceAt s.hbm r w.position)
  endWatches i rWrongState (fun w => at' w) (endWatches i rOk (fun w => at' w && ok w) s)

/-- Sequences that have ended, paused or parked since `s`: their watches end WRONG_STATE (spec/18 R405). -/
def watchSweep (i : InstId) (s t : State) : State :=
  let past (w : Watch) : Bool :=
    match findSeq (mir s i) w.lid, findSeq (mir t i) w.lid with
    | some p, some q => p.admitNo != q.admitNo || !(q.r.state.live || q.r.state == .free) ||
        (p.r.state != q.r.state && (q.r.state == .paused || q.r.state == .parked))
    | _, _ => true
  if (getInst t i).study.watches.isEmpty then t else endWatches i rWrongState past t

/-- Every queued command of a context receives CONTEXT_FAULTED, and its watches end (spec/15 R333, spec/13 R285, spec/18 R405). -/
def faultCommands (i : InstId) (c : Nat) (s : State) : State :=
  modStudy i (fun y => { y with watches := y.watches.filter (·.context != c) })
    (((mir s i).mbox.filter fun x => winCtx x.window == c).foldl (fun s x => finishCmd i x.id rFaulted 0 [] s) s)

end Sys2Proof.Machine
end

