-- ==== Sys2Proof/Machine/Life.lean ====
section
/-! DEFINITION. The life of a sequence: Parlour and Attic, resume, KV invalidation, waiting events, the ends FINISHED and ABORTED with the FINAL record and the release of everything held (spec/02). -/

namespace Sys2Proof.Machine

open Sys2Proof

/-! ### The Attic (R35, R46) -/

/-- The number of local ids (R35). -/
def localIds (x : Inst) : Nat := ((look 0 x.place.regions).map (·.size / 512)).getD 0

/-- A non-step event changed the record: what has passed of its wall budget is charged, its journal entry, and the Attic copy of a cold record (R45, R46, spec/17 R374). -/
def recordDone (i : InstId) (lid : Nat) (s : State) : State := writeAttic i lid (journalRecord i lid (modSeq i lid chargeSeq s))

/-! ### Parlour (R46) -/

/-- The record must be hot (R46). -/
def mustBeHot (m : Mirrored) (q : Seq) : Bool :=
  q.r.state.composed || q.r.state == .migrating || (q.passed && q.r.state == .admitted) || (stepOfSeq m q.r.localId).isSome

def hotCount (m : Mirrored) : Nat := (m.seqs.filter (·.r.hot)).length

/-- Parlour slots held free of other classes for class 0 (R46, R66). -/
def parlourKept (m : Mirrored) : Nat := m.foyer.c0Sequences - (m.seqs.filter fun q => q.r.hot && q.r.cls == 0).length

/-- Rank of a state for cooling (R46 order 1). -/
def coolRank (q : Seq) : Nat :=
  match q.r.state with
  | .shuttered => 0
  | .paused => 1
  | .parked => 2
  | .finished | .aborted => 3
  | _ => 4

/-- The record to cool: by state, then class 3 first, then least recently touched (R46). -/
def coolChoice (m : Mirrored) (h : Hallway) : Option Seq :=
  (m.seqs.filter fun q => q.r.hot && !mustBeHot m q && !flowHas h (.seq q.r.localId) (· == .cool)).foldl (fun best q =>
    match best with
    | none => some q
    | some b =>
      if coolRank q < coolRank b || (coolRank q == coolRank b && (b.r.cls < q.r.cls || (b.r.cls == q.r.cls && q.touched < b.touched)))
      then some q else some b) none

/-- Write a record back to the Attic and free its Parlour slot (R46). -/
def coolRecord (i : InstId) (lid : Nat) (s : State) : State :=
  writeAttic i lid (modRec i lid (fun r => { r with hot := false }) s)

/-- The occupancy that the Hallway cools toward (spec/19 R422). -/
def coolTarget (m : Mirrored) : Nat := min m.foyer.coolMark (65536 - m.foyer.c0Sequences)

/-- Cooling starts while the Parlour's occupancy exceeds the mark (R46, spec/19 R422). -/
def coolExcess (i : InstId) : Nat → State → State
  | 0, s => s
  | n + 1, s =>
    let x := getInst s i
    let going := ((outstanding x.hall).filter (·.kind == .cool)).length
    if coolTarget x.mir < hotCount x.mir - going then
      match coolChoice x.mir x.hall with
      | some q => coolExcess i n (postSeq i q.r.localId .cool s)
      | none => s
    else s

/-- A warmed record claims its plan, which is demanded where it is not resident (spec/10 R216, R217). -/
def claimOwn (i : InstId) (lid : Nat) (s : State) : State :=
  let q := seqOf s i lid
  if q.r.planValid then demandPlan i q.r.planId (q.r.cls == 0) s else s

/-- Copy a record into a Parlour slot, cooling another where none is free, with its broadcasts put ahead, and claim its plan (R46, spec/10 R217, spec/12 R256); where every slot holds a record that must be hot it becomes hot all the same (DESIGN CHOICE, log 91). -/
def warmRecord (i : InstId) (lid : Nat) (s : State) : State :=
  let q := seqOf s i lid
  if q.r.hot then s
  else
    let m := mir s i
    let full := 65536 ≤ hotCount m + (if q.r.cls == 0 then 0 else parlourKept m)
    let s := if full then (match coolChoice m (getInst s i).hall with | some v => coolRecord i v.r.localId s | none => s) else s
    let s := flushBcast i lid s
    let slot := if q.r.planValid then ((findPlan m q.r.planId).map (·.slot)).getD 0xFF else q.r.planSlot
    let s := modSeq i lid (fun q => { q with touched := s.tick, r := { q.r with hot := true, planSlot := slot } }) s
    coolExcess i 64 s

/-! ### Stop sequences and recent tokens (R44) -/

/-- Clear the ring of recent tokens (R44). -/
def clearRecent (r : Record) : Record := { r with recentHead := 0, recentCount := 0, recentTokens := List.replicate 16 0 }

/-- Append one model token to the ring (R44). -/
def pushRecent (t : Nat) (r : Record) : Record :=
  if r.recentCount < 16 then
    { r with recentTokens := modAt r.recentTokens ((r.recentHead + r.recentCount) % 16) fun _ => t, recentCount := r.recentCount + 1 }
  else { r with recentTokens := modAt r.recentTokens r.recentHead fun _ => t, recentHead := (r.recentHead + 1) % 16 }

/-- The tokens of the ring, oldest first. -/
def recentList (r : Record) : List Nat := (List.range r.recentCount).map fun k => r.recentTokens.getD ((r.recentHead + k) % 16) 0

/-- Entry `j` of a stop block: its tokens (R32). -/
def stopEntry (bs : List Byte) (j : Nat) : List Nat :=
  (unwords bs (80 * j + 16) 4 (min 16 (fld bs (80 * j) 1))).map fun t => t % 2 ^ 20

/-- The digests of a stop block's first `n` entries (R44). -/
def stopDigests (n : Nat) (block : List Byte) : List (BitVec 32) :=
  (List.range 8).map fun j => if j < n then Config.stopSeqDigest (stopEntry block j) else 0

/-- The stop sequence at entry `j`, read from the stop block in HBM (R44). -/
def stopSeqAt (hbm : Mem) (r : Record) (j : Nat) : List Nat := stopEntry (memGets hbm r.stopBlockAddr 640) j

/-- The last L model tokens equal a stop sequence of length L (R43 condition 2, R44): the digest and the block's tokens agree. -/
def stopSeqHit (hbm : Mem) (r : Record) : Bool :=
  let rec' := recentList r
  (List.range r.stopSeqCount).any fun j =>
    let len := r.stopSeqLen.getD j 0
    let last := rec'.drop (rec'.length - len)
    decide (0 < len) && decide (len ≤ rec'.length) && (Config.stopSeqDigest last == r.stopSeqDigest.getD j 0) && (last == stopSeqAt hbm r j)

/-! ### Resume (R39) -/

/-- The next state by R39, for a record whose `kv_len` is set. -/
def resumeNext (r : Record) (released : Bool) : SeqState :=
  if seqT r - r.kvLen ≤ 1 then .decoding else if released then .reheating else .prefilling

/-- KV released, or invalid under the current layout tag (R39). -/
def kvLost (m : Mirrored) (r : Record) : Bool := r.kvState == .released || r.kvState == .stale || r.layoutTag != tagOf m r

/-- Return a sequence to service by the resume rule (R39): pages of a lost KV give way to the household's valid shared prefix; `kv_state` is VALID again from here (DESIGN CHOICE, log 96). -/
def resumeSeq (i : InstId) (lid : Nat) (s : State) : State :=
  let m := mir s i
  let q := seqOf s i lid
  let s := modSeq i lid (fun q => { q with evicted := false }) s
  let s := warmRecord i lid s
  if kvLost m q.r then
    let s := if q.pages.isEmpty && q.ahead.isEmpty && q.draftPages.isEmpty then s else releasePages i lid s
    let s := modRec i lid (fun r => { r with kvState := .valid, layoutTag := tagOf m r, kvLen := 0 }) s
    let s := takePrefix i lid s
    enterState i lid (resumeNext (seqOf s i lid).r true) s
  else
    let s := modRec i lid (fun r => { r with kvState := .valid }) s
    enterState i lid (resumeNext q.r false) s

/-- A PREFILLING or REHEATING sequence whose `kv_len` is T - 1 is DECODING (R39). -/
def settlePrefill (i : InstId) (lid : Nat) (s : State) : State :=
  let r := (seqOf s i lid).r
  if (r.state == .prefilling || r.state == .reheating) && seqT r ≤ r.kvLen + 1 then enterState i lid .decoding s else s

/-- Empty the draft list (spec/09 R213). -/
def emptyDraft (q : Seq) : Seq :=
  { q with draftList := [], draftStopped := false, r := { q.r with draftLen := 0 } }

/-- Draft tokens are dropped where the sequence leaves DECODING (spec/09 R213). -/
def dropDraft (i : InstId) (lid : Nat) (s : State) : State := modSeq i lid emptyDraft s

/-- Invalidate a sequence's KV (spec/05 R119). -/
def invalidateKv (i : InstId) (lid : Nat) (s : State) : State :=
  let s := releasePages i lid s
  modSeq i lid (fun q => { (emptyDraft q) with r := { (emptyDraft q).r with kvState := .stale, kvLen := 0, layoutTag := tagOf (mir s i) q.r } }) s

/-! ### The ends of a sequence (R40, R43, R47) -/

/-- Members of a household that have not ended, the waiting ADMITs among them. -/
def unended (m : Mirrored) (h : Nat) : List Seq :=
  (members m h).filter fun q => q.r.state != .finished && q.r.state != .aborted

/-- Lower a household's unallocated charge at a FINAL to what its live members may still draw (spec/03 R56). -/
def lowerCharge (alive : Nat) (h : Household) : Household :=
  if alive = 0 then { h with unalloc := 0 }
  else { h with unalloc := min h.unalloc ((h.prefixPages - h.prefixAlloc) + h.share * alive) }

/-- Free a sequence's record: its local id returns to FREE (R35). -/
def freeSeq (i : InstId) (lid : Nat) (s : State) : State :=
  let r := (seqOf s i lid).r
  let s := [0, 1, 2, 3].foldl (fun s l => duskClear i l lid s) s
  let s := hbmPut (atticAddr (getInst s i) lid) (List.replicate 512 0) s
  let s := modMir i (fun m => { m with
    seqs := m.seqs.filter (·.r.localId != lid)
    kitchen := { m.kitchen with kernelFaultRows := m.kitchen.kernelFaultRows.filter (· != lid) } }) s
  let s := journal i [.record { localId := lid } 0 []] s
  retireCheck i r.model s

/-- Free a household whose last record is gone. -/
def freeHouse (i : InstId) (h : Nat) (s : State) : State :=
  if (members (mir s i) h).isEmpty then modMir i (fun m => { m with households := m.households.filter (·.id != h) }) s else s

/-- Events of a command that the end of a sequence leaves without effect. -/
def dropWaiting (i : InstId) (lid : Nat) (s : State) : State :=
  let ws := (seqOf s i lid).waiting
  ws.foldl (fun s w => match w with
      | .migrateOut cmd _ _ | .extend _ _ _ _ cmd => finishCmd i cmd rWrongState 0 [] s
      | .cancel _ | .park _ _ | .wall | .epochAbort => s)
    (modSeq i lid (fun q => { q with waiting := [] }) s)

/-- Post the FINAL record and release what the sequence holds; its record is FREE, or held while siblings live, hot until it is cooled (R40 `final`, R46, R47, R51, R56, R116, R242; DESIGN CHOICE, log 114). -/
def finalSeq (i : InstId) (lid reason : Nat) (s : State) : State :=
  let s := dropWaiting i lid s
  let q := seqOf s i lid
  let h := q.r.household
  let rest := (unended (mir s i) h).length
  let s := releasePages i lid s
  let s := modRec i lid (fun r => { r with kvState := .released }) s
  let s := [0, 1, 2, 3].foldl (fun s l => duskClear i l lid s) s
  let s := postSeqRecord i lid 5 reason (rest == 0) s
  let s := modHouse i h (lowerCharge rest) s
  let s := retireCheck i q.r.model s
  if q.r.leader then
      if q.r.liveMembers ≤ 1 then freeHouse i h (freeSeq i lid s)
      else recordDone i lid (postSeq i lid .household
        (modSeq i lid (fun q => { q with blocks := [], r := { q.r with holdHousehold := true } }) s))
    else
      let s := freeSeq i lid s
      match (members (mir s i) h).find? (·.r.leader) with
      | some l => postSeq i l.r.localId .household s
      | none => freeHouse i h s

/-- End a sequence FINISHED or ABORTED with a reason (R43, R40): its draft list is emptied, but for a row that is discarded in flight (spec/04 R94, spec/09 R213, R214). -/
def endSeq (i : InstId) (lid : Nat) (st : SeqState) (reason : Nat) (s : State) : State :=
  let drafts (q : Seq) : Seq := if inFlight (mir s i) lid then q else emptyDraft q
  dirEdge i s (finalSeq i lid reason (modSeq i lid (fun q => { (drafts q) with touched := s.tick, r := { (drafts q).r with state := st } }) s))

/-- FINAL reasons (R51). -/
def reasonStopToken : Nat := 1
def reasonStopSequence : Nat := 2
def reasonPlanEnd : Nat := 3
def reasonLength : Nat := 4
def reasonTrailFull : Nat := 5
def reasonWall : Nat := 6
def reasonCancel : Nat := 16
def reasonDeadline : Nat := 17
def reasonEpochAbort : Nat := 18
def reasonPlanError : Nat := 19
def reasonContextFault : Nat := 20

/-! ### Parks (R40, spec/05 R109, R126) -/

/-- Park a sequence; `evict` releases its pages (R40, R126); its drafts go (spec/09 R213). `kv_len` stands where only an ahead prefix page is freed (DESIGN CHOICE, log 116). -/
def parkSeq (i : InstId) (lid : Nat) (evict : Bool) (wake : Nat) (s : State) : State :=
  let s0 := s
  let s := if evict then modRec i lid (fun r => { r with kvState := .released, kvLen := 0 }) (releasePages i lid s)
           else writeList i lid (freeAhead i lid (fun _ => true) s)
  let s := modSeq i lid (fun q => { (emptyDraft q) with evicted := evict }) s
  let s := enterState i lid .parked s
  let s := if wake = noDeadline then s else duskSet i 2 lid wake s
  let s := if evict || (seqOf s i lid).r.notifyPark then postSeqRecord i lid 3 0 false s else s
  let s := recordDone i lid s
  dirEdge i s0 s

end Sys2Proof.Machine
end

