-- ==== Sys2Proof/Machine/Kill.lean ====
section
/-! DEFINITION. Killing a step (spec/04 R96, R97), tearing a context down (spec/15 R332, R333), the faults of an instance (spec/17 R360, R369), and the wrapper that ends a meaning in which such a fault may be due. -/

namespace Sys2Proof.Machine

open Sys2Proof

/-- Bits [23:0] of a step number (spec/04 R90). -/
def step24 (n : Nat) : Nat := n % 2 ^ 24

/-- Before the commit point (spec/04 R93). -/
def killable (st : Step) : Bool :=
  match st.phase with
  | .composing | .issued | .landing | .sampled => true
  | _ => false

/-- Latches acquired by a step are released by its kill, but for those held across a commit (spec/15 R326). -/
def releaseStepLatches (n24 : Nat) (m : Mirrored) : Mirrored :=
  { m with latches := m.latches.map fun l =>
      if l.held && !l.across && l.holder == n24 then { l with held := false, waiting := false, heldSteps := 0 } else l }

/-- The per-context accounting of a kill (spec/15 R331). -/
def killAcct (preempt : Bool) (st : Step) (s : State) (i : InstId) : State :=
  (List.range 16).foldl (fun s c =>
    let n := (st.rows.filter (·.context == c)).length
    if n = 0 then s
    else modAcct i c (fun a => if preempt then { a with preemptedRows := satTo 32 (a.preemptedRows + n), preemptedSteps := satTo 32 (a.preemptedSteps + 1) }
                               else { a with killedRowsOther := satTo 32 (a.killedRowsOther + n) }) s) s

/-- A step is in the way of nothing any more: COMMITTED with every completion notice, or KILLED with every acknowledgement (spec/04 R86). -/
def stepGone (st : Step) : Bool :=
  (st.phase == .committed && (maskBits 8 st.outposts.toNat).all fun o => st.completed.contains o) ||
  (st.phase == .killed && (maskBits 8 st.outposts.toNat).all fun o => st.killAcked.contains o)

/-- Drop the steps whose slots are free again. -/
def sweepSteps (i : InstId) (s : State) : State := modKit i (fun k => { k with steps := k.steps.filter fun st => !stepGone st }) s

/-- Distinct sequences of a step's rows. -/
def stepSeqs (st : Step) : List Nat := (st.rows.map (·.lid)).eraseDups

/-- Those that still are the rows' own. -/
def ownSeqs (m : Mirrored) (st : Step) : List Nat := ((st.rows.filter (rowOwned m)).map (·.lid)).eraseDups

/-- The fused runs of a model end: no step that is committed or in flight is continued (spec/04 R91, R92). -/
def endRuns (model : Nat) (k : Kitchen) : Kitchen :=
  { k with lastCommitted := k.lastCommitted.filter (·.model != model)
           steps := k.steps.map fun st => if st.model == model then { st with runOver := true } else st }

/-- Kill a step that has not reached its commit point (spec/04 R96, R97; spec/15 R322, R323, R326, R327); a compute die whose sequencer another instance owns refuses the notice (spec/17 R365). -/
def killStep (i : InstId) (n : Nat) (preempt : Bool) (s : State) : State :=
  match getStep (mir s i) n with
  | none => s
  | some st =>
    if !killable st then s
    else
      let set := (maskBits 8 st.outposts.toNat).filter fun o => (s.outposts.getD o {}).owner == some i
      let s := modStep i n (fun st => { st with phase := .killed }) s
      let s := { s with notices := s.notices ++ set.map fun o => (o, false, step24 n) }
      let s := set.foldl (fun s o => modOutpost o (fun x => discardStep (step24 n) o x) s) s
      let s := modInst i (fun x => { x with landing := x.landing.filter (·.su.h.step != step24 n) }) s
      let s := modStair i (fun t => { t with credits := t.credits + st.credits }) s
      let s := modMir i (fun m => unpin (releaseStepLatches (step24 n) m)) s
      let s := killAcct preempt st s i
      let s := modKit i (fun k => { endRuns st.model k with
        kills := satTo 32 (k.kills + 1)
        preemptKills := satTo 32 (k.preemptKills + bit preempt)
        rerun := k.rerun.filter fun p => !(st.rows.any (·.admitNo == p.2)) }) s
      let s := ringPush i 0 0x020 3 (step24 n) [n, 6, st.model, st.epoch, st.slot] s
      let s := (ownSeqs (mir s i) st).foldl (fun s l => postSeq i l (.kill n)
        (if preempt then modSeq i l (fun q => { q with shield := q.shield + 1 }) s else s)) s
      sweepSteps i s

/-- Reject every deferred request of a context that `p` holds of, with a reason; one with an open forward is neither admitted nor rejected (spec/03 R64, spec/16 R346). -/
def rejectDeferred (i : InstId) (c reason : Nat) (p : Deferred → Bool) (s : State) : State :=
  let q (d : Deferred) : Bool := d.fwd.isNone && p d
  let gone := (getCtx (mir s i) c).defer.filter q
  let s := modCtx i c (fun x => { x with
    defer := x.defer.filter fun d => !q d
    acct := { x.acct with deferTicks := x.acct.deferTicks + sumNat (gone.map fun d => s.tick - d.arrival) } }) s
  gone.foldl (fun s d => journal i [.deferDel c d.req.hostTag] (rejectLeft i c d.req reason s)) s

/-- Release every latch a context owns (spec/15 R333 step 3). -/
def releaseOwned (c : Nat) (m : Mirrored) : Mirrored :=
  { m with latches := m.latches.map fun l =>
      if l.held && l.owner == c then { l with held := false, across := false, waiting := false, heldSteps := 0 } else l }

/-- Teardown begins (spec/15 R333 steps 1-4). -/
def tearDown (i : InstId) (c : Nat) (s : State) : State :=
  let cause := (getCtx (mir s i) c).faultCause
  let s := modCtx i c (fun x => { x with faulted := true, teardown := true }) s
  let s := logFault i 0x01 0 (some c) cause 0 (getCtx (mir s i) c).faultAddr s
  let s := faultCommands i c s
  let s := ((mir s i).kitchen.steps.filter fun st => killable st && st.rows.any (·.context == c)).foldl (fun s st => killStep i st.num false s) s
  let s := modMir i (releaseOwned c) s
  let s := broadcast i .teardown (·.r.context == c) s
  postUnit i c (.context 9) (rejectDeferred i c 44 (fun _ => true) s)

/-- Teardowns that became due, context by context (spec/15 R332). -/
def tearDue (i : InstId) (s : State) : State :=
  (List.range 16).foldl (fun s c =>
    let x := getCtx (mir s i) c
    if x.isOpen && x.faultCause != 0 && !x.faulted then tearDown i c s else s) s

/-- The state in which a meaning ends that may have found a stream full, raised another context fault, or taken a watched sequence off its path. -/
def settled (i : InstId) (s t : State) : State := mirrorOut i s (watchSweep i s (tearDue i t))

/-- End such a meaning. -/
def settle (i : InstId) (s t : State) : Result := .next (settled i s t)

/-! ### Instance faults (spec/17 R360, R363, R369) -/

/-- The mirror state LOST: nothing is sent or awaited any more (spec/17 R363). -/
def markLost (i : InstId) (s : State) : State :=
  modRel i (fun r => { r with mirror := .lost, streamOut := [], acksDue := 0, resends := 0, livenessRead := none }) s

/-- Mark the mirror LOST and report MIRROR_LOST in this instance's fault log (spec/01 R29, spec/17 R363, R364). -/
def mirrorLost (i : InstId) (s : State) : State :=
  markLost i
    (if (getInst s i).rel.mirror == .lost then s else logFault i 0x09 10 none 0 0 0 s)

/-- The pair is in twin mode with the mirror CURRENT: a takeover covers a fault of this, the active instance (spec/17 R367, R369). -/
def covered (s : State) (i : InstId) : Bool :=
  let x := getInst s i
  !x.place.split && x.rel.active && x.rel.mirror == .current && running s (other i)

/-- A post-fatal dump begins, written by a core in service; a live dump in progress is abandoned, a fatal one goes on (spec/18 R400, R402). -/
def fatalDump (i : InstId) (code index : Nat) (s : State) : State :=
  let x := getInst s i
  if x.hearth.coreUp == 0 || (x.study.dumpState == 1 && x.study.dumpFatal) then s
  else
    let d : Dump := { fatal := true, code := code, index := index, began := s.tick }
    modStudy i (fun y => { y with dumpState := 1, dumpFatal := true, dump := some d }) s

/-- The instance becomes FAILED (spec/17 R369): it composes nothing, kills every uncommitted step, writes the post-fatal dump. -/
def failInstance (i : InstId) (code : Nat) (s : State) : State :=
  if (getInst s i).rel.failed then s
  else
    let s := ((mir s i).kitchen.steps.filter killable).foldl (fun s st => killStep i st.num false s) s
    let s := fatalDump i code ((getInst s i).rel.faultCount - 1) s
    let s := modRel i (fun r => { r with failed := true }) s
    let j := other i
    if !(getInst s j).place.split && (getInst s j).rel.active then markLost j (mirrorLost i s) else s

/-- A fault of instance level: a takeover where the mirror is CURRENT, whose fatal dump follows the kill of every uncommitted step, else FAILED (spec/17 R364, R369, spec/18 R400). `twin` is false where the code gives no takeover (R360). -/
def instFault (i : InstId) (code unit detail step addr : Nat) (twin : Bool) (s : State) : State :=
  let s := logFault i code unit none detail step addr s
  if twin && covered s i then
    let s := ((mir s i).kitchen.steps.filter killable).foldl (fun s st => killStep i st.num false s) s
    fatalDump i code ((getInst s i).rel.faultCount - 1)
      (modRel i (fun r => { r with failed := true, failSent := true }) s)
  else failInstance i code s

/-- An OUTPOST_FAULT of outpost `o` (spec/17 R360): no takeover. -/
def outpostFault (i : InstId) (o detail step : Nat) (s : State) : State :=
  let s := modOutpost o (fun x => match i with | .A => { x with faultA := true } | .B => { x with faultB := true }) s
  instFault i 0x04 (1 + o) detail step 0 false s

end Sys2Proof.Machine
end

