-- ==== Sys2Proof/Machine/Admission.lean ====
section
/-! DEFINITION. The Foyer's operations (spec/02 R30-R36, spec/03 R54-R67): the request descriptor, its charges, the refusal checks, the defer conditions, admission, passing households to composition. -/

namespace Sys2Proof.Machine

open Sys2Proof

/-! ### The descriptor (R30, R33) -/

/-- The request descriptor's fields (R30). -/
def parseRequest (b : List Byte) : Request :=
  let fl := fld b 0x08 4
  { hostTag := fld b 0x00 8, seedGiven := tbit fl 0, planValid := tbit fl 1, notifyAdmit := tbit fl 2, notifyPark := tbit fl 3,
    cls := fld b 0x0C 1 % 4, model := fld b 0x0D 1 % 64, recipe := fld b 0x0E 2 % 4096, planId := fld b 0x10 2,
    planStartState := fld b 0x12 2, siblings := fld b 0x14 2, stopTokenCount := fld b 0x16 1, stopSeqCount := fld b 0x17 1,
    maxNewTokens := fld b 0x18 4, maxWallTicks := fld b 0x1C 4, deadlineTick := fld b 0x20 8 % 2 ^ 48, drawId := fld b 0x28 4,
    promptLen := fld b 0x2C 4, promptAddr := fld b 0x30 8, trailAddr := fld b 0x38 8, trailCapacity := fld b 0x40 4,
    progressInterval := fld b 0x44 4, auxAddr := fld b 0x48 8, stopBlockAddr := fld b 0x50 8,
    seed := if tbit fl 0 then slice b 0x60 16 else List.replicate 16 0,
    stopTokens := unwords b 0x80 4 (min 16 (fld b 0x16 1)) }

/-- The descriptor as bytes (R30), as DEFER entries and transfers carry it. -/
def requestBytes (r : Request) : List Byte := layout 256
  [ lf 0x00 8 r.hostTag, lf 0x08 4 (bit r.seedGiven + 2 * bit r.planValid + 4 * bit r.notifyAdmit + 8 * bit r.notifyPark),
    lf 0x0C 1 r.cls, lf 0x0D 1 r.model, lf 0x0E 2 r.recipe, lf 0x10 2 r.planId, lf 0x12 2 r.planStartState, lf 0x14 2 r.siblings,
    lf 0x16 1 r.stopTokenCount, lf 0x17 1 r.stopSeqCount, lf 0x18 4 r.maxNewTokens, lf 0x1C 4 r.maxWallTicks,
    lf 0x20 8 r.deadlineTick, lf 0x28 4 r.drawId, lf 0x2C 4 r.promptLen, lf 0x30 8 r.promptAddr, lf 0x38 8 r.trailAddr,
    lf 0x40 4 r.trailCapacity, lf 0x44 4 r.progressInterval, lf 0x48 8 r.auxAddr, lf 0x50 8 r.stopBlockAddr,
    (0x60, slice r.seed 0 16), (0x80, slice (words 4 r.stopTokens) 0 64) ]

/-- A non-zero reserved bit of an entry or its descriptor (spec/00 R9, R12 case 12). -/
def requestReserved (b : List Byte) : Bool :=
  fld b 0x08 4 / 16 != 0 || fld b 0x0C 1 / 4 != 0 || fld b 0x0D 1 / 64 != 0 || fld b 0x0E 2 / 4096 != 0 || fld b 0x20 8 / 2 ^ 48 != 0
    || !zeros (slice b 0x58 8) || !zeros (slice b 0x70 16) || !zeros (slice b 0xC0 64)

/-- The lengths in the used entries of a stop block are 1 to 16 (R32, R33). -/
def stopLengthsOk (n : Nat) (stop : List Byte) : Bool :=
  (List.range n).all fun j => let l := fld stop (80 * j) 1; decide (1 ≤ l ∧ l ≤ 16)

/-- The conditions of R33 that make a request BAD_REQUEST. -/
def badRequest (m : Mirrored) (r : Request) (stop : List Byte) : Bool :=
  decide (r.siblings = 0 ∨ 256 < r.siblings) || decide (r.maxNewTokens = 0) || decide (r.trailCapacity < r.maxNewTokens)
    || decide (r.promptLen = 0 ∨ 1048576 < r.promptLen) || decide (16 < r.stopTokenCount ∨ 8 < r.stopSeqCount)
    || !stopLengthsOk r.stopSeqCount stop
    || (match findRecipe m r.recipe with
        | some p => (p.entropy || decide (0 < p.topN)) && decide (r.auxAddr = 0)
        | none => false)

/-! ### Charges (R56) -/

/-- Prefix pages S + [f > 0] (R56). -/
def chargePrefix (L P : Nat) : Nat := (L - 1) / P + bit ((L - 1) % P != 0)

/-- Pages per sibling (R56). -/
def chargeShare (cls L C P : Nat) : Nat := if cls = 0 then ceilDiv ((L - 1) % P + C) P else 1

/-- The page charge (R56). -/
def pageCharge (r : Request) (P : Nat) : Nat :=
  chargePrefix r.promptLen P + r.siblings * chargeShare r.cls r.promptLen r.trailCapacity P

/-- The admission-token charge (R56). -/
def tokenCharge (r : Request) : Nat := (r.promptLen - 1) + r.siblings

/-- Positions per page of a model. -/
def modelP (m : Mirrored) (k : Nat) : Nat := 2 ^ (getModel m k).pageSizeLog2

/-! ### Refusal checks (R55) -/

/-- Checks 2 to 10 of R55: the first that fails gives its reason. -/
def refusal (x : Inst) (tick c : Nat) (r : Request) : Option Nat :=
  let m := x.mir
  let cx := getCtx m c
  let md := getModel m r.model
  let pages := pageCharge r (modelP m r.model)
  if !cx.isOpen || cx.closing then some 32
  else if md.state == .empty then some 33
  else if md.state == .refused then some 34
  else if md.committed.isNone then some 35
  else if (findRecipe m r.recipe).isNone then some 36
  else if r.planValid && !registered m r.planId then some 37
  else if md.maxPositions < r.promptLen + r.trailCapacity then some 38
  else if localIds x < r.siblings
      || (if r.cls = 0 then decide (m.foyer.c0Pages < pages ∨ m.foyer.c0Sequences < r.siblings)
          else decide (poolPages x < pages + m.foyer.c0Pages + m.foyer.pageHeadroom)) then some 39
  else if r.deadlineTick < tick then some 40
  else none

/-! ### Defer conditions (R58) -/

/-- Free local ids, lowest first (R35; the order is the model's). -/
def freeLids (x : Inst) : Nat → Nat → List Nat → List Nat
  | 0, _, acc => acc
  | n + 1, lo, acc =>
    match firstFree (fun k => !(x.mir.seqs.any (·.r.localId == k))) lo (localIds x - lo) with
    | some k => freeLids x n (k + 1) (acc ++ [k])
    | none => acc

/-- A free household id, the lowest (R35). -/
def freeHid (m : Mirrored) : Option Nat := firstFree (fun k => !(m.households.any (·.id == k))) 0 (min (2 ^ 20) (m.households.length + 1))

/-- The conditions that hold of a request (R58). -/
structure DeferWhy where
  turn : Bool := false
  model : Bool := false
  plan : Bool := false
  ids : Bool := false
  pages : Bool := false
  c0seq : Bool := false
  tokens : Bool := false
  blocked : Bool := false
  hold : Bool := false
  deriving DecidableEq, Repr

def DeferWhy.any (w : DeferWhy) : Bool :=
  w.turn || w.model || w.plan || w.ids || w.pages || w.c0seq || w.tokens || w.blocked || w.hold

/-- The request blocks later ones of its context (R61). -/
def DeferWhy.blocks (w : DeferWhy) : Bool := w.ids || w.pages || w.c0seq || w.tokens

/-- An earlier request of the context blocks this one (R61). -/
def blockedBy (cx : Ctx) (cls arrivalNo : Nat) : Bool := cx.defer.any fun d => d.blocks && decide (d.arrivalNo < arrivalNo) && decide (d.req.cls ≤ cls)

/-- Evaluate the defer conditions of a request that arrived as number `no` (R58, R59, R60, R61; spec/14 R310). -/
def deferWhy (x : Inst) (c no : Nat) (r : Request) : DeferWhy :=
  let m := x.mir
  let cx := getCtx m c
  let pages := pageCharge r (modelP m r.model)
  let live0 := (m.seqs.filter fun q => q.r.cls == 0 && (q.r.state.live || q.r.state == .free)).length
  { turn := m.kitchen.turn != .service
    model := (getModel m r.model).state != .resident
    plan := r.planValid && (residentPlan m r.planId).isNone
    ids := decide (localIds x < m.seqs.length + r.siblings) || (freeHid m).isNone
    pages := decide (freeBlocks x none < r.siblings) ||
      (if r.cls = 0 then decide (m.foyer.c0Pages < c0Charged m + pages) else decide (availRequest x < pages))
    c0seq := decide (r.cls = 0) && decide (m.foyer.c0Sequences < live0 + r.siblings)
    tokens := decide (cx.adm.level < 65536 * (min (tokenCharge r) cx.adm.capacity : Nat))
    blocked := blockedBy cx r.cls no
    hold := cx.cqHold }

/-! ### Admission (R54, R36, R40, the ADMIT event) -/

/-- Trail and auxiliary stride of an admission (R50). -/
def auxStride (topN : Nat) : Nat := roundUp (8 + 8 * topN) 16

/-- The record of sibling `k` of a request (R36, R45); its stop-token slots beyond the count hold 0 (DESIGN CHOICE, log 113). -/
def newRecord (m : Mirrored) (tick c lid hid k : Nat) (r : Request) (topN : Nat) (stop : List Byte) : Record :=
  let md := getModel m r.model
  let ep := md.committed.getD {}
  let rc := (findRecipe m r.recipe).getD {}
  { hostTag := r.hostTag, localId := lid, household := hid, ordinal := k, context := c, cls := r.cls, model := r.model, recipe := r.recipe,
    seedGiven := r.seedGiven, planValid := r.planValid, notifyAdmit := r.notifyAdmit, notifyPark := r.notifyPark, leader := k == 0,
    drawId := wrapTo 32 (r.drawId + k), epoch := ep.epoch, startEpoch := ep.epoch, seed := r.seed, admitTick := tick,
    deadlineTick := r.deadlineTick, promptLen := r.promptLen, maxNewTokens := r.maxNewTokens, maxWallTicks := r.maxWallTicks,
    trailCapacity := r.trailCapacity, trailAddr := r.trailAddr + 16 * r.trailCapacity * k, promptAddr := r.promptAddr,
    auxAddr := if r.auxAddr = 0 then 0 else r.auxAddr + auxStride topN * r.trailCapacity * k, stopBlockAddr := r.stopBlockAddr,
    planId := if r.planValid then r.planId else 0xFFFF, planState := if r.planValid then r.planStartState else 0,
    siblings := r.siblings, liveMembers := if k == 0 then r.siblings else 0, stopTokenCount := r.stopTokenCount,
    stopSeqCount := r.stopSeqCount, progressInterval := r.progressInterval, nextProgress := r.progressInterval,
    stopSeqLen := (List.range 8).map fun j => if j < r.stopSeqCount then fld stop (80 * j) 1 else 0,
    stopSeqDigest := stopDigests r.stopSeqCount stop,
    stopTokens := r.stopTokens ++ List.replicate (16 - r.stopTokens.length) 0,
    layoutTag := ep.layoutTag, pageSizeLog2 := md.pageSizeLog2, draftMode := if rc.draftValid then rc.draftMode else 0 }

/-- Tokens as HBM bytes (R30). -/
def tokenBytes (ts : List Nat) : List Byte := words 4 ts

/-- PROMPT entries of a household: its prompt in pieces that fit a block, and its stop block (spec/17 R374). -/
def promptEntries (hbm : Mem) (r : Record) : List JEntry :=
  ((List.range (ceilDiv r.promptLen 16344)).map fun k =>
    JEntry.prompt r.localId r.context (r.promptAddr + 4 * 16344 * k) (memGets hbm (r.promptAddr + 4 * 16344 * k) (4 * min 16344 (r.promptLen - 16344 * k)))) ++
  (if r.stopSeqCount = 0 then [] else [.stopBlock r.localId r.context r.stopBlockAddr (memGets hbm r.stopBlockAddr 640)])

/-- Admit a request: ids, records, charges; one ADMIT event per sibling (R54, R56, R40). -/
def admitRequest (i : InstId) (c : Nat) (r : Request) (s : State) : State :=
  let x := getInst s i
  let m := x.mir
  let lids := freeLids x r.siblings 0 []
  let hid := (freeHid m).getD 0
  let topN := ((findRecipe m r.recipe).map (·.topN)).getD 0
  let P := modelP m r.model
  let stop := if r.stopSeqCount = 0 then [] else memGets s.hbm r.stopBlockAddr 640
  let seqs := lids.zipIdx.map fun p =>
    ({ r := newRecord m s.tick c p.1 hid p.2 r topN stop, auxTopN := topN, touched := s.tick, admitNo := m.foyer.nextAdmit } : Seq)
  let house : Household :=
    { id := hid, leader := lids.headD 0, context := c, cls := r.cls, model := r.model, promptLen := r.promptLen, capacity := r.trailCapacity,
      prefixPages := chargePrefix r.promptLen P, share := chargeShare r.cls r.promptLen r.trailCapacity P, unalloc := pageCharge r P }
  let s := modMir i (fun m => { m with seqs := m.seqs ++ seqs, households := m.households ++ [house],
                                       foyer := { m.foyer with nextAdmit := m.foyer.nextAdmit + 1 } }) s
  let s := modCtx i c (fun x => { x with adm := { x.adm with level := x.adm.level - 65536 * (tokenCharge r : Nat) } }) s
  let s := lids.foldl (fun s l => writeList i l s) s
  let s := ringPush i 2 0x022 1 0 [r.hostTag, c, 0, 0] s
  let s := journal i (promptEntries s.hbm (newRecord m s.tick c (lids.headD 0) hid 0 r topN stop)) s
  lids.foldl (fun s l => postSeq i l .admission s) s

/-! ### Deferral and re-evaluation (R58, R63, R64) -/

/-- Insert a deferred request in class order, then arrival order (R61). -/
def deferInsert (d : Deferred) (l : List Deferred) : List Deferred :=
  insertBy (fun a b => decide (a.req.cls < b.req.cls || (a.req.cls = b.req.cls && a.arrivalNo < b.arrivalNo))) d l

/-- The tick at which a deferred request is rejected at the latest: past its deadline, or at its defer limit (R64). -/
def deferDue (cx : Ctx) (d : Deferred) : Option Nat :=
  let a := if d.req.deadlineTick = noDeadline then none else some (d.req.deadlineTick + 1)
  let b := if cx.cfg.deferLimit = 0 then none else some (d.arrival + cx.cfg.deferLimit)
  match a, b with
  | some u, some v => some (min u v)
  | some u, none => some u
  | none, v => v

/-- The Foyer's park-timeout entry of a context: its earliest defer limit or deadline, of the requests that are not with a peer (spec/12 R261, spec/16 R346). -/
def deferTimer (i : InstId) (c : Nat) (s : State) : State :=
  let cx := getCtx (mir s i) c
  let due := ((cx.defer.filter (·.fwd.isNone)).filterMap (deferDue cx)).foldl (fun m d => match m with | none => some d | some k => some (min k d)) none
  match due with
  | some d => duskUnit i 2 c d s
  | none => modMir i (fun m => { m with dusk := duskDel 2 (.unit c) m.dusk }) s

/-- The reason for which the tick itself ends a deferral (R64): the deadline first. -/
def deferExpired (cx : Ctx) (tick : Nat) (d : Deferred) : Option Nat :=
  if d.req.deadlineTick < tick then some 40
  else if cx.cfg.deferLimit ≠ 0 ∧ d.arrival + cx.cfg.deferLimit ≤ tick then some 41
  else none

/-- A new deferred request enters the queue (R54, R61). -/
def defer (i : InstId) (c no : Nat) (r : Request) (w : DeferWhy) (s : State) : State :=
  let d : Deferred := { req := r, arrival := s.tick, arrivalNo := no, blocks := w.blocks, forModel := w.model }
  let s := modCtx i c (fun x => { x with defer := deferInsert d x.defer }) s
  let s := ringPush i 2 0x022 1 0 [r.hostTag, c, 1, 0] s
  deferTimer i c (journal i [.deferAdd c d] s)

/-- What a deferred request that is not offered to a peer asks for: its model's residency, its plan (R58, R69, spec/10 R216, spec/16 R345). -/
def deferDemand (i : InstId) (c no : Nat) (s : State) : State :=
  let x := getInst s i
  match (getCtx x.mir c).defer.find? (·.arrivalNo == no) with
  | none => s
  | some d =>
    if d.fwd.isSome then s
    else
      let w := deferWhy x c no d.req
      let s := if w.model then demandModel i d.req.model (d.req.cls == 0) s else s
      if w.plan then demandPlan i d.req.planId (d.req.cls == 0) s else s

/-- Take a request out of the defer queue. -/
def undefer (i : InstId) (c no : Nat) (s : State) : State :=
  let cx := getCtx (mir s i) c
  match cx.defer.find? (·.arrivalNo == no) with
  | none => s
  | some d =>
    deferTimer i c <| journal i [.deferDel c d.req.hostTag] <|
      modCtx i c (fun x => { x with defer := x.defer.filter (·.arrivalNo != no),
                                    acct := { x.acct with deferTicks := x.acct.deferTicks + (s.tick - d.arrival) } }) s

/-- Re-evaluate one deferred request: the events of R64, the refusal checks, then admission (R55, R64). An offered request waits for its peer (spec/16 R346). -/
def reevaluate (i : InstId) (c no : Nat) (s : State) : State :=
  let x := getInst s i
  let cx := getCtx x.mir c
  match cx.defer.find? (·.arrivalNo == no) with
  | none => s
  | some d =>
    if d.fwd.isSome then s
    else
      match (if cx.faulted then some 44 else deferExpired cx s.tick d).or (refusal x s.tick c d.req) with
      | some reason => rejectLeft i c d.req reason (undefer i c no s)
      | none =>
        let w := deferWhy x c no d.req
        if w.any then
          modCtx i c (fun x => { x with defer := x.defer.map fun e =>
            if e.arrivalNo == no then { e with blocks := w.blocks, forModel := w.model } else e }) s
        else admitRequest i c d.req (undefer i c no s)

/-- Class-0 requests of every context, in arrival order (R63). -/
def class0Order (m : Mirrored) : List (Nat × Nat) :=
  (sortBy (fun a b => decide (a.2 < b.2)) ((List.range 16).flatMap fun c =>
    ((getCtx m c).defer.filter (·.req.cls == 0)).map fun d => (c, d.arrivalNo)))

/-- The remaining requests by turns: the heads of the contexts' queues, in ascending context number after the one last taken (R63). -/
def turnsFrom (m : Mirrored) (start : Nat) : List (Nat × Nat) :=
  let q (c : Nat) : List Nat := ((getCtx m c).defer.filter (·.req.cls != 0)).map (·.arrivalNo)
  let order := (List.range 16).map fun k => (start + 1 + k) % 16
  let depth := (order.map fun c => (q c).length).foldl max 0
  (List.range depth).flatMap fun k => order.filterMap fun c => (q c)[k]?.map fun no => (c, no)

/-- The demands of every deferred request, in the order of evaluation (R58, R69). -/
def deferDemands (i : InstId) (s : State) : State :=
  let m := mir s i
  (class0Order m ++ turnsFrom m m.foyer.turn).foldl (fun s p => deferDemand i p.1 p.2 s) s

/-- Re-evaluate the deferred requests in order (R63). -/
def reevaluateAll (i : InstId) (s : State) : State :=
  let s := (class0Order (mir s i)).foldl (fun s p => reevaluate i p.1 p.2 s) s
  (turnsFrom (mir s i) (mir s i).foyer.turn).foldl (fun s p => modFoyer i (fun f => { f with turn := p.1 }) (reevaluate i p.1 p.2 s)) s

/-! ### Passing households to composition (R65) -/

/-- A household that the Foyer may pass: its leader's records, all admitted. -/
def passable (x : Inst) (h : Household) : Bool :=
  let all := members x.mir h.id
  let ms := all.filter (·.r.state == .admitted)
  !ms.isEmpty && all.all (·.r.state != .free) && ms.any (fun q => !q.passed) && (getModel x.mir h.model).state == .resident && x.mir.kitchen.turn == .service
    && (let need := (x.mir.seqs.filter (mustBeHot x.mir)).length
        let kept := if h.cls == 0 then 0 else x.mir.foyer.c0Sequences - (x.mir.seqs.filter fun q => q.r.cls == 0 && mustBeHot x.mir q).length
        decide (need + (ms.filter (!·.passed)).length + kept ≤ 65536))

/-- The order of R65. -/
def passBefore (m : Mirrored) (a b : Household) : Bool :=
  let ra := (getSeq m a.leader)
  let rb := (getSeq m b.leader)
  decide (a.cls < b.cls) || (a.cls == b.cls &&
    (decide (ra.r.deadlineTick < rb.r.deadlineTick) || (ra.r.deadlineTick == rb.r.deadlineTick &&
      (decide (ra.admitNo < rb.admitNo) || (ra.admitNo == rb.admitNo && decide (a.leader < b.leader))))))

/-- Pass one household: its members are warmed; a member whose prompt has one token and whose start state has FORCE enters DECODING (R65, spec/10 R227). -/
def passHouse (i : InstId) (h : Household) (s : State) : State :=
  let ms := ((members (mir s i) h.id).filter fun q => q.r.state == .admitted && !q.passed).map (·.r.localId)
  let s := ringPush i 2 0x022 2 0 [(getSeq (mir s i) h.leader).r.hostTag, h.context, 0, 0] s
  ms.foldl (fun s l => postSeq i l (.warm 4) (modSeq i l (fun q => { q with passed := true }) s)) s

/-- Pass the households that may be passed, in order (R65). -/
def passAll (i : InstId) (s : State) : State :=
  (sortBy (passBefore (mir s i)) (mir s i).households).foldl (fun s h => if passable (getInst s i) h then passHouse i h s else s) s

end Sys2Proof.Machine
end

