-- ==== Sys2Proof/Machine/Plans.lean ====
section
/-! DEFINITION. Constrained decoding plans (spec/10): reading and validating an image, masks, transitions, the walk. -/

namespace Sys2Proof.Machine

open Sys2Proof

/-! ### The image (R218-R221) -/

/-- A plan image as R218 lays it out, its sections read where the header says. -/
def parsePlan (b : List Byte) : Plan :=
  let vocab := fld b 0x08 4
  let nS := fld b 0x10 4
  let nM := fld b 0x14 4
  let nT := fld b 0x18 4
  let so := fld b 0x28 8
  { planId := fld b 0x06 2, vocab := vocab, classCount := fld b 0x0C 2,
    classMap := unwords b (fld b 0x20 8) 2 vocab,
    states := (List.range nS).map fun k =>
      let o := so + 16 * k
      { domain := fld b o 2, band0 := fld b (o + 2) 2, band1 := fld b (o + 4) 2, band2 := fld b (o + 6) 2,
        transBase := fld b (o + 8) 4, word := fld b (o + 12) 4 },
    masks := (List.range nM).map fun k => fld b (fld b 0x30 8 + 512 * k) 512,
    trans := unwords b (fld b 0x38 8) 4 nT, check := fld b 0x40 4 }

/-- The four sections of a header as (offset, size). -/
def planSections (b : List Byte) : List (Nat × Nat) :=
  [(fld b 0x20 8, 2 * fld b 0x08 4), (fld b 0x28 8, 16 * fld b 0x10 4), (fld b 0x30 8, 512 * fld b 0x14 4), (fld b 0x38 8, 4 * fld b 0x18 4)]

/-- No two of the sections overlap; empty ones overlap nothing. -/
def disjointAll : List (Nat × Nat) → Bool
  | [] => true
  | x :: xs => xs.all (fun y => decide (x.2 = 0 ∨ y.2 = 0 ∨ x.1 + x.2 ≤ y.1 ∨ y.1 + y.2 ≤ x.1)) && disjointAll xs

def stForce (st : PlanState) : Bool := tbit st.word 26
def stPause (st : PlanState) : Bool := tbit st.word 25
def stAcceptEnd (st : PlanState) : Bool := tbit st.word 24
def forceToken (st : PlanState) : Nat := st.word % 2 ^ 20

/-- The transition entry of a state on a class, if it exists (R220). -/
def transOf (p : Plan) (st : PlanState) (cls : Nat) : Option Nat :=
  let dom := p.masks.getD st.domain 0
  if tbit dom cls then some (p.trans.getD (st.transBase + popCount cls dom) 0) else none

/-- Take a transition at a nesting count: the next state and count (R220). -/
def takeTrans (t nest : Nat) : Option (Nat × Nat) :=
  let guardOk := match bits t 19 18 with | 0 => true | 1 => decide (nest = 0) | 2 => decide (1 ≤ nest) | _ => false
  if !guardOk then none
  else match bits t 17 16 with
    | 0 => some (bits t 15 0, nest)
    | 1 => if nest < 255 then some (bits t 15 0, nest + 1) else none
    | 2 => if 0 < nest then some (bits t 15 0, nest - 1) else none
    | _ => none

/-- The step of a plan on a token (R226). -/
def planStep (p : Plan) (st nest tok : Nat) : Option (Nat × Nat) :=
  match p.states[st]?, p.classMap[tok]? with
  | some e, some c => (transOf p e c).bind fun t => takeTrans t nest
  | _, _ => none

/-- Check 9 of R221 on a FORCE state. -/
def forceOk (p : Plan) (st : PlanState) : Bool :=
  let t := forceToken st
  match p.classMap[t]? with
  | none => false
  | some c =>
    decide (t < p.vocab) && decide ((p.classMap.filter (· == c)).length = 1)
      && [st.band0, st.band1, st.band2].all (fun b => p.masks.getD b 0 == 2 ^ c)
      && (match transOf p st c with
          | none => false
          | some tr => (takeTrans tr 0).isSome && (takeTrans tr 1).isSome && (takeTrans tr 254).isSome && (takeTrans tr 255).isSome)

/-- The first check of R221 that fails; 0 where every one holds. -/
def planFails (id size : Nat) (b : List Byte) : Nat :=
  let nS := fld b 0x10 4
  let nM := fld b 0x14 4
  let nT := fld b 0x18 4
  let nC := fld b 0x0C 2
  let c1 := fld b 0 4 == 0x4E414C50 && fld b 4 2 == 1 && fld b 6 2 == id && fld b 0x1C 4 == size
    && decide (1 ≤ fld b 8 4 ∧ fld b 8 4 ≤ 1048576) && decide (1 ≤ nC ∧ nC ≤ 4096) && decide (1 ≤ nS ∧ nS ≤ 65536)
    && decide (1 ≤ nM ∧ nM ≤ 65536) && decide (nT ≤ 16777216) && zeros (slice b 0x0E 2) && zeros (slice b 0x44 188)
  if !c1 then 1
  else
    let secs := planSections b
    if !(secs.all (fun x => x.1 % 64 == 0 && decide (0x100 ≤ x.1) && decide (x.1 + x.2 ≤ size)) && disjointAll secs) then 2
    else if crc32c (zeroAt (slice b 0 size) 0x40 4) != fld b 0x40 4 then 3
    else
      let p := parsePlan b
      if !(p.classMap.all fun c => decide (c < nC)) then 4
      else if !(p.states.all (fun s => decide (s.domain < nM ∧ s.band0 < nM ∧ s.band1 < nM ∧ s.band2 < nM))
            && p.masks.all fun m => decide (m < 2 ^ nC)) then 5
      else if !(p.states.all fun s => decide (s.transBase + popCount 4096 (p.masks.getD s.domain 0) ≤ nT)
            && bits s.word 23 20 == 0 && bits s.word 31 27 == 0) then 6
      else if !(p.trans.all fun t => decide (bits t 15 0 < nS) && bits t 17 16 != 3 && bits t 19 18 != 3 && bits t 31 20 == 0) then 7
      else if !(p.states.all fun s => !(stForce s && (stPause s || stAcceptEnd s))) then 8
      else if !(p.states.all fun s => !stForce s || forceOk p s) then 9
      else 0

/-! ### Masks and walks (R222, R226) -/

/-- The band mask of a state at a nesting count (R222). -/
def bandMask (p : Plan) (st nest : Nat) : Nat :=
  match p.states[st]? with
  | none => 0
  | some e => p.masks.getD (if nest = 0 then e.band0 else if nest = 255 then e.band2 else e.band1) 0

/-- Is the record's present plan state a FORCE state? Only a resident plan shows it. -/
def forceState (m : Mirrored) (r : Record) : Option Nat :=
  if !r.planValid then none
  else match residentPlan m r.planId with
    | none => none
    | some p => (p.states[r.planState]?).bind fun st => if stForce st then some (forceToken st) else none

/-- The plan faults that composition detects (R229): the vocabulary, the state. -/
def planFault (m : Mirrored) (r : Record) : Bool :=
  r.planValid && match residentPlan m r.planId with
    | none => !registered m r.planId
    | some p => decide (p.states.length ≤ r.planState) ||
        ((epochOf (getModel m r.model) r.epoch).map (·.vocab)) != some p.vocab

/-- The state and count after a list of tokens, none on a fault (R226, R228). -/
def walkAll (p : Plan) : Nat → Nat → List Nat → Option (Nat × Nat)
  | st, n, [] => some (st, n)
  | st, n, t :: ts => (planStep p st n t).bind fun x => walkAll p x.1 x.2 ts

end Sys2Proof.Machine
end

