-- ==== Sys2Proof/Machine/Append.lean ====
section
/-! DEFINITION. Appending tokens to a trail (spec/02 R43, R44, R48-R50, R53): entries, auxiliary entries, stop conditions, plan states, PROGRESS. -/

namespace Sys2Proof.Machine

open Sys2Proof

def Source.code : Source → Nat
  | .sampled => 0 | .forced => 1 | .extend => 2 | .draftAccepted => 3 | .residual => 4 | .bonus => 5

/-- A token to append, with its outputs and, where a plan walk noted them, the state and count after it. -/
structure Tok where
  src : Source
  out : RowOut
  note : Option (Nat × Nat) := none
  deriving DecidableEq, Repr

/-- The flags of a trail entry (R48). -/
def entryFlags (src : Source) (stop cross masked pause : Bool) : Nat :=
  src.code + 8 * bit stop + 16 * bit cross + 32 * bit masked + 64 * bit pause

/-- A trail entry's 16 bytes (R48). -/
def entryBytes (t epoch flags : Nat) (b p : F32) : List Byte :=
  leBytes 4 t ++ leBytes 2 epoch ++ leBytes 2 flags ++ leBytes 4 b.toNat ++ leBytes 4 p.toNat

/-- An auxiliary entry's bytes (R50): entropy, count, pairs, for a stride fixed by N. -/
def auxBytes (n : Nat) (ent : F32) (top : List (Nat × F32)) : List Byte :=
  let t := top.take n
  slice (leBytes 4 ent.toNat ++ leBytes 4 t.length ++ t.flatMap fun x => leBytes 4 x.1 ++ leBytes 4 x.2.toNat) 0 (auxStride n)

/-- What the flags of the noted plan state say: PAUSE, ACCEPT_END. -/
def noteFlags (p : Option Plan) (note : Option (Nat × Nat)) : Bool × Bool :=
  match p, note with
  | some p, some n => match p.states[n.1]? with
    | some st => (stPause st, stAcceptEnd st)
    | none => (false, false)
  | _, _ => (false, false)

/-- How an append ends (R43): the reason of a FINISHED, or a pause. -/
inductive AppendEnd where
  | none
  | finish (reason : Nat)
  | pause
  deriving DecidableEq, Repr

/-- The first condition of R43 that holds after an append. -/
def stopTest (hbm : Mem) (r : Record) (tok : Nat) (pause acceptEnd : Bool) : AppendEnd :=
  if (r.stopTokens.take r.stopTokenCount).contains tok then .finish reasonStopToken
  else if stopSeqHit hbm r then .finish reasonStopSequence
  else if acceptEnd then .finish reasonPlanEnd
  else if r.newTokens = r.maxNewTokens then .finish reasonLength
  else if r.committedLen = r.trailCapacity then .finish reasonTrailFull
  else if pause then .pause
  else .none

/-- The state of an append in progress: the state, the entries' bytes so far, how it ends. -/
structure Appending where
  s : State
  bytes : List Byte := []
  aux : List Byte := []
  n : Nat := 0
  sources : List Source := []
  fin : AppendEnd := .none

/-- Append one model token: its record fields, its entry, its auxiliary entry, its stop test (R43, R44, R48, R50, R241). -/
def appendOne (i : InstId) (lid : Nat) (p : Option Plan) (masked ent : Bool) (topN : Nat) (a : Appending) (t : Tok) : Appending :=
  match a.fin with
  | .none =>
    let q := seqOf a.s i lid
    let (pause, acceptEnd) := noteFlags p t.note
    let idx := q.r.committedLen
    let r1 := pushRecent t.out.token q.r
    let r2 : Record := { r1 with
      committedLen := idx + 1
      newTokens := q.r.newTokens + 1
      planState := (t.note.map (·.1)).getD q.r.planState
      nest := (t.note.map (·.2)).getD q.r.nest }
    let fin := stopTest a.s.hbm r2 t.out.token pause acceptEnd
    let stop := fin == .finish reasonStopToken || fin == .finish reasonStopSequence
    let has := t.src != .forced
    let eb := entryBytes t.out.token q.r.epoch (entryFlags t.src stop q.crossPending (masked && has) pause)
      (if has then t.out.behaviour else 0) (if has then t.out.policy else 0)
    let ab := if q.r.auxAddr = 0 then [] else
      auxBytes q.auxTopN (if has && ent then t.out.entropy else 0) (if has then t.out.top.take topN else [])
    let s := modSeq i lid (fun q => { q with r := r2, crossPending := false }) a.s
    let s := hbmPut (q.r.trailAddr + 16 * idx) eb s
    let s := if q.r.auxAddr = 0 then s else hbmPut (q.r.auxAddr + auxStride q.auxTopN * idx) ab s
    { s := s, bytes := a.bytes ++ eb, aux := a.aux ++ ab, n := a.n + 1, sources := a.sources ++ [t.src], fin := fin }
  | _ => a

/-- Append the tokens of a commit in order, to the first that ends or pauses the sequence (R43). -/
def appendAll (i : InstId) (lid : Nat) (toks : List Tok) (s : State) : Appending :=
  let q := seqOf s i lid
  let m := mir s i
  let rc := (findRecipe m q.r.recipe).getD {}
  let p := if q.r.planValid then residentPlan m q.r.planId else none
  toks.foldl (appendOne i lid p (rc.policyPlanMask && q.r.planValid) rc.entropy rc.topN) { s := s }

/-- The next PROGRESS mark above a length (R53). -/
def nextMark (interval len : Nat) : Nat := if interval = 0 then 0 else (len / interval + 1) * interval

/-- PROGRESS is due at a length (R53). -/
def progressDue (r : Record) : Bool := r.progressInterval != 0 && decide (r.nextProgress ≤ r.committedLen)

/-- Post a PROGRESS record where one is due, and move the mark (R53). -/
def postProgress (i : InstId) (lid : Nat) (s : State) : State :=
  if progressDue (seqOf s i lid).r then
    modRec i lid (fun r => { r with nextProgress := nextMark r.progressInterval r.committedLen }) (postSeqRecord i lid 1 0 false s)
  else s

/-- The end of a commit or of a forced run: FINAL, PAUSE or PROGRESS (R40, R43, R53); a commit that pauses posts no PROGRESS and leaves its mark (DESIGN CHOICE, log 92). -/
def endAppend (i : InstId) (lid : Nat) (fin : AppendEnd) (s : State) : State :=
  match fin with
  | .finish reason => endSeq i lid .finished reason s
  | .pause => postSeqRecord i lid 2 0 false (enterState i lid .paused s)
  | .none => postProgress i lid s

/-! ### The penalty window (spec/06 R133, R134) -/

/-- Source code 2: EXTEND. -/
def isExtend (flags : Nat) : Bool := flags % 8 == 2

/-- The tokens of the counted entries of a window, `n` entries from trail index `k` (spec/06 R133). -/
def windowTokens (hbm : Mem) (addr : Nat) (withExtend : Bool) (k n : Nat) : List Nat :=
  (List.range n).filterMap fun j =>
    let a := addr + 16 * (k + j)
    if isExtend (leNat (memGets hbm (a + 6) 2)) && !withExtend then none else some (leNat (memGets hbm a 4) % 2 ^ 20)

/-- Stage 2 of the advance: one entry at a time while more than 4,096 distinct tokens are named (spec/06 R134). -/
def windowStart (hbm : Mem) (addr : Nat) (withExtend : Bool) (fin : Nat) : Nat → Nat → Nat
  | 0, k => k
  | fuel + 1, k =>
    if 4096 < (windowTokens hbm addr withExtend k (fin - k)).eraseDups.length then windowStart hbm addr withExtend fin fuel (k + 1) else k

/-- `penalty_start` after appends (spec/06 R134). -/
def penaltyAfter (hbm : Mem) (rc : Recipe) (r : Record) : Nat :=
  let k := max r.penaltyStart (r.committedLen - rc.penaltySpan)
  windowStart hbm r.trailAddr rc.penaliseExtend r.committedLen (r.committedLen - k) k

/-- Advance `penalty_start` once the appends are complete (spec/06 R134). -/
def advancePenalty (i : InstId) (lid : Nat) (s : State) : State :=
  modRec i lid (fun r => { r with penaltyStart := penaltyAfter s.hbm ((findRecipe (mir s i) r.recipe).getD {}) r }) s

/-- Append extend tokens: entries of source EXTEND, the ring cleared, no PROGRESS (R43, R44, R49, R53, R134). -/
def appendExtend (i : InstId) (lid : Nat) (toks : List Nat) (s : State) : State :=
  let s := toks.foldl (fun s t =>
    let q := seqOf s i lid
    let idx := q.r.committedLen
    let eb := entryBytes t q.r.epoch (entryFlags .extend false q.crossPending false false) 0 0
    let s := modSeq i lid (fun q => { q with crossPending := false, r := { q.r with committedLen := idx + 1 } }) s
    let s := hbmPut (q.r.trailAddr + 16 * idx) eb s
    if q.r.auxAddr = 0 then s else hbmPut (q.r.auxAddr + auxStride q.auxTopN * idx) (auxBytes q.auxTopN 0 []) s) s
  let s := watchAppended i lid (advancePenalty i lid s)
  modRec i lid (fun r => clearRecent { r with nextProgress := if progressDue r then nextMark r.progressInterval r.committedLen else r.nextProgress }) s

end Sys2Proof.Machine
end

