-- ==== Sys2Proof/Machine/Peers.lean ====
section
/-! DEFINITION. The Stairwell's operations (spec/16): addresses, messages, error injection, the peer table, roles, transfers and the arrival area. -/

namespace Sys2Proof.Machine

open Sys2Proof

/-! ### Addresses (R336) -/

/-- The peer address of an instance (R336). -/
def peerAddr (x : Inst) : Nat := x.place.node + 2 ^ 13 * ibit x.id

/-- A global sequence id (R336). -/
def globalId (x : Inst) (lid : Nat) : Nat := lid + 2 ^ 22 * ibit x.id + 2 ^ 23 * x.place.node

/-! ### Messages (R340, R341) -/

/-- Message types (R341). -/
def tAnnounce : Nat := 0x01
def tAnnounceReply : Nat := 0x02
def tOffer : Nat := 0x10
def tAccept : Nat := 0x11
def tRefuse : Nat := 0x12
def tData : Nat := 0x13
def tDataAck : Nat := 0x14
def tHandover : Nat := 0x15
def tAck : Nat := 0x16
def tNak : Nat := 0x17
def tAbandon : Nat := 0x18
def tBounce : Nat := 0x1F

/-- The 64-byte header of a message (R340). -/
def headerBytes (m : PeerMsg) : List Byte := layout 64
  [ lf 0x00 1 m.type, lf 0x01 1 m.reason, lf 0x02 2 m.payload.length, lf 0x04 2 m.src, lf 0x06 2 m.dst, lf 0x08 2 m.srcGen,
    lf 0x0A 2 m.dstGen, lf 0x0C 1 m.srcRole, lf 0x0D 1 m.admitReason, lf 0x10 8 m.subject, lf 0x18 4 m.attempt, lf 0x1C 4 m.offset,
    lf 0x20 8 m.peerSubject, lf 0x28 4 m.check ]

/-- A header read from its bytes (R340). -/
def parseHeader (b : List Byte) : PeerMsg :=
  { type := fld b 0 1, reason := fld b 1 1, src := fld b 4 2, dst := fld b 6 2, srcGen := fld b 8 2, dstGen := fld b 10 2,
    srcRole := fld b 12 1, admitReason := fld b 13 1, subject := fld b 16 8, attempt := fld b 24 4, offset := fld b 28 4,
    peerSubject := fld b 32 8, check := fld b 40 4, payload := [] }

/-- CRC-32C of header and payload with `check` as zero (R340). -/
def msgCheck (m : PeerMsg) : Nat := crc32c (headerBytes { m with check := 0 } ++ m.payload)

def hasGen (t : Nat) : Bool := t != tAnnounce && t != tAnnounceReply && t != tBounce

/-- The generation the sender believes a peer holds; 0xFFFF where it does not know (R338). -/
def genOf (x : Inst) (dst : Nat) : Nat := ((x.stair.peers.find? (·.addr == dst)).map (·.gen)).getD 0xFFFF

/-- Node of a peer address. -/
def nodeOf (a : Nat) : Nat := a % 2 ^ 13

/-- The address at which a peer is reached: a twin node at the instance bit of its active instance, by the latest ANNOUNCE (R355). -/
def reachAddr (x : Inst) (a : Nat) : Nat :=
  ((x.stair.peers.filter fun p => nodeOf p.addr == nodeOf a && bits p.flags 1 0 == 3).foldl
    (fun b p => if b.1 ≤ p.lastTick then (p.lastTick, p.addr) else b) (0, a)).2

/-! ### Error injection (R356) -/

/-- The injection class of a type (R356). -/
def injectClass (t : Nat) : Nat :=
  if t == tAnnounce || t == tAnnounceReply then 0 else if t == tData then 2 else if t == tBounce then 3 else 1

/-- The block of the n-th message of a class under the seed: bits [127:96] the class's name, [63:0] n (R356, spec/08 R178). -/
def injectBlock (lo hi : BitVec 64) (k n : Nat) : Nat :=
  let key := (leBytes 8 lo.toNat ++ leBytes 8 hi.toNat).map (·.toNat)
  let t := (0x494E4A00 + k) * 2 ^ 96 + n % 2 ^ 64
  beNat ((aes128 key ((beBytes 16 t).map (·.toNat))).map (BitVec.ofNat 8))

/-- What injection does with a message: drop, corrupt a bit, hold, or nothing (R356). -/
inductive Inject where
  | pass | drop | corrupt (bit : Nat) | hold (after : Nat)
  deriving DecidableEq, Repr

def injectRule (c : InjectClass) (o len : Nat) : Inject :=
  if bits o 15 0 < c.drop then .drop
  else if bits o 31 16 < c.corrupt then .corrupt (bits o 95 64 % (8 * len))
  else if bits o 47 32 < c.reorder then .hold (max c.depth 1)
  else .pass

/-- One more message has gone out: held messages whose turn has come follow it (R356). -/
def passHeld (st : Stairwell) : Stairwell :=
  let h := st.held.map fun x => { x with after := x.after - 1 }
  { st with outbox := st.outbox ++ (h.filter (·.after == 0)).map (·.sent), held := h.filter (·.after != 0) }

/-- Hand a message to the link layer, through injection (R356). -/
def emit (tick : Nat) (m : PeerMsg) (st : Stairwell) : Stairwell :=
  let k := injectClass m.type
  let c := st.classes.getD k {}
  let r := if st.injectEnable then injectRule c (injectBlock st.seedLo st.seedHi k c.count) (64 + m.payload.length) else .pass
  let st := { st with sent := st.sent + 1, classes := modAt st.classes k fun c =>
                { c with count := c.count + 1, injected := if r == .pass then c.injected else satTo 32 (c.injected + 1) } }
  match r with
  | .pass => passHeld { st with outbox := st.outbox ++ [{ msg := m }] }
  | .drop => passHeld st
  | .corrupt b => passHeld { st with outbox := st.outbox ++ [{ msg := m, flip := some b }] }
  | .hold n =>
    let st := passHeld st
    { st with held := st.held ++ [{ sent := { msg := m }, after := n, due := tick + 64 }] }

/-- Send a message: the sender's header fields, the check, the ring entry (R340, R338). -/
def sendMsg (i : InstId) (m : PeerMsg) (s : State) : State :=
  let x := getInst s i
  let m := if hasGen m.type then { m with dst := reachAddr x m.dst } else m
  let m := { m with src := peerAddr x, srcGen := x.stair.roleGen, srcRole := x.stair.role,
                    dstGen := if hasGen m.type then genOf x m.dst else 0, check := 0 }
  let m := { m with check := msgCheck m }
  ringPush i 6 0x026 m.type m.subject (unwords (headerBytes m) 0 8 8) (modStair i (emit s.tick m) s)

/-- A blank message of a type to a peer. -/
def mkMsg (t dst : Nat) : PeerMsg :=
  { type := t, reason := 0, src := 0, dst := dst, srcGen := 0, dstGen := 0, srcRole := 0, admitReason := 0, subject := 0, attempt := 0,
    offset := 0, peerSubject := 0, check := 0, payload := [] }

/-! ### Peer table, announcements, roles (R337, R342, R343) -/

/-- Mask of models in residency states. -/
def modelMask (m : Mirrored) (p : ModelState → Bool) : Nat := maskOf ((List.range 64).filter fun k => p (getModel m k).state)

def openMask (m : Mirrored) : Nat := maskOf ((List.range 16).filter fun c => (getCtx m c).isOpen)

/-! #### The Cellar's layout (spec/17 R371) -/

/-- Offsets of the Cellar's areas from its base, and the arrival area's size. -/
def duskSpillBytes (n : Nat) : Nat := roundUp (4 * 16 * ((n - 262144) + 2048)) 0x10000

def arrivalOffset (aux n : Nat) : Nat := aux + 0x1000000 + 0x2000000 + 0x4000000 + 0x2000000 + duskSpillBytes n

/-- Bytes of the arrival area; 0 where the Cellar has no room for it. -/
def arrivalBytes (x : Inst) : Nat :=
  match look 1 x.place.regions with
  | some r => r.size - arrivalOffset r.aux (localIds x)
  | none => 0

def arrivalBlocks (x : Inst) : Nat := arrivalBytes x / 0x10000

def arrivalBase (x : Inst) : Nat :=
  match look 1 x.place.regions with
  | some r => r.base + arrivalOffset r.aux (localIds x)
  | none => 0

def arrivalFree (x : Inst) : Nat := arrivalBlocks x - sumNat (x.mir.arrivals.map (·.2))

/-- The ANNOUNCE payload (R342). -/
def announcePayload (x : Inst) : List Byte := layout 64
  [ lf 0x00 8 (modelMask x.mir (· == .resident)), lf 0x08 8 (modelMask x.mir fun st => st == .resident || st == .described),
    lf 0x10 2 (openMask x.mir), lf 0x12 1 (bit (!x.place.split) + 2 * bit (!x.place.split && x.rel.active)),
    lf 0x14 4 (arrivalFree x), lf 0x18 4 (localIds x - x.mir.seqs.length), lf 0x1C 4 x.hearth.fwBuild ]

/-- Send an ANNOUNCE to every peer in the table (R343). -/
def announceAll (i : InstId) (s : State) : State :=
  let x := getInst s i
  let s := x.stair.peers.foldl (fun s p => sendMsg i { mkMsg tAnnounce p.addr with payload := announcePayload x } s) s
  modStair i (fun t => { t with lastAnnounce := s.tick, toldResident := BitVec.ofNat 64 (modelMask x.mir (· == .resident)),
                                toldOpen := BitVec.ofNat 16 (openMask x.mir) }) s

/-- Announce a change of the masks, at most once in 1,000 ticks (R343). -/
def announceChange (i : InstId) (s : State) : State :=
  let x := getInst s i
  if running s i && x.stair.lastAnnounce + 1000 ≤ s.tick &&
      (x.stair.toldResident.toNat != modelMask x.mir (· == .resident) || x.stair.toldOpen.toNat != openMask x.mir)
  then announceAll i s else s

/-- The next role generation (R337). -/
def nextGen (n : Nat) : Nat := if n = 0xFFFE then 0 else n + 1

/-- Take a role: the generation rises, and the peers are told (R337, R343). -/
def setRole (i : InstId) (role : Nat) (s : State) : State :=
  if (getInst s i).stair.role = role then s
  else announceAll i (modStair i (fun t => { t with role := role, roleGen := nextGen t.roleGen }) s)

/-- The generation rises without a change of role: a takeover, a restore (R337). -/
def raiseGen (i : InstId) (s : State) : State :=
  announceAll i (modStair i (fun t => { t with roleGen := nextGen t.roleGen }) s)

/-- Addresses the directions table names. -/
def directed (m : Mirrored) : List Nat := (m.directions.flatMap (·.2)).eraseDups

/-- Add a peer: in a free entry, or in place of the one silent longest that the directions table does not name (R343). -/
def addPeer (m : Mirrored) (p : Peer) (l : List Peer) : List Peer :=
  if l.any (·.addr == p.addr) then l
  else if l.length < 1024 then l ++ [p]
  else
    match (l.filter fun q => !(directed m).contains q.addr).foldl (fun b q => match b with
        | none => some q
        | some o => if q.lastTick < o.lastTick then some q else some o) none with
    | some o => (l.filter (· != o)) ++ [p]
    | none => l

/-- Record a peer's role and generation (R338, R339, R342). -/
def notePeer (i : InstId) (addr role gen : Nat) (s : State) : State :=
  let m := mir s i
  modStair i (fun t => { t with peers := (addPeer m { addr := addr } t.peers).map fun p =>
    if p.addr == addr then { p with role := role, gen := gen } else p }) s

/-! ### Transfers (R347-R353) -/

/-- Bytes of the parts of a migration, by part (R347, R350). -/
def partBytes (x : Inst) (q : Seq) (kvPages : Nat) : List (Nat × Nat) :=
  [(0, 512), (1, 4 * q.r.promptLen), (2, if q.r.stopSeqCount = 0 then 0 else 640), (3, 16 * q.r.committedLen),
   (4, if q.r.auxAddr = 0 then 0 else auxStride q.auxTopN * q.r.committedLen), (5, kvPages * 2 ^ frameLog2 x)]

/-- A part in DATA chunks of at most 4,032 bytes (R340). -/
def partChunks (part size : Nat) : List Chunk :=
  (List.range (ceilDiv size 4032)).map fun k => { part := part, offset := 4032 * k, length := min 4032 (size - 4032 * k) }

/-- The KV part in DATA chunks: page by page, so that none crosses a frame (R350). -/
def kvChunks (frame pages : Nat) : List Chunk :=
  (List.range pages).flatMap fun p => (partChunks 5 frame).map fun c => { c with offset := p * frame + c.offset }

/-- Pages offered: ceil(kv_len / P), 0 without WITH_KV (R347); only valid KV moves (R354). -/
def kvPagesOf (q : Seq) (withKv : Bool) : Nat := if withKv && q.r.kvState == .valid then ceilDiv q.r.kvLen (pageP q.r) else 0

/-- The OFFER payload (R347). -/
def offerPayload (kind : Nat) (withKv : Bool) (x : Inst) (ctx prompt trail aux stop pages recipeCheck planCheck epoch tag vocab : Nat) : List Byte :=
  layout 128
    [ lf 0x00 1 kind, lf 0x01 1 (bit withKv), lf 0x02 1 (frameLog2 x), lf 0x03 1 ctx, lf 0x04 4 prompt, lf 0x08 4 trail, lf 0x0C 4 aux,
      lf 0x10 4 stop, lf 0x14 4 pages, lf 0x18 4 recipeCheck, lf 0x1C 4 planCheck, lf 0x20 2 epoch, lf 0x22 2 tag, lf 0x24 4 vocab ]

/-- A registered plan's image check, as the header in HBM gives it (R347, spec/10 R218). -/
def planCheckOf (s : State) (m : Mirrored) (id : Nat) : Nat :=
  match m.lib.registry.find? (·.id == id) with
  | some p => leNat (memGets s.hbm (p.addr + 0x40) 4)
  | none => 0

/-- The descriptor a forward offers: the context's seed stands in for a missing one (R346). -/
def forwardReq (m : Mirrored) (c : Nat) (r : Request) : Request :=
  if r.seedGiven then r else { r with seedGiven := true, seed := (getCtx m c).cfg.seed }

def findOut (m : Mirrored) (subject : Nat) : Option OutXfer := m.outXfers.find? (·.subject == subject)

/-- Two peer addresses name one origin: the same address, or the two instances of a twin node (R336, R355). -/
def sameOrigin (x : Inst) (a b : Nat) : Bool :=
  a == b || (nodeOf a == nodeOf b && x.stair.peers.any fun p => nodeOf p.addr == nodeOf a && tbit p.flags 0)

/-- An incoming transfer is the one that a message of origin, subject and attempt names (R341). -/
def namesIn (x : Inst) (src subject attempt : Nat) (t : InXfer) : Bool :=
  t.subject == subject && t.attempt == attempt && sameOrigin x t.src src

/-- The incoming transfer that a message names: the open one, else the one handed over latest (R341; a subject comes again when its local id has been used again, log 46). -/
def findIn (x : Inst) (src subject attempt : Nat) : Option InXfer :=
  (x.mir.inXfers.find? fun t => namesIn x src subject attempt t && !t.handedOver).or (x.mir.inXfers.find? (namesIn x src subject attempt))

/-- The same entry of the table of incoming transfers. -/
def sameIn (t u : InXfer) : Bool := u.subject == t.subject && u.attempt == t.attempt && u.src == t.src && u.handedOver == t.handedOver

def modOut (i : InstId) (subject : Nat) (f : OutXfer → OutXfer) (s : State) : State :=
  modMir i (fun m => { m with outXfers := m.outXfers.map fun t => if t.subject == subject then f t else t }) s

def modIn (i : InstId) (t : InXfer) (f : InXfer → InXfer) (s : State) : State :=
  modMir i (fun m => { m with inXfers := m.inXfers.map fun u => if sameIn t u then f u else u }) s

/-- Note a message as sent under a generation (R339). -/
def noteTold (e : SentAs) (l : List SentAs) : List SentAs :=
  l.filter (fun y => !(y.type == e.type && y.part == e.part && y.offset == e.offset)) ++ [e]

/-- The message is one that has been sent again already under the generation `gen` (R339, R358). -/
def toldAlready (h : PeerMsg) (gen : Nat) (l : List SentAs) : Bool := l.contains { type := h.type, part := h.reason, offset := h.offset, gen := gen }

/-- A message as it goes out now to where its peer is reached (R338, R355). -/
def sentAs (x : Inst) (m : PeerMsg) : SentAs := { type := m.type, part := m.reason, offset := m.offset, gen := genOf x (reachAddr x m.dst) }

/-- Send a message of an outgoing transfer. -/
def sendOut (i : InstId) (m : PeerMsg) (s : State) : State :=
  let e := sentAs (getInst s i) m
  sendMsg i m (modOut i m.subject (fun t => { t with told := noteTold e t.told }) s)

/-- Send a message of an incoming transfer. -/
def sendIn (i : InstId) (t : InXfer) (m : PeerMsg) (s : State) : State :=
  let e := sentAs (getInst s i) m
  sendMsg i m (modIn i t (fun u => { u with told := noteTold e u.told }) s)

/-- A message of an outgoing transfer. -/
def xferMsg (t : OutXfer) (ty : Nat) : PeerMsg :=
  { mkMsg ty t.dst with subject := t.subject, attempt := t.attempt, peerSubject := t.peerSubject }

/-- Send the OFFER of a transfer (R347). -/
def sendOffer (i : InstId) (t : OutXfer) (s : State) : State :=
  let x := getInst s i
  let m := x.mir
  if t.forward then
    match t.req with
    | none => s
    | some r =>
      let v := ((getModel m r.model).committed.map (·.vocab)).getD 0
      let rc := (findRecipe m r.recipe).getD {}
      sendOut i { xferMsg t tOffer with
        payload := offerPayload 1 false x t.context (4 * r.promptLen) 0 0 (if r.stopSeqCount = 0 then 0 else 640) 0 rc.check
          (if r.planValid then planCheckOf s m r.planId else 0) 0xFFFF 0 v } s
  else
    let q := getSeq m t.lid
    let ep := (epochOf (getModel m q.r.model) q.r.epoch).getD {}
    let rc := (findRecipe m q.r.recipe).getD {}
    let size (p : Nat) : Nat := (look p (partBytes x q 0)).getD 0
    sendOut i { xferMsg t tOffer with
      payload := offerPayload 0 t.withKv x t.context (size 1) (size 3) (size 4) (size 2) (kvPagesOf q t.withKv) rc.check
        (if q.r.planValid then planCheckOf s m q.r.planId else 0) q.r.epoch q.r.layoutTag ep.vocab } s

/-- The record as it is sent: with its effective seed (spec/08 R176). -/
def sentRecord (m : Mirrored) (r : Record) : Record :=
  if r.seedGiven then r else { r with seed := (getCtx m r.context).cfg.seed }

/-- The bytes of a chunk as they stand at the source (R350). -/
def chunkData (s : State) (i : InstId) (t : OutXfer) (c : Chunk) : List Byte :=
  let x := getInst s i
  match t.req with
  | some r =>
    match c.part with
    | 0 => slice (requestBytes (forwardReq x.mir t.context r)) c.offset c.length
    | 1 => memGets s.hbm (r.promptAddr + c.offset) c.length
    | _ => memGets s.hbm (r.stopBlockAddr + c.offset) c.length
  | none =>
    let q := getSeq x.mir t.lid
    match c.part with
    | 0 => slice (recordBytes (sentRecord x.mir q.r)) c.offset c.length
    | 1 => memGets s.hbm (q.r.promptAddr + c.offset) c.length
    | 2 => memGets s.hbm (q.r.stopBlockAddr + c.offset) c.length
    | 3 => memGets s.hbm (q.r.trailAddr + c.offset) c.length
    | 4 => memGets s.hbm (q.r.auxAddr + c.offset) c.length
    | _ =>
      let f := 2 ^ frameLog2 x
      let page := ((q.pages[c.offset / f]?).map (·.page)).getD 0
      memGets s.hbm (((look 4 x.place.regions).map (·.base)).getD 0 + page * f + c.offset % f) c.length

/-- Send the unacknowledged DATA of a transfer (R347, R350). -/
def sendData (i : InstId) (t : OutXfer) (s : State) : State :=
  (t.chunks.filter (!·.acked)).foldl (fun s c =>
    sendOut i { xferMsg t tData with reason := c.part, offset := c.offset, payload := chunkData s i t c } s) s

/-- Send HANDOVER with the final record or descriptor (R341, R351). -/
def sendHandover (i : InstId) (t : OutXfer) (s : State) : State :=
  let body := match t.req with
    | some r => requestBytes (forwardReq (mir s i) t.context r)
    | none => recordBytes (sentRecord (mir s i) (chargeSeq (seqOf s i t.lid)).r)
  sendOut i { xferMsg t tHandover with payload := body } s

/-- Send what a transfer has unacknowledged at its stage (R350, R351). -/
def resend (i : InstId) (t : OutXfer) (s : State) : State :=
  match t.stage with
  | .offered => sendOffer i t s
  | .data => sendData i t s
  | .handover => sendHandover i t s
  | .failed => s

/-- Close an outgoing transfer, done or failed (R357); its TRANSFER entry is staged (spec/17 R374). -/
def closeOut (i : InstId) (t : OutXfer) (ok : Bool) (s : State) : State :=
  let s := modMir i (fun m => { m with outXfers := m.outXfers.filter (·.subject != t.subject) }) s
  let s := modStair i (fun st => if ok then { st with transfersDone := satTo 32 (st.transfersDone + 1) }
                                 else { st with transfersFailed := satTo 32 (st.transfersFailed + 1) }) s
  let s := if t.forward then s else duskClear i 3 t.lid (duskClear i 1 t.lid s)
  journal i [.transferOut t false] s

/-- The source abandons a transfer before HANDOVER: ABANDON once (R350). -/
def abandonOut (i : InstId) (t : OutXfer) (s : State) : State := closeOut i t false (sendMsg i (xferMsg t tAbandon) s)

/-- A transfer of a sequence that is open at its source. -/
def outOfSeq (m : Mirrored) (lid : Nat) : Option OutXfer := m.outXfers.find? fun t => !t.forward && t.lid == lid

/-- An event ends a sequence whose transfer has not been handed over: the transfer is abandoned and MIGRATE's result written (R350, R352). -/
def abandonFor (i : InstId) (lid : Nat) (s : State) : State :=
  match outOfSeq (mir s i) lid with
  | none => s
  | some t =>
    let s := abandonOut i t s
    match t.cmd with
    | some c => finishCmd i c rWrongState 0 [] s
    | none => s

/-- The destination discards an arrival: its space and its local id are free again (R350). -/
def discardIn (i : InstId) (t : InXfer) (s : State) : State :=
  let s := freeArrival i t.arrival s
  let s := t.kvPages.foldl (fun s p => modMir i (unref p) s) s
  let s := modMir i (fun m => { m with inXfers := m.inXfers.filter fun u => !sameIn t u }) s
  let s := if t.forward then s else
    [1, 3].foldl (fun s l => duskClear i l t.lid s)
      (modMir i (fun m => { m with seqs := m.seqs.filter fun q => !(q.r.localId == t.lid && (q.r.state == .migrating || q.r.state == .free)),
                                   households := m.households.filter fun h => !(h.leader == t.lid && h.unalloc == 0 && (members m h.id).all (·.r.state == .migrating)) }) s)
  let s := modStair i (fun st => { st with transfersFailed := satTo 32 (st.transfersFailed + 1) }) s
  journal i [.transferIn t false] s

/-! ### Migration's start, and the events that waited for a row (R352, spec/02 R42) -/

/-- R352's conditions at the event. -/
def migrateOpens (x : Inst) (r : Record) (dst : Nat) : Bool :=
  (r.state == .decoding || r.state == .parked || r.state == .paused) && !(r.leader && decide (1 < r.liveMembers))
    && x.mir.kitchen.turn == .service && dst != peerAddr x

/-- Open the transfer of a sequence (R352); a cold record is warmed, and its plan claimed (spec/10 R217). -/
def openTransfer (i : InstId) (lid cmd : Nat) (withKv : Bool) (dst : Nat) (s : State) : State :=
  let x := getInst s i
  let st := x.stair
  let s := dropDraft i lid s
  let s := modRec i lid (fun r => { r with migrateSeqno := wrapTo 32 (r.migrateSeqno + 1), returnState := r.state }) s
  let s := enterState i lid .migrating (claimOwn i lid (warmRecord i lid s))
  let r := (seqOf s i lid).r
  let t : OutXfer := { subject := globalId x lid, attempt := r.migrateSeqno, forward := false, lid := lid, context := r.context, dst := dst,
                       withKv := withKv, lastProgress := s.tick, cmd := some cmd }
  let s := modMir i (fun m => { m with outXfers := m.outXfers ++ [t] }) s
  let s := duskSet i 3 lid (s.tick + st.timeoutTicks) (duskSet i 1 lid (s.tick + st.retryTicks) s)
  recordDone i lid (journal i [.transferOut t true] (sendOffer i t s))

/-- `migrate_out` where no row is in flight: refused, or the transfer opens (R352). -/
def startMigration (i : InstId) (lid cmd : Nat) (withKv : Bool) (dst : Nat) (s : State) : State :=
  let x := getInst s i
  if !migrateOpens x (seqOf s i lid).r dst then finishCmd i cmd rWrongState 0 [] s
  else if 64 ≤ x.mir.outXfers.length then finishCmd i cmd rFull 1 [] s
  else openTransfer i lid cmd withKv dst s

/-- `migrate_out` (R352): where a row is in flight it waits for the row's commit or kill, which applies it (`applyWaiting`). -/
def applyMigrateOut (i : InstId) (lid cmd : Nat) (withKv : Bool) (dst : Nat) (s : State) : State :=
  let x := getInst s i
  if !migrateOpens x (seqOf s i lid).r dst then finishCmd i cmd rWrongState 0 [] s
  else if inFlight x.mir lid then modSeq i lid (fun q => { q with waiting := q.waiting ++ [.migrateOut cmd withKv dst] }) s
  else startMigration i lid cmd withKv dst s

/-- A live sequence ends by an event that waited; a transfer that an earlier one opened is abandoned (R350). -/
def endWaiting (i : InstId) (lid : Nat) (st : SeqState) (reason : Nat) (s : State) : State :=
  if (seqOf s i lid).r.state.live then endSeq i lid st reason (abandonFor i lid s) else s

/-- The events that waited for a row's commit or kill are applied by it, in order, `migrate_out` with its OFFER among them (spec/02 R42, R352). -/
def applyWaiting (i : InstId) (lid : Nat) (s : State) : State :=
  match findSeq (mir s i) lid with
  | none => s
  | some q =>
    let s := modSeq i lid (fun q => { q with waiting := q.waiting.filter fun w => match w with | .extend .. => true | _ => false }) s
    q.waiting.foldl (fun s w =>
      match w with
      | .cancel _ => endWaiting i lid .aborted reasonCancel s
      | .wall => endWaiting i lid .finished reasonWall s
      | .epochAbort => endWaiting i lid .aborted reasonEpochAbort s
      | .park wake _ => if (seqOf s i lid).r.state.composed then parkSeq i lid false wake s else s
      | .migrateOut cmd withKv dst => startMigration i lid cmd withKv dst s
      | .extend .. => s) s

/-! ### Forwarding (R345, R346) -/

/-- The arrival size of a request in blocks (R349). -/
def arrivalNeed (prompt stop trailCap stride siblings : Nat) : Nat :=
  ceilDiv (roundUp prompt 64 + roundUp stop 64 + siblings * (roundUp (16 * trailCap) 64 + roundUp (stride * trailCap) 64)) 0x10000

/-- The auxiliary stride a recipe writes, 0 where it writes none (R349, spec/02 R50). -/
def recipeStride (rc : Recipe) : Nat := if rc.entropy || 0 < rc.topN then auxStride rc.topN else 0

/-- The first candidate for a request of a context in its model's directions list (R345). -/
def forwardTo (x : Inst) (tick c : Nat) (d : Deferred) : Option Nat :=
  let m := x.mir
  let rc := (findRecipe m d.req.recipe).getD {}
  let need := arrivalNeed (4 * d.req.promptLen) (if d.req.stopSeqCount = 0 then 0 else 640) d.req.trailCapacity (recipeStride rc) d.req.siblings
  ((look d.req.model m.directions).getD []).find? fun a =>
    (match look a d.offered with | some t => decide (t + 1000 ≤ tick) | none => true) &&
    match x.stair.peers.find? (·.addr == reachAddr x a) with
    | some p => p.reachable && p.role == 1 && p.resident.getLsbD d.req.model && p.opens.getLsbD c && decide (need ≤ p.arrivalFree)
    | none => false

/-- Offer a deferred request, deferred only for its model, to a peer (R345, R346). -/
def offerForward (i : InstId) (c no : Nat) (s : State) : State :=
  let x := getInst s i
  match (getCtx x.mir c).defer.find? (·.arrivalNo == no) with
  | none => s
  | some d =>
    let w := deferWhy x c no d.req
    if d.fwd.isSome || !w.model || { w with model := false }.any || 64 ≤ x.mir.outXfers.length || x.stair.role != 1 then s
    else match forwardTo x s.tick c d with
      | none => s
      | some a =>
        let n := x.mir.nextForward
        let t : OutXfer := { subject := n + 2 ^ 63, attempt := 0, forward := true, context := c, dst := a, lastProgress := s.tick, req := some d.req }
        let s := modMir i (fun m => { m with nextForward := wrapTo 32 (n + 1), outXfers := m.outXfers ++ [t] }) s
        let s := modCtx i c (fun y => { y with defer := y.defer.map fun e =>
          if e.arrivalNo == no then { e with fwd := some n, blocks := false, offered := put a s.tick e.offered } else e }) s
        deferTimer i c (ringPush i 2 0x022 1 0 [d.req.hostTag, c, 3, a] (sendOffer i t (journal i [.transferOut t true] s)))

/-- Offer every deferred request that may go to a peer (R345). -/
def offerForwards (i : InstId) (s : State) : State :=
  (List.range 16).foldl (fun s c => ((getCtx (mir s i) c).defer.map (·.arrivalNo)).foldl (fun s no => offerForward i c no s) s) s

/-! ### New requests (spec/03 R54, R55, R62) -/

/-- The stop block of a descriptor as HBM holds it (spec/02 R32, R33). -/
def stopOf (s : State) (r : Request) : List Byte := if r.stopSeqCount = 0 then [] else memGets s.hbm r.stopBlockAddr 640

/-- A request that the Foyer evaluates for the first time: rejected, admitted, offered to a peer, or deferred; during a close every one is rejected (spec/03 R54, R55, R58; R345; spec/14 R302). -/
def newRequest (i : InstId) (c : Nat) (r : Request) (s : State) : State :=
  let x := getInst s i
  let no := x.mir.foyer.nextArrival
  let reject (reason : Nat) : State := ringPush i 2 0x022 1 0 [r.hostTag, c, 2, reason] (postReject i c r reason s)
  if (getCtx x.mir c).closing then reject 32
  else if badRequest x.mir r (stopOf s r) then reject 64
  else match refusal x s.tick c r with
    | some reason => reject reason
    | none =>
      let w := deferWhy x c no r
      let s := modFoyer i (fun f => { f with nextArrival := no + 1 }) s
      if w.any then deferDemand i c no (offerForward i c no (defer i c no r w s)) else admitRequest i c r s

/-- The request of a forward that was handed over stands in the Foyer's defer queue, in ADMITTED records, or has its outcome (R351). -/
def forwardEntered (m : Mirrored) (t : InXfer) : Bool :=
  !t.forward || (!(m.foyer.forwarded.any fun p => p.1 == t.context && p.2.promptAddr == t.promptAddr)
    && !(m.seqs.any fun q => q.r.state == .free && q.r.promptAddr == t.promptAddr))

/-- A handed-over forward whose request has now entered, by the address of its prompt: its TRANSFER entry is staged behind what the entry staged, and its ACK waits for all of it (R351). -/
def ackPoint (i : InstId) (addr : Nat) (s : State) : State :=
  match (mir s i).inXfers.find? (fun t => t.forward && t.handedOver && t.ackWait.isSome && t.promptAddr == addr && forwardEntered (mir s i) t) with
  | none => s
  | some t =>
    let s := journal i [.transferIn t false] s
    let n := (getInst s i).rel.staged.length
    modRel i (fun r => { r with flushForced := true }) (modIn i t (fun t => { t with ackWait := some n }) s)

/-- Forwarded requests enter ahead of new ring entries, while their context's defer queue has room (R351, spec/03 R62). -/
def takeForwarded (i : InstId) (s : State) : State :=
  (mir s i).foyer.forwarded.foldl (fun s p =>
    if 32 ≤ (getCtx (mir s i) p.1).defer.length then s
    else ackPoint i p.2.promptAddr (newRequest i p.1 p.2 (modFoyer i (fun f => { f with forwarded := f.forwarded.erase p }) s))) s

/-! ### The timers of forwards (R350) -/

/-- A deferred request whose forward has closed without ACK is the origin's again (R346, R351). -/
def forwardBack (i : InstId) (t : OutXfer) (s : State) : State :=
  let f (e : Deferred) : Deferred := if e.fwd == some (t.subject - 2 ^ 63) then { e with fwd := none } else e
  deferTimer i t.context (modCtx i t.context (fun y => { y with defer := y.defer.map f }) s)

/-- One forward at an evaluation of the Foyer: abandoned after `timeout_ticks` without progress, resent after `retry_ticks` (R350). -/
def forwardTimer (i : InstId) (t : OutXfer) (s : State) : State :=
  let st := (getInst s i).stair
  if t.stage != .handover && decide (t.lastProgress + st.timeoutTicks ≤ s.tick) then forwardBack i t (abandonOut i t s)
  else if max t.lastProgress t.lastSend + st.retryTicks ≤ s.tick then resend i t (modOut i t.subject (fun t => { t with lastSend := s.tick }) s)
  else s

def forwardTimers (i : InstId) (s : State) : State :=
  ((mir s i).outXfers.filter (·.forward)).foldl (fun s t => forwardTimer i t s) s

/-- One evaluation of the Foyer: deferred requests, offers, demands, forwarded requests, households (spec/03 R63, R65; R345, R351). -/
def foyerRound (i : InstId) (s : State) : State :=
  passAll i (takeForwarded i (deferDemands i (offerForwards i (reevaluateAll i (forwardTimers i s)))))

end Sys2Proof.Machine
end

