-- ==== Sys2Proof/Machine/Commit.lean ====
section
/-! DEFINITION. The commit of a row (spec/04 R93, R94, spec/02 R40-R44, spec/09 R210, R211) and what every usher's event ends with: the checks that its effects may make due. -/

namespace Sys2Proof.Machine

open Sys2Proof

/-! ### The event an usher may apply -/

/-- The work of the event of a flow that its usher applies next (spec/12 R254, R258, spec/16 R351). -/
def flowKind (s : State) (i : InstId) (f : Flow) : Option EvKind :=
  if activeInst s i then (dueEvent (getInst s i) f).map (·.kind) else none

/-- That of a sequence's flow. -/
def headKind (s : State) (i : InstId) (lid : Nat) : Option EvKind := flowKind s i (.seq lid)

/-- The model has no row outside COMMITTED and KILLED, as target or as draft model, nor one that a takeover reruns (spec/11 R235, R249). -/
def drained (m : Mirrored) (k : Nat) : Bool :=
  !(m.kitchen.steps.any fun st => uncommitted st && (st.model == k || (st.rows.any (fun r => r.kind == .draft || r.kind == .draftScore) && (st.draftModel.map (·.1)) == some k)))
    && !(m.kitchen.rerun.any fun p => p.1 == k && m.seqs.any fun q => q.admitNo == p.2 && (q.r.state.composed || q.r.state == .admitted))

/-- Midnight falls now: ARMED, drained, and no turn before Morning's Midnight stage (spec/11 R235). -/
def midnightDue (m : Mirrored) (k : Nat) : Bool :=
  (getModel m k).stage == .armed && drained m k && m.kitchen.turn == .service

/-- A flow's entries fire where one of a list has fallen due: every other source's events of the tick have reached the flow by then, the Midnights that are due among them; the other flows' entries wait for the end of the tick (spec/12 R253, R263, spec/11 R249; DESIGN CHOICE, log 83). -/
def fireDue (i : InstId) (list : Nat) (f : Flow) (s : State) : State :=
  if activeInst s i && (mir s i).dusk.any (fun d => d.list == list && d.flow == f && decide (d.due ≤ s.tick))
      && !((List.range 64).any (midnightDue (mir s i))) then fireSome i (·.flow == f) s
  else s

/-- The TIMER of a list that the flow's usher applies next: its handle and due tick (spec/12 R263, R265). -/
def dueTimer (s : State) (i : InstId) (list : Nat) (f : Flow) : Option (Nat × Nat) :=
  match flowKind s i f with
  | some (.timer l h due) => if l = list then some (h, due) else none
  | _ => none

/-- The record is live: its ADMIT has been applied and it has not ended. -/
def liveLid (s : State) (i : InstId) (lid : Nat) : Bool := (seqOf s i lid).r.state.live

/-! ### Checks that an event may make due -/

/-- A forced run is due: a DECODING sequence in a FORCE state with no row in an uncommitted step, whose deadline has not passed (spec/10 R227). -/
def forceDue (x : Inst) (tick : Nat) (q : Seq) : Bool :=
  q.r.state == .decoding && (forceState x.mir q.r).isSome && (stepOfSeq x.mir q.r.localId).isNone && decide (tick ≤ q.r.deadlineTick)
    && !flowHas x.hall (.seq q.r.localId) (· == .forceRun)

/-- Every forced run that is due is posted (spec/10 R227). -/
def forceCheck (i : InstId) (s : State) : State :=
  ((mir s i).seqs.filter (forceDue (getInst s i) s.tick)).foldl (fun s q => postSeq i q.r.localId .forceRun s) s

/-! #### Midnight and the turn (spec/11 R236, R244, R247) -/

/-- Empty the draft list of a sequence that names the model as its draft model (spec/11 R236 step 4). -/
def midnightDraft (m : Mirrored) (k : Nat) (q : Seq) : Seq :=
  if q.r.state.live && !q.draftList.isEmpty && ((findRecipe m q.r.recipe).map (fun rc => rc.draftValid && rc.draftModel == k)).getD false
  then { emptyDraft q with draftValid := 0, draftEpoch := none } else q

/-- Midnight of a model, as one event (spec/11 R236, R248). -/
def doMidnight (i : InstId) (k : Nat) (newSet : Bool) (s : State) : State :=
  let m := mir s i
  let md := getModel m k
  let p := md.committed
  let pe := (p.map (·.epoch)).getD 0xFFFF
  let drains := p.isSome && !newSet && m.seqs.any fun q => q.r.model == k && q.r.epoch == pe && (q.r.state.live || q.r.state == .free)
    && (getCtx m q.r.context).isOpen && (getCtx m q.r.context).cfg.epochPolicy == 0
  let s := modModel i k (fun md => { md with
    old := if drains then p else none
    committed := some md.staged
    stage := .none
    noSlotClaim := false
    state := if md.state == .described then .resident else md.state
    lastStep := if md.state == .described then m.kitchen.stepAssigned else md.lastStep }) s
  let s := if drains || p.isNone then s else epochGone i k s
  let info : MidnightInfo := { model := k, old := pe, new := md.staged.epoch, oldTag := (p.map (·.layoutTag)).getD 0, newTag := md.staged.layoutTag, newSet := newSet }
  let s := if p.isSome then broadcast i (.midnight info) (fun q => q.r.model == k && q.r.epoch == pe) s else s
  let s := modMir i (fun m => { m with seqs := m.seqs.map (midnightDraft m k) }) s
  let s := modKit i (fun t => { endRuns k t with rerun := t.rerun.filter (·.1 != k) }) s
  let s := ringPush i 0 0x020 4 0 [0, 0, k, md.staged.epoch, 0] s
  let s := journalObj i (.model k (getModel (mir s i) k)) s
  foyerRound i (grantSlots i 64 s)

/-- The instance is quiet enough for the `evening` events: no uncommitted step, no forced run pending, no transfer open (spec/11 R244, spec/16 R358). -/
def eveningQuiet (x : Inst) : Bool :=
  !(x.mir.kitchen.steps.any uncommitted) && !((outstanding x.hall).any (·.kind == .forceRun)) &&
    !(x.mir.seqs.any (·.r.state == .migrating)) && x.mir.outXfers.isEmpty && x.mir.inXfers.all (·.handedOver)

/-- An event that `p` holds of is outstanding, in a flow or beside a cold record. -/
def pendingKind (x : Inst) (p : EvKind → Bool) : Bool :=
  (outstanding x.hall).any (fun e => p e.kind) || x.mir.seqs.any fun q => q.bcast.any fun b => p (bcastKind b.1)

def isMidnight : EvKind → Bool
  | .midnight _ => true
  | _ => false

def isMorning : EvKind → Bool
  | .morning | .morningResume => true
  | _ => false

/-- Discovery begins: an ANNOUNCE to every peer of the directions table and of the peer table, whose answers are awaited (spec/16 R343). -/
def startDiscovery (i : InstId) (d : Discovery) (s : State) : State :=
  let x := getInst s i
  let ps := (directed x.mir).foldl (fun l a => addPeer x.mir { addr := a } l) x.stair.peers
  let s := modStair i (fun t => { t with discovery := d, discoveryTick := s.tick, peers := ps.map fun p => { p with asked := true } }) s
  announceAll i s

/-- The model's ARMED epoch is taken at Morning's Midnight stage, though the new set has made the model REFUSED (spec/11 R247). -/
def morningArmed (m : Mirrored) (k : Nat) : Bool := (getModel m k).stage == .armed

/-- A live sequence that stage 4 invalidates (spec/11 R247, R248). -/
def morningStale (m : Mirrored) (q : Seq) : Bool :=
  q.r.state.live && q.r.state != .migrating && (m.kitchen.newSet || q.r.layoutTag != tagOf m q.r)

/-- The sequences that stage 5 returns to service: SHUTTERED ones, and those that Evening parked (spec/11 R247). -/
def morningResumes (q : Seq) : Bool := q.r.state == .parked && q.r.returnState.composed && !q.evicted

/-- The MORNING command whose result is awaited. -/
def morningCmd (m : Mirrored) : Option Nat := (m.mbox.find? fun c => c.code == 0x81 && c.phase == .issued).map (·.id)

/-- The next stage of Morning, where the present one is complete (spec/11 R247). -/
def morningStep (i : InstId) (s : State) : State :=
  let x := getInst s i
  let k := x.mir.kitchen
  let next (n : Nat) (s : State) : State := modKit i (fun k => { k with morningStage := n }) s
  match k.morningStage with
  | 2 =>
    if (outpostSet s i).any fun o => (s.outposts.getD o {}).selftest then s
    else next 3 (((List.range 64).filter (morningArmed x.mir)).foldl (fun s m => doMidnight i m k.newSet s) s)
  | 3 =>
    if pendingKind x isMidnight then s
    else next 4 ((x.mir.seqs.filter (morningStale x.mir)).foldl (fun s q => postSeq i q.r.localId .invalidate s) s)
  | 4 =>
    if pendingKind x (· == .invalidate) then s
    else next 5 (broadcast i .morningResume morningResumes (broadcast i .morning (·.r.state == .shuttered) s))
  | 5 => if pendingKind x isMorning then s else next 6 (startDiscovery i (.morning (morningCmd x.mir)) s)
  | _ => s

/-- Stage 4 of Evening: once quiet, each live sequence receives its `evening` event; and Morning's stages as each completes (spec/11 R244, R247). -/
def turnCheck (i : InstId) (s : State) : State :=
  let x := getInst s i
  if x.mir.kitchen.turn == .evening && !x.mir.kitchen.eveningSent && eveningQuiet x then
    modKit i (fun k => { k with eveningSent := true }) (broadcast i .evening (fun _ => true) s)
  else if x.mir.kitchen.turn == .morning then morningStep i (morningStep i (morningStep i (morningStep i s)))
  else s

/-- Something that a defer condition waits for has come free, or a request that blocked others has left its queue (spec/03 R58, R61, R63). -/
def roomRose (x y : Inst) : Bool :=
  decide (availPages x < availPages y) || decide (y.mir.seqs.length < x.mir.seqs.length) || decide (c0Charged y.mir < c0Charged x.mir)
    || decide (y.mir.households.length < x.mir.households.length) || decide ((usedBlocks y.mir).length < (usedBlocks x.mir).length)
    || decide ((y.mir.seqs.filter (·.r.hot)).length < (x.mir.seqs.filter (·.r.hot)).length)
    || decide (sumNat (y.mir.ctxs.map (·.defer.length)) < sumNat (x.mir.ctxs.map (·.defer.length)))

/-- The pages of a sequence: its list, its draft model's, those ahead. -/
def pagesHeld (q : Seq) : Nat := q.pages.length + q.draftPages.length + q.ahead.length

/-- A sequence has released pages, were they shared or drawn again at once, or pages have come free (R127). -/
def pagesReleased (x y : Inst) : Bool :=
  decide (freePages x < freePages y) || x.mir.seqs.any fun q => decide (pagesHeld (getSeq y.mir q.r.localId) < pagesHeld q)

/-- What an usher's apply that began at `s` ends with: forced runs, the cooling of records above the mark, demands of plans for which another has become evictable, evicted sequences for which pages were released, deferred requests, Evening, the victims that a model which has become evictable makes due (spec/10 R227, R217, spec/02 R46, spec/05 R127, spec/03 R63, R71, spec/11 R244). -/
def closed (i : InstId) (s t : State) : State :=
  let t := if activeInst t i then libAssign i 256 (coolExcess i 64 (forceCheck i t)) else t
  let own := ((mir t i).seqs.filter fun q => q.evicted && !(seqOf s i q.r.localId).evicted).map (·.r.localId)
  let t := if pagesReleased (getInst s i) (getInst t i) then evictResumes i own t else t
  let t := if roomRose (getInst s i) (getInst t i) then foyerRound i t else t
  settled i s (dirEdge i s (turnCheck i t))

/-- End an usher's apply that began at `s`. -/
def endEvent (i : InstId) (s t : State) : Result := .next (closed i s t)

/-- A plan fault of a live sequence (spec/10 R229). -/
def planErrorSeq (i : InstId) (lid : Nat) (s : State) : State :=
  endSeq i lid .aborted reasonPlanError (notePlanFaults i (seqOf s i lid).r.context 1 s)

/-- The plan of a record that is warmed is demanded; an id that is no longer registered is a plan fault (spec/10 R216, R229). -/
def claimPlan (i : InstId) (lid : Nat) (s : State) : State :=
  let q := seqOf s i lid
  if q.r.planValid && !registered (mir s i) q.r.planId then planErrorSeq i lid s else claimOwn i lid s

/-! ### Walks (spec/10 R226) -/

/-- The tokens with the states that the walk notes, as far as it goes; true where it met a fault. -/
def walkNotes (p : Option Plan) : Nat → Nat → List Tok → List Tok × Bool
  | _, _, [] => ([], false)
  | st, n, t :: ts =>
    match p with
    | none => (t :: ts, false)
    | some pl =>
      match planStep pl st n t.out.token with
      | none => ([], true)
      | some x =>
        let r := walkNotes p x.1 x.2 ts
        ({ t with note := some x } :: r.1, r.2)

/-! ### Target rows -/

/-- Page size of a step's draft model. -/
def draftP (m : Mirrored) (st : Step) : Nat := ((st.draftModel.map fun d => modelP m d.1)).getD 1

/-- The state that a PREFILL row's commit leaves (spec/02 R40). -/
def prefillState (r : Record) (kv : Nat) : SeqState :=
  if r.state == .reheating then (if seqT r ≤ kv + 1 then .decoding else .reheating)
  else if r.state == .parked then .parked
  else if seqT r ≤ kv + 1 then .decoding else .prefilling

/-- A member of the household whose prompt a row prefills: `kv_len`, state (R40 `prefill_begin`, `prefill_done`); one whose warm still waits is hot from here on, any other cold one has its Attic copy follow (spec/02 R45, R46). -/
def memberPrefill (i : InstId) (kv lid : Nat) (s : State) : State :=
  let r := (seqOf s i lid).r
  let s := enterState i lid (prefillState r kv) (modRec i lid (fun r => { r with kvLen := kv, kvState := .valid }) s)
  if (prefillState r kv).composed then warmRecord i lid s else writeAttic i lid s

/-- The members that wait for a prefix holder (spec/05 R124). -/
def prefixWaiters (m : Mirrored) (q : Seq) : List Nat :=
  ((members m q.r.household).filter fun x => x.r.localId != q.r.localId && x.r.state == .reheating && decide (x.r.kvLen < q.r.promptLen - 1)).map (·.r.localId)

/-- The commit of a PREFILL row (R94 step 2; spec/02 R40; spec/05 R114, R124). -/
def commitPrefill (i : InstId) (row : StepRow) (s : State) : State :=
  let m := mir s i
  let q := getSeq m row.lid
  let kv := row.start + row.count
  if inPrefix q then
    let sharers := prefixSharers m q
    let s := commitPrefix i row.lid kv sharers s
    sharers.foldl (fun s l => memberPrefill i kv l s) s
  else
    let reheat := q.r.state == .reheating
    let rebuilds := reheat && decide (q.r.kvLen < q.r.promptLen - 1) && decide (1 < q.r.siblings)
    let others := prefixWaiters m q
    let s := modRec i row.lid (fun r => { r with kvLen := kv, kvState := .valid, reheatTokens := r.reheatTokens + (if reheat then row.count else 0) }) s
    let s := if rebuilds && !others.isEmpty then commitRebuild i row.lid s else commitTarget i row.lid s
    let s := if rebuilds then notePrefix i row.lid kv s else s
    let s := if rebuilds && decide (q.r.promptLen - 1 ≤ kv) then others.foldl (fun s l => postSeq i l (.prefixTake (q.r.promptLen - 1)) s) s else s
    enterState i row.lid (prefillState q.r kv) s

/-- What an append leaves of the state, before the end is applied (spec/02 R38). -/
def finState (fin : AppendEnd) : SeqState :=
  match fin with
  | .finish _ => .finished
  | .pause => .paused
  | .none => .decoding

/-- Pieces of a list of bytes, `n` entries of `stride` bytes each at most; one empty piece where there is none. -/
def entryPieces (stride n : Nat) (bs : List Byte) : List (List Byte) :=
  (List.range (max 1 (ceilDiv (bs.length / stride) n))).map fun k => slice bs (stride * n * k) (min (stride * n) (bs.length - stride * n * k))

/-- The AUX entries of a run of auxiliary entries, each within a block (spec/17 R374). -/
def auxEntries (r : Record) (stride first : Nat) (aux : List Byte) : List JEntry :=
  let n := 65384 / stride
  if aux.isEmpty then [] else (entryPieces stride n aux).zipIdx.map fun p => .aux r.localId r.context (first + n * p.2) (p.1.length / stride) p.1

/-- The ROW entries of a row, of at most 255 trail entries each with the lengths that it leads to, and its AUX entries (spec/17 R374, R375). -/
def rowEntries (q : Seq) (n first : Nat) (st : SeqState) (bytes aux : List Byte) (drafts : List Nat) : List JEntry :=
  let r := q.r
  (entryPieces 16 255 bytes).zipIdx.map (fun p =>
    let after := bytes.drop (16 * 255 * (p.2 + 1))
    let new := ((List.range (after.length / 16)).filter fun k => !isExtend (fld after (16 * k + 6) 2)).length
    .row n { lid := r.localId, context := r.context, committedLen := r.committedLen - after.length / 16, newTokens := r.newTokens - new, kvLen := r.kvLen,
             cursor := r.drawSlotCursor, penaltyStart := r.penaltyStart, wallUsed := r.wallUsed, planState := r.planState, nest := r.nest, state := st,
             returnState := r.returnState, epoch := r.epoch, draftList := drafts, entries := p.1 })
    ++ auxEntries r (auxStride q.auxTopN) first aux

/-- The record's fields that every committed row sets (R94 step 4; spec/15 R322, spec/02 R40). -/
def noteRow (i : InstId) (n lid : Nat) (s : State) : State :=
  modSeq i lid (fun q =>
    let q := chargeSeq q
    { q with
      shield := 0
      passedOver := 0
      touched := s.tick
      r := { q.r with lastStep := n, stepsCommitted := wrapTo 32 (q.r.stepsCommitted + 1) } }) s

/-- What a VERIFY commit leaves beside the appends: L_d, the draft list, the cursor (spec/09 R211, spec/08 R184). -/
def verifyCommit (i : InstId) (lid dP : Nat) (sources : List Source) (s : State) : State :=
  let up := sources.any fun x => x == .residual || x == .bonus
  let s := modRec i lid (fun r => { r with drawSlotCursor := if up then wrapTo 24 (r.drawSlotCursor + 1) else r.drawSlotCursor }) s
  trimDraft i lid dP (modSeq i lid (fun q => { q with draftValid := q.r.kvLen }) (dropDraft i lid s))

/-- The commit of a DECODE or VERIFY row: the walk, the appends, the record, the pages, the ROW entry, the end (R94; spec/10 R226; spec/09 R210, R211). False where the row was discarded for a plan fault. -/
def commitTokens (i : InstId) (n : Nat) (row : StepRow) (res : RowResult) (verify : Bool) (dP : Nat) (s : State) : State × Bool :=
  let q := seqOf s i row.lid
  let plan := if q.r.planValid then residentPlan (mir s i) q.r.planId else none
  let w := walkNotes plan q.r.planState q.r.nest (res.outs.map fun o => { src := o.1, out := o.2 })
  let a := appendAll i row.lid w.1 (enterState i row.lid .decoding s)
  if res.empty || (q.r.planValid && plan.isNone) || (w.2 && a.fin == .none) then (planErrorSeq i row.lid s, false)
  else
    let t := watchAppended i row.lid (advancePenalty i row.lid a.s)
    let t := modRec i row.lid (fun r => { r with kvState := .valid, kvLen := min (if verify then row.start + res.spine + 1 else row.start + row.count) (seqT r - 1) }) t
    let t := commitTarget i row.lid t
    let t := if verify then verifyCommit i row.lid dP a.sources t else t
    let t := if a.fin == .none then t else dropDraft i row.lid t
    let t := noteRow i n row.lid t
    let t := modAcct i row.context (fun x => { x with entriesCommitted := x.entriesCommitted + a.n }) t
    let t := journal i (rowEntries (seqOf t i row.lid) n q.r.committedLen (finState a.fin) a.bytes a.aux []) t
    (endAppend i row.lid a.fin t, true)

/-! ### Draft rows (spec/09 R196, R199, R201) -/

/-- The ancestors of draft node `n` and itself, root first, without node 0. -/
def nodePath (rc : Recipe) : Nat → Nat → List Nat
  | 0, _ => []
  | _, 0 => []
  | fuel + 1, n => nodePath rc fuel (if rc.draftMode = 2 then rc.draftTree.getD n 0 else n - 1) ++ [n]

/-- The plan state and count after a list of tokens; none where a transition cannot be taken. -/
def pathState (p : Plan) (r : Record) (toks : List Nat) : Option (Nat × Nat) := walkAll p r.planState r.nest toks

/-- A draft token at node `n` enters a FORCE, PAUSE or ACCEPT_END state, or one the plan cannot enter: drafting stops (R196). -/
def stopsDraft (m : Mirrored) (q : Seq) (rc : Recipe) (list : List Nat) (n : Nat) : Bool :=
  if !q.r.planValid then false
  else match residentPlan m q.r.planId with
    | none => false
    | some p =>
      match pathState p q.r ((nodePath rc 64 n).map fun k => list.getD (k - 1) 0) with
      | none => true
      | some x => match p.states[x.1]? with
        | some st => stForce st || stPause st || stAcceptEnd st
        | none => true

/-- The commit of a DRAFT row: the children it drew enter the draft list (R199). -/
def commitDraftRow (i : InstId) (n : Nat) (row : StepRow) (res : RowResult) (dP : Nat) (s : State) : State × Bool :=
  let m := mir s i
  let q := getSeq m row.lid
  let rc := (findRecipe m q.r.recipe).getD {}
  if res.empty then (planErrorSeq i row.lid s, false)
  else
    let list := q.draftList ++ res.drafts
    let stop := (List.range res.drafts.length).any fun k => stopsDraft m q rc list (q.draftList.length + 1 + k)
    let s := modSeq i row.lid (fun q => { q with draftList := list, draftStopped := q.draftStopped || stop, r := { q.r with draftLen := list.length } }) s
    let s := noteRow i n row.lid (commitDraft i row.lid (row.start + row.count) dP s)
    (journal i (rowEntries (seqOf s i row.lid) n 0 (seqOf s i row.lid).r.state [] [] list) s, true)

/-- The commit of a catch-up row: L_d advances over the chunk (R201). -/
def commitCatchUp (i : InstId) (st : Step) (row : StepRow) (dP : Nat) (s : State) : State :=
  let s := modSeq i row.lid (fun q => { q with draftValid := row.start + row.count, draftEpoch := st.draftModel }) s
  let s := noteRow i st.num row.lid (commitDraft i row.lid (row.start + row.count) dP s)
  journal i (rowEntries (seqOf s i row.lid) st.num 0 (seqOf s i row.lid).r.state [] [] []) s

/-! ### Charges and the end of a step -/

/-- The charges of a row and its pair to its context's buckets (spec/15 R318, R319, R331). -/
def chargeRow (i : InstId) (row : StepRow) (s : State) : State :=
  modCtx i row.context (fun x => { x with
    row := { x.row with level := x.row.level - 65536 * (row.logitCount : Nat) }
    hbm := { x.hbm with level := x.hbm.level - 65536 * (row.hbmCharge : Nat) }
    acct := { x.acct with rowsCommitted := x.acct.rowsCommitted + row.logitCount } }) s

/-- Count the row as committed. -/
def markRow (i : InstId) (n k : Nat) (s : State) : State := modStep i n (fun st => { st with committedRows := st.committedRows ++ [k] }) s

/-- A latch at the commit of a step (spec/15 R326). -/
def latchCommit (st : Step) (l : Latch) : Latch :=
  if !l.held then l
  else if l.across then
    if (st.rows.any (·.context == l.owner)) && (l.models.getLsbD st.model) then { l with heldSteps := satTo 16 (l.heldSteps + 1) } else l
  else if l.holder == step24 st.num then { l with across := true } else l

/-- A hold above the declared maximum: case 10 of R12 (spec/15 R326). -/
def latchOver (m : Mirrored) : Bool := m.latches.any fun l => l.held && l.across && decide (l.maxHold < l.heldSteps)

/-- Every row of the step has passed its commit. -/
def allCommitted (st : Step) : Bool := (List.range st.rows.length).all fun k => st.committedRows.contains k

/-- The step is COMMITTED (R94; spec/15 R323, R326, R327; spec/17 R374). -/
def finishStep (i : InstId) (n : Nat) (s : State) : State :=
  match getStep (mir s i) n with
  | none => s
  | some st =>
    if st.phase != .committing || !allCommitted st then s
    else
      let st' := { st with phase := .committed, commitTick := s.tick }
      let s := modStep i n (fun _ => st') s
      let s := modMir i (fun m => { m with latches := m.latches.map (latchCommit st) }) s
      let s := modKit i (fun k => { k with
        stepCommitted := max k.stepCommitted n
        lastCommitted := if st.runOver then k.lastCommitted else st' :: k.lastCommitted.filter (·.model != st.model)
        rerun := k.rerun.filter fun p => !(st.rows.any (·.admitNo == p.2))
        kernelFaultRows := k.kernelFaultRows.filter fun l => !(stepSeqs st).contains l }) s
      let s := modStair i (fun t => { t with creditsOut := t.creditsOut + st.credits }) s
      let s := journal i [.step n s.tick] s
      let s := ringPush i 0 0x020 1 (step24 n) [n, 5, st.model, st.epoch, st.slot] s
      sweepSteps i (modMir i unpin s)

/-- The row's own effects, by its kind (R94 steps 2-6); false where it was discarded for a plan fault. -/
def commitRow (i : InstId) (st : Step) (k : Nat) (row : StepRow) (s : State) : State × Bool :=
  let res := (st.results.find? (·.row == k)).getD { row := k }
  let dP := draftP (mir s i) st
  match row.kind with
  | .prefill =>
    let s := noteRow i st.num row.lid (commitPrefill i row s)
    (journal i (rowEntries (seqOf s i row.lid) st.num 0 (seqOf s i row.lid).r.state [] [] []) s, true)
  | .decode => commitTokens i st.num row res false dP s
  | .verify => commitTokens i st.num row res true dP s
  | .draft => commitDraftRow i st.num row res dP s
  | .draftScore => (commitCatchUp i st row dP s, true)

/-- The rows that one TOKEN_COMMIT event commits: the row, and the DRAFT_SCORE row of a VERIFY pair (R77). -/
def rowsOf (st : Step) (k : Nat) : List Nat :=
  match st.rows[k]? with
  | some row => k :: (match row.kind, row.pair with | .verify, some p => [p] | _, _ => [])
  | none => [k]

/-- Charges, the model's and the plan's last use, of a row that committed (R94 step 5; spec/03 R68; spec/10 R217). -/
def rowUses (i : InstId) (st : Step) (k : Nat) (s : State) : State :=
  let s := (rowsOf st k).foldl (fun s j => match st.rows[j]? with | some r => chargeRow i r s | none => s) s
  let s := modModel i st.model (fun md => { md with lastStep := max md.lastStep st.num }) s
  let dr := (rowsOf st k).any fun j => ((st.rows[j]?).map fun r => r.kind == .draft || r.kind == .draftScore).getD false
  let s := match st.draftModel with
    | some d => if dr then modModel i d.1 (fun md => { md with lastStep := max md.lastStep st.num }) s else s
    | none => s
  match (st.rows[k]?).bind (·.planId) with
  | some p => modLib i (fun l => { l with used := put p s.tick l.used }) s
  | none => s

/-- The row is still its sequence's: live, and of the admission that composed it. -/
def rowLive (m : Mirrored) (row : StepRow) : Bool :=
  match findSeq m row.lid with
  | some q => q.r.state.live && q.admitNo == row.admitNo
  | none => false

/-- A row's commit before its charges: discarded where its sequence has left the live states or its deadline has passed (R94, R41). -/
def tryRow (i : InstId) (st : Step) (k : Nat) (row : StepRow) (s : State) : State × Bool :=
  if !rowLive (mir s i) row then (s, false)
  else if (seqOf s i row.lid).r.deadlineTick < s.tick then (endSeq i row.lid .aborted reasonDeadline s, false)
  else commitRow i st k row s

/-- The watches of positions that a committed row covered, `before` being the sequence's positions until then, and to which it appended no entry: WRONG_STATE (spec/18 R405). -/
def watchRow (i : InstId) (row : StepRow) (before : Nat) (s : State) : State :=
  if row.kind == .decode || row.kind == .verify then
    endWatches i rWrongState (fun w => w.lid == row.lid && decide (before ≤ w.position) && decide (w.position < before + row.logitCount)) s
  else s

/-- Commit one row of a COMMITTING step: the row, its charges, the events that waited for it, the step's end (R94, R42). -/
def commitOne (i : InstId) (n k : Nat) (s : State) : State :=
  match getStep (mir s i) n with
  | none => s
  | some st =>
    match st.rows[k]? with
    | none => s
    | some row =>
      let w := tryRow i st k row s
      let w := (watchRow i row (seqT (seqOf s i row.lid).r) w.1, w.2)
      let s := if w.2 then rowUses i st k w.1 else w.1
      let s := (rowsOf st k).foldl (fun s j => markRow i n j s) s
      finishStep i n (if rowLive (mir s i) row then applyWaiting i row.lid s else s)

end Sys2Proof.Machine
end

