-- ==== Sys2Proof/Machine/Usher.lean ====
section
/-! DEFINITION. What an usher applies (spec/12 R250-R256): commits, kills, the Foyer's and the Hallway's events, the Pantry's, the host's commands, Midnight, the turn, households, teardown, plans. A row whose event is not the first of its flow, or whose instance does not run, changes nothing (DESIGN CHOICE, log 1). -/

namespace Sys2Proof.Machine

open Sys2Proof

/-! ### Commits and kills -/

/-- The mirror has not acknowledged what the commit is carried by (spec/17 R362). -/
def mirrorBehind (s : State) (i : InstId) : Bool :=
  let r := (getInst s i).rel
  r.mirror == .current && (!r.streamOut.isEmpty || r.acksDue != 0)

/-- TOKEN_COMMIT (spec/04 R94, spec/12 R251): waits while the mirror is behind. -/
def execTokenCommit (i : InstId) (lid : Nat) (s : State) : Result :=
  match headKind s i lid with
  | some (.tokenCommit n k) =>
    if mirrorBehind s i then .next s
    else
      let t := commitOne i n k (releaseEvent i (.seq lid) s)
      let t := if pagesReleased (getInst s i) (getInst t i) then t else evictResumes i [] t
      if latchOver (mir t i) && !latchOver (mir s i) then .fault (.undefinedCase 10)
      else endEvent i s t
  | _ => .next s

/-- STOP_CHECK: changes no state of a sequence (spec/12 R251). -/
def execStopCheck (i : InstId) (lid : Nat) (s : State) : Result :=
  match headKind s i lid with
  | some (.stopCheck _ _) => endEvent i s (releaseEvent i (.seq lid) s)
  | _ => .next s

/-- The per-sequence part of a kill (spec/04 R97). -/
def applyKill (i : InstId) (lid : Nat) (s : State) : State :=
  if liveLid s i lid then
    let s := modRec i lid (fun r => { r with preemptions := wrapTo 32 (r.preemptions + 1) }) s
    if inFlight (mir s i) lid then s else applyWaiting i lid s
  else s

/-- KILL (spec/04 R97, spec/12 R251). -/
def execKill (i : InstId) (lid : Nat) (s : State) : Result :=
  match headKind s i lid with
  | some (.kill _) => endEvent i s (applyKill i lid (releaseEvent i (.seq lid) s))
  | _ => .next s

/-! ### Admission, Parlour and Attic -/

/-- One sibling's record becomes ADMITTED (spec/02 R40, the ADMIT event); the last one of a forwarded request lets its ACK follow (spec/16 R351). -/
def applyAdmit (i : InstId) (lid : Nat) (s : State) : State :=
  match findSeq (mir s i) lid with
  | none => s
  | some q =>
    if q.r.state != .free then s
    else
      let s := enterState i lid .admitted s
      ackPoint i q.r.promptAddr (recordDone i lid (if q.r.notifyAdmit then postSeqRecord i lid 0 0 false s else s))

/-- ADMIT (spec/02 R40, spec/12 R251): a household whose siblings are all ADMITTED may be passed at once (spec/03 R65). -/
def execAdmitSeq (i : InstId) (lid : Nat) (s : State) : Result :=
  match headKind s i lid with
  | some .admission => endEvent i s (passAll i (applyAdmit i lid (releaseEvent i (.seq lid) s)))
  | _ => .next s

/-- A member whose prompt has one token and whose start state has FORCE is DECODING once its household is passed (spec/10 R227). -/
def forceStart (i : InstId) (lid : Nat) (s : State) : State :=
  let q := seqOf s i lid
  if q.r.state == .admitted && q.passed && q.r.hot && q.r.promptLen == 1 && (forceState (mir s i) q.r).isSome
  then recordDone i lid (enterState i lid .decoding s) else s

/-- Copy the record into the Parlour and claim its plan (spec/02 R46, spec/10 R216). -/
def applyWarm (i : InstId) (lid : Nat) (s : State) : State :=
  if liveLid s i lid then forceStart i lid (claimPlan i lid (warmRecord i lid s)) else s

/-- WARM (spec/02 R46, spec/12 R251). -/
def execWarm (i : InstId) (lid : Nat) (s : State) : Result :=
  match headKind s i lid with
  | some (.warm _) => endEvent i s (applyWarm i lid (releaseEvent i (.seq lid) s))
  | _ => .next s

/-- Cool a record that may be cold; a plan it claimed may be given up (spec/02 R46, spec/10 R217). -/
def applyCool (i : InstId) (lid : Nat) (s : State) : State :=
  match findSeq (mir s i) lid with
  | none => s
  | some q => if q.r.hot && !mustBeHot (mir s i) q then libAssign i 256 (coolRecord i lid s) else s

/-- COOL (spec/02 R46, spec/12 R251). -/
def execCool (i : InstId) (lid : Nat) (s : State) : Result :=
  match headKind s i lid with
  | some .cool => endEvent i s (applyCool i lid (releaseEvent i (.seq lid) s))
  | _ => .next s

/-! ### The Pantry's events -/

/-- A victim releases its pages in place, or parks by eviction (spec/05 R126). -/
def applyEvict (i : InstId) (lid : Nat) (s : State) : State :=
  let q := seqOf s i lid
  if q.r.state == .parked || q.r.state == .paused then
    recordDone i lid (modRec i lid (fun r => { r with kvState := .released, kvLen := 0 }) (releasePages i lid s))
  else if q.r.state.composed && !inFlight (mir s i) lid then parkSeq i lid true noDeadline s
  else s

/-- EVICTION_PARK (spec/05 R126, spec/02 R40 `park`). -/
def execEvictionPark (i : InstId) (lid : Nat) (s : State) : Result :=
  match headKind s i lid with
  | some .evictPark => endEvent i s (applyEvict i lid (releaseEvent i (.seq lid) s))
  | _ => .next s

/-- Ask for the residency of the model of a sequence that has become eligible for rows (spec/03 R71). -/
def wantModel (i : InstId) (lid : Nat) (s : State) : State :=
  let q := seqOf s i lid
  if q.r.state.composed then demandModel i q.r.model (q.r.cls == 0) s else s

/-- Resume a sequence by R39 with its claims on plan and model, and the record's journal entry (spec/02 R39, R46; spec/03 R71). -/
def resumeFully (i : InstId) (lid : Nat) (s : State) : State :=
  recordDone i lid (wantModel i lid (claimPlan i lid (resumeSeq i lid s)))

/-- A waiting member takes its references to a rebuilt prefix (spec/05 R124, R117). -/
def applyPrefix (i : InstId) (lid : Nat) (s : State) : State :=
  let q := seqOf s i lid
  if q.r.state == .reheating && decide (q.r.kvLen < q.r.promptLen - 1) then
    recordDone i lid (settlePrefill i lid (takePrefix i lid (releasePages i lid s)))
  else s

/-- EVICTION_RESUME: the resume of an eviction-parked sequence, or the prefix references of a waiting member (spec/05 R124, R127). -/
def execEvictionResume (i : InstId) (lid : Nat) (s : State) : Result :=
  match headKind s i lid with
  | some .evictResume =>
    let q := seqOf s i lid
    let t := releaseEvent i (.seq lid) s
    endEvent i s (if q.r.state == .parked && q.evicted && (mir s i).kitchen.turn == .service then resumeFully i lid t else t)
  | some (.prefixTake _) => endEvent i s (applyPrefix i lid (releaseEvent i (.seq lid) s))
  | _ => .next s

/-- KV_INVALIDATION (spec/05 R119). -/
def execKvInvalidation (i : InstId) (lid : Nat) (s : State) : Result :=
  match headKind s i lid with
  | some .invalidate =>
    let t := releaseEvent i (.seq lid) s
    endEvent i s (if liveLid s i lid then recordDone i lid (invalidateKv i lid t) else t)
  | _ => .next s

/-! ### The host's commands -/

/-- The arrival that a sequence is, until HANDOVER's `migrate_done` makes it the instance's own (spec/16 R350, R353). -/
def arrivalOf (m : Mirrored) (lid : Nat) : Option InXfer := m.inXfers.find? fun t => !t.forward && t.lid == lid && !t.handedOver

/-- An event ends a sequence; an arrival is discarded with no record, because it was never the instance's own (spec/16 R350; DEDUCED, log 40), an open transfer is abandoned (R350). -/
def endAlive (i : InstId) (lid : Nat) (st : SeqState) (reason : Nat) (s : State) : State :=
  match arrivalOf (mir s i) lid with
  | some t => discardIn i t s
  | none => endSeq i lid st reason (abandonFor i lid s)

/-- End a live sequence, or let the end wait for its row in flight (spec/02 R42). -/
def endOrWait (i : InstId) (lid : Nat) (st : SeqState) (reason : Nat) (w : WaitEvent) (s : State) : State :=
  if inFlight (mir s i) lid then modSeq i lid (fun q => { q with waiting := q.waiting ++ [w] }) s
  else endAlive i lid st reason s

/-- CANCEL's event (spec/02 R40, R42; spec/14 R304). -/
def applyCancel (i : InstId) (lid : Nat) (cmd : Option Nat) (s : State) : State :=
  if liveLid s i lid then resolveEvent i cmd true (endOrWait i lid .aborted reasonCancel (.cancel cmd) s)
  else resolveEvent i cmd false s

/-- SEQUENCE_CANCEL (spec/02 R40 `cancel`, R42). -/
def execSequenceCancel (i : InstId) (lid : Nat) (s : State) : Result :=
  match headKind s i lid with
  | some (.cancel cmd) => endEvent i s (applyCancel i lid cmd (releaseEvent i (.seq lid) s))
  | _ => .next s

/-- PARK's event (spec/02 R40 `park`, R42; spec/14 R441); a PARK that meets an ADMITTED sequence is without effect, its first row in flight or not (DESIGN CHOICE, log 90). -/
def applyPark (i : InstId) (lid wake : Nat) (cmd : Option Nat) (s : State) : State :=
  if (seqOf s i lid).r.state.composed then
    resolveEvent i cmd true
      (if inFlight (mir s i) lid then modSeq i lid (fun q => { q with waiting := q.waiting ++ [.park wake cmd] }) s
       else parkSeq i lid false wake s)
  else resolveEvent i cmd false s

/-- SEQUENCE_PARK (spec/02 R40 `park`, R42). -/
def execSequencePark (i : InstId) (lid : Nat) (s : State) : Result :=
  match headKind s i lid with
  | some (.park wake cmd) => endEvent i s (applyPark i lid wake cmd (releaseEvent i (.seq lid) s))
  | _ => .next s

/-- RESUME's event: by R39, or TRAIL_FULL where the trail has no free entry (spec/02 R40 `resume`, spec/14 R306, spec/11 R245). True where it acted. -/
def applyResume (i : InstId) (lid : Nat) (s : State) : State × Bool :=
  let q := seqOf s i lid
  if (mir s i).kitchen.turn != .service then (s, false)
  else if q.r.state == .parked || q.r.state == .paused then
    let s := duskClear i 2 lid s
    if q.r.state == .paused && decide (q.r.trailCapacity ≤ q.r.committedLen) then (endSeq i lid .finished reasonTrailFull s, true)
    else (resumeFully i lid s, true)
  else (s, false)

/-- SEQUENCE_RESUME (spec/02 R39, R40 `resume`, spec/14 R306). -/
def execSequenceResume (i : InstId) (lid : Nat) (s : State) : Result :=
  match headKind s i lid with
  | some (.resume cmd) =>
    let w := applyResume i lid (releaseEvent i (.seq lid) s)
    endEvent i s (resolveEvent i cmd w.2 w.1)
  | _ => .next s

/-- What EXTEND asks of the plan: the state and count it leaves, or none where it is refused (spec/10 R228). -/
def extendPlan (m : Mirrored) (r : Record) (toks : List Nat) (mode nest st : Nat) : Option (Nat × Nat) :=
  let ok (p : Plan) (x : Nat × Nat) : Option (Nat × Nat) :=
    match p.states[x.1]? with
    | some e => if stAcceptEnd e then none else some x
    | none => none
  match mode with
  | 0 => some (r.planState, r.nest)
  | 1 => if !r.planValid then none else (residentPlan m r.planId).bind fun p => ok p (st, nest)
  | 2 => if !r.planValid then none else (residentPlan m r.planId).bind fun p => (walkAll p r.planState r.nest toks).bind (ok p)
  | _ => none

/-- The appends of an EXTEND and its record (spec/02 R40 `extend`, R53; spec/10 R228). -/
def doExtend (i : InstId) (lid : Nat) (toks : List Nat) (x : Nat × Nat) (cmd : Nat) (s : State) : State :=
  let q := seqOf s i lid
  let s := appendExtend i lid toks s
  let s := modRec i lid (fun r => { r with planState := x.1, nest := x.2 }) s
  let s := modAcct i q.r.context (fun a => { a with entriesCommitted := a.entriesCommitted + toks.length }) s
  let bytes := memGets s.hbm (q.r.trailAddr + 16 * q.r.committedLen) (16 * toks.length)
  let s := journal i (rowEntries (seqOf s i lid) 0 q.r.committedLen .paused bytes [] []) s
  let s := recordDone i lid (postSeqRecord i lid 4 0 false s)
  finishCmd i cmd rOk 0 [] s

/-- EXTEND's event: the checks of R228 and R305, the wait for its plan, the appends. -/
def applyExtend (i : InstId) (lid : Nat) (toks : List Nat) (mode nest st cmd : Nat) (s : State) : State :=
  let m := mir s i
  let r := (seqOf s i lid).r
  if r.state != .paused then finishCmd i cmd rWrongState 0 [] s
  else if r.trailCapacity < r.committedLen + toks.length || (getModel m r.model).maxPositions < r.promptLen + r.committedLen + toks.length then
    finishCmd i cmd rInvalid 0 [] s
  else if (mode == 1 || mode == 2) && r.planValid && (residentPlan m r.planId).isNone && (registered m r.planId) then
    demandPlan i r.planId (r.cls == 0) (modSeq i lid (fun q => { q with waiting := q.waiting ++ [.extend toks mode nest st cmd] }) s)
  else match extendPlan m r toks mode nest st with
    | none => finishCmd i cmd rInvalid 0 [] s
    | some x => doExtend i lid toks x cmd s

/-- SEQUENCE_EXTEND (spec/02 R40 `extend`, spec/10 R228, spec/14 R305). -/
def execSequenceExtend (i : InstId) (lid : Nat) (s : State) : Result :=
  match headKind s i lid with
  | some (.extend toks mode nest st cmd) =>
    endEvent i s (applyExtend i lid toks mode nest st cmd (releaseEvent i (.seq lid) s))
  | _ => .next s

/-! ### Forced runs (spec/10 R227) -/

/-- The forced tokens from a state on, at most `n`, each with the state and count it leaves. -/
def forcedRun (p : Plan) : Nat → Nat → Nat → List Tok
  | 0, _, _ => []
  | n + 1, st, nest =>
    match p.states[st]? with
    | none => []
    | some e =>
      if !stForce e then []
      else match planStep p st nest (forceToken e) with
        | none => []
        | some x => { src := .forced, out := { token := forceToken e }, note := some x } :: forcedRun p n x.1 x.2

/-- The flow holds an event that ends the sequence: the forced run appends nothing (R227). -/
def endsSeq : EvKind → Bool
  | .cancel _ | .teardown | .epochAbort _ => true
  | _ => false

/-- Up to 256 forced tokens, as a commit appends them (R227, spec/02 R43, R53). -/
def applyForce (i : InstId) (lid : Nat) (s : State) : State :=
  let m := mir s i
  let q := getSeq m lid
  if q.r.state != .decoding || (stepOfSeq m lid).isSome || decide (q.r.deadlineTick < s.tick)
      || flowHas (getInst s i).hall (.seq lid) endsSeq || !q.r.planValid then s
  else match residentPlan m q.r.planId with
    | none => s
    | some p =>
      let a := appendAll i lid (forcedRun p 256 q.r.planState q.r.nest) s
      let t := modSeq i lid chargeSeq (watchAppended i lid (advancePenalty i lid a.s))
      let t := modAcct i q.r.context (fun x => { x with entriesCommitted := x.entriesCommitted + a.n }) t
      let t := journal i (rowEntries (seqOf t i lid) 0 q.r.committedLen (finState a.fin) a.bytes a.aux []) t
      endAppend i lid a.fin (if a.fin == .none then t else dropDraft i lid t)

/-- FORCE_RUN (spec/10 R227): its entries, like a commit's, wait while the mirror is behind (spec/17 R362). -/
def execForceRun (i : InstId) (lid : Nat) (s : State) : Result :=
  match headKind s i lid with
  | some .forceRun => if mirrorBehind s i then .next s else endEvent i s (applyForce i lid (releaseEvent i (.seq lid) s))
  | _ => .next s

/-! ### Midnight and the turn -/

/-- The policy of a sequence's context for a Midnight as it stands when the event is applied (DESIGN CHOICE, log 120), and whether CROSS reheats: DRAIN is CROSS with REHEAT where the outpost set changed (spec/11 R239, R248). -/
def midnightPolicy (m : Mirrored) (q : Seq) (info : MidnightInfo) : Nat × Bool :=
  let cfg := (getCtx m q.r.context).cfg
  let anew := info.newSet && cfg.epochPolicy == 0
  (if anew then 1 else cfg.epochPolicy, cfg.crossReheat || anew)

/-- A CROSS sequence takes the new epoch (spec/11 R240, R241). -/
def crossTo (i : InstId) (lid : Nat) (info : MidnightInfo) (s : State) : State :=
  modSeq i lid (fun q => { emptyDraft q with crossPending := true, r := { (emptyDraft q).r with epoch := info.new, crossed := true } }) s

/-- A Midnight event on a sequence of the old epoch, by its context's policy (spec/11 R240, R241, R248). -/
def applyMidnight (i : InstId) (lid : Nat) (info : MidnightInfo) (s : State) : State :=
  let m := mir s i
  let q := getSeq m lid
  let policy := midnightPolicy m q info
  if !q.r.state.live || q.r.epoch != info.old || q.r.model != info.model || policy.1 = 0 then s
  else if q.r.state == .migrating then modSeq i lid (fun q => { q with migMidnight := q.migMidnight ++ [info] }) s
  else if policy.1 = 2 then endSeq i lid .aborted reasonEpochAbort s
  else
    let s := crossTo i lid info s
    let s := if !policy.2 && (info.newTag == info.oldTag || q.r.state == .shuttered) then s
      else if q.r.state.composed then resumeSeq i lid (invalidateKv i lid s)
      else invalidateKv i lid s
    retireCheck i q.r.model (recordDone i lid s)

/-- MIDNIGHT_EVENT (spec/11 R240). -/
def execMidnightEvent (i : InstId) (lid : Nat) (s : State) : Result :=
  match headKind s i lid with
  | some (.midnight info) => endEvent i s (applyMidnight i lid info (releaseEvent i (.seq lid) s))
  | _ => .next s

/-- EPOCH_ABORT (spec/11 R243, spec/02 R40 `epoch_abort`). -/
def execEpochAbort (i : InstId) (lid : Nat) (s : State) : Result :=
  match headKind s i lid with
  | some (.epochAbort _) =>
    let t := releaseEvent i (.seq lid) s
    endEvent i s (if liveLid s i lid then endOrWait i lid .aborted reasonEpochAbort .epochAbort t else t)
  | _ => .next s

/-- The state after Evening of a sequence whose pages are released (spec/02 R40 `evening`). -/
def eveningState (st : SeqState) : SeqState := if st.composed then .parked else st

/-- The `evening` event (spec/02 R40, spec/05 R120); `kv_len` stands where only an ahead prefix page is freed (DESIGN CHOICE, log 116). -/
def applyEvening (i : InstId) (lid : Nat) (s : State) : State :=
  let q := seqOf s i lid
  if !q.r.state.live || q.r.state == .migrating || q.r.state == .shuttered then s
  else
    let holds := !(q.pages.isEmpty && q.draftPages.isEmpty && q.ahead.isEmpty)
    let release := (getCtx (mir s i) q.r.context).cfg.kvTurnRelease
    let s := modSeq i lid (fun q => { emptyDraft q with r := { (emptyDraft q).r with returnState := q.r.state } }) s
    if holds && !release then
      let s := writeList i lid (freeAhead i lid (fun _ => true) s)
      recordDone i lid (enterState i lid .shuttered (modRec i lid (fun r => { r with kvState := .shuttered }) s))
    else
      let s := modRec i lid (fun r => { r with kvState := .released, kvLen := 0 }) (releasePages i lid s)
      recordDone i lid (enterState i lid (eveningState q.r.state) s)

/-- EVENING_EVENT (spec/02 R40 `evening`, spec/05 R120, spec/11 R244). -/
def execEveningEvent (i : InstId) (lid : Nat) (s : State) : Result :=
  match headKind s i lid with
  | some .evening => endEvent i s (applyEvening i lid (releaseEvent i (.seq lid) s))
  | _ => .next s

/-- The `morning` event of a SHUTTERED sequence, whose record is warmed (spec/02 R46), and the resume of one that Evening parked (spec/02 R40, spec/11 R247 stage 5). -/
def applyMorning (i : InstId) (lid : Nat) (s : State) : State :=
  let q := seqOf s i lid
  let back := q.r.returnState
  if q.r.state == .shuttered then
    if back == .paused || back == .parked || back == .admitted then
      let s := if q.r.layoutTag == tagOf (mir s i) q.r then modRec i lid (fun r => { r with kvState := if r.kvState == .shuttered then .valid else r.kvState }) s
               else invalidateKv i lid s
      recordDone i lid (claimPlan i lid (warmRecord i lid (enterState i lid back s)))
    else resumeFully i lid s
  else if q.r.state == .parked && back.composed then resumeFully i lid s
  else s

/-- MORNING_EVENT (spec/02 R40 `morning`, spec/11 R247). -/
def execMorningEvent (i : InstId) (lid : Nat) (s : State) : Result :=
  match headKind s i lid with
  | some .morning => endEvent i s (applyMorning i lid (releaseEvent i (.seq lid) s))
  | some .morningResume => endEvent i s (applyMorning i lid (releaseEvent i (.seq lid) s))
  | _ => .next s

/-- The cold record that the sweep reaches next: the lowest local id with the broadcast at the front of its list waiting (spec/12 R256). -/
def sweepNext (m : Mirrored) (lid : Nat) : Bool :=
  let q := getSeq m lid
  !q.r.hot && !q.bcast.isEmpty && !(m.seqs.any fun x => !x.r.hot && decide (x.r.localId < lid) && (x.bcast.any fun b => q.bcast.head? == some b))

/-- BROADCAST_SWEEP: the sweep, in ascending local id, reaches a cold record with a broadcast waiting (spec/12 R256). -/
def execBroadcastSweep (i : InstId) (lid : Nat) (s : State) : Result :=
  if activeInst s i && sweepNext (mir s i) lid then done i s (flushBcast i lid s) else .next s

/-! ### Households, teardown, plans -/

/-- The leader's `live_members` falls by 1; a held leader at 0 is FREE (spec/02 R47). -/
def applyHousehold (i : InstId) (lid : Nat) (s : State) : State :=
  match findSeq (mir s i) lid with
  | none => s
  | some q =>
    let s := modRec i lid (fun r => { r with liveMembers := r.liveMembers - 1 }) s
    if q.r.holdHousehold && decide (q.r.liveMembers ≤ 1) then freeHouse i q.r.household (freeSeq i lid s) else recordDone i lid s

/-- HOUSEHOLD (spec/02 R47). -/
def execHousehold (i : InstId) (lid : Nat) (s : State) : Result :=
  match headKind s i lid with
  | some .household => endEvent i s (applyHousehold i lid (releaseEvent i (.seq lid) s))
  | _ => .next s

/-- `context_fault` on a sequence (spec/02 R40, spec/15 R333). -/
def applyTeardown (i : InstId) (lid : Nat) (s : State) : State :=
  if liveLid s i lid then endAlive i lid .aborted reasonContextFault s else s

/-- TEARDOWN (spec/02 R40 `context_fault`, spec/15 R333). -/
def execTeardown (i : InstId) (lid : Nat) (s : State) : Result :=
  match headKind s i lid with
  | some .teardown => endEvent i s (applyTeardown i lid (releaseEvent i (.seq lid) s))
  | _ => .next s

/-- A plan became resident: the record's slot, the warm or the EXTEND that waited (spec/10 R216, R228). -/
def applyPlanReady (i : InstId) (lid : Nat) (s : State) : State :=
  let q := seqOf s i lid
  let s := modSeq i lid (fun q => { q with
    waiting := q.waiting.filter (fun w => match w with | .extend .. => false | _ => true)
    r := { q.r with planSlot := if q.r.hot && q.r.planValid then ((findPlan (mir s i) q.r.planId).map (·.slot)).getD 0xFF else q.r.planSlot } }) s
  let s := q.waiting.foldl (fun s w => match w with | .extend toks mode nest st cmd => applyExtend i lid toks mode nest st cmd s | _ => s) s
  if liveLid s i lid then forceStart i lid s else s

/-- PLAN_READY (spec/10 R216, spec/12 R251). -/
def execPlanReady (i : InstId) (lid : Nat) (s : State) : Result :=
  match headKind s i lid with
  | some .planReady => endEvent i s (applyPlanReady i lid (releaseEvent i (.seq lid) s))
  | _ => .next s

/-! ### Dusk entries of sequences (spec/12 R261-R265) -/

/-- The handle that a sequence's record has for a list. -/
def handleOf (s : State) (i : InstId) (lid list : Nat) : Nat := (seqOf s i lid).r.duskHandles.getD list noHandle

/-- The record names no entry of the list any more: it has fired (spec/12 R261, R265); a cold record's Attic copy follows (spec/02 R45). -/
def spendHandle (i : InstId) (list lid : Nat) (s : State) : State :=
  writeAttic i lid (modRec i lid (fun r => { r with duskHandles := modAt r.duskHandles list fun _ => noHandle }) s)

/-- What the deadline entry does when it fires (spec/12 R262). -/
def applyDeadline (i : InstId) (lid due : Nat) (s : State) : State :=
  let q := seqOf s i lid
  if !q.r.state.live then s
  else if q.r.deadlineTick < due then endAlive i lid .aborted reasonDeadline s
  else if q.r.maxWallTicks ≠ 0 ∧ q.r.maxWallTicks ≤ wallSpent q then
    endOrWait i lid .finished reasonWall .wall s
  else writeAttic i lid (retime i lid s)

/-- DEADLINE_ENTRY: the TIMER of a deadline entry, applied in its turn in the flow (spec/12 R253, R262, R263, R265). -/
def execDeadlineEntry (i : InstId) (lid : Nat) (s : State) : Result :=
  let u := fireDue i 0 (.seq lid) s
  match dueTimer u i 0 (.seq lid) with
  | none => done i s u
  | some (h, due) =>
    let t := releaseEvent i (.seq lid) u
    if handleOf t i lid 0 != h then done i s (countStale i 0 t)
    else endEvent i s (applyDeadline i lid due (spendHandle i 0 lid t))

/-- PARK_WAKE: the TIMER of a park timeout, which acts as RESUME; held from Evening to the end of Morning (spec/12 R265); one that finds its sequence no longer PARKED is not counted stale (DESIGN CHOICE, log 121). -/
def execParkWake (i : InstId) (lid : Nat) (s : State) : Result :=
  let u := fireDue i 2 (.seq lid) s
  match dueTimer u i 2 (.seq lid) with
  | none => done i s u
  | some (h, due) =>
    let t := releaseEvent i (.seq lid) u
    if handleOf t i lid 2 != h then done i s (countStale i 2 t)
    else
      let t := spendHandle i 2 lid t
      if (mir s i).kitchen.turn != .service then done i s (modSeq i lid (fun q => { q with heldWake := some due }) t)
      else endEvent i s (if (seqOf t i lid).r.state == .parked then (applyResume i lid t).1 else t)

end Sys2Proof.Machine
end

