-- ==== Sys2Proof/Machine/Stage.lean ====
section
/-! DEFINITION. What composition hands to the sampler: the row set-ups of a step's logit rows, the Landing's rows, the outposts' draw lists (spec/07 R159, spec/08 R186), and the messages on the channels (spec/07 R166). -/

namespace Sys2Proof.Machine

open Sys2Proof

/-! ### Channels -/

/-- The message queues of an outpost's channel to an instance. -/
def upOf (o : Outpost) : InstId → List UpMsg
  | .A => o.upA
  | .B => o.upB

def downOf (o : Outpost) : InstId → List DownMsg
  | .A => o.downA
  | .B => o.downB

def upPut (i : InstId) (l : List UpMsg) (o : Outpost) : Outpost :=
  match i with
  | .A => { o with upA := l }
  | .B => { o with upB := l }

def downPut (i : InstId) (l : List DownMsg) (o : Outpost) : Outpost :=
  match i with
  | .A => { o with downA := l }
  | .B => { o with downB := l }

/-- The instance sends a message to an outpost; the Landing's ring records it (spec/18 R397). -/
def sendDown (i : InstId) (m : DownMsg) (o : Nat) (s : State) : State :=
  ringMessage i 1 m.h.step (.down m) (modOutpost o (fun x => downPut i (downOf x i ++ [m]) x) s)

/-- The instance sends a message to every outpost of a set. -/
def sendAll (i : InstId) (m : DownMsg) (mask : BitVec 8) (s : State) : State :=
  (outList mask).foldl (fun s o => sendDown i m o s) s

/-! ### Row set-ups -/

/-- The counted entries of the window with `drafts` appended: one entry an element, none where it is not counted (spec/06 R133, R134). -/
def windowEntries (hbm : Mem) (rc : Recipe) (r : Record) (drafts : List Nat) : List (Option Nat) :=
  (List.range (r.committedLen - r.penaltyStart)).map (fun j =>
    let a := r.trailAddr + 16 * (r.penaltyStart + j)
    if isExtend (leNat (memGets hbm (a + 6) 2)) && !rc.penaliseExtend then none else some (leNat (memGets hbm a 4) % 2 ^ 20))
  ++ drafts.map some

/-- Stage 2 of the window's advance: at most 4,096 distinct tokens (spec/06 R134). -/
def trimWindow : Nat → List (Option Nat) → List (Option Nat)
  | 0, l => l
  | n + 1, l => if 4096 < (l.filterMap id).eraseDups.length then trimWindow n (l.drop 1) else l

/-- The penalty list of a row: (token, count) (spec/07 R159), its window by the recipe as it is defined when the row is composed (DESIGN CHOICE, log 117). -/
def penaltyList (hbm : Mem) (rc : Recipe) (r : Record) (drafts : List Nat) : List (Nat × Nat) :=
  if rc.penaltySpan = 0 then []
  else
    let es := windowEntries hbm rc r drafts
    let toks := (trimWindow es.length (es.drop (es.length - rc.penaltySpan))).filterMap id
    toks.eraseDups.map fun t => (t, toks.count t)

/-- Children of a draft node, in child order (spec/09 R194). -/
def kidsOf (rc : Recipe) (fin p : Nat) : List Nat :=
  ((List.range fin).map (· + 1)).filter fun n => (if rc.draftMode = 2 then rc.draftTree.getD n 0 else n - 1) == p

/-- The ordinal of a node's draws (spec/09 R209). -/
def nodeOrdinal (rc : Recipe) (n : Nat) : Nat := if rc.draftMode = 2 then n else 0

/-- The key of a sequence's draws (spec/08 R174). -/
def seedOf (m : Mirrored) (r : Record) : List Byte := slice (if r.seedGiven then r.seed else (getCtx m r.context).cfg.seed) 0 16

/-- The draw slot of an ordinal in the present round (spec/08 R183). -/
def drawSlot (r : Record) (ord : Nat) : Nat := r.drawSlotCursor % 2 ^ 24 * 256 + ord

/-- The node at whose context logit row `sub` of a row stands: node `sub` of a pair, the parent expanded by a DRAFT row, else the root. -/
def rowNode (rc : Recipe) (q : Seq) (row : StepRow) (sub : Nat) : Nat :=
  match row.kind with
  | .verify | .draftScore => sub
  | .draft => if rc.draftMode = 2 then rc.draftTree.getD (q.draftList.length + 1) 0 else q.draftList.length
  | .prefill | .decode => 0

/-- The draws of a verification at node `p` of the round: the test of each child with the draw that follows a rejection, or the bonus draw where there is no child (spec/09 R205-R209, spec/08 R181). -/
def verifyDraws (rc : Recipe) (q : Seq) (p : Nat) : List RowDraw :=
  let kids := kidsOf rc q.draftList.length p
  let pos := q.r.kvLen + (nodePath rc 64 p).length + 1
  if kids.isEmpty then [{ kind := kindBonus, position := pos, low := drawSlot q.r 0 }]
  else kids.map (fun c => { kind := kindAccept, position := pos, low := drawSlot q.r (nodeOrdinal rc c) })
    ++ [{ kind := if rc.draftMode = 2 then kindResample else kindResidual, position := pos, low := drawSlot q.r 0 }]

/-- The 64-bit draws of logit row `sub` of a row: INVERSE for the sampled token, or for each child that a DRAFT row draws; those of the verification at a slot of a VERIFY row (spec/08 R181, spec/09 R199, R209). -/
def rowDraws (rc : Recipe) (q : Seq) (row : StepRow) (sub : Nat) : List RowDraw :=
  match row.kind with
  | .verify => verifyDraws rc q sub
  | .draftScore => []
  | .draft =>
    let p := if rc.draftMode = 2 then rc.draftTree.getD (q.draftList.length + 1) 0 else q.draftList.length
    (if rc.draftMode = 2 then kidsOf rc rc.draftLen p else [q.draftList.length + 1]).map fun n =>
      { kind := kindInverse, position := q.r.kvLen + (nodePath rc 64 n).length, low := drawSlot q.r (nodeOrdinal rc n) }
  | .prefill | .decode => if rc.drawRace then [] else [{ kind := kindInverse, position := seqT q.r, low := drawSlot q.r 0 }]

/-- The set-up of logit row `sub` of a row (spec/07 R159). DESIGN CHOICE (log 99): a slot behind a draft that the plan cannot take has no plan state, and no plan mask. -/
def setupOf (s : State) (i : InstId) (st : Step) (row : StepRow) (sub : Nat) : RowSetup :=
  let m := mir s i
  let q := getSeq m row.lid
  let rc := (findRecipe m q.r.recipe).getD {}
  let at' := row.waveRow + sub
  let w := if st.wide then 32 else 64
  let path := (nodePath rc 64 (rowNode rc q row sub)).map fun k => q.draftList.getD (k - 1) 0
  let plan := if q.r.planValid then (residentPlan m q.r.planId).bind (fun p =>
      (pathState p q.r path).map fun x => (q.r.planId, bandMask p x.1 x.2)) else none
  { h := { step := step24 st.num, wave := row.wave.getD 0 + at' / w, row := at' % w }, vocab := st.vocab, wide := st.wide,
    outposts := st.outposts, firstHalf := st.firstHalf, recipe := rc, draft := row.kind == .draft || row.kind == .draftScore,
    verify := row.kind == .verify,
    penalty := penaltyList s.hbm rc q.r path, plan := plan,
    draw := { key := seedOf m q.r, drawId := q.r.drawId, position := seqT q.r + path.length, draws := rowDraws rc q row sub } }

/-- The Landing's rows of a step, in wave order. -/
def landRows (s : State) (i : InstId) (st : Step) : List LandRow :=
  st.rows.zipIdx.flatMap fun p => (List.range p.1.logitCount).map fun j =>
    { su := setupOf s i st p.1 j, rowIdx := p.2, sub := j, lid := p.1.lid }

/-- The plans of a step take map slots at an outpost: those that hold one keep it, the others take a free one of the 8 or that of the plan least recently used by another step (spec/10 R224, R225). -/
def assignMaps (tick : Nat) (plans : List Nat) (ms : List MapSlot) : List MapSlot :=
  let touched := ms.map fun m => if plans.contains m.plan then { m with lastUse := tick } else m
  plans.foldl (fun ms p =>
    if ms.any (·.plan == p) then ms
    else
      let keep := if ms.length < 8 then ms
        else match firstBy (fun a b => decide (a.lastUse < b.lastUse)) (ms.filter fun m => !plans.contains m.plan) with
          | some v => ms.filter (· != v)
          | none => ms
      keep ++ [{ plan := p, lastUse := tick }]) touched

/-- Stage a step's logit rows: the Landing's rows, ROW_SETUP to every outpost, the draw lists, the map slots of its plans (spec/07 R159, spec/08 R186, spec/10 R224). -/
def stageSampler (i : InstId) (st : Step) (s : State) : State :=
  let rows := landRows s i st
  let plans := (rows.filterMap fun r => r.su.plan.map (·.1)).eraseDups
  let s := modInst i (fun x => { x with landing := x.landing ++ rows }) s
  let s := (outList st.outposts).foldl (fun s o =>
    modOutpost o (fun x => { x with drawsPending := x.drawsPending ++ [{ step := step24 st.num, rows := rows.map (·.su) }], maps := assignMaps s.tick plans x.maps }) s) s
  rows.foldl (fun s r => sendAll i (.rowSetup r.su) st.outposts s) s

end Sys2Proof.Machine
end

