-- ==== Sys2Proof/Machine/Compose.lean ====
section
/-! DEFINITION. Composing a step (spec/04 R73-R92, spec/05 R107-R115, R125, R126, spec/09 R193-R204, spec/10 R224, R229, spec/15 R319-R327): candidates, their order, the limits, the pages, the manifest and page table, the doorbells; preemption and eviction. -/

namespace Sys2Proof.Machine

open Sys2Proof

/-! ### Drafting (spec/09 R193, R196, R197) -/

/-- The draft model that a sequence's recipe names now, with its committed epoch (spec/09 R193). -/
def namesDraft (m : Mirrored) (q : Seq) : Option (Nat × EpochDesc) :=
  match findRecipe m q.r.recipe with
  | none => none
  | some rc =>
    let d := getModel m rc.draftModel
    let t := getModel m q.r.model
    match d.committed, epochOf t q.r.epoch with
    | some de, some te =>
      if rc.draftValid && d.state == .resident && de.vocab == te.vocab && d.wide == t.wide && !(rc.draftMode == 2 && t.wide && decide (31 < rc.draftLen))
      then some (rc.draftModel, de) else none
    | _, _ => none

/-- Depth of a draft node. -/
def nodeDepth (rc : Recipe) (n : Nat) : Nat := (nodePath rc 64 n).length

/-- The parent of a draft node. -/
def parentOf (rc : Recipe) (n : Nat) : Nat := if rc.draftMode = 2 then rc.draftTree.getD n 0 else n - 1

/-- The nodes of a round's shape; 0 where the sequence has no shape (spec/09 R196). -/
def shapeLen (rc : Recipe) (r : Record) : Nat :=
  let room := min (r.maxNewTokens - r.newTokens) (r.trailCapacity - r.committedLen)
  if rc.draftMode = 2 then
    let deep := ((List.range rc.draftLen).map fun k => nodeDepth rc (k + 1)).foldl max 0
    if deep < room then rc.draftLen else 0
  else min rc.draftLen (room - 1)

/-- The draft-valid length under the draft model's present epoch (spec/09 R201). -/
def draftValidNow (q : Seq) (d : Nat × EpochDesc) : Nat := if q.draftEpoch == some (d.1, d.2.epoch) then q.draftValid else 0

/-! ### Candidates (R80, R81, spec/09 R197) -/

/-- One row of a candidate: its span, its chain, its logit rows, its input tokens, its prefill tokens. -/
structure RowPlan where
  kind : RowKind
  a : Nat
  b : Nat
  draft : Bool := false
  logits : Nat := 0
  tokens : List Nat := []
  prefill : Nat := 0
  deriving DecidableEq, Repr

/-- A candidate: the row or pair of rows that an eligible sequence gives. -/
structure Candidate where
  lid : Nat
  rows : List RowPlan
  draftModel : Option (Nat × Nat) := none
  deriving DecidableEq, Repr

/-- The token at a position of a sequence, from its prompt or its trail (R89). -/
def positionToken (hbm : Mem) (r : Record) (p : Nat) : Nat :=
  (if p < r.promptLen then leNat (memGets hbm (r.promptAddr + 4 * p) 4) else leNat (memGets hbm (r.trailAddr + 16 * (p - r.promptLen)) 4)) % 2 ^ 20

def spanTokens (hbm : Mem) (r : Record) (a b : Nat) : List Nat := (List.range (b - a)).map fun k => positionToken hbm r (a + k)

/-- The chunk of `total` positions from `kv` under a limit (R84). -/
def chunkOf (kv total limit free P : Nat) : Nat :=
  let c := min total (min limit free)
  if c = total then c
  else
    let e := (kv + c) / P * P
    if kv < e then e - kv else c

/-- A PREFILL row over [`kv_len`, `fin`) (R81, R84). -/
def prefillRow (hbm : Mem) (r : Record) (fin limit free : Nat) : List RowPlan :=
  let c := chunkOf r.kvLen (fin - r.kvLen) limit free (pageP r)
  if c = 0 then [] else [{ kind := .prefill, a := r.kvLen, b := r.kvLen + c, tokens := spanTokens hbm r r.kvLen (r.kvLen + c), prefill := c }]

/-- A DECODE row over all pending input (R81, R85). -/
def decodeRow (hbm : Mem) (r : Record) : List RowPlan :=
  [{ kind := .decode, a := r.kvLen, b := seqT r, logits := 1, tokens := spanTokens hbm r r.kvLen (seqT r), prefill := seqT r - r.kvLen - 1 }]

/-- An input-token entry of a drafting row: a tree's entries carry the parent node (spec/09 R204). -/
def draftEntry (rc : Recipe) (tok n : Nat) : Nat :=
  if rc.draftMode = 2 then tok + 2 ^ 20 * (if n = 0 then 0xFF else parentOf rc n) else tok

/-- The token of node `n`: the last committed token at the root (spec/09 R199). -/
def nodeToken (hbm : Mem) (q : Seq) (n : Nat) : Nat := if n = 0 then positionToken hbm q.r (seqT q.r - 1) else q.draftList.getD (n - 1) 0

/-- The drafting rows of a DECODING sequence (spec/09 R197, R199, R201, R202). -/
def draftingRows (m : Mirrored) (hbm : Mem) (q : Seq) (d : Nat × EpochDesc) (limit free : Nat) : List RowPlan :=
  let rc := (findRecipe m q.r.recipe).getD {}
  let r := q.r
  let n := q.draftList.length
  let force := (forceState m r).isSome
  let ld := draftValidNow q d
  if 2 ≤ seqT r - r.kvLen || shapeLen rc r = 0 then (if force then [] else decodeRow hbm r)
  else if n = 0 && decide (ld < r.kvLen) then
    let c := chunkOf ld (r.kvLen - ld) limit free (modelP m d.1)
    if c = 0 then [] else [{ kind := .draftScore, a := ld, b := ld + c, draft := true, tokens := spanTokens hbm r ld (ld + c), prefill := c }]
  else if force then []
  else if n < shapeLen rc r && !q.draftStopped then
    let p := parentOf rc (n + 1)
    [{ kind := .draft, a := r.kvLen + p, b := r.kvLen + p + 1, draft := true, logits := 1, tokens := [draftEntry rc (nodeToken hbm q p) p] }]
  else
    let toks := (List.range (n + 1)).map fun k => draftEntry rc (nodeToken hbm q k) k
    [{ kind := .verify, a := r.kvLen, b := r.kvLen + n + 1, logits := n + 1, tokens := toks },
     { kind := .draftScore, a := r.kvLen, b := r.kvLen + n + 1, draft := true, logits := n }]

/-- The member that heads the household's prompt prefill: the leader, or the lowest ordinal while the leader cannot (R37, R81; DEDUCED, log 30). -/
def prefixHead (m : Mirrored) (q : Seq) : Bool :=
  !((members m q.r.household).any fun x => (x.r.state == .admitted || x.r.state == .prefilling) && decide (x.r.kvLen < x.r.promptLen - 1)
      && decide (x.r.ordinal < q.r.ordinal))

/-- Members of a household that reheat with `kv_len` below L - 1 (spec/05 R124). -/
def reheatingPrefix (m : Mirrored) (q : Seq) : List Seq :=
  (members m q.r.household).filter fun x => x.r.state == .reheating && decide (x.r.kvLen < x.r.promptLen - 1)

/-- The rows that an eligible sequence gives, with `free` prefill tokens left (R81, R84; spec/05 R124; spec/10 R227). -/
def candidateRows (m : Mirrored) (hbm : Mem) (q : Seq) (limit free : Nat) : List RowPlan × Option (Nat × Nat) :=
  let r := q.r
  match r.state with
  | .admitted =>
    if r.promptLen = 1 then (if (forceState m r).isSome then [] else decodeRow hbm r, none)
    else if prefixHead m q then (prefillRow hbm r (r.promptLen - 1) limit free, none) else ([], none)
  | .prefilling =>
    if inPrefix q then (if prefixHead m q then (prefillRow hbm r (r.promptLen - 1) limit free, none) else ([], none))
    else (prefillRow hbm r (seqT r - 1) limit free, none)
  | .reheating =>
    let ms := reheatingPrefix m q
    if decide (r.kvLen < r.promptLen - 1) && decide (1 < ms.length) then
      (if ms.all (fun x => decide (r.ordinal ≤ x.r.ordinal)) then prefillRow hbm r (r.promptLen - 1) limit free else [], none)
    else (prefillRow hbm r (seqT r - 1) limit free, none)
  | .decoding =>
    match namesDraft m q with
    | some d => (draftingRows m hbm q d limit free, some (d.1, d.2.epoch))
    | none => (if (forceState m r).isSome then [] else decodeRow hbm r, none)
  | _ => ([], none)

/-- Events in a flow that keep its sequence out of a step (R80, spec/11 R237, spec/05 R124). -/
def blocksRow : EvKind → Bool
  | .cancel _ | .park _ _ | .evictPark | .midnight _ | .epochAbort _ | .teardown | .evening | .prefixTake _ | .migrateOut _ _ _
  | .forceRun | .invalidate | .warm _ | .extend .. => true
  | _ => false

/-- A wall event waits to be applied: the deadline list's entry has fired and the wall budget is reached (R80, spec/12 R262). -/
def wallWaits (x : Inst) (q : Seq) : Bool :=
  q.r.maxWallTicks != 0 && decide (q.r.maxWallTicks ≤ wallSpent q) && flowHas x.hall (.seq q.r.localId) fun e => match e with | .timer 0 _ _ => true | _ => false

/-- The record's side of eligibility: hot, in a state for rows, no row in flight, alive, its plan resident, its KV under its epoch's tag, nothing waiting (R80, spec/05 R118). -/
def eligibleRecord (x : Inst) (tick : Nat) (q : Seq) : Bool :=
  let m := x.mir
  q.r.hot && (q.r.state.composed || (q.r.state == .admitted && q.passed))
    && (stepOfSeq m q.r.localId).isNone && decide (tick ≤ q.r.deadlineTick)
    && (!q.r.planValid || (residentPlan m q.r.planId).isSome)
    && q.waiting.isEmpty && !flowHas x.hall (.seq q.r.localId) blocksRow && !wallWaits x q
    && (epochOf (getModel m q.r.model) q.r.epoch).isSome && q.r.layoutTag == tagOf m q.r
    && (getModel m q.r.model).state == .resident && ((getModel m q.r.model).stage != .armed || m.kitchen.rerun.contains (q.r.model, q.admitNo))
    && !(getCtx m q.r.context).cqHold && (getCtx m q.r.context).isOpen && !(getCtx m q.r.context).faulted

/-! ### Regulators (spec/15 R318, R319) -/

/-- Rows of a context in uncommitted steps, not yet committed. -/
def pendingRows (m : Mirrored) (c : Nat) : List StepRow :=
  m.kitchen.steps.flatMap fun st => if uncommitted st then (st.rows.zipIdx.filter fun p => p.1.context == c && !st.committedRows.contains p.2).map (·.1) else []

/-- A bucket permits a charge over what is pending (spec/15 R319). -/
def bucketOk (b : Bucket) (pending charge : Nat) : Bool := decide ((65536 * (min charge b.capacity : Nat) : Int) ≤ b.level - 65536 * (pending : Nat))

/-- The HBM charge of rows in KiB (spec/15 R318). -/
def hbmChargeOf (x : Inst) (pts dirs : Nat) : Nat := (pts + dirs) * 2 ^ frameLog2 x / 1024

def rowReq (m : Mirrored) (lid : Nat) (dm : Option (Nat × Nat)) (p : RowPlan) : EnsureReq :=
  { lid := lid, a := p.a, b := p.b, pageSize := if p.draft then ((dm.map fun d => modelP m d.1).getD 1) else pageP (getSeq m lid).r, draft := p.draft }

/-- Pages reached and pages copied by a row, before its pages are ensured. -/
def rowPages (q : Seq) (e : EnsureReq) : Nat × Nat :=
  (ceilDiv e.b e.pageSize, ((List.range (ceilDiv e.b e.pageSize)).filter fun k => decide (e.a / e.pageSize ≤ k) &&
    (match chainEntry q e.draft k with | some y => y.shared | none => false)).length)

/-- The buckets of a candidate's context permit it, over the context's pending rows and those chosen already (R80, spec/15 R319, R320). -/
def permitted (x : Inst) (q : Seq) (c : Candidate) (chosen : List StepRow) : Bool :=
  if q.r.cls = 0 then true
  else
    let cx := getCtx x.mir q.r.context
    let pend := pendingRows x.mir q.r.context ++ chosen.filter (·.context == q.r.context)
    let logits := sumNat (c.rows.map (·.logits))
    let charge := sumNat (c.rows.map fun p => let n := rowPages q (rowReq x.mir c.lid c.draftModel p); hbmChargeOf x n.1 n.2)
    (decide (logits = 0) || bucketOk cx.row (sumNat (pend.map (·.logitCount))) logits)
      && bucketOk cx.hbm (sumNat (pend.map (·.hbmCharge))) charge

/-! ### Latches (spec/15 R325, R327) -/

/-- The enabled latches that keep a context's candidate of a model out. -/
def latchBlocks (m : Mirrored) (model c : Nat) : List Nat :=
  (List.range 256).filter fun k => let l := getLatch m k; l.enable && l.models.getLsbD model && l.held && l.owner != c

def latched (m : Mirrored) (model : Nat) : Bool := m.latches.any fun l => l.enable && l.models.getLsbD model

/-- More than 8 enabled latches name the model: its steps are passed over (R330). -/
def overLatched (m : Mirrored) (model : Nat) : Bool := decide (8 < (m.latches.filter fun l => l.enable && l.models.getLsbD model).length)

/-- The raises that act on a context's rows of a model: each for one step, so none while a step raised for its latch is under way (spec/15 R327). -/
def raisesFor (m : Mirrored) (model c : Nat) : List (Nat × Nat × Nat) :=
  m.kitchen.raises.filter fun r => r.2.1 == c && (getLatch m r.1).models.getLsbD model && !(m.kitchen.steps.any fun st => uncommitted st && st.raisedBy.contains r.1)

/-- The smallest of a class and the classes of raises. -/
def raisedClass (cls : Nat) (rs : List (Nat × Nat × Nat)) : Nat := rs.foldl (fun n r => min n r.2.2) cls

/-- The class at which a candidate is ranked: lowered by the raises of its context (spec/15 R327). -/
def rankClass (m : Mirrored) (q : Seq) : Nat := raisedClass q.r.cls (raisesFor m q.r.model q.r.context)

/-! ### The selection order (R82) -/

/-- Effective deadline (R82). -/
def effDeadline (m : Mirrored) (tick : Nat) (q : Seq) : Nat :=
  if m.kitchen.starveSteps ≠ 0 ∧ m.kitchen.starveSteps ≤ q.passedOver then tick else q.r.deadlineTick

/-- Keys 1, 2, then 3 where `houses` is given, 4, 5 (R82). -/
def before (m : Mirrored) (tick : Nat) (houses : List Nat) (a b : Seq) : Bool :=
  let ka := rankClass m a
  let kb := rankClass m b
  let da := effDeadline m tick a
  let db := effDeadline m tick b
  let ha := bit (!houses.contains a.r.household)
  let hb := bit (!houses.contains b.r.household)
  if ka ≠ kb then decide (ka < kb)
  else if da ≠ db then decide (da < db)
  else if ha ≠ hb then decide (ha < hb)
  else if a.r.lastStep ≠ b.r.lastStep then decide (a.r.lastStep < b.r.lastStep)
  else decide (a.r.localId < b.r.localId)

/-! ### Effective limits (R78, R79) -/

/-- The class-0 caps apply (R79). -/
def capsApply (m : Mirrored) : Bool := m.seqs.any fun q => q.r.cls == 0 && (q.r.state.composed || (q.r.state == .admitted && q.passed))

def effLogitOf (m : Mirrored) : Nat :=
  let k := m.kitchen
  if capsApply m then max (min k.stepLogitLimit k.c0LogitCap) m.foyer.c0Sequences else k.stepLogitLimit

def effPrefillOf (m : Mirrored) : Nat :=
  let k := m.kitchen
  if capsApply m then min k.stepPrefillLimit k.c0PrefillCap else k.stepPrefillLimit

/-! ### Choosing rows (R82, R107) -/

/-- A composition under way. -/
structure Comp where
  s : State
  rows : List StepRow := []
  copies : List CopyDir := []
  logits : Nat := 0
  prefill : Nat := 0
  positions : Nat := 0
  pts : Nat := 0
  plans : List Nat := []
  draft : Option (Nat × Nat) := none
  ctx : Option Nat := none
  houses : List Nat := []
  /-- The first candidate whose pages could not be ensured, and its shortfall (spec/05 R125). -/
  demander : Option (Nat × Nat) := none
  failed : Nat := 0
  deriving DecidableEq, Repr

/-- The wave of a step's logit row `n` (R83). -/
def waveSize (wide : Bool) : Nat := if wide then 32 else 64

/-- The limits other than pages that a candidate must fit (R78, R85, spec/05 R110, spec/09 R197, R203, spec/10 R224, spec/15 R325). -/
def fits (m : Mirrored) (wide : Bool) (q : Seq) (c : Candidate) (k : Comp) (effL effP : Nat) : Bool :=
  let logits := sumNat (c.rows.map (·.logits))
  let prefill := sumNat (c.rows.map (·.prefill))
  let toks := sumNat (c.rows.map fun p => p.tokens.length)
  let drafting := c.rows.any (·.draft)
  decide (k.logits + logits ≤ effL) && decide (k.prefill + prefill ≤ effP) && decide (k.rows.length + c.rows.length ≤ 20480)
    && decide (k.positions + toks ≤ 278528)
    && (!drafting || ((k.draft.isNone || k.draft == c.draftModel) && ((c.draftModel.map fun d => (getModel m d.1).stage != .armed || m.kitchen.rerun.contains (d.1, (getSeq m c.lid).admitNo)).getD true)))
    && (!(c.rows.any (·.kind == .verify)) || decide ((k.logits + logits - 1) / waveSize wide ≤ k.logits / waveSize wide + 1))
    && (!q.r.planValid || k.plans.contains q.r.planId || decide (k.plans.length < 8))
    && (!latched m q.r.model || k.ctx.isNone || k.ctx == some q.r.context)

/-- The rows of a candidate as entries of the row table, their pages ensured (R89, spec/05 R111, R112). -/
def addRows (i : InstId) (c : Candidate) (k : Comp) : Comp :=
  c.rows.foldl (fun k p =>
    let x := getInst k.s i
    let q := getSeq x.mir c.lid
    let e := rowReq x.mir c.lid c.draftModel p
    let s := ensureTake i [e] k.s
    let q' := seqOf s i c.lid
    let pt := ptEntries q' e
    let idx := k.rows.length
    let dirs := copyDirs q' e idx
    let second := p.kind == .draftScore && decide (0 < p.logits)
    let row : StepRow :=
      { lid := c.lid, context := q.r.context, cls := q.r.cls, kind := p.kind, start := p.a, count := p.b - p.a,
        tokenOffset := if second then k.positions - (p.b - p.a) else k.positions, tokens := p.tokens, ptOffset := k.pts, pt := pt,
        logitCount := p.logits, pair := if p.kind == .verify then some (idx + 1) else if second then some (idx - 1) else none,
        planId := if q.r.planValid then some q.r.planId else none, hbmCharge := hbmChargeOf x pt.length dirs.length, admitNo := q.admitNo }
    { k with
      s := s, rows := k.rows ++ [row], copies := k.copies ++ dirs, logits := k.logits + p.logits, prefill := k.prefill + p.prefill,
      positions := k.positions + p.tokens.length, pts := k.pts + pt.length,
      plans := if q.r.planValid && !k.plans.contains q.r.planId then k.plans ++ [q.r.planId] else k.plans,
      draft := if p.draft && k.draft.isNone then c.draftModel else k.draft,
      ctx := some q.r.context, houses := if k.houses.contains q.r.household then k.houses else q.r.household :: k.houses }) k

/-- Offer one candidate to the step: trimmed, tested, added or passed over (R82, R84, R107). -/
def tryCandidate (i : InstId) (wide : Bool) (effL effP : Nat) (lid : Nat) (k : Comp) : Comp :=
  let x := getInst k.s i
  let m := x.mir
  let q := getSeq m lid
  let rs := candidateRows m k.s.hbm q m.kitchen.chunkLimit (effP - k.prefill)
  let c : Candidate := { lid := lid, rows := rs.1, draftModel := rs.2 }
  if c.rows.isEmpty || !fits m wide q c k effL effP || !permitted x q c k.rows then k
  else
    let es := c.rows.map (rowReq m lid c.draftModel)
    let pages := es.map (rowPages q)
    let lack := ensureLack x q es + ensureBlocksLack x q es
    if lack ≠ 0 || decide (16515072 < k.pts + sumNat (pages.map (·.1))) || decide (20480 < k.copies.length + sumNat (pages.map (·.2))) then
      { k with demander := if k.demander.isNone then some (lid, lack) else k.demander, failed := k.failed + 1 }
    else addRows i c k

/-- Choose rows until no candidate remains (R82). -/
def chooseRows (i : InstId) (tick : Nat) (wide : Bool) (effL effP : Nat) : Nat → List Nat → Comp → Comp
  | 0, _, k => k
  | n + 1, lids, k =>
    let m := mir k.s i
    match firstBy (fun a b => before m tick k.houses a b) (lids.map (getSeq m)) with
    | none => k
    | some q => chooseRows i tick wide effL effP n (lids.filter (· != q.r.localId)) (tryCandidate i wide effL effP q.r.localId k)

/-! ### Before choosing: plan faults, drafts given up, waits on latches -/

/-- A DECODING sequence whose recipe names no draft model, or whose draft model's epoch has changed, has its draft list emptied and L_d set to 0 (spec/09 R201, R213). -/
def refreshDraft (m : Mirrored) (q : Seq) : Seq :=
  if q.r.state != .decoding then q
  else match namesDraft m q with
    | none => if q.draftList.isEmpty && !q.draftStopped then q else emptyDraft q
    | some d => if q.draftEpoch.isSome && q.draftEpoch != some (d.1, d.2.epoch) then { emptyDraft q with draftValid := 0, draftEpoch := none } else q

/-- Eligible but for its plan: the plan faults that composition meets (spec/10 R229). -/
def faultyPlan (x : Inst) (q : Seq) : Bool :=
  q.r.hot && (q.r.state.composed || (q.r.state == .admitted && q.passed)) && (stepOfSeq x.mir q.r.localId).isNone && planFault x.mir q.r

/-- Plan faults and drafts, met at a composition. -/
def preCompose (i : InstId) (s : State) : State :=
  let bad := ((mir s i).seqs.filter (faultyPlan (getInst s i))).map (·.r.localId)
  let s := bad.foldl (fun s l => planErrorSeq i l s) s
  modMir i (fun m => { m with seqs := m.seqs.map (refreshDraft m) }) s

/-- The sequence gives a candidate (R81), though a limit of 0 may leave its chunk empty (R82, R84). -/
def givesRows (m : Mirrored) (hbm : Mem) (q : Seq) : Bool := !(candidateRows m hbm q (max 1 m.kitchen.chunkLimit) 1048576).1.isEmpty

/-- Eligible candidates: every condition of R80 that does not depend on the step, the regulators among them. -/
def eligible (x : Inst) (hbm : Mem) (tick : Nat) (q : Seq) : Bool :=
  eligibleRecord x tick q && givesRows x.mir hbm q &&
    (let rs := candidateRows x.mir hbm q x.mir.kitchen.chunkLimit (effPrefillOf x.mir)
     permitted x q { lid := q.r.localId, rows := rs.1, draftModel := rs.2 } [])

/-- The raises that candidates kept out by latches held across a commit make due: for each such latch its owner, at the smallest class that waits (spec/15 R327). -/
def raisesOf (m : Mirrored) (blocked : List (Nat × Nat)) : List (Nat × Nat × Nat) :=
  ((blocked.map (·.1)).eraseDups.filter fun k => (getLatch m k).across).map fun k =>
    (k, (getLatch m k).owner, ((blocked.filter (·.1 == k)).map (·.2)).foldl min 3)

/-- Latches that candidates wait for: `waiting` on each, and the raises of the contexts that hold one across a commit (spec/15 R325, R327, R329). -/
def latchWaits (i : InstId) (qs : List Seq) (s : State) : State :=
  let m := mir s i
  let blocked := qs.flatMap fun q => (latchBlocks m q.r.model q.r.context).map fun k => (k, q.r.cls)
  modKit i (fun k => { k with raises := raisesOf m blocked })
    (modMir i (fun m => { m with latches := m.latches.zipIdx.map fun l => { l.1 with waiting := blocked.any (·.1 == l.2) } }) s)

/-! ### Manifest and page table bytes (R86-R89, spec/05 R110-R112) -/

/-- The latest row of a step to start a wave. -/
def placeRows (wide : Bool) (rows : List StepRow) : List StepRow :=
  (rows.foldl (fun (acc : List StepRow × Nat) r =>
    let w := waveSize wide
    (acc.1 ++ [if r.logitCount = 0 then r else { r with wave := some (acc.2 / w), waveRow := acc.2 % w }], acc.2 + r.logitCount)) ([], 0)).1

def RowKind.code : RowKind → Nat
  | .prefill => 0 | .decode => 1 | .draft => 2 | .verify => 3 | .draftScore => 4

/-- A row entry's 32 bytes (R89). -/
def rowBytes (r : StepRow) : List Byte :=
  leBytes 4 (r.lid + r.context * 2 ^ 22 + r.cls * 2 ^ 26 + r.kind.code * 2 ^ 28) ++ leBytes 4 r.start ++ leBytes 4 r.count ++
    leBytes 4 r.tokenOffset ++ leBytes 4 r.ptOffset ++ leBytes 4 r.pt.length ++ leBytes 2 (r.wave.getD 0xFFFF) ++
    leBytes 1 (if r.wave.isSome then r.waveRow else 0xFF) ++ leBytes 1 r.logitCount ++ leBytes 2 (r.pair.getD 0xFFFF) ++ leBytes 2 0

/-- A page-table entry (spec/05 R112). -/
def ptWord (e : PtEntry) : Nat := e.page + 2 ^ 24 * bit e.write + 2 ^ 25 * bit e.shared + 2 ^ 26 * bit e.copyDst

def copyBytes (c : CopyDir) : List Byte := leBytes 4 c.src ++ leBytes 4 c.dst ++ leBytes 4 c.positions ++ leBytes 4 c.row

/-- Sums over a step. -/
def stepLogits (st : Step) : Nat := sumNat (st.rows.map (·.logitCount))
def stepPositions (st : Step) : Nat := sumNat (st.rows.map fun r => r.tokens.length)
def stepPts (st : Step) : Nat := sumNat (st.rows.map fun r => r.pt.length)

/-- Prefill tokens of a row (R78). -/
def rowPrefill (r : StepRow) : Nat :=
  match r.kind with
  | .prefill => r.count
  | .decode => r.count - 1
  | .draftScore => if r.logitCount = 0 then r.count else 0
  | .draft | .verify => 0

def manifestBase (x : Inst) : Nat := ((look 2 x.place.regions).map (·.base)).getD 0
def pageTableBase (x : Inst) : Nat := ((look 3 x.place.regions).map (·.base)).getD 0

/-- The manifest header (R88). -/
def manifestHeader (x : Inst) (st : Step) : List Byte :=
  let m := x.mir
  let wh := ((epochOf (getModel m st.model) st.epoch).map (·.weightHandle)).getD []
  let dh := match st.draftModel with
    | some d => ((epochOf (getModel m d.1) d.2).map (·.weightHandle)).getD []
    | none => []
  layout 256
    [ lf 0x00 8 st.num, lf 0x08 1 st.model, lf 0x09 1 (match st.draftModel with | some d => d.1 + 128 | none => 0),
      lf 0x0A 2 (bit st.wide + 2 * bit st.fused + 4 * bit st.class0 + 8 * bit st.c0Caps), lf 0x0C 2 st.epoch,
      lf 0x0E 2 (match st.draftModel with | some d => d.2 | none => 0), lf 0x10 2 st.layoutTag, lf 0x12 2 st.fuseIndex, lf 0x14 4 st.vocab,
      (0x18, slice wh 0 16), (0x28, slice dh 0 16), lf 0x38 4 st.rows.length, lf 0x3C 4 (stepLogits st), lf 0x40 4 (stepPositions st),
      lf 0x44 4 (sumNat (st.rows.map rowPrefill)), lf 0x48 2 st.waves, lf 0x4A 1 st.outposts.toNat, lf 0x4B 1 st.firstHalf,
      lf 0x50 8 (pageTableBase x + 0x4000000 * st.slot), lf 0x58 4 (stepPts st), lf 0x60 8 st.composeTick,
      lf 0x68 8 (if st.fused then st.fuseBase else st.num) ]

/-- Write the manifest and the page table of a step into their slots (R86, R87, spec/05 R110). -/
def writeManifest (i : InstId) (st : Step) (s : State) : State :=
  let x := getInst s i
  let b := manifestBase x + 0x200000 * st.slot
  let p := pageTableBase x + 0x4000000 * st.slot
  let s := hbmPut b (manifestHeader x st) s
  let s := hbmPut (b + 0x1000) (st.rows.flatMap rowBytes) s
  let s := hbmPut (b + 0xA1000) (words 4 (st.rows.flatMap (·.tokens))) s
  let head := layout 64 [ lf 0x00 8 st.num, lf 0x08 4 (stepPts st), lf 0x0C 4 st.copies.length, lf 0x10 1 (frameLog2 x),
    lf 0x11 1 (getModel x.mir st.model).pageSizeLog2, lf 0x12 1 (match st.draftModel with | some d => (getModel x.mir d.1).pageSizeLog2 | none => 0) ]
  let s := hbmPut p head s
  let s := hbmPut (p + 0x40) (st.copies.flatMap copyBytes) s
  hbmPut (p + 0x100000) (words 4 (st.rows.flatMap fun r => r.pt.map ptWord)) s

/-! ### Issue -/

/-- The shape that a fused run keeps: sequences, kinds, logit rows (R91). -/
def rowShape (st : Step) : List (Nat × Nat × RowKind × Nat) := st.rows.map fun r => (r.lid, r.admitNo, r.kind, r.logitCount)

/-- The fused run that a step may continue: index, base, and the C0_CAPS bit that is copied; the previous step of its model is the committed one (R91). -/
def fuseOf (m : Mirrored) (fuse : Bool) (st : Step) : Option (Nat × Nat × Bool) :=
  if !fuse then none
  else match m.kitchen.lastCommitted.find? (·.model == st.model) with
    | none => none
    | some p =>
      if rowShape p == rowShape st && p.epoch == st.epoch && p.draftModel == st.draftModel && decide (p.fuseIndex + 1 < m.kitchen.fuseMax)
          && !(m.kitchen.steps.any fun x => x.model == st.model && decide (p.num < x.num))
      then some (p.fuseIndex + 1, if p.fused then p.fuseBase else p.num, p.c0Caps) else none

/-- Number, place and ring a step whose rows are chosen (R73, R83, R86, R90; spec/15 R323, R327). -/
def issue (i : InstId) (fuse : Bool) (k : Comp) (st : Step) : State :=
  let s := k.s
  let x := getInst s i
  let m := x.mir
  let kit := m.kitchen
  let raised := (k.ctx.map (raisesFor m st.model)).getD []
  let credits := min k.rows.length x.stair.credits
  let rows := placeRows st.wide k.rows
  let st := { st with rows := rows, copies := k.copies, draftModel := k.draft, class0 := k.rows.any (·.cls == 0), waves := ceilDiv k.logits (waveSize st.wide),
                      slot := kit.nextSlot, firstHalf := kit.nextHalf, outposts := x.place.outposts, credits := credits,
                      raisedAt := if raised.isEmpty then none else some (raisedClass 3 raised), raisedBy := raised.map (·.1), phase := .issued }
  let st := match fuseOf m fuse st with
    | some f => { st with fused := true, fuseIndex := f.1, fuseBase := f.2.1, c0Caps := f.2.2 }
    | none => { st with fuseBase := st.num }
  let s := modKit i (fun q => { q with
    stepAssigned := st.num
    steps := q.steps ++ [st]
    nextSlot := (q.nextSlot + 1) % 8
    nextHalf := (q.nextHalf + st.waves) % 2
    fused := if st.fused then satTo 32 (q.fused + 1) else q.fused }) s
  let s := modStair i (fun t => { t with credits := t.credits - credits }) s
  let s := raised.foldl (fun s r => modLatch i r.1 (fun y => { y with raises := satTo 32 (y.raises + 1) }) s) s
  let s := match k.ctx with
    | some h => modAcct i h (fun a => { a with raisedSteps := satTo 32 (a.raisedSteps + bit (!raised.isEmpty)) }) s
    | none => s
  let s := writeManifest i st s
  let set := (maskBits 8 st.outposts.toNat).filter fun o => (s.outposts.getD o {}).owner == some i
  let s := { s with notices := s.notices ++ set.map fun o =>
    (o, true, manifestBase x + 0x200000 * st.slot + step24 st.num * 2 ^ 40) }
  let s := ringPush i 0 0x020 1 (step24 st.num) [st.num, 1, st.model, st.epoch, st.slot] s
  let s := ringPush i 0 0x020 2 (step24 st.num) [st.num, 1, st.model, st.epoch, st.slot] s
  stageSampler i st s

/-! ### Eviction (spec/05 R125, R126) -/

/-- Pages that the release of a sequence would free. -/
def wouldFree (m : Mirrored) (q : Seq) : Nat :=
  (q.pages.filter fun e => pageCountOf m.pantry e.page == 1).length + q.draftPages.length + q.ahead.length

/-- The tier of an eligible victim (spec/05 R126). -/
def victimTier (x : Inst) (d q : Seq) : Option Nat :=
  let m := x.mir
  if q.r.cls == 0 || !(decide (d.r.cls < q.r.cls) || (q.r.cls == d.r.cls && decide (d.r.admitTick < q.r.admitTick)))
      || (stepOfSeq m q.r.localId).isSome || wouldFree m q == 0 || flowHas x.hall (.seq q.r.localId) (· == .evictPark) then none
  else match q.r.state with
    | .parked | .paused => if (getModel m q.r.model).state != .resident then some 1 else some 2
    | .prefilling | .decoding | .reheating => some 3
    | _ => none

/-- Victims in order (spec/05 R126); of equal class and admission tick the higher local id first (DESIGN CHOICE, log 94). -/
def victims (x : Inst) (d : Seq) : List Seq :=
  (sortBy (fun a b => decide (a.1 < b.1) || (a.1 == b.1 && (decide (b.2.r.cls < a.2.r.cls) || (a.2.r.cls == b.2.r.cls &&
      (decide (b.2.r.admitTick < a.2.r.admitTick) || (a.2.r.admitTick == b.2.r.admitTick && decide (b.2.r.localId < a.2.r.localId)))))))
    (x.mir.seqs.filterMap fun q => (victimTier x d q).map fun t => (t, q))).map (·.2)

/-- The Pantry's view once a victim's pages are released: a page that two victims alone share is freed by the second (R104, R116). -/
def released (q : Seq) (m : Mirrored) : Mirrored :=
  (seqPages q).foldl (fun m p => unref p m)
    { m with seqs := m.seqs.map fun y => if y.r.localId == q.r.localId then { y with pages := [], draftPages := [], ahead := [] } else y }

/-- Take victims until the pages freed reach the shortfall, `x` being the instance with the pages of those taken released (spec/05 R125). -/
def evictFor (i : InstId) (d : Seq) : Nat → Inst → Nat → State → State
  | 0, _, _, s => s
  | n + 1, x, lack, s =>
    if lack = 0 then s
    else match victims x d with
      | [] => s
      | q :: _ =>
        evictFor i d n { x with mir := released q x.mir } (lack - wouldFree x.mir q)
          (ringPush i 3 0x023 2 0 [q.r.localId, lack, freePages (getInst s i)] (postSeq i q.r.localId .evictPark s))

/-! ### Preemption (spec/15 R322) -/

/-- The class at which a row of a step is judged: the raised class of its step (spec/15 R327, R335). -/
def judgedClass (y : Step) (r : StepRow) : Nat := min r.cls (y.raisedAt.getD 3)

/-- The youngest uncommitted step, where it may be preempted for class `c` (spec/15 R322). -/
def preemptable (m : Mirrored) (c : Nat) : Option Step :=
  match (m.kitchen.steps.filter uncommitted).foldl (fun (b : Option Step) st => match b with
      | some o => if o.num < st.num then some st else some o
      | none => some st) none with
  | none => none
  | some y =>
    if y.phase == .issued && y.landed.isEmpty && y.rows.all (fun r => decide (c < judgedClass y r))
        && (m.kitchen.preemptShield == 0 || y.rows.all fun r => decide ((getSeq m r.lid).shield < m.kitchen.preemptShield))
    then some y else none

/-! ### COMPOSE_STEP -/

/-- Steps outside COMMITTED and KILLED (R75). -/
def inFlightSteps (m : Mirrored) : Nat := (m.kitchen.steps.filter uncommitted).length

/-- The Kitchen composes now: the instance is active, in service, the outposts of its set are owned, by its twin where that has claimed them, and run no self-test, and it has not been taken over, and a manifest slot is free (R75, R86, spec/01 R18, R19, spec/07 R169, spec/11 R244). -/
def kitchenOpen (s : State) (i : InstId) : Bool :=
  activeInst s i && (mir s i).kitchen.turn == .service && (getInst s i).place.outposts != 0
    && (outpostSet s i).all (fun o => (s.outposts.getD o {}).owner.isSome && !(s.outposts.getD o {}).selftest) && !((mir s i).kitchen.steps.any (·.slot == (mir s i).kitchen.nextSlot))

/-- The candidates that may choose a step or enter one. -/
def candidatesOf (s : State) (i : InstId) : List Seq := (mir s i).seqs.filter (eligible (getInst s i) s.hbm s.tick)

/-- The candidates that no latch keeps out (spec/15 R325, R330). -/
def unlatched (m : Mirrored) (l : List Seq) : List Seq := l.filter fun q => (latchBlocks m q.r.model q.r.context).isEmpty && !overLatched m q.r.model

/-- The consecutive steps of its model in which a candidate was eligible and passed over, `mine` being those eligible; a count that has reached `STARVE_STEPS` stands until the candidate is chosen (R82). -/
def notePassed (model : Nat) (chosen mine : List Nat) (m : Mirrored) : Mirrored :=
  let f (q : Seq) : Seq :=
    if chosen.contains q.r.localId then { q with passedOver := 0 }
    else if mine.contains q.r.localId then { q with passedOver := q.passedOver + 1 }
    else if q.r.model == model && !(m.kitchen.starveSteps != 0 && decide (m.kitchen.starveSteps ≤ q.passedOver)) then { q with passedOver := 0 } else q
  { m with seqs := m.seqs.map f }

/-- Choose and issue one step among the candidates of `all` that no latch keeps out, or evict for the first that lacked pages (R82, spec/05 R125). A composition that ends with no row uses no step number (DESIGN CHOICE, log 89). -/
def composeNow (i : InstId) (fuse : Bool) (first : Seq) (all : List Seq) (s : State) : State :=
  let m := mir s i
  let md := getModel m first.r.model
  let ep := (epochOf md first.r.epoch).getD {}
  let caps := capsApply m
  let effL := effLogitOf m
  let effP := effPrefillOf m
  let eligibles := all.filter fun q => q.r.model == first.r.model && q.r.epoch == first.r.epoch
  let mine := (unlatched m eligibles).map (·.r.localId)
  let s := modKit i (fun k => { k with c0Caps := caps, effLogit := effL, effPrefill := effP }) s
  let k := chooseRows i s.tick md.wide effL effP mine.length mine { s := s }
  let k := { k with s := modKit i (fun y => { y with passedOver := satTo 32 (y.passedOver + k.failed) }) k.s }
  let t := if k.rows.isEmpty then k.s
    else
      let st : Step := { num := m.kitchen.stepAssigned + 1, model := first.r.model, epoch := first.r.epoch, layoutTag := ep.layoutTag, vocab := ep.vocab,
                         wide := md.wide, c0Caps := caps, composeTick := s.tick }
      let chosen := k.rows.map (·.lid)
      issue i fuse { k with s := modMir i (notePassed first.r.model chosen (eligibles.map (·.r.localId))) k.s } st
  match k.demander with
  | some (l, lack) =>
    evictFor i (seqOf t i l) (mir t i).seqs.length (getInst t i) lack (ringPush i 3 0x023 1 0 [l, lack, freePages (getInst t i)] t)
  | none => t

/-- The step that a composition issued holds a row of the candidate. -/
def composedFor (s t : State) (i : InstId) (lid : Nat) : Bool :=
  (mir t i).kitchen.steps.any fun st => decide ((mir s i).kitchen.stepAssigned < st.num) && st.rows.any (·.lid == lid)

/-- The preemption of a step by the most urgent eligible candidate, and the preemptor's step in the freed place; nothing where that step could not be composed, or where the candidate waits on a latch (spec/15 R322, R335). -/
def preemptFor (i : InstId) (fuse : Bool) (top : Seq) (s : State) : State :=
  let m := mir s i
  let c := rankClass m top
  if !tbit m.kitchen.preemptMask c || (unlatched m [top]).isEmpty then s
  else match preemptable m c with
    | none => s
    | some y =>
      let u := modAcct i top.r.context (fun a => { a with preempting := satTo 32 (a.preempting + 1) }) (killStep i y.num true s)
      let t := composeNow i fuse top (candidatesOf u i) u
      if composedFor s t i top.r.localId then t else s

/-- The composition itself: a step below `KITCHEN_DEPTH`, at most one preemption at it (R75, R82, spec/15 R322). -/
def composeOnce (i : InstId) (fuse : Bool) (all : List Seq) (s : State) : State :=
  let m := mir s i
  let most := firstBy (fun a b => before m s.tick [] a b)
  if inFlightSteps m < m.kitchen.depth then
    match most (unlatched m all) with
    | some first => composeNow i fuse first all s
    | none => s
  else if inFlightSteps m = m.kitchen.depth then
    match most all with
    | some top => preemptFor i fuse top s
    | none => s
  else s

/-- COMPOSE_STEP (R73-R92, spec/15 R322): at most one preemption, whose rows are eligible again at once (R97), then one composition below `KITCHEN_DEPTH`. -/
def execComposeStep (i : InstId) (fuse : Bool) (s : State) : Result :=
  if !kitchenOpen s i then .next s
  else
    let u := preCompose i s
    let all := candidatesOf u i
    endEvent i s (composeOnce i fuse all (latchWaits i all u))

end Sys2Proof.Machine
end

