-- ==== Sys2Proof/Machine/Journal.lean ====
section
/-! DEFINITION. The bytes of the journal's entries and blocks, and when journal staging holds commit points back (spec/17 R371-R378). -/

namespace Sys2Proof.Machine

open Sys2Proof

/-! ### The bytes of an entry (R374, R375) -/

/-- The ROW payload (R375). -/
def rowPayload (p : RowPay) : List Byte :=
  layout 0x20
    [ lf 0x00 4 p.committedLen, lf 0x04 4 p.newTokens, lf 0x08 4 p.kvLen, lf 0x0C 4 p.cursor, lf 0x10 4 p.penaltyStart, lf 0x14 4 p.wallUsed,
      lf 0x18 2 p.planState, lf 0x1A 1 p.nest, lf 0x1B 1 (p.state.code + 16 * p.returnState.code), lf 0x1C 2 p.epoch,
      lf 0x1E 1 p.draftList.length, lf 0x1F 1 (p.entries.length / 16) ] ++ p.entries ++ words 4 p.draftList

/-- An OBJECT's class (R370), its id, and the bytes given to its image, which R374 does not lay out (DESIGN CHOICE, log 18). -/
def objHead : JObj → Nat × Nat × Nat
  | .recipe id _ => (5, id, 2304)
  | .plan id _ => (6, id, 16)
  | .model id _ => (7, id, 128)
  | .ctx c _ _ _ _ _ _ _ => (8, c, 128)
  | .class0 _ _ => (8, 16, 8)
  | .latch k _ _ _ => (8, 0x100 + k, 16)
  | .directions m l => (9, m, 4 * l.length)
  | .turn _ => (8, 17, 4)

/-- A signed level as 8 bytes. -/
def levelBytes (v : Int) : List Byte := leBytes 8 (v % 2 ^ 64).toNat

/-- Type, `sub`, flow and step of an entry (R374); the context of an entry without one is 0. -/
def entryTags : JEntry → Nat × Nat × Nat × Nat
  | .step n _ => (0x01, 0, 0, n)
  | .row n p => (0x02, 0, p.lid + 2 ^ 22 * p.context, n)
  | .aux lid c _ _ _ => (0x03, 0, lid + 2 ^ 22 * c, 0)
  | .record r _ _ => (0x04, 0, r.localId + 2 ^ 22 * r.context, 0)
  | .prompt lid c _ _ => (0x05, 0, lid + 2 ^ 22 * c, 0)
  | .stopBlock lid c _ _ => (0x05, 1, lid + 2 ^ 22 * c, 0)
  | .stream c v => (0x06, 0, v.localId + 2 ^ 22 * c, 0)
  | .ring c _ _ => (0x07, 0, 2 ^ 22 * c, 0)
  | .deferAdd c _ => (0x08, 0, 2 ^ 22 * c, 0)
  | .deferDel c _ => (0x08, 1, 2 ^ 22 * c, 0)
  | .object o => (0x09, (objHead o).1, 0, 0)
  | .transferOut t _ => (0x0A, 0, 2 ^ 22 * t.context, 0)
  | .transferIn t _ => (0x0A, 1, t.lid, 0)
  | .regulator _ => (0x0B, 0, 0, 0)
  | .bulkMark _ => (0x0C, 0, 0, 0)
  | .pad => (0x0D, 0, 0, 0)

/-- The payload of an entry (R374). -/
def entryPayload : JEntry → List Byte
  | .step _ tick => leBytes 8 tick
  | .row _ p => rowPayload p
  | .aux _ _ first count d => leBytes 4 first ++ leBytes 4 count ++ d
  | .record r _ _ => recordBytes r
  | .prompt _ _ a d => leBytes 8 a ++ leBytes 4 (d.length / 4) ++ leBytes 4 0 ++ d
  | .stopBlock _ _ _ d => slice d 0 640
  | .stream _ v => completionBytes v
  | .ring _ sq cq => leBytes 4 sq ++ leBytes 4 cq
  | .deferAdd _ d => requestBytes d.req
  | .deferDel _ tag => leBytes 8 tag
  | .object o => leBytes 4 (objHead o).2.1 ++ slice (Config.imageBytes o) 0 (objHead o).2.2
  | .transferOut t o => slice (Config.imageBytes (t, o)) 0 64
  | .transferIn t o => slice (Config.imageBytes (t, o)) 0 64
  | .regulator l => l.flatMap fun v => levelBytes v.1 ++ levelBytes v.2.1 ++ levelBytes v.2.2
  | .bulkMark n => leBytes 8 n
  | .pad => []

/-- Payload bytes of an entry. -/
def payloadBytes : JEntry → Nat
  | .step _ _ | .ring _ _ _ | .deferDel _ _ | .bulkMark _ => 8
  | .row _ p => 0x20 + p.entries.length + 4 * p.draftList.length
  | .aux _ _ _ _ d => 8 + d.length
  | .record _ _ _ => 512
  | .prompt _ _ _ d => 16 + d.length
  | .stopBlock _ _ _ _ => 640
  | .stream _ _ => 32
  | .deferAdd _ _ => 256
  | .object o => 4 + (objHead o).2.2
  | .transferOut _ _ | .transferIn _ _ => 64
  | .regulator l => 24 * l.length
  | .pad => 0

/-- Bytes of an entry: a 16-byte header and the payload, padded to 16 (R374). -/
def entryBytes' (e : JEntry) : Nat := 16 + roundUp (payloadBytes e) 16

/-- The header of an entry (R374). -/
def entryHead (type sub length flow step : Nat) : List Byte := leBytes 1 type ++ leBytes 1 sub ++ leBytes 2 length ++ leBytes 4 flow ++ leBytes 8 step

/-- An entry's bytes (R374). -/
def entryImage (e : JEntry) : List Byte :=
  let t := entryTags e
  entryHead t.1 t.2.1 (payloadBytes e) t.2.2.1 t.2.2.2 ++ slice (entryPayload e) 0 (roundUp (payloadBytes e) 16)

/-- Bytes of staged entries. -/
def stagedBytes (es : List JEntry) : Nat := sumNat (es.map entryBytes')

/-! ### Blocks (R373, R376) -/

/-- Bytes of a block that entries fill (R373). -/
def blockRoom : Nat := 0x10000 - 128

/-- Entries shared out over blocks: one that does not fit what is left of a block begins the next (R374, R376). -/
def packEntries (es : List JEntry) : List (List JEntry) :=
  let add (a : List (List JEntry) × Nat) (e : JEntry) : List (List JEntry) × Nat :=
    match a.1 with
    | b :: t => if a.2 + entryBytes' e ≤ blockRoom then ((e :: b) :: t, a.2 + entryBytes' e) else ([e] :: a.1, entryBytes' e)
    | [] => ([[e]], entryBytes' e)
  ((es.foldl add ([], 0)).1.map List.reverse).reverse

/-- Blocks that entries fill. -/
def blocksOf (es : List JEntry) : Nat := (packEntries es).length

/-- The bytes of a block: its header with a check, the entries, PAD in the rest (R373, R376). -/
def jblockBytes (b : JBlock) (check : Nat) : List Byte :=
  let es := b.entries.flatMap entryImage
  let rest := blockRoom - es.length
  let pad := if rest < 16 then [] else entryHead 0x0D 0 (rest - 16) 0 0
  layout 128 [ lf 0x00 4 b.magic, lf 0x04 2 1, lf 0x06 2 b.address, lf 0x08 8 b.seqno, lf 0x10 8 b.bulkSeqno, lf 0x18 4 es.length, lf 0x1C 4 check ]
    ++ slice (es ++ pad) 0 blockRoom

/-- The CRC-32C of a block, with its field as zero (R373). -/
def blockCheck (b : JBlock) : Nat := crc32c (jblockBytes b 0)

/-- The blocks that a flush writes behind block `last` (R373, R376). -/
def flushBlocks (address last bulkSeqno : Nat) (es : List JEntry) : List JBlock :=
  (packEntries es).zipIdx.map fun p =>
    let b : JBlock := { address := address, seqno := last + 1 + p.2, bulkSeqno := bulkSeqno, check := 0, entries := p.1 }
    { b with check := blockCheck b }

/-- A block that replay takes: the one that follows `seqno`, with the right magic and check (R381). -/
def goodBlock (seqno : Nat) (b : JBlock) : Bool := b.magic == 0x4C4E524A && b.seqno == seqno && b.check == blockCheck b

/-- Blocks of the journal ring in the instance's drive range (R372). -/
def ringBlocks (x : Inst) : Nat :=
  match x.place.drive with
  | some (_, _, n) => (n - 2097408) / 16
  | none => 0

/-- Journal staging: 64 MiB (R371). -/
def stagingBytes : Nat := 0x4000000

/-- STEP entries that are staged and not durable (R377). -/
def openSteps (es : List JEntry) : Nat := (es.filter fun e => match e with | .step _ _ => true | _ => false).length

/-- The Kitchen seals no commit point: staging is full, a recovery bound is reached, or the ring would overwrite a block still needed (R376-R378); not while the snapshot path is failed (R377, spec/01 R27). -/
def commitHeld (x : Inst) : Bool :=
  let r := x.rel
  !r.driveFailed && (decide (stagingBytes ≤ stagedBytes r.staged) || (r.lossBound != 0 && decide (r.lossBound ≤ openSteps r.staged))
    || (x.place.drive.isSome && decide (ringBlocks x < r.disk.ring.length + blocksOf r.staged)))

end Sys2Proof.Machine
end

