-- ==== Sys2Proof/Machine/Steps.lean ====
section
/-! DEFINITION. What moves a step after its doorbell: the compute dies' notices, the commit point, kernel faults (spec/04 R74, R90, R93, R97; spec/17 R360), latches (spec/15 R324-R326), Midnight (spec/11 R235, R236). -/

namespace Sys2Proof.Machine

open Sys2Proof

/-! ### Notices (spec/04 R74, R90) -/

/-- The uncommitted step that 24 bits of a notice name (R90). -/
def stepBy24 (m : Mirrored) (n24 : Nat) : Option Step := m.kitchen.steps.find? fun st => uncommitted st && step24 st.num == n24

/-- A notice that matches no step is discarded and counted (R90). -/
def discardNotice (i : InstId) (s : State) : State := modStudy i (fun y => { y with noticeDiscards := satTo 32 (y.noticeDiscards + 1) }) s

/-- Rows of a step whose results are the Landing's: those with logit rows, a pair counted once. -/
def resultRows (st : Step) : List Nat :=
  (st.rows.zipIdx.filter fun p => p.1.logitCount != 0 && !(p.1.kind == .draftScore)).map (·.2)

/-- Every logit row has its result (R74). -/
def resultsIn (st : Step) : Bool := (resultRows st).all fun k => st.results.any (·.row == k)

/-- Every die of the step has sent its completion notice (R74). -/
def diesDone (st : Step) : Bool := (maskBits 8 st.outposts.toNat).all fun o => st.completed.contains o

/-- The step enters SAMPLED once its results and its completion notices are in (R74). -/
def sampledCheck (i : InstId) (n : Nat) (s : State) : State :=
  match getStep (mir s i) n with
  | none => s
  | some st =>
    let from' := st.phase == .landing || (st.phase == .issued && (resultRows st).isEmpty)
    if from' && diesDone st && resultsIn st then
      ringPush i 0 0x020 1 (step24 n) [n, 3, st.model, st.epoch, st.slot] (modStep i n (fun st => { st with phase := .sampled }) s)
    else s

/-- WAVE_LANDED_NOTICE: the first takes an ISSUED step to LANDING (R74, R90). -/
def execWaveLandedNotice (i : InstId) (die step wave : Nat) (s : State) : Result :=
  if !activeInst s i then .next s
  else match stepBy24 (mir s i) step with
    | none => done i s (discardNotice i s)
    | some st =>
      if !st.outposts.getLsbD die then done i s (discardNotice i s)
      else
        let first := st.phase == .issued
        let t := modStep i st.num (fun st => { st with phase := if st.phase == .issued then .landing else st.phase, landed := if st.landed.contains wave then st.landed else st.landed ++ [wave] }) s
        let t := if first then ringPush i 0 0x020 1 (step24 st.num) [st.num, 2, st.model, st.epoch, st.slot] t else t
        done i s (sampledCheck i st.num t)

/-- COMPLETION_NOTICE (R74, R90). -/
def execCompletionNotice (i : InstId) (die step : Nat) (s : State) : Result :=
  if !activeInst s i then .next s
  else match stepBy24 (mir s i) step with
    | none => done i s (discardNotice i s)
    | some st =>
      if !st.outposts.getLsbD die then done i s (discardNotice i s)
      else done i s (sampledCheck i st.num (modStep i st.num (fun st => { st with completed := if st.completed.contains die then st.completed else st.completed ++ [die] }) s))

/-- KILL_ACKNOWLEDGEMENT: with the last, the killed step's manifest slot is free (R86, R97). -/
def execKillAcknowledgement (i : InstId) (die step : Nat) (s : State) : Result :=
  if !activeInst s i then .next s
  else match (mir s i).kitchen.steps.find? (fun st => st.phase == .killed && step24 st.num == step && st.outposts.getLsbD die) with
    | none => done i s (discardNotice i s)
    | some st => done i s (sweepSteps i (modStep i st.num (fun st => { st with killAcked := if st.killAcked.contains die then st.killAcked else st.killAcked ++ [die] }) s))

/-- KERNEL_FAULT: a context fault in a step of a latched model, else the step is killed, and a repeat for the same rows is an OUTPOST_FAULT (spec/15 R332, spec/17 R360). -/
def execKernelFault (i : InstId) (die step : Nat) (s : State) : Result :=
  if !activeInst s i then .next s
  else match stepBy24 (mir s i) step with
    | none => done i s (discardNotice i s)
    | some st =>
      let m := mir s i
      if !st.outposts.getLsbD die then done i s (discardNotice i s)
      else if latched m st.model then endEvent i s (askFault i ((st.rows.map (·.context)).headD 0) 4 s)
      else
        let again := st.rows.any fun r => m.kitchen.kernelFaultRows.contains r.lid
        let t := logFault i 0x0C (1 + die) none 0 st.num 0 s
        let t := killStep i st.num false (modKit i (fun k => { k with kernelFaultRows := (stepSeqs st ++ k.kernelFaultRows).eraseDups }) t)
        endEvent i s (if again then outpostFault i die 0 st.num t else t)

/-! ### The commit point (spec/04 R93, R94; spec/17 R376, R378) -/

/-- Rows that have a commit event of their own: every row but the DRAFT_SCORE row of a pair (R77). -/
def commitRows (st : Step) : List Nat :=
  (st.rows.zipIdx.filter fun p => !(p.1.kind == .draftScore && decide (0 < p.1.logitCount))).map (·.2)

/-- COMMIT_POINT: a SAMPLED step's commit set is sealed and one event per row is posted (R93, R94). -/
def execCommitPoint (i : InstId) (step : Nat) (s : State) : Result :=
  match getStep (mir s i) step with
  | none => .next s
  | some st =>
    if !activeInst s i || st.phase != .sampled || commitHeld (getInst s i) then .next s
    else
      let t := modStep i step (fun st => { st with phase := .committing }) s
      let t := ringPush i 0 0x020 1 (step24 step) [step, 4, st.model, st.epoch, st.slot] t
      let t := (commitRows st).foldl (fun t k => match st.rows[k]? with
        | some r => postSeq i r.lid (.tokenCommit step k) t
        | none => t) t
      done i s (finishStep i step t)

/-! ### Latches (spec/15 R324-R326) -/

/-- LATCH_ACQUIRE: granted to a step of one of the latch's models while the latch is free or its context owns it; the read's answer is 1 or 0 (R324). -/
def execLatchAcquire (i : InstId) (latch step : Nat) (s : State) : Result :=
  let m := mir s i
  let l := getLatch m latch
  match stepBy24 m step with
  | some st =>
    let c := (st.rows.map (·.context)).headD 0
    if running s i && l.models.getLsbD st.model && (!l.held || l.owner == c) then
      done i s { modLatch i latch (fun l => { l with
        held := true
        owner := c
        holder := step24 st.num
        across := l.held && l.across
        heldSteps := if l.held then l.heldSteps else 0
        acquires := satTo 32 (l.acquires + 1) }) s with busData := 1 }
    else .next { s with busData := 0 }
  | none => .next { s with busData := 0 }

/-- LATCH_RELEASE: a write of 0 to the acquire word (R324). -/
def execLatchRelease (i : InstId) (latch : Nat) (s : State) : Result :=
  if running s i then
    done i s (modLatch i latch (fun l => { l with held := false, across := false, waiting := false, heldSteps := 0 }) s)
  else .next s

/-! ### Midnight (spec/11 R235, R236) -/

/-- MIDNIGHT (R235, R236). -/
def execMidnight (i : InstId) (m : Nat) (s : State) : Result :=
  if activeInst s i && midnightDue (mir s i) m then endEvent i s (doMidnight i m false s) else .next s

end Sys2Proof.Machine
end

