-- ==== Sys2Proof/Machine/Engine.lean ====
section
/-! DEFINITION. The outposts' commands: draw lists and keystream blocks (spec/08 R185-R188), class maps (spec/10 R225), the Larder's write port (spec/07 R156-R158), the passes (R160), messages down the channels (R166, R167). -/

namespace Sys2Proof.Machine

open Sys2Proof

def getOutpost (s : State) (o : Nat) : Outpost := s.outposts.getD o {}

/-- An entry in an outpost's event ring, in the Study of the instance that owns it: 1 wave-done marker, 2 fence change, 3 parity, 4 self-test (spec/18 R397). -/
def outRingOf (i : InstId) (o event step wave group : Nat) (s : State) : State :=
  ringPush i (12 + o) (0x038 + o) event step [step, wave, group] s

/-- An entry in an outpost's event ring, of whichever instance owns it. -/
def outRing (o event step wave group : Nat) (s : State) : State :=
  match (getOutpost s o).owner with
  | some i => outRingOf i o event step wave group s
  | none => s

/-! ### Draw lists and keystream (spec/08 R185-R188) -/

/-- DRAW_LIST: the outpost's cores begin to run ahead for the step (spec/08 R186). -/
def execDrawList (o : Nat) (s : State) : Result :=
  match (getOutpost s o).drawsPending with
  | [] => .next s
  | d :: rest => .next (modOutpost o (fun x => { x with drawsPending := rest, draws := x.draws ++ [d] }) s)

/-- The block that a core generates under a name (spec/08 R180, R185). -/
def blockValue (su : RowSetup) (kind position low : Nat) : Nat := drawBlock su.draw.key kind su.draw.drawId position low

/-- The row still has the pass before it that uses the blocks of the lane. -/
def usesLater (x : Outpost) (su : RowSetup) (lane : Nat) : Bool :=
  match x.rows.find? (·.su.h == su.h) with
  | none => true
  | some r => match r.stage with
    | .setup | .maxPass => true
    | .maxSent | .massPass => lane == rowDrawLane || !raceInMax su
    | .massSent | .roundPass | .roundSent | .keptPass | .keptSent | .residPass | .residSent | .racePass => lane != rowDrawLane && !raceInMax su
    | .raceSent | .locatePass | .locateSent => false

/-- The blocks that a row still needs in a lane's FIFO: those of its 64-bit draws at the outpost of rank 0, or its RACE blocks (spec/08 R185, R186). -/
def blocksWanted (x : Outpost) (o : Nat) (su : RowSetup) (lane : Nat) : List RowDraw :=
  if !usesLater x su lane then []
  else
    let all : List RowDraw :=
      if lane = rowDrawLane then (if rankOf su.outposts o = 0 then su.draw.draws else [])
      else if inverseRow su then []
      else (laneBlocks x o su lane).map fun b => { kind := kindRace, position := su.draw.position, low := b }
    all.filter fun d => !holdsBlock x su.h lane d.kind d.low

/-- The FIFOs that a lane group's core fills for a row: those of its 16 lanes, and the row-draw buffer where it serves that (spec/08 R185). -/
def coreLanes (x : Outpost) (su : RowSetup) (g : Nat) : List Nat :=
  (List.range 16).map (16 * g + ·) ++ if rowDrawGroup (rowFences x su.h) = g then [rowDrawLane] else []

/-- The FIFOs of a core that still need blocks of a row. -/
def coreNeeds (x : Outpost) (o : Nat) (su : RowSetup) (g : Nat) : List Nat := (coreLanes x su g).filter fun l => !(blocksWanted x o su l).isEmpty

/-- The row that a core generates blocks for: the first of the draw lists, in wave order, that still needs one of it (spec/08 R186). -/
def coreRow (x : Outpost) (o g : Nat) : Option RowSetup := (x.draws.flatMap (·.rows)).find? fun su => !(coreNeeds x o su g).isEmpty

/-- Room in a FIFO: 4,096 blocks of row draws, 64 of a lane (spec/08 R186). DESIGN CHOICE (log 100): a lane that processes so many fenced segments that a pass needs more than 64 blocks takes them all. -/
def fifoRoom (x : Outpost) (lane : Nat) (h : RowHandle) : Bool :=
  let l := x.fifo.filter (·.lane == lane)
  if lane = rowDrawLane then decide (l.length < 4096) else decide (l.length < 64) || l.all (·.h == h)

/-- The core that fills a FIFO for a row (spec/08 R185). -/
def coreOf (x : Outpost) (h : RowHandle) (lane : Nat) : Nat := if lane = rowDrawLane then rowDrawGroup (rowFences x h) else lane / 16

/-- KEYSTREAM_BLOCK: a core delivers the next block of the draw lists; it stops while a FIFO that it fills for the row is full (spec/08 R186, R188). -/
def execKeystreamBlock (o : Nat) (h : RowHandle) (lane low : Nat) (s : State) : Result :=
  let x := getOutpost s o
  let g := coreOf x h lane
  match (coreRow x o g).filter (·.h == h) with
  | none => .next s
  | some su =>
    match (blocksWanted x o su lane).find? (·.low == low) with
    | none => .next s
    | some d =>
      if !(coreNeeds x o su g).all (fifoRoom x · h) then .next s
      else .next (modOutpost o (fun x => { x with
        fifo := x.fifo ++ [{ h := h, kind := d.kind, lane := lane, low := low, value := BitVec.ofNat 128 (blockValue su d.kind d.position low) }] }) s)

/-! ### Class maps (spec/10 R224, R225) -/

/-- Put a slice in a plan's map slot. -/
def mapSlice (plan lane : Nat) (ms : List MapSlot) : List MapSlot :=
  ms.map fun m => if m.plan == plan then { m with lanes := if m.lanes.contains lane then m.lanes else lane :: m.lanes } else m

/-- The set-ups that an outpost has in hand. -/
def heldSetups (x : Outpost) : List RowSetup := knownSetups x ++ x.rows.map (·.su)

/-- CLASS_MAP_LOADED: a slice for a plan of a step at this outpost arrives; where a later step has taken the plan's slot, the plans of its own step take theirs again (spec/10 R224, R225). -/
def execClassMapLoaded (o plan lane : Nat) (s : State) : Result :=
  let x := getOutpost s o
  let named (su : RowSetup) : Bool := (su.plan.map (·.1)) == some plan
  match (heldSetups x).find? named with
  | some su =>
    let plans := ((heldSetups x).filterMap fun y => if y.h.step == su.h.step then y.plan.map (·.1) else none).eraseDups
    if lane < 512 then
      .next (modOutpost o (fun x => { x with
        maps := mapSlice plan lane (if x.maps.any (·.plan == plan) then x.maps else assignMaps s.tick (plan :: plans.erase plan) x.maps) }) s)
    else .next s
  | none => .next s

/-! ### The Larder's write port (spec/07 R155-R158) -/

/-- A lane that a step's configuration addresses on an outpost (spec/07 R154). -/
def stepLane (st : Step) (o lane : Nat) : Bool :=
  let d := (outList st.outposts).length
  let rho := rowSets st.wide (localSlivers st.vocab d)
  decide (lane % (512 / rho) * d + rankOf st.outposts o < sliversOf st.vocab)

/-- The steps of the die's owner that run over the die: the only ones for which it writes logits (spec/01 R18). -/
def dieSteps (s : State) (o : Nat) : List Step :=
  match (getOutpost s o).owner with
  | some i => (mir s i).kitchen.steps.filter fun (st : Step) => st.outposts.getLsbD o
  | none => []

/-- LARDER_GRANULE_WRITE: a die writes 64 bytes for a step of its owner, held at the port while the half is not released (R156, R157, spec/01 R18); a granule that no such step's shard addresses is case 8 of spec/00 R12. -/
def execLarderGranuleWrite (o off : Nat) (data : List Byte) (s : State) : Result :=
  let steps := dieSteps s o
  if steps.isEmpty then .next s
  else if !(steps.any fun st => stepLane st o (off / 0x10000)) then .fault (.undefinedCase 8)
  else .next (modOutpost o (fun x => drainPort { x with port := x.port ++ [.granule off data] }) s)

/-- WAVE_DONE_MARKER: it takes its turn at the port behind the die's granules (R156, R157). -/
def execWaveDoneMarker (o step wave : Nat) (s : State) : Result :=
  if (dieSteps s o).any (fun st => step24 st.num == step) then
    .next (outRing o 1 step wave 0 (modOutpost o (fun x => drainPort { x with port := x.port ++ [.marker step wave] }) s))
  else .next s

/-! ### Passes (spec/07 R158, R160) -/

/-- The class of a token in the plan of a row (spec/10 R223). -/
def classIn (s : State) (i : InstId) (su : RowSetup) (v : Nat) : Nat :=
  match su.plan with
  | some p => ((residentPlan (mir s i) p.1).bind fun q => q.classMap[v]?).getD 0
  | none => 0

/-- The tokens of an outpost's share of a row. -/
def outTokens (s : State) (i : InstId) (su : RowSetup) (o : Nat) : List TokVal :=
  (outIds su o).map fun v => tokVal su (classIn s i su) (getOutpost s o).larder v

/-- The 64-bit draws that go up with a MASS summary (spec/08 R180, R185). -/
def drawValues (x : Outpost) (su : RowSetup) (o : Nat) : List Nat :=
  if rankOf su.outposts o = 0 then
    su.draw.draws.filterMap fun d => (x.fifo.find? fun b => b.h == su.h && b.lane == rowDrawLane && b.kind == d.kind && b.low == d.low).map fun b => b.value.toNat % 2 ^ 64
  else []

/-- Add an upset to the mass of the first bin (R168). -/
def upsetBins (delta : Nat) : List Bin → List Bin
  | [] => []
  | b :: t => { b with mass := b.mass + delta } :: t

/-- Add an upset to the mass of the first sliver. -/
def upsetSlivers (delta : Nat) : List (Nat × Nat) → List (Nat × Nat)
  | [] => []
  | b :: t => (b.1 + delta, b.2) :: t

/-- Add an upset to the first share. -/
def upsetShares (delta : Nat) : List Nat → List Nat
  | [] => []
  | b :: t => (b + delta) :: t

/-- What a LOCATE pass returns, over the cut's kept masses or the residual (R163, spec/09 R207). -/
def locateInfo (r : OutRow) (l d : List TokVal) : LocInfo :=
  match r.resid with
  | some sp => residLocate r.m r.mPi sp r.sliver r.residual l d
  | none => passLocate r.m r.mPi r.sliver r.residual r.kb (r.quota.getD 256) l

/-- The summary of the pass that a row is in, with an upset of the reported mass, and the stage after it; `d` are the tokens of the draft row of a residual pass (R160, spec/09 R207). -/
def passSummary (x : Outpost) (o : Nat) (r : OutRow) (delta : Nat) (l d : List TokVal) : Option (UpMsg × OutStagePass) :=
  match r.stage with
  | .residPass => r.resid.map fun sp =>
    let p := passResid r.su o r.m sp l d
    (.residSum r.su.h p.1 (upsetShares delta p.2), .residSent)
  | .maxPass => some (passMax r.su l, .maxSent)
  | .massPass =>
    let i := passMass r.su r.m r.mPi (drawValues x r.su o) l
    some (.massSum r.su.h { i with z := i.z + delta }, .massSent)
  | .roundPass => some (.roundSum r.su.h (upsetBins delta (passRound r.m r.round r.keyPrefix l)), .roundSent)
  | .keptPass => some (.keptSum r.su.h (upsetSlivers delta (passKept r.su o r.m r.kb l)), .keptSent)
  | .racePass => some (.raceSum r.su.h (passRace r.su o r.m r.kb r.quota r.quotas l), .raceSent)
  | .locatePass =>
    let i := locateInfo r l d
    some (.located r.su.h { i with before := i.before + delta }, .locateSent)
  | .setup | .maxSent | .massSent | .roundSent | .keptSent | .residSent | .raceSent | .locateSent => none

/-- The blocks that a pass uses up. -/
def usedBlock (r : OutRow) (b : KeyBlock) : Bool :=
  b.h == r.su.h && match r.stage with
    | .massPass => b.lane == rowDrawLane
    | .racePass => b.lane != rowDrawLane
    | .maxPass => raceInMax r.su && b.lane != rowDrawLane
    | _ => false

/-- The map slot of a plan is in use (spec/10 R225). -/
def touchMap (tick : Nat) (su : RowSetup) (ms : List MapSlot) : List MapSlot :=
  match su.plan with
  | some p => ms.map fun m => if m.plan == p.1 then { m with lastUse := tick } else m
  | none => ms

/-- The row's set-up is on its way again: the Landing has discarded the row's summaries, and takes none until the row restarts here (R158, R169). -/
def restarting (x : Outpost) (r : OutRow) : Bool := (downOf x r.inst).any fun m => match m with | .rowSetup su => su.h == r.su.h | _ => false

/-- The tensors of the watches on a row that its pass copies: the logits, the scaled logits and the mask with MAX, the masses with MASS (spec/18 R403, R405). -/
def watchPass (o : Nat) (r : OutRow) (l : List TokVal) (s : State) : State :=
  let lids := ((getInst s r.inst).landing.filter (·.su.h == r.su.h)).map (·.lid)
  let due (t : Nat) : Bool := match r.stage with | .maxPass => t == 0 || t == 1 || t == 3 | .massPass => t == 2 | _ => false
  ((getInst s r.inst).study.watches.filter fun w => !r.su.draft && lids.contains w.lid && w.position == r.su.draw.position && due w.tensor).foldl (fun s w =>
    (outSlivers r.su o).foldl (fun s g =>
      let b := tensorOf r.su.wide r.m w.tensor (l.filter fun t => t.v / 256 == g)
      let at' := tensorAt r.su.wide w.tensor g
      hbmPut (w.addr + at') (b.take (w.size - at')) s) s) s

/-- The re-requested slices that a MAX pass has read whole (spec/17 R359). -/
def rereadOk (r : OutRow) : List Nat := if r.stage == .maxPass then r.reread else []

/-- A lane pass over a row ends without a parity error: its summary goes up; a re-request that has succeeded is counted (spec/17 R359). -/
def passDone (o : Nat) (r : OutRow) (delta : Nat) (s : State) : Result :=
  let x := getOutpost s o
  let l := outTokens s r.inst r.su o
  let d := match r.resid.bind (·.draft) with
    | some p => outTokens s r.inst p.1 o
    | none => []
  if r.stage == .maxPass && l.any (fun t => !fFinite t.l) then .fault (.undefinedCase 8)
  else match passSummary x o r delta l d with
    | none => .next s
    | some m => .next (modOutpost o (fun x =>
        let x := modRow r.su.h (fun q => { q with stage := m.2, reread := if r.stage == .maxPass then [] else q.reread }) { x with fifo := x.fifo.filter fun b => !usedBlock r b, maps := touchMap s.tick r.su x.maps }
        if restarting x r then x else upPut r.inst (upOf x r.inst ++ [m.1]) x) (countFixed r.inst (rereadOk r).length (watchPass o r l s)))

/-- A lane pass meets a parity error: the slice is re-requested from the die and the Landing told (R158). -/
def passParity (o lane : Nat) (r : OutRow) (s : State) : Result :=
  if !(rowLanes r.su o).contains lane then .next s
  else .next (outRing o 3 r.su.h.step r.su.h.wave (lane / 16) (modOutpost o (fun x =>
    let x := modRow r.su.h (fun q => { q with stage := .setup, rereq := some lane, rewritten := false, reread := q.reread.erase lane }) { x with parityEvents := satTo 32 (x.parityEvents + 1) }
    upPut r.inst (upOf x r.inst ++ [.parity r.su.h lane]) x) s))

/-- A row leaves its outpost, with its blocks and draws; its wave's half is released after the last row (R157). -/
def finishRow (h : RowHandle) (x : Outpost) : Outpost :=
  releaseWaves { x with
    rows := x.rows.filter (·.su.h != h)
    draws := (x.draws.map fun d => { d with rows := d.rows.filter (·.h != h) }).filter fun d => !d.rows.isEmpty
    drawsPending := (x.drawsPending.map fun d => { d with rows := d.rows.filter (·.h != h) }).filter fun d => !d.rows.isEmpty
    fifo := x.fifo.filter (·.h != h) }

/-- LANE_PASS_COMPLETE: the pass an outpost has in hand over a row ends; a row of a killed step leaves (R158, R160, R172). -/
def execLanePassComplete (o : Nat) (h : RowHandle) (ev : PassEvent) (s : State) : Result :=
  let x := getOutpost s o
  match x.rows.find? (·.su.h == h) with
  | none => .next s
  | some r =>
    if r.killed then .next (modOutpost o (finishRow h) s)
    else if !passReady x r o then .next s
    else match ev with
      | .ok => passDone o r 0 s
      | .upset delta => passDone o r delta s
      | .parity lane => passParity o lane r s

/-! ### Messages down (R166, R167) -/

/-- The instance whose channel to the outpost has a message that `p` holds of at its front. -/
def downHead (x : Outpost) (p : DownMsg → Bool) : Option (InstId × DownMsg) :=
  match (downOf x .A).head?, (downOf x .B).head? with
  | some m, b => if p m then some (.A, m) else b.bind fun n => if p n then some (.B, n) else none
  | none, b => b.bind fun n => if p n then some (.B, n) else none

/-- The outpost holds the row, its step not killed. -/
def holdsRow (x : Outpost) (h : RowHandle) : Bool := x.rows.any fun r => r.su.h == h && !r.killed

/-- A message for a row that the outpost no longer holds is discarded and counted (R167). -/
def discardDown (i : InstId) (s : State) : State := modStudy i (fun y => { y with channelDiscards := satTo 32 (y.channelDiscards + 1) }) s

/-- Take the message at the front and apply it to the row it names (R166, R167). -/
def takeDown (o : Nat) (p : DownMsg → Bool) (f : DownMsg → OutRow → OutRow) (s : State) : Result :=
  match downHead (getOutpost s o) p with
  | none => .next s
  | some (i, m) =>
    let t := modOutpost o (fun x => downPut i ((downOf x i).drop 1) x) s
    if holdsRow (getOutpost s o) m.h then .next (modOutpost o (modRow m.h (f m)) t) else .next (discardDown i t)

/-- A set-up for a row: entered; or, for a row whose passes have begun here, the row starts again at pass 1 unless its slice is still awaited (R157, R158, R159, R169). -/
def enterSetup (i : InstId) (su : RowSetup) (x : Outpost) : Outpost :=
  if x.rows.any (·.su.h == su.h) then
    modRow su.h (fun r => if rowBegun r then { su := su, stage := if r.rereq.isSome then .setup else .maxPass, rereq := r.rereq, rewritten := r.rewritten, reread := r.reread, fences := r.fences, inst := i } else r) x
  else beginWave su.h.step su.h.wave { x with rows := x.rows ++ [{ su := su, inst := i }] }

/-- ROW_SETUP of a row of the draw lists (R159, R167). -/
def execRowSetup (o : Nat) (s : State) : Result :=
  match downHead (getOutpost s o) (fun m => match m with | .rowSetup _ => true | _ => false) with
  | some (i, .rowSetup su) =>
    let t := modOutpost o (fun x => downPut i ((downOf x i).drop 1) x) s
    if (knownSetups (getOutpost s o)).any (·.h == su.h) then .next (modOutpost o (enterSetup i su) t) else .next (discardDown i t)
  | _ => .next s

/-- MAX_RESULT: the MASS pass runs (R161). -/
def execMaxResult (o : Nat) (s : State) : Result :=
  takeDown o (fun m => match m with | .maxResult _ _ _ => true | _ => false)
    (fun m r => match m with | .maxResult _ a b => { r with stage := .massPass, m := a, mPi := b } | _ => r) s

/-- ROUND_REQ: a refinement round runs (R160). -/
def execRoundReq (o : Nat) (s : State) : Result :=
  takeDown o (fun m => match m with | .roundReq _ _ _ => true | _ => false)
    (fun m r => match m with | .roundReq _ a b => { r with stage := .roundPass, round := a, keyPrefix := b } | _ => r) s

/-- CUT: the KEPT, RACE or residual pass runs (R162, spec/09 R207). -/
def execCut (o : Nat) (s : State) : Result :=
  takeDown o (fun m => match m with | .cut _ _ _ _ | .resid _ _ => true | _ => false)
    (fun m r => match m with | .resid _ sp => { r with stage := .residPass, resid := some sp } | .cut _ kb q p => { r with stage := match p with | .kept => .keptPass | .race => .racePass, kb := kb, quota := q } | _ => r) s

/-- QUOTAS: the tie quotas of the outpost's slivers (R163). -/
def execQuotas (o : Nat) (s : State) : Result :=
  takeDown o (fun m => match m with | .quotas _ _ => true | _ => false)
    (fun m r => match m with | .quotas _ q => { r with quotas := q } | _ => r) s

/-- LOCATE: one lane scans its sliver (R163). -/
def execLocate (o : Nat) (s : State) : Result :=
  takeDown o (fun m => match m with | .locate _ _ _ _ _ _ => true | _ => false)
    (fun m r => match m with | .locate _ g t kb q _ => { r with stage := .locatePass, sliver := g, residual := t, kb := kb, quota := some q } | _ => r) s

/-- DONE (R157, R166). -/
def execDoneMsg (o : Nat) (s : State) : Result :=
  match downHead (getOutpost s o) (fun m => match m with | .done _ => true | _ => false) with
  | some (i, .done h) =>
    let t := modOutpost o (fun x => downPut i ((downOf x i).drop 1) x) s
    if holdsRow (getOutpost s o) h then .next (modOutpost o (finishRow h) t) else .next (discardDown i t)
  | _ => .next s

/-! ### Self-test (spec/07 R169-R171) -/

/-- Groups fenced. -/
def fencedCount (v : BitVec 32) : Nat := popCount 32 v.toNat

/-- The failing groups are fenced while no ninth is; the blocks in their FIFOs are discarded (spec/07 R171, spec/08 R192, spec/19 R425). -/
def fenceGroups (o : Nat) (failed : BitVec 32) (x : Outpost) : Outpost :=
  fenceChange o x { x with
    selftest := false
    testFence := x.testFence ||| failed
    selftestFences := satTo 32 (x.selftestFences + fencedCount (failed &&& ~~~ x.testFence)) }

/-- The self-test is the known-answer test of Dawn or Morning, which finds nothing in a sound outpost (spec/08 R189). -/
def knownAnswerTest (s : State) (i : InstId) : Bool :=
  (getInst s i).hearth.stage != .ready || (mir s i).kitchen.turn == .morning

/-- A LANE_GROUP_FENCED entry for each group (spec/17 R360, R388). -/
def logFences (i : InstId) (o : Nat) (groups : BitVec 32) (s : State) : State :=
  (maskBits 32 groups.toNat).foldl (fun s g => logFault i 0x03 (1 + o) none g 0 0 s) s

/-- LANE_GROUP_SELFTEST_DONE: failing groups are fenced; a ninth is an outpost fault, and so is a test after a failed sum that finds none (R169, R171, spec/08 R189). Morning goes on once every test has ended (spec/11 R247). -/
def execLaneGroupSelftestDone (o : Nat) (failed : BitVec 32) (s : State) : Result :=
  let x := getOutpost s o
  match x.owner with
  | none => .next s
  | some i =>
    if !x.selftest then .next s
    else
      let t := outRing o 4 0 0 failed.toNat (modOutpost o (fun x => { x with selftest := false }) s)
      if failed = 0 then endEvent i s (if knownAnswerTest s i then t else outpostFault i o 0 0 t)
      else if 8 < fencedCount (fencedOf x ||| failed) then endEvent i s (outpostFault i o failed.toNat 0 t)
      else endEvent i s (logFences i o failed (outRing o 2 0 0 failed.toNat (modOutpost o (fenceGroups o failed) t)))

end Sys2Proof.Machine
end

