-- ==== Sys2Proof/Machine/Landing.lean ====
section
/-! DEFINITION. The Landing: merging the outposts' summaries, the checks, the cut, the draw, the outputs, verification of a pair, resampling and parity (spec/07 R158-R169, spec/06 R143-R149, spec/09 R205-R211, spec/18 R403-R405). -/

namespace Sys2Proof.Machine

open Sys2Proof

/-! ### Rows of the Landing -/

def findLand (s : State) (i : InstId) (h : RowHandle) : Option LandRow := (getInst s i).landing.find? (·.su.h == h)

def modLand (i : InstId) (h : RowHandle) (f : LandRow → LandRow) (s : State) : State :=
  modInst i (fun x => { x with landing := x.landing.map fun r => if r.su.h == h then f r else r }) s

/-- Outposts of a row. -/
def landOuts (r : LandRow) : List Nat := outList r.su.outposts

/-- The row's own step row, with its kind. -/
def landStepRow (s : State) (i : InstId) (r : LandRow) : Option (Step × StepRow) :=
  (stepBy24 (mir s i) r.su.h.step).bind fun st => (st.rows[r.rowIdx]?).map fun row => (st, row)

/-- The rows of the Landing that settle together: those of one entry, or of both entries of a pair. -/
def landMates (s : State) (i : InstId) (r : LandRow) : List LandRow :=
  let pair := (landStepRow s i r).bind fun x => x.2.pair
  (getInst s i).landing.filter fun y => y.su.h.step == r.su.h.step && (y.rowIdx == r.rowIdx || some y.rowIdx == pair)

/-! ### Outputs (spec/06 R145-R149) -/

/-- Values of a token in a row, from the Larder of the outpost that holds it. -/
def landToken (s : State) (i : InstId) (r : LandRow) (v : Nat) : TokVal :=
  tokVal r.su (classIn s i r.su) (getOutpost s (outOfSliver r.su (v / 256))).larder v

/-- The top-N pairs, filled with token 0xFFFF_FFFF and -∞ (R149). -/
def topOf (r : LandRow) : List (Nat × F32) :=
  let n := r.su.recipe.topN
  let l := (r.cands.take n).map fun c => (c.token, logValue c.ePi c.dPi r.zPi)
  l ++ List.replicate (n - l.length) (0xFFFFFFFF, 0xFF800000)

/-- The outputs of a token with difference `d`, mass `e` and policy values, under kept mass `k` (R146-R149). -/
def outputsOf (r : LandRow) (k v : Nat) (d : F32) (e : Nat) (dPi : F32) (ePi : Nat) : RowOut :=
  { token := v, behaviour := logValue e d k, policy := logValue ePi dPi r.zPi,
    entropy := if r.su.recipe.entropy then entropyOf r.zPi r.sH else 0, top := topOf r }

/-- The outputs of a token that no LOCATE returned: a single kept token, a race's winner, a verified token. -/
def outputsAt (s : State) (i : InstId) (r : LandRow) (k v : Nat) : RowOut :=
  let t := landToken s i r v
  let d := fSub t.s r.m
  let dPi := fSub t.l r.mPi
  outputsOf r k v d (massE d) dPi (massE dPi)

/-! ### Watches (spec/18 R403-R405) -/

/-- The bytes of a watched tensor of a row. -/
def tensorBytes (s : State) (i : InstId) (r : LandRow) (out : RowOut) (tensor : Nat) : List Byte :=
  let l := rowTokens r.su (classIn s i r.su) (fun o => (getOutpost s o).larder)
  match tensor with
  | 0 | 1 | 2 => tensorOf r.su.wide r.m tensor l
  | 3 => leBytes (ceilDiv r.su.vocab 512 * 64) (maskOf ((l.filter (·.on)).map (·.v)))
  | _ =>
    let cut := r.theCut.getD { kb := 0, quota := none, mass := r.z }
    let u := ((r.su.draw.draws.zip r.us).find? (·.1.kind == kindInverse)).elim 0 (·.2)
    layout 128
      [ lf 0x00 4 (sumNat (r.unmasked.map (·.2))), lf 0x04 4 r.keptCount, lf 0x08 4 r.maxKey, lf 0x0C 4 cut.kb,
        lf 0x10 4 (cut.quota.getD 0xFFFFFFFF), lf 0x14 4 out.token, lf 0x18 12 r.z, lf 0x24 12 r.zPi, lf 0x30 12 cut.mass,
        lf 0x40 8 u, lf 0x48 12 (u * cut.mass / 2 ^ 64), lf 0x54 4 out.behaviour.toNat, lf 0x58 4 out.policy.toNat,
        lf 0x5C 1 r.round, lf 0x5D 1 (bit (!inverseRow r.su)), lf 0x5E 1 r.resamples ]

/-- The copy of the tensors that watches of the row's position ask for is complete: the attempt's tensors, and the summary (R405). -/
def watchCopy (i : InstId) (r : LandRow) (out : RowOut) (s : State) : State :=
  ((getInst s i).study.watches.filter fun w => w.lid == r.lid && w.position == r.su.draw.position).foldl
    (fun t w => hbmPut w.addr ((tensorBytes s i r out w.tensor).take w.size) t) s

/-! ### A row's end (R157, R165) -/

/-- The parity errors met by rows that leave stay counted in their waves (R158). -/
def keepParities (gone l : List LandRow) : List LandRow :=
  l.map fun y => { y with parities := y.parities ++ (gone.filter fun g => g.su.h.step == y.su.h.step && g.su.h.wave == y.su.h.wave).flatMap (·.parities) }

/-- The result of an entry stands: its rows leave the Landing, the outposts release them, the stop-check goes to its flow, the step may be SAMPLED (spec/04 R74, spec/02 R44); the resamples behind it have succeeded (spec/17 R359). -/
def postResult (i : InstId) (r : LandRow) (res : RowResult) (s : State) : State :=
  let mates := landMates s i r
  match stepBy24 (mir s i) r.su.h.step with
  | none => s
  | some st =>
    let s := modStep i st.num (fun st => { st with results := st.results ++ [res] }) s
    let s := mates.foldl (fun s y => sendAll i (.done y.su.h) y.su.outposts s) s
    let s := modInst i (fun x => { x with landing := keepParities mates (x.landing.filter fun y => !(mates.any (·.su.h == y.su.h))) }) s
    let s := countFixed i r.resamples s
    let s := if res.outs.isEmpty || (seqOf s i r.lid).r.stopSeqCount == 0 then s else postSeq i r.lid (.stopCheck st.num res.row) s
    sampledCheck i st.num s

/-- A DECODE row's token is known (spec/09 R210: source SAMPLED). -/
def decodeDone (i : InstId) (r : LandRow) (out : RowOut) (s : State) : State :=
  postResult i r { row := r.rowIdx, outs := [(.sampled, out)] } (watchCopy i r out s)

/-- No unmasked id: the entry has no distribution (spec/06 R142, spec/07 R172). -/
def emptyDone (i : InstId) (r : LandRow) (s : State) : State := postResult i r { row := r.rowIdx, empty := true } s

/-- A DRAFT row has drawn every child (spec/09 R199). -/
def draftDone (i : InstId) (r : LandRow) (drawn : List Nat) (s : State) : State := postResult i r { row := r.rowIdx, drafts := drawn } s

/-! ### Checks and resampling (R168, R169) -/

/-- A row as it was before its first pass. -/
def freshRow (r : LandRow) : LandRow := { su := r.su, rowIdx := r.rowIdx, sub := r.sub, lid := r.lid, resamples := r.resamples, parities := r.parities }

/-- A parity event, which stays on its channel when the summaries of its row are discarded (R158). -/
def isParity : UpMsg → Bool
  | .parity _ _ => true
  | _ => false

/-- Rows start again at pass 1 on every outpost: their summaries are discarded and the set-ups sent again (R158, R169). -/
def restartRows (i : InstId) (rs : List LandRow) (s : State) : State :=
  rs.foldl (fun s r =>
    let s := (landOuts r).foldl (fun s o => modOutpost o (fun x =>
      upPut i ((upOf x i).filter fun m => m.h != r.su.h || isParity m) (downPut i ((downOf x i).filter (·.h != r.su.h)) x)) s) s
    sendAll i (.rowSetup r.su) r.su.outposts (modLand i r.su.h freshRow s)) s

/-- A check failed on outposts: the first failure resamples the row, or both rows of its pair, and counts for each of them; the second kills the step, and the outposts run their self-test (R169, spec/09 R214; DESIGN CHOICE, log 119). -/
def checkFailed (i : InstId) (r : LandRow) (bad : List Nat) (s : State) : State :=
  if r.resamples = 0 then
    let mates := if (landStepRow s i r).any (fun x => x.2.pair.isSome) then landMates s i r else [r]
    let s := modStudy i (fun y => { y with resamples := satTo 32 (y.resamples + 1) }) s
    restartRows i (mates.map fun y => { y with resamples := y.resamples + 1 })
      (mates.foldl (fun s y => modLand i y.su.h (fun z => { z with resamples := z.resamples + 1 }) s) s)
  else match stepBy24 (mir s i) r.su.h.step with
    | none => s
    | some st =>
      let s := killStep i st.num false s
      let s := modStudy i (fun y => { y with selftests := satTo 32 (y.selftests + bad.length) }) s
      bad.foldl (fun s o => modOutpost o (fun x => { x with selftest := true }) s) s

/-! ### Verification of a pair (spec/09 R205-R211) -/

/-- The kept mass of a target row. -/
def landCut (r : LandRow) : Cut := r.theCut.getD { kb := 0, quota := none, mass := r.z }

/-- The masses at slot `n`: zero where a row has no distribution. -/
def slotMass (s : State) (i : InstId) (target draft : List LandRow) (n : Nat) : SlotMass :=
  let toks (r : LandRow) : List TokVal := rowTokens r.su (classIn s i r.su) (fun o => (getOutpost s o).larder)
  let t := target.find? (·.sub == n)
  let d := draft.find? (·.sub == n)
  { w := (t.map fun r => if r.empty then [] else keptMasses r.m (landCut r) (toks r)).getD []
    kp := (t.map fun r => if r.empty then 0 else (landCut r).mass).getD 0
    v := (d.map fun r => if r.empty then [] else keptMasses r.m { kb := 0, quota := none, mass := r.z } (toks r)).getD []
    zq := (d.map fun r => if r.empty then 0 else r.z).getD 0 }

/-- A draw of the verification, among those that came up with the target rows' MASS summaries (R209, spec/08 R185, R188). -/
def pairDraw (target : List LandRow) (kind pos low : Nat) : Nat :=
  (((target.flatMap fun r => r.su.draw.draws.zip r.us).find? fun x => x.1.kind == kind && x.1.position == pos && x.1.low == low).map (·.2)).getD 0

/-- The verdict on a pair (R205-R208). -/
def pairVerdict (s : State) (i : InstId) (q : Seq) (rc : Recipe) (target draft : List LandRow) : Verdict :=
  let slots := slotMass s i target draft
  let u (kind pos ord : Nat) : Nat := pairDraw target kind pos (drawSlot q.r ord)
  let n := q.draftList.length
  if rc.draftMode = 2 then
    verifyTree u q.r.kvLen (fun k => kidsOf rc n k) (fun k => q.draftList.getD (k - 1) 0) slots 17 0 []
  else verifyChain u q.r.kvLen slots q.draftList 1

/-- The pair's result: the accepted tokens and the last one with the outputs of the target rows at the slots before them (R210, R211). -/
def finishPair (i : InstId) (r : LandRow) (mates : List LandRow) (v : Verdict) (token : Nat) (s : State) : State :=
  let q := seqOf s i r.lid
  let rc := r.su.recipe
  let target := mates.filter (·.su.verify)
  let idx := (target.map (·.rowIdx)).headD r.rowIdx
  let at' (slot tok : Nat) : RowOut :=
    match target.find? (·.sub == slot) with
    | some y => outputsAt s i y (landCut y).mass tok
    | none => {}
  let accepted := v.path.map fun n => (Source.draftAccepted, at' (if rc.draftMode = 2 then rc.draftTree.getD n 0 else n - 1) (q.draftList.getD (n - 1) 0))
  let last := at' v.slot token
  let s := match target.find? (·.sub == v.slot) with
    | some y => watchCopy i y last s
    | none => s
  postResult i r { row := idx, outs := accepted ++ [(if v.bonus then .bonus else .residual, last)], spine := spineOf v.path 0 } s

/-- Where the tie group that a target row keeps ends: the id after the last kept one of key kb. -/
def tieEndOf (s : State) (i : InstId) (y : LandRow) : Nat :=
  let toks := rowTokens y.su (classIn s i y.su) (fun o => (getOutpost s o).larder)
  match (landCut y).quota with
  | none => y.su.vocab
  | some n => ((((toks.filter fun t => t.on && t.key == (landCut y).kb).map (·.v))[n - 1]?).map (· + 1)).getD 0

/-- The last token of a verified pair is located over the outposts: the residual pass of its slot's two rows begins, or that of the target row alone for a bonus (R206, R207). PRESUMED (log 101): it travels as a CUT and its answers as KEPT_SUM and LOCATED. -/
def startResid (i : InstId) (y : LandRow) (draft : List LandRow) (v : Verdict) (s : State) : State :=
  let d := if v.bonus then none else (draft.find? fun z => z.sub == v.slot && !z.empty).map fun z => (z.su, z.m)
  let sp : ResidSpec := { kb := (landCut y).kb, tieEnd := tieEndOf s i y, draft := d, folds := v.folds }
  sendAll i (.resid y.su.h sp) y.su.outposts (modLand i y.su.h (fun z => { z with stage := .resid, sums := [], verdict := some v }) s)

/-- Every row of a pair holds its masses: the tests are decided, and the last token is drawn; empty where a row of it has no distribution (R205-R208, spec/06 R142). -/
def settlePair (i : InstId) (r : LandRow) (mates : List LandRow) (s : State) : State :=
  let target := mates.filter (·.su.verify)
  let draft := mates.filter fun y => !y.su.verify
  let v := pairVerdict s i (seqOf s i r.lid) r.su.recipe target draft
  if mates.any (·.empty) then postResult i r { row := (target.map (·.rowIdx)).headD r.rowIdx, empty := true } s
  else match target.find? (·.sub == v.slot) with
    | some y => startResid i y draft v s
    | none => finishPair i r mates v 0 s

/-- A row of a pair holds its masses; with the last, the pair is verified. -/
def pairReady (i : InstId) (r : LandRow) (s : State) : State :=
  let s := modLand i r.su.h (fun y => { y with stage := .pairWait, sums := [] }) s
  let mates := landMates s i r
  if mates.all (·.stage == .pairWait) then settlePair i r mates s else s

/-! ### The draw (R163) -/

/-- The slivers of a row in ascending id order with kept mass and tie count, from the outposts' reports. -/
def sliverShares (r : LandRow) : List (Nat × Nat × Nat) :=
  (List.range (sliversOf r.su.vocab)).map fun g =>
    let e := ((look (outOfSliver r.su g) r.kept).getD []).getD (g / suD r.su) (0, 0)
    (g, e.1, e.2)

/-- Tie quotas in sliver order: each its tie count until the row's quota, if it does not take the whole group, is used up (R163). -/
def giveQuotas : Option Nat → List (Nat × Nat × Nat) → List (Nat × Nat × Nat)
  | _, [] => []
  | none, x :: t => x :: giveQuotas none t
  | some n, x :: t => (x.1, x.2.1, min x.2.2 n) :: giveQuotas (some (n - x.2.2)) t

/-- The sliver in which a target falls, its residual target and its quota (R163). -/
def sliverOf (e : Nat) : Nat → List (Nat × Nat × Nat) → Option (Nat × Nat × Nat)
  | _, [] => none
  | t, x :: xs =>
    let share := x.2.1 + x.2.2 * e
    if t < share then some (x.1, t, x.2.2) else sliverOf e (t - share) xs

/-- The mass of one id with key kb (spec/06 R139). -/
def cutMass (r : LandRow) : Nat := massE (fSub (ofKey (landCut r).kb) r.m)

/-- Draw the next token of a row: LOCATE goes to the lane that holds it (R163). -/
def sendLocate (i : InstId) (r : LandRow) (s : State) : State :=
  let c := landCut r
  let u := r.us.getD r.drawn.length 0
  match sliverOf (cutMass r) (u * c.mass / 2 ^ 64) (giveQuotas c.quota (sliverShares r)) with
  | none => s
  | some x =>
    let s := modLand i r.su.h (fun y => { y with stage := .locate, sums := [], sliver := x.1, residual := x.2.1 }) s
    sendDown i (.locate r.su.h x.1 x.2.1 c.kb x.2.2 (laneOfSliver r.su (x.1 / suD r.su))) (outOfSliver r.su x.1) s

/-! ### After the cut (R162-R164) -/

/-- The tie quotas of one outpost's slivers, in its order (R163, R166). -/
def quotasFor (r : LandRow) (qs : List (Nat × Nat × Nat)) (o : Nat) : List Nat :=
  (outSlivers r.su o).map fun g => ((qs.find? (·.1 == g)).map (·.2.2)).getD 0

/-- Quotas to every outpost, then the RACE pass (R163, R166). -/
def raceWithQuotas (i : InstId) (r : LandRow) (qs : List (Nat × Nat × Nat)) (s : State) : State :=
  let s := (landOuts r).foldl (fun s o => sendDown i (.quotas r.su.h (quotasFor r qs o)) o s) s
  sendAll i (.cut r.su.h (landCut r).kb (landCut r).quota .race) r.su.outposts (modLand i r.su.h (fun y => { y with stage := .race, sums := [] }) s)

/-- The cut is fixed: a pair's row waits, a single kept token is chosen, an inverse row runs KEPT, a race row KEPT or RACE (R160, R162-R164). -/
def afterCut (i : InstId) (r : LandRow) (s : State) : State :=
  let c := landCut r
  let s := modLand i r.su.h (fun _ => r) s
  if r.su.verify then pairReady i r s
  else if inverseRow r.su then
    if r.keptCount = 1 then
      (if r.su.draft then draftDone i r (r.us.map fun _ => r.maxId) s else decodeDone i r (outputsAt s i r c.mass r.maxId) s)
    else sendAll i (.cut r.su.h c.kb c.quota .kept) r.su.outposts (modLand i r.su.h (fun y => { y with stage := .kept, sums := [] }) s)
  else match c.quota with
    | none => sendAll i (.cut r.su.h c.kb none .race) r.su.outposts (modLand i r.su.h (fun y => { y with stage := .race, sums := [] }) s)
    | some n =>
      if r.keptCount = 1 ∧ n = 1 then raceWithQuotas i r [(r.maxId / 256, 0, 1)] s
      else sendAll i (.cut r.su.h c.kb c.quota .kept) r.su.outposts (modLand i r.su.h (fun y => { y with stage := .kept, sums := [] }) s)

/-- Ids of a row without a mask. -/
def landU (r : LandRow) : Nat := sumNat (r.unmasked.map (·.2))

/-- n0 of R162: no truncation for a draft row (spec/09 R198). -/
def landN0 (r : LandRow) : Nat :=
  let u := landU r
  if r.su.draft then u
  else min (if r.su.recipe.topK = 0 then u else min r.su.recipe.topK u) (if r.su.recipe.minP = 0 then u else r.minCount)

def landTopP (r : LandRow) : Nat := if r.su.draft then 0 else r.su.recipe.topP

/-- An outpost's bins of a round entered in its figures at bin `b` (R168). -/
def noteBin (b above : Nat) (o : Nat) (h : List Bin) : BinNote :=
  let up := sumNat ((h.filter fun x => decide (b < x.b)).map (·.mass))
  match h.find? (·.b == b) with
  | some x => { o := o, above := above + up, mass := x.mass, count := x.count, minKey := x.minKey, maxKey := x.maxKey }
  | none => { o := o, above := above + up, mass := 0, count := 0, minKey := 0, maxKey := 0 }

/-- Enter the outposts' bins of a round in the row's figures. -/
def noteBins (b : Nat) (hs : List (Nat × List Bin)) (r : LandRow) : LandRow :=
  { r with perOut := hs.map fun x => noteBin b (((r.perOut.find? (·.o == x.1)).map (·.above)).getD 0) x.1 x.2 }

/-- One round of the cut over the outposts' histograms (R162). -/
def cutRound (i : InstId) (r : LandRow) (hs : List (Nat × List Bin)) (s : State) : State :=
  match cutWalk r.round (landN0 r) (landTopP r) r.z (mergeHists (hs.map (·.2))) r.aboveC r.aboveM with
  | .fixed kb q mass count e =>
    let b := kb / 2 ^ (32 - 8 * r.round) % 256
    afterCut i { noteBins b hs r with theCut := some { kb := kb, quota := q, mass := mass }, keptCount := count, tieMass := e } s
  | .again c m b =>
    let pre := r.keyPrefix * 256 + b
    let r := { noteBins b hs r with aboveC := c, aboveM := m, keyPrefix := pre, round := r.round + 1, stage := .round, sums := [] }
    sendAll i (.roundReq r.su.h r.round pre) r.su.outposts (modLand i r.su.h (fun _ => r) s)

/-! ### Receiving summaries (R166, R167) -/

/-- The message at the front of an outpost's channel to the instance, if `p` holds of it. -/
def upHead (s : State) (i : InstId) (o : Nat) (p : UpMsg → Bool) : Option UpMsg :=
  ((upOf (getOutpost s o) i).head?).bind fun m => if p m then some m else none

/-- Take the message off the channel; the Landing's ring records it (spec/18 R397). -/
def popUp (i : InstId) (o : Nat) (s : State) : State :=
  match (upOf (getOutpost s o) i).head? with
  | none => s
  | some m => ringMessage i 2 m.h.step (.up m) (modOutpost o (fun x => upPut i ((upOf x i).drop 1) x) s)

/-- A message is of no uncommitted step, of an outpost outside the set, or of a row that the Landing does not hold: discarded and counted (R167). -/
def strayUp (s : State) (i : InstId) (o : Nat) (m : UpMsg) : Bool :=
  (stepBy24 (mir s i) m.h.step).isNone || !((getInst s i).place.outposts.getLsbD o) || (findLand s i m.h).isNone

/-- A row's end would send its STOP_CHECK into a full intake queue: its DONE waits (spec/12 R259). -/
def landingHeld (x y : Hallway) : Bool := intakeFull 1 x && decide ((atIntake 1 x).length < (atIntake 1 y).length)

/-- What the Landing does with the message in hand: held back, the message with it, while the end of a row finds its intake queue full (spec/12 R259). -/
def landEnd (i : InstId) (s u : State) : Result :=
  if landingHeld (getInst s i).hall (getInst u i).hall then done i s (modHall i (holdSource 1 s.tick) s) else endEvent i s u

/-- Take a summary of a pass: with those of every outpost in the set, `act` runs on the row and its summaries (R166). -/
def takeSum (i : InstId) (o : Nat) (stage : LandStage) (p : UpMsg → Bool) (act : LandRow → List (Nat × UpMsg) → State → State) (s : State) : Result :=
  match upHead s i o p with
  | none => .next s
  | some m =>
    let t := popUp i o s
    if strayUp s i o m then done i s (discardDown i t)
    else match findLand s i m.h with
      | none => .next s
      | some r =>
        if r.stage != stage then done i s (discardDown i t)
        else
          let sums := r.sums ++ [(o, m)]
          let t := modLand i m.h (fun y => { y with sums := sums }) t
          if (landOuts r).all fun k => sums.any (·.1 == k) then
            let u := act { r with sums := sums } sums t
            landEnd i s u
          else done i s t

/-! ### MAX (R161) -/

/-- A MAX summary: outpost, best key, best policy key, U, best score. -/
abbrev MaxPart := Nat × Option (Nat × Nat) × Option (Nat × Nat) × Nat × Option (F32 × Nat)

/-- The MAX summaries of a row. -/
def maxParts (sums : List (Nat × UpMsg)) : List MaxPart :=
  sums.filterMap fun x => match x.2 with
    | .maxSum _ b p n rc => some (x.1, b, p, n, rc)
    | _ => none

/-- Merge MAX summaries: U = 0 ends the row, else M and Mπ go back (R161, R172). -/
def actMax (i : InstId) (r : LandRow) (sums : List (Nat × UpMsg)) (s : State) : State :=
  let parts : List MaxPart := maxParts sums
  let best : Option (Nat × Nat) := bestKey (sortBy (fun a b => decide (a.2 < b.2)) (parts.filterMap (·.2.1)))
  let pol : Option (Nat × Nat) := bestKey (sortBy (fun a b => decide (a.2 < b.2)) (parts.filterMap (·.2.2.1)))
  let race := bestScore (sortBy (fun a b => decide (a.2 < b.2)) (parts.filterMap (·.2.2.2.2)))
  let r := { r with sums := [], unmasked := parts.map (fun (x : MaxPart) => (x.1, x.2.2.2.1)), race := race }
  match best with
  | none =>
    let r := { r with empty := true }
    let s := modLand i r.su.h (fun _ => r) s
    if (landStepRow s i r).any (fun x => x.2.pair.isSome) then pairReady i r s else emptyDone i r s
  | some b =>
    let r := { r with stage := .mass, maxKey := b.1, maxId := b.2, m := ofKey b.1, mPi := ofKey ((pol.map Prod.fst).getD 0) }
    sendAll i (.maxResult r.su.h r.m r.mPi) r.su.outposts (modLand i r.su.h (fun _ => r) s)

/-- MAX_SUM. -/
def execMaxSum (i : InstId) (o : Nat) (s : State) : Result :=
  takeSum i o .max (fun m => match m with | .maxSum _ _ _ _ _ => true | _ => false) (actMax i) s

/-! ### MASS (R160, R162, R168) -/

/-- The MASS summaries of a row. -/
def massInfos (sums : List (Nat × UpMsg)) : List (Nat × MassInfo) :=
  sums.filterMap fun x => match x.2 with
    | .massSum _ m => some (x.1, m)
    | _ => none

/-- The round 1 check of an outpost (R168). -/
def massOk (r : LandRow) (x : Nat × MassInfo) : Bool :=
  sumNat (x.2.hist.map (·.mass)) == x.2.z && sumNat (x.2.hist.map (·.count)) == (look x.1 r.unmasked).getD 0

/-- The cut of a row that keeps every id: the walk of R162 with n0 = U ends at the last bin, or at the MAX result where U is 1. -/
def wholeCut (r : LandRow) (hs : List (List Bin)) : Cut :=
  if landU r = 1 then { kb := r.maxKey, quota := some 1, mass := 2 ^ 60 }
  else { kb := (((mergeHists hs).getLast?).map (·.minKey)).getD 0, quota := none, mass := r.z }

/-- Merge MASS summaries, check them, and begin the cut; a race decided in MAX ends here, a draft row of a pair waits (R162, R164, spec/09 R198). -/
def actMass (i : InstId) (r : LandRow) (sums : List (Nat × UpMsg)) (s : State) : State :=
  let infos := massInfos sums
  let bad := (infos.filter fun x => !massOk r x).map (·.1)
  if !bad.isEmpty then checkFailed i r bad s
  else
    let r := { r with
      sums := [], z := sumNat (infos.map (·.2.z)), zPi := sumNat (infos.map (·.2.zPi)), sH := sumNat (infos.map (·.2.sH)),
      minCount := sumNat (infos.map (·.2.minCount)), us := infos.flatMap (·.2.us),
      cands := (sortBy candBefore (infos.flatMap (·.2.cands))).take r.su.recipe.topN }
    let s := modLand i r.su.h (fun _ => r) s
    if r.su.draft && (landStepRow s i r).any (fun x => x.2.kind == .draftScore) then pairReady i r s
    else if raceInMax r.su then
      match r.race with
      | some w =>
        let r := { r with keptCount := landU r, theCut := some (wholeCut r (infos.map (·.2.hist))) }
        decodeDone i r (outputsAt s i r r.z w.2) (modLand i r.su.h (fun _ => r) s)
      | none => s
    else if landN0 r = 1 ∧ landTopP r = 0 then
      afterCut i { r with theCut := some { kb := r.maxKey, quota := some 1, mass := 2 ^ 60 }, keptCount := 1, tieMass := 2 ^ 60 } s
    else cutRound i r (infos.map fun x => (x.1, x.2.hist)) s

/-- MASS_SUM. -/
def execMassSum (i : InstId) (o : Nat) (s : State) : Result :=
  takeSum i o .mass (fun m => match m with | .massSum _ _ => true | _ => false) (actMass i) s

/-! ### ROUND (R162, R168) -/

def roundHists (sums : List (Nat × UpMsg)) : List (Nat × List Bin) :=
  sums.filterMap fun x => match x.2 with
    | .roundSum _ h => some (x.1, h)
    | _ => none

/-- The check of round 2 and above (R168). -/
def roundOk (r : LandRow) (x : Nat × List Bin) : Bool :=
  match r.perOut.find? (·.o == x.1) with
  | some p => sumNat (x.2.map (·.mass)) == p.mass && sumNat (x.2.map (·.count)) == p.count
  | none => false

def actRound (i : InstId) (r : LandRow) (sums : List (Nat × UpMsg)) (s : State) : State :=
  let hs := roundHists sums
  let bad := (hs.filter fun x => !roundOk r x).map (·.1)
  if !bad.isEmpty then checkFailed i r bad s else cutRound i { r with sums := [] } hs s

/-- ROUND_SUM. -/
def execRoundSum (i : InstId) (o : Nat) (s : State) : Result :=
  takeSum i o .round (fun m => match m with | .roundSum _ _ => true | _ => false) (actRound i) s

/-! ### KEPT (R163, R168) -/

def keptReports (sums : List (Nat × UpMsg)) : List (Nat × List (Nat × Nat)) :=
  sums.filterMap fun x => match x.2 with
    | .keptSum _ l => some (x.1, l)
    | _ => none

/-- The KEPT check of an outpost: the mass above kb and the count at it, as its histograms give them; where kb shares an open bin with greater keys, they give only the mass of the two together (R168). -/
def keptOk (r : LandRow) (x : Nat × List (Nat × Nat)) : Bool :=
  let above := sumNat (x.2.map (·.1))
  let ties := sumNat (x.2.map (·.2))
  let kb := (landCut r).kb
  match r.perOut.find? (·.o == x.1) with
  | none => true
  | some p =>
    if p.count = 0 ∨ kb < p.minKey then above == p.above + p.mass && ties == 0
    else if p.maxKey = kb then above == p.above && ties == p.count
    else above + ties * cutMass r == p.above + p.mass && decide (ties ≤ p.count)

def actKept (i : InstId) (r : LandRow) (sums : List (Nat × UpMsg)) (s : State) : State :=
  let ks := keptReports sums
  let bad := (ks.filter fun x => !keptOk r x).map (·.1)
  if !bad.isEmpty then checkFailed i r bad s
  else
    let r := { r with sums := [], kept := ks }
    let s := modLand i r.su.h (fun _ => r) s
    if inverseRow r.su then sendLocate i r s else raceWithQuotas i r (giveQuotas (landCut r).quota (sliverShares r)) s

/-- The reports of a residual pass: outpost, total, shares. -/
def residReports (sums : List (Nat × UpMsg)) : List (Nat × Nat × List Nat) :=
  sums.filterMap fun x => match x.2 with
    | .residSum _ n l => some (x.1, n, l)
    | _ => none

/-- The shares of a residual pass, checked against the outposts' totals; then the token's sliver is located (spec/09 R206, R207). -/
def actResid (i : InstId) (r : LandRow) (sums : List (Nat × UpMsg)) (s : State) : State :=
  let ks := residReports sums
  let bad := (ks.filter fun x => sumNat x.2.2 != x.2.1).map (·.1)
  if !bad.isEmpty then checkFailed i r bad s
  else
    let u := (r.verdict.map (·.draw)).getD 0
    let shares := (List.range (sliversOf r.su.vocab)).map fun g =>
      (g, (((ks.find? (·.1 == outOfSliver r.su g)).map (·.2.2)).getD []).getD (g / suD r.su) 0, 0)
    match sliverOf 0 (u * sumNat (ks.map (·.2.1)) / 2 ^ 64) shares with
    | none => s
    | some x =>
      let s := modLand i r.su.h (fun y => { y with stage := .locate, sums := [], sliver := x.1, residual := x.2.1 }) s
      sendDown i (.locate r.su.h x.1 x.2.1 (landCut r).kb 0 (laneOfSliver r.su (x.1 / suD r.su))) (outOfSliver r.su x.1) s

/-- KEPT_SUM: of a KEPT pass, or of a residual pass. -/
def execKeptSum (i : InstId) (o : Nat) (s : State) : Result :=
  if (upHead s i o (fun m => match m with | .residSum _ _ _ => true | _ => false)).isSome then takeSum i o .resid (fun _ => true) (actResid i) s
  else takeSum i o .kept (fun m => match m with | .keptSum _ _ => true | _ => false) (actKept i) s

/-! ### RACE (R164) -/

def actRace (i : InstId) (r : LandRow) (sums : List (Nat × UpMsg)) (s : State) : State :=
  let best := bestScore (sortBy (fun a b => decide (a.2 < b.2)) (sums.filterMap fun x => match x.2 with
    | .raceSum _ b => b
    | _ => none))
  match best with
  | some w => decodeDone i { r with sums := [] } (outputsAt s i r (landCut r).mass w.2) s
  | none => s

/-- RACE_SUM. -/
def execRaceSum (i : InstId) (o : Nat) (s : State) : Result :=
  takeSum i o .race (fun m => match m with | .raceSum _ _ => true | _ => false) (actRace i) s

/-! ### LOCATED (R163, R165, R168) -/

/-- The LOCATE check (R168). -/
def locateOk (r : LandRow) (x : LocInfo) : Bool := decide (x.before ≤ r.residual) && decide (r.residual < x.before + x.e)

/-- A located token: the last one of a verified pair, the row's outputs, or the next child of a DRAFT row's node (R165, spec/09 R199, R207). -/
def actLocated (i : InstId) (r : LandRow) (o : Nat) (x : LocInfo) (s : State) : State :=
  if !locateOk r x then checkFailed i r [o] s
  else if let some v := r.verdict then finishPair i r (landMates s i r) v x.id s
  else if r.su.draft then
    let r := { r with drawn := r.drawn ++ [x.id] }
    let s := modLand i r.su.h (fun _ => r) s
    if r.drawn.length < r.us.length then sendLocate i r s else draftDone i r r.drawn s
  else decodeDone i r (outputsOf r (landCut r).mass x.id x.d x.e x.dPi x.ePi) s

/-- LOCATED. -/
def execLocated (i : InstId) (o : Nat) (s : State) : Result :=
  match upHead s i o (fun m => match m with | .located _ _ => true | _ => false) with
  | some (.located h x) =>
    let t := popUp i o s
    match (if strayUp s i o (.located h x) then none else findLand s i h) with
    | some r =>
      if r.stage == .locate then landEnd i s (actLocated i r o x t)
      else done i s (discardDown i t)
    | none => done i s (discardDown i t)
  | _ => .next s

/-! ### PARITY (R158, spec/17 R360) -/

/-- A slice of an outpost as one number. -/
def sliceNo (o lane : Nat) : Nat := 512 * o + lane

/-- A LARDER_FAULT: the step is killed and the host told; a second in the same slice within 1,000,000 ticks is an OUTPOST_FAULT (R158, spec/17 R360). -/
def larderFault (i : InstId) (o lane : Nat) (st : Step) (s : State) : State :=
  let again := (getInst s i).rel.larderFaults.any fun f => f.1 == o && f.2.1 == lane && decide (s.tick < f.2.2 + 1000000)
  let s := logFault i 0x02 (1 + o) none lane st.num 0 s
  let s := modRel i (fun x => { x with larderFaults := (o, lane, s.tick) :: x.larderFaults.filter fun f => !(f.1 == o && f.2.1 == lane) }) s
  let s := killStep i st.num false s
  if again then outpostFault i o 0 st.num s else s

/-- A parity event: the row starts again at pass 1, or, at a second error of the slice in the wave, the step is killed (R158). -/
def actParity (i : InstId) (r : LandRow) (o lane : Nat) (s : State) : State :=
  let twice := (getInst s i).landing.any fun y => y.su.h.step == r.su.h.step && y.su.h.wave == r.su.h.wave && y.parities.contains (sliceNo o lane)
  match stepBy24 (mir s i) r.su.h.step with
  | none => s
  | some st =>
    if twice then larderFault i o lane st s
    else
      let s := modLand i r.su.h (fun y => { y with parities := sliceNo o lane :: y.parities }) s
      restartRows i [{ r with parities := sliceNo o lane :: r.parities }] s

/-- PARITY. -/
def execParity (i : InstId) (o : Nat) (s : State) : Result :=
  match upHead s i o (fun m => match m with | .parity _ _ => true | _ => false) with
  | some (.parity h lane) =>
    let t := popUp i o s
    match (if strayUp s i o (.parity h lane) then none else findLand s i h) with
    | some r => endEvent i s (actParity i r o lane t)
    | none => done i s (discardDown i t)
  | _ => .next s

end Sys2Proof.Machine
end

