-- ==== Sys2Proof/Machine/Operands.lean ====
section
/-! DEFINITION. The operand forms of a mailbox command: the header and parameter block of spec/14 R292, and the command table of R295 (code, parameter size, scope, Dawn stage 4, the bytes that hold fields). -/

namespace Sys2Proof.Machine

open Sys2Proof

/-- Scope of a command (spec/14 R295). -/
inductive Scope where
  | inst | ctx | obj | openCtx
  deriving DecidableEq, Repr

/-- A row of the command table (spec/14 R295). -/
structure CmdSpec where
  code : Nat
  size : Nat
  scope : Scope
  dawn : Bool := false
  /-- Fields as (offset, bytes); every other byte of the block is reserved. -/
  fields : List (Nat × Nat) := []
  deriving DecidableEq, Repr

/-- The fields of the block of R300. -/
def openFields : List (Nat × Nat) := [(0, 0x58)]

/-- The command table (spec/14 R295), first half. -/
def cmdTable1 : List CmdSpec :=
  [ { code := 0x01, size := 32, scope := .inst, dawn := true, fields := [(0, 2), (8, 24)] },
    { code := 0x02, size := 24, scope := .inst, dawn := true, fields := [(0, 4), (8, 16)] },
    { code := 0x03, size := 16, scope := .inst, dawn := true, fields := [(0, 2), (8, 8)] },
    { code := 0x04, size := 8, scope := .inst, dawn := true, fields := [(0, 2)] },
    { code := 0x05, size := 16, scope := .inst, dawn := true, fields := [(0, 12)] },
    { code := 0x06, size := 0, scope := .inst, dawn := true },
    { code := 0x10, size := 8, scope := .inst, fields := [(0, 2), (4, 4)] },
    { code := 0x20, size := 96, scope := .openCtx, fields := openFields },
    { code := 0x21, size := 96, scope := .ctx, fields := openFields },
    { code := 0x22, size := 8, scope := .ctx, fields := [(0, 4)] },
    { code := 0x23, size := 8, scope := .ctx, fields := [(0, 8)] },
    { code := 0x30, size := 16, scope := .obj, fields := [(0, 2), (8, 8)] },
    { code := 0x31, size := 8, scope := .obj, fields := [(0, 2)] },
    { code := 0x40, size := 16, scope := .obj, fields := [(0, 2), (4, 12)] },
    { code := 0x41, size := 8, scope := .obj, fields := [(0, 2)] },
    { code := 0x42, size := 8, scope := .obj, fields := [(0, 2)] },
    { code := 0x50, size := 16, scope := .ctx, fields := [(0, 1), (8, 8)] },
    { code := 0x51, size := 16, scope := .ctx, fields := [(0, 16)] },
    { code := 0x52, size := 8, scope := .ctx, fields := [(0, 8)] },
    { code := 0x53, size := 24, scope := .ctx, fields := [(0, 20)] },
    { code := 0x54, size := 16, scope := .ctx, fields := [(0, 4), (8, 8)] },
    { code := 0x60, size := 8, scope := .inst, fields := [(0, 8)] },
    { code := 0x61, size := 16, scope := .obj, fields := [(0, 1), (8, 8)] },
    { code := 0x62, size := 8, scope := .inst, fields := [(0, 1)] },
    { code := 0x63, size := 8, scope := .inst, fields := [(0, 1)] },
    { code := 0x64, size := 8, scope := .inst, fields := [(0, 1)] },
    { code := 0x65, size := 8, scope := .inst, fields := [(0, 1)] },
    { code := 0x66, size := 8, scope := .inst, fields := [(0, 2)] } ]

/-- The command table (spec/14 R295), second half. -/
def cmdTable2 : List CmdSpec :=
  [ { code := 0x70, size := 8, scope := .inst, fields := [(0, 8)] },
    { code := 0x71, size := 8, scope := .inst, fields := [(0, 1)] },
    { code := 0x72, size := 8, scope := .inst, fields := [(0, 1)] },
    { code := 0x73, size := 8, scope := .inst, fields := [(0, 1)] },
    { code := 0x74, size := 8, scope := .inst, fields := [(0, 1)] },
    { code := 0x80, size := 0, scope := .inst },
    { code := 0x81, size := 8, scope := .inst, fields := [(0, 3)] },
    { code := 0x82, size := 16, scope := .inst, fields := [(0, 12)] },
    { code := 0x83, size := 16, scope := .inst, fields := [(0, 12)] },
    { code := 0x84, size := 0, scope := .inst },
    { code := 0x90, size := 8, scope := .inst, fields := [(0, 4)] },
    { code := 0x91, size := 8, scope := .inst, fields := [(0, 4)] },
    { code := 0x92, size := 8, scope := .inst, fields := [(0, 4)] },
    { code := 0x93, size := 0, scope := .inst },
    { code := 0xA0, size := 16, scope := .ctx, fields := [(0, 12)] },
    { code := 0xA1, size := 16, scope := .inst, fields := [(0, 1), (4, 12)] },
    { code := 0xB0, size := 32, scope := .ctx, fields := [(0, 9), (16, 12)] },
    { code := 0xB1, size := 8, scope := .inst, fields := [(0, 1), (4, 4)] },
    { code := 0xB2, size := 16, scope := .obj, fields := [(0, 4), (8, 8)] },
    { code := 0xC0, size := 16, scope := .inst, fields := [(0, 16)] },
    { code := 0xC1, size := 0, scope := .inst } ]

def cmdTable : List CmdSpec := cmdTable1 ++ cmdTable2

/-- The row of a code. -/
def cmdSpec (code : Nat) : Option CmdSpec := cmdTable.find? (·.code == code)

/-- Every reserved byte of a parameter block is zero (spec/00 R9). -/
def reservedZero (fields : List (Nat × Nat)) (p : List Byte) : Bool :=
  p.zipIdx.all fun x => x.1 == 0 || fields.any fun f => decide (f.1 ≤ x.2) && decide (x.2 < f.1 + f.2)

/-- The header of a staged command (spec/14 R292). -/
structure CmdHeader where
  code : Nat
  flags : Nat
  length : Nat
  cookie : Nat
  reserved : Bool
  deriving DecidableEq, Repr

def parseCmd (b : List Byte) : CmdHeader :=
  { code := fld b 0 2, flags := fld b 2 1, length := fld b 4 2, cookie := fld b 8 8,
    reserved := decide (1 < fld b 2 1) || fld b 3 1 != 0 || fld b 6 2 != 0 }

/-- A parameter field. -/
def prm (c : MboxCmd) (off n : Nat) : Nat := fld c.params off n

/-- A parameter field as a signed 64-bit value. -/
def signed64 (v : Int) : Nat := (v % 2 ^ 64).toNat

end Sys2Proof.Machine
end

