-- ==== Sys2Proof/Machine/Mailbox.lean ====
section
/-! DEFINITION. The mailbox: submitting a command, taking it, starting it in the order of the serving core, scopes, results (spec/14 R288-R297, spec/13 R281-R285). -/

namespace Sys2Proof.Machine

open Sys2Proof

/-! ### Windows (spec/14 R288-R291, spec/13 R275) -/

/-- The window is served: context 0's from CONFIG on, the others from READY on; after READY only those of the active instance, whose backing stores a mirror merely holds (spec/13 R275, spec/17 R361, R368; DEDUCED, log 41). -/
def winServes (s : State) (i : InstId) (w : Nat) : Bool :=
  let x := getInst s i
  match x.hearth.stage with
  | .config | .discovery => winCtx w == 0
  | .ready => x.rel.active && !x.rel.overtaken
  | _ => false

/-- MAILBOX_GO: a write of 1 to `go` (spec/14 R289). -/
def execMailboxGo (i : InstId) (w : Nat) (s : State) : Result :=
  if winServes s i w then done i s (modWin i w (fun x => { x with pending := true }) s) else .next s

/-- RES_HEAD_WRITE (spec/14 R291). -/
def execResHeadWrite (i : InstId) (w v : Nat) (s : State) : Result :=
  if winServes s i w then done i s (modWin i w (fun x => { x with resHead := wrapTo 32 v }) s) else .next s

/-- Commands of a window that have been taken and have no result yet. -/
def takenOf (m : Mirrored) (w : Nat) : Nat := (m.mbox.filter (·.window == w)).length

/-- A free entry in the window's result queue (spec/14 R289, R291). -/
def resultRoom (m : Mirrored) (w : Nat) : Bool :=
  decide (((getWin m w).resTail + 2 ^ 32 - (getWin m w).resHead) % 2 ^ 32 + takenOf m w < 32)

/-- Queued commands of a context (spec/13 R285). -/
def queuedOf (m : Mirrored) (c : Nat) : Nat := (m.mbox.filter fun x => winCtx x.window == c).length

/-- A result to a command that was not accepted (spec/14 R290). -/
def answerGo (i : InstId) (w : Nat) (h : CmdHeader) (r : Nat) (s : State) : State :=
  pushResult i w (tbit h.flags 0) { cookie := h.cookie, code := h.code, result := r, doneTick := s.tick } s

/-- Accept a command: the mailbox journal holds it (spec/13 R282, spec/14 R290, spec/18 R408). -/
def acceptCmd (i : InstId) (w : Nat) (h : CmdHeader) (params : List Byte) (s : State) : State :=
  commandLatch i 0 w h.code h.cookie <| modMir i (fun m => { m with
    mbox := m.mbox ++ [{ id := m.nextCmd, window := w, code := h.code, irq := tbit h.flags 0, cookie := h.cookie, params := params, acceptTick := s.tick }]
    nextCmd := m.nextCmd + 1 }) s

/-- MAILBOX_GO_TAKEN: the serving core copies the staged command and answers BUSY, UNKNOWN_COMMAND or INVALID, or accepts it (spec/14 R289, R290, R292). -/
def execMailboxGoTaken (i : InstId) (w : Nat) (s : State) : Result :=
  let x := getInst s i
  let win := getWin x.mir w
  if !winServes s i w || !win.pending || (servingCore x.hearth (winCtx w)).isNone || !resultRoom x.mir w then .next s
  else
    let h := parseCmd (memGets win.cmd 0 16)
    let t := modWin i w (fun y => { y with pending := false, accepted := wrapTo 32 (y.accepted + 1) }) s
    let t := ringPush i 5 0x025 1 0 [w, win.resHead, win.resTail] t
    if 64 ≤ queuedOf x.mir (winCtx w) then
      done i s (answerGo i w h rBusy (modHearth i (fun y => { y with busyReplies := satTo 32 (y.busyReplies + 1) }) t))
    else if h.reserved then .fault (.undefinedCase 12)
    else match cmdSpec h.code with
      | none => done i s (answerGo i w h rUnknown t)
      | some sp =>
        if h.length = 16 + sp.size then done i s (acceptCmd i w h (memGets win.cmd 16 sp.size) t)
        else done i s (answerGo i w h rInvalid t)

/-! ### The next command of a core (spec/13 R284, spec/14 R297) -/

/-- A command of a context with class-0 service (spec/13 R284). -/
def c0Cmd (m : Mirrored) (c : MboxCmd) : Bool :=
  let x := getCtx m (winCtx c.window)
  x.isOpen && x.cfg.c0Service

/-- R284: class-0 contexts first, then the earlier acceptance, then the lower window, then the order of acceptance. -/
def cmdBefore (m : Mirrored) (a b : MboxCmd) : Bool :=
  let ka := bit (!c0Cmd m a)
  let kb := bit (!c0Cmd m b)
  if ka ≠ kb then decide (ka < kb)
  else if a.acceptTick ≠ b.acceptTick then decide (a.acceptTick < b.acceptTick)
  else if a.window ≠ b.window then decide (a.window < b.window)
  else decide (a.id < b.id)

/-- A journal or bulk flush stands at its deferral bound (spec/13 R284); a FAILED instance flushes nothing (spec/17 R369). -/
def flushAtBound (s : State) (i : InstId) : Bool :=
  let r := (getInst s i).rel
  running s i && [r.flushDue, r.bulkDue].any fun d => match d with
    | some due => decide (due + 4000 ≤ s.tick)
    | none => false

/-- Commands wait at the core that has a core's background duty: any, or those of class-0 contexts alone (spec/13 R284). -/
def commandWaitsAt (s : State) (i : InstId) (core : Nat) (c0 : Bool) : Bool :=
  let x := getInst s i
  x.rel.active && x.mir.mbox.any fun c =>
    c.phase == .accepted && servingCore x.hearth (winCtx c.window) == servingCore x.hearth (4 * core) && (!c0 || c0Cmd x.mir c)

/-- The command that the core which serves a window starts next: accepted, not yet issued; only a class-0 command while a flush of that core stands at its bound (spec/13 R284). -/
def coreCommand (s : State) (i : InstId) (w : Nat) : Option MboxCmd :=
  let x := getInst s i
  match servingCore x.hearth (winCtx w) with
  | none => none
  | some k =>
    let mine := x.mir.mbox.filter fun c => c.phase == .accepted && servingCore x.hearth (winCtx c.window) == some k
    match firstBy (cmdBefore x.mir) mine with
    | none => none
    | some c => if flushAtBound s i && servingCore x.hearth 0 == some k && !c0Cmd x.mir c then none else some c

/-- The command that is taken: none while the Porch is held (spec/12 R259). -/
def nextCommand (s : State) (i : InstId) (w : Nat) : Option MboxCmd := if intakeFull 2 (getInst s i).hall then none else coreCommand s i w

/-- No command is taken: a Porch that its full intake queue keeps from one is held (spec/12 R259, R260). -/
def notTaken (i : InstId) (w : Nat) (s : State) : Result :=
  if intakeFull 2 (getInst s i).hall && (coreCommand s i w).isSome then done i s (modHall i (holdSource 2 s.tick) s) else .next s

/-! ### Scopes (spec/14 R295, R296, spec/15 R333, spec/17 R369) -/

/-- Commands a FAILED instance still serves (spec/17 R369). -/
def servedFailed (code : Nat) : Bool := code == 0x23 || code == 0x54 || code == 0xB2

/-- An instance command may be issued on the window (spec/14 R296). -/
def instAllowed (m : Mirrored) (c : Nat) : Bool := c == 0 || ((getCtx m c).isOpen && (getCtx m c).cfg.admin)

/-- The refusal of a faulted context: CONTEXT_FAULTED for every command, but for CONTEXT_OPEN, which waits for the end of the teardown, and, once that is reached, for the instance commands of context 0 (spec/14 R296, R300, R314, spec/15 R333; DEDUCED, log 14). -/
def faultedRefusal (cx : Ctx) (c : Nat) (scope : Scope) : Option Nat :=
  if !cx.faulted then none
  else match scope with
    | .openCtx => if cx.teardown then some rWrongState else none
    | .inst => if cx.teardown || c != 0 then some rFaulted else none
    | .ctx | .obj => some rFaulted

/-- The refusal that a command's scope and the instance's state give before its own row (spec/14 R295, R296, R314). -/
def scopeRefusal (s : State) (i : InstId) (sp : CmdSpec) (w : Nat) : Option Nat :=
  let x := getInst s i
  let c := winCtx w
  let cx := getCtx x.mir c
  let ready := x.hearth.stage == .ready
  (faultedRefusal cx c sp.scope).or <|
    if x.rel.failed && !servedFailed sp.code then some rWrongState
    else if sp.scope == .inst && !instAllowed x.mir c then some rNotPermitted
    else if sp.dawn && !(x.hearth.stage == .config) && !(sp.code == 0x01 && ready) then some rWrongState
    else if !sp.dawn && !ready then some rWrongState
    else match sp.scope with
      | .inst | .openCtx => none
      | .ctx | .obj => if !cx.isOpen then some rWrongState else none

/-! ### Starting a command -/

/-- What a command answers: a result now, or later (T). -/
inductive Answer where
  | now (result detail : Nat) (data : List Byte)
  | later
  deriving DecidableEq, Repr

/-- Invalid parameter. -/
def aInvalid : Answer := .now rInvalid 0 []
def aWrong : Answer := .now rWrongState 0 []
def aNotFound : Answer := .now rNotFound 0 []
def aOk : Answer := .now rOk 0 []

/-- Mark a command started: its wait is accounted (spec/15 R331), its batch issued (spec/13 R282). -/
def startCmd (i : InstId) (c : MboxCmd) (s : State) : State :=
  let k := winCtx c.window
  let core := (servingCore (getInst s i).hearth k).getD 0
  let s := modCmd i c.id (fun x => { x with phase := .issued, startTick := s.tick }) s
  let s := modAcct i k (fun a => { a with cmdWaitTicks := a.cmdWaitTicks + (s.tick - c.acceptTick) }) s
  ringPush i (8 + core) (0x028 + core) 1 c.code [cmdWord c, c.cookie] s

/-- A command whose result comes later gets a command-timeout entry of its core (spec/12 R261). -/
def timeCmd (i : InstId) (c : MboxCmd) (s : State) : State :=
  match findCmd (mir s i) c.id with
  | none => s
  | some _ =>
    let h := (mir s i).nextHandle
    let core := (servingCore (getInst s i).hearth (winCtx c.window)).getD 0
    modCmd i c.id (fun x => { x with timer := some h }) (duskMore i 3 (20 + core) (s.tick + Config.mailboxTimeout c.code) s)

/-- Answer a command. -/
def answerCmd (i : InstId) (c : MboxCmd) (a : Answer) (s : State) : State :=
  match a with
  | .now r d bs => finishCmd i c.id r d bs s
  | .later => timeCmd i c s

/-- The command is refused, so that nothing is placed or written for it. -/
def Answer.refuses : Answer → Bool
  | .now r _ _ => r != rOk
  | .later => false

/-- The undefined case that a command meets: an overlap (2) only where the command acts (spec/14 R293, R298, spec/01 R20). -/
def caseMet (bad : Option Nat) (a : Answer) : Option Nat := if bad == some 2 && a.refuses then none else bad

/-- Serve the command of a window's core if it is this window's and of this code: scope, reserved bytes, the undefined cases `bad` of its parameters by number, then its own meaning (spec/14 R295-R297, spec/00 R12). -/
def serve (i : InstId) (w code : Nat) (bad : MboxCmd → Option Nat) (f : MboxCmd → State → Answer × State) (s : State) : Result :=
  match nextCommand s i w with
  | none => notTaken i w s
  | some c =>
    if c.window != w || c.code != code then .next s
    else match cmdSpec code with
      | none => .next s
      | some sp =>
        let t := startCmd i c s
        match scopeRefusal s i sp w with
        | some r => endEvent i s (finishCmd i c.id r 0 [] t)
        | none =>
          if !reservedZero sp.fields c.params then .fault (.undefinedCase 12)
          else
            let a := f c t
            match caseMet (bad c) a.1 with
            | some n => .fault (.undefinedCase n)
            | none => endEvent i s (answerCmd i c a.1 a.2)

/-- No undefined case of its own. -/
def noCase (_ : MboxCmd) : Option Nat := none

/-- Case 12 of spec/00 R12 where the parameter `v` has a bit at or above `n`. -/
def tooWide (v n : Nat) : Option Nat := if v < 2 ^ n then none else some 12

/-- Case 13 of spec/00 R12: an identifier outside its range. -/
def overId (v n : Nat) : Option Nat := if v < n then none else some 13

end Sys2Proof.Machine
end

