-- ==== Sys2Proof/Machine/Contexts.lean ====
section
/-! DEFINITION. The mailbox commands on contexts and the class-0 reservation (spec/14 R300-R302, spec/03 R66, R67, spec/15 R331), and the output buffers of commands (R293). -/

namespace Sys2Proof.Machine

open Sys2Proof

/-! ### Buffers given to Shapa (spec/00 R12 case 2, spec/14 R293) -/

/-- Two byte ranges overlap. -/
def rangesMeet (a n b m : Nat) : Bool := decide (n ≠ 0 ∧ m ≠ 0 ∧ a < b + m ∧ b < a + n)

/-- The auxiliary bytes of a request (spec/02 R36, R50). -/
def requestAux (m : Mirrored) (r : Request) : Nat :=
  if r.auxAddr = 0 then 0 else auxStride (((findRecipe m r.recipe).map (·.topN)).getD 0) * r.trailCapacity * r.siblings

/-- The trail and the auxiliary area of a sequence, which its FINAL record releases: a held terminal leader has none (spec/01 R21, spec/02 R34, R47). -/
def trailsOfSeq (q : Seq) : List (Nat × Nat) :=
  if q.r.state == .finished || q.r.state == .aborted then []
  else [(q.r.trailAddr, 16 * q.r.trailCapacity), (q.r.auxAddr, if q.r.auxAddr = 0 then 0 else auxStride q.auxTopN * q.r.trailCapacity)]

/-- The trails and auxiliary areas that an instance's sequences and deferred requests hold (spec/01 R21, spec/02 R34). -/
def heldTrails (m : Mirrored) : List (Nat × Nat) :=
  m.seqs.flatMap trailsOfSeq ++ m.ctxs.flatMap fun c => c.defer.flatMap fun d =>
    [(d.req.trailAddr, 16 * d.req.trailCapacity * d.req.siblings), (d.req.auxAddr, requestAux m d.req)]

/-- A prompt and a stop block (spec/02 R34). -/
def inputsAt (prompt n stop count : Nat) : List (Nat × Nat) := [(prompt, 4 * n), (stop, if count = 0 then 0 else 640)]

/-- The prompts, stop blocks and extend-token buffers that an instance holds: those of a household as long as a member has no final record (spec/01 R21, spec/02 R34, R47, spec/14 R305). -/
def heldInputs (m : Mirrored) : List (Nat × Nat) :=
  ((m.seqs.filter fun q => q.r.state.live || q.r.state == .free).flatMap fun q => inputsAt q.r.promptAddr q.r.promptLen q.r.stopBlockAddr q.r.stopSeqCount)
    ++ (m.ctxs.flatMap fun c => c.defer.flatMap fun d => inputsAt d.req.promptAddr d.req.promptLen d.req.stopBlockAddr d.req.stopSeqCount)
    ++ (m.mbox.filter (·.code == 0x53)).map fun c => (prm c 8 8, 4 * prm c 4 4)

/-- Everything an instance's sequences, requests and commands hold. -/
def heldRanges (m : Mirrored) : List (Nat × Nat) := heldTrails m ++ heldInputs m

/-- The regions placed for an instance (spec/01 R20). -/
def regionRanges (x : Inst) : List (Nat × Nat) := x.place.regions.map fun p => (p.2.base, p.2.size)

/-- The registered plan images that `p` holds of. -/
def planImages (m : Mirrored) (p : PlanReg → Bool) : List (Nat × Nat) := (m.lib.registry.filter p).map fun r => (r.addr, r.size)

/-- The instances that own sequences: not the standby of a twin pair, whose copy is the active one's or stale, nor an instance that has been taken over (spec/01 R21, spec/17 R363, R368). -/
def holders (s : State) : List Inst := [s.a, s.b].filter fun x => x.rel.active && !x.rel.overtaken

/-- A buffer meets a region of either instance, a registered plan image or a held buffer: case 2 of spec/00 R12 (spec/01 R20). -/
def bufferClash (s : State) (a n : Nat) : Bool :=
  ([s.a, s.b].flatMap regionRanges ++ (holders s).flatMap fun x => planImages x.mir (fun _ => true) ++ heldRanges x.mir).any fun r => rangesMeet a n r.1 r.2

/-- An output buffer that is refused or undefined: INVALID off its alignment (R293). -/
def outputOk (a : Nat) : Bool := a % 64 == 0

/-- Plan images that are resident (spec/00 R12 case 7). -/
def planRanges (m : Mirrored) : List (Nat × Nat) := planImages m fun p => (residentPlan m p.id).isSome

/-- The case of spec/00 R12 that a host write into a placed region is: 4 for the manifests and page tables while a step is in flight, 6 for the Attic, the Cellar, and the trace buffer while tracing is enabled (spec/01 R20). -/
def regionCase (x : Inst) (k : Nat) : Option Nat :=
  if k = 0 ∨ k = 1 then some 6
  else if k = 2 ∨ k = 3 then (if x.mir.kitchen.steps.isEmpty then none else some 4)
  else if k = 5 ∧ x.study.traceOn then some 6
  else none

/-- What a host write of a buffer breaks (spec/00 R12): a region of Shapa's by its own case; a held trail or auxiliary area, case 6; where it changes a byte, a resident plan, case 7, or a held prompt, stop block or extend buffer, case 5. -/
def hostWriteCase (s : State) (a : Nat) (bs : List Byte) : Option Nat :=
  let meets (r : Nat × Nat) : Bool := rangesMeet a bs.length r.1 r.2
  let own := holders s
  match [s.a, s.b].findSome? fun x => x.place.regions.findSome? fun p => if meets (p.2.base, p.2.size) then regionCase x p.1 else none with
  | some n => some n
  | none =>
    if own.any (fun x => (heldTrails x.mir).any meets) then some 6
    else if memGets s.hbm a bs.length == bs then none
    else if own.any (fun x => (planRanges x.mir).any meets) then some 7
    else if own.any (fun x => (heldInputs x.mir).any meets) then some 5
    else none

/-- Token words with bits [31:20] set, or at or above a vocabulary (spec/02 R30, R31): cases 12 and 13 of spec/00 R12. -/
def tokenCase (vocab : Nat) (ts : List Nat) : Option Nat :=
  if ts.any fun t => decide (2 ^ 20 ≤ t) then some 12 else if ts.any fun t => decide (vocab ≤ t) then some 13 else none

/-! ### Class-0 reservation (spec/03 R66, R67) -/

/-- Class-0 sequences live, those whose ADMIT is still to be applied among them. -/
def c0Live (m : Mirrored) : Nat := (m.seqs.filter fun q => q.r.cls == 0 && (q.r.state.live || q.r.state == .free)).length

/-- Records of other classes that cooling cannot take from the Parlour. -/
def hotOthers (m : Mirrored) : Nat := (m.seqs.filter fun q => q.r.cls != 0 && q.r.hot && mustBeHot m q).length

/-- R67: a raise needs free pages and slots that cooling can free; a lowering keeps what is live and charged. -/
def reserveOk (x : Inst) (seqs pages : Nat) : Bool :=
  let f := x.mir.foyer
  let raise := decide (f.c0Sequences < seqs ∨ f.c0Pages < pages)
  let lower := decide (seqs < f.c0Sequences ∨ pages < f.c0Pages)
  (!raise || (decide (pages - f.c0Pages ≤ availPages x) && decide (hotOthers x.mir + seqs ≤ 65536)))
    && (!lower || (decide (c0Live x.mir ≤ seqs) && decide (c0Charged x.mir ≤ pages)))

/-- CLASS0_RESERVE (R67; the slots kept for class 0 move the cooling target, spec/19 R422). -/
def doClass0Reserve (i : InstId) (c : MboxCmd) (s : State) : Answer × State :=
  let seqs := prm c 0 2
  let pages := prm c 4 4
  if 1024 < seqs then (aInvalid, s)
  else if !reserveOk (getInst s i) seqs pages then (aWrong, s)
  else
    let s := journalObj i (.class0 seqs pages) (modFoyer i (fun f => { f with c0Sequences := seqs, c0Pages := pages }) s)
    (aOk, foyerRound i (coolExcess i (hotCount (mir s i)) s))

/-- CLASS0_RESERVE (spec/14 R295, spec/03 R67). -/
def execClass0Reserve (i : InstId) (w : Nat) (s : State) : Result := serve i w 0x10 noCase (doClass0Reserve i) s

/-! ### Opening and configuring (spec/14 R300, R301, spec/20 R437) -/

/-- The policies of `flags` (R300), onto a configuration. -/
def flagsCfg (fl : Nat) (c : CtxCfg) : CtxCfg :=
  { c with c0Service := tbit fl 1, kvTurnRelease := tbit fl 2, epochPolicy := bits fl 4 3, crossReheat := tbit fl 5 }

/-- The configuration that CONTEXT_OPEN's block gives (R300). -/
def openCfg (c : MboxCmd) : CtxCfg :=
  flagsCfg (prm c 0 4)
    { admin := tbit (prm c 0 4) 0, deferLimit := prm c 4 4, seed := slice c.params 8 16, sqBase := prm c 0x18 8, sqEntries := prm c 0x20 4,
      cqEntries := prm c 0x24 4, cqBase := prm c 0x28 8, shadow := prm c 0x30 8 }

/-- A power of two in a range. -/
def pow2In (n lo hi : Nat) : Bool := isPow2 n && decide (lo ≤ n) && decide (n ≤ hi)

/-- R300's INVALID cases. -/
def openInvalid (c : MboxCmd) : Bool :=
  let g := openCfg c
  g.epochPolicy == 3 || !pow2In g.sqEntries 16 65536 || !pow2In g.cqEntries 64 1048576 || g.sqBase % 4096 != 0 || g.cqBase % 4096 != 0
    || g.shadow % 8 != 0 || prm c 0x38 4 == 0 || prm c 0x40 4 == 0 || prm c 0x48 4 == 0 || prm c 0x54 4 != 0

/-- A bucket full at its capacity (R300, spec/15 R318). -/
def fullBucket (cap rate : Nat) : Bucket := { capacity := cap, rate := rate, level := 65536 * (cap : Nat) }

/-- The context as a context reset leaves it (spec/20 R437): everything at its first value but what the command gives. -/
def openedCtx (c : MboxCmd) : Ctx :=
  { cfg := openCfg c, isOpen := true, irqCount := prm c 0x50 2, irqTicks := prm c 0x52 2,
    adm := fullBucket (prm c 0x38 4) (prm c 0x3C 4), row := fullBucket (prm c 0x40 4) (prm c 0x44 4),
    hbm := fullBucket (prm c 0x48 4) (prm c 0x4C 4) }

/-- The context's two interrupt status bits are cleared (spec/20 R437). -/
def clearCtxIrq (i : InstId) (k : Nat) (s : State) : State :=
  modMir i (fun m => { m with irq := { m.irq with cq := m.irq.cq &&& ~~~(1#16 <<< k), mb := m.irq.mb &&& ~~~(1#16 <<< k) } }) s

/-- The OBJECT entry of a context (spec/17 R374). -/
def journalCtx (i : InstId) (k : Nat) (s : State) : State :=
  let x := getCtx (mir s i) k
  journalObj i (.ctx k x.isOpen x.cfg x.adm x.row x.hbm x.irqCount x.irqTicks) s

/-- CONTEXT_OPEN (R300, spec/20 R437): the result queues keep their state (DEDUCED, log 42); arrival blocks that the old ring still held return. -/
def doContextOpen (i : InstId) (c : MboxCmd) (s : State) : Answer × State :=
  let k := winCtx c.window
  let old := getCtx (mir s i) k
  if openInvalid c then (aInvalid, s)
  else if old.isOpen then (aWrong, s)
  else
    let s := old.arrivalDue.foldl (fun s p => freeArrival i p.2 s) s
    let s := clearCtxIrq i k (modCtx i k (fun _ => openedCtx c) s)
    (aOk, foyerRound i (journalCtx i k s))

/-- Bits of `flags` above [5:0] are reserved (R300). -/
def openCase (c : MboxCmd) : Option Nat := tooWide (prm c 0 4) 6

/-- CONTEXT_OPEN (spec/14 R300). -/
def execContextOpen (i : InstId) (w : Nat) (s : State) : Result := serve i w 0x20 openCase (doContextOpen i) s

/-- R301's INVALID cases: an unselected or unchangeable field that is not zero, a selected field that CONTEXT_OPEN refuses, a reserved bit of `select`. -/
def configureInvalid (c : MboxCmd) : Bool :=
  let sel := prm c 0x54 4
  let fl := prm c 0 4
  let off (b : Nat) (v : Nat) : Bool := !tbit sel b && v != 0
  decide (64 ≤ sel) || tbit fl 0 || off 0 (bits fl 5 1) || off 1 (prm c 4 4) || !zeros (slice c.params 8 16) || prm c 0x18 8 != 0
    || prm c 0x20 4 != 0 || prm c 0x24 4 != 0 || prm c 0x28 8 != 0 || prm c 0x30 8 != 0
    || off 2 (prm c 0x38 8) || off 3 (prm c 0x40 8) || off 4 (prm c 0x48 8) || off 5 (prm c 0x50 4)
    || (tbit sel 0 && bits fl 4 3 == 3) || (tbit sel 2 && prm c 0x38 4 == 0) || (tbit sel 3 && prm c 0x40 4 == 0)
    || (tbit sel 4 && prm c 0x48 4 == 0)

/-- A bucket with a new capacity and rate: its level is no greater than the new capacity (R301, spec/15 R335). -/
def rebucket (cap rate : Nat) (b : Bucket) : Bucket := { capacity := cap, rate := rate, level := min b.level (65536 * (cap : Nat)) }

/-- The context with the selected fields changed (R301). -/
def configured (c : MboxCmd) (x : Ctx) : Ctx :=
  let sel := prm c 0x54 4
  let cfg := if tbit sel 0 then flagsCfg (prm c 0 4) x.cfg else x.cfg
  { x with
    cfg := { cfg with deferLimit := if tbit sel 1 then prm c 4 4 else cfg.deferLimit }
    adm := if tbit sel 2 then rebucket (prm c 0x38 4) (prm c 0x3C 4) x.adm else x.adm
    row := if tbit sel 3 then rebucket (prm c 0x40 4) (prm c 0x44 4) x.row else x.row
    hbm := if tbit sel 4 then rebucket (prm c 0x48 4) (prm c 0x4C 4) x.hbm else x.hbm
    irqCount := if tbit sel 5 then prm c 0x50 2 else x.irqCount
    irqTicks := if tbit sel 5 then prm c 0x52 2 else x.irqTicks }

/-- CONTEXT_CONFIGURE (R301, spec/11 R239). -/
def doContextConfigure (i : InstId) (c : MboxCmd) (s : State) : Answer × State :=
  let k := winCtx c.window
  let m := mir s i
  if configureInvalid c then (aInvalid, s)
  else if m.kitchen.turn == .evening || m.dir.models.any (·.stage == .armed) then (aWrong, s)
  else
    let s := modCtx i k (configured c) s
    (aOk, foyerRound i (deferTimer i k (journalCtx i k s)))

/-- CONTEXT_CONFIGURE (spec/14 R301). -/
def execContextConfigure (i : InstId) (w : Nat) (s : State) : Result := serve i w 0x21 openCase (doContextConfigure i) s

/-! ### Closing (spec/14 R302) -/

/-- Records of a context that are not FREE, waiting ADMITs among them. -/
def seqsOfCtx (m : Mirrored) (k : Nat) : List Seq := m.seqs.filter (·.r.context == k)

/-- Sequences that a cancel reaches: live, or admitted with the ADMIT still in the flow. -/
def cancellable (q : Seq) : Bool := q.r.state.live || q.r.state == .free

/-- CONTEXT_CLOSE (R302 steps 1 and 2): the cancels, the defer queue's rejection. -/
def doContextClose (i : InstId) (c : MboxCmd) (s : State) : Answer × State :=
  let k := winCtx c.window
  let all := tbit (prm c 0 4) 0
  let qs := seqsOfCtx (mir s i) k
  if !all && !qs.isEmpty then (aWrong, s)
  else
    let s := modCtx i k (fun x => { x with closing := true }) s
    let s := if all then (qs.filter cancellable).foldl (fun s q => postSeq i q.r.localId (.cancel none) s) s else s
    (.later, postUnit i k (.context 2) (deferTimer i k (rejectDeferred i k 32 (fun _ => true) s)))

/-- Bits [31:1] of CONTEXT_CLOSE's flags are reserved. -/
def closeCase (c : MboxCmd) : Option Nat := tooWide (prm c 0 4) 1

/-- CONTEXT_CLOSE (spec/14 R302). -/
def execContextClose (i : InstId) (w : Nat) (s : State) : Result := serve i w 0x22 closeCase (doContextClose i) s

/-- CONTEXT_CLOSE commands of a context that have begun. -/
def closesOf (m : Mirrored) (k : Nat) : List MboxCmd := m.mbox.filter fun c => winCtx c.window == k && c.code == 0x22 && c.phase == .issued

/-- Other commands of the context that have begun and have no result yet (R314). -/
def othersRunning (m : Mirrored) (k : Nat) : Bool := m.mbox.any fun c => winCtx c.window == k && c.code != 0x22 && c.phase == .issued

/-- The close may complete: every sequence FREE, every entry read, the queue and the stream empty, no other command outstanding (R302, R314). -/
def closeReady (m : Mirrored) (k : Nat) : Bool :=
  let x := getCtx m k
  x.closing && x.isOpen && (seqsOfCtx m k).isEmpty && x.defer.isEmpty && x.sqHead == x.sqTail && x.stream.isEmpty && !othersRunning m k

/-- CONTEXT_CLOSE_DONE (R302 steps 3 and 4). -/
def execContextCloseDone (i : InstId) (c : Nat) (s : State) : Result :=
  let m := mir s i
  if !activeInst s i || !closeReady m c || (closesOf m c).isEmpty then .next s
  else
    let t := (closesOf m c).foldl (fun t x => finishCmd i x.id rOk 0 [] t) s
    done i s (journalCtx i c (modCtx i c (fun x => { x with isOpen := false, closing := false, cqHold := false }) t))

/-! ### CONTEXT_QUERY (spec/15 R331) -/

/-- The Foyer is not reading the ring (spec/03 R62). -/
def sqStalled (x : Ctx) : Bool := decide (32 ≤ x.defer.length)

/-- The 128-byte accounting record (spec/15 R331). -/
def acctBytes (m : Mirrored) (k : Nat) : List Byte :=
  let x := getCtx m k
  let a := x.acct
  layout 128
    [ lf 0x00 1 k, lf 0x01 1 (bit x.isOpen + 2 * bit x.faulted + 4 * bit x.cqHold + 8 * bit (sqStalled x)), lf 0x02 1 x.faultCause,
      lf 0x04 4 ((seqsOfCtx m k).filter (·.r.state.live)).length, lf 0x08 4 x.defer.length,
      lf 0x0C 4 (m.latches.filter fun l => l.held && l.owner == k).length,
      lf 0x10 8 (signed64 x.adm.level), lf 0x18 8 (signed64 x.row.level), lf 0x20 8 (signed64 x.hbm.level),
      lf 0x28 8 (satTo 64 a.rowsCommitted), lf 0x30 8 (satTo 64 a.entriesCommitted), lf 0x38 8 (satTo 64 a.rowWaitTicks),
      lf 0x40 8 (satTo 64 a.regulatorWaitTicks), lf 0x48 8 (satTo 64 a.latchWaitTicks), lf 0x50 8 (satTo 64 a.deferTicks),
      lf 0x58 8 (satTo 64 a.cmdWaitTicks), lf 0x60 4 a.preemptedRows, lf 0x64 4 a.preemptedSteps, lf 0x68 4 a.preempting,
      lf 0x6C 4 a.killedRowsOther, lf 0x70 4 a.planFaults, lf 0x74 4 a.raisedSteps ]

/-- CONTEXT_QUERY (spec/15 R331). -/
def doContextQuery (i : InstId) (c : MboxCmd) (s : State) : Answer × State :=
  let a := prm c 0 8
  if !outputOk a then (aInvalid, s) else (aOk, hbmPut a (acctBytes (mir s i) (winCtx c.window)) s)

/-- An output buffer of `n` bytes named at parameter offset `off` that meets a region or a held buffer: case 2 of spec/00 R12 (R293). -/
def outCase (s : State) (off n : Nat) (c : MboxCmd) : Option Nat :=
  if outputOk (prm c off 8) && bufferClash s (prm c off 8) n then some 2 else none

/-- CONTEXT_QUERY (spec/14 R295, spec/15 R331). -/
def execContextQuery (i : InstId) (w : Nat) (s : State) : Result := serve i w 0x23 (outCase s 0 128) (doContextQuery i) s

end Sys2Proof.Machine
end

