-- ==== Sys2Proof/Machine/Rings.lean ====
section
/-! DEFINITION. The Porch's rings and interrupts (spec/14 R307-R313), the Foyer's reading of submission entries (spec/03 R54, R55, R62, R63), and the faults and the end of a context (spec/15 R332, R333). -/

namespace Sys2Proof.Machine

open Sys2Proof

/-! ### When a register file takes writes (spec/19 R416, R427, spec/20 R436, spec/17 R368) -/

/-- The instance is held in a block reset (spec/20 R434). -/
def inReset (s : State) : InstId → Bool
  | .A => s.cap.inResetA
  | .B => s.cap.inResetB

/-- The instance is the mirror of the pair, or has been taken over: it holds what the stream gave it (spec/19 R416, spec/17 R368). -/
def mirrorIdle (s : State) (i : InstId) : Bool := (getInst s i).rel.mirror != .none && !(getInst s i).rel.active

/-- No write to the register file acts: a block reset, or a Dawn that ended FAILED (spec/20 R436, spec/13 R275). -/
def deaf (s : State) (i : InstId) : Bool := inReset s i || (getInst s i).hearth.stage == .failed

/-- The Latch block, `trace_min` and `cause_enable` take a write: a mirror holds what the stream gave it (R416). -/
def mirrorTakes (s : State) (i : InstId) : Bool := !deaf s i && !mirrorIdle s i

/-- The rings' indices take a write: neither at a mirror nor in the slice of an instance that has been taken over, where a doorbell is lost (spec/17 R361, R368). -/
def porchTakes (s : State) (i : InstId) : Bool := mirrorTakes s i && !(getInst s i).rel.overtaken

/-- The Kitchen, Foyer and directory, and Outposts blocks take a write (R427). -/
def limitsTake (s : State) (i : InstId) : Bool := mirrorTakes s i && !(getInst s i).rel.failed

/-! ### Indices (R307, R308) -/

/-- `a` - `b` modulo 2^32. -/
def ringDiff (a b : Nat) : Nat := (a + 2 ^ 32 - b % 2 ^ 32) % 2 ^ 32

/-- Write the shadow: `sq_head` and `cq_tail` with one write (R308). -/
def writeShadow (i : InstId) (c : Nat) (s : State) : State :=
  let x := getCtx (mir s i) c
  hostPut x.cfg.shadow (leBytes 4 x.sqHead ++ leBytes 4 x.cqTail) s

/-- Case 11 of spec/00 R12: a `sq_tail` beyond the ring's size (R307). -/
def sqTailCase (x : Ctx) (v : Nat) : Option Nat := if x.isOpen && decide (x.cfg.sqEntries < ringDiff v x.sqHead) then some 11 else none

/-- Case 11 of spec/00 R12: a `cq_head` that leaves more than the ring's size (R307). -/
def cqHeadCase (x : Ctx) (v : Nat) : Option Nat := if x.isOpen && decide (x.cfg.cqEntries < ringDiff x.cqTail v) then some 11 else none

/-- A write of `sq_tail`, without effect where the context is not open (R311). -/
def setSqTail (i : InstId) (c v : Nat) (s : State) : State :=
  let x := getCtx (mir s i) c
  if x.isOpen then ringPush i 5 0x025 2 0 [c, v, x.sqHead] (modCtx i c (fun x => { x with sqTail := v }) s) else s

/-- A write of `cq_head`: arrivals whose releasing record the host has passed return (R311, spec/16 R349). -/
def setCqHead (i : InstId) (c v : Nat) (s : State) : State :=
  let x := getCtx (mir s i) c
  if !x.isOpen then s
  else
    let passed (p : Nat × Nat) : Bool := decide (ringDiff p.1 x.cqHead < ringDiff v x.cqHead)
    let s := (x.arrivalDue.filter passed).foldl (fun s p => freeArrival i p.2 s) s
    journalRing i c (modCtx i c (fun x => { x with cqHead := v, arrivalDue := x.arrivalDue.filter fun p => !passed p }) s)

/-- A register write that may be an undefined case. -/
def guarded (i : InstId) (n : Option Nat) (s t : State) : Result :=
  match n with
  | some k => .fault (.undefinedCase k)
  | none => settle i s t

/-- SQ_TAIL_DOORBELL (R307, R311). -/
def execSqTailDoorbell (i : InstId) (c v : Nat) (s : State) : Result :=
  if porchTakes s i then guarded i (sqTailCase (getCtx (mir s i) c) v) s (setSqTail i c v s) else .next s

/-- CQ_HEAD_WRITE (R307, R309, R311). -/
def execCqHeadWrite (i : InstId) (c v : Nat) (s : State) : Result :=
  if porchTakes s i then guarded i (cqHeadCase (getCtx (mir s i) c) v) s (setCqHead i c v s) else .next s

/-! ### Interrupts (R311-R313) -/

/-- The moderation conditions of R312. -/
def cqDue (x : Ctx) (tick : Nat) : Bool :=
  x.unsignalled != 0 && (decide (max x.irqCount 1 ≤ x.unsignalled) || (x.irqTicks != 0 && decide (x.oldestTick + x.irqTicks ≤ tick)))

/-- Raise a context's completion interrupt where its conditions hold (R312). -/
def testCq (i : InstId) (c : Nat) (s : State) : State := if cqDue (getCtx (mir s i) c) s.tick then raiseIrq i c s else s

/-- IRQ_MODERATION_TIMER: the test of R312 at a tick. -/
def execIrqModerationTimer (i : InstId) (c : Nat) (s : State) : Result :=
  if (getInst s i).rel.active then done i s (testCq i c s) else .next s

/-- The tests of R312 that a tick brings. -/
def testCqs (i : InstId) (s : State) : State := (List.range 16).foldl (fun s c => testCq i c s) s

/-- One context's `irq_cq` bit is cleared; it rises again at once while records are unread (R313). -/
def clearCq (i : InstId) (c : Nat) (s : State) : State :=
  let s := modCtx i c (fun x => { x with unsignalled := 0 }) s
  let x := getCtx (mir s i) c
  if x.cqTail != x.cqHead then raiseIrq i c s else s

/-- A W1C write to the 36 status bits (R311, R313). -/
def clearIrq (i : InstId) (v : BitVec 36) (s : State) : State :=
  let s := modMir i (fun m => { m with irq := irqPut m.irq (irqAck (irqStatus m.irq) v) }) s
  (maskBits 16 v.toNat).foldl (fun s c => clearCq i c s) s

/-- `irq_enable` becomes `v`: a message for each set bit that becomes enabled (R312). -/
def setEnable (i : InstId) (v : BitVec 36) (s : State) : State :=
  let q := (mir s i).irq
  sendIrq i (irqStatus q &&& q.enable) (irqStatus q &&& v) (modMir i (fun m => { m with irq := { m.irq with enable := v } }) s)

/-- The part of an access at offset `off` that lands in the register at `base`: its value and the mask of bits it reaches (spec/19 R412). -/
def access (wide : Bool) (off v : Nat) : BitVec 64 × BitVec 64 :=
  if wide then (BitVec.ofNat 64 v, BitVec.allOnes 64)
  else if off % 8 = 0 then (BitVec.ofNat 64 (v % 2 ^ 32), BitVec.ofNat 64 0xFFFFFFFF)
  else (BitVec.ofNat 64 (v % 2 ^ 32 * 2 ^ 32), BitVec.ofNat 64 0xFFFFFFFF00000000)

/-- An access of 4 or 8 bytes that is aligned to its size (spec/01 R24). -/
def aligned (wide : Bool) (off : Nat) : Bool := if wide then off % 8 == 0 else off % 4 == 0

/-- The 8-byte register at `base` is reached by an access at `off`. -/
def reaches (wide : Bool) (off base : Nat) : Bool := off < base + 8 && base < off + (if wide then 8 else 4)

/-- The Porch's interrupt status and enable registers (spec/19 R411, R311). -/
def irqStatusOff : Nat := 0x0A00
def irqEnableOff : Nat := 0x0A08

/-- A value with a bit in [63:36]: case 12 of spec/00 R12. -/
def irqCase (v : BitVec 64) : Option Nat := if v >>> 36 == 0 then none else some 12

/-- IRQ_STATUS_CLEAR (R313), served at a mirror too, which R416 does not name for the Porch. Every bit of `irq_cq`, `irq_mb` and the flags lies wholly in one half. -/
def execIrqStatusClear (i : InstId) (wide : Bool) (off v : Nat) (s : State) : Result :=
  if !reaches wide off irqStatusOff then .next s
  else if !aligned wide off then .fault (.undefinedCase 13)
  else if !deaf s i then
    let w := access wide off v
    guarded i (irqCase w.1) s (clearIrq i (w.1.setWidth 36) s)
  else .next s

/-- IRQ_ENABLE_WRITE (R312), served at a mirror too (spec/17 R368). `irq_enable` spans both halves of its register: only an 8-byte write sets it (spec/19 R412). -/
def execIrqEnableWrite (i : InstId) (wide : Bool) (off v : Nat) (s : State) : Result :=
  if !reaches wide off irqEnableOff then .next s
  else if !aligned wide off then .fault (.undefinedCase 13)
  else if !deaf s i then
    let w := access wide off v
    guarded i (irqCase w.1) s (if wide then setEnable i (w.1.setWidth 36) s else s)
  else .next s

/-! ### The completion ring (R309, R310) -/

/-- Write records into consecutive ring slots from an index on. -/
def writeRing (cfg : CtxCfg) : Nat → List Completion → State → State
  | _, [], s => s
  | k, r :: rs, s => writeRing cfg (wrapTo 32 (k + 1)) rs (hostPut (cfg.cqBase + 32 * (k % cfg.cqEntries)) (completionBytes r) s)

/-- What writing `n` records of the stream leaves of the context (R309, R310, R312, spec/16 R349). -/
def ringWritten (tick n : Nat) (x : Ctx) : Ctx :=
  { x with
    cqTail := wrapTo 32 (x.cqTail + n)
    stream := x.stream.drop n
    cqHold := x.cqHold && decide (4096 ≤ x.stream.length - n)
    unsignalled := x.unsignalled + n
    oldestTick := if x.unsignalled = 0 then tick else x.oldestTick
    arrivalDue := x.arrivalDue ++ ((x.stream.take n).zipIdx.filterMap fun p => p.1.arrival.map fun a => (wrapTo 32 (x.cqTail + p.2), a)) }

/-- Free slots of the completion ring. -/
def ringFree (x : Ctx) : Nat := x.cfg.cqEntries - ringDiff x.cqTail x.cqHead

/-- The Porch writes stream records into the ring: not before the mirror has acknowledged them (R309, spec/17 R362). -/
def cqWrites (s : State) (i : InstId) (c : Nat) : Nat :=
  let x := getCtx (mir s i) c
  if (getInst s i).rel.active && x.isOpen && !mirrorBehind s i then min x.stream.length (ringFree x) else 0

/-- CQ_RING_WRITE (R309, R310). -/
def execCqRingWrite (i : InstId) (c : Nat) (s : State) : Result :=
  let n := cqWrites s i c
  if n = 0 then .next s
  else
    let x := getCtx (mir s i) c
    let t := writeRing x.cfg x.cqTail (x.stream.take n) s
    let t := testCq i c (writeShadow i c (modCtx i c (ringWritten s.tick n) t))
    let y := getCtx (mir t i) c
    let t := if x.cqHold && !y.cqHold then foyerRound i (ringPush i 5 0x025 3 0 [c] t) else t
    settle i s t

/-! ### The submission ring (R307, R308, spec/03 R55, R62) -/

/-- The Foyer reads an entry of the ring: the instance composes, the context is open and not torn down, the Porch is not held (spec/12 R259), an entry waits, the defer queue has room, no forwarded request waits ahead (spec/03 R62, R63, spec/15 R333, spec/16 R351). -/
def sqReads (s : State) (i : InstId) (c : Nat) : Bool :=
  let x := getCtx (mir s i) c
  activeInst s i && !intakeFull 2 (getInst s i).hall && x.isOpen && !x.teardown && x.sqHead != x.sqTail && !sqStalled x && !((mir s i).foyer.forwarded.any (·.1 == c))

/-- A submission entry is not read: the Porch may be held by its intake queue (spec/12 R259, R260). -/
def notRead (i : InstId) (c : Nat) (s : State) : Result :=
  let x := getCtx (mir s i) c
  if activeInst s i && x.isOpen && x.sqHead != x.sqTail && intakeFull 2 (getInst s i).hall then done i s (modHall i (holdSource 2 s.tick) s) else .next s

/-- `sq_head` passes an entry (R308). -/
def passEntry (i : InstId) (c : Nat) (s : State) : State :=
  writeShadow i c (journalRing i c (modCtx i c (fun x => { x with sqHead := wrapTo 32 (x.sqHead + 1) }) s))

/-- The reserved bytes of an entry (R308). -/
def entryReserved (e : List Byte) : Bool := !zeros (slice e 1 63)

/-- A trail that overlaps any other buffer given to Shapa: case 2 of spec/00 R12. -/
def trailClash (s : State) (m : Mirrored) (r : Request) : Bool :=
  let n := 16 * r.trailCapacity * r.siblings
  let own := (r.auxAddr, requestAux m r) :: inputsAt r.promptAddr r.promptLen r.stopBlockAddr r.stopSeqCount
  bufferClash s r.trailAddr n || own.any (fun b => rangesMeet r.trailAddr n b.1 b.2)
    || (holders s).any fun x => (heldTrails x.mir).any fun b => rangesMeet r.auxAddr (requestAux m r) b.1 b.2

/-- The token words of the used stop-block entries, as they stand (spec/02 R32). -/
def stopWords (r : Request) (stop : List Byte) : List Nat :=
  (List.range r.stopSeqCount).flatMap fun j => unwords stop (80 * j + 16) 4 (fld stop (80 * j) 1)

/-- Reserved bytes of the used stop-block entries (spec/02 R32). -/
def stopReserved (r : Request) (stop : List Byte) : Bool :=
  (List.range (min 8 r.stopSeqCount)).any fun j => !zeros (slice stop (80 * j + 1) 15)

/-- The undefined cases of a request whose buffers stand in HBM at state `s` (spec/00 R12; spec/02 R30-R34). A request that the Foyer refuses for its descriptor uses none of them. -/
def requestCase (s : State) (i : InstId) (r : Request) : Option Nat :=
  let m := mir s i
  let stop := stopOf s r
  if badRequest m r stop then none
  else if stopReserved r stop then some 12
  else if (refusal (getInst s i) s.tick 0 r).isSome && (getModel m r.model).committed.isNone then none
  else if trailClash s m r then some 2
  else
    let v := ((getModel m r.model).committed.map (·.vocab)).getD (2 ^ 20)
    tokenCase v (unwords (memGets s.hbm r.promptAddr (4 * r.promptLen)) 0 4 r.promptLen ++ r.stopTokens ++ stopWords r stop)

/-- The host's buffers as they stand when the entry is read: the prompt's tokens and the stop block (R308; spec/02 R30, R32). -/
def placeBuffers (r : Request) (prompt : List Nat) (stop : List Byte) (s : State) : State :=
  hbmPut r.stopBlockAddr stop (hbmPut r.promptAddr (words 4 prompt) s)

/-- The address of the ring slot that the Porch reads next (R308). -/
def sqSlot (x : Ctx) : Nat := x.cfg.sqBase + 320 * (x.sqHead % x.cfg.sqEntries)

/-- The entry in that slot, as it stands (R308). -/
def entryAt (s : State) (i : InstId) (c : Nat) : List Byte := memGets s.host (sqSlot (getCtx (mir s i) c)) 320

/-- What the host has put into that slot (R308). -/
def placeEntry (i : InstId) (c : Nat) (entry : List Byte) (s : State) : State := hostPut (sqSlot (getCtx (mir s i) c)) entry s

/-- A SUBMIT entry that is read: its reserved bytes, the buffers the host put into HBM for it, the Foyer's answer (spec/03 R54, R55, R58). -/
def readSubmit (i : InstId) (c : Nat) (e : List Byte) (prompt : List Nat) (stop : List Byte) (s u : State) : Result :=
  let d := slice e 0x40 256
  let r := parseRequest d
  if entryReserved e || requestReserved d then .fault (.undefinedCase 12)
  else match (hostWriteCase u r.promptAddr (words 4 prompt)).or (hostWriteCase u r.stopBlockAddr stop) with
    | some n => .fault (.undefinedCase n)
    | none =>
      let t := placeBuffers r prompt stop u
      match if (getCtx (mir t i) c).closing then none else requestCase t i r with
      | some n => .fault (.undefinedCase n)
      | none => endEvent i s (passAll i (passEntry i c (newRequest i c r t)))

/-- SUBMIT_ENTRY (spec/03 R54, R55, R58; R308): the entry that the host put at the ring's head. -/
def execSubmitEntry (i : InstId) (c : Nat) (entry : List Byte) (prompt : List Nat) (stop : List Byte) (s : State) : Result :=
  if !sqReads s i c then notRead i c s
  else
    let u := placeEntry i c entry s
    let e := entryAt u i c
    if fld e 0 1 = 1 then readSubmit i c e prompt stop s u else .next s

/-- SQ_NOP (R308). -/
def execSqNop (i : InstId) (c : Nat) (entry : List Byte) (s : State) : Result :=
  if !sqReads s i c then notRead i c s
  else
    let u := placeEntry i c entry s
    let e := entryAt u i c
    if fld e 0 1 != 0 then .next s
    else if entryReserved e then .fault (.undefinedCase 12)
    else done i s (passEntry i c u)

/-- SQ_BAD_KIND: skipped and counted (R308). -/
def execSqBadKind (i : InstId) (c : Nat) (entry : List Byte) (s : State) : Result :=
  if !sqReads s i c then notRead i c s
  else
    let u := placeEntry i c entry s
    let e := entryAt u i c
    if fld e 0 1 ≤ 1 then .next s
    else if entryReserved e then .fault (.undefinedCase 12)
    else done i s (modCtx i c (fun x => { x with sqBadKind := satTo 32 (x.sqBadKind + 1) }) (passEntry i c u))

/-! ### Re-evaluation and expiry (spec/03 R63, R64, spec/12 R261) -/

/-- The Foyer's own unit flow (spec/12 R250). -/
def foyerUnit : Nat := 16

/-- The Foyer's periodic entry is in its list, or its TIMER in its flow (spec/12 R261). -/
def foyerTimed (x : Inst) : Bool :=
  (x.mir.dusk.any fun d => d.list == 1 && d.flow == .unit foyerUnit) || flowHas x.hall (.unit foyerUnit) fun k => match k with | .timer .. => true | _ => false

/-- Evaluate the deferred requests, with the periodic entry inserted for `due` (R63, spec/12 R261). -/
def foyerPeriod (i : InstId) (due : Nat) (s : State) : State := foyerRound i (duskUnit i 1 foyerUnit due s)

/-- FOYER_REEVALUATION: the TIMER of the periodic entry, which is inserted again 16 ticks on; where the Foyer has no entry, it makes its first (R63, spec/12 R261). -/
def execFoyerReevaluation (i : InstId) (s : State) : Result :=
  if activeInst s i && !foyerTimed (getInst s i) then endEvent i s (foyerPeriod i (s.tick + 16) s)
  else
    let u := fireDue i 1 (.unit foyerUnit) s
    match dueTimer u i 1 (.unit foyerUnit) with
    | none => done i s u
    | some (_, due) => endEvent i s (foyerPeriod i (max (due + 16) (s.tick + 1)) (releaseEvent i (.unit foyerUnit) u))

/-- Reject the requests of a context whose limit or deadline has expired (spec/03 R64). -/
def expireDeferred (i : InstId) (c : Nat) (s : State) : State :=
  let x := getCtx (mir s i) c
  let at' (reason : Nat) (d : Deferred) : Bool := deferExpired x s.tick d == some reason
  deferTimer i c (rejectDeferred i c 41 (at' 41) (rejectDeferred i c 40 (at' 40) s))

/-- DEFER_LIMIT_EXPIRY: the TIMER of a context's park-timeout entry (spec/12 R261, spec/03 R64); what it frees is offered to the others. -/
def execDeferLimitExpiry (i : InstId) (c : Nat) (s : State) : Result :=
  let u := fireDue i 2 (.unit c) s
  match dueTimer u i 2 (.unit c) with
  | none => done i s u
  | some _ => endEvent i s (foyerRound i (expireDeferred i c (releaseEvent i (.unit c) u)))

/-- CONTEXT: context-level work on unit flow c, after the context's close or fault: the Foyer evaluates the deferred requests (spec/12 R251; DESIGN CHOICE, log 84). -/
def execContext (i : InstId) (c : Nat) (s : State) : Result :=
  match flowKind s i (.unit c) with
  | some (.context _) => endEvent i s (foyerRound i (releaseEvent i (.unit c) s))
  | _ => .next s

/-! ### Context faults (spec/15 R332, R333) -/

/-- DMA_ERROR: cause 2 (spec/15 R332). -/
def execDmaError (i : InstId) (c : Nat) (s : State) : Result :=
  if running s i && (getInst s i).rel.active && (getCtx (mir s i) c).isOpen then endEvent i s (askFault i c 2 s) else .next s

/-- A TEARDOWN event of the context is still to be applied. -/
def teardownPending (x : Inst) (c : Nat) : Bool :=
  ((outstanding x.hall).any fun e => e.kind == .teardown && (match e.flow with | .seq l => (getSeq x.mir l).r.context == c | .unit _ => false))
    || x.mir.seqs.any fun q => q.r.context == c && q.bcast.any (·.1 == .teardown)

/-- The broadcast is complete, and no work of the context waits for a peer's answer (spec/15 R333 step 5, spec/16 R351). -/
def teardownDone (x : Inst) (c : Nat) : Bool :=
  (getCtx x.mir c).teardown && !teardownPending x c && !(x.mir.outXfers.any (·.context == c)) && !((getCtx x.mir c).defer.any (·.fwd.isSome))

/-- Every buffer of the context is released: arrivals that its undelivered records and its ring still held return (spec/15 R333 step 5). -/
def releaseContext (i : InstId) (c : Nat) (s : State) : State :=
  let x := getCtx (mir s i) c
  let s := (x.stream.filterMap (·.arrival) ++ x.arrivalDue.map (·.2)).foldl (fun s a => freeArrival i a s) s
  modCtx i c (fun x => { x with arrivalDue := [], isOpen := false, closing := false, teardown := false }) s

/-- TEARDOWN_COMPLETE (spec/15 R333 step 5): `open` clears, `irq_fault` rises again. -/
def execTeardownComplete (i : InstId) (c : Nat) (s : State) : Result :=
  if activeInst s i && teardownDone (getInst s i) c then
    endEvent i s (raiseIrq i irqFault (journalCtx i c (releaseContext i c s)))
  else .next s

end Sys2Proof.Machine
end

