-- ==== Sys2Proof/Machine/Fabric.lean ====
section
/-! DEFINITION. The messages of the peer fabric (spec/16 R338-R356): what an instance does with each message it receives, the transfers at both ends, the directions table, the Stairwell's timing and injection registers. -/

namespace Sys2Proof.Machine

open Sys2Proof

/-! ### Receiving (R338, R340, R341) -/

/-- The Stairwell receives: from Dawn's discovery on, while the instance has not failed and core 3 or its cover is in service (spec/13 R269, R275, R337, R355). -/
def fabricOn (s : State) (i : InstId) : Bool :=
  let x := getInst s i
  !inReset s i && !x.rel.failed && onDuty s i 3 && (x.hearth.stage == .discovery || x.hearth.stage == .ready)

/-- Count a discarded message (R341). -/
def staleDiscard (i : InstId) (s : State) : State := modStair i (fun t => { t with staleDiscards := satTo 32 (t.staleDiscards + 1) }) s

/-- The types of R341. -/
def listedTypes : List Nat := [tAnnounce, tAnnounceReply, tOffer, tAccept, tRefuse, tData, tDataAck, tHandover, tAck, tNak, tAbandon, tBounce]

/-- Bounce a message (R338): the current role and generation, and the bounced header. R340 gives the reason no number of its own: 0. -/
def sendBounce (i : InstId) (m : PeerMsg) (s : State) : State :=
  sendMsg i { mkMsg tBounce m.src with subject := m.subject, attempt := m.attempt, payload := headerBytes m }
    (modStair i (fun t => { t with bouncedOut := satTo 32 (t.bouncedOut + 1) }) s)

/-- Reserved bits of a payload: case 12 of spec/00 R12. -/
def reservedCase (bad : Bool) : Option Nat := if bad then some 12 else none

/-- A subject with a reserved bit set: of a global id [63:36], of a forward number [62:32] (R336, R340). -/
def subjectReserved (n : Nat) : Bool := if tbit n 63 then n % 2 ^ 63 / 2 ^ 32 != 0 else n / 2 ^ 36 != 0

/-- Reserved bits of a header that the fields of a message show: of the sender's address, and of the ids of a transfer (R336, R340). -/
def headerReserved (m : PeerMsg) : Bool :=
  decide (2 ^ 14 ≤ m.src) || (hasGen m.type && (subjectReserved m.subject || subjectReserved m.peerSubject))

/-- Receive a message of a row's type: the count, the ring, the check, the generation (R338, R340, R341), the undefined cases of its header and payload (spec/00 R12), then the row's own work; none is taken while the Stairwell is held (spec/12 R259). A message for another address is not this instance's. -/
def receiveIf (i : InstId) (ty : Nat) (m : PeerMsg) (case' : State → Option Nat) (f : State → State) (s : State) : Result :=
  let x := getInst s i
  if !fabricOn s i || m.dst != peerAddr x then .next s
  else if intakeFull 3 x.hall then done i s (modHall i (holdSource 3 s.tick) s)
  else if msgCheck m != m.check || !listedTypes.contains m.type then
    done i s (modStair i (fun t => { t with received := t.received + 1, crcDiscards := satTo 32 (t.crcDiscards + 1) }) s)
  else if m.type != ty then .next s
  else
    let t := ringPush i 6 0x026 m.type m.subject (unwords (headerBytes m) 0 8 8) (modStair i (fun t => { t with received := t.received + 1 }) s)
    if hasGen ty && m.dstGen != x.stair.roleGen then done i s (sendBounce i m t)
    else match (reservedCase (headerReserved m)).or (case' t) with
      | some n => .fault (.undefinedCase n)
      | none => endEvent i s (f t)

/-- A message whose payload, if any, has no reserved bits. -/
def receive (i : InstId) (ty : Nat) (m : PeerMsg) (f : State → State) (s : State) : Result := receiveIf i ty m (fun _ => none) f s

/-- Messages of transfers act at the active instance only; elsewhere they match no transfer (R337, R355). -/
def atActive (i : InstId) (f : State → State) (s : State) : State := if activeInst s i then f s else staleDiscard i s

/-! ### Announcements (R342, R343) -/

/-- The sender's entry with the figures of its ANNOUNCE (R342). -/
def peerFigures (tick : Nat) (m : PeerMsg) (p : Peer) : Peer :=
  { p with
    role := m.srcRole
    gen := m.srcGen
    reachable := true
    lastTick := tick
    resident := BitVec.ofNat 64 (fld m.payload 0 8)
    described := BitVec.ofNat 64 (fld m.payload 8 8)
    opens := BitVec.ofNat 16 (fld m.payload 0x10 2)
    flags := fld m.payload 0x12 1
    arrivalFree := fld m.payload 0x14 4
    freeIds := fld m.payload 0x18 4
    fwBuild := fld m.payload 0x1C 4 }

/-- A received ANNOUNCE or reply updates its sender's entry, or adds one (R343). -/
def noteAnnounce (i : InstId) (answer : Bool) (m : PeerMsg) (s : State) : State :=
  let mm := mir s i
  modStair i (fun t => { t with peers := (addPeer mm { addr := m.src } t.peers).map fun p =>
    if p.addr == m.src then { peerFigures s.tick m p with asked := p.asked && !answer } else p }) s

/-- Reserved bits of an ANNOUNCE payload (R342). -/
def announceCase (m : PeerMsg) : Option Nat := reservedCase (fld m.payload 0x12 1 / 4 != 0 || fld m.payload 0x13 1 != 0 || !zeros (slice m.payload 0x20 32))

/-- ANNOUNCE: answered in every role (R343). -/
def execAnnounce (i : InstId) (msg : PeerMsg) (s : State) : Result :=
  receiveIf i tAnnounce msg (fun _ => announceCase msg) (fun s => sendMsg i { mkMsg tAnnounceReply msg.src with payload := announcePayload (getInst s i) } (noteAnnounce i false msg s)) s

/-- ANNOUNCE_REPLY (R342, R343). -/
def execAnnounceReply (i : InstId) (msg : PeerMsg) (s : State) : Result :=
  receiveIf i tAnnounceReply msg (fun _ => announceCase msg) (noteAnnounce i true msg) s

/-! ### The source's end -/

/-- A message for a transfer is progress: its timers start again (R350). -/
def noteProgress (i : InstId) (t : OutXfer) (s : State) : State :=
  let st := (getInst s i).stair
  let s := modOut i t.subject (fun t => { t with lastProgress := s.tick }) s
  if t.forward then s
  else
    let s := duskSet i 1 t.lid (s.tick + st.retryTicks) s
    if t.stage == .handover then s else duskSet i 3 t.lid (s.tick + st.timeoutTicks) s

/-- A transfer fails with a reason: `migrate_fail`, or the request is the origin's again, which evaluates it (R339, R348, R350, R351). -/
def failTransfer (i : InstId) (t : OutXfer) (reason : Nat) (s : State) : State :=
  if t.forward then foyerRound i (forwardBack i t (closeOut i t false s))
  else postSeq i t.lid (.migrateFail reason) (modOut i t.subject (fun t => { t with stage := .failed }) s)

/-- The open transfer that a message names (R341). -/
def outFor (m : Mirrored) (msg : PeerMsg) : Option OutXfer :=
  m.outXfers.find? fun t => t.subject == msg.subject && t.attempt == msg.attempt && t.stage != .failed

/-- A message to the source of a transfer. -/
def atSource (i : InstId) (msg : PeerMsg) (f : OutXfer → State → State) (s : State) : State :=
  match outFor (mir s i) msg with
  | some t => f t s
  | none => staleDiscard i s

/-- The parts that an accepted transfer sends, in chunks (R347, R350). -/
def transferChunks (s : State) (i : InstId) (t : OutXfer) (kv : Bool) : List Chunk :=
  let x := getInst s i
  match t.req with
  | some r => [(0, 256), (1, 4 * r.promptLen), (2, if r.stopSeqCount = 0 then 0 else 640)].flatMap fun p => partChunks p.1 p.2
  | none =>
    let q := getSeq x.mir t.lid
    (partBytes x q 0).flatMap (fun p => partChunks p.1 p.2) ++ kvChunks (2 ^ frameLog2 x) (if kv then kvPagesOf q true else 0)

/-- ACCEPT: every part is sent; the record holds the destination's id (R347, R353). -/
def takeAccept (i : InstId) (msg : PeerMsg) (t : OutXfer) (s : State) : State :=
  if t.stage == .offered then
    let kv := tbit (fld msg.payload 0 1) 0
    let u := { t with stage := .data, chunks := transferChunks s i t kv, peerSubject := msg.peerSubject, kvTaken := kv, lastProgress := s.tick }
    let s := modOut i t.subject (fun _ => u) s
    let s := if t.forward then s else modRec i t.lid (fun r => { r with peerSequence := msg.peerSubject }) s
    journal i [.transferOut u true] (sendData i u (noteProgress i u s))
  else noteProgress i t s

/-- ACCEPT (R347). -/
def execAccept (i : InstId) (msg : PeerMsg) (s : State) : Result :=
  receiveIf i tAccept msg (fun _ => reservedCase (fld msg.payload 0 8 / 2 != 0)) (atActive i (atSource i msg (takeAccept i msg))) s

/-- REFUSE before HANDOVER: the transfer fails with the reason; a forward may go to the next candidate (R345, R348). -/
def takeRefuse (i : InstId) (msg : PeerMsg) (t : OutXfer) (s : State) : State :=
  if t.stage == .handover then staleDiscard i s else failTransfer i t msg.reason s

/-- REFUSE (R348). -/
def execRefuse (i : InstId) (msg : PeerMsg) (s : State) : Result :=
  receive i tRefuse msg (atActive i (atSource i msg (takeRefuse i msg))) s

/-- DATA_ACK: the part is acknowledged; with every part acknowledged, HANDOVER goes out and the timeout ends (R347, R351). -/
def takeDataAck (i : InstId) (msg : PeerMsg) (t : OutXfer) (s : State) : State :=
  if t.stage == .data then
    let ack (c : Chunk) : Chunk := if c.part == msg.reason && c.offset == msg.offset then { c with acked := true } else c
    let u := { t with chunks := t.chunks.map ack }
    let u := if u.chunks.all (·.acked) then { u with stage := .handover } else u
    let s := noteProgress i u (modOut i t.subject (fun _ => u) s)
    if u.stage == .handover then
      journal i [.transferOut u true] (sendHandover i u (if t.forward then s else duskClear i 3 t.lid s))
    else s
  else noteProgress i t s

/-- DATA_ACK (R347). -/
def execDataAck (i : InstId) (msg : PeerMsg) (s : State) : Result :=
  receive i tDataAck msg (atActive i (atSource i msg (takeDataAck i msg))) s

/-- The RELEASE record of a forwarded request (R346). -/
def forwardRelease (m : Mirrored) (r : Request) : Completion :=
  { hostTag := r.hostTag, localId := 0x3FFFFF, kind := 6, promptReleased := true, arrival := arrivalAt m r.promptAddr }

/-- The request of an open forward. -/
def forwardNo (m : Mirrored) (t : OutXfer) : Option Nat :=
  ((getCtx m t.context).defer.find? fun d => d.fwd == some (t.subject - 2 ^ 63)).map (·.arrivalNo)

/-- ACK of a forward: the request leaves the defer queue with a RELEASE record (R346). -/
def ackForward (i : InstId) (t : OutXfer) (r : Request) (s : State) : State :=
  let s := match forwardNo (mir s i) t with
    | some no => postRecord i t.context (forwardRelease (mir s i) r) (undefer i t.context no s)
    | none => s
  foyerRound i (closeOut i t true s)

/-- ACK of HANDOVER: `migrate_ack`, or the forward's RELEASE (R351). -/
def takeAck (i : InstId) (t : OutXfer) (s : State) : State :=
  if t.stage != .handover then staleDiscard i s
  else match t.req with
    | some r => ackForward i t r s
    | none => if flowHas (getInst s i).hall (.seq t.lid) (· == .migrateAck) then s else postSeq i t.lid .migrateAck s

/-- ACK (R351). -/
def execAck (i : InstId) (msg : PeerMsg) (s : State) : Result :=
  receive i tAck msg (atActive i (atSource i msg (takeAck i))) s

/-- NAK: the source takes the work back (R351). -/
def takeNak (i : InstId) (msg : PeerMsg) (t : OutXfer) (s : State) : State :=
  if t.stage == .handover then failTransfer i t msg.reason s else staleDiscard i s

/-- NAK (R351). -/
def execNak (i : InstId) (msg : PeerMsg) (s : State) : Result :=
  receive i tNak msg (atActive i (atSource i msg (takeNak i msg))) s

/-! ### The destination's end: offers (R347, R348) -/

/-- Incoming transfers that are open. -/
def openIn (m : Mirrored) : List InXfer := m.inXfers.filter fun t => !t.handedOver

/-- A message of an incoming transfer. -/
def inMsg (t : InXfer) (ty : Nat) : PeerMsg := { mkMsg ty t.src with subject := t.subject, attempt := t.attempt }

/-- The destination's id of an arrival; 0 for a forward (R340). -/
def arrivalSubject (x : Inst) (t : InXfer) : Nat := if t.forward then 0 else globalId x t.lid

/-- Send ACCEPT (R341, R347). -/
def sendAccept (i : InstId) (t : InXfer) (s : State) : State :=
  sendIn i t { inMsg t tAccept with peerSubject := arrivalSubject (getInst s i) t, payload := leBytes 8 (bit t.kvTaken) } s

/-- Send REFUSE (R348). -/
def sendRefuse (i : InstId) (msg : PeerMsg) (reason why : Nat) (s : State) : State :=
  sendMsg i { mkMsg tRefuse msg.src with subject := msg.subject, attempt := msg.attempt, reason := reason, admitReason := why } s

/-- Send DATA_ACK for a part (R341). -/
def sendDataAck (i : InstId) (t : InXfer) (part off : Nat) (s : State) : State :=
  sendIn i t { inMsg t tDataAck with reason := part, offset := off, peerSubject := arrivalSubject (getInst s i) t } s

/-- Send ACK (R351). -/
def sendAck (i : InstId) (t : InXfer) (s : State) : State :=
  sendIn i t { inMsg t tAck with peerSubject := arrivalSubject (getInst s i) t } s

/-- Models whose committed vocabulary is the OFFER's, and which are neither EMPTY nor REFUSED (R348 check 5). -/
def offerModels (m : Mirrored) (p : List Byte) : List Model :=
  m.dir.models.filter fun md => md.state != .empty && md.state != .refused && (md.committed.map (·.vocab)) == some (fld p 0x24 4)

/-- Checks 5 to 8 of R348 as far as an OFFER shows them: it names no model, recipe or plan, so it is refused here where no model, recipe or plan at all would pass (DEDUCED, log 33). -/
def offerNames (s : State) (x : Inst) (p : List Byte) : Option Nat :=
  let m := x.mir
  let ms := offerModels m p
  let cross := fld p 0 1 != 0 || (getCtx m (fld p 3 1)).cfg.epochPolicy == 1
  if ms.isEmpty then some 5
  else if !cross && !(ms.any fun md => (epochOf md (fld p 0x20 2)).isSome) then some 6
  else if !(m.recipes.any (·.check == fld p 0x18 4)) then some 7
  else if fld p 0x1C 4 != 0 && !(m.lib.registry.any fun g => planCheckOf s m g.id == fld p 0x1C 4) then some 8
  else none

/-- The checks of R348 that an OFFER itself allows; part 0 allows the others (DEDUCED, log 33). -/
def offerRefusal (s : State) (x : Inst) (p : List Byte) : Option Nat :=
  let m := x.mir
  let c := getCtx m (fld p 3 1)
  let bytes := fld p 4 4 + fld p 8 4 + fld p 12 4 + fld p 16 4
  if x.stair.role != 1 || !x.rel.active then some 1
  else if m.kitchen.turn == .evening then some 2
  else if 64 ≤ (openIn m).length then some 3
  else if !c.isOpen || c.closing || c.teardown then some 4
  else match offerNames s x p with
    | some reason => some reason
    | none =>
      if localIds x ≤ m.seqs.length || (freeHid m).isNone || arrivalFree x < ceilDiv bytes 0x10000 then some 9
      else if fld p 0 1 = 0 && freeBlocks x none ≤ (m.seqs.filter fun q => q.blocks.isEmpty).length then some 9
      else none

/-- The Pantry takes the KV pages that an OFFER offers, and some model holds the epoch under the tag that it names (R354). -/
def offerKv (x : Inst) (p : List Byte) : Bool :=
  tbit (fld p 1 1) 0 && fld p 0x14 4 != 0 && fld p 2 1 == frameLog2 x && decide (fld p 0x14 4 ≤ availPages x)
    && (offerModels x.mir p).any fun md => (epochOf md (fld p 0x20 2)).any (·.layoutTag == fld p 0x22 2)

/-- The record that an arrival holds before its own has come: a local id of no model, without class (R40 `migrate_in`). -/
def arrivalRecord (lid ctx : Nat) : Record := { localId := lid, context := ctx, cls := 3, model := 64 }

/-- An OFFER that is kept: for a migration the usher's `migrate_in` follows, and ACCEPT after it; a forward is accepted at once (R347). -/
def keepOffer (i : InstId) (msg : PeerMsg) (s : State) : State :=
  let x := getInst s i
  let p := msg.payload
  let fwd := fld p 0 1 == 1
  let lid := if fwd then 0 else (freeLids x 1 0 []).headD 0
  let c := fld p 3 1
  let t : InXfer := { subject := msg.subject, attempt := msg.attempt, forward := fwd, src := msg.src, context := c, lid := lid,
                      kvTaken := !fwd && offerKv x p, opened := s.tick, offer := p }
  let s := modMir i (fun m => { m with inXfers := m.inXfers ++ [t] }) s
  let s := journal i [.transferIn t true] s
  if fwd then sendAccept i t s
  else postSeq i lid (.migrateIn msg.subject) (modMir i (fun m => { m with
    seqs := m.seqs ++ [{ r := arrivalRecord lid c, admitNo := m.foyer.nextAdmit }]
    foyer := { m.foyer with nextAdmit := m.foyer.nextAdmit + 1 } }) s)

/-- An OFFER at the destination; a repeated one is answered again; one that names a transfer handed over is a new transfer (R347, R348; log 46). -/
def takeOffer (i : InstId) (msg : PeerMsg) (s : State) : State :=
  match (findIn (getInst s i) msg.src msg.subject msg.attempt).filter (!·.handedOver) with
  | some t => if t.forward || (seqOf s i t.lid).r.state == .migrating then sendAccept i t s else s
  | none =>
    match offerRefusal s (getInst s i) msg.payload with
    | some reason => sendRefuse i msg reason 0 s
    | none => keepOffer i msg s

/-- Reserved bits of an OFFER's payload (R347). -/
def offerCase (p : List Byte) : Option Nat := reservedCase (fld p 1 1 / 2 != 0 || fld p 3 1 / 16 != 0 || !zeros (slice p 0x28 88))

/-- OFFER (R348). -/
def execOffer (i : InstId) (msg : PeerMsg) (s : State) : Result := receiveIf i tOffer msg (fun _ => offerCase msg.payload) (takeOffer i msg) s

/-! ### The destination's end: data (R349, R350) -/

/-- A record from its bytes; ticks are the low 48 bits (spec/02 R45). -/
def parseRecord (b : List Byte) : Record :=
  let f (o n : Nat) : Nat := fld b o n
  let fl := f 0x016 2
  { hostTag := f 0 8, localId := f 8 4 % 2 ^ 22, household := f 0x0C 4 % 2 ^ 20, ordinal := bits (f 0x0C 4) 27 20,
    state := seqStateOf (f 0x10 1 % 16), returnState := seqStateOf (f 0x10 1 / 16), context := f 0x11 1, cls := f 0x12 1, model := f 0x13 1,
    recipe := f 0x14 2, seedGiven := tbit fl 0, planValid := tbit fl 1, notifyAdmit := tbit fl 2, notifyPark := tbit fl 3, leader := tbit fl 4,
    holdHousehold := tbit fl 5, hot := tbit fl 6, crossed := tbit fl 7, drawId := f 0x18 4, epoch := f 0x1C 2, startEpoch := f 0x1E 2,
    seed := slice b 0x20 16, admitTick := f 0x30 6, deadlineTick := f 0x38 6, promptLen := f 0x40 4, committedLen := f 0x44 4, newTokens := f 0x48 4,
    maxNewTokens := f 0x4C 4, maxWallTicks := f 0x50 4, wallUsed := f 0x54 4, trailCapacity := f 0x58 4, kvLen := f 0x5C 4, trailAddr := f 0x60 8,
    promptAddr := f 0x68 8, auxAddr := f 0x70 8, stopBlockAddr := f 0x78 8, planId := f 0x80 2, planSlot := f 0x82 1, nest := f 0x83 1,
    planState := f 0x84 2, siblings := f 0x86 2, liveMembers := f 0x88 2, stopTokenCount := f 0x8A 1, stopSeqCount := f 0x8B 1,
    drawSlotCursor := f 0x8C 4, penaltyStart := f 0x90 4, progressInterval := f 0x94 4, nextProgress := f 0x98 4, completionSeqno := f 0x9C 2,
    recentCount := f 0x9E 1, recentHead := f 0x9F 1, stopSeqLen := unwords b 0xA0 1 8, stopSeqDigest := (unwords b 0xA8 4 8).map (BitVec.ofNat 32),
    stopTokens := unwords b 0xD0 4 16, recentTokens := unwords b 0x110 4 16, pageListAddr := f 0x150 8, pageCount := f 0x158 4,
    sharedPages := f 0x15C 4, layoutTag := f 0x160 2, kvState := [KvState.valid, .shuttered, .released, .stale].getD (f 0x162 1) .valid,
    pageSizeLog2 := f 0x163 1, lastStep := f 0x170 8, draftLen := f 0x178 1, draftMode := f 0x179 1, duskHandles := unwords b 0x180 4 4,
    peerSequence := f 0x190 8, migrateSeqno := f 0x198 4, waitTicks := f 0x1A0 8, preemptions := f 0x1A8 4, stepsCommitted := f 0x1AC 4,
    reheatTokens := f 0x1B0 4 }

/-- The undefined cases of a record that arrives: an identifier out of range (13), a reserved bit, those above a tick among them (12) (spec/00 R1, R12). -/
def recordCase (b : List Byte) : Option Nat :=
  if 2 ^ 22 ≤ fld b 8 4 || 16 ≤ fld b 0x11 1 || 4 ≤ fld b 0x12 1 || 64 ≤ fld b 0x13 1 || 4096 ≤ fld b 0x14 2 then some 13
  else reservedCase (recordBytes (parseRecord b) != b)

/-- The undefined cases of the record or descriptor that a message brings to an open transfer (spec/00 R12). -/
def bodyCase (s : State) (i : InstId) (msg : PeerMsg) : Option Nat :=
  match (findIn (getInst s i) msg.src msg.subject msg.attempt).filter (fun t => activeInst s i && !t.handedOver) with
  | some t => if t.forward then reservedCase (requestReserved msg.payload) else recordCase msg.payload
  | none => none

/-- The vocabulary under which the tokens of an arrival are read: that of the OFFER (R347, spec/02 R31). -/
def arrivalVocab (t : InXfer) : Nat := fld t.offer 0x24 4

/-- The undefined cases of the buffers that came with an arrival, as its HANDOVER is acted on: reserved bits (12) or a token at or above the vocabulary (13) of the prompt, of the stop tokens, of the used entries of the stop block, of the trail (spec/00 R12, spec/02 R30-R32, R48). -/
def arrivedCase (s : State) (t : InXfer) (b : List Byte) : Option Nat :=
  let r := if t.forward then parseRequest b else
    let q := parseRecord b
    { promptLen := q.promptLen, stopSeqCount := q.stopSeqCount, stopTokenCount := q.stopTokenCount, stopTokens := q.stopTokens.take q.stopTokenCount }
  let stop := if r.stopSeqCount = 0 then [] else memGets s.hbm t.stopAddr 640
  let n := if t.forward then 0 else (parseRecord b).committedLen
  let trail := memGets s.hbm t.trailAddr (16 * n)
  if stopReserved r stop || (List.range n).any (fun k => fld trail (16 * k + 6) 2 / 2 ^ 7 != 0) then some 12
  else tokenCase (arrivalVocab t) (unwords (memGets s.hbm t.promptAddr (4 * r.promptLen)) 0 4 r.promptLen ++ r.stopTokens ++ stopWords r stop
    ++ (List.range n).map fun k => fld trail (16 * k) 4)

/-- The undefined cases of a HANDOVER that is acted on: of its body, and of the buffers that it hands over. -/
def handoverCase (s : State) (i : InstId) (msg : PeerMsg) : Option Nat :=
  (bodyCase s i msg).or (match (findIn (getInst s i) msg.src msg.subject msg.attempt).filter (fun t => activeInst s i && !t.handedOver && t.placed && t.final.isEmpty) with
    | some t => arrivedCase s t msg.payload
    | none => none)

/-- What part 0 and the OFFER say of an arrival: what R348's later checks need. -/
structure Arrival where
  model : Nat
  recipe : Nat
  plan : Option Nat
  /-- Bytes of prompt and stop block; trail capacity; siblings. -/
  prompt : Nat
  stop : Nat
  trail : Nat
  siblings : Nat
  epoch : Option Nat
  deriving DecidableEq, Repr

def arrivalOfRecord (r : Record) : Arrival :=
  { model := r.model, recipe := r.recipe, plan := if r.planValid then some r.planId else none, prompt := 4 * r.promptLen,
    stop := if r.stopSeqCount = 0 then 0 else 640, trail := r.trailCapacity, siblings := 1, epoch := some r.epoch }

def arrivalOfRequest (r : Request) : Arrival :=
  { model := r.model, recipe := r.recipe, plan := if r.planValid then some r.planId else none, prompt := 4 * r.promptLen,
    stop := if r.stopSeqCount = 0 then 0 else 640, trail := r.trailCapacity, siblings := r.siblings, epoch := none }

/-- The arrival size in 64 KiB blocks (R349). -/
def arrivalSize (m : Mirrored) (a : Arrival) : Nat :=
  arrivalNeed a.prompt a.stop a.trail (recipeStride ((findRecipe m a.recipe).getD {})) a.siblings

/-- Place an arrival: the lowest run of free blocks of the arrival area (R349; the choice is the model's). -/
def arrivalPlace (x : Inst) (n : Nat) : Option Nat :=
  let base := arrivalBase x
  let ok (a : Nat) : Bool := decide (a + 0x10000 * n ≤ base + 0x10000 * arrivalBlocks x) &&
    x.mir.arrivals.all fun u => decide (u.1 + 0x10000 * u.2 ≤ a) || decide (a + 0x10000 * n ≤ u.1)
  (sortBy (· < ·) ((base :: x.mir.arrivals.map fun u => u.1 + 0x10000 * u.2).filter ok)).head?

/-- Checks 5 to 9 of R348, as part 0 allows them. -/
def arrivalRefusal (s : State) (i : InstId) (t : InXfer) (a : Arrival) (c0Over : Bool) : Option Nat :=
  let x := getInst s i
  let m := x.mir
  let md := getModel m a.model
  let off (o n : Nat) : Nat := fld t.offer o n
  let heldEpoch := match a.epoch with
    | some e => (epochOf md e).isSome || (getCtx m t.context).cfg.epochPolicy == 1
    | none => true
  if md.state == .empty || md.state == .refused || (md.committed.map (·.vocab)) != some (off 0x24 4) then some 5
  else if !heldEpoch then some 6
  else if (findRecipe m a.recipe).isNone || ((findRecipe m a.recipe).map (·.check)) != some (off 0x18 4) then some 7
  else if (match a.plan with | some id => !registered m id || planCheckOf s m id != off 0x1C 4 | none => false) then some 8
  else if c0Over || (arrivalPlace x (arrivalSize m a)).isNone then some 9
  else none

/-- Check 9 for a class-0 arrival: charged as a household of one it exceeds the reservation (R348, spec/03 R56, R67). -/
def class0Over (m : Mirrored) (cls model promptLen trailCapacity : Nat) : Bool :=
  let P := modelP m model
  let pages := chargePrefix promptLen P + chargeShare cls promptLen trailCapacity P
  cls == 0 && (decide (m.foyer.c0Pages < c0Charged m + pages) ||
    decide (m.foyer.c0Sequences < (m.seqs.filter fun q => q.r.cls == 0 && (q.r.state.live || q.r.state == .free)).length + 1))

/-- The addresses of an arrival at `base`: prompt, stop block, trails, auxiliary areas, each rounded up to 64 bytes (R349). -/
def placeAt (m : Mirrored) (a : Arrival) (base : Nat) (t : InXfer) : InXfer :=
  let stride := recipeStride ((findRecipe m a.recipe).getD {})
  let stop := base + roundUp a.prompt 64
  let trail := stop + roundUp a.stop 64
  let aux := trail + a.siblings * roundUp (16 * a.trail) 64
  { t with arrival := base, placed := true, promptAddr := base, stopAddr := if a.stop = 0 then 0 else stop, trailAddr := trail,
           auxAddr := if stride = 0 then 0 else aux }

/-- Refuse an arrival after its part 0, keeping nothing (R348). -/
def refuseArrival (i : InstId) (msg : PeerMsg) (t : InXfer) (reason why : Nat) (s : State) : State :=
  sendRefuse i msg reason why (discardIn i t s)

/-- A record as it arrives: the local identity is the destination's, the seed is given (R353, spec/08 R176). -/
def arrivedRecord (m : Mirrored) (t : InXfer) (old r : Record) : Record :=
  { r with
    localId := t.lid
    household := old.household
    ordinal := 0
    leader := true
    siblings := 1
    liveMembers := 1
    holdHousehold := false
    context := t.context
    state := .migrating
    seedGiven := true
    hot := old.hot
    planSlot := if old.hot && r.planValid then ((findPlan m r.planId).map (·.slot)).getD 0xFF else 0xFF
    promptAddr := t.promptAddr
    stopBlockAddr := t.stopAddr
    trailAddr := t.trailAddr
    auxAddr := if r.auxAddr = 0 then 0 else t.auxAddr
    pageListAddr := old.pageListAddr
    pageCount := old.pageCount
    sharedPages := 0
    pageSizeLog2 := (getModel m r.model).pageSizeLog2
    duskHandles := List.replicate 4 noHandle
    peerSequence := t.subject
    draftLen := 0 }

/-- Part 0 of a migration (R348-R350). -/
def takeRecordPart (i : InstId) (msg : PeerMsg) (t : InXfer) (s : State) : State :=
  let m := mir s i
  let r := parseRecord msg.payload
  let a := arrivalOfRecord r
  match arrivalRefusal s i t a (class0Over m r.cls r.model r.promptLen r.trailCapacity) with
  | some reason => refuseArrival i msg t reason 0 s
  | none =>
    match arrivalPlace (getInst s i) (arrivalSize m a) with
    | none => refuseArrival i msg t 9 0 s
    | some base =>
      let u := placeAt m a base t
      let s := modMir i (fun m => { m with arrivals := m.arrivals ++ [(base, arrivalSize m a)] }) s
      let s := modIn i t (fun _ => u) s
      let s := modSeq i t.lid (fun q => { q with r := arrivedRecord m u q.r r, auxTopN := ((findRecipe m r.recipe).map (·.topN)).getD 0 }) s
      sendDataAck i u 0 0 (journal i [.transferIn u true] (if r.planValid then demandPlan i r.planId (r.cls == 0) s else s))

/-- A forwarded descriptor with the destination's placement (R346, R349). -/
def placedRequest (t : InXfer) (r : Request) : Request :=
  { r with promptAddr := t.promptAddr, stopBlockAddr := t.stopAddr, trailAddr := t.trailAddr, auxAddr := t.auxAddr }

/-- Local ids or household ids are short for a household (R348 check 9, spec/02 R35). -/
def idsShort (x : Inst) (siblings : Nat) : Bool := decide (localIds x < x.mir.seqs.length + siblings) || (freeHid x.mir).isNone

/-- A stop block whose lengths pass: at part 0 that of a forward has not come, and the Foyer checks it as the request enters (spec/02 R33). -/
def goodStop : List Byte := List.replicate 640 1

/-- Part 0 of a forward (R346, R348-R350; spec/03 R55 with its check 1). -/
def takeRequestPart (i : InstId) (msg : PeerMsg) (t : InXfer) (s : State) : State :=
  let m := mir s i
  let r := parseRequest msg.payload
  let a := arrivalOfRequest r
  match arrivalRefusal s i t a (class0Over m r.cls r.model r.promptLen r.trailCapacity || idsShort (getInst s i) r.siblings) with
  | some reason => refuseArrival i msg t reason 0 s
  | none =>
    match if badRequest m r goodStop then some 64 else refusal (getInst s i) s.tick t.context r with
    | some code => refuseArrival i msg t 10 code s
    | none =>
      match arrivalPlace (getInst s i) (arrivalSize m a) with
      | none => refuseArrival i msg t 9 0 s
      | some base =>
        let u := placeAt m a base t
        let s := modMir i (fun m => { m with arrivals := m.arrivals ++ [(base, arrivalSize m a)] }) s
        sendDataAck i u 0 0 (journal i [.transferIn u true] (modIn i t (fun _ => u) s))

/-- Where a DATA part goes (R349, R350): its base address, and its size. -/
def partArea (s : State) (i : InstId) (t : InXfer) (part : Nat) : Option (Nat × Nat) :=
  let r := (seqOf s i t.lid).r
  let off (o : Nat) : Nat := fld t.offer o 4
  match part with
  | 1 => some (t.promptAddr, off 4)
  | 2 => if t.stopAddr = 0 then none else some (t.stopAddr, off 0x10)
  | 3 => if t.forward then none else some (t.trailAddr, min (off 8) (16 * r.trailCapacity))
  | 4 => if t.forward || t.auxAddr = 0 then none else some (t.auxAddr, off 0x0C)
  | _ => none

/-- A DATA part beyond part 0: written into its placement and acknowledged; one without a place is not (R350). -/
def takePart (i : InstId) (msg : PeerMsg) (t : InXfer) (s : State) : State :=
  let n := msg.payload.length
  if msg.reason = 5 then
    let f := 2 ^ frameLog2 (getInst s i)
    match t.kvPages[msg.offset / f]? with
    | some page =>
      if msg.offset % f + n ≤ f then
        sendDataAck i t 5 msg.offset
          (hbmPut (((look 4 (getInst s i).place.regions).map (·.base)).getD 0 + page * f + msg.offset % f) msg.payload s)
      else s
    | none => s
  else match partArea s i t msg.reason with
    | some (base, size) => if msg.offset + n ≤ size then sendDataAck i t msg.reason msg.offset (hbmPut (base + msg.offset) msg.payload s) else s
    | none => s

/-- DATA at the destination (R341, R350). -/
def takeData (i : InstId) (msg : PeerMsg) (s : State) : State :=
  match findIn (getInst s i) msg.src msg.subject msg.attempt with
  | none => staleDiscard i s
  | some t =>
    if t.handedOver then staleDiscard i s
    else if msg.reason = 0 then
      if t.placed then sendDataAck i t 0 msg.offset s
      else if t.forward then takeRequestPart i msg t s
      else if (seqOf s i t.lid).r.state == .migrating then takeRecordPart i msg t s
      else s
    else if t.placed then takePart i msg t s
    else s

/-- DATA (R350). -/
def execDataMsg (i : InstId) (msg : PeerMsg) (s : State) : Result := receiveIf i tData msg (fun s => if msg.reason = 0 then bodyCase s i msg else none) (atActive i (takeData i msg)) s

/-! ### Ownership (R351) -/

/-- What the change of ownership staged is flushed before ACK (R351, spec/17 R376); an earlier transfer of the same name is forgotten. -/
def awaitFlush (i : InstId) (t : InXfer) (s : State) : State :=
  let n := (getInst s i).rel.staged.length
  let s := modMir i (fun m => { m with inXfers := m.inXfers.filter fun u => !sameIn { t with handedOver := true } u }) s
  modRel i (fun r => { r with flushForced := true }) (modIn i t (fun t => { t with handedOver := true, ackWait := some n }) s)

/-- HANDOVER of a forward: the request enters the Foyer ahead of new ring entries; the ACK waits until what its entry stages is durable (R351; `forwardEntered`). -/
def takeForward (i : InstId) (t : InXfer) (final : List Byte) (s : State) : State :=
  let r := placedRequest t (parseRequest final)
  let s := modFoyer i (fun f => { f with forwarded := f.forwarded ++ [(t.context, r)] }) s
  let s := awaitFlush i { t with final := final } (modIn i t (fun t => { t with final := final }) s)
  passAll i (takeForwarded i s)

/-- HANDOVER for no open transfer: NAK UNKNOWN (R341, R351). -/
def sendNak (i : InstId) (msg : PeerMsg) (s : State) : State :=
  sendMsg i { mkMsg tNak msg.src with subject := msg.subject, attempt := msg.attempt, reason := 11 } (staleDiscard i s)

/-- HANDOVER at the destination: acted on once, answered again, or NAK UNKNOWN (R341, R351). -/
def takeHandover (i : InstId) (msg : PeerMsg) (s : State) : State :=
  let x := getInst s i
  match findIn x msg.src msg.subject msg.attempt with
  | none => sendNak i msg s
  | some t =>
    if t.handedOver then (if t.ackWait.isNone then sendAck i t s else s)
    else if !t.placed then (match x.mir.inXfers.find? fun u => namesIn x msg.src msg.subject msg.attempt u && u.handedOver && u.ackWait.isNone with
      | some u => sendAck i u s
      | none => s)
    else if !t.final.isEmpty then s
    else if t.forward then takeForward i t msg.payload s
    else postSeq i t.lid (.migrateDone t.subject) (modIn i t (fun t => { t with final := msg.payload }) s)

/-- HANDOVER (R351); no transfer is open at an instance that is not active (R341). -/
def execHandover (i : InstId) (msg : PeerMsg) (s : State) : Result :=
  receiveIf i tHandover msg (fun s => handoverCase s i msg) (fun s => if activeInst s i then takeHandover i msg s else sendNak i msg s) s

/-- ABANDON: the arrival is discarded (R350). -/
def takeAbandon (i : InstId) (msg : PeerMsg) (s : State) : State :=
  match findIn (getInst s i) msg.src msg.subject msg.attempt with
  | some t => if t.handedOver || !t.final.isEmpty then staleDiscard i s else foyerRound i (discardIn i t s)
  | none => staleDiscard i s

/-- ABANDON (R350). -/
def execAbandon (i : InstId) (msg : PeerMsg) (s : State) : Result := receive i tAbandon msg (atActive i (takeAbandon i msg)) s

/-! ### Bounces (R339) -/

/-- Resend a bounced message of the source's end. -/
def resendOut (i : InstId) (t : OutXfer) (h : PeerMsg) (s : State) : State :=
  if h.type == tOffer && t.stage == .offered then sendOffer i t s
  else if h.type == tData then
    match t.chunks.find? (fun c => c.part == h.reason && c.offset == h.offset && !c.acked) with
    | some c => sendOut i { xferMsg t tData with reason := c.part, offset := c.offset, payload := chunkData s i t c } s
    | none => s
  else if h.type == tHandover && t.stage == .handover then sendHandover i t s
  else s

/-- Resend a bounced message of the destination's end. -/
def resendIn (i : InstId) (t : InXfer) (h : PeerMsg) (s : State) : State :=
  if h.type == tAccept && !t.handedOver then sendAccept i t s
  else if h.type == tDataAck && !t.handedOver then sendDataAck i t h.reason h.offset s
  else if h.type == tAck && t.handedOver && t.ackWait.isNone then sendAck i t s
  else s

/-- The bounced message of an open transfer: an OFFER to a peer that does not generate fails; any other is resent at once, unless it has been already under the generation that the BOUNCE gives (R339, R358). -/
def takeBounced (i : InstId) (msg h : PeerMsg) (s : State) : State :=
  match outFor (mir s i) h with
  | some t =>
    if h.type == tOffer && msg.srcRole != 1 then (if t.stage == .offered then failTransfer i t 1 s else s)
    else if toldAlready h msg.srcGen t.told then s
    else resendOut i t h s
  | none =>
    match findIn (getInst s i) msg.src h.subject h.attempt with
    | some t => if toldAlready h msg.srcGen t.told then s else resendIn i t h s
    | none => s

/-- A BOUNCE: the sender's role and generation are noted, and the bounced message is seen to (R339). -/
def takeBounce (i : InstId) (msg : PeerMsg) (s : State) : State :=
  let s := notePeer i msg.src msg.srcRole msg.srcGen (modStair i (fun t => { t with bouncedIn := satTo 32 (t.bouncedIn + 1) }) s)
  if activeInst s i then takeBounced i msg (parseHeader msg.payload) s else s

/-- Reserved bits of the header that a BOUNCE carries (R340, R341). -/
def bouncedCase (b : List Byte) : Option Nat :=
  let h := parseHeader b
  reservedCase (headerReserved h || decide (2 ^ 14 ≤ h.dst) || !zeros (slice b 0x0E 2) || !zeros (slice b 0x2C 20))

/-- BOUNCE (R339). -/
def execBounce (i : InstId) (msg : PeerMsg) (s : State) : Result :=
  receiveIf i tBounce msg (fun _ => bouncedCase msg.payload) (takeBounce i msg) s

/-! ### Migration's events (R351-R354, spec/02 R40) -/

/-- MIGRATE_OUT (R352, spec/02 R40 `migrate_out`). -/
def execMigrateOut (i : InstId) (lid : Nat) (s : State) : Result :=
  match headKind s i lid with
  | some (.migrateOut cmd withKv dst) => endEvent i s (applyMigrateOut i lid cmd withKv dst (releaseEvent i (.seq lid) s))
  | _ => .next s

/-- The commands that the events of a flow carry get their result: the events are void (R351). -/
def voidEvents (i : InstId) (lid : Nat) (s : State) : State :=
  let evs := (outstanding (getInst s i).hall).filter (·.flow == .seq lid)
  let s := modHall i (voidFlow s.tick (.seq lid) fun _ => true) s
  evs.foldl (fun s e =>
    match e.kind with
    | .cancel cmd | .park _ cmd | .resume cmd => resolveEvent i cmd false s
    | .extend _ _ _ _ cmd | .migrateOut cmd _ _ => finishCmd i cmd rWrongState 0 [] s
    | _ => s) s

/-- A TEARDOWN is held for the sequence (R351). -/
def teardownHeld (x : Inst) (lid : Nat) : Bool :=
  flowHas x.hall (.seq lid) (· == .teardown) || (getSeq x.mir lid).bcast.any (·.1 == .teardown)

/-- `migrate_ack`: pages and slot are released, RELEASE is posted, the record is FREE (R351, R353, spec/02 R40, R47). -/
def applyMigrateAck (i : InstId) (lid : Nat) (s : State) : State :=
  match outOfSeq (mir s i) lid with
  | none => s
  | some t =>
    let s0 := s
    let q := seqOf s i lid
    let held := teardownHeld (getInst s i) lid
    let last := q.r.liveMembers ≤ 1 && q.r.leader
    let rest := (unended (mir s i) q.r.household).length - 1
    let s := closeOut i t true s
    let s := releasePages i lid s
    let s := modRec i lid (fun r => { r with state := .free, kvState := .released }) s
    let s := if held then s else postSeqRecord i lid 6 0 (decide (rest = 0)) s
    let s := voidEvents i lid s
    let s := modHouse i q.r.household (lowerCharge rest) s
    let s := freeSeq i lid s
    let s := if last then freeHouse i q.r.household s
      else match (members (mir s i) q.r.household).find? (·.r.leader) with
        | some l => postSeq i l.r.localId .household s
        | none => freeHouse i q.r.household s
    let s := match t.cmd with
      | some c => finishCmd i c rOk 0 [] s
      | none => s
    dirEdge i s0 s

/-- MIGRATE_ACK (R353). -/
def execMigrateAck (i : InstId) (lid : Nat) (s : State) : Result :=
  match headKind s i lid with
  | some .migrateAck => endEvent i s (applyMigrateAck i lid (releaseEvent i (.seq lid) s))
  | _ => .next s

/-- `migrate_fail`: back to `return_state`; a Midnight that waited is applied (R352, spec/11 R240, spec/02 R40). -/
def applyMigrateFail (i : InstId) (lid reason : Nat) (s : State) : State :=
  match outOfSeq (mir s i) lid with
  | none => s
  | some t =>
    let s := closeOut i t false s
    let infos := (seqOf s i lid).migMidnight
    let s := if (seqOf s i lid).r.state == .migrating then enterState i lid (seqOf s i lid).r.returnState s else s
    let s := modSeq i lid (fun q => { q with migMidnight := [], r := { q.r with peerSequence := 0 } }) s
    let s := recordDone i lid s
    let s := match t.cmd with
      | some c => finishCmd i c rWrongState reason [] s
      | none => s
    infos.foldl (fun s info => applyMidnight i lid info s) s

/-- MIGRATE_FAIL (R352). -/
def execMigrateFail (i : InstId) (lid : Nat) (s : State) : Result :=
  match headKind s i lid with
  | some (.migrateFail reason) => endEvent i s (applyMigrateFail i lid reason (releaseEvent i (.seq lid) s))
  | _ => .next s

/-- The lowest free pages for an arrival's KV, private (R354). -/
def takeKvPages (i : InstId) : Nat → List Nat → State → List Nat × State
  | 0, acc, s => (acc, s)
  | n + 1, acc, s =>
    match lowestPage (poolPages (getInst s i)) (mir s i).pantry with
    | some p => takeKvPages i n (acc ++ [p]) (modPantry i (pagePut p (.held 1)) s)
    | none => (acc, s)

/-- `migrate_in`: a local id and a household of one, in MIGRATING, with a list block and those that its KV needs; then ACCEPT (R347, R353, R354, spec/02 R40, spec/05 R105). -/
def applyMigrateIn (i : InstId) (lid subject : Nat) (s : State) : State :=
  match (mir s i).inXfers.find? (fun t => t.subject == subject && t.lid == lid && !t.forward && !t.handedOver),
      (freeHid (mir s i)).filter (fun _ => freeBlocks (getInst s i) none != 0) with
  | none, _ => s
  | some t, none => discardIn i t (sendMsg i { inMsg t tRefuse with reason := 9 } s)
  | some t, some hid =>
    let n := fld t.offer 0x14 4
    let kv := t.kvTaken && decide (n ≤ availPages (getInst s i)) && decide (blocksFor n 0 ≤ freeBlocks (getInst s i) none)
    let got := if kv then takeKvPages i n [] s else ([], s)
    let s := got.2
    let u := { t with kvTaken := kv, kvPages := got.1 }
    let s := modIn i t (fun _ => u) s
    let house : Household := { id := hid, leader := lid, context := t.context, cls := 3, model := 64, promptLen := 0, capacity := 0,
                               prefixPages := 0, share := 0, unalloc := 0 }
    let s := modMir i (fun m => { m with households := m.households ++ [house] }) s
    let s := modRec i lid (fun r => { r with household := hid, leader := true, siblings := 1, liveMembers := 1, state := .migrating }) s
    sendAccept i u (warmRecord i lid (holdBlocks i lid (blocksFor got.1.length 0) (writeList i lid s)))

/-- MIGRATE_IN (spec/02 R40 `migrate_in`). -/
def execMigrateIn (i : InstId) (lid : Nat) (s : State) : Result :=
  match headKind s i lid with
  | some (.migrateIn subject) => endEvent i s (applyMigrateIn i lid subject (releaseEvent i (.seq lid) s))
  | _ => .next s

/-- The Midnights of an arrival that are still to act: those that met it, those whose events are in its flow or wait for it (spec/11 R240, spec/12 R256). -/
def openMidnights (x : Inst) (q : Seq) : List MidnightInfo :=
  q.migMidnight ++ (outstanding x.hall).filterMap (fun e => match e.kind with
    | .midnight info => if e.flow == .seq q.r.localId then some info else none
    | _ => none) ++ q.bcast.filterMap fun b => match b.1 with | .midnight info => some info | _ => none

/-- The Midnight of an arrival under its model and epoch that is still to act (spec/11 R240). -/
def arrivalMidnight (x : Inst) (q : Seq) (r : Record) : Option MidnightInfo :=
  (openMidnights x q).find? fun info => info.old == r.epoch && info.model == r.model

/-- The tag under which the destination holds, or held when the transfer began, the epoch of an arrival (R354). -/
def arrivalTag (x : Inst) (q : Seq) (r : Record) : Option Nat :=
  ((epochOf (getModel x.mir r.model) r.epoch).map (·.layoutTag)).or ((arrivalMidnight x q r).map (·.oldTag))

/-- The KV that came stays valid: its epoch and tag are the destination's, and so is the page size (R354). -/
def kvKept (x : Inst) (q : Seq) (t : InXfer) (r : Record) : Bool :=
  t.kvTaken && t.kvPages.length == fld t.offer 0x14 4 && r.kvState == .valid && arrivalTag x q r == some r.layoutTag
    && r.pageSizeLog2 == (getModel x.mir r.model).pageSizeLog2

/-- The record's epoch at the destination: kept where it is held, or where a Midnight that met the arrival is still to act; else the committed one with the effect of CROSS (R354, spec/11 R240). -/
def crossEpoch (x : Inst) (q : Seq) : Seq :=
  let md := getModel x.mir q.r.model
  if (epochOf md q.r.epoch).isSome || (arrivalMidnight x q q.r).isSome then q
  else match md.committed with
    | some d => { q with crossPending := true, r := { q.r with epoch := d.epoch, crossed := true } }
    | none => q

/-- The first entry after the crossing of a record is still to come, by the epoch of the last entry of its trail (spec/11 R241). -/
def crossOwedBy (r : Record) (lastEpoch : Nat) : Bool := r.crossed && (r.committedLen == 0 || lastEpoch != r.epoch)

/-- The epoch of the last entry of a trail in HBM (spec/02 R48). -/
def lastEntryEpoch (hbm : Mem) (trail n : Nat) : Nat := if n = 0 then 0 else leNat (memGets hbm (trail + 16 * (n - 1) + 4) 2)

/-- CROSS of a Midnight that met the arrival: the epoch, and the KV where it does not stay (spec/11 R240). -/
def crossArrival (i : InstId) (lid : Nat) (info : MidnightInfo) (s : State) : State :=
  let q := seqOf s i lid
  let policy := midnightPolicy (mir s i) q info
  if q.r.epoch != info.old || policy.1 != 1 then s
  else if !policy.2 && info.newTag == info.oldTag then crossTo i lid info s
  else invalidateKv i lid (crossTo i lid info s)

/-- The trail of an arrival in the destination's journal (spec/17 R374, R375). -/
def trailRows (hbm : Mem) (q : Seq) : List JEntry :=
  let n := q.r.committedLen
  if n = 0 then []
  else rowEntries q 0 0 q.r.state (memGets hbm q.r.trailAddr (16 * n)) (if q.r.auxAddr = 0 then [] else memGets hbm q.r.auxAddr (auxStride q.auxTopN * n)) []

/-- The household of an arrival, charged as a household of one; pages that came with it are drawn already (R353, R348). -/
def arrivalHouse (m : Mirrored) (r : Record) (kv : Nat) (h : Household) : Household :=
  let P := modelP m r.model
  let pre := chargePrefix r.promptLen P
  let share := chargeShare r.cls r.promptLen r.trailCapacity P
  { h with cls := r.cls, model := r.model, promptLen := r.promptLen, capacity := r.trailCapacity, prefixPages := pre, share := share,
           prefixAlloc := min kv pre, unalloc := pre + share - kv }

/-- The state of an arrival: PAUSED or PARKED as it left, otherwise by R39 (spec/02 R40). -/
def arriveState (i : InstId) (lid : Nat) (ret : SeqState) (s : State) : State :=
  if ret == .paused || ret == .parked then enterState i lid ret s else resumeFully i lid s

/-- `migrate_done` (R351, R353, R354): the stop digests are computed again from the stop block (spec/02 R44); the Midnights that met the arrival act, CROSS before it returns to service, ABORT when its ADMIT record stands (spec/11 R240). -/
def doMigrateDone (i : InstId) (lid : Nat) (t : InXfer) (s : State) : State :=
  let m := mir s i
  let old := seqOf s i lid
  let r0 := parseRecord t.final
  let keep := kvKept (getInst s i) old t r0
  let owed := crossOwedBy r0 (lastEntryEpoch s.hbm t.trailAddr r0.committedLen)
  let s := if keep then s else t.kvPages.foldl (fun s p => dropPage i p s) s
  let pages : List PageEnt := if keep then t.kvPages.map fun p => { page := p } else []
  let x := getInst s i
  let s := modSeq i lid (fun q => { crossEpoch x { q with
    crossPending := owed
    pages := pages
    touched := s.tick
    r := { arrivedRecord m t old.r r0 with
           kvState := if keep then .valid else .released
           kvLen := if keep then r0.kvLen else 0
           pageCount := pages.length
           stopSeqDigest := stopDigests r0.stopSeqCount (if r0.stopSeqCount = 0 then [] else memGets s.hbm t.stopAddr 640)
           state := .migrating } } with migMidnight := [] }) s
  let s := modHouse i old.r.household (arrivalHouse m r0 pages.length) s
  let s := writeList i lid s
  let s := old.migMidnight.foldl (fun s info => crossArrival i lid info s) s
  let s := modRec i lid (fun r => { r with layoutTag := if keep then r.layoutTag else tagOf (mir s i) r }) s
  let s := arriveState i lid r0.returnState s
  let s := retime i lid s
  let q := seqOf s i lid
  let s := journal i (promptEntries s.hbm q.r ++ trailRows s.hbm q) s
  let s := if q.r.notifyAdmit then postSeqRecord i lid 0 0 false s else s
  let s := recordDone i lid s
  let s := awaitFlush i t (journal i [.transferIn { t with handedOver := true } false] s)
  old.migMidnight.foldl (fun s info => applyMidnight i lid info s) s

/-- MIGRATE_DONE's work on the arrival that the event names. -/
def applyMigrateDone (i : InstId) (lid subject : Nat) (s : State) : State :=
  match (mir s i).inXfers.find? (fun t => t.subject == subject && t.lid == lid && !t.forward && !t.handedOver && !t.final.isEmpty) with
  | some t => doMigrateDone i lid t s
  | none => s

/-- MIGRATE_DONE (R353). -/
def execMigrateDone (i : InstId) (lid : Nat) (s : State) : Result :=
  match headKind s i lid with
  | some (.migrateDone subject) => endEvent i s (applyMigrateDone i lid subject (releaseEvent i (.seq lid) s))
  | _ => .next s

/-! ### Timers (R350, spec/12 R261) -/

/-- MIGRATION_RETRY of a migration: the TIMER of the retry entry; what is unacknowledged is resent, the entry is inserted again. -/
def retryMigration (i : InstId) (t : OutXfer) (s : State) : Result :=
  let u := fireDue i 1 (.seq t.lid) s
  match dueTimer u i 1 (.seq t.lid) with
  | none => done i s u
  | some (h, _) =>
    let v := releaseEvent i (.seq t.lid) u
    if handleOf v i t.lid 1 != h then done i s (countStale i 1 v)
    else done i s (duskSet i 1 t.lid (s.tick + (getInst s i).stair.retryTicks) (resend i t v))

/-- The TIMER of a transfer that has closed since its entry fired: it has no effect and is stale (spec/12 R265). -/
def staleTimer (i : InstId) (list subject : Nat) (s : State) : Result :=
  let f : Flow := .seq (subject % 2 ^ 22)
  if subject < 2 ^ 63 && (dueTimer s i list f).isSome then done i s (countStale i list (releaseEvent i f s)) else .next s

/-- MIGRATION_RETRY (R350): a migration's Dusk entry, or the check of a forward at the Foyer's evaluation. -/
def execMigrationRetry (i : InstId) (subject : Nat) (s : State) : Result :=
  match findOut (mir s i) subject with
  | none => staleTimer i 1 subject s
  | some t =>
    if !t.forward then retryMigration i t s
    else if activeInst s i then endEvent i s (forwardTimer i t s)
    else .next s

/-- MIGRATION_TIMEOUT of a migration: the TIMER of the timeout entry; before HANDOVER, ABANDON once and failure with reason TIMEOUT (R350). -/
def timeoutMigration (i : InstId) (t : OutXfer) (s : State) : Result :=
  let u := fireDue i 3 (.seq t.lid) s
  match dueTimer u i 3 (.seq t.lid) with
  | none => done i s u
  | some (h, _) =>
    let v := releaseEvent i (.seq t.lid) u
    if handleOf v i t.lid 3 != h then done i s (countStale i 3 v)
    else if t.stage == .handover || t.stage == .failed then done i s (spendHandle i 3 t.lid v)
    else endEvent i s (failTransfer i t 12 (sendMsg i (xferMsg t tAbandon) (spendHandle i 3 t.lid v)))

/-- MIGRATION_TIMEOUT (R350). -/
def execMigrationTimeout (i : InstId) (subject : Nat) (s : State) : Result :=
  match findOut (mir s i) subject with
  | none => staleTimer i 3 subject s
  | some t =>
    if !t.forward then timeoutMigration i t s
    else if activeInst s i then endEvent i s (forwardTimer i t s)
    else .next s

/-- An arrival held without HANDOVER for `timeout_ticks` (R350). -/
def arrivalExpired (s : State) (i : InstId) (t : InXfer) : Bool :=
  !t.handedOver && t.final.isEmpty && decide (t.opened + (getInst s i).stair.timeoutTicks ≤ s.tick)

/-- ARRIVAL_TIMEOUT: the arrival is discarded (R350). -/
def execArrivalTimeout (i : InstId) (subject : Nat) (s : State) : Result :=
  match (mir s i).inXfers.find? (fun t => t.subject == subject && arrivalExpired s i t) with
  | some t => if activeInst s i && onDuty s i 3 then endEvent i s (foyerRound i (discardIn i t s)) else .next s
  | none => .next s

/-- The handle is that of a drive command in flight. -/
def driveHandle (x : Inst) (h : Nat) : Bool := x.rel.drive.any (·.handle == h)

/-- MAILBOX_COMMAND_TIMEOUT: the TIMER of a Hearth core's command-timeout entry, stale where the command has its result; the spec gives the timeout no effect (spec/12 R261, R265; log 28). -/
def execMailboxCommandTimeout (i : InstId) (core : Nat) (s : State) : Result :=
  let u := fireDue i 3 (.unit (20 + core)) s
  match dueTimer u i 3 (.unit (20 + core)) with
  | none => done i s u
  | some (h, _) =>
    if driveHandle (getInst u i) h then done i s u
    else
      let v := releaseEvent i (.unit (20 + core)) u
      done i s (if (mir v i).mbox.any (·.timer == some h) then v else countStale i 3 v)

/-- The spilled entries of a list that come back: up to 4,096, the earliest first, while the Hallway has room (spec/12 R264). -/
def refillBatch (list : Nat) (ds : List Dusk) : List Dusk :=
  let room := duskOnChip - (ds.filter fun d => d.list == list && !d.spilled).length
  (sortBy (fun a b => decide (a.due < b.due)) (ds.filter fun d => d.list == list && d.spilled)).take (min 4096 room)

/-- DUSK_SPILL_REFILL (spec/12 R264). -/
def execDuskSpillRefill (i : InstId) (list : Nat) (s : State) : Result :=
  if !activeInst s i then .next s
  else done i s (modMir i (fun m =>
    let back := refillBatch list m.dusk
    { m with dusk := m.dusk.map fun d => if back.contains d then { d with spilled := false } else d }) s)

/-- REORDER_RELEASE: held messages whose 64 ticks have passed are sent (R356). -/
def execReorderRelease (i : InstId) (s : State) : Result :=
  let due := (getInst s i).stair.held.filter fun h => decide (h.due ≤ s.tick)
  if due.isEmpty then .next s
  else done i s (modStair i (fun t => { t with outbox := t.outbox ++ due.map (·.sent), held := t.held.filter fun h => !decide (h.due ≤ s.tick) }) s)

/-! ### The directions table (R344) -/

/-- The entries of a directions list (R344). -/
def directionEntries (n : Nat) (b : List Byte) : List Nat := unwords b 0 4 n

/-- DIRECTIONS_SET: more than 16 candidates are INVALID; a new address is added to the peer table and gets an ANNOUNCE at once (R344). -/
def doDirectionsSet (i : InstId) (list : List Byte) (c : MboxCmd) (s : State) : Answer × State :=
  let k := prm c 0 1
  let n := prm c 4 4
  if 16 < n then (aInvalid, s)
  else
    let as := directionEntries n list
    let s := modMir i (fun m => { m with directions := if n = 0 then del k m.directions else put k as m.directions }) s
    let s := journalObj i (.directions k as) s
    let fresh := (as.eraseDups).filter fun a => !((getInst s i).stair.peers.any (·.addr == a))
    let s := fresh.foldl (fun s a =>
      let m := mir s i
      sendMsg i { mkMsg tAnnounce a with payload := announcePayload (getInst s i) } (modStair i (fun t => { t with peers := addPeer m { addr := a } t.peers }) s)) s
    (aOk, foyerRound i s)

/-- A model outside its range (13), the host's list as it was written, reserved bits of an entry (12). -/
def directionsCase (s : State) (list : List Byte) (c : MboxCmd) : Option Nat :=
  (overId (prm c 0 1) 64).or <| (if 16 < prm c 4 4 then none else hostWriteCase s (prm c 8 8) (slice list 0 (4 * prm c 4 4))).or (if (directionEntries (min 16 (prm c 4 4)) list).any fun a => decide (2 ^ 14 ≤ a) then some 12 else none)

/-- DIRECTIONS_SET (R344, spec/14 R295). -/
def execDirectionsSet (i : InstId) (w : Nat) (list : List Byte) (s : State) : Result :=
  serve i w 0xA1 (directionsCase s list) (doDirectionsSet i list) s

end Sys2Proof.Machine
end

