-- ==== Sys2Proof/Machine/Replay.lean ====
section
/-! DEFINITION. Bulk images of an instance's state and the replay of journal entries over them (spec/17 R370, R374, R375, R378, R381). -/

namespace Sys2Proof.Machine

open Sys2Proof

/-! ### Taking an image (R370) -/

/-- A completion record read from its bytes (spec/02 R51). -/
def parseCompletion (b : List Byte) : Completion :=
  let f := fld b 19 1
  { hostTag := fld b 0 8, localId := fld b 8 4, household := bits (fld b 12 4) 19 0, ordinal := bits (fld b 12 4) 31 20,
    kind := fld b 16 1, reason := fld b 17 1, state := seqStateOf (fld b 18 1), promptReleased := tbit f 0, kvReleased := tbit f 1,
    crossed := tbit f 2, committedLen := fld b 20 4, newTokens := fld b 24 4, epoch := fld b 28 2, seqno := fld b 30 2 }

/-- The records of a context's ring that the host has not passed. -/
def ringRecords (host : Mem) (x : Ctx) : List Completion :=
  (List.range (ringDiff x.cqTail x.cqHead)).map fun k =>
    { parseCompletion (memGets host (x.cfg.cqBase + 32 * ((x.cqHead + k) % x.cfg.cqEntries)) 32) with
      arrival := look (wrapTo 32 (x.cqHead + k)) x.arrivalDue }

/-- A sequence's record, draft list, trail and auxiliary entries; a terminal leader that is held has released its trail (spec/02 R47, R52). -/
def imgSeq (hbm : Mem) (q : Seq) : ImgSeq :=
  { r := q.r, auxTopN := q.auxTopN, draftList := q.draftList, trail := if q.r.state.live then memGets hbm q.r.trailAddr (16 * q.r.committedLen) else [],
    aux := if q.r.auxAddr = 0 || !q.r.state.live then [] else memGets hbm q.r.auxAddr (auxStride q.auxTopN * q.r.committedLen) }

/-- A sequence's prompt and stop block. -/
def imgBufs (hbm : Mem) (q : Seq) : List ImgBuf :=
  let r := q.r
  { lid := r.localId, addr := r.promptAddr, data := memGets hbm r.promptAddr (4 * r.promptLen) }
    :: (if r.stopSeqCount = 0 then [] else [{ lid := r.localId, addr := r.stopBlockAddr, data := memGets hbm r.stopBlockAddr 640 }])

/-- The latches whose configuration has been written. -/
def imgLatches (m : Mirrored) : List (Nat × Latch) :=
  (m.latches.zipIdx.filter fun p => p.1.maxHold != 0 || p.1.enable || p.1.models != 0).map fun p => (p.2, p.1)

/-- The image of every class (R370). -/
def imageOf (s : State) (i : InstId) : DurImage :=
  let m := mir s i
  { seqs := (m.seqs.filter (·.r.state != .free)).map (imgSeq s.hbm)
    bufs := m.seqs.flatMap (imgBufs s.hbm)
    ctxs := (m.ctxs.zipIdx.filter (·.1.isOpen)).map fun p => (p.2, { p.1 with stream := ringRecords s.host p.1 ++ p.1.stream })
    outXfers := m.outXfers
    inXfers := m.inXfers.filter fun t => !t.handedOver || forwardEntered m t
    recipes := m.recipes
    registry := m.lib.registry
    models := (m.dir.models.zipIdx.filter (·.1.state != .empty)).map fun p => (p.2, p.1)
    c0Sequences := m.foyer.c0Sequences
    c0Pages := m.foyer.c0Pages
    latches := imgLatches m
    directions := m.directions
    training := m.kitchen.turn == .training || m.kitchen.turn == .morning
    lastStep := m.kitchen.stepCommitted }

/-! ### Replay (R374, R375, R381 stage 3) -/

/-- The list with the element that `p` holds of replaced, or the new one at the end. -/
def upsert {α : Type} (p : α → Bool) (v : α) (l : List α) : List α := if l.any p then l.map fun x => if p x then v else x else l ++ [v]

def isLid (lid : Nat) (q : ImgSeq) : Bool := q.r.localId == lid

/-- The sequence of a local id in an image; a blank one where there is none yet. -/
def imgOf (im : DurImage) (lid : Nat) : ImgSeq := (im.seqs.find? (isLid lid)).getD { r := { localId := lid } }

/-- One trail entry, as the ring of recent tokens takes it (spec/02 R44). -/
def noteEntry (r : Record) (e : List Byte) : Record := if isExtend (fld e 6 2) then clearRecent r else pushRecent (fld e 0 4 % 2 ^ 20) r

/-- The 16-byte entries of a run of trail bytes. -/
def trailEntries (bs : List Byte) : List (List Byte) := (List.range (bs.length / 16)).map fun k => slice bs (16 * k) 16

/-- A ROW entry (R375); a commit that pauses leaves the mark of its PROGRESS record (spec/02 R53). -/
def replayRow (n : Nat) (p : RowPay) (q : ImgSeq) : ImgSeq :=
  let first := p.committedLen - p.entries.length / 16
  let r := (trailEntries p.entries).foldl noteEntry q.r
  { q with
    trail := slice q.trail 0 (16 * first) ++ p.entries
    draftList := p.draftList
    r := { r with
      committedLen := p.committedLen, newTokens := p.newTokens, kvLen := p.kvLen, drawSlotCursor := p.cursor, penaltyStart := p.penaltyStart,
      wallUsed := p.wallUsed, planState := p.planState, nest := p.nest, state := p.state, returnState := p.returnState, epoch := p.epoch,
      draftLen := p.draftList.length
      nextProgress := if (n = 0 ∨ p.state ≠ .paused) ∧ r.progressInterval ≠ 0 ∧ r.nextProgress ≤ p.committedLen then nextMark r.progressInterval p.committedLen else r.nextProgress
      lastStep := if n = 0 then r.lastStep else n
      stepsCommitted := if n = 0 then r.stepsCommitted else wrapTo 32 (r.stepsCommitted + 1) } }

/-- A RECORD entry: state FREE frees the slot (R374). -/
def replayRecord (r : Record) (topN : Nat) (draft : List Nat) (im : DurImage) : DurImage :=
  if r.state == .free then { im with seqs := im.seqs.filter (!isLid r.localId ·), bufs := im.bufs.filter (·.lid != r.localId) }
  else
    let q := imgOf im r.localId
    { im with seqs := upsert (isLid r.localId) { q with r := r, auxTopN := topN, draftList := draft, trail := q.trail.take (16 * r.committedLen) } im.seqs }

/-- Change the context of an image. -/
def imgCtx (c : Nat) (f : Ctx → Ctx) (im : DurImage) : DurImage := { im with ctxs := im.ctxs.map fun p => if p.1 == c then (c, f p.2) else p }

/-- A STREAM entry: the record is the last of its context's stream; a sequence's record numbers go on from it (spec/02 R51). -/
def replayStream (c : Nat) (rec' : Completion) (im : DurImage) : DurImage :=
  let im := imgCtx c (fun x => { x with stream := x.stream ++ [rec'] }) im
  { im with seqs := im.seqs.map fun q => if isLid rec'.localId q then { q with r := { q.r with completionSeqno := wrapTo 16 (rec'.seqno + 1) } } else q }

/-- A RING entry: the host has passed the records up to `cq_head`. -/
def replayRing (sqHead cqHead : Nat) (x : Ctx) : Ctx :=
  { x with sqHead := sqHead, cqHead := cqHead, stream := x.stream.drop (ringDiff cqHead x.cqHead) }

/-- An OBJECT entry (R370, R374). -/
def replayObj (o : JObj) (im : DurImage) : DurImage :=
  match o with
  | .recipe id (some v) => { im with recipes := upsert (·.id == id) v im.recipes }
  | .recipe id none => { im with recipes := im.recipes.filter (·.id != id) }
  | .plan id (some v) => { im with registry := upsert (·.id == id) v im.registry }
  | .plan id none => { im with registry := im.registry.filter (·.id != id) }
  | .model k v => { im with models := if v.state == .empty then del k im.models else put k v im.models }
  | .ctx c false _ _ _ _ _ _ => { im with ctxs := del c im.ctxs }
  | .ctx c true cfg adm row hbm n t =>
    let x := { (look c im.ctxs).getD {} with isOpen := true, cfg := cfg, adm := adm, row := row, hbm := hbm, irqCount := n, irqTicks := t }
    { im with ctxs := put c x im.ctxs }
  | .class0 q p => { im with c0Sequences := q, c0Pages := p }
  | .latch k maxHold enable models => { im with latches := put k { maxHold := maxHold, enable := enable, models := models } im.latches }
  | .directions m l => { im with directions := if l.isEmpty then del m im.directions else put m l im.directions }
  | .turn t => { im with training := t }

/-- Bucket levels of the sixteen contexts. -/
def replayLevels (levels : List (Int × Int × Int)) (im : DurImage) : DurImage :=
  { im with ctxs := im.ctxs.map fun p =>
      let l := levels.getD p.1 (0, 0, 0)
      (p.1, { p.2 with adm := { p.2.adm with level := l.1 }, row := { p.2.row with level := l.2.1 }, hbm := { p.2.hbm with level := l.2.2 } }) }

/-- Apply one entry (R374). -/
def replayEntry (im : DurImage) (e : JEntry) : DurImage :=
  match e with
  | .step n _ => { im with lastStep := n }
  | .row n p => { im with seqs := upsert (isLid p.lid) (replayRow n p (imgOf im p.lid)) im.seqs }
  | .aux lid _ first _ data =>
    { im with seqs := im.seqs.map fun q =>
        if isLid lid q then { q with aux := slice q.aux 0 (auxStride q.auxTopN * first) ++ data } else q }
  | .record r topN draft => replayRecord r topN draft im
  | .prompt lid _ addr data | .stopBlock lid _ addr data => { im with bufs := im.bufs ++ [{ lid := lid, addr := addr, data := data }] }
  | .stream c rec' => replayStream c rec' im
  | .ring c sq cq => imgCtx c (replayRing sq cq) im
  | .deferAdd c d => imgCtx c (fun x => { x with defer := deferInsert d x.defer }) im
  | .deferDel c tag => imgCtx c (fun x => { x with defer := match x.defer.find? (·.req.hostTag == tag) with | some d => x.defer.erase d | none => x.defer }) im
  | .object o => replayObj o im
  | .transferOut t isOpen =>
    { im with outXfers := if isOpen then upsert (·.subject == t.subject) t im.outXfers else im.outXfers.filter (·.subject != t.subject) }
  | .transferIn t isOpen =>
    let same (u : InXfer) : Bool := u.subject == t.subject && u.attempt == t.attempt
    { im with inXfers := if isOpen || t.handedOver then upsert same t im.inXfers else im.inXfers.filter (!same ·) }
  | .regulator levels => replayLevels levels im
  | .bulkMark _ | .pad => im

/-- Apply entries in order (R381 stage 3). -/
def replay (im : DurImage) (es : List JEntry) : DurImage := es.foldl replayEntry im

/-! ### The drive's range (R372, R381) -/

/-- The CRC-32C of a superblock, whose bytes R372 does not lay out (DESIGN CHOICE, log 18). -/
def superCheck (b : Superblock) : Nat := crc32c (Config.imageBytes { b with check := 0 })

/-- A superblock copy is valid: its magic and its check (R381 check 1). -/
def superValid (b : Superblock) : Bool := b.magic == 0x4B505553 && b.check == superCheck b

/-- The valid superblock copy with the larger seqno (R381 stage 1). -/
def curSuper (d : Disk) : Option Superblock :=
  let ok (b : Option Superblock) : Option Superblock := b.filter superValid
  match ok d.super0, ok d.super1 with
  | some a, some b => some (if a.seqno < b.seqno then b else a)
  | some a, none => some a
  | none, b => b

/-- The bulk slot that the superblock names. -/
def curSlot (d : Disk) : Option BulkSlot := (curSuper d).bind fun b => if b.slot then d.slot1 else d.slot0

/-- The current bulk image. -/
def curImage (d : Disk) : DurImage := ((curSlot d).map (·.image)).getD {}

/-- The SHA-384 digest of bytes. -/
def digestOf (bs : List Byte) : BitVec 384 := BitVec.ofNat 384 (beNat (sha384 bs))

/-- A digest-log entry: step, digest and the sender's peer address in 64 bytes (R379). -/
def digestEntry (p : Nat × BitVec 384 × Nat) : List Byte := slice (leBytes 8 p.1 ++ beBytes 48 p.2.1.toNat ++ leBytes 2 p.2.2) 0 64

/-- The pair and sender that a digest-log entry holds (R379). -/
def digestRead (e : List Byte) : Nat × BitVec 384 × Nat := (fld e 0 8, BitVec.ofNat 384 (beNat (slice e 8 48)), fld e 56 2)

/-- The blocks that replay takes in order: each while it is the next and whole (R381 stage 3). -/
def goodRun : Nat → List JBlock → List JBlock
  | _, [] => []
  | n, b :: t => if goodBlock n b then b :: goodRun (n + 1) t else []

/-- The blocks from the replay block on. -/
def replayBlocks (d : Disk) : List JBlock := goodRun (((curSuper d).map (·.replay)).getD 1) d.ring

/-- The entries of those blocks that the current image does not hold yet. -/
def ringEntries (d : Disk) : List JEntry := ((replayBlocks d).flatMap (·.entries)).drop (((curSuper d).map (·.skip)).getD 0)

/-- What a replay of the drive's range gives (R381 stages 2 and 3). -/
def replayed (d : Disk) : DurImage := replay (curImage d) (ringEntries d)

/-! ### An image of some classes (R370, R378) -/

/-- A context with the classes of a mask taken from `new`, the others from `old`. -/
def mergeCtx (mask : Nat) (new old : Ctx) : Ctx :=
  let a := if tbit mask 1 then new else old
  let b := if tbit mask 3 then new else old
  let base := if tbit mask 8 then new else old
  { base with stream := a.stream, sqHead := a.sqHead, cqHead := a.cqHead, cqTail := a.cqTail, defer := if tbit mask 2 then new.defer else old.defer,
              adm := { base.adm with level := b.adm.level }, row := { base.row with level := b.row.level }, hbm := { base.hbm with level := b.hbm.level } }

/-- The classes of the mask from the present image, the others as image and journal already give them (R378). -/
def mergeImage (mask : Nat) (new old : DurImage) : DurImage :=
  { seqs := if tbit mask 0 then new.seqs else old.seqs
    bufs := if tbit mask 0 then new.bufs else old.bufs
    ctxs := new.ctxs.map fun p => match look p.1 old.ctxs with | some x => (p.1, mergeCtx mask p.2 x) | none => p
    outXfers := if tbit mask 4 then new.outXfers else old.outXfers
    inXfers := if tbit mask 4 then new.inXfers else old.inXfers
    recipes := if tbit mask 5 then new.recipes else old.recipes
    registry := if tbit mask 6 then new.registry else old.registry
    models := if tbit mask 7 then new.models else old.models
    c0Sequences := if tbit mask 8 then new.c0Sequences else old.c0Sequences
    c0Pages := if tbit mask 8 then new.c0Pages else old.c0Pages
    latches := if tbit mask 8 then new.latches else old.latches
    directions := if tbit mask 9 then new.directions else old.directions
    training := new.training
    lastStep := new.lastStep }

/-! ### The bytes of a bulk image (R370, R372) -/

/-- What one class of R370 holds of an image. -/
def classImage (k : Nat) (im : DurImage) : DurImage := mergeImage (2 ^ k) im { ctxs := im.ctxs.map fun p => (p.1, {}) }

/-- The ten sections of an image, in class order; R370 lays out none of them (DESIGN CHOICE, log 18). -/
def imageSections (im : DurImage) : List (List Byte) := (List.range 10).map fun k => Config.imageBytes (k, classImage k im)

/-- The section table: class, offset from the start of the image, size (R372). -/
def sectionTable (l : List (List Byte)) : List (Nat × Nat × Nat) := l.zipIdx.map fun p => (p.2, 0x1000 + sumNat ((l.take p.2).map List.length), p.1.length)

/-- A bulk image: the 4 KiB header with seqno, class mask, replay block and section table, whose places R372 does not give (DESIGN CHOICE, log 18), then the sections. -/
def slotBytes (b : BulkSlot) : List Byte :=
  let l := imageSections b.image
  slice (Config.imageBytes (b.seqno, b.mask, b.replay, sectionTable l)) 0 0x1000 ++ l.flatten

/-- The SHA-384 digest of a bulk image (R372, R381 stage 2). -/
def slotDigest (b : BulkSlot) : BitVec 384 := digestOf (slotBytes b)

end Sys2Proof.Machine
end

