-- ==== Sys2Proof/Machine/Objects.lean ====
section
/-! DEFINITION. The mailbox commands on recipes and plans (spec/06 R129, R130, spec/09 R194, R195, spec/14 R303, spec/10 R215-R217). -/

namespace Sys2Proof.Machine

open Sys2Proof

/-! ### Recipe images (spec/06 R129, spec/09 R194) -/

/-- Bytes of a recipe image (R129). -/
def recipeBytes : Nat := 2304

/-- A bias entry (R129). -/
def parseBias (b : List Byte) (k : Nat) : Bias :=
  let t := fld b (0x100 + 8 * k) 4
  { token := t % 2 ^ 20, mask := tbit t 31, value := BitVec.ofNat 32 (fld b (0x104 + 8 * k) 4) }

/-- The recipe that an image gives (R129); the id is the command's, which names the slot. -/
def parseRecipe (id : Nat) (b : List Byte) : Recipe :=
  let fl := fld b 2 2
  let f32 (o : Nat) : F32 := BitVec.ofNat 32 (fld b o 4)
  { id := id, drawRace := tbit fl 0, race16 := tbit fl 1, policyPlanMask := tbit fl 2, entropy := tbit fl 3, penaliseExtend := tbit fl 4,
    invTemperature := f32 0x04, topK := fld b 0x08 4, topP := fld b 0x0C 4, minP := fld b 0x10 4, repetition := f32 0x14,
    presence := f32 0x18, frequency := f32 0x1C, penaltySpan := fld b 0x20 4, topN := fld b 0x26 1,
    draftValid := tbit (fld b 0x27 1) 7, draftModel := fld b 0x27 1 % 64, draftLen := fld b 0x28 1, draftMode := fld b 0x29 1,
    draftTree := (List.range 64).map fun n => fld b (0x40 + 2 * n) 1,
    bias := (List.range (min 256 (fld b 0x24 2))).map (parseBias b), check := crc32c (slice b 0 recipeBytes) }

/-- A reserved field of the image is not zero (R9, R129, R194). -/
def recipeReserved (b : List Byte) : Bool :=
  let len := fld b 0x28 1
  decide (4096 ≤ fld b 0 2) || decide (32 ≤ fld b 2 2) || tbit (fld b 0x27 1) 6 || !zeros (slice b 0x2A 22) || !zeros (slice b 0xC0 64)
    || ((List.range 64).any fun n => fld b (0x41 + 2 * n) 1 != 0 || ((n == 0 || decide (len < n)) && fld b (0x40 + 2 * n) 1 != 0))
    || ((List.range (min 256 (fld b 0x24 2))).any fun k => bits (fld b (0x100 + 8 * k) 4) 30 20 != 0)

/-- Magnitude at most 65,536.0 (R130). -/
def magOk (x : F32) : Bool := decide (fMag x ≤ 0x47800000)

/-- In [0.0, 65,536.0]: a negative zero is 0.0 (R130). -/
def penaltyOk (x : F32) : Bool := magOk x && (!fNeg x || fMag x == 0)

/-- Two used bias entries name one token id (R130). -/
def biasTwice : List Bias → Bool
  | [] => false
  | x :: xs => xs.any (·.token == x.token) || biasTwice xs

/-- The depth of node `n` under a parent list (R194). -/
def treeDepth (parent : List Nat) : Nat → Nat → Nat
  | 0, _ => 0
  | _, 0 => 0
  | fuel + 1, n => 1 + treeDepth parent fuel (parent.getD n 0)

/-- The tree's rules (R195). -/
def treeOk (len : Nat) (parent : List Nat) : Bool :=
  let ns := (List.range len).map (· + 1)
  decide (1 ≤ len ∧ len ≤ 63)
    && ns.all (fun n => decide (parent.getD n 0 < n))
    && ns.all (fun n => n == 1 || decide (parent.getD (n - 1) 0 ≤ parent.getD n 0))
    && (0 :: ns).all (fun p => decide ((ns.filter fun n => parent.getD n 0 == p).length ≤ 8))
    && ns.all (fun n => decide (treeDepth parent 64 n ≤ 16))

/-- R195's conditions on the draft fields. -/
def draftOk (r : Recipe) : Bool :=
  if !r.draftValid then r.draftMode == 0 && r.draftLen == 0
  else match r.draftMode with
    | 1 => decide (1 ≤ r.draftLen ∧ r.draftLen ≤ 16)
    | 2 => treeOk r.draftLen r.draftTree
    | _ => false

/-- Every condition of R130 and R195 holds of an image that the command names for slot `id`. -/
def recipeOk (id : Nat) (b : List Byte) : Bool :=
  let r := parseRecipe id b
  fld b 0 2 % 4096 == id
    && !fNeg r.invTemperature && decide (0x37800000 ≤ fMag r.invTemperature) && magOk r.invTemperature
    && (fMag r.repetition == 0 || (!fNeg r.repetition && decide (fMag r.repetition < 0x3F800000)))
    && penaltyOk r.presence && penaltyOk r.frequency && decide (r.penaltySpan ≤ 1048576) && decide (fld b 0x24 2 ≤ 256)
    && !biasTwice r.bias && r.bias.all (fun e => e.mask || magOk e.value) && decide (r.topN ≤ 20)
    && !(r.drawRace && (r.topP != 0 || r.minP != 0)) && draftOk r

/-- An uncommitted step uses the recipe (R303, spec/00 R12 case 3): a row of a sequence that names it, or a row at the Landing. -/
def recipeInUse (x : Inst) (id : Nat) : Bool :=
  (x.mir.kitchen.steps.any fun st => uncommitted st && st.rows.any fun r =>
    ((findSeq x.mir r.lid).map fun q => q.admitNo == r.admitNo && q.r.recipe == id).getD false)
    || x.landing.any (·.su.recipe.id == id)

/-- Put a recipe in its slot. -/
def recipePut (r : Recipe) (l : List Recipe) : List Recipe := r :: l.filter (·.id != r.id)

/-- RECIPE_DEFINE (spec/06 R130, spec/14 R303): the image is what the operand gives, zero beyond it. -/
def doRecipeDefine (i : InstId) (img : List Byte) (c : MboxCmd) (s : State) : Answer × State :=
  let id := prm c 0 2
  let b := slice img 0 recipeBytes
  if prm c 8 8 % 64 != 0 || !recipeOk id b then (aInvalid, s)
  else
    let r := parseRecipe id b
    (aOk, foyerRound i (journalObj i (.recipe id (some r)) (modMir i (fun m => { m with recipes := recipePut r m.recipes }) s)))

/-- The undefined cases of RECIPE_DEFINE: a recipe id out of range (13), the host's image as it was written, reserved fields of the image (12), a defined recipe that an uncommitted step uses (3). -/
def recipeCase (s : State) (i : InstId) (img : List Byte) (c : MboxCmd) : Option Nat :=
  let x := getInst s i
  let id := prm c 0 2
  let b := slice img 0 recipeBytes
  if 4096 ≤ id then some 13
  else if prm c 8 8 % 64 != 0 then none
  else if (hostWriteCase s (prm c 8 8) b).isSome then hostWriteCase s (prm c 8 8) b
  else if recipeReserved b then some 12
  else if recipeOk id b && (findRecipe x.mir id).isSome && recipeInUse x id then some 3
  else none

/-- RECIPE_DEFINE (spec/06 R130). -/
def execRecipeDefine (i : InstId) (w : Nat) (img : List Byte) (s : State) : Result :=
  serve i w 0x30 (recipeCase s i img) (doRecipeDefine i img) s

/-- A live sequence or a deferred request names the recipe (R303). -/
def recipeNamed (m : Mirrored) (id : Nat) : Bool :=
  (m.seqs.any fun q => cancellable q && q.r.recipe == id) || m.ctxs.any fun c => c.defer.any fun d => d.req.recipe == id

/-- RECIPE_UNDEFINE (spec/14 R303). -/
def doRecipeUndefine (i : InstId) (c : MboxCmd) (s : State) : Answer × State :=
  let id := prm c 0 2
  let m := mir s i
  if (findRecipe m id).isNone then (aNotFound, s)
  else if recipeNamed m id then (aWrong, s)
  else (aOk, journalObj i (.recipe id none) (modMir i (fun m => { m with recipes := m.recipes.filter (·.id != id) }) s))

/-- An undefined recipe that a row of a dead sequence in an uncommitted step still uses (spec/00 R12 case 3), or an id out of range (13). -/
def undefineCase (x : Inst) (c : MboxCmd) : Option Nat :=
  let id := prm c 0 2
  if 4096 ≤ id then some 13
  else if (findRecipe x.mir id).isSome && !recipeNamed x.mir id && recipeInUse x id then some 3
  else none

/-- RECIPE_UNDEFINE (spec/14 R303). -/
def execRecipeUndefine (i : InstId) (w : Nat) (s : State) : Result :=
  serve i w 0x31 (undefineCase (getInst s i)) (doRecipeUndefine i) s

/-! ### Plans (spec/10 R215, R216) -/

/-- Entries of the plan registry (R215). -/
def registryEntries : Nat := 4096

/-- R215's refusals, in order. -/
def planRefusal (m : Mirrored) (id addr size : Nat) : Option Answer :=
  if id = 0xFFFF then some aInvalid
  else if addr % 64 ≠ 0 ∨ size % 64 ≠ 0 ∨ size < 256 ∨ 0x8000000 < size then some aInvalid
  else if registered m id then some (.now rExists 0 [])
  else if registryEntries ≤ m.lib.registry.length then some (.now rFull 1 [])
  else none

/-- PLAN_REGISTER (R215): a FAILED id's check is cleared. -/
def doPlanRegister (i : InstId) (c : MboxCmd) (s : State) : Answer × State :=
  let id := prm c 0 2
  let p : PlanReg := { id := id, addr := prm c 8 8, size := prm c 4 4 }
  match planRefusal (mir s i) id p.addr p.size with
  | some a => (a, s)
  | none => (aOk, journalObj i (.plan id (some p)) (modLib i (fun l => { l with registry := l.registry ++ [p], failed := del id l.failed }) s))

/-- A plan image that overlaps a held trail: case 2 of spec/00 R12. -/
def planCase (s : State) (c : MboxCmd) : Option Nat :=
  if (holders s).any fun x => (heldTrails x.mir).any fun b => rangesMeet (prm c 8 8) (prm c 4 4) b.1 b.2 then some 2 else none

/-- PLAN_REGISTER (spec/10 R215). -/
def execPlanRegister (i : InstId) (w : Nat) (s : State) : Result := serve i w 0x40 (planCase s) (doPlanRegister i) s

/-- A record or a deferred request names the plan (R215). -/
def planNamed (m : Mirrored) (id : Nat) : Bool :=
  (m.seqs.any fun q => q.r.planValid && q.r.planId == id) || m.ctxs.any fun c => c.defer.any fun d => d.req.planValid && d.req.planId == id

/-- PLAN_UNREGISTER (R215): the plan's slot, or its place in the FIFO of demands, goes with it. -/
def doPlanUnregister (i : InstId) (c : MboxCmd) (s : State) : Answer × State :=
  let id := prm c 0 2
  let m := mir s i
  if (look id m.lib.failed).isSome then (aOk, modLib i (fun l => { l with failed := del id l.failed }) s)
  else if !registered m id then (aNotFound, s)
  else if planNamed m id then (aWrong, s)
  else
    let s := modLib i (fun l => { l with registry := l.registry.filter (·.id != id), slots := l.slots.filter (·.planId != id),
                                         demand := l.demand.filter (·.1 != id), used := del id l.used }) s
    (aOk, libAssign i 256 (journalObj i (.plan id none) s))

/-- PLAN_UNREGISTER (spec/10 R215). -/
def execPlanUnregister (i : InstId) (w : Nat) (s : State) : Result := serve i w 0x41 noCase (doPlanUnregister i) s

/-- What PLAN_QUERY returns: state, slot, failed check (R216). -/
def planReport (m : Mirrored) (id : Nat) : Option (Nat × Nat × Nat) :=
  match look id m.lib.failed with
  | some k => some (3, 0xFF, k)
  | none =>
    if !registered m id then none
    else match findPlan m id with
      | none => some (0, 0xFF, 0)
      | some sl => some (if sl.plan.isSome then 2 else 1, sl.slot, 0)

/-- PLAN_QUERY (R216). -/
def doPlanQuery (i : InstId) (c : MboxCmd) (s : State) : Answer × State :=
  match planReport (mir s i) (prm c 0 2) with
  | none => (aNotFound, s)
  | some (st, slot, k) => (.now rOk 0 (leBytes 1 st ++ leBytes 1 slot ++ leBytes 1 k), s)

/-- PLAN_QUERY (spec/10 R216). -/
def execPlanQuery (i : InstId) (w : Nat) (s : State) : Result := serve i w 0x42 noCase (doPlanQuery i) s

/-! ### The Library's fetch (spec/10 R216, R221) -/

/-- The sequences that a plan's residency concerns: hot records that name it, and EXTENDs that wait for it (R216, R217). -/
def planWaiters (m : Mirrored) (id : Nat) : List Nat :=
  (m.seqs.filter fun q => q.r.planValid && q.r.planId == id && (q.r.hot || q.waiting.any fun w => match w with | .extend .. => true | _ => false)).map (·.r.localId)

/-- The fetch ends with every check passed: the plan is resident (R216). -/
def fetchPass (i : InstId) (id : Nat) (p : Plan) (s : State) : State :=
  let s := modLib i (fun l => { l with slots := l.slots.map fun x => if x.planId == id then { x with plan := some p } else x }) s
  let s := ringPush i 4 0x024 2 0 [id] s
  foyerRound i ((planWaiters (mir s i) id).foldl (fun s l => postSeq i l .planReady s) s)

/-- The fetch fails a check: the id is FAILED and no longer registered; deferred requests that name it are rejected, a waiting EXTEND is refused at its event (R216, R221). -/
def fetchFail (i : InstId) (id k : Nat) (s : State) : State :=
  let s := modLib i (fun l => { l with slots := l.slots.filter (·.planId != id), registry := l.registry.filter (·.id != id), failed := put id k l.failed }) s
  let s := ringPush i 4 0x024 3 0 [id, k] (journalObj i (.plan id none) s)
  let ws := planWaiters (mir s i) id
  let s := libAssign i 256 s
  let s := ws.foldl (fun s l => postSeq i l .planReady s) s
  (List.range 16).foldl (fun s c => deferTimer i c (rejectDeferred i c 37 (fun d => d.req.planValid && d.req.planId == id) s)) s

/-- PLAN_FETCH_DONE: the Library has read a plan's image and validated it (R216, R221). -/
def execPlanFetchDone (i : InstId) (plan : Nat) (img : List Byte) (s : State) : Result :=
  match (mir s i).lib.registry.find? (·.id == plan), findPlan (mir s i) plan with
  | some r, some sl =>
    if !activeInst s i || sl.plan.isSome || !onDuty s i 1 then .next s
    else
      let b := slice img 0 r.size
      match hostWriteCase s r.addr b with
      | some n => .fault (.undefinedCase n)
      | none =>
        let t := hbmPut r.addr b s
        let k := planFails plan r.size b
        endEvent i s (if k = 0 then fetchPass i plan (parsePlan b) t else fetchFail i plan k t)
  | _, _ => .next s

end Sys2Proof.Machine
end

