-- ==== Sys2Proof/Machine/Orders.lean ====
section
/-! DEFINITION. The mailbox commands on sequences: CANCEL, PARK, RESUME, EXTEND, QUERY_SEQUENCE, MIGRATE (spec/14 R304-R306, R441, spec/16 R352). -/

namespace Sys2Proof.Machine

open Sys2Proof

/-- The sequence that a command of a context names: not FREE, and of that context (spec/14 R295). -/
def namedSeq (m : Mirrored) (k lid : Nat) : Option Seq :=
  (findSeq m lid).bind fun q => if q.r.context == k && q.r.state != .free then some q else none

/-- Note how many events a command awaits, and how many requests it withdrew. -/
def awaitEvents (i : InstId) (id n withdrawn : Nat) (s : State) : State :=
  modCmd i id (fun c => { c with outstanding := n, withdrawn := withdrawn }) s

/-- Post one event of a command to each of the sequences. -/
def postEach (i : InstId) (lids : List Nat) (k : EvKind) (s : State) : State := lids.foldl (fun s l => postSeq i l k s) s

/-! ### CANCEL (spec/14 R304) -/

/-- The sequences that a CANCEL names, and the host tag whose deferred requests it withdraws. -/
def cancelTargets (m : Mirrored) (k mode v : Nat) : List Nat :=
  match mode with
  | 0 => ((namedSeq m k v).map fun q => [q.r.localId]).getD []
  | 1 => (m.seqs.filter fun q => q.r.context == k && q.r.household == v && q.r.state.live).map (·.r.localId)
  | _ => (m.seqs.filter fun q => q.r.context == k && q.r.hostTag == v && cancellable q).map (·.r.localId)

/-- CANCEL (R304): an ended sequence is not counted, and mode 0 on one gives WRONG_STATE; otherwise the result follows the events. -/
def doCancel (i : InstId) (c : MboxCmd) (s : State) : Answer × State :=
  let k := winCtx c.window
  let mode := prm c 0 1
  let v := prm c 8 8
  let m := mir s i
  let lids := cancelTargets m k mode v
  let tag (d : Deferred) : Bool := mode == 2 && d.req.hostTag == v
  let n := ((getCtx m k).defer.filter fun d => d.fwd.isNone && tag d).length
  if 2 < mode then (aInvalid, s)
  else if lids.isEmpty && n = 0 then (aNotFound, s)
  else if mode = 0 && !(lids.all fun l => (getSeq m l).r.state.live) then (aWrong, s)
  else
    let s := deferTimer i k (rejectDeferred i k 42 tag s)
    (.later, closeCmd i c.id (postEach i lids (.cancel (some c.id)) (awaitEvents i c.id lids.length n s)))

/-- Identifiers out of range: a local id in mode 0, a household id in mode 1 (spec/00 R1, R12 case 13). -/
def cancelCase (c : MboxCmd) : Option Nat :=
  match prm c 0 1 with
  | 0 => overId (prm c 8 8) (2 ^ 22)
  | 1 => overId (prm c 8 8) (2 ^ 20)
  | _ => none

/-- CANCEL (spec/14 R304). -/
def execCancel (i : InstId) (w : Nat) (s : State) : Result := serve i w 0x50 cancelCase (doCancel i) s

/-! ### PARK and RESUME (spec/14 R441) -/

/-- The sequences that PARK or RESUME acts on: the named one, or the live members of its household in the context (R441). -/
def orderTargets (m : Mirrored) (q : Seq) (house : Bool) : List Nat :=
  if house then ((members m q.r.household).filter fun x => x.r.context == q.r.context && x.r.state.live).map (·.r.localId) else [q.r.localId]

/-- Send PARK's or RESUME's events (R441). -/
def doOrder (i : InstId) (c : MboxCmd) (k : EvKind) (s : State) : Answer × State :=
  match namedSeq (mir s i) (winCtx c.window) (prm c 0 4) with
  | none => (aNotFound, s)
  | some q =>
    let lids := orderTargets (mir s i) q (tbit (prm c 4 4) 0)
    (.later, closeCmd i c.id (postEach i lids k (awaitEvents i c.id lids.length 0 s)))

/-- Local id [21:0], flags [0], wake tick [47:0]: the rest is reserved. -/
def orderCase (wake : Bool) (c : MboxCmd) : Option Nat :=
  (tooWide (prm c 0 4) 22).or ((tooWide (prm c 4 4) 1).or (if wake then tooWide (prm c 8 8) 48 else none))

/-- PARK (R441, spec/12 R261). -/
def execPark (i : InstId) (w : Nat) (s : State) : Result :=
  serve i w 0x51 (orderCase true) (fun c s => doOrder i c (.park (prm c 8 8) (some c.id)) s) s

/-- The Porch has the cold records warmed that RESUME is for, ahead of its events (spec/02 R46, spec/12 R251). -/
def warmFirst (i : InstId) (lids : List Nat) (s : State) : State :=
  lids.foldl (fun s l =>
    let r := (seqOf s i l).r
    if !r.hot && (r.state == .parked || r.state == .paused) then postSeq i l (.warm 2) s else s) s

/-- RESUME (R441): refused from the start of Evening until Morning completes (spec/11 R245). -/
def doResume (i : InstId) (c : MboxCmd) (s : State) : Answer × State :=
  if (mir s i).kitchen.turn != .service then (aWrong, s)
  else
    let lids := match namedSeq (mir s i) (winCtx c.window) (prm c 0 4) with
      | some q => orderTargets (mir s i) q (tbit (prm c 4 4) 0)
      | none => []
    doOrder i c (.resume (some c.id)) (warmFirst i lids s)

/-- RESUME (spec/14 R441). -/
def execResume (i : InstId) (w : Nat) (s : State) : Result := serve i w 0x52 (orderCase false) (doResume i) s

/-! ### EXTEND (spec/14 R305, spec/10 R228) -/

/-- The tokens that EXTEND's buffer gives: `count` of them, zero beyond the operand. -/
def extendTokens (n : Nat) (toks : List Nat) : List Nat := (List.range n).map fun k => toks.getD k 0

/-- What EXTEND refuses before it sends its event (R305, R228). -/
def extendInvalid (m : Mirrored) (r : Record) (n addr mode : Nat) : Bool :=
  decide (n < 1 ∨ 65536 < n) || addr % 4 != 0 || decide (2 < mode) || decide (r.trailCapacity < r.committedLen + n)
    || decide ((getModel m r.model).maxPositions < r.promptLen + r.committedLen + n) || (mode != 0 && !r.planValid)

/-- EXTEND (R305). -/
def doExtendCmd (i : InstId) (toks : List Nat) (c : MboxCmd) (s : State) : Answer × State :=
  let n := prm c 4 4
  match namedSeq (mir s i) (winCtx c.window) (prm c 0 4) with
  | none => (aNotFound, s)
  | some q =>
    if q.r.state != .paused then (aWrong, s)
    else if extendInvalid (mir s i) q.r n (prm c 8 8) (prm c 16 1) then (aInvalid, s)
    else
      let s := hbmPut (prm c 8 8) (words 4 (extendTokens n toks)) s
      (.later, postSeq i q.r.localId (.extend (extendTokens n toks) (prm c 16 1) (prm c 17 1) (prm c 18 2) c.id) s)

/-- EXTEND's buffer as the host filled it, the command's own hold aside: a write that R12 forbids, a token word with reserved bits (12) or beyond the vocabulary of the epoch under which the sequence runs (13; spec/02 R31). -/
def extendBufferCase (s : State) (i : InstId) (toks : List Nat) (c : MboxCmd) (q : Seq) : Option Nat :=
  let ts := extendTokens (prm c 4 4) toks
  let free := modMir i (fun m => { m with mbox := m.mbox.filter (·.id != c.id) }) s
  (hostWriteCase free (prm c 8 8) (words 4 ts)).or
    (tokenCase (((epochOf (getModel (mir s i) q.r.model) q.r.epoch).map (·.vocab)).getD (2 ^ 20)) ts)

/-- Reserved bits of the local id (12); the buffer of a command that is not refused. -/
def extendCase (s : State) (i : InstId) (toks : List Nat) (c : MboxCmd) : Option Nat :=
  (tooWide (prm c 0 4) 22).or <|
    match namedSeq (mir s i) (winCtx c.window) (prm c 0 4) with
    | some q =>
      if q.r.state != .paused || extendInvalid (mir s i) q.r (prm c 4 4) (prm c 8 8) (prm c 16 1) then none
      else extendBufferCase s i toks c q
    | none => none

/-- EXTEND (spec/14 R305, spec/10 R228). -/
def execExtend (i : InstId) (w : Nat) (toks : List Nat) (s : State) : Result := serve i w 0x53 (extendCase s i toks) (doExtendCmd i toks) s

/-! ### QUERY_SEQUENCE (spec/02 R45, R46) -/

/-- QUERY_SEQUENCE: the 512-byte record as it stands, in the Parlour or the Attic (spec/14 R295). -/
def doQuerySequence (i : InstId) (c : MboxCmd) (s : State) : Answer × State :=
  let a := prm c 8 8
  if !outputOk a then (aInvalid, s)
  else match namedSeq (mir s i) (winCtx c.window) (prm c 0 4) with
    | none => (aNotFound, s)
    | some q => (aOk, hbmPut a (if q.r.hot then recordBytes q.r else memGets s.hbm (atticAddr (getInst s i) q.r.localId) 512) s)

/-- Reserved bits (12), an output buffer that overlaps what Shapa holds (2). -/
def queryCase (s : State) (c : MboxCmd) : Option Nat := (tooWide (prm c 0 4) 22).or (outCase s 8 512 c)

/-- QUERY_SEQUENCE (spec/14 R295). -/
def execQuerySequence (i : InstId) (w : Nat) (s : State) : Result := serve i w 0x54 (queryCase s) (doQuerySequence i) s

/-! ### MIGRATE (spec/16 R352) -/

/-- R352's WRONG_STATE. -/
def migrateWrong (x : Inst) (r : Record) (dst : Nat) : Bool :=
  !(r.state == .decoding || r.state == .parked || r.state == .paused) || (r.leader && decide (1 < r.liveMembers))
    || x.mir.kitchen.turn != .service || dst == peerAddr x

/-- MIGRATE (R352): its event opens the transfer; the result is written at the transfer's close. -/
def doMigrate (i : InstId) (c : MboxCmd) (s : State) : Answer × State :=
  let x := getInst s i
  let dst := prm c 8 4
  match namedSeq x.mir (winCtx c.window) (prm c 0 4) with
  | none => (aNotFound, s)
  | some q =>
    if migrateWrong x q.r dst then (aWrong, s)
    else if 64 ≤ x.mir.outXfers.length then (.now rFull 1 [], s)
    else (.later, postSeq i q.r.localId (.migrateOut c.id (tbit (prm c 4 4) 0) dst) s)

/-- Reserved bits of the local id, the flags and the destination. -/
def migrateCase (c : MboxCmd) : Option Nat := (tooWide (prm c 0 4) 22).or ((tooWide (prm c 4 4) 1).or (tooWide (prm c 8 4) 14))

/-- MIGRATE (spec/16 R352). -/
def execMigrate (i : InstId) (w : Nat) (s : State) : Result := serve i w 0xA0 migrateCase (doMigrate i) s

end Sys2Proof.Machine
end

