-- ==== Sys2Proof/Machine/Models.lean ====
section
/-! DEFINITION. The mailbox commands on models and epochs (spec/03 R68-R72, spec/11 R231-R243). -/

namespace Sys2Proof.Machine

open Sys2Proof

/-! ### Shared parts -/

/-- The model that a command names in its first byte: 13 of spec/00 R12 out of range. -/
def modelCase (c : MboxCmd) : Option Nat := overId (prm c 0 1) 64

/-- The vocabulary limit of an outpost set (spec/01 R16). -/
def vocabLimit (mask : BitVec 8) : Nat := 131072 * popCount 8 mask.toNat

/-- The limit of the current assignment. -/
def instVocabLimit (s : State) (i : InstId) : Nat := vocabLimit (getInst s i).place.outposts

/-- Serve a command on a model that must not be EMPTY (R69). -/
def onModel (i : InstId) (f : Nat → Model → State → Answer × State) (c : MboxCmd) (s : State) : Answer × State :=
  let k := prm c 0 1
  let md := getModel (mir s i) k
  if md.state == .empty then (aNotFound, s) else f k md s

/-- Journal a model as it stands (spec/17 R374). -/
def journalModel (i : InstId) (k : Nat) (s : State) : State := journalObj i (.model k (getModel (mir s i) k)) s

/-- A directory request is answered: its bit is clear (R70). -/
def answerRequest (i : InstId) (k : Nat) (load : Bool) (s : State) : State :=
  modDir i (fun d => if load then { d with loadRequest := d.loadRequest &&& ~~~(1#64 <<< k) }
                     else { d with evictRequest := d.evictRequest &&& ~~~(1#64 <<< k) }) s

/-! ### Descriptors (R68) -/

/-- Deferred requests of a model's residency (R68). -/
def deferredOfModel (m : Mirrored) (k : Nat) : Nat :=
  (m.ctxs.flatMap fun c => c.defer.filter fun d => d.forModel && d.req.model == k).length

def ModelState.code : ModelState → Nat
  | .empty => 0 | .described => 1 | .loadPending => 2 | .resident => 3 | .evicting => 4 | .refused => 5

/-- The 64-byte descriptor (R68). -/
def modelBytes (m : Mirrored) (k : Nat) : List Byte :=
  let md := getModel m k
  if md.state == .empty then layout 64 [lf 0 1 k]
  else layout 64
    [ lf 0x00 1 k, lf 0x01 1 md.state.code, lf 0x02 1 md.pageSizeLog2,
      lf 0x03 1 (bit md.pinned + 2 * bit md.wide + 4 * bit md.old.isSome + 8 * bit md.committed.isSome),
      lf 0x04 4 md.vocabMax, lf 0x08 4 md.maxPositions, lf 0x0C 4 md.weightFootprint,
      lf 0x10 2 ((md.committed.map (·.epoch)).getD 0), lf 0x12 2 ((md.old.map (·.epoch)).getD 0),
      lf 0x14 2 (if md.stage == .none then 0xFFFF else md.staged.epoch), lf 0x16 2 ((md.committed.map (·.layoutTag)).getD 0),
      lf 0x18 8 md.lastStep, lf 0x20 4 (liveOfModel m k), lf 0x24 4 (deferredOfModel m k), lf 0x28 8 md.requestTick ]

/-- The descriptor that MODEL_DESCRIBE's buffer gives: the fields that the host writes (R68). -/
def parseModel (b : List Byte) : Model :=
  { pageSizeLog2 := fld b 2 1, pinned := tbit (fld b 3 1) 0, wide := tbit (fld b 3 1) 1, vocabMax := fld b 4 4, maxPositions := fld b 8 4,
    weightFootprint := fld b 12 4 }

/-- MODEL_DESCRIBE (R69). -/
def doModelDescribe (i : InstId) (desc : List Byte) (_ : MboxCmd) (s : State) : Answer × State :=
  let b := slice desc 0 64
  let k := fld b 0 1 % 64
  let md := parseModel b
  if (getModel (mir s i) k).state != .empty then (.now rExists 0 [], s)
  else if md.pageSizeLog2 < 4 ∨ 8 < md.pageSizeLog2 ∨ md.vocabMax = 0 then (aInvalid, s)
  else
    let st := if instVocabLimit s i < md.vocabMax then ModelState.refused else .described
    (aOk, journalModel i k (modModel i k (fun _ => { md with state := st }) s))

/-- The host's descriptor as it was written; reserved bits of the fields that the host writes, and its reserved bytes (R9, R68). -/
def describeCase (s : State) (desc : List Byte) (c : MboxCmd) : Option Nat :=
  let b := slice desc 0 64
  (hostWriteCase s (prm c 0 8) b).or <| (tooWide (fld b 0 1) 6).or ((tooWide (fld b 3 1) 4).or (if zeros (slice b 0x30 16) then none else some 12))

/-- MODEL_DESCRIBE (spec/03 R69). -/
def execModelDescribe (i : InstId) (w : Nat) (desc : List Byte) (s : State) : Result :=
  serve i w 0x60 (describeCase s desc) (doModelDescribe i desc) s

/-- MODEL_QUERY (R68, R69). -/
def doModelQuery (i : InstId) (c : MboxCmd) (s : State) : Answer × State :=
  let a := prm c 8 8
  if !outputOk a then (aInvalid, s) else (aOk, hbmPut a (modelBytes (mir s i) (prm c 0 1)) s)

/-- MODEL_QUERY (spec/03 R68). -/
def execModelQuery (i : InstId) (w : Nat) (s : State) : Result :=
  serve i w 0x61 (fun c => (modelCase c).or (outCase s 8 64 c)) (doModelQuery i) s

/-- MODEL_FORGET (R69): the demand and any staged epoch go with the descriptor. -/
def doModelForget (i : InstId) : MboxCmd → State → Answer × State := onModel i fun k md s =>
  if !(md.state == .described || md.state == .refused) || liveOfModel (mir s i) k ≠ 0 then (aWrong, s)
  else
    let s := modDir i (fun d => { d with models := modAt d.models k fun _ => {}, demand := d.demand.filter (·.1 != k) }) s
    (aOk, foyerRound i (grantSlots i 64 (journalModel i k s)))

/-- MODEL_FORGET (spec/03 R69). -/
def execModelForget (i : InstId) (w : Nat) (s : State) : Result := serve i w 0x62 modelCase (doModelForget i) s

/-- MODEL_LOADED (R69): deferred requests are re-evaluated first, then victims are chosen where one is due (R71). -/
def doModelLoaded (i : InstId) : MboxCmd → State → Answer × State := onModel i fun k md s =>
  if md.state != .loadPending then (aWrong, s)
  else
    let s0 := s
    let n := (mir s i).kitchen.stepAssigned
    let s := answerRequest i k true (modModel i k (fun md => { md with state := .resident, lastStep := n }) s)
    (aOk, dirEdge i s0 (foyerRound i (journalModel i k s)))

/-- MODEL_LOADED (spec/03 R69). -/
def execModelLoaded (i : InstId) (w : Nat) (s : State) : Result := serve i w 0x63 modelCase (doModelLoaded i) s

/-- Reject the deferred requests of a model, in every context (R69, R72). -/
def rejectOfModel (i : InstId) (k reason : Nat) (s : State) : State :=
  (List.range 16).foldl (fun s c => deferTimer i c (rejectDeferred i c reason (fun d => d.req.model == k) s)) s

/-- MODEL_LOAD_DECLINED (R69, R64). -/
def doModelLoadDeclined (i : InstId) : MboxCmd → State → Answer × State := onModel i fun k md s =>
  if md.state != .loadPending then (aWrong, s)
  else
    let s := answerRequest i k true (modModel i k (fun md => { md with state := .described }) s)
    (aOk, grantSlots i 64 (journalModel i k (rejectOfModel i k 43 s)))

/-- MODEL_LOAD_DECLINED (spec/03 R69). -/
def execModelLoadDeclined (i : InstId) (w : Nat) (s : State) : Result := serve i w 0x64 modelCase (doModelLoadDeclined i) s

/-- A sequence that was resumed while its model was EVICTING still needs it (R71). -/
def wantAgain (i : InstId) (k : Nat) (s : State) : State :=
  let qs := (mir s i).seqs.filter fun q => q.r.model == k && q.r.state.composed
  if qs.isEmpty then s else demandModel i k (qs.any fun q => q.r.cls == 0) s

/-- MODEL_UNLOADED (R69, R71). -/
def doModelUnloaded (i : InstId) : MboxCmd → State → Answer × State := onModel i fun k md s =>
  if md.state != .evicting then (aWrong, s)
  else
    let s := answerRequest i k false (modModel i k (fun md => { md with state := .described }) s)
    (aOk, foyerRound i (wantAgain i k (grantSlots i 64 (journalModel i k s))))

/-- MODEL_UNLOADED (spec/03 R69). -/
def execModelUnloaded (i : InstId) (w : Nat) (s : State) : Result := serve i w 0x65 modelCase (doModelUnloaded i) s

/-- MODEL_PIN (R71): in any state but EMPTY; a model whose pin is taken off may become evictable (DEDUCED, log 44). -/
def doModelPin (i : InstId) (c : MboxCmd) (s : State) : Answer × State :=
  onModel i (fun k _ s =>
    let v := prm c 1 1
    if 1 < v then (aInvalid, s)
    else (aOk, dirEdge i s (journalModel i k (modModel i k (fun md => { md with pinned := v == 1 }) s)))) c s

/-- MODEL_PIN (spec/03 R71). -/
def execModelPin (i : InstId) (w : Nat) (s : State) : Result := serve i w 0x66 modelCase (doModelPin i) s

/-! ### Epochs (spec/11) -/

/-- An epoch descriptor (R231). -/
def parseEpoch (b : List Byte) : EpochDesc :=
  { epoch := fld b 2 2, layoutTag := fld b 4 2, vocab := fld b 8 4, weightHandle := slice b 0x10 16 }

/-- The host's descriptor as it was written, and its reserved fields (R9, R231). -/
def stageCase (s : State) (desc : List Byte) (c : MboxCmd) : Option Nat :=
  let b := slice desc 0 64
  (hostWriteCase s (prm c 0 8) b).or <| (tooWide (fld b 0 1) 6).or (if fld b 1 1 == 0 && fld b 6 2 == 0 && fld b 12 4 == 0 && zeros (slice b 0x20 32) then none else some 12)

/-- R232's refusals, in order. -/
def stageRefusal (limit : Nat) (md : Model) (e : EpochDesc) : Option Answer :=
  if md.state == .empty then some aNotFound
  else if !(md.state == .described || md.state == .resident) then some aWrong
  else if md.stage == .armed then some aWrong
  else if e.epoch = 0xFFFF ∨ e.vocab = 0 ∨ md.vocabMax < e.vocab then some aInvalid
  else if limit < e.vocab then some aInvalid
  else if (epochOf md e.epoch).isSome then some aInvalid
  else none

/-- EPOCH_STAGE (R232, R233): a replaced READY epoch gives up its slot. -/
def doEpochStage (i : InstId) (desc : List Byte) (_ : MboxCmd) (s : State) : Answer × State :=
  let b := slice desc 0 64
  let k := fld b 0 1 % 64
  let e := parseEpoch b
  match stageRefusal (instVocabLimit s i) (getModel (mir s i) k) e with
  | some a => (a, s)
  | none =>
    let s := modModel i k (fun md => { md with stage := .staged, staged := e, noSlotClaim := false }) s
    (aOk, grantSlots i 64 (journalModel i k s))

/-- EPOCH_STAGE (spec/11 R232). -/
def execEpochStage (i : InstId) (w : Nat) (desc : List Byte) (s : State) : Result :=
  serve i w 0x70 (stageCase s desc) (doEpochStage i desc) s

/-- EPOCH_READY (R233, R71). -/
def doEpochReady (i : InstId) : MboxCmd → State → Answer × State := onModel i fun k md s =>
  if md.stage != .staged then (aWrong, s)
  else if slotsFree (mir s i) = 0 then (.now rNoSlot 0 [], dirCheck i (modModel i k (fun md => { md with noSlotClaim := true }) s))
  else (aOk, journalModel i k (modModel i k (fun md => { md with stage := .ready, noSlotClaim := false }) s))

/-- EPOCH_READY (spec/11 R233). -/
def execEpochReady (i : InstId) (w : Nat) (s : State) : Result := serve i w 0x71 modelCase (doEpochReady i) s

/-- R234's conditions. -/
def commitAllowed (m : Mirrored) (k : Nat) : Bool :=
  let md := getModel m k
  md.stage == .ready && md.old.isNone && (md.state == .resident || (md.state == .described && liveOfModel m k == 0))

/-- EPOCH_COMMIT (R234): the epoch is ARMED, and a fused run of the model ends (spec/04 R91, R92). -/
def doEpochCommit (i : InstId) : MboxCmd → State → Answer × State := onModel i fun k _ s =>
  if !commitAllowed (mir s i) k then (aWrong, s)
  else
    let s := modModel i k (fun md => { md with stage := .armed }) s
    (aOk, journalModel i k (modKit i (endRuns k) s))

/-- EPOCH_COMMIT (spec/11 R234). -/
def execEpochCommit (i : InstId) (w : Nat) (s : State) : Result := serve i w 0x72 modelCase (doEpochCommit i) s

/-- EPOCH_UNSTAGE (R233, R249). -/
def doEpochUnstage (i : InstId) : MboxCmd → State → Answer × State := onModel i fun k md s =>
  if md.stage == .none || md.stage == .armed then (aWrong, s)
  else
    let s0 := s
    let s := modModel i k (fun md => { md with stage := .none, noSlotClaim := false }) s
    (aOk, dirEdge i s0 (grantSlots i 64 (journalModel i k s)))

/-- EPOCH_UNSTAGE (spec/11 R233). -/
def execEpochUnstage (i : InstId) (w : Nat) (s : State) : Result := serve i w 0x73 modelCase (doEpochUnstage i) s

/-- EPOCH_RETIRE (R243). -/
def doEpochRetire (i : InstId) : MboxCmd → State → Answer × State := onModel i fun k md s =>
  match md.old with
  | none => (aWrong, s)
  | some o => (aOk, retireCheck i k (broadcast i (.epochAbort k o.epoch) (fun q => q.r.model == k && q.r.epoch == o.epoch) s))

/-- EPOCH_RETIRE (spec/11 R243). -/
def execEpochRetire (i : InstId) (w : Nat) (s : State) : Result := serve i w 0x74 modelCase (doEpochRetire i) s

end Sys2Proof.Machine
end

