-- ==== Sys2Proof/Machine/Turns.lean ====
section
/-! DEFINITION. The training turn: EVENING, MORNING, the cost query, lending the pool (spec/11 R244-R248, spec/05 R121-R123). -/

namespace Sys2Proof.Machine

open Sys2Proof

/-! ### Evening (spec/11 R244) -/

/-- EVENING: no step is composed and no household passed from here on; the rest follows as the instance comes to rest (R244). -/
def doEvening (i : InstId) (_ : MboxCmd) (s : State) : Answer × State :=
  if (mir s i).kitchen.turn != .service then (aWrong, s)
  else (.later, modKit i (fun k => { k with turn := .evening, quiesced := true, eveningSent := false, raises := [] }) s)

/-- EVENING (spec/11 R244). -/
def execEvening (i : InstId) (w : Nat) (s : State) : Result := serve i w 0x80 noCase (doEvening i) s

/-- An event of the turn or of a teardown that Evening waits for (R244, spec/15 R335). -/
def eveningEvent (k : EvKind) : Bool := k == .evening || k == .teardown

/-- Finish the commands of a code that have begun. -/
def finishCode (i : InstId) (code r : Nat) (s : State) : State :=
  ((mir s i).mbox.filter fun c => c.code == code && c.phase == .issued).foldl (fun s c => finishCmd i c.id r 0 [] s) s

/-- EVENING_COMPLETE (R244 step 5). -/
def execEveningComplete (i : InstId) (s : State) : Result :=
  let x := getInst s i
  let k := x.mir.kitchen
  if !activeInst s i || k.turn != .evening || !k.eveningSent || pendingKind x eveningEvent then .next s
  else
    let t := finishCode i 0x80 rOk (modKit i (fun k => { k with turn := .training }) s)
    done i s (journalObj i (.turn true) (setRole i 2 t))

/-! ### Morning (spec/11 R246-R248) -/

/-- An outpost set of a pairing mode (spec/01 R15): its count a power of two, at most 8 in twin mode and 4 in split mode, and disjoint from the partner's in split mode. -/
def setOk (split : Bool) (mask partner : BitVec 8) : Bool :=
  let n := popCount 8 mask.toNat
  isPow2 n && decide (n ≤ if split then 4 else 8) && (!split || mask &&& partner == 0)

/-- What MORNING asks for: the mode and the set, or the present ones. -/
def morningSet (x : Inst) (c : MboxCmd) : Nat × BitVec 8 :=
  if tbit (prm c 0 1) 0 then (prm c 1 1, BitVec.ofNat 8 (prm c 2 1)) else (bit x.place.split, x.place.outposts)

/-- The set changes. -/
def setChanges (x : Inst) (w : Nat × BitVec 8) : Bool := w.1 != bit x.place.split || w.2 != x.place.outposts

/-- The partner's set, as a new split set must avoid it. -/
def partnerSet (s : State) (i : InstId) : BitVec 8 :=
  if (getInst s i).place.split then (getInst s (other i)).place.outposts else 0

/-- Pages are lent (spec/05 R123). -/
def lentPages (m : Mirrored) : List Nat := (m.pantry.used.filter (·.2 == .lent)).map (·.1)

/-- R246's WRONG_STATE. -/
def morningWrong (s : State) (i : InstId) (w : Nat × BitVec 8) : Bool :=
  let x := getInst s i
  let m := x.mir
  let lim := vocabLimit w.2
  m.kitchen.turn != .training || !(lentPages m).isEmpty ||
    (setChanges x w &&
      ((List.range 64).any fun k =>
        let md := getModel m k
        let live := liveOfModel m k
        (live != 0 && decide (lim < md.vocabMax)) || ((md.state == .resident || live != 0) && md.stage != .armed))) ||
    (w.1 != bit x.place.split && (mir s (other i)).kitchen.turn != .training)

/-- The directory under a new vocabulary limit (spec/03 R69, R72). -/
def refit (lim : Nat) (md : Model) : Model :=
  match md.state with
  | .refused => if lim < md.vocabMax then md else { md with state := .described }
  | .empty => md
  | _ => if lim < md.vocabMax then { md with state := .refused } else md

/-- The directory under a new limit: a model that is refused leaves the FIFO of demands, and a request for its load or eviction is withdrawn (spec/03 R72; DEDUCED, log 86). -/
def refitDir (lim : Nat) (d : Directory) : Directory :=
  let ms := d.models.map (refit lim)
  let gone (k : Nat) : Bool := (ms.getD k {}).state == .refused
  let keep (v : BitVec 64) : BitVec 64 := (maskBits 64 v.toNat).foldl (fun w k => if gone k then w &&& ~~~(1#64 <<< k) else w) v
  { d with models := ms, demand := d.demand.filter fun x => !gone x.1, loadRequest := keep d.loadRequest, evictRequest := keep d.evictRequest }

/-- An outpost of the set as a Morning leaves it: both halves released, map slots clear; the self-test runs (R247 stages 1 and 2). -/
def morningOutpost (i : InstId) (x : Outpost) : Outpost :=
  { x with owner := some i, half0Free := true, half1Free := true, markers := [], maps := [], selftest := true }

/-- A change of pairing mode (R246): the new partner of a split pair starts without state of its own, in a turn that its own MORNING ends; the new mirror of a twin pair gives up its state (DEDUCED, log 43); one of another firmware build does not follow, which it reports (spec/13 R278); its peers are told (spec/16 R343). -/
def changeMode (i : InstId) (split : Bool) (s : State) : State :=
  if (getInst s i).place.split == split then s
  else
    let j := other i
    let m : Mirrored := if split then { kitchen := { turn := .training, quiesced := true } } else {}
    let runs := !split && running s j
    let same := (getInst s i).hearth.fwBuild == (getInst s j).hearth.fwBuild
    let ms : MirrorState := if !runs then .none else if same then .syncing else .lost
    let s := modInst j (fun x => { x with
      mir := m
      place := { x.place with split := split, outposts := 0 }
      rel := { x.rel with active := split, mirror := ms }
      stair := { x.stair with role := if split then 2 else 0, roleGen := nextGen x.stair.roleGen } }) s
    let s := modInst i (fun x => { x with place := { x.place with split := split }, rel := { x.rel with mirror := ms } }) s
    announceAll j (if runs && !same then logFault j 0x09 10 none 0 0 0 s else s)

/-- The outposts of an instance pass to a new set, which in twin mode the mirror knows as well (R247 stage 1, spec/01 R17, R18). -/
def assignSet (i : InstId) (mask : BitVec 8) (s : State) : State :=
  let split := (getInst s i).place.split
  let s := (List.range 8).foldl (fun s o => modOutpost o (fun x =>
    if (x.owner == some i || (!split && x.owner == some (other i))) && !mask.getLsbD o then { x with owner := none, selftest := false } else x) s) s
  let put (x : Inst) : Inst := { x with place := { x.place with outposts := mask } }
  let s := modInst i put s
  if (getInst s i).place.split then s else modInst (other i) put s

/-- Stage 1 of Morning, and the start of stage 2 (R247). -/
def beginMorning (i : InstId) (w : Nat × BitVec 8) (s : State) : State :=
  let ch := setChanges (getInst s i) w
  let s := if ch then
      let s := assignSet i w.2 (changeMode i (w.1 == 1) s)
      foyerRound i (grantSlots i 64 (modDir i (refitDir (vocabLimit w.2)) s))
    else s
  let s := (outpostSet s i).foldl (fun s o => modOutpost o (morningOutpost i) s) s
  modKit i (fun k => { k with turn := .morning, morningStage := 2, newSet := ch, nextHalf := 0 }) s

/-- MORNING (R246, R247). -/
def doMorning (i : InstId) (c : MboxCmd) (s : State) : Answer × State :=
  let x := getInst s i
  let w := morningSet x c
  let partner := if w.1 == bit x.place.split then partnerSet s i else 0
  if setChanges x w && (decide (1 < w.1) || !setOk (w.1 == 1) w.2 partner) then (aInvalid, s)
  else if morningWrong s i w then (aWrong, s)
  else (.later, beginMorning i w s)

/-- Flags above [0] are reserved. -/
def morningCase (c : MboxCmd) : Option Nat := tooWide (prm c 0 1) 1

/-- MORNING (spec/11 R246). -/
def execMorning (i : InstId) (w : Nat) (s : State) : Result := serve i w 0x81 morningCase (doMorning i) s

/-- Stage 7 of Morning (R247): the role, the Foyer, the park wakes that were held, the result (spec/12 R265). -/
def openMorning (i : InstId) (s : State) : State :=
  let s0 := s
  let s := modKit i (fun k => { k with turn := .service, quiesced := false, morningStage := 0, newSet := false }) s
  let s := finishCode i 0x81 rOk (journalObj i (.turn false) (setRole i 1 s))
  let woken := sortBy (fun a b => decide (a.2 < b.2)) ((mir s i).seqs.filterMap fun q => q.heldWake.map fun t => (q.r.localId, t))
  let s := woken.foldl (fun s p => postSeq i p.1 (.resume none) (modSeq i p.1 (fun q => { q with heldWake := none }) s)) s
  dirEdge i s0 (foyerRound i s)

/-! ### The cost query (spec/05 R121) -/

/-- The tag under which a model's sequences will run after Morning: the staged epoch's, else the committed one's. -/
def nextTag (m : Mirrored) (k : Nat) : Nat :=
  let md := getModel m k
  if md.stage == .none then (md.committed.map (·.layoutTag)).getD 0 else md.staged.layoutTag

/-- Positions to recompute for a household's live members. -/
def householdTokens (ms : List Seq) : Nat :=
  let l := ((ms.head?).map (·.r.promptLen)).getD 0 - 1
  min ((ms.map (·.r.kvLen)).foldl max 0) l + sumNat (ms.map fun q => q.r.kvLen - l)

/-- The cost record of a context (R121); ahead pages count in `sequences` and `release_pages`, not in `shutter_pages` (DESIGN CHOICE, log 97). -/
def costRecord (m : Mirrored) (c : Nat) : List Byte :=
  let live := (seqsOfCtx m c).filter (·.r.state.live)
  let hs := (live.map (·.r.household)).eraseDups
  let mem (h : Nat) : List Seq := live.filter (·.r.household == h)
  let retag (h : Nat) : Bool := ((mem h).head?.map fun q => nextTag m q.r.model != q.r.layoutTag).getD false
  layout 32
    [ lf 0x00 1 c, lf 0x04 4 (live.filter fun q => !(seqPages q).isEmpty).length,
      lf 0x08 4 (live.flatMap seqPages).eraseDups.length,
      lf 0x0C 4 (live.flatMap fun q => q.pages.map (·.page) ++ q.draftPages).eraseDups.length,
      lf 0x10 8 (sumNat (hs.map fun h => householdTokens (mem h))),
      lf 0x18 8 (sumNat ((hs.filter retag).map fun h => householdTokens (mem h))) ]

/-- The open contexts. -/
def openCtxs (m : Mirrored) : List Nat := (List.range 16).filter fun c => (getCtx m c).isOpen

/-- TURN_COST (R121). -/
def doTurnCost (i : InstId) (c : MboxCmd) (s : State) : Answer × State :=
  let m := mir s i
  let cs := openCtxs m
  let a := prm c 0 8
  if !outputOk a then (aInvalid, s)
  else if prm c 8 4 < cs.length then (.now rFull cs.length [], s)
  else (.now rOk 0 (leBytes 4 cs.length), hbmPut a (cs.flatMap (costRecord m)) s)

/-- TURN_COST (spec/05 R121). -/
def execTurnCost (i : InstId) (w : Nat) (s : State) : Result :=
  serve i w 0x82 (outCase s 0 (32 * (openCtxs (mir s i)).length)) (doTurnCost i) s

/-! ### Lending the pool (spec/05 R122, R123) -/

/-- The maximal runs of free page ids from `lo` to `n`, given the others in rising order: (first, count). -/
def freeRuns (n : Nat) : Nat → List Nat → List (Nat × Nat)
  | lo, [] => if lo < n then [(lo, n - lo)] else []
  | lo, u :: us => if lo < u then (lo, u - lo) :: freeRuns n (u + 1) us else freeRuns n (u + 1) us

/-- The extents of POOL_LEND. -/
def extents (x : Inst) : List (Nat × Nat) := freeRuns (poolPages x) 0 (x.mir.pantry.used.map (·.1))

/-- Every free page becomes LENT. -/
def lendAll (es : List (Nat × Nat)) (p : Pantry) : Pantry :=
  es.foldl (fun p e => (List.range e.2).foldl (fun p k => pagePut (e.1 + k) .lent p) p) p

/-- POOL_LEND (R122, R123); one that lends no page leaves no lend outstanding (DESIGN CHOICE, log 98). -/
def doPoolLend (i : InstId) (c : MboxCmd) (s : State) : Answer × State :=
  let x := getInst s i
  let es := extents x
  let a := prm c 0 8
  let pages := sumNat (es.map (·.2))
  if !outputOk a then (aInvalid, s)
  else if x.mir.kitchen.turn != .training || !(lentPages x.mir).isEmpty then (aWrong, s)
  else if prm c 8 4 < es.length then (.now rFull es.length [], s)
  else
    let s := modPantry i (lendAll es) (hbmPut a (es.flatMap fun e => leBytes 4 e.1 ++ leBytes 4 e.2) s)
    (.now rOk 0 (leBytes 4 es.length ++ leBytes 4 0 ++ leBytes 8 pages), ringPush i 3 0x023 3 0 [0, pages, 0] s)

/-- POOL_LEND (spec/05 R122). -/
def execPoolLend (i : InstId) (w : Nat) (s : State) : Result :=
  serve i w 0x83 (outCase s 0 (8 * (extents (getInst s i)).length)) (doPoolLend i) s

/-- POOL_RETURN (R123); with no page lent it returns none (DEDUCED, log 45). -/
def doPoolReturn (i : InstId) (_ : MboxCmd) (s : State) : Answer × State :=
  let n := (lentPages (mir s i)).length
  let s := modPantry i (fun p => { p with used := p.used.filter (·.2 != .lent) }) s
  (.now rOk 0 (leBytes 8 n), ringPush i 3 0x023 4 0 [0, n, freePages (getInst s i)] s)

/-- POOL_RETURN (spec/05 R123). -/
def execPoolReturn (i : InstId) (w : Nat) (s : State) : Result := serve i w 0x84 noCase (doPoolReturn i) s

end Sys2Proof.Machine
end

