-- ==== Sys2Proof/Machine/Drive.lean ====
section
/-! DEFINITION. The journal and the board drive: flushes, bulk images, digests, the drive's completions and failures, and the commands SNAPSHOT, LOSS_BOUND and DRIVE_RETRY (spec/17 R376-R379, spec/01 R27, spec/13 R284). -/

namespace Sys2Proof.Machine

open Sys2Proof

/-- A drive command's time, 2 s in ticks (spec/01 R27). -/
def driveLimit : Nat := 2000000

/-- Depth of the instance's queue pair (spec/01 R26). -/
def queueDepth : Nat := 64

/-! ### When the Hearth may use the drive -/

/-- The Hearth core that flushes is in service, and the instance runs with its drive range placed, its path whole and room in its queue pair (R376, spec/01 R26, R27). -/
def drives (s : State) (i : InstId) : Bool :=
  let x := getInst s i
  running s i && !inReset s i && !x.rel.driveFailed && x.place.drive.isSome && onDuty s i 0 && decide (x.rel.drive.length < queueDepth)

/-- Commands wait at the core that flushes: any, or those of class-0 contexts alone (spec/13 R284). -/
def commandWaits (s : State) (i : InstId) (c0 : Bool) : Bool := commandWaitsAt s i 0 c0

/-! ### Digests (R379, R382) -/

/-- A STEP entry of number `n`. -/
def isStep (n : Nat) : JEntry → Bool
  | .step k _ => k == n
  | _ => false

/-- Entries up to the STEP entry of number `n`; none where it is not among them. -/
def upToStep (n : Nat) (es : List JEntry) : List JEntry := if es.any (isStep n) then es.take (es.findIdx (isStep n) + 1) else []

/-- The running digest at a step: from the digest of the current bulk image, over the entries after it (R379). -/
def digestAt (d : Disk) (n : Nat) : BitVec 384 :=
  digestOf (beBytes 48 (((curSuper d).map Superblock.digest).getD 0).toNat ++ (upToStep n (ringEntries d)).flatMap entryImage)

/-- Send (last durable STEP, running digest) to the replica, where the path carries it (R379). -/
def sendDigest (i : InstId) (s : State) : State :=
  let x := getInst s i
  let n := x.rel.durableStep
  if n = 0 || !s.pathUp || inReset s (other i) then s
  else modRel (other i) (fun r => { r with digestsIn := r.digestsIn ++ [(n, digestAt x.rel.disk n, peerAddr x)] }) s

/-! ### Flushes (R376, R377, spec/13 R284) -/

/-- The levels of the sixteen contexts' buckets, staged with each flush of the instance that composes (R370 class 3). -/
def regulatorEntry (m : Mirrored) : JEntry := .regulator (m.ctxs.map fun x => (x.adm.level, x.row.level, x.hbm.level))

/-- A forced flush: the recovery mode, or an ACK that waits (R377, spec/16 R351). -/
def flushIsForced (r : Reliability) : Bool := r.lossBound != 0 || r.flushForced

/-- A flush is due: 4 MiB staged, 1,000 ticks since the last one began, or forced; one at a time (R377). -/
def flushWanted (x : Inst) (tick : Nat) : Bool :=
  let r := x.rel
  !r.staged.isEmpty && r.flushing.isNone &&
    (decide (0x400000 ≤ stagedBytes r.staged) || decide (r.lastFlush + 1000 ≤ tick) || flushIsForced r)

/-- The ticks by which the flush that is due is deferred: of a journal and a bulk flush the longer (spec/13 R286). -/
def deferredBy (tick : Nat) (r : Reliability) : Nat := max (tick - r.flushDue.getD tick) (tick - r.bulkDue.getD tick)

/-! ### The LBAs of the range (R372) -/

/-- The first LBA of a journal block in the ring. -/
def blockLba (x : Inst) (n : Nat) : Nat := 2097408 + 16 * (n % ringBlocks x)

/-- The first LBA of a bulk slot. -/
def slotLba (slot : Bool) : Nat := if slot then 1048832 else 256

/-- The LBA of the digest log that holds entry `n` at byte 64 × (n mod 4,096) (R379). -/
def digestLba (n : Nat) : Nat := 2 + 64 * (n % 4096) / 4096

/-- The slot that the next image goes to: the one that is not current. -/
def imageSlot (d : Disk) : Bool := ((curSuper d).map (!·.slot)).getD false

/-- Where in the range a command begins: behind the last block, in the slot that is not current, at the next digest entry; the superblocks for a restore and a probe (R372). -/
def opLba (x : Inst) (op : DriveOp) : Nat :=
  match op with
  | .flush => blockLba x (x.rel.disk.lastBlock + 1)
  | .bulk => slotLba (imageSlot x.rel.disk)
  | .digest _ => digestLba x.rel.disk.digestCount
  | .probe _ | .restore _ => 0

/-- The first LBA of the instance's range (spec/01 R26). -/
def rangeStart (x : Inst) : Nat := (x.place.drive.map (·.2.1)).getD 0

/-- A command enters the queue pair, with its 2 s entry (spec/01 R27, spec/12 R261): the instance that composes holds the Dusk lists. -/
def driveEnter (i : InstId) (op : DriveOp) (again : Bool) (s : State) : State :=
  let x := getInst s i
  let s := modRel i (fun r => { r with drive := r.drive ++ [{ op := op, start := s.tick, retried := again, handle := if x.rel.active then x.mir.nextHandle else noHandle, lba := rangeStart x + opLba x op }] }) s
  if x.rel.active then duskMore i 3 (20 + (servingCore x.hearth 0).getD 0) (s.tick + driveLimit) s else s

/-- Hand a command to the drive: with 64 in the queue pair it waits (spec/01 R26). -/
def driveIssue (i : InstId) (op : DriveOp) (again : Bool) (s : State) : State :=
  let r := (getInst s i).rel
  if r.drive.length < queueDepth && r.driveNext.isEmpty then driveEnter i op again s
  else modRel i (fun r => { r with driveNext := r.driveNext ++ [(op, again)] }) s

/-- A drive command is over: it leaves the queue pair, and its entry its list; the command that waited longest takes the room. -/
def driveOver (i : InstId) (d : DriveCmd) (s : State) : State :=
  let s := duskDrop i 3 d.handle (modRel i (fun r => { r with drive := r.drive.erase d }) s)
  match (getInst s i).rel.driveNext with
  | [] => s
  | p :: ps => if (getInst s i).rel.drive.length < queueDepth then driveEnter i p.1 p.2 (modRel i (fun r => { r with driveNext := ps }) s) else s

/-- The oldest command for a purpose that `p` holds of is over. -/
def opDone (i : InstId) (p : DriveOp → Bool) (s : State) : State :=
  match (getInst s i).rel.drive.find? (fun o => p o.op) with
  | some o => driveOver i o s
  | none => s

/-- DIGEST_PAIR: the replica begins to write the pair into its digest log, a background duty that runs when no command waits (R379, spec/13 R284). -/
def execDigestPair (i : InstId) (s : State) : Result :=
  match (getInst s i).rel.digestsIn with
  | [] => .next s
  | p :: ps => if drives s i && !commandWaits s i false then done i s (driveIssue i (.digest p) false (modRel i (fun r => { r with digestsIn := ps }) s)) else .next s

/-- The pair stands in the digest log of 4,096 entries (R379). -/
def digestLogged (i : InstId) (p : Nat × BitVec 384 × Nat) (s : State) : State :=
  modRel i (fun r => { r with disk := { r.disk with
    digestLog := put (r.disk.digestCount % 4096) (digestEntry p) r.disk.digestLog
    digestCount := r.disk.digestCount + 1 } }) s

/-- Begin a flush of everything staged (R376). -/
def startFlush (i : InstId) (s : State) : State :=
  let x := getInst s i
  let d := deferredBy s.tick x.rel
  let s := if x.rel.active then journal i [regulatorEntry x.mir] s else s
  let s := modHearth i (fun h => { h with flushDefer := 0, flushDeferMax := max h.flushDeferMax d }) s
  driveIssue i .flush false <|
    modRel i (fun r => { r with flushing := some r.staged.length, lastFlush := s.tick, flushDue := none, flushForced := false }) s

/-- JOURNAL_FLUSH: starts the flush, or defers it while commands wait (R377, spec/13 R284). -/
def execJournalFlush (i : InstId) (s : State) : Result :=
  let x := getInst s i
  if !drives s i || !flushWanted x s.tick then .next s
  else if flushIsForced x.rel || !commandWaits s i false then done i s (startFlush i s)
  else done i s (modRel i (fun r => { r with flushDue := some (r.flushDue.getD s.tick) }) s)

/-- FLUSH_DEFER_EXPIRY: 4,000 ticks past its due tick a flush runs ahead of every command but those of class 0 (spec/13 R284). -/
def execFlushDeferExpiry (i : InstId) (s : State) : Result :=
  let x := getInst s i
  match x.rel.flushDue with
  | none => .next s
  | some due =>
    if drives s i && decide (due + 4000 ≤ s.tick) && x.rel.flushing.isNone && !commandWaits s i true then done i s (startFlush i s) else .next s

/-- The number of the last STEP entry, or `n` where there is none. -/
def lastStepOf (n : Nat) (es : List JEntry) : Nat := es.foldl (fun n e => match e with | .step k _ => k | _ => n) n

/-- What a flush of `n` staged entries leaves (R376). -/
def flushed (address n : Nat) (r : Reliability) : Reliability :=
  let es := r.staged.take n
  let bs := flushBlocks address r.disk.lastBlock (((curSuper r.disk).map (·.bulkSeqno)).getD 0) es
  { r with
    staged := r.staged.drop n
    flushing := none
    flushes := satTo 32 (r.flushes + 1)
    durableStep := lastStepOf r.durableStep es
    durableBlock := r.disk.lastBlock + bs.length
    disk := { r.disk with ring := r.disk.ring ++ bs, lastBlock := r.disk.lastBlock + bs.length } }

/-- What an arrival that is handed over waits for once `n` staged entries have become durable: nothing more where they were all of it and a forwarded request has entered (spec/16 R351). -/
def ackLeft (m : Mirrored) (n : Nat) (t : InXfer) : Option Nat :=
  match t.ackWait with
  | some k => if k ≤ n then (if forwardEntered m t then none else some 0) else some (k - n)
  | none => none

/-- The arrivals whose change of ownership is durable are acknowledged (spec/16 R351). -/
def ackArrivals (i : InstId) (n : Nat) (s : State) : State :=
  let m := mir s i
  let ready := m.inXfers.filter fun t => t.ackWait.isSome && (ackLeft m n t).isNone
  let left := m.inXfers.any fun t => decide (0 < (ackLeft m n t).getD 0)
  let s := modMir i (fun x => { x with inXfers := x.inXfers.map fun t => { t with ackWait := ackLeft m n t } }) s
  let s := ready.foldl (fun s t => sendAck i { t with ackWait := none } s) s
  if left then modRel i (fun r => { r with flushForced := true }) s else s

/-- A Flush has completed: the entries are durable (R376, R379). -/
def flushDone (i : InstId) (s : State) : State :=
  match (getInst s i).rel.flushing with
  | none => s
  | some n =>
    let s := opDone i (· == .flush) (modRel i (flushed (peerAddr (getInst s i)) n) s)
    sendDigest i (if (getInst s i).rel.active then ackArrivals i n s else s)

/-- The drive has an operation of a kind in flight. -/
def hasOp (s : State) (i : InstId) (p : DriveOp → Bool) : Bool := (getInst s i).rel.drive.any fun o => p o.op

/-- FLUSH_COMPLETE (R376). -/
def execFlushComplete (i : InstId) (s : State) : Result := if hasOp s i (· == .flush) && onDuty s i 0 then done i s (flushDone i s) else .next s

/-! ### Bulk images (R378) -/

/-- Ten state classes (R370). -/
def allClasses : Nat := 0x3FF

/-- Begin a bulk image of the classes of a mask, for a command or for Shapa itself. -/
def startBulk (i : InstId) (cmd : Option Nat) (mask : Nat) (s : State) : State :=
  let d := (getInst s i).rel.disk
  let full := mask == allClasses
  let now := imageOf s i
  let staged := (getInst s i).rel.staged
  let im := if full then now else mergeImage mask now (replay (replayed d) staged)
  let run : BulkRun := { seqno := ((curSuper d).map (·.bulkSeqno)).getD 0 + 1, mask := mask, replay := d.lastBlock + 1, cmd := cmd, image := im,
                         began := s.tick, skip := staged.length }
  let s := modHearth i (fun h => { h with flushDefer := 0, flushDeferMax := max h.flushDeferMax (deferredBy s.tick (getInst s i).rel) }) s
  driveIssue i .bulk false <|
    modRel i (fun r => { r with bulk := some run, bulkBegan := s.tick, bulkDue := none, bulkForced := r.bulkForced && !full }) s

/-- The superblock that makes an image current (R372). -/
def nextSuper (x : Inst) (run : BulkRun) (d : Disk) : Superblock :=
  let b := curSuper d
  let v : Superblock :=
    { address := peerAddr x, split := x.place.split, seqno := (b.map (·.seqno)).getD 0 + 1, slot := imageSlot d, bulkSeqno := run.seqno,
      digest := slotDigest { seqno := run.seqno, mask := run.mask, replay := run.replay, image := run.image }, replay := run.replay, skip := run.skip }
  { v with check := superCheck v }

/-- The image goes to the slot that is not current, the superblock to the copy that does not hold the larger valid seqno; the blocks before the replay block are free (R372, R378). -/
def bulkWritten (x : Inst) (run : BulkRun) (d : Disk) : Disk :=
  let b := nextSuper x run d
  let g : BulkSlot := { seqno := run.seqno, mask := run.mask, replay := run.replay, image := run.image }
  let d' := if b.slot then { d with slot1 := some g } else { d with slot0 := some g }
  let first := (curSuper d).isSome && curSuper d == d.super0
  let e := if first then { d' with super1 := some b } else { d' with super0 := some b }
  { e with ring := d.ring.filter fun k => decide (run.replay ≤ k.seqno) }

/-- SNAPSHOT commands whose image has not begun. -/
def snapshotsWaiting (x : Inst) : List MboxCmd :=
  x.mir.mbox.filter fun c => c.code == 0x90 && c.phase == .issued && (x.rel.bulk.bind (·.cmd)) != some c.id

/-- An image is durable with its superblock (R378): the instance that composes stages its BULK_MARK, a mirror journals the one that the stream brings. -/
def bulkDone (i : InstId) (s : State) : State :=
  let x := getInst s i
  match x.rel.bulk with
  | none => s
  | some run =>
    let s := opDone i (· == .bulk) (modRel i (fun r => { r with disk := bulkWritten x run r.disk, bulkSeqno := run.seqno, bulk := none }) s)
    let s := sendDigest i (if x.rel.active then journal i [.bulkMark run.seqno] s else s)
    let s := match run.cmd with
      | some c => finishCmd i c rOk 0 [] s
      | none => s
    match (snapshotsWaiting (getInst s i)).head? with
    | some c => if x.rel.active then startBulk i (some c.id) (prm c 0 4) s else s
    | none => s

/-- BULK_IMAGE_DURABLE (R378). -/
def execBulkImageDurable (i : InstId) (s : State) : Result := if hasOp s i (· == .bulk) && onDuty s i 0 then done i s (bulkDone i s) else .next s

/-- A bulk image is due: a takeover, a restored path, a quarter of the ring, or 10,000,000 ticks (R378). -/
def bulkWanted (x : Inst) (tick : Nat) : Bool :=
  x.rel.bulk.isNone && (x.rel.bulkForced || decide (ringBlocks x < 4 * x.rel.disk.ring.length) || decide (x.rel.bulkBegan + 10000000 ≤ tick))

/-- BULK_IMAGE_START: begins the image, or defers it while commands wait, for at most 4,000 ticks (R378, spec/13 R284). -/
def execBulkImageStart (i : InstId) (s : State) : Result :=
  let x := getInst s i
  let due := x.rel.bulkDue.getD s.tick
  if !drives s i || !bulkWanted x s.tick then .next s
  else if !commandWaits s i false || (decide (due + 4000 ≤ s.tick) && !commandWaits s i true) then done i s (startBulk i none allClasses s)
  else done i s (modRel i (fun r => { r with bulkDue := some due }) s)

/-! ### The drive's answers (spec/01 R27) -/

/-- A drive command has failed twice: the snapshot path is failed and reported; what waited for it ends IO_ERROR. -/
def pathFail (i : InstId) (s : State) : State :=
  let x := getInst s i
  let probes := x.rel.drive.filterMap fun o => match o.op with | .probe c => some c | _ => none
  let cmds := probes ++ x.rel.restoreCmd.toList ++ ((x.rel.bulk.bind (·.cmd)).toList) ++ (if x.rel.active then (snapshotsWaiting x).map (·.id) else [])
  let s := x.rel.drive.foldl (fun s d => driveOver i d s) (modRel i (fun r => { r with driveNext := [] }) s)
  let s := modRel i (fun r => { r with driveFailed := true, flushing := none, flushDue := none, bulk := none, bulkDue := none, restore := if r.restoreCmd.isSome then .failed else r.restore, restoreCmd := none }) s
  let s := if x.rel.driveFailed then s else logFault i 0x0B 11 none 0 0 0 s
  cmds.foldl (fun s c => finishCmd i c rIoError 0 [] s) s

/-- A drive command has failed or timed out: it is retried once (R27). -/
def driveError (i : InstId) (d : DriveCmd) (s : State) : State :=
  if d.retried then pathFail i s else driveIssue i d.op true (driveOver i d s)

/-- The path is whole again: an image of every class follows, as soon as commands and the drive let it (R27, R378, spec/13 R284). -/
def pathBack (i : InstId) (cmd : Nat) (s : State) : State :=
  finishCmd i cmd rOk 0 [] (opDone i (· == .probe cmd) (modRel i (fun r => { r with driveFailed := false, bulkForced := true }) s))

/-- The drive command that ends: of several in flight the drive chooses (DESIGN CHOICE, log 2). -/
def driveEnds (i : InstId) (s : State) : Option DriveCmd × State :=
  match (getInst s i).rel.drive with
  | [] => (none, s)
  | [d] => (some d, s)
  | ds =>
    let f := takeFree s
    (ds[f.1 % ds.length]?, f.2)

/-- What a drive command was for is done; a retry that succeeds is counted (spec/17 R359). -/
def driveDone (i : InstId) (d : DriveCmd) (s : State) : State :=
  let s := countFixed i (bit d.retried) s
  match d.op with
  | .flush => flushDone i s
  | .bulk => bulkDone i s
  | .probe c => pathBack i c s
  | .restore _ => driveOver i d s
  | .digest p => driveOver i d (digestLogged i p s)

/-- DRIVE_COMPLETION: core 0 reaps a drive command that has ended, well or with an error (R27, spec/13 R269). -/
def execDriveCompletion (i : InstId) (ok : Bool) (s : State) : Result :=
  let w := driveEnds i s
  match w.1 with
  | none => .next s
  | some d => if !onDuty s i 0 then .next s else done i s (if ok then driveDone i d w.2 else driveError i d w.2)

/-- The flow of a Hearth core whose usher next applies the TIMER of a drive command, and the command. -/
def driveTimer (s : State) (i : InstId) : Option (Nat × DriveCmd) :=
  (List.range 4).findSome? fun c =>
    (dueTimer s i 3 (.unit (20 + c))).bind fun h => ((getInst s i).rel.drive.find? (·.handle == h.1)).map fun d => (20 + c, d)

/-- Every Hearth core's flow fires what has fallen due. -/
def fireCores (i : InstId) (s : State) : State := (List.range 4).foldl (fun s c => fireDue i 3 (.unit (20 + c)) s) s

/-- DRIVE_TIMEOUT: a drive command has not ended within 2 s (R27): the TIMER of its entry, or, in an instance that does not hold the Dusk lists, its own limit. -/
def execDriveTimeout (i : InstId) (s : State) : Result :=
  if !onDuty s i 0 then .next s
  else if (getInst s i).rel.active then
    let u := fireCores i s
    match driveTimer u i with
    | none => done i s u
    | some (f, d) => done i s (driveError i d (releaseEvent i (.unit f) u))
  else match (getInst s i).rel.drive.find? (fun d => decide (d.start + driveLimit ≤ s.tick)) with
    | none => .next s
    | some d => done i s (driveError i d s)

/-! ### The commands (spec/14 R295) -/

/-- SNAPSHOT: the image begins, or waits for the one in progress (R378). -/
def doSnapshot (i : InstId) (c : MboxCmd) (s : State) : Answer × State :=
  let r := (getInst s i).rel
  if r.driveFailed then (.now rIoError 0 [], s)
  else (.later, if r.bulk.isSome then s else startBulk i (some c.id) (prm c 0 4) s)

/-- SNAPSHOT (R370, R378). -/
def execSnapshot (i : InstId) (w : Nat) (s : State) : Result := serve i w 0x90 (fun c => tooWide (prm c 0 4) 10) (doSnapshot i) s

/-- LOSS_BOUND (R377). -/
def doLossBound (i : InstId) (c : MboxCmd) (s : State) : Answer × State := (aOk, modRel i (fun r => { r with lossBound := prm c 0 4 }) s)

/-- LOSS_BOUND (R377). -/
def execLossBound (i : InstId) (w : Nat) (s : State) : Result := serve i w 0x92 noCase (doLossBound i) s

/-- DRIVE_RETRY: the failed path is tried (spec/01 R27). -/
def doDriveRetry (i : InstId) (c : MboxCmd) (s : State) : Answer × State :=
  let r := (getInst s i).rel
  if !r.driveFailed || !r.drive.isEmpty then (aWrong, s)
  else (.later, driveIssue i (.probe c.id) false s)

/-- DRIVE_RETRY (spec/01 R27). -/
def execDriveRetry (i : InstId) (w : Nat) (s : State) : Result := serve i w 0x93 noCase (doDriveRetry i) s

end Sys2Proof.Machine
end

