-- ==== Sys2Proof/Machine/Twin.lean ====
section
/-! DEFINITION. The twin pair: the mirror stream, heartbeats, silence, claims, takeover, and the hub-to-hub path (spec/17 R359, R361-R368, spec/01 R19, R29). -/

namespace Sys2Proof.Machine

open Sys2Proof

/-! ### The pair -/

/-- `i` is the mirror of a running twin pair that follows the stream (R361, R363). -/
def follows (s : State) (i : InstId) : Bool :=
  let x := getInst s i
  running s i && !inReset s i && !x.place.split && !x.rel.active && (x.rel.mirror == .syncing || x.rel.mirror == .current)

/-- Write the mirrored cold records that have changed into the mirror's own Attic, and clear the slots of records that are gone (R363, spec/02 R35). -/
def copyAttic (i : InstId) (old new : Mirrored) (s : State) : State :=
  let x := getInst s i
  let s := new.seqs.foldl (fun s q => if q.r.hot || (findSeq old q.r.localId).map (·.r) == some q.r then s else hbmPut (atticAddr x q.r.localId) (recordBytes q.r) s) s
  old.seqs.foldl (fun s q => if (findSeq new q.r.localId).isNone then hbmPut (atticAddr x q.r.localId) (List.replicate 512 0) s else s) s

/-- The interrupt registers of a mirror: the bits that the stream changes take its values, the others stay as the mirror's own faults and its host have set them (R361, R368, spec/19 R416; DEDUCED, log 41). -/
def irqFollow (last now own : Irq) : Irq :=
  let d := irqStatus last ^^^ irqStatus now
  let e := last.enable ^^^ now.enable
  { irqPut own ((irqStatus own &&& ~~~d) ||| (irqStatus now &&& d)) with enable := (own.enable &&& ~~~e) ||| (now.enable &&& e) }

/-- The mirror applies a message (R361). -/
def applyMirror (i : InstId) (msg : MirrorMsg) (s : State) : State :=
  let old := mir s i
  let s := modInst i (fun x => { x with
    mir := { msg.img with irq := irqFollow x.rel.streamIrq msg.img.irq x.mir.irq }
    hall := { x.hall with events := msg.events, waiting := msg.waiting, nextArrival := msg.nextArrival }
    rel := { x.rel with streamIrq := msg.img.irq, staged := x.rel.staged ++ msg.entries, twinRole := msg.role, twinGen := msg.roleGen, twinSet := msg.outposts } }) s
  copyAttic i old msg.img s

/-- The fourth failure of a message is a fault of the path (R359, R29): the mirror reports it. -/
def pathFault (m : InstId) (s : State) : State := markLost (other m) (mirrorLost m { s with pathUp := false })

/-- MIRROR_MESSAGE at mirror `i`: applied in order and acknowledged; a damaged one is sent again, at most three times (R359, R361). -/
def execMirrorMessage (i : InstId) (bad : Bool) (s : State) : Result :=
  let a := (getInst s (other i)).rel
  match a.streamOut with
  | [] => .next s
  | msg :: rest =>
    if !follows s i || !s.pathUp then .next s
    else if bad then
      if a.resends < 3 then .next (modRel (other i) (fun r => { r with resends := r.resends + 1 }) s) else .next (pathFault i s)
    else
      let s := modRel (other i) (fun r => { r with streamOut := rest, acksDue := r.acksDue + 1, resends := 0 }) s
      let s := countFixed i (min 1 a.resends) s
      .next (applyMirror i msg s)

/-- MIRROR_ACK at active instance `i` (R361, R362): it also counts as a sign of life (R364). -/
def execMirrorAck (i : InstId) (s : State) : Result :=
  let r := (getInst s i).rel
  if !s.pathUp || !r.active || r.acksDue = 0 then .next s
  else .next (modRel i (fun r => { r with acksDue := r.acksDue - 1, lastHeartbeat := s.tick, livenessRead := none }) s)

/-- MIRROR_SYNC_COMPLETE of mirror `i`: it holds the whole state, and nothing of the stream is outstanding (R363). -/
def execMirrorSyncComplete (i : InstId) (s : State) : Result :=
  let y := getInst s (other i)
  if !follows s i || (getInst s i).rel.mirror != .syncing || !activeInst s (other i) || y.rel.mirror != .syncing || !s.pathUp
      || !y.rel.streamOut.isEmpty then .next s
  else
    let msg : MirrorMsg := { img := y.mir, events := y.hall.events, waiting := y.hall.waiting, nextArrival := y.hall.nextArrival, role := y.stair.role, roleGen := y.stair.roleGen, outposts := y.place.outposts }
    .next (modRel (other i) (fun r => { r with mirror := .current }) (modRel i (fun r => { r with mirror := .current }) (applyMirror i msg s)))

/-! ### Signs of life (R361, R364) -/

/-- The heartbeat of instance `i` reaches the other (R361). -/
def heartbeatOf (i : InstId) (s : State) : State :=
  if running s i && !inReset s i && !inReset s (other i) then
    modRel (other i) (fun r => { r with lastHeartbeat := s.tick, livenessRead := none, pathUp := true }) s
  else s

/-- HEARTBEAT: both instances' heartbeats of this tick (R361). -/
def execHeartbeat (s : State) : Result := if s.pathUp then .next (heartbeatOf .B (heartbeatOf .A s)) else .next s

/-- The instance expects its twin to be heard: both run as twins, and the pair's mirror follows. -/
def paired (s : State) (i : InstId) : Bool :=
  let x := getInst s i
  !x.place.split && !(getInst s (other i)).place.split && (x.rel.mirror == .syncing || x.rel.mirror == .current)

/-- HEARTBEAT_LOST: six ticks without a sign of life; a twin reads the other's liveness word (R364, R387 `path_up`). -/
def execHeartbeatLost (i : InstId) (s : State) : Result :=
  let r := (getInst s i).rel
  if !running s i || s.tick < r.lastHeartbeat + 6 then .next s
  else
    let read := if paired s i && r.livenessRead.isNone && !r.claiming then some ((getInst s (other i)).liveness, s.tick) else r.livenessRead
    done i s (modRel i (fun r => { r with pathUp := false, livenessRead := read }) s)

/-- The mirror begins to claim the outposts (R365). -/
def startClaim (i : InstId) (s : State) : State := modRel i (fun r => { r with claiming := true, claims := 0, livenessRead := none }) s

/-- What the second look at the liveness word tells (R364, R29): a silent active instance is taken over by a CURRENT mirror; a silent mirror is LOST; a live one means that the path has failed, which the mirror logs; from then on neither side counts on the other (DEDUCED, log 87). -/
def judge (i : InstId) (silent : Bool) (s : State) : State :=
  let r := (getInst s i).rel
  let o := other i
  if silent then (if !r.active && r.mirror == .current then startClaim i s else markLost o (mirrorLost i s))
  else if r.active then markLost i (mirrorLost o { s with pathUp := false })
  else markLost o (mirrorLost i { s with pathUp := false })

/-- LIVENESS_CHECK: two ticks after the word was read (R364). -/
def execLivenessCheck (i : InstId) (s : State) : Result :=
  match (getInst s i).rel.livenessRead with
  | none => .next s
  | some (v, t) =>
    if !running s i || !paired s i || s.tick < t + 2 then .next s
    else .next (judge i ((getInst s (other i)).liveness == v) s)

/-- FAIL at mirror `i`: it takes over at once (R364). -/
def execFailMsg (i : InstId) (s : State) : Result :=
  let o := other i
  if !(getInst s o).rel.failSent then .next s
  else
    let t := modRel o (fun r => { r with failSent := false }) s
    if s.pathUp && follows s i && (getInst s i).rel.mirror == .current then .next (startClaim i t) else .next t

/-! ### Claims (R365, spec/01 R18, R19) -/

/-- CLAIM: the sequencer of compute die `o` grants the claim (R365). -/
def execClaim (i : InstId) (o : Nat) (s : State) : Result :=
  let x := getInst s i
  if !x.rel.claiming || !running s i || !x.rel.twinSet.getLsbD o then .next s
  else .next (modRel i (fun r => { r with claims := r.claims ||| (1#8 <<< o) }) (modOutpost o (fun y => { y with owner := some i }) s))

/-- An outpost whose channels pass to the claimant: every row of the former owner is discarded, both Larder halves are free (R366 order 3). -/
def claimedOutpost (y : Outpost) : Outpost :=
  { y with rows := [], markers := [], port := [], drawsPending := [], draws := [], fifo := [], upA := [], upB := [], downA := [], downB := [],
           half0Free := true, half1Free := true, selftest := false }

/-- The commit of the rows of a COMMITTING step that are not committed yet, from its mirrored commit set (R366 order 1). -/
def settleStep (i : InstId) (st : Step) (s : State) : State :=
  let left := (commitRows st).filter fun k => !st.committedRows.contains k
  finishStep i st.num (left.foldl (fun s k => commitOne i st.num k s) s)

/-- The Hallway of the new active instance: the mirrored events but for the commits that the takeover makes itself. -/
def takenHall (h : Hallway) : Hallway :=
  let stays (e : Event) : Bool := match e.kind with | .tokenCommit _ _ => false | _ => true
  { h with events := h.events.filter stays, waiting := h.waiting.filter stays }

/-- The codes of commands whose operation ran in a unit of the failed instance that the stream does not carry: they are processed again. -/
def unitCommand (code : Nat) : Bool := [0x90, 0x91, 0x93, 0xB0, 0xB1, 0xC0, 0xC1].contains code

/-- The mirrored mailbox journal as the new active instance carries it on (R366 order 4, spec/13 R282). -/
def carriedOn (m : Mirrored) : Mirrored :=
  { m with mbox := m.mbox.map fun c => if unitCommand c.code then { c with phase := .accepted, timer := none } else c }

def slotOf (f : Flash) (k : Bool) : Option (List Byte) := if k then f.slotB else f.slotA

def putSlot (k : Bool) (b : List Byte) (f : Flash) : Flash := if k then { f with slotB := some b } else { f with slotA := some b }

/-- Programming of an image that is cut short leaves a slot that fails its checks (spec/20 R440). -/
def cutProgram (x : Inst) (f : Flash) : Flash :=
  match x.hearth.imgWrite with
  | some g => if g.programming then putSlot g.slot [] f else f
  | none => f

/-- An image-write or a confirm of the failed instance ends with it, and the grant is given up: its command is processed again (DEDUCED, log 88). -/
def dropFlashOps (o : InstId) (s : State) : State :=
  let mine (w : InstId × FlashUse) : Bool := w.1 == o && w.2 != .dawn
  let f := cutProgram (getInst s o) s.flash
  modHearth o (fun h => { h with imgWrite := none })
    { s with flash := { f with holder := f.holder.filter (!mine ·), waiting := f.waiting.filter (!mine ·) } }

/-- The Hearth's entries of the command-timeout list become the new active instance's own: those of commands carried on, and one for each command of its drive (spec/12 R261, R265). -/
def rearmCores (i : InstId) (s : State) : State :=
  let mine (m : Mirrored) (d : Dusk) : Bool :=
    match d.flow with
    | .unit n => n < 20 || m.mbox.any (·.timer == some d.handle)
    | .seq _ => true
  let s := modMir i (fun m => { m with dusk := m.dusk.filter (mine m) }) s
  let core := (servingCore (getInst s i).hearth 0).getD 0
  (getInst s i).rel.drive.foldl (fun s d =>
    let h := (mir s i).nextHandle
    duskMore i 3 (20 + core) (d.start + driveLimit) (modRel i (fun r => { r with drive := r.drive.map fun e => if e == d then { d with handle := h } else e }) s)) s

/-- The compute dies are told again of killed steps whose acknowledgements may have gone to the failed instance (R366 order 2). -/
def killAgain (i : InstId) (s : State) : State :=
  ((mir s i).kitchen.steps.filter (·.phase == .killed)).foldl (fun s st =>
    { s with notices := s.notices ++ (maskBits 8 st.outposts.toNat).map fun o => (o, false, step24 st.num) }) s

/-- The discovery that a Morning under way waits for begins again; else the peers are told of the new active instance (R366 order 5, spec/16 R355). -/
def tellPeers (i : InstId) (s : State) : State :=
  let x := getInst s i
  if x.mir.kitchen.turn == .morning && x.mir.kitchen.morningStage == 6 then startDiscovery i (.morning (morningCmd x.mir)) s
  else
    let ps := (directed x.mir).foldl (fun l a => addPeer x.mir { addr := a } l) x.stair.peers
    announceAll i (modStair i (fun t => { t with peers := ps }) s)

/-- The credits that the failed instance's uncommitted steps held go back to its pool (spec/01 R28, spec/15 R323); none of them is the new active instance's. -/
def creditsBack (i o : InstId) (s : State) : State :=
  let n := sumNat (((mir s i).kitchen.steps.filter killable).map (·.credits))
  modStair o (fun t => { t with credits := min 64 (t.credits + n) }) (modKit i (fun k => { k with steps := k.steps.map fun st => { st with credits := 0 } }) s)

/-- Rows of uncommitted steps under an ARMED model, as target or draft model: they are rerun before its Midnight (spec/11 R249). -/
def rerunRows (m : Mirrored) : List (Nat × Nat) :=
  (m.kitchen.steps.filter killable).flatMap fun st =>
    let draft (r : StepRow) : List (Nat × Nat) :=
      if r.kind == .draft || r.kind == .draftScore then (st.draftModel.map fun d => (d.1, r.admitNo)).toList else []
    (st.rows.flatMap fun r => (st.model, r.admitNo) :: draft r).filter fun p => (getModel m p.1).stage == .armed

/-- The outpost set of the failed instance passes to the new active one (spec/01 R17, spec/19 R417). -/
def passSet (i : InstId) (s : State) : State :=
  let put (v : BitVec 8) (x : Inst) : Inst := { x with place := { x.place with outposts := v } }
  modInst (other i) (put 0) (modInst i (put (getInst s i).rel.twinSet) s)

/-- The takeover in the order of R366. -/
def takeOver (i : InstId) (s : State) : State :=
  let o := other i
  let s := passSet i s
  let s := (outpostSet s i).foldl (fun s k => modOutpost k claimedOutpost s) s
  let s := modInst i (fun x => { x with
    landing := []
    hall := takenHall x.hall
    mir := carriedOn x.mir
    rel := { x.rel with active := true, mirror := .lost, claiming := false, claims := 0, streamOut := [], acksDue := 0, resends := 0,
                        livenessRead := none, takeovers := satTo 16 (x.rel.takeovers + 1), bulkForced := true } }) s
  let s := rearmCores i (dropFlashOps o s)
  let s := modRel o (fun r => { r with active := r.active && !r.failed, overtaken := true, mirror := .lost, streamOut := [], acksDue := 0, resends := 0 }) s
  let s := creditsBack i o s
  let s := ((mir s i).kitchen.steps.filter (·.phase == .committing)).foldl (fun s st => settleStep i st s) s
  let s := killAgain i s
  let again := rerunRows (mir s i)
  let s := ((mir s i).kitchen.steps.filter killable).foldl (fun s st => killStep i st.num false s) s
  let s := modKit i (fun k => { k with rerun := again }) s
  let s := modStair i (fun t => { t with role := (getInst s i).rel.twinRole, roleGen := nextGen (getInst s i).rel.twinGen }) s
  let n := (getInst s i).rel.staged.length
  let waits := (mir s i).inXfers.any (·.ackWait.isSome)
  let s := modMir i (fun m => { m with inXfers := m.inXfers.map fun t => { t with ackWait := t.ackWait.map fun _ => n } }) s
  let s := modRel i (fun r => { r with flushForced := r.flushForced || waits }) s
  tellPeers i (logFault i 0x0A 0 none 0 0 0 s)

/-- TAKEOVER: every claim of the outpost set has been granted (R366). -/
def execTakeover (i : InstId) (s : State) : Result :=
  let x := getInst s i
  if x.rel.claiming && running s i && (x.rel.claims &&& x.rel.twinSet == x.rel.twinSet) then
    let t := takeOver i s
    endEvent i s (foyerRound i t)
  else .next s

/-- CLAIM_REFUSED: an instance whose outposts its twin has claimed finds its doorbells refused and is FAILED (R360, R365). -/
def execClaimRefused (i : InstId) (s : State) : Result :=
  let x := getInst s i
  if activeInst s i && !x.place.split && s.outposts.any (fun y => y.owner == some (other i)) then
    let t := failInstance i 0x0E (logFault i 0x0E 0 none 0 0 0 s)
    endEvent i s (modRel i (fun r => { r with active := false, mirror := .lost, streamOut := [], acksDue := 0 }) t)
  else .next s

/-! ### The path comes back (R363) -/

/-- Both instances run as twins of one build, one of them active, and the mirror is LOST. -/
def mayResync (s : State) : Bool :=
  running s .A && running s .B && !s.a.place.split && !s.b.place.split && s.a.rel.active != s.b.rel.active
    && s.a.hearth.fwBuild == s.b.hearth.fwBuild && s.a.rel.mirror == .lost && s.b.rel.mirror == .lost

/-- A LOST mirror begins to copy again. -/
def resync (s : State) : State :=
  let f (r : Reliability) : Reliability := { r with mirror := .syncing, lastHeartbeat := s.tick, livenessRead := none, streamOut := [], acksDue := 0, resends := 0 }
  modRel .A f (modRel .B f s)

/-- PATH_RESTORED: heartbeats arrive again, and the mirror goes through SYNCING (R363). -/
def execPathRestored (s : State) : Result :=
  if s.pathUp then .next s
  else
    let t := { s with pathUp := true }
    .next (if mayResync t then resync t else t)

/-! ### Peer-channel credits (spec/15 R323) -/

/-- LINK_CREDITS_RETURNED: credits that committed steps spent come back to the pool (R323). -/
def execLinkCreditsReturned (i : InstId) (n : Nat) (s : State) : Result :=
  done i s (modStair i (fun t =>
    let k := min n t.creditsOut
    { t with credits := t.credits + k, creditsOut := t.creditsOut - k }) s)

end Sys2Proof.Machine
end

