-- ==== Sys2Proof/Machine/Dawn.lean ====
section
/-! DEFINITION. Dawn, the flash die, trims, placement and pairing, image updates, watchdogs (spec/13, spec/01 R15-R27, spec/14 R298, R299). -/

namespace Sys2Proof.Machine

open Sys2Proof

/-! ### The flash grant and the boot record (spec/01 R25, spec/13 R271) -/

/-- A hub die asks for the grant. -/
def askGrant (i : InstId) (u : FlashUse) (s : State) : State := { s with flash := { s.flash with waiting := s.flash.waiting ++ [(i, u)] } }

/-- The grant is given up. -/
def dropGrant (i : InstId) (s : State) : State :=
  match s.flash.holder with
  | some h => if h.1 == i then { s with flash := { s.flash with holder := none } } else s
  | none => s

/-- The bytes that `check` covers: 0x000-0x005 and 0x008-0x00B (R271). -/
def bootCovered (b : BootRecord) : List Byte := leBytes 4 b.magic ++ leBytes 1 b.preferred ++ leBytes 1 b.trial ++ leBytes 4 b.seqno

/-- The record's 4,096 bytes on the flash die (R271). -/
def bootBytes (b : BootRecord) : List Byte :=
  leBytes 4 b.magic ++ leBytes 1 b.preferred ++ leBytes 1 b.trial ++ leBytes 1 b.markA ++ leBytes 1 b.markB ++ leBytes 4 b.seqno ++ leBytes 4 b.check
    ++ List.replicate 4080 0xFF

/-- The record's `magic` and `check` are right (R271). -/
def bootValid (b : BootRecord) : Bool := b.magic == 0x44524342 && b.check == crc32c (bootCovered b)

/-- The boot record as it is read: preferred slot and trial (R271). -/
def bootPreferred (b : BootRecord) : Bool := bootValid b && b.preferred == 1
def bootTrial (b : BootRecord) : Bool := bootValid b && b.trial == 0x5A
/-- The boot record rewritten (R271, R279). -/
def rewriteBoot (pref trial : Nat) (b : BootRecord) : BootRecord :=
  let r : BootRecord := { magic := 0x44524342, preferred := pref, trial := trial, markA := 0xFF, markB := 0xFF, seqno := wrapTo 32 (b.seqno + 1) }
  { r with check := crc32c (bootCovered r) }

def bootMark (b : BootRecord) (i : InstId) : Nat := match i with | .A => b.markA | .B => b.markB

/-- Program an instance's trial mark (R274). -/
def setMark (i : InstId) (b : BootRecord) : BootRecord :=
  match i with
  | .A => { b with markA := 0 }
  | .B => { b with markB := 0 }

/-- Dawn enters a stage: the register and `irq_hearth` (R275, spec/14 R311). -/
def setStage (i : InstId) (st : DawnStage) (s : State) : State :=
  raiseIrq i irqHearth (modHearth i (fun h => { h with stage := st }) s)

/-- The grant for Dawn: the boot record and the first slot, or the second slot (R274). -/
def dawnGrant (i : InstId) (s : State) : State :=
  let h := (getInst s i).hearth
  if h.stage == .rom then
    let b := s.flash.boot
    let p := bootPreferred b
    let mark := bootTrial b && bootMark b i != 0
    let first := if bootTrial b && bootMark b i == 0 then !p else p
    let s := if mark then { s with flash := { s.flash with boot := setMark i b } } else s
    setStage i .read (modHearth i (fun h => { h with firstSlot := first, trying := first, left := [!first] }) s)
  else s

/-- The boot record rewritten with no trial, under the grant, which is then given up (R279, spec/01 R25). -/
def confirmBoot (i : InstId) (cmd : Nat) (s : State) : State :=
  let s := dropGrant i { s with flash := { s.flash with boot := rewriteBoot (bit (bootPreferred s.flash.boot)) 0 s.flash.boot } }
  finishCmd i cmd rOk 0 [] (modHearth .A (fun h => { h with trial := false }) (modHearth .B (fun h => { h with trial := false }) s))

/-- FLASH_GRANT (spec/01 R25): the first hub die that waits receives the grant, and what waited for it proceeds. -/
def execFlashGrant (s : State) : Result :=
  match s.flash.holder, s.flash.waiting with
  | none, (i, u) :: rest =>
    let t : State := { s with flash := { s.flash with holder := some (i, u), waiting := rest } }
    match u with
    | .dawn => .next (dawnGrant i t)
    | .program => .next (modHearth i (fun h => { h with imgWrite := h.imgWrite.map fun g => { g with programming := true } }) t)
    | .confirm cmd => done i s (confirmBoot i cmd t)
  | _, _ => .next s

/-- The ROM tries the other slot, or Dawn ends FAILED (R274). -/
def nextSlot (i : InstId) (s : State) : State :=
  match (getInst s i).hearth.left with
  | k :: rest =>
    let s := modHearth i (fun h => { h with trying := k, left := rest }) s
    askGrant i .dawn (if (getInst s i).hearth.stage == .read then s else setStage i .read s)
  | [] => setStage i .failed s

/-! ### Image checks (spec/13 R272-R274) -/

/-- A section entry at index `k` of the header (R273). -/
def parseSection (b : List Byte) (k : Nat) : Section :=
  let o := 0x100 + 64 * k
  { offset := fld b o 4, size := fld b (o + 4) 4, target := fld b (o + 8) 1, digest := slice b (o + 16) 48 }

def sectionCount (b : List Byte) : Nat := fld b 0x18 4

def parseSections (b : List Byte) : List Section := (List.range (min 16 (sectionCount b))).map (parseSection b)

/-- Limits of one section entry (R273). -/
def sectionOk (size : Nat) (x : Section) : Bool :=
  x.offset % 4096 == 0 && decide (0x1000 ≤ x.offset) && decide (x.offset + x.size ≤ size) && decide (x.target ≤ 5)
    && (if x.target ≤ 3 then decide (x.size ≤ 524288) else if x.target = 4 then decide (x.size ≤ 1048576) else true)

/-- Checks 1 to 4 of R274 in order: the first that fails. -/
def imageFails (b : List Byte) : Option Nat :=
  let size := fld b 8 4
  let secs := parseSections b
  if !(fld b 0 4 == 0x48545248 && fld b 4 2 == 1 && fld b 6 2 == 0x00B0) then some 1
  else if !(size % 4096 == 0 && decide (size ≤ 16777216) && decide (1 ≤ sectionCount b ∧ sectionCount b ≤ 16)
      && decide (1 ≤ fld b 0x14 4 ∧ fld b 0x14 4 ≤ 1000) && secs.all (sectionOk size)
      && disjointAll (secs.map fun x => (x.offset, x.size))) then some 2
  else if sha384 (slice b 0x20 96) != Config.romKeyDigest then some 3
  else if !(secs.all fun x => sha384 (slice b x.offset x.size) == x.digest) then some 4
  else none

/-- Check 6: no reserved field of the header or of a used entry is non-zero (R274). -/
def imageReservedZero (b : List Byte) : Bool :=
  let n := min 16 (sectionCount b)
  fld b 0x1C 4 == 0 && zeros (slice b 0xE0 32) && zeros (slice b 0x500 2816)
    && (List.range n).all (fun k => zeros (slice b (0x109 + 64 * k) 7)) && zeros (slice b (0x100 + 64 * n) (64 * (16 - n)))

/-- What the Hearth keeps of an image (R272). -/
def parseImage (b : List Byte) : ImageInfo :=
  let size := fld b 8 4
  let secs := parseSections b
  { ifMinor := fld b 0x0C 2, ifMajor := fld b 0x0E 2, fwBuild := fld b 0x10 4, watchdogMs := fld b 0x14 4, publicKey := slice b 0x20 96,
    signature := slice b 0x80 96, imageHash := sha384 (zeroAt (slice b 0 size) 0x80 96), reservedZero := imageReservedZero b,
    sections := secs, trims := (secs.filter (·.target == 5)).flatMap fun x => slice b x.offset x.size }

/-- Check 5 (R274). -/
def signatureOk (x : ImageInfo) : Bool := Config.ecdsaP384Verify x.publicKey x.imageHash x.signature

/-- Checks 1 to 6: the first that fails. -/
def checksFail (b : List Byte) : Option Nat :=
  (imageFails b).or (if !signatureOk (parseImage b) then some 5 else if !imageReservedZero b then some 6 else none)

/-- The sections of an image for a target, one behind the other (R273). -/
def sectionsOf (b : List Byte) (secs : List Section) (target : Nat) : List Byte := (secs.filter (·.target == target)).flatMap fun x => slice b x.offset x.size

/-- IMAGE_READ_COMPLETE (R274): the slot's bytes, as the flash die holds them; what no write of this model gave it is the operand. -/
def execImageReadComplete (i : InstId) (img : List Byte) (s : State) : Result :=
  let h := (getInst s i).hearth
  if s.flash.holder != some (i, .dawn) || h.stage != .read then .next s
  else
    let b := (slotOf s.flash h.trying).getD img
    let t := dropGrant i { s with flash := putSlot h.trying b s.flash }
    .next (match imageFails b with
      | some _ => nextSlot i t
      | none => setStage i .verify (modHearth i (fun h => { h with image := parseImage b, sram := (List.range 5).map (sectionsOf b (parseSections b)) }) t))

/-! ### Trims (spec/13 R276) -/

/-- The entries of a trim table. -/
def trimEntries (b : List Byte) : List (Nat × Nat × Nat × Nat) :=
  (List.range (b.length / 16)).map fun k => (fld b (16 * k) 2, fld b (16 * k + 2) 2, fld b (16 * k + 4) 4, fld b (16 * k + 8) 4)

/-- A reserved field of a trim entry is not zero. -/
def trimReserved (b : List Byte) : Bool := (List.range (b.length / 16)).any fun k => fld b (16 * k + 12) 4 != 0

/-- The part whose calibration register an instance's entry names: unit 0 is its own hub part (spec/01 R14). -/
def trimPart (i : InstId) (unit : Nat) : Nat := if unit = 0 && i == .B then 9 else unit

/-- Change bits of a calibration register of a part. -/
def trimOne (e : Nat × Nat × Nat × Nat) (l : List (Nat × Nat × Nat)) : List (Nat × Nat × Nat) :=
  let old := ((l.find? fun x => x.1 == e.1 && x.2.1 == e.2.1).map (·.2.2)).getD 0
  (e.1, e.2.1, ((BitVec.ofNat 32 old &&& ~~~(BitVec.ofNat 32 e.2.2.1)) ||| (BitVec.ofNat 32 e.2.2.2 &&& BitVec.ofNat 32 e.2.2.1)).toNat)
    :: l.filter fun x => !(x.1 == e.1 && x.2.1 == e.2.1)

/-- An entry names a register that exists. -/
def trimKnown (e : Nat × Nat × Nat × Nat) : Bool := decide (e.1 ≤ 8) && Config.calibKnown e.1 e.2.1

/-- Apply the entries in order, counting the others as ignored (R276); both counts stop at the largest value (DESIGN CHOICE, log 124). -/
def applyTrims (i : InstId) (es : List (Nat × Nat × Nat × Nat)) (s : State) : State :=
  let known := es.filter trimKnown
  let s := { s with calib := known.foldl (fun l e => trimOne (trimPart i e.1, e.2) l) s.calib }
  modHearth i (fun h => { h with trimApplied := satTo 16 (h.trimApplied + known.length),
                                 trimIgnored := satTo 16 (h.trimIgnored + (es.length - known.length)) }) s

/-! ### The stages after the read (spec/13 R275) -/

/-- START: the image's identity, the section table, the trims; each core's watchdog is armed (R275). -/
def startImage (i : InstId) (s : State) : State :=
  let x := (getInst s i).hearth
  let g := x.image
  let s := modHearth i (fun h => { h with
    slot := h.trying, fellBack := h.trying != h.firstSlot, trial := bootTrial s.flash.boot && h.trying == bootPreferred s.flash.boot,
    ifMinor := g.ifMinor, ifMajor := g.ifMajor, fwBuild := g.fwBuild, watchdogMs := g.watchdogMs, sectionTable := g.sections, wdog := List.replicate 4 0 }) s
  setStage i .start (applyTrims i (trimEntries g.trims) s)

/-- SIGNATURE_VERIFIED (R274 checks 5 and 6, R275). -/
def execSignatureVerified (i : InstId) (s : State) : Result :=
  let h := (getInst s i).hearth
  if h.stage != .verify then .next s
  else if !(signatureOk h.image && h.image.reservedZero) then .next (nextSlot i s)
  else if trimReserved h.image.trims then .fault (.undefinedCase 12)
  else .next (startImage i s)

/-- CORES_READY (R275): CONFIG begins. -/
def execCoresReady (i : InstId) (s : State) : Result :=
  let h := (getInst s i).hearth
  if h.stage != .start then .next s
  else .next (setStage i .config (modHearth i (fun h => { h with coreUp := 0b1111#4, dawnUs := satTo 32 (s.tick - h.resetTick) }) s))

/-! ### Placement (spec/14 R298, spec/01 R20, spec/05 R101) -/

/-- R20, R101 and R298: the placement is refused with INVALID. -/
def placeInvalid (k frame base size aux : Nat) : Bool :=
  let u := 0x10000
  decide (6 < k) || base % u != 0 || size % u != 0 || size == 0 || decide (2 ^ 40 < base + size)
    || (k != 4 && frame != 0) || (k != 1 && aux != 0) || aux % u != 0
    || match k with
       | 0 => decide (0x80000000 < size)
       | 1 => decide (size < 0x10000000 ∨ 0x400000000 < size)
       | 2 => size != 0x1000000
       | 3 => size != 0x20000000
       | 4 => decide (frame < 16 ∨ 24 < frame) || size % 2 ^ frame != 0 || decide (16777216 < size / 2 ^ frame)
       | 5 => decide (0x100000000 < size)
       | _ => size != 0x4000000

/-- The region as the command gives it. -/
def regionOf (c : MboxCmd) : Region := { base := prm c 8 8, size := prm c 16 8, frameLog2 := prm c 1 1, aux := prm c 24 8 }

/-- PLACE_REGION (R298): after Dawn only in a training turn, and only for regions 2, 3, 5 and 6; the trace buffer not while tracing is on (spec/18 R396). -/
def doPlaceRegion (i : InstId) (c : MboxCmd) (s : State) : Answer × State :=
  let k := prm c 0 1
  let r := regionOf c
  let x := getInst s i
  if placeInvalid k r.frameLog2 r.base r.size r.aux then (aInvalid, s)
  else if x.hearth.stage == .ready && !(x.mir.kitchen.turn == .training && (k == 2 || k == 3 || k == 5 || k == 6)) then (aWrong, s)
  else if k == 5 && x.study.traceOn then (aWrong, s)
  else (aOk, modInst i (fun x => { x with place := { x.place with regions := put k r x.place.regions } }) s)

/-- A region that overlaps another: the KV pool alone is shared by the instances (R20, spec/01 R22; cases 2 and 6 of spec/00 R12). -/
def placeCase (s : State) (i : InstId) (c : MboxCmd) : Option Nat :=
  let k := prm c 0 1
  let r := regionOf c
  let meets (p : Nat × Region) : Bool := rangesMeet r.base r.size p.2.base p.2.size
  let trails := (holders s).flatMap fun x => heldTrails x.mir
  if placeInvalid k r.frameLog2 r.base r.size r.aux then none
  else if trails.any (fun p => rangesMeet r.base r.size p.1 p.2) then some 2
  else if (getInst s i).place.regions.any (fun p => p.1 != k && meets p)
      || (getInst s (other i)).place.regions.any (fun p => !(p.1 == 4 && k == 4) && meets p) then some 2
  else none

/-- PLACE_REGION (spec/14 R298). -/
def execPlaceRegion (i : InstId) (w : Nat) (s : State) : Result := serve i w 0x01 (placeCase s i) (doPlaceRegion i) s

/-- The instance uses a range: what the board drive holds there; what it holds in the range used before stays there (spec/01 R26; DESIGN CHOICE, log 88). -/
def useRange (i : InstId) (r : Nat × Nat × Nat) (s : State) : State :=
  let d := (getInst s i).rel.disk
  if d.range == some r then s
  else
    let board := match d.range with
      | some q => (q, d) :: s.board.filter (·.1 != q)
      | none => s.board
    modRel i (fun x => { x with disk := ((board.find? (·.1 == r)).map (·.2)).getD { range := some r } }) { s with board := board.filter (·.1 != r) }

/-- DRIVE_RANGE (spec/01 R26). -/
def doDriveRange (i : InstId) (c : MboxCmd) (s : State) : Answer × State :=
  let r := (prm c 0 4, prm c 8 8, prm c 16 8)
  (aOk, useRange i r (modInst i (fun x => { x with place := { x.place with drive := some r } }) s))

/-- DRIVE_RANGE (spec/14 R295). -/
def execDriveRange (i : InstId) (w : Nat) (s : State) : Result := serve i w 0x02 noCase (doDriveRange i) s

/-- IDENTITY (R276). -/
def doIdentity (i : InstId) (c : MboxCmd) (s : State) : Answer × State :=
  (aOk, modInst i (fun x => { x with place := { x.place with identityGiven := true, node := prm c 0 2, serial := prm c 8 8 } }) s)

/-- IDENTITY (spec/13 R276): a node id has 13 bits. -/
def execIdentity (i : InstId) (w : Nat) (s : State) : Result := serve i w 0x03 (fun c => overId (prm c 0 2) 8192) (doIdentity i) s

/-- The instance is the active one of the pair after its Dawn: in split mode each is; in twin mode A, unless B has taken over (spec/17 R361). -/
def dawnActive (s : State) (i : InstId) (split : Bool) : Bool := split || (i == .A && !s.b.rel.active)

/-- PAIRING (spec/01 R15, R17): the outposts of the set belong to the active instance. -/
def doPairing (i : InstId) (c : MboxCmd) (s : State) : Answer × State :=
  let mode := prm c 0 1
  let mask := BitVec.ofNat 8 (prm c 1 1)
  let p := (getInst s (other i)).place
  if 1 < mode || !setOk (mode == 1) mask (if p.pairingGiven then p.outposts else 0) then (aInvalid, s)
  else
    let owns := dawnActive s i (mode == 1)
    let s := (List.range 8).foldl (fun s o => modOutpost o (fun x =>
      if owns && mask.getLsbD o then (if x.owner.isNone then { x with owner := some i } else x)
      else if x.owner == some i then { x with owner := none } else x) s) s
    (aOk, modInst i (fun x => { x with place := { x.place with pairingGiven := true, split := mode == 1, outposts := mask } }) s)

/-- PAIRING (spec/01 R15). -/
def execPairing (i : InstId) (w : Nat) (s : State) : Result := serve i w 0x04 noCase (doPairing i) s

/-- HOST_TRIMS (R276): the table is what the operand gives, zero beyond it. -/
def doHostTrims (i : InstId) (table : List Byte) (c : MboxCmd) (s : State) : Answer × State :=
  let n := prm c 8 4
  if 4096 < n then (aInvalid, s)
  else
    let es := trimEntries (slice table 0 (16 * n))
    let known := (es.filter trimKnown).length
    (.now rOk 0 (leBytes 4 known ++ leBytes 4 (es.length - known)), applyTrims i es s)

/-- The host's table as it was written, and reserved fields of its entries (spec/00 R12). -/
def trimsCase (s : State) (table : List Byte) (c : MboxCmd) : Option Nat :=
  let b := slice table 0 (16 * prm c 8 4)
  if 4096 < prm c 8 4 then none
  else (hostWriteCase s (prm c 0 8) b).or (if trimReserved b then some 12 else none)

/-- HOST_TRIMS (spec/13 R276). -/
def execHostTrims (i : InstId) (w : Nat) (table : List Byte) (s : State) : Result :=
  serve i w 0x05 (trimsCase s table) (doHostTrims i table) s

/-- Everything that DAWN_COMPLETE needs has been given (spec/14 R299). -/
def placed (p : Place) : Bool :=
  [0, 1, 2, 3, 4, 6].all (fun k => (look k p.regions).isSome) && p.drive.isSome && p.identityGiven && p.pairingGiven

/-- The base of the Cellar's firmware copy (spec/17 R371). -/
def copyBase (x : Inst) : Nat :=
  match look 1 x.place.regions with
  | some r => r.base + r.aux
  | none => 0

/-- The running slot's image is written into the Cellar (R275, spec/17 R371). -/
def copyFirmware (i : InstId) (s : State) : State :=
  let x := getInst s i
  let b := (slotOf s.flash x.hearth.slot).getD []
  hbmPut (copyBase x) (slice b 0 (fld b 8 4)) (modHearth i (fun h => { h with cellarCopy := true }) s)

/-- DAWN_COMPLETE (spec/14 R299, spec/17 R371): DISCOVERY begins, with the known-answer tests of the instance's outposts (R275). -/
def doDawnComplete (i : InstId) (c : MboxCmd) (s : State) : Answer × State :=
  let x := getInst s i
  if !placed x.place then (aWrong, s)
  else if arrivalBytes x < 0x1000000 then (aInvalid, s)
  else
    let s := setStage i .discovery (copyFirmware i s)
    let s := (outpostSet s i).foldl (fun s o => modOutpost o (fun y => if y.owner == some i then { y with selftest := true } else y) s) s
    (.later, startDiscovery i (.dawn c.id) s)

/-- DAWN_COMPLETE (spec/14 R299). -/
def execDawnComplete (i : InstId) (w : Nat) (s : State) : Result := serve i w 0x06 noCase (doDawnComplete i) s

/-! ### The end of discovery (spec/16 R343) -/

/-- Mirroring begins, or is lost, once both twins are READY (spec/17 R363, spec/13 R278). -/
def pairUp (i : InstId) (s : State) : State :=
  let j := other i
  let x := getInst s i
  let y := getInst s j
  if x.place.split || y.place.split || !running s j || x.rel.active == y.rel.active then s
  else if x.hearth.fwBuild == y.hearth.fwBuild then
    modRel i (fun r => { r with mirror := .syncing, lastHeartbeat := s.tick }) (modRel j (fun r => { r with mirror := .syncing, lastHeartbeat := s.tick }) s)
  else
    let m := if x.rel.active then j else i
    modRel (other m) (fun r => { r with mirror := .lost }) (mirrorLost m s)

/-- READY (R275): the result of DAWN_COMPLETE, the role, the mirror. -/
def openDawn (i : InstId) (cmd : Nat) (s : State) : State :=
  let act := dawnActive s i (getInst s i).place.split
  let s := setStage i .ready (finishCmd i cmd rOk 0 [] s)
  let s := modRel i (fun r => { r with active := act, lastHeartbeat := s.tick }) s
  pairUp i (if act then setRole i 1 s else s)

/-- Discovery ends: its peers have answered or have been given up, and no known-answer test runs. -/
def discoveryDone (s : State) (i : InstId) : Bool :=
  let x := getInst s i
  x.stair.discovery != .none && x.stair.peers.all (fun p => !p.asked)
    && !((outpostSet s i).any fun o => (s.outposts.getD o {}).owner == some i && (s.outposts.getD o {}).selftest)

/-- What discovery was for goes on (R275, spec/11 R247). -/
def afterDiscovery (i : InstId) (s : State) : State :=
  let d := (getInst s i).stair.discovery
  let s := modStair i (fun t => { t with discovery := .none }) s
  match d with
  | .none => s
  | .dawn cmd => openDawn i cmd s
  | .morning _ => openMorning i s

/-- DISCOVERY_COMPLETE (spec/16 R343). -/
def execDiscoveryComplete (i : InstId) (s : State) : Result :=
  if discoveryDone s i && onDuty s i 3 then endEvent i s (afterDiscovery i s) else .next s

/-- DISCOVERY_TIMEOUT: 2,000 ticks have passed; silent peers are not reachable (spec/16 R343). -/
def execDiscoveryTimeout (i : InstId) (s : State) : Result :=
  let t := (getInst s i).stair
  if t.discovery == .none || s.tick < t.discoveryTick + 2000 || !onDuty s i 3 then .next s
  else
    let u := modStair i (fun t => { t with peers := t.peers.map fun p => if p.asked then { p with asked := false, reachable := false } else p }) s
    endEvent i s (if discoveryDone u i then afterDiscovery i u else u)

/-! ### Watchdogs (spec/13 R280-R283) -/

/-- Expiries of a core within 1,000,000 ticks. -/
def recentExpiries (h : Hearth) (tick core : Nat) : Nat := (h.expiries.filter fun e => e.1 == core && decide (tick < e.2 + 1000000)).length

/-- A core is fenced at its third expiry; with all four, the Hearth has failed (R283). -/
def fenceCore (i : InstId) (core : Nat) (s : State) : State :=
  let s := modHearth i (fun h => { h with coreFenced := h.coreFenced ||| (1#4 <<< core) }) s
  let s := logFault i 0x05 9 none core 0 0 s
  if (getInst s i).hearth.coreFenced == 0b1111#4 then instFault i 0x06 9 core 0 0 true s else s

/-- The core runs: core 0 from the ROM on, all of them from START on, then those in service (R274, R275). -/
def coreRuns (h : Hearth) (core : Nat) : Bool :=
  match h.stage with
  | .rom | .read | .verify => core == 0
  | .start => decide (core < 4)
  | .failed => false
  | _ => h.coreUp.getLsbD core

/-- A core's watchdog runs out: armed at START, and not kicked for `watchdog_ms` × 1,000 ticks (R275, R280). -/
def wdogRunsOut (h : Hearth) (core : Nat) : Bool :=
  h.stage != .rom && h.stage != .read && h.stage != .verify && decide (h.watchdogMs * 1000 ≤ h.wdog.getD core 0)

/-- WATCHDOG_EXPIRY (R281, R283): by the count, or by an uncorrectable error in the core's local SRAM (R280). The flash grant stays with an instance whose Dawn fails so (DESIGN CHOICE, log 123). -/
def execWatchdogExpiry (i : InstId) (loss : CoreLoss) (s : State) : Result :=
  let h := (getInst s i).hearth
  let core := loss.core
  if inReset s i || !coreRuns h core || !(loss.sram || wdogRunsOut h core) then .next s
  else
    let t := modHearth i (fun h => { h with
      wdogExpired := h.wdogExpired ||| (1#4 <<< core), coreUp := h.coreUp &&& ~~~(1#4 <<< core), expiries := h.expiries ++ [(core, s.tick)],
      wdog := h.wdog.set core 0, sram := h.sram.set core [] }) s
    let t := raiseIrq i irqHearth (ringPush i (8 + core) (0x028 + core) 3 0 [] t)
    if !h.cellarCopy then done i s (setStage i .failed t)
    else if 3 ≤ recentExpiries (getInst t i).hearth s.tick core then endEvent i s (fenceCore i core t)
    else done i s (modHearth i (fun h => { h with restarts := satTo 32 (h.restarts + 1) }) t)

/-- A core's sections in the Cellar's copy, and whether each has its digest of the locked section table (R281). -/
def coreCopy (s : State) (i : InstId) (core : Nat) : List (List Byte × Bool) :=
  let x := getInst s i
  (x.hearth.sectionTable.filter (·.target == core)).map fun e =>
    let b := memGets s.hbm (copyBase x + e.offset) e.size
    (b, sha384 b == e.digest)

/-- CORE_RESTART_DONE (R281): the core's section is copied from the Cellar and checked, and the core is back in service; one that fails its check stays out (DESIGN CHOICE, log 88). -/
def execCoreRestartDone (i : InstId) (core : Nat) (s : State) : Result :=
  let h := (getInst s i).hearth
  let copy := coreCopy s i core
  if h.cellarCopy && h.stage != .failed && !h.coreUp.getLsbD core && !h.coreFenced.getLsbD core && copy.all (·.2) then
    done i s (modHearth i (fun h => { h with coreUp := h.coreUp ||| (1#4 <<< core), wdog := h.wdog.set core 0, sram := h.sram.set core (copy.flatMap (·.1)) }) s)
  else .next s

/-! ### Uncorrectable errors (spec/17 R359, R360) -/

/-- A context fault of the sequence's context (spec/15 R332 cause 3). -/
def eccSeq (i : InstId) (lid : Nat) (s : State) : State :=
  match findSeq (mir s i) lid with
  | some q => askFault i q.r.context 3 s
  | none => s

/-- The HBM address of a failing read, which no rule fixes (spec/17 R388; DESIGN CHOICE, log 2). -/
def readAddr (s : State) : Nat × State :=
  let f := takeFree s
  (f.1 % 2 ^ 40, f.2)

/-- A failing HBM read of a sequence's record, trail or prompt (spec/17 R359, R388). -/
def eccHbm (i : InstId) (lid : Nat) (s : State) : State :=
  match findSeq (mir s i) lid with
  | some q => eccSeq i lid (faultAt i q.r.context (readAddr s).1 (readAddr s).2)
  | none => s

/-- An instance-level error: also before READY, until the instance is held in reset or has failed (R280, spec/17 R360). -/
def eccFatal (i : InstId) (code unit addr : Nat) (s : State) : State :=
  if inReset s i || (getInst s i).rel.failed || (getInst s i).hearth.stage == .failed then s else instFault i code unit 0 0 addr true s

/-- UNCORRECTABLE_ECC (spec/17 R359): contained at the level of what it struck; what belongs to sequences and steps is there while the instance runs. -/
def execUncorrectableEcc (i : InstId) (site : EccSite) (s : State) : Result :=
  match site with
    | .hbmShared => endEvent i s (eccFatal i 0x08 0 (readAddr s).1 (readAddr s).2)
    | .hubTable => endEvent i s (eccFatal i 0x07 0 0 s)
    | .hearthShared => endEvent i s (eccFatal i 0x06 9 0 s)
    | .parlour lid => if !running s i then .next s else endEvent i s (if (seqOf s i lid).r.hot then eccSeq i lid s else s)
    | .hbmOfSequence lid => if !running s i then .next s else endEvent i s (eccHbm i lid s)
    | .hbmStepBuffer n => if !running s i then .next s else endEvent i s (killStep i n false s)

/-! ### Image updates (spec/13 R279) -/

/-- IMAGE_WRITE (R279): the operation waits for the grant. -/
def doImageWrite (i : InstId) (img : List Byte) (c : MboxCmd) (s : State) : Answer × State :=
  let n := prm c 8 4
  if 16777216 < n then (aInvalid, s)
  else if bootTrial s.flash.boot || s.a.hearth.imgWrite.isSome || s.b.hearth.imgWrite.isSome then (aWrong, s)
  else
    let g : ImgWrite := { cmd := c.id, slot := !(getInst s i).hearth.slot, prefer := tbit (prm c 12 4) 0, img := slice img 0 n }
    (.later, askGrant i .program (modHearth i (fun h => { h with imgWrite := some g }) s))

/-- Flags above [0] are reserved; the host's image as it was written (spec/00 R12). -/
def imageCase (s : State) (img : List Byte) (c : MboxCmd) : Option Nat :=
  (tooWide (prm c 12 4) 1).or (if 16777216 < prm c 8 4 then none else hostWriteCase s (prm c 0 8) (slice img 0 (prm c 8 4)))

/-- IMAGE_WRITE (spec/13 R279). -/
def execImageWrite (i : InstId) (w : Nat) (img : List Byte) (s : State) : Result := serve i w 0xC0 (imageCase s img) (doImageWrite i img) s

/-- IMAGE_PROGRAM_DONE (R279): the slot is checked and, if asked, put on trial, all under the grant; a die that failed the operation gives IO_ERROR. -/
def execImageProgramDone (i : InstId) (ok : Bool) (s : State) : Result :=
  match (getInst s i).hearth.imgWrite with
  | none => .next s
  | some g =>
    if !g.programming then .next s
    else
      let t := modHearth i (fun h => { h with imgWrite := none }) { s with flash := putSlot g.slot (if ok then g.img else []) s.flash }
      let t := if ok && g.prefer && (checksFail g.img).isNone then { t with flash := { t.flash with boot := rewriteBoot (bit g.slot) 0x5A t.flash.boot } } else t
      let t := dropGrant i t
      if !ok then done i s (finishCmd i g.cmd rIoError 0 [] t)
      else match checksFail g.img with
        | some k => done i s (finishCmd i g.cmd rCheckFailed k [] t)
        | none => done i s (finishCmd i g.cmd rOk 0 [] t)

/-- FIRMWARE_CONFIRM (R279): the rewrite is an erase-and-program operation, which waits for the grant (spec/01 R25). -/
def doFirmwareConfirm (i : InstId) (c : MboxCmd) (s : State) : Answer × State := (.later, askGrant i (.confirm c.id) s)

/-- FIRMWARE_CONFIRM (spec/13 R279). -/
def execFirmwareConfirm (i : InstId) (w : Nat) (s : State) : Result := serve i w 0xC1 noCase (doFirmwareConfirm i) s

end Sys2Proof.Machine
end

