-- ==== Sys2Proof/Machine/Restore.lean ====
section
/-! DEFINITION. RESTORE: when it is accepted, its checks against the replica, and the instance that it rebuilds from the superblock, the bulk image and the journal (spec/17 R380-R385, spec/08 R191, spec/16 R358). -/

namespace Sys2Proof.Machine

open Sys2Proof

/-! ### The command (R380) -/

/-- A model that has live sequences in the journal exceeds the outpost set's limit (R380, spec/01 R16). -/
def imageTooWide (s : State) (i : InstId) (im : DurImage) : Bool :=
  im.models.any fun p => decide (instVocabLimit s i < p.2.vocabMax) && im.seqs.any fun q => q.r.model == p.1 && q.r.state.live

/-- No context open, every model EMPTY, not the mirror of a running twin, no restore under way (R380). -/
def restoreOpen (s : State) (i : InstId) : Bool :=
  let x := getInst s i
  x.mir.ctxs.all (!·.isOpen) && x.mir.dir.models.all (·.state == .empty) && (x.place.split || x.rel.active || !running s (other i))
    && x.rel.restore != .running

/-- RESTORE (R380): its reads go to the drive (spec/01 R27). -/
def doRestore (i : InstId) (c : MboxCmd) (s : State) : Answer × State :=
  let x := getInst s i
  if !restoreOpen s i then (aWrong, s)
  else if x.rel.driveFailed then (.now rIoError 0 [], s)
  else if ((curSuper x.rel.disk).any fun b => b.split != x.place.split) || ((curSuper x.rel.disk).isSome && imageTooWide s i (replayed x.rel.disk)) then (aInvalid, s)
  else (.later, driveIssue i (.restore c.id) false
    (modRel i (fun r => { r with restore := .running, restoreCheck := 0, restoreCmd := some c.id, restoreForce := tbit (prm c 0 4) 0 }) s))

/-- RESTORE (R380): flags above [0] are reserved. -/
def execRestore (i : InstId) (w : Nat) (s : State) : Result := serve i w 0x91 (fun c => tooWide (prm c 0 4) 1) (doRestore i) s

/-! ### The digest comparison (R382) -/

/-- The step has been reached by the replay: a STEP entry of the ring, or the last step of the image. -/
def stepReached (d : Disk) (n : Nat) : Bool := (ringEntries d).any (isStep n) || ((curSlot d).map (·.image.lastStep)) == some n

/-- The replica answers over the hub-to-hub path. -/
def replicaReached (s : State) (i : InstId) : Bool :=
  s.pathUp && !inReset s (other i) && (getInst s (other i)).hearth.stage == .ready && (getInst s (other i)).place.drive.isSome

/-- The outcome of R382's table: the failed check, or VERIFIED or UNVERIFIED. -/
inductive Finding where
  | verified | unverified | check (n : Nat)
  deriving DecidableEq, Repr

/-- The comparison at the latest common step (R382). -/
def compareDigest (s : State) (i : InstId) : Finding :=
  let x := getInst s i
  let d := x.rel.disk
  let mine := ((getInst s (other i)).rel.disk.digestLog.map fun p => digestRead p.2).filter fun p => p.2.2 == peerAddr x
  let common := (mine.filter fun p => stepReached d p.1).foldl (fun (b : Option (Nat × BitVec 384)) p => match b with
    | some q => if q.1 ≤ p.1 then some (p.1, p.2.1) else some q
    | none => some (p.1, p.2.1)) none
  if !replicaReached s i then .unverified
  else match common with
    | none => .unverified
    | some (n, g) =>
      if g != digestAt d n then .check 3
      else if mine.any (fun p => decide ((replayed d).lastStep < p.1)) then .check 4 else .verified

/-! ### What is rebuilt (R383, R384) -/

/-- Source code of a trail entry (spec/02 R48). -/
def entrySource (e : List Byte) : Nat := fld e 6 2 % 8

/-- The cursor that the trail gives: its RESIDUAL and BONUS entries, modulo 2^24 (spec/08 R184, R191). -/
def trailCursor (q : ImgSeq) : Nat :=
  wrapTo 24 ((trailEntries (slice q.trail 0 (16 * q.r.committedLen))).filter fun e => entrySource e == 4 || entrySource e == 5).length

/-- One cursor is one round ahead of its trail; another differs otherwise (spec/08 R191). -/
def cursorAhead (q : ImgSeq) : Bool := q.r.state.live && q.r.drawSlotCursor == wrapTo 24 (trailCursor q + 1)
def cursorOther (q : ImgSeq) : Bool := q.r.state.live && q.r.drawSlotCursor != trailCursor q && !cursorAhead q

/-- The state in which a restored sequence stands: with its KV released, the running states continue by the resume rule (R383, spec/02 R39); a migration whose transfer is gone returns as it left. -/
def restoredState (kept : Bool) (r : Record) : SeqState :=
  if r.state.composed then resumeNext r true
  else if r.state == .migrating && !kept then (if r.returnState == .parked || r.returnState == .paused then r.returnState else resumeNext r true)
  else r.state

/-- The first entry after the crossing is still to come (spec/11 R241). -/
def crossOwed (q : ImgSeq) : Bool := crossOwedBy q.r (fld q.trail (16 * (q.r.committedLen - 1) + 4) 2)

/-- The stop block of a sequence among the restored buffers. -/
def stopOfImg (im : DurImage) (r : Record) : List Byte := ((im.bufs.filter fun b => b.addr == r.stopBlockAddr && b.data.length == 640).getLast?.map (·.data)).getD []

/-- The record of R383: cold, KV released, no pages, the cursor of its trail, the stop digests computed again (spec/02 R44). -/
def restoredRecord (im : DurImage) (kept : Bool) (q : ImgSeq) : Record :=
  let r : Record := { q.r with
    hot := false, kvState := .released, kvLen := 0, pageListAddr := 0, pageCount := 0, sharedPages := 0, planSlot := 0xFF,
    duskHandles := List.replicate 4 noHandle, drawSlotCursor := if q.r.state.live then trailCursor q else q.r.drawSlotCursor, draftLen := 0
    stopSeqDigest := stopDigests q.r.stopSeqCount (stopOfImg im q.r) }
  { r with state := restoredState kept r }

/-- The transfers that resume: migrations of restored sequences, and forwards whose descriptor has been handed over (R383, spec/16 R358). -/
def keptOut (im : DurImage) : List OutXfer :=
  im.outXfers.filter fun t => if t.forward then t.stage == .handover
    else t.stage != .failed && im.seqs.any fun q => q.r.localId == t.lid && q.r.state == .migrating

/-- The requests of a context's defer queue that stay, each with the forward that has been handed over and resumes (spec/16 R351, R358). -/
def keptDefer (im : DurImage) (c : Nat) (ds : List Deferred) : List Deferred :=
  ((keptOut im).filter fun t => t.forward && t.context == c).filterMap fun t =>
    (ds.find? fun d => some d.req == t.req).map fun d => { d with fwd := some (t.subject - 2 ^ 63), blocks := false }

/-- The requests of a defer queue that a restore rejects: the others (R384). -/
def lostDefer (im : DurImage) (c : Nat) (ds : List Deferred) : List Deferred :=
  (keptDefer im c ds).foldl (fun l k => match l.find? (fun d => d.req == k.req) with | some d => l.erase d | none => l) ds

/-- The sequences that are restored: not those that were still arriving. -/
def keptSeqs (im : DurImage) : List ImgSeq :=
  im.seqs.filter fun q => q.r.state != .free && decide (q.r.model < 64)
    && !(q.r.state == .migrating && im.inXfers.any fun t => !t.forward && !t.handedOver && t.lid == q.r.localId)

/-- A sequence as it is restored. -/
def restoredSeq (im : DurImage) (tick : Nat) (p : ImgSeq × Nat) : Seq :=
  let r := restoredRecord im ((keptOut im).any fun t => !t.forward && t.lid == p.1.r.localId) p.1
  { r := r, auxTopN := p.1.auxTopN, touched := tick, admitNo := p.2, passed := r.state != .admitted, crossPending := crossOwed p.1 }

/-- A household of restored members: nothing of its charge is allocated (spec/03 R56). -/
def restoredHouse (dir : List Model) (seqs : List Seq) (h : Nat) : Household :=
  let ms := seqs.filter (·.r.household == h)
  let r := ((ms.find? (·.r.leader)).getD (ms.headD {})).r
  let P := 2 ^ (dir.getD r.model {}).pageSizeLog2
  let alive := (ms.filter (·.r.state.live)).length
  let share := chargeShare r.cls r.promptLen r.trailCapacity P
  let pre := chargePrefix r.promptLen P
  { id := h, leader := r.localId, context := r.context, cls := r.cls, model := r.model, promptLen := r.promptLen, capacity := r.trailCapacity,
    prefixPages := pre, share := share, unalloc := if alive = 0 then 0 else pre + share * alive }

/-- A model as it is restored: DESCRIBED, or REFUSED where the outpost set cannot hold its vocabulary; a staged epoch is STAGED (R383). -/
def restoredModel (lim : Nat) (md : Model) : Model :=
  { md with state := if lim < md.vocabMax then .refused else .described, stage := if md.stage == .none then .none else .staged, noSlotClaim := false }

/-- A context as it is restored (R384), with the requests that wait for the answer to their HANDOVER (spec/16 R358). -/
def restoredCtx (im : DurImage) (c : Nat) (x : Ctx) : Ctx :=
  { cfg := x.cfg, isOpen := true, sqHead := x.sqHead, sqTail := x.sqHead, cqHead := x.cqHead, cqTail := x.cqHead, stream := x.stream,
    cqHold := decide (16384 < x.stream.length), irqCount := x.irqCount, irqTicks := x.irqTicks, adm := x.adm, row := x.row, hbm := x.hbm,
    defer := keptDefer im c x.defer }

/-- The arrivals whose buffers restored sequences hold (spec/16 R349). -/
def restoredArrivals (x : Inst) (recipes : List Recipe) (seqs : List Seq) : List (Nat × Nat) :=
  let inArea (a : Nat) : Bool := decide (arrivalBase x ≤ a) && decide (a < arrivalBase x + 0x10000 * arrivalBlocks x)
  ((seqs.filter fun q => inArea q.r.promptAddr).map fun q =>
    let rc := (recipes.find? (·.id == q.r.recipe)).getD {}
    (q.r.promptAddr, arrivalNeed (4 * q.r.promptLen) (if q.r.stopSeqCount = 0 then 0 else 640) q.r.trailCapacity (recipeStride rc) q.r.siblings)).eraseDups

/-- The mirrored state that the image gives: the last number assigned is the last restored step plus 2^24, so that the first step after it has one more (DESIGN CHOICE, log 93). The Hearth's cores put their entries of the command-timeout list in again (spec/12 R265). -/
def restoredMir (x : Inst) (tick : Nat) (im : DurImage) : Mirrored :=
  let m := x.mir
  let seqs := (keptSeqs im).zipIdx.map (restoredSeq im tick)
  let models := (List.range 64).map fun k => match look k im.models with
    | some md => restoredModel (vocabLimit x.place.outposts) md
    | none => {}
  { m with
    ctxs := (List.range 16).map fun c => match look c im.ctxs with | some y => restoredCtx im c y | none => {}
    seqs := seqs
    households := (seqs.map (·.r.household)).eraseDups.map (restoredHouse models seqs)
    foyer := { m.foyer with c0Sequences := im.c0Sequences, c0Pages := im.c0Pages, nextAdmit := seqs.length, forwarded := [] }
    dir := { models := models }
    recipes := im.recipes
    lib := { registry := im.registry }
    kitchen := { m.kitchen with turn := if im.training then .training else .service, quiesced := im.training, stepAssigned := im.lastStep + 2 ^ 24,
                                stepCommitted := im.lastStep, steps := [], lastCommitted := [], raises := [] }
    latches := (List.range 256).map fun k => match look k im.latches with
      | some l => { maxHold := l.maxHold, enable := l.enable, models := l.models }
      | none => {}
    dusk := m.dusk.filter fun d => match d.flow with | .unit n => decide (20 ≤ n) | .seq _ => false
    outXfers := (keptOut im).map fun t => { t with cmd := none, lastProgress := tick, lastSend := tick }
    inXfers := (im.inXfers.filter (·.handedOver)).map fun t => { t with ackWait := none }
    nextForward := im.outXfers.foldl (fun n t => if t.forward then max n (wrapTo 32 (t.subject - 2 ^ 63 + 1)) else n) m.nextForward
    directions := im.directions
    arrivals := restoredArrivals x im.recipes seqs }

/-- A buffer belongs to a restored sequence. -/
def bufHeld (seqs : List Seq) (b : ImgBuf) : Bool :=
  seqs.any fun q => (decide (q.r.promptAddr ≤ b.addr) && decide (b.addr < q.r.promptAddr + 4 * q.r.promptLen))
    || (q.r.stopSeqCount != 0 && b.addr == q.r.stopBlockAddr)

/-- Trails, auxiliary entries, prompts and stop blocks are rewritten at the addresses in the records; the records go to the Attic (R383). What a held terminal leader has released is not written (spec/02 R52). -/
def rewriteBuffers (i : InstId) (im : DurImage) (s : State) : State :=
  let seqs := (mir s i).seqs
  let s := (im.bufs.filter (bufHeld seqs)).foldl (fun s b => hbmPut b.addr b.data s) s
  let s := ((keptSeqs im).filter (·.r.state.live)).foldl (fun s q =>
    let s := hbmPut q.r.trailAddr (slice q.trail 0 (16 * q.r.committedLen)) s
    if q.r.auxAddr = 0 then s else hbmPut q.r.auxAddr (slice q.aux 0 (auxStride q.auxTopN * q.r.committedLen)) s) s
  seqs.foldl (fun s q => writeAttic i q.r.localId s) s

/-- Every request of a defer queue is rejected WITHDRAWN, after the stream's records (R384), but for those whose forward resumes (spec/16 R358). -/
def withdrawAll (i : InstId) (im : DurImage) (s : State) : State :=
  (List.range 16).foldl (fun s c => match look c im.ctxs with
    | none => s
    | some y => writeShadow i c ((lostDefer im c y.defer).foldl (fun s d => journal i [.deferDel c d.req.hostTag] (postReject i c d.req 42 s)) s)) s

/-- Deadline entries from the records, the timers of resumed transfers, and the warming of the sequences that run (R383, spec/12 R265). -/
def restartSeqs (i : InstId) (s : State) : State :=
  let st := (getInst s i).stair
  let s := ((mir s i).seqs.filter (·.r.state.live)).foldl (fun s q => retime i q.r.localId s) s
  let s := ((mir s i).outXfers.filter (!·.forward)).foldl (fun s t =>
    let s := duskSet i 1 t.lid (s.tick + st.retryTicks) s
    if t.stage == .handover then s else duskSet i 3 t.lid (s.tick + st.timeoutTicks) s) s
  ((mir s i).seqs.filter fun q => mustBeHot (mir s i) q).foldl (fun s q => postSeq i q.r.localId (.warm 8) (wantModel i q.r.localId s)) s

/-- Stage 5 (R383, R384): the instance is rebuilt, RESTORE is logged. -/
def rebuild (i : InstId) (im : DurImage) (outcome : RestoreState) (check : Nat) (s : State) : State :=
  let s := modInst i (fun x => { x with mir := restoredMir x s.tick im }) s
  let s := rewriteBuffers i im s
  let s := withdrawAll i im s
  let role := if im.training then 2 else 1
  let s := if (getInst s i).stair.role = role then raiseGen i s else setRole i role s
  let s := restartSeqs i s
  let s := modRel i (fun r => { r with restore := outcome, restoreCheck := check, restoredStep := im.lastStep, bulkBegan := s.tick, restoreCmd := none }) s
  foyerRound i (logFault i 0x0D 0 none check 0 0 s)

/-- A restore that fails changes nothing (R381). -/
def restoreFails (i : InstId) (cmd check : Nat) (s : State) : State :=
  finishCmd i cmd rCheckFailed check [] (modRel i (fun r => { r with restore := .failed, restoreCheck := check, restoreCmd := none }) s)

/-- The current bulk image has the digest that the superblock gives (R381 stage 2). -/
def digestRight (d : Disk) : Bool := (curSlot d).map slotDigest == (curSuper d).map Superblock.digest

/-- The counts of R191, as the result gives them. -/
def cursorData (im : DurImage) : List Byte :=
  leBytes 4 ((keptSeqs im).filter cursorAhead).length ++ leBytes 4 ((keptSeqs im).filter cursorOther).length

/-- The trail of a restored sequence overlaps another buffer given to Shapa: case 2 of spec/00 R12 (R386); a trail in the arrival area lies there rightly (spec/16 R349). -/
def restoreClash (s : State) (i : InstId) : Bool :=
  let x := getInst s i
  let y := getInst s (other i)
  let area (a : Nat) : Bool := decide (arrivalBase x ≤ a) && decide (a < arrivalBase x + 0x10000 * arrivalBlocks x)
  let live := x.mir.seqs.filter (·.r.state.live)
  let fixed := [s.a, s.b].flatMap regionRanges ++ planImages x.mir (fun _ => true) ++ heldInputs x.mir
    ++ if y.rel.active && y.place.split then planImages y.mir (fun _ => true) ++ heldRanges y.mir else []
  live.any fun q => !area q.r.trailAddr &&
    (fixed ++ (trailsOfSeq q).drop 1 ++ (x.mir.seqs.filter (·.r.localId != q.r.localId)).flatMap trailsOfSeq).any fun b => rangesMeet q.r.trailAddr (16 * q.r.trailCapacity) b.1 b.2

/-- RESTORE_COMPLETE: replay and comparison have ended (R381-R384). -/
def execRestoreComplete (i : InstId) (s : State) : Result :=
  let r := (getInst s i).rel
  match r.restoreCmd with
  | none => .next s
  | some cmd =>
    if !running s i || r.restore != .running then .next s
    else
      let im := replayed r.disk
      let u := opDone i (· == .restore cmd) s
      let finish (o : RestoreState) (check : Nat) : Result :=
        let t := rebuild i im o check u
        if restoreClash t i then .fault (.undefinedCase 2) else endEvent i s (finishCmd i cmd rOk 0 (cursorData im) t)
      let stop (check : Nat) : Result := done i s (restoreFails i cmd check u)
      if (curSuper r.disk).isNone then stop 1
      else if !digestRight r.disk then stop 2
      else match compareDigest s i with
        | .verified => finish .verified 0
        | .unverified => finish .unverified 0
        | .check n => if r.restoreForce then finish .forced n else stop n

end Sys2Proof.Machine
end

