-- ==== Sys2Proof/Machine/Study.lean ====
section
/-! DEFINITION. The Study's commands: TRACE and the trace's own timers (spec/18 R393-R396), COUNTERS (R407), WATCH (R403-R405), the wait-for graph (R398, R399), the beginning and the acknowledgement of a dump (R400, R402). -/

namespace Sys2Proof.Machine

open Sys2Proof

/-! ### TRACE (R396) -/

/-- Write out the whole FIFO and answer the TRACE that disabled tracing (R396). -/
def drainTrace (i : InstId) (s : State) : State :=
  match (getInst s i).study.draining with
  | none => s
  | some cmd =>
    let s := traceBurst i (getInst s i).study.fifo.length s
    finishCmd i cmd rOk 0 [] (modStudy i (fun y => { y with draining := none }) s)

/-- Tracing begins: indices 0, the mask, a SYNC record (R396); a drain still in progress ends first (DEDUCED, log 61). -/
def startTrace (i : InstId) (mask : Nat) (s : State) : State :=
  let s := modStudy i (fun y => { y with traceOn := true, traceMask := mask, traceWp := 0, traceRp := 0 }) (drainTrace i s)
  traceAdd i (syncRec s i) s

/-- TRACE (R396). -/
def doTrace (i : InstId) (c : MboxCmd) (s : State) : Answer × State :=
  let x := getInst s i
  let en := prm c 0 1
  let mask := prm c 4 4
  if decide (1 < en) || decide (1024 ≤ mask) then (aInvalid, s)
  else if en = 1 then
    if x.study.traceOn then (aOk, modStudy i (fun y => { y with traceMask := mask }) s)
    else if traceCap x = 0 then (aWrong, s)
    else (aOk, startTrace i mask s)
  else if x.study.traceOn then (.later, modStudy i (fun y => { y with traceOn := false, draining := some c.id }) (drainTrace i s))
  else (aOk, s)

/-- TRACE (R396). -/
def execTrace (i : InstId) (w : Nat) (s : State) : Result := serve i w 0xB1 noCase (doTrace i) s

/-- TRACE_DRAINED (R396): the last record is visible, and the result is written. -/
def execTraceDrained (i : InstId) (s : State) : Result := done i s (drainTrace i s)

/-- TRACE_SYNC (R393): a SYNC record at a tick divisible by 65,536. -/
def execTraceSync (i : InstId) (s : State) : Result :=
  if (getInst s i).study.traceOn && s.tick % 65536 == 0 then done i s (traceAdd i (syncRec s i) s) else .next s

/-! ### COUNTERS (R407) -/

/-- The banks of a mask's engines in ascending order; engines 21 to 31 read as zero (R406, R407). -/
def counterBytes (y : Study) (mask : Nat) : List Byte := (maskBits 32 mask).flatMap fun e => bankBytes (y.banks.getD e {})

/-- COUNTERS (R407). -/
def doCounters (i : InstId) (c : MboxCmd) (s : State) : Answer × State :=
  let mask := prm c 0 4
  let a := prm c 8 8
  if mask = 0 || !outputOk a then (aInvalid, s)
  else
    let bs := counterBytes (getInst s i).study mask
    (.now rOk 0 (leBytes 4 bs.length), hbmPut a bs s)

/-- COUNTERS (R407). -/
def execCounters (i : InstId) (w : Nat) (s : State) : Result :=
  serve i w 0xB2 (fun c => if prm c 0 4 = 0 then none else outCase s 8 (256 * popCount 32 (prm c 0 4)) c) (doCounters i) s

/-! ### WATCH (R403, R405) -/

/-- Bytes of a tensor for a vocabulary (R403). -/
def tensorSize (vocab tensor : Nat) (wide : Bool) : Nat :=
  match tensor with
  | 0 => if wide then 4 * vocab else 2 * vocab
  | 1 => 4 * vocab
  | 2 => 8 * vocab
  | 3 => ceilDiv vocab 512 * 64
  | _ => 128

/-- Bytes of the tensor that a WATCH names, under the epoch its sequence has now (R403; DEDUCED, log 62). -/
def watchSize (m : Mirrored) (r : Record) (tensor : Nat) : Nat :=
  tensorSize (((epochOf (getModel m r.model) r.epoch).map (·.vocab)).getD 0) tensor (getModel m r.model).wide

/-- WATCH (R405): a watch is armed; its result is written at the commit of its row. -/
def doWatch (i : InstId) (c : MboxCmd) (s : State) : Answer × State :=
  let x := getInst s i
  let pos := prm c 4 4
  let tensor := prm c 8 1
  let size := prm c 0x18 4
  if 5 ≤ tensor || !outputOk (prm c 0x10 8) then (aInvalid, s)
  else match namedSeq x.mir (winCtx c.window) (prm c 0 4) with
    | none => (aNotFound, s)
    | some q =>
      let need := watchSize x.mir q.r tensor
      if decide (pos < seqT q.r) || decide (4 ≤ (x.study.watches.filter (·.context == winCtx c.window)).length)
          || !(q.r.state.live || q.r.state == .free) then (aWrong, s)
      else if size < need then (.now rFull need [], s)
      else (.later, modStudy i (fun y => { y with watches := y.watches ++
        [{ cmd := c.id, context := winCtx c.window, lid := q.r.localId, position := pos, tensor := tensor, addr := prm c 0x10 8, size := size }] }) s)

/-- Reserved bits of the local id, an output buffer that overlaps what Shapa holds. -/
def watchCase (s : State) (c : MboxCmd) : Option Nat := (tooWide (prm c 0 4) 22).or (outCase s 0x10 (prm c 0x18 4) c)

/-- WATCH (R405). -/
def execWatch (i : InstId) (w : Nat) (s : State) : Result := serve i w 0xB0 (watchCase s) (doWatch i) s

/-! ### The wait-for graph (R398, R399) -/

/-- The unit that a T command waits for (R398). -/
def waitUnit (code : Nat) : Option Nat :=
  if code = 0x80 || code = 0x81 || code = 0x22 then some 0x020
  else if code = 0xA0 then some 0x026
  else if code = 0x90 || code = 0x91 then some 0x02C
  else if code = 0xB0 then some 0x02F
  else none

/-- A window's edges: to its core while a command of it is accepted and not started, to the units its T commands wait for. -/
def commandEdges (x : Inst) : List Edge :=
  x.mir.mbox.filterMap fun c =>
    match c.phase with
    | .accepted => (servingCore x.hearth (winCtx c.window)).map fun k => { src := 0x040 + c.window, dst := 0x028 + k, reason := 12, object := c.code, since := c.acceptTick }
    | .issued => (waitUnit c.code).map fun u => { src := 0x040 + c.window, dst := u, reason := 0, object := c.code, since := c.startTick }

/-- The command whose peers discovery waits for: MORNING's, or Dawn's DAWN_COMPLETE (spec/16 R343). -/
def discoveryCode (x : Inst) : Nat := if x.mir.kitchen.turn == .morning then 0x81 else 0x06

/-- A core's edges: its next command waits for a flush at its bound, the Porch is held, the Dawn or Morning that it serves waits for its peers, the events of the command in hand stand behind commits for which the mirror has not answered (R398, spec/12 R259, spec/13 R284, spec/16 R343, spec/17 R362). -/
def coreEdges (s : State) (i : InstId) : List Edge :=
  let x := getInst s i
  let lead (l : List MboxCmd) : List (Nat × MboxCmd) := (List.range 4).filterMap fun k =>
    (firstBy (cmdBefore x.mir) (l.filter fun c => servingCore x.hearth (winCtx c.window) == some k)).map (k, ·)
  let waiting := lead (x.mir.mbox.filter (·.phase == .accepted))
  let held : List Edge := waiting.filterMap fun p =>
    if intakeFull 2 x.hall then some { src := 0x028 + p.1, dst := 0x027, reason := 8, object := p.2.code, since := p.2.acceptTick }
    else if flushAtBound s i && servingCore x.hearth 0 == some p.1 && !c0Cmd x.mir p.2 then
      some { src := 0x028 + p.1, dst := 0x02C, reason := 10, object := p.2.code, since := p.2.acceptTick }
    else none
  let asking : List Edge := if x.stair.discovery == .none then [] else
    ((servingCore x.hearth 12).map fun k => { src := 0x028 + k, dst := 0x026, reason := 14, object := discoveryCode x, since := x.stair.discoveryTick }).toList
  let behind : List Edge := if mirrorBehind s i && x.mir.kitchen.steps.any (·.phase == .committing) then
    (lead (x.mir.mbox.filter fun c => c.phase == .issued && decide (0 < c.outstanding))).map fun p => { src := 0x028 + p.1, dst := 0x02E, reason := 11, object := p.2.code, since := p.2.startTick }
    else []
  held ++ asking ++ behind

/-- A context's edges to latches: a candidate of it is passed over for the latch (R398). -/
def latchWaitEdges (m : Mirrored) (tick : Nat) : List Edge :=
  m.seqs.flatMap fun q =>
    if q.r.state.composed && (stepOfSeq m q.r.localId).isNone then
      (latchBlocks m q.r.model q.r.context).map fun k => { src := 0x080 + q.r.context, dst := 0x100 + k, reason := 13, object := (getLatch m k).holder, since := tick }
    else []

/-- A latch's edge to its owner while it is held and waited for (R398). -/
def latchOwnerEdges (m : Mirrored) (tick : Nat) : List Edge :=
  m.latches.zipIdx.filterMap fun p =>
    if p.1.held && p.1.waiting then some { src := 0x100 + p.2, dst := 0x080 + p.1.owner, reason := 13, since := tick } else none

/-- The edges from and to latches at a tick (R398). -/
def latchEdges (m : Mirrored) (tick : Nat) : List Edge := latchWaitEdges m tick ++ latchOwnerEdges m tick

/-- The same edge: source, target, reason. -/
def sameEdge (a b : Edge) : Bool := a.src == b.src && a.dst == b.dst && a.reason == b.reason

/-- One edge for each pair and reason, the one of the longest wait. -/
def mergeEdges (l : List Edge) : List Edge :=
  l.foldl (fun acc e => match acc.find? (sameEdge e) with
    | none => acc ++ [e]
    | some o => if e.since < o.since then acc.map fun a => if sameEdge a e then e else a else acc) []

/-- A latch wait has lasted since the tick from which the Study follows it (DEDUCED, log 63). -/
def keepSince (old : List Edge) (e : Edge) : Edge :=
  match old.find? (sameEdge e) with
  | some o => if e.reason = 13 then { e with since := o.since } else e
  | none => e

def edgeBefore (a b : Edge) : Bool := decide (a.src < b.src) || (a.src == b.src && decide (a.dst < b.dst))

/-- The graph at a moment: at most 340 edges in ascending order (R398). -/
def waitGraph (s : State) (i : InstId) : List Edge :=
  let x := getInst s i
  let tick := s.tick
  let l := commandEdges x ++ coreEdges s i ++ (latchEdges x.mir tick).map (keepSince x.study.latchWaits)
  (sortBy edgeBefore (mergeEdges l)).take 340

/-- Drop the edges whose target has no edge of its own, again and again: what is left holds every cycle. -/
def peelEdges : Nat → List Edge → List Edge
  | 0, l => l
  | n + 1, l => peelEdges n (l.filter fun e => l.any (·.src == e.dst))

/-- The edges contain a cycle. -/
def hasCycle (l : List Edge) : Bool := !(peelEdges l.length l).isEmpty

/-- Build the graph: `cycle` is set where two consecutive builds hold the same cycle, and clears at the first build without one (R399). -/
def buildGraph (i : InstId) (s : State) : State :=
  let x := getInst s i
  let g := waitGraph s i
  let again := hasCycle (g.filter fun e => x.study.graph.any (sameEdge e))
  let s := modStudy i (fun y => { y with graph := g, graphTick := s.tick, cycle := again || (y.cycle && hasCycle g) }) s
  if again then setCause i causeCycle s else s

/-- A build is due: none has been made since the last tick that 1,000 divides, which the instance has seen (R399). -/
def graphDue (s : State) (i : InstId) : Bool :=
  let x := getInst s i
  decide (max x.study.graphTick x.hearth.resetTick / 1000 ≠ s.tick / 1000)

/-- GRAPH_BUILD: every 1,000 ticks, by core 2 or its cover core once no command waits at it (R399, spec/13 R269, R284). -/
def execGraphBuild (i : InstId) (s : State) : Result :=
  if graphDue s i && onDuty s i 2 && !commandWaitsAt s i 2 false then done i s (buildGraph i s) else .next s

/-! ### Waits (R391-R394, spec/12 R260) -/

/-- The Kitchen's waits: for a die's completion notice, for the journal at a commit point, for the mirror at a commit (R390). -/
def kitchenWaits (s : State) (i : InstId) : List Edge :=
  let x := getInst s i
  let about (ph : List Phase) : List Step := x.mir.kitchen.steps.filter fun st => ph.contains st.phase
  let dies := (about [.issued, .landing]).flatMap fun st =>
    ((maskBits 8 st.outposts.toNat).filter fun o => !st.completed.contains o).map fun o => ({ src := 0x020, dst := 0x030 + o, reason := 1, object := step24 st.num } : Edge)
  let on (c : Bool) (ph : Phase) (dst reason : Nat) : List Edge := if c then (about [ph]).map fun st => { src := 0x020, dst := dst, reason := reason, object := step24 st.num } else []
  dies ++ on (commitHeld x) .sampled 0x02C 10 ++ on (mirrorBehind s i) .committing 0x02E 11

/-- Why the Landing waits for an outpost's summary of a row: the blocks of its draws, the other outposts' summaries being there, a resample or a parity re-request (R390, spec/08 R188). -/
def landingReason (s : State) (r : LandRow) (o : Nat) : Option Nat :=
  if r.stage == .mass && !drawsReady (getOutpost s o) r.su o then some 3
  else if !r.sums.isEmpty then some 9
  else if r.stage == .max && (decide (0 < r.resamples) || !r.parities.isEmpty) then some 15
  else none

/-- The Landing's waits for the outposts that have not answered (R390). -/
def landingWaits (s : State) (i : InstId) : List Edge :=
  (getInst s i).landing.flatMap fun r =>
    if r.stage == .done || r.stage == .pairWait then []
    else ((landOuts r).filter fun o => !(r.sums.any (·.1 == o))).filterMap fun o =>
      (landingReason s r o).map fun k => { src := 0x021, dst := 0x038 + o, reason := k, object := r.su.h.step % 2 ^ 24 }

/-- A lane group's wait over a row: for RACE blocks from its own core, for a class-map slice out of HBM, for the die's rewriting of a slice; the lowest code (R390, spec/07 R158, spec/08 R188, spec/10 R225). -/
def groupWait (x : Outpost) (o g : Nat) (r : OutRow) : Option Edge :=
  let edge (dst reason : Nat) : Edge := { src := 0x200 + 32 * o + g, dst := dst, reason := reason, object := r.su.h.step % 2 ^ 24 }
  let racing := r.stage == .racePass || (r.stage == .maxPass && raceInMax r.su)
  let lacksKey := (outIds r.su o).any fun v =>
    let l := procLane (rowFences x r.su.h) r.su v
    l / 16 == g && !holdsBlock x r.su.h l kindRace (raceBlock r.su.recipe.race16 v)
  let lacksMap := match r.su.plan with
    | none => false
    | some p => (rowLanes r.su o).any fun l => l / 16 == g && !(x.maps.any fun m => m.plan == p.1 && m.lanes.contains l)
  if racing && lacksKey then some (edge (0x200 + 32 * o + g) 3)
  else if r.stage == .maxPass && lacksMap then some (edge 0x02D 4)
  else if (r.rereq.map (· / 16)) == some g then some (edge (0x030 + o) 15)
  else none

/-- A row's wait at its Larder: for the wave from the die, for the Landing's decision after a pass (R390). -/
def larderWait (x : Outpost) (o : Nat) (r : OutRow) : Option Edge :=
  let edge (dst reason : Nat) : Edge := { src := 0x038 + o, dst := dst, reason := reason, object := r.su.h.step % 2 ^ 24 }
  match r.stage with
  | .setup => if r.rereq.isNone && !(x.markers.any fun m => m.1 == r.su.h.step && m.2.1 == r.su.h.wave) then some (edge (0x030 + o) 1) else none
  | .maxSent | .massSent | .roundSent | .keptSent | .residSent | .raceSent | .locateSent => some (edge 0x021 9)
  | .maxPass | .massPass | .roundPass | .keptPass | .residPass | .racePass | .locatePass => none

/-- The waits of the lane groups and Larders of an instance's outposts (R389, R390). -/
def outpostWaits (s : State) (i : InstId) : List Edge :=
  (outpostSet s i).flatMap fun o =>
    let x := getOutpost s o
    let rows := x.rows.filter fun r => r.inst == i && !r.killed
    rows.filterMap (larderWait x o) ++ rows.flatMap fun r => (List.range 32).filterMap fun g => groupWait x o g r

/-- A deferred request's wait: for the turn, for pages, for its plan, for the peer that it is offered to; the lowest code (R390, spec/03 R58). -/
def deferWait (x : Inst) (c : Nat) (d : Deferred) : Option Edge :=
  let w := deferWhy x c d.arrivalNo d.req
  let edge (dst reason : Nat) : Edge := { src := 0x022, dst := dst, reason := reason }
  if d.fwd.isSome then some (edge 0x026 14)
  else if w.turn then some (edge 0x020 0)
  else if w.pages then some (edge 0x023 5)
  else if w.plan then some (edge 0x024 7)
  else none

/-- The waits of the Foyer, the Pantry (for a victim's usher), the Library (for a cache line, for its fetches out of HBM) and the Stairwell (for a peer's answer, which has no unit code but the Stairwell's) (R389, R390; DESIGN CHOICE, log 108). -/
def serviceWaits (x : Inst) : List Edge :=
  let evicting := x.hall.events.filter fun e => e.kind == .evictPark
  (List.range 16).flatMap (fun c => (getCtx x.mir c).defer.filterMap (deferWait x c)) ++
  evicting.map (fun e => { src := 0x023, dst := e.usher, reason := 0 }) ++
  (if x.mir.lib.demand.isEmpty then [] else [{ src := 0x024, dst := 0x024, reason := 7 }]) ++
  (if x.mir.lib.slots.any (·.plan.isNone) then [{ src := 0x024, dst := 0x02D, reason := 6 }] else []) ++
  (if x.mir.outXfers.any (·.stage != .failed) then [{ src := 0x026, dst := 0x026, reason := 14 }] else [])

/-- The ushers' waits: a commit that the mirror has not acknowledged (R390, spec/17 R362). -/
def usherWaits (s : State) (i : InstId) : List Edge :=
  if !mirrorBehind s i then []
  else (getInst s i).hall.events.filterMap fun e => match e.kind, e.flow with
    | .tokenCommit _ _, .seq l => some { src := e.usher, dst := 0x02E, reason := 11, object := l }
    | _, _ => none

/-- A die's wait at the Larder port (spec/07 R157). -/
def portWaits (s : State) (i : InstId) : List Edge :=
  (outpostSet s i).filterMap fun o =>
    let y := s.outposts.getD o {}
    let marked := y.port.filterMap fun p => match p with
      | .marker st _ => some st
      | .granule _ _ => none
    if y.owner == some i && !y.port.isEmpty then some { src := 0x030 + o, dst := 0x038 + o, reason := 2, object := marked.headD 0 % 2 ^ 24 } else none

/-- The unit code of an intake queue's source; the Internal queue's sources wait under the intake's own code (R389; DESIGN CHOICE, log 108). -/
def sourceUnit (k : Nat) : Nat := [0x020, 0x021, 0x025, 0x026].getD k 0x027

/-- What a held source's wait is about: the Kitchen's step in COMMITTING, the step of the Landing's first row (R391). -/
def sourceObject (x : Inst) (k : Nat) : Nat :=
  if k = 0 then (((x.mir.kitchen.steps.find? (·.phase == .committing)).map fun st => step24 st.num)).getD 0
  else if k = 1 then ((x.landing.head?).map fun r => r.su.h.step % 2 ^ 24).getD 0
  else 0

/-- Sources that a full intake queue holds (spec/12 R260). -/
def sourceWaits (x : Inst) : List Edge :=
  x.hall.intakes.zipIdx.filterMap fun p => if p.1.heldSince.isSome then some { src := sourceUnit p.2, dst := 0x027, reason := 8, object := sourceObject x p.2 } else none

/-- The waits under way at a tick (R391; which waits the model shows: DESIGN CHOICE, log 108). -/
def waitsNow (s : State) (i : InstId) : List Edge :=
  let x := getInst s i
  (kitchenWaits s i ++ landingWaits s i ++ portWaits s i ++ outpostWaits s i ++ serviceWaits x ++ usherWaits s i ++ sourceWaits x ++ commandEdges x ++ coreEdges s i ++
    latchWaitEdges x.mir s.tick).eraseDups

/-- The same wait. -/
def sameWait (a b : Edge) : Bool := sameEdge a b && a.object == b.object

/-- Study cycles of an instance as a count that does not wrap. -/
def studyCount (s : State) (i : InstId) : Nat := 500 * (s.tick - (getInst s i).hearth.resetTick)

/-- The record of a wait that ended at a cycle (R391). -/
def waitRec (e : Edge) (at' : Nat) : TraceRec :=
  { time := at' % 2 ^ 48, kind := 1, reason := e.reason, waiter := e.src, holder := e.dst, duration := min 0xFFFFFF (max 1 (at' - e.since)), object := e.object }

/-- A record is kept: its waiter's class is traced, and the wait lasted `trace_min` (R393). -/
def keepsWait (s : State) (i : InstId) (r : TraceRec) : Bool :=
  (match waiterClass r.waiter with
    | some k => traces s i k
    | none => false) && decide (max 1 (mir s i).traceMin ≤ r.duration)

/-- Waits that began and ended in the tick now past, at cycles of it that the implementation knows (R391, R393; DESIGN CHOICE, log 108). -/
def noteWaits (i : InstId) (s : State) : State :=
  let now := waitsNow s i
  let old := (getInst s i).study.waits
  let cycle (k : Nat) : Nat := studyCount s i - Config.freeNat (s.free + k) % 500
  let kept := now.zipIdx.map fun p => match old.find? (sameWait p.1) with
    | some o => { p.1 with since := o.since }
    | none => { p.1 with since := cycle p.2 }
  let ended := (old.filter fun o => !(now.any (sameWait o))).zipIdx.map fun p => waitRec p.1 (cycle (now.length + p.2))
  let recs := sortBy (fun a b => decide (a.time < b.time)) (ended.filter (keepsWait s i))
  let latched := (latchEdges (mir s i) s.tick).map (keepSince (getInst s i).study.latchWaits)
  let s := modStudy i (fun y => { y with waits := kept, latchWaits := latched }) { s with free := s.free + now.length + old.length }
  recs.foldl (fun s r => traceAdd i r s) s

/-- Waiters whose every wait the model shows. -/
def followed (u : Nat) : Bool := u == 0x020 || decide (0x028 ≤ u ∧ u < 0x02C) || decide (0x040 ≤ u ∧ u < 0x090)

/-- TRACE_WAIT_LIMIT (R393): a wait reaches 0xFF_FFFF Study cycles, is recorded where its waiter's class is traced, and goes on as a new one; a wait inside a unit that the model does not show is as the row tells, under the lowest code of those that apply to its waiter and object (R390; DESIGN CHOICE, log 108). -/
def execTraceWaitLimit (i : InstId) (waiter holder reason object : Nat) (s : State) : Result :=
  let e : Edge := { src := waiter, dst := holder % 2 ^ 12, reason := reason % 16, object := object % 2 ^ 24 }
  let put (r : TraceRec) (s : State) : State := if keepsWait s i r then traceAdd i r s else s
  match (getInst s i).study.waits.find? (sameWait e) with
  | some w =>
    let lim := w.since + 0xFFFFFF
    if studyCount s i + 500 ≤ lim then .next s
    else
      let t := modStudy i (fun y => { y with waits := y.waits.map fun v => if v == w then { v with since := lim } else v }) s
      done i s (put (waitRec w lim) t)
  | none =>
    let also := ((getInst s i).study.waits.filter fun w => w.src == waiter && w.object == e.object).map (·.reason)
    if followed waiter then .next s else done i s (put { waitRec { e with reason := also.foldl min e.reason } (studyCount s i) with duration := 0xFFFFFF } s)

/-- TRACE_BURST_TIMEOUT (R394): a partial burst is written once no record has arrived for 4,096 Study cycles. -/
def execTraceBurstTimeout (i : InstId) (s : State) : Result :=
  let y := (getInst s i).study
  if studyTime s i + 500 ≤ y.lastRec + 4096 then .next s else done i s (traceBurst i y.fifo.length s)

/-! ### Beginning and acknowledging a dump (R400, R402) -/

/-- A live dump begins unless one is being written, a fatal one is held, no core is in service or no dump area is placed (R400, R402). -/
def requestDump (i : InstId) (s : State) : State :=
  let x := getInst s i
  if x.study.dumpState == 1 || (x.study.dumpState != 0 && x.study.dumpFatal) || x.hearth.coreUp == 0 || (look 6 x.place.regions).isNone then s
  else modStudy i (fun y => { y with dumpState := 1, dumpFatal := false, dump := some { fatal := false, code := 0, index := 0, began := s.tick } }) s

/-- The held dump is released (R402). -/
def ackDump (i : InstId) (s : State) : State :=
  let y := (getInst s i).study
  if y.dumpState == 2 || y.dumpState == 3 then modStudy i (fun y => { y with dumpState := 0, dumpFatal := false, dump := none }) s else s

end Sys2Proof.Machine
end

