-- ==== Sys2Proof/Machine/Clock.lean ====
section
/-! DEFINITION. Resets and the passing of time: power, block resets, the tick, the liveness word (spec/20 R433-R440, spec/19 R418, R419, spec/15 R318). -/

namespace Sys2Proof.Machine

open Sys2Proof

/-! ### Resets (spec/20 R433-R436) -/

/-- An instance after a power-on reset: its range of the board drive is untouched (R433). -/
def coldInst (x : Inst) : Inst := { id := x.id, rel := { disk := x.rel.disk } }

/-- The flash die's contents, as a reset of both instances leaves them (R433, R440). -/
def flashKept (s : State) : Flash :=
  let f := cutProgram s.b (cutProgram s.a s.flash)
  { boot := f.boot, slotA := f.slotA, slotB := f.slotB }

/-- POWER_ON_RESET (R435): the flash die and the board drive are untouched, the host's own memory is not the package's; the commands that wait and the model's counter of free values stand. -/
def execPowerOnReset (s : State) : Result :=
  .next { State.reset with
    a := coldInst s.a
    b := coldInst s.b
    flash := flashKept s
    host := s.host
    board := s.board
    free := s.free
    pending := s.pending }

/-- POWER_LOSS (R440): every island stops; what is not in the flash die or durable on the drive is gone. -/
def execPowerLoss (s : State) : Result :=
  .next { State.reset with
    powered := false
    a := coldInst s.a
    b := coldInst s.b
    flash := { flashKept s with waiting := [] }
    cap := { inResetA := true, inResetB := true }
    host := s.host
    board := s.board
    free := s.free
    pending := s.pending }

/-- An outpost and compute die at a block reset of instance `i`: its own are emptied and belong to neither; of the others only the instance's view is reset (R436 step 2). -/
def resetOutpost (i : InstId) (x : Outpost) : Outpost :=
  let y : Outpost := match i with
    | .A => { x with faultA := false, fenceRefusedA := false, upA := [], downA := [] }
    | .B => { x with faultB := false, fenceRefusedB := false, upB := [], downB := [] }
  if x.owner == some i then
    { larder := x.larder, faultA := y.faultA, faultB := y.faultB, fenceRefusedA := y.fenceRefusedA, fenceRefusedB := y.fenceRefusedB }
  else y

/-- The capability's view of a block reset that begins (R434). -/
def capReset (i : InstId) (cause tick : Nat) (c : ResetCap) : ResetCap :=
  match i with
  | .A => { c with inResetA := true, causeA := cause, sinceA := tick }
  | .B => { c with inResetB := true, causeB := cause, sinceB := tick }

/-- The flash grant, and the wait for it, are dropped (R436 step 3, spec/01 R25). -/
def flashReset (i : InstId) (f : Flash) : Flash :=
  { f with holder := if (f.holder.map (·.1)) == some i then none else f.holder, waiting := f.waiting.filter (·.1 != i) }

/-- The calibration registers that a block reset leaves: those of the other hub part and of the outposts that the instance does not own (R433). -/
def calibKept (i : InstId) (s : State) : List (Nat × Nat × Nat) :=
  s.calib.filter fun e => if e.1 = 0 ∨ e.1 = 9 then e.1 != trimPart i 0 else (getOutpost s (e.1 - 1)).owner != some i

/-- Steps 1 to 3 of R436; an instance that is held already stays as it is (R434). -/
def blockReset (i : InstId) (cause : Nat) (s : State) : State :=
  if !s.powered || inReset s i then s
  else
    let s := { s with flash := cutProgram (getInst s i) s.flash }
    let s := modInst i (fun x => { coldInst x with rel := { disk := x.rel.disk, bulkBegan := s.tick } }) s
    { s with calib := calibKept i s, outposts := s.outposts.map (resetOutpost i), cap := capReset i cause s.tick s.cap, flash := flashReset i s.flash }

/-- The four words of the reset control's capability (R434): the extended capability's header and the vendor-specific one, whose bits stand as PCI Express lays them out (PRESUMED, log 111), then the write-only control and the reset state. -/
def capWord (c : ResetCap) (off : Nat) : Nat :=
  match off with
  | 0x00 => 0x000B + 2 ^ 16 * (Config.capChain % 2 ^ 16)
  | 0x04 => 0x5348 + 2 ^ 16 * 1 + 2 ^ 20 * 0x010
  | 0x0C => bit c.inResetA + 2 * bit c.inResetB + 2 ^ 2 * (c.causeA % 4) + 2 ^ 4 * (c.causeB % 4)
  | _ => 0

/-- BLOCK_RESET (R436), as the reset control asks for it. -/
def execBlockReset (i : InstId) (s : State) : Result := .next (blockReset i 1 s)

/-- FUNCTION_LEVEL_RESET (R433): both instances. -/
def execFunctionLevelReset (s : State) : Result := .next (blockReset .B 2 (blockReset .A 2 s))

/-- RESET_CONTROL_WRITE (R434). -/
def execResetControlWrite (a b : Bool) (s : State) : Result :=
  let s := if a then blockReset .A 1 s else s
  .next (if b then blockReset .B 1 s else s)

/-- The tick at which a held instance's reset began. -/
def resetSince (s : State) : InstId → Nat
  | .A => s.cap.sinceA
  | .B => s.cap.sinceB

/-- After 10 µs the instance is released and its Dawn begins at the ROM stage, waiting for the flash grant (R436 step 4). -/
def releaseReset (i : InstId) (s : State) : State :=
  if inReset s i && decide (resetSince s i + 10 ≤ s.tick) then
    let c := s.cap
    let cap : ResetCap := match i with
      | .A => { c with inResetA := false }
      | .B => { c with inResetB := false }
    modHearth i (fun h => { h with resetTick := s.tick }) { s with cap := cap, flash := { s.flash with waiting := s.flash.waiting ++ [(i, .dawn)] } }
  else s

/-- LIVENESS_ADVANCE: the word of an instance whose island runs (spec/19 R419). -/
def execLivenessAdvance (i : InstId) (s : State) : Result :=
  if inReset s i then .next s else .next (modInst i (fun x => { x with liveness := wrapTo 32 (x.liveness + 1) }) s)

/-! ### What a tick charges (spec/15 R318, spec/02 R40) -/

/-- A bucket rises by its rate and never exceeds its capacity (spec/15 R316, R318). -/
def refillBucket (b : Bucket) : Bucket :=
  { b with level := if (65536 * b.capacity : Nat) ≤ b.level then b.level else min (65536 * (b.capacity : Nat) : Int) (b.level + (b.rate : Nat)) }

/-- The three buckets of an open context. -/
def refillCtx (x : Ctx) : Ctx := if x.isOpen then { x with adm := refillBucket x.adm, row := refillBucket x.row, hbm := refillBucket x.hbm } else x

/-- A tick of the wall budget passes in the states of R40 (spec/02 R40). -/
def chargeWall (q : Seq) : Seq := if q.r.state.runsWall then { q with wall := q.wall + 1 } else q

/-- The rows that a sequence waits for: it is eligible but for regulators and latches, and not composed (spec/02 R45). -/
def waitsForRow (x : Inst) (hbm : Mem) (tick : Nat) (q : Seq) : Bool :=
  eligibleRecord x tick q && givesRows x.mir hbm q

/-- A bucket holds its rows back (spec/15 R331). -/
def bucketHeld (x : Inst) (hbm : Mem) (q : Seq) : Bool :=
  let rs := candidateRows x.mir hbm q x.mir.kitchen.chunkLimit (effPrefillOf x.mir)
  !permitted x q { lid := q.r.localId, rows := rs.1, draftModel := rs.2 } []

/-- The wait of one sequence for one tick (spec/02 R45, spec/15 R331). -/
def countWait (x : Inst) (hbm : Mem) (m : Mirrored) (q : Seq) : Mirrored :=
  let reg := bucketHeld x hbm q
  let lat := !(latchBlocks x.mir q.r.model q.r.context).isEmpty
  let m := mapSeq q.r.localId (fun q => { q with r := { q.r with waitTicks := q.r.waitTicks + 1 } }) m
  { m with ctxs := modAt m.ctxs q.r.context fun c => { c with acct := { c.acct with
      rowWaitTicks := c.acct.rowWaitTicks + 1
      regulatorWaitTicks := c.acct.regulatorWaitTicks + bit reg
      latchWaitTicks := c.acct.latchWaitTicks + bit lat } } }

/-- What a tick charges to the records and contexts of a composing instance. -/
def chargeTick (x : Inst) (hbm : Mem) (tick : Nat) : Mirrored :=
  let m := x.mir
  let m := { m with ctxs := m.ctxs.map refillCtx, seqs := m.seqs.map chargeWall }
  (x.mir.seqs.filter (waitsForRow x hbm tick)).foldl (countWait x hbm) m

/-- A bucket of admissions has risen while a request waits for it (spec/03 R63). -/
def admRose (x y : Mirrored) : Bool :=
  (List.range 16).any fun c => !(getCtx x c).defer.isEmpty && decide ((getCtx x c).adm.level < (getCtx y c).adm.level)

/-! ### Timing counters, whose values are the implementation's (spec/18 R406, spec/12 R266, spec/13 R286; DESIGN CHOICE, log 2) -/

/-- Members of an engine (spec/18 R406): outposts outside the set count nothing. -/
def engineMembers (set : BitVec 8) (e : Nat) : Nat :=
  if e = 7 then 32 else if 8 ≤ e ∧ e ≤ 15 then (if set.getLsbD (e - 8) then 32 else 0) else 1

/-- Members of an engine that always count idle: an outpost's fenced lane groups (spec/18 R406). -/
def fencedMembers (s : State) (set : BitVec 8) (e : Nat) : Nat :=
  if 8 ≤ e ∧ e ≤ 15 ∧ set.getLsbD (e - 8) then popCount 32 (fencedOf (s.outposts.getD (e - 8) {})).toNat else 0

/-- Spread the stalled cycles of a tick over the reasons' bins: each takes a free share of what is left, the last bin the rest; the digits of `f` in base `n` are the free values (spec/18 R390, R406). -/
def spreadStall (n : Nat) : Nat → Nat → List Nat → List Nat
  | _, _, [] => []
  | st, _, [v] => [v + st]
  | st, f, v :: t => (v + f % n % (st + 1)) :: spreadStall n (st - f % n % (st + 1)) (f / n) t

/-- One tick, 500 Study cycles, of an engine's bank: busy, stalled and idle share the cycles of the members in service; the fenced ones are idle (spec/18 R406). -/
def tickBank (members fenced f0 f1 f2 : Nat) (b : Bank) : Bank :=
  let n := 500 * (members - fenced)
  let busy := f0 % (n + 1)
  let st := f1 % (n - busy + 1)
  { busy := b.busy + busy, stalled := b.stalled + st, idle := b.idle + (500 * members - busy - st), stall := spreadStall (n + 1) st f2 b.stall }

/-- An usher's waits and load. -/
def tickUsher (tick queued f0 f1 f2 : Nat) (u : Usher) : Usher :=
  { u with
    waitCycles := u.waitCycles + (if queued = 0 then 0 else f0)
    waitMax := if queued = 0 then u.waitMax else satTo 32 (max u.waitMax f0)
    stallUs := satTo 32 (u.stallUs + (if queued = 0 then 0 else f1 % 2))
    load := if tick % 1024 = 0 then f2 % 65536 else u.load }

/-- A source that is held counts its cycles, 1,200 a tick, until it is held no more (spec/12 R260, R264). -/
def tickIntake (h : Hallway) (p : Intake × Nat) : Intake :=
  if p.1.heldSince.isNone then p.1
  else
    let q := { p.1 with heldCycles := wrapTo 64 (p.1.heldCycles + 1200) }
    if sourceHeld p.2 h then q else { q with heldSince := none }

/-- A running core kicks its watchdog, or its count rises (spec/13 R280): when it kicks is the firmware's own (DESIGN CHOICE, log 88). -/
def tickDog (h : Hearth) (core f : Nat) : Nat := if coreRuns h core && f % 2 != 0 then satTo 32 (h.wdog.getD core 0 + 1) else 0

/-- Free values that a tick takes for an instance: 63 for the banks, 96 for the ushers, 4 for the Hearth's cores, 4 for their kicks, 1 for the errors that its memories have corrected. -/
def tickFrees : Nat := 168

/-- The timing counters of an instance, from free values. -/
def tickCounters (i : InstId) (s : State) : State :=
  let f (k : Nat) : Nat := Config.freeNat (s.free + k)
  let bank (set : BitVec 8) (p : Bank × Nat) : Bank := tickBank (engineMembers set p.2) (fencedMembers s set p.2) (f (3 * p.2)) (f (3 * p.2 + 1)) (f (3 * p.2 + 2)) p.1
  let usher (p : Usher × Nat) : Usher := tickUsher s.tick (usherLoad (getInst s i).hall p.2) (f (63 + 3 * p.2)) (f (64 + 3 * p.2)) (f (65 + 3 * p.2)) p.1
  let load (old : List Nat) : List Nat := if s.tick % 1024 = 0 then (List.range 4).map fun c => f (159 + c) % 65536 else old
  let s' := modInst i (fun x => { x with
    study := { x.study with banks := x.study.banks.zipIdx.map (bank x.place.outposts) }
    hall := { x.hall with ushers := x.hall.ushers.zipIdx.map usher, intakes := x.hall.intakes.zipIdx.map (tickIntake x.hall) }
    hearth := { x.hearth with load := load x.hearth.load, wdog := (List.range 4).map fun c => tickDog x.hearth c (f (163 + c)) }
    rel := { x.rel with eccCorrected := satTo 32 (x.rel.eccCorrected + f 167) } }) s
  { s' with free := s.free + tickFrees }

/-! ### TICK -/

/-- A step waits at its commit point for the journal (spec/17 R376, R378, R387). -/
def journalStalls (x : Inst) : Bool := commitHeld x && x.mir.kitchen.steps.any (·.phase == .sampled)

/-- The registers that count ticks: heartbeats missed, journal stalls, the deferral of a due flush (spec/17 R387, spec/13 R286). -/
def tickRegs (tick : Nat) (x : Inst) : Inst :=
  let d := deferredBy tick x.rel
  { x with
    rel := { x.rel with
      hbMissed := satTo 32 (x.rel.hbMissed + bit (decide (x.rel.lastHeartbeat + 1 < tick)))
      journalStallUs := satTo 32 (x.rel.journalStallUs + bit (journalStalls x)) }
    hearth := { x.hearth with flushDefer := d, flushDeferMax := max x.hearth.flushDeferMax d } }

/-- Ticks in which a compute die is held at the Larder port (spec/19 R424). -/
def tickOutpost (x : Outpost) : Outpost := if x.port.isEmpty then x else { x with larderWaitUs := satTo 32 (x.larderWaitUs + 1) }

/-- One instance's tick, its mirror told. -/
def tickInst (i : InstId) (s : State) : State :=
  if inReset s i then s
  else if !running s i then tickCounters i s
  else
    let t := tickCounters i (modInst i (tickRegs s.tick) s)
    if !activeInst s i then t
    else
      let x := getInst t i
      let t := modInst i (fun y => { y with mir := chargeTick x t.hbm s.tick }) t
      let t := if admRose (mir s i) (mir t i) then foyerRound i t else t
      mirrorOut i s (noteWaits i (tearDue i (announceChange i (testCqs i t))))

/-- The end of an instance's tick: its Dusk lists fire behind every other source (spec/12 R253). -/
def closeTick (i : InstId) (s : State) : State := if activeInst s i && !inReset s i then mirrorOut i s (fireLists i s) else s

/-- TICK: one microsecond (spec/19 R418); the 48-bit tick goes from 2^48 - 1 to 0 (spec/00 R1; DESIGN CHOICE, log 85). -/
def execTick (s : State) : Result :=
  if !s.powered then .next s
  else
    let s := closeTick .B (closeTick .A s)
    let t := { s with tick := wrapTo 48 (s.tick + 1), outposts := s.outposts.map tickOutpost }
    .next (tickInst .B (tickInst .A (releaseReset .B (releaseReset .A t))))

end Sys2Proof.Machine
end

