-- ==== Sys2Proof/Machine/Registers.lean ====
section
/-! DEFINITION. The register file (spec/19) and the mailbox windows as the host reads and writes them (spec/14 R288): the fields of every register with their access codes, what a read returns and clears, what a write sets. -/

namespace Sys2Proof.Machine

open Sys2Proof

/-! ### Fields (spec/00 R8) -/

/-- Access codes (spec/00 R8); no register of the file is W1S. -/
inductive RegAccess where
  | ro | rw | wo | w1c | rc
  deriving DecidableEq, Repr

/-- A field of a register: its lowest bit, its width, its access code, its value now. -/
structure RegField where
  lo : Nat
  width : Nat
  acc : RegAccess
  val : Nat
  deriving DecidableEq, Repr

def fRo (lo width val : Nat) : RegField := { lo := lo, width := width, acc := .ro, val := val }
def fRw (lo width val : Nat) : RegField := { lo := lo, width := width, acc := .rw, val := val }
def fWo (lo width : Nat) : RegField := { lo := lo, width := width, acc := .wo, val := 0 }
def fW1c (lo width val : Nat) : RegField := { lo := lo, width := width, acc := .w1c, val := val }
def fRc (lo width val : Nat) : RegField := { lo := lo, width := width, acc := .rc, val := val }

/-- The bits of a field in its register. -/
def RegField.mask (f : RegField) : BitVec 64 := BitVec.ofNat 64 ((2 ^ f.width - 1) * 2 ^ f.lo)

/-- The value of a register: its fields in place, reserved bits zero (spec/00 R9). -/
def regValue (fs : List RegField) : BitVec 64 := BitVec.ofNat 64 (sumNat (fs.map fun f => wrapTo f.width f.val * 2 ^ f.lo))

/-- The bits of a register that belong to no field. -/
def regReserved (fs : List RegField) : BitVec 64 := ~~~ (fs.foldl (fun m f => m ||| f.mask) 0)

/-! ### Blocks (R411) -/

/-- Identity (R417-R419). -/
def identityRegs (s : State) (x : Inst) (k : Nat) : List RegField :=
  match k with
  | 0x00 => [fRo 0 16 0x5348, fRo 16 16 0x00B0, fRo 32 1 (ibit x.id), fRo 33 1 (bit x.place.split), fRo 34 8 x.place.outposts.toNat]
  | 0x08 => [fRo 0 13 x.place.node]
  | 0x10 => [fRo 0 64 x.place.serial]
  | 0x18 => [fRo 0 48 s.tick]
  | 0x20 => [fRo 0 32 x.liveness]
  | _ => []

/-- Kitchen (R420, R421). -/
def kitchenRegs (m : Mirrored) (k : Nat) : List RegField :=
  let t := m.kitchen
  match k with
  | 0x00 => [fRw 0 15 t.stepLogitLimit, fRw 32 19 t.stepPrefillLimit]
  | 0x08 => [fRw 0 19 t.chunkLimit, fRw 32 15 t.c0LogitCap]
  | 0x10 => [fRw 0 19 t.c0PrefillCap, fRw 32 16 t.starveSteps]
  | 0x18 => [fRw 0 4 t.fuseMax, fRw 4 2 t.depth, fRw 8 4 t.preemptMask, fRw 16 8 t.preemptShield]
  | 0x20 => [fRo 0 64 t.stepAssigned]
  | 0x28 => [fRo 0 64 t.stepCommitted]
  | 0x30 => [fRo 0 2 (t.steps.filter uncommitted).length, fRo 2 1 (bit t.c0Caps), fRo 3 1 (bit (t.steps.any (·.phase == .composing))),
             fRo 4 1 (bit (m.dir.models.any (·.stage == .armed))), fRo 5 1 (bit t.quiesced)]
  | 0x38 => [fRo 0 15 t.effLogit, fRo 32 19 t.effPrefill]
  | 0x40 => [fRo 0 32 t.kills, fRo 32 32 t.preemptKills]
  | 0x48 => [fRo 0 32 t.fused, fRo 32 32 t.passedOver]
  | _ => []

/-- Foyer and directory (R422, R423). -/
def foyerRegs (x : Inst) (k : Nat) : List RegField :=
  let m := x.mir
  match k with
  | 0x00 => [fRw 0 24 m.foyer.pageHeadroom]
  | 0x08 => [fRw 0 17 m.foyer.coolMark]
  | 0x10 => [fRo 0 64 m.dir.loadRequest.toNat]
  | 0x18 => [fRo 0 64 m.dir.evictRequest.toNat]
  | 0x20 => [fW1c 0 64 m.dir.epochRetired.toNat]
  | 0x28 => [fRo 0 11 m.foyer.c0Sequences, fRo 32 11 (c0Live m)]
  | 0x30 => [fRo 0 32 m.foyer.c0Pages, fRo 32 32 (c0Charged m)]
  | 0x38 => [fRo 0 25 (freePages x), fRo 32 25 (m.pantry.used.filter (·.2 == .lent)).length]
  | 0x40 => [fRo 0 23 (localIds x - m.seqs.length), fRo 32 10 (sumNat (m.ctxs.map (·.defer.length)))]
  | 0x48 => [fRo 0 17 (hotCount m)]
  | 0x50 => [fRo 0 64 (modelMask m (· == .resident))]
  | 0x58 => [fRo 0 64 (maskOf ((List.range 64).filter fun k => (getModel m k).pinned))]
  | _ => []

/-- This instance's `fence_refused` of an outpost, and its `fault`. -/
def refusedOf (i : InstId) (o : Outpost) : Bool := match i with | .A => o.fenceRefusedA | .B => o.fenceRefusedB
def faultOf (i : InstId) (o : Outpost) : Bool := match i with | .A => o.faultA | .B => o.faultB

/-- Outposts (R424, R425). -/
def outpostRegs (x : Inst) (n : Nat) (o : Outpost) (k : Nat) : List RegField :=
  match k with
  | 0x00 => [fRw 0 32 o.fenceMask.toNat, fRo 32 32 (fencedOf o).toNat]
  | 0x08 => [fRo 0 1 (bit (x.place.outposts.getLsbD n)), fRo 1 1 (bit o.selftest), fRo 2 1 (bit (faultOf x.id o)), fW1c 3 1 (bit (refusedOf x.id o)),
             fRo 4 4 (fencedCount (fencedOf o)), fRo 8 4 o.maps.length]
  | 0x10 => [fRo 0 32 o.parityEvents, fRo 32 32 o.selftestFences]
  | 0x18 => [fRo 0 32 o.larderWaitUs]
  | _ => []

/-- `level`: 3 a flush at its bound, 2 commands waiting, 1 started commands that have no result yet, 0 idle (spec/13 R286; log 50). -/
def hearthLevel (s : State) (x : Inst) : Nat :=
  if flushAtBound s x.id then 3 else if x.mir.mbox.any (·.phase == .accepted) then 2 else bit (!x.mir.mbox.isEmpty)

/-- `dawn_stage` (spec/13 R275). -/
def DawnStage.code : DawnStage → Nat
  | .rom => 0 | .read => 1 | .verify => 2 | .start => 3 | .config => 4 | .discovery => 5 | .ready => 6 | .failed => 7

/-- Hearth (spec/13 R286). -/
def hearthRegs (s : State) (x : Inst) (k : Nat) : List RegField :=
  let h := x.hearth
  match k with
  | 0x00 => [fRo 0 3 h.stage.code, fRo 3 1 (bit h.slot), fRo 4 1 (bit h.fellBack), fRo 5 1 (bit h.trial), fRo 6 4 h.coreUp.toNat,
             fRo 10 4 h.coreFenced.toNat, fRo 32 32 h.restarts]
  | 0x08 => [fRo 0 16 h.ifMinor, fRo 16 16 h.ifMajor, fRo 32 32 h.fwBuild]
  | 0x10 => [fRo 0 16 (h.load.getD 0 0), fRo 16 16 (h.load.getD 1 0), fRo 32 16 (h.load.getD 2 0), fRo 48 16 (h.load.getD 3 0)]
  | 0x18 => [fRo 0 11 x.mir.mbox.length, fRo 11 2 (hearthLevel s x), fRo 32 32 h.busyReplies]
  | 0x20 => (List.range 4).map fun b => fW1c b 1 (bit (h.wdogExpired.getLsbD b))
  | 0x28 => [fRo 0 32 h.flushDefer, fRc 32 32 h.flushDeferMax]
  | 0x30 => [fRo 0 16 h.trimApplied, fRo 16 16 h.trimIgnored]
  | 0x38 => [fRo 0 32 h.dawnUs]
  | _ => []

/-- A context's Porch group (spec/14 R311). -/
def contextRegs (x : Ctx) (k : Nat) : List RegField :=
  match k with
  | 0x00 => [fRw 0 32 x.sqTail, fRo 32 32 x.sqHead]
  | 0x08 => [fRw 0 32 x.cqHead, fRo 32 32 x.cqTail]
  | 0x10 => [fRo 0 17 x.stream.length, fRo 32 1 (bit x.isOpen), fRo 33 1 (bit x.cqHold), fRo 34 1 (bit (sqStalled x)), fRo 35 1 (bit x.faulted)]
  | 0x18 => [fRc 0 32 x.sqBadKind, fRw 32 16 x.irqCount, fRw 48 16 x.irqTicks]
  | _ => []

/-- The Porch's instance group (spec/14 R311). -/
def porchRegs (q : Irq) (k : Nat) : List RegField :=
  match k with
  | 0x00 => [fW1c 0 16 q.cq.toNat, fW1c 16 16 q.mb.toNat, fW1c 32 1 (bit q.dir), fW1c 33 1 (bit q.fault), fW1c 34 1 (bit q.study), fW1c 35 1 (bit q.hearth)]
  | 0x08 => [fRw 0 36 q.enable.toNat]
  | _ => []

/-- Stairwell (spec/16 R357). -/
def stairRegs (x : Inst) (k : Nat) : List RegField :=
  let t := x.stair
  match k with
  | 0x00 => [fRo 0 2 t.role, fRo 2 1 (bit (t.discovery != .none)), fRo 16 16 t.roleGen]
  | 0x08 => [fRw 0 16 t.retryTicks, fRw 16 32 t.timeoutTicks]
  | 0x10 => [fRo 0 11 t.peers.length, fRo 11 7 x.mir.outXfers.length, fRo 18 7 (x.mir.inXfers.filter fun y => !y.handedOver).length]
  | 0x18 => [fRo 0 64 t.sent]
  | 0x20 => [fRo 0 64 t.received]
  | 0x28 => [fRo 0 32 t.bouncedOut, fRo 32 32 t.bouncedIn]
  | 0x30 => [fRo 0 32 t.crcDiscards, fRo 32 32 t.staleDiscards]
  | 0x38 => [fRo 0 32 t.transfersDone, fRo 32 32 t.transfersFailed]
  | 0x40 => [fRw 0 1 (bit t.injectEnable)]
  | 0x48 => [fRw 0 64 t.seedLo.toNat]
  | 0x50 => [fRw 0 64 t.seedHi.toNat]
  | _ =>
    if 0x80 ≤ k ∧ k < 0xC0 then
      let c := t.classes.getD ((k - 0x80) / 16) {}
      if k % 16 = 0 then [fRw 0 16 c.drop, fRw 16 16 c.corrupt, fRw 32 16 c.reorder, fRw 48 8 c.depth] else [fRc 0 32 c.injected]
    else []

/-- Study (spec/18 R409). -/
def studyRegs (x : Inst) (k : Nat) : List RegField :=
  let y := x.study
  match k with
  | 0x00 => [fRo 0 1 (bit y.traceOn), fRo 1 2 y.dumpState, fRo 3 1 (bit y.dumpFatal), fRo 4 1 (bit y.cycle), fRo 32 32 y.traceMask]
  | 0x08 => [fWo 0 1, fWo 1 1]
  | 0x10 => [fRo 0 32 (traceCap x)]
  | 0x18 => [fRo 0 32 y.traceWp, fRw 32 32 y.traceRp]
  | 0x20 => [fRo 0 64 y.dropped]
  | 0x28 => [fRc 0 32 y.gaps, fRw 32 24 x.mir.traceMin]
  | 0x30 => [fRo 0 13 y.fifo.length]
  | 0x38 => (List.range 4).map (fun b => fW1c b 1 (bit (y.cause.getLsbD b))) ++ [fRw 4 4 x.mir.causeEnable]
  | 0x40 => [fRo 0 32 y.noticeDiscards, fRo 32 32 y.channelDiscards]
  | 0x48 => [fRo 0 32 y.resamples, fRo 32 32 y.selftests]
  | 0x50 => [fRo 0 48 y.graphTick]
  | 0x58 => [fRo 0 16 y.graph.length, fRo 16 3 (min 7 y.watches.length)]
  | _ => []

/-- Regulators: the buckets of a context; 0 while it is closed (spec/19, spec/15 R319). -/
def regulatorRegs (m : Mirrored) (c k : Nat) : List RegField :=
  let x := getCtx m c
  let p := pendingRows m c
  let z (v : Nat) : Nat := if x.isOpen then v else 0
  match k with
  | 0x00 => [fRo 0 64 (z (signed64 x.adm.level))]
  | 0x08 => [fRo 0 64 (z (signed64 x.row.level))]
  | 0x10 => [fRo 0 64 (z (signed64 x.hbm.level))]
  | 0x18 => [fRo 0 32 (z (satTo 32 (sumNat (p.map (·.logitCount))))), fRo 32 32 (z (satTo 32 (sumNat (p.map (·.hbmCharge)))))]
  | _ => []

/-- Earliest due tick of a Dusk list; all ones when it is empty (spec/12 R266). -/
def nextDue (ds : List Dusk) : Nat := ds.foldl (fun m d => min m d.due) 0xFFFFFFFFFFFF

/-- Hallway: ushers, intake queues, Dusk lists (spec/12 R266); an usher's depth counts the events in its prefetch slots too (DESIGN CHOICE, log 122). -/
def hallRegs (x : Inst) (k : Nat) : List RegField :=
  let h := x.hall
  if k < 0x400 then
    let u := h.ushers.getD (k / 32) {}
    match k % 32 with
    | 0x00 => [fRo 0 7 (min 64 (usherLoad h (k / 32))), fRo 7 2 (min 2 (usherLoad h (k / 32))), fRo 9 1 (bit u.busy), fRo 16 16 u.load,
               fRo 32 16 (satTo 16 (h.affinity.filter (·.2 == k / 32)).length)]
    | 0x08 => [fRo 0 64 u.released]
    | 0x10 => [fRo 0 64 u.waitCycles]
    | _ => [fRc 0 32 u.waitMax, fRo 32 32 u.stallUs]
  else if k < 0x450 then
    let q := h.intakes.getD ((k - 0x400) / 16) {}
    if k % 16 = 0 then [fRo 0 14 (inIntake ((k - 0x400) / 16) h).length, fRc 32 14 q.highWater] else [fRo 0 64 q.heldCycles]
  else if 0x480 ≤ k ∧ k < 0x500 then
    let l := (k - 0x480) / 32
    let ds := x.mir.dusk.filter (·.list == l)
    let n := h.counts.getD l {}
    match k % 32 with
    | 0x00 => [fRo 0 19 (ds.filter fun d => !d.spilled).length, fRo 32 23 (ds.filter (·.spilled)).length]
    | 0x08 => [fRo 0 48 (nextDue ds)]
    | 0x10 => [fRo 0 64 n.fired]
    | _ => [fRc 0 32 n.late, fRo 32 32 n.stale]
  else []

/-- A latch's group (spec/15 R329). -/
def latchRegs (l : Latch) (k : Nat) : List RegField :=
  match k with
  | 0x00 => [fRo 0 4 l.owner, fRo 4 1 (bit l.held), fRo 5 1 (bit l.across), fRo 6 1 (bit l.waiting), fRo 16 16 l.heldSteps, fRo 32 24 l.holder]
  | 0x08 => [fRw 0 16 l.maxHold, fRw 16 1 (bit l.enable)]
  | 0x10 => [fRw 0 64 l.models.toNat]
  | 0x18 => [fRo 0 32 l.acquires, fRo 32 32 l.raises]
  | _ => []

def MirrorState.code : MirrorState → Nat
  | .none => 0 | .syncing => 1 | .current => 2 | .lost => 3

def RestoreState.code : RestoreState → Nat
  | .none => 0 | .running => 1 | .verified => 2 | .unverified => 3 | .forced => 4 | .failed => 5

/-- The 32 bytes of a fault-log entry (spec/17 R388). -/
def faultBytes (e : FaultEntry) : List Byte := layout 32
  [ lf 0x00 8 (wrapTo 48 e.tick), lf 0x08 1 e.code, lf 0x09 1 e.unit, lf 0x0A 1 (match e.context with | some c => 0x80 + c | none => 0),
    lf 0x0C 4 e.detail, lf 0x10 8 e.step, lf 0x18 8 e.address ]

/-- Reliability, with the fault log (spec/17 R387, R388). -/
def relRegs (x : Inst) (k : Nat) : List RegField :=
  let r := x.rel
  match k with
  | 0x00 => [fRo 0 2 r.mirror.code, fRo 2 1 (bit (r.active && !r.failed)), fRo 3 1 (bit r.failed), fRo 4 1 (bit r.pathUp), fRo 5 1 (bit r.driveFailed),
             fRo 16 16 r.takeovers, fRo 32 32 r.lossBound]
  | 0x08 => [fRo 0 64 r.durableStep]
  | 0x10 => [fRo 0 64 r.durableBlock]
  | 0x18 => [fRo 0 64 r.bulkSeqno]
  | 0x20 => [fRo 0 32 (satTo 32 (stagedBytes r.staged / 1024)), fRo 32 32 r.flushes]
  | 0x28 => [fRo 0 3 r.restore.code, fRo 3 5 r.restoreCheck]
  | 0x30 => [fRo 0 64 r.restoredStep]
  | 0x38 => [fRo 0 32 r.eccCorrected, fRo 32 32 r.hbMissed]
  | 0x40 => [fRo 0 32 r.journalStallUs, fRo 32 32 r.faultCount]
  | _ =>
    if 0x800 ≤ k then
      match look ((k - 0x800) / 32) r.faultLog with
      | some e => [fRo 0 64 (fld (faultBytes e) (k % 32) 8)]
      | none => [fRo 0 64 0]
    else []

/-- Counter banks (spec/18 R406, spec/19 R426). -/
def bankRegs (y : Study) (k : Nat) : List RegField :=
  let b := y.banks.getD (k / 256) {}
  let z (v : Nat) : List RegField := [fRo 0 64 (if k / 256 < 21 then v else 0)]
  let o := k % 256
  if o = 0 then z b.busy else if o = 8 then z b.stalled else if o = 16 then z b.idle
  else if 0x20 ≤ o ∧ o < 0xA0 then z (b.stall.getD ((o - 0x20) / 8) 0) else []

/-- The fields of the register at an offset of the file, a multiple of 8; none where no register is (R411). -/
def regFields (s : State) (i : InstId) (a : Nat) : List RegField :=
  let x := getInst s i
  if a < 0x100 then identityRegs s x a
  else if a < 0x200 then kitchenRegs x.mir (a - 0x100)
  else if a < 0x300 then foyerRegs x (a - 0x200)
  else if a < 0x400 then outpostRegs x ((a - 0x300) / 32) (getOutpost s ((a - 0x300) / 32)) (a % 32)
  else if a < 0x440 then hearthRegs s x (a - 0x400)
  else if a < 0x800 then []
  else if a < 0xA00 then contextRegs (getCtx x.mir ((a - 0x800) / 32)) (a % 32)
  else if a < 0xC00 then porchRegs x.mir.irq (a - 0xA00)
  else if a < 0xD00 then stairRegs x (a - 0xC00)
  else if a < 0xE00 then studyRegs x (a - 0xD00)
  else if a < 0x1000 then regulatorRegs x.mir ((a - 0xE00) / 32) (a % 32)
  else if a < 0x1500 then hallRegs x (a - 0x1000)
  else if a < 0x2000 then []
  else if a < 0x4000 then latchRegs (getLatch x.mir ((a - 0x2000) / 32)) (a % 32)
  else if a < 0x5000 then relRegs x (a - 0x4000)
  else if a < 0x7000 then bankRegs x.study (a - 0x5000)
  else []

/-! ### Mailbox windows (spec/14 R288) -/

/-- The 64 bytes of a result entry (spec/14 R293). -/
def resultBytes (e : ResultEntry) : List Byte :=
  leBytes 8 e.cookie ++ leBytes 2 e.code ++ leBytes 2 e.result ++ leBytes 4 e.detail ++ leBytes 8 (wrapTo 48 e.doneTick) ++ slice e.data 0 40

/-- The fields of a window at an offset that is a multiple of 8 (spec/14 R288). -/
def windowFields (x : Inst) (w o : Nat) : List RegField :=
  let v := getWin x.mir w
  let c := winCtx w
  let core := (servingCore x.hearth c).getD (c / 4 % 4)
  if o = 0x000 then [fRo 0 4 c, fRo 4 2 (w % 4), fRo 6 1 (ibit x.id), fRo 7 2 core, fRo 9 1 (bit (core != c / 4 % 4))]
  else if o = 0x008 then [fWo 0 1]
  else if o = 0x010 then [fRo 0 32 v.accepted, fRo 32 1 (bit v.pending)]
  else if o = 0x018 then [fRw 0 32 v.resHead]
  else if o = 0x020 then [fRo 0 32 v.resTail]
  else if 0x100 ≤ o ∧ o < 0x500 then [fRw 0 32 (leNat (memGets v.cmd (o - 0x100) 4)), fRw 32 32 (leNat (memGets v.cmd (o - 0x100 + 4) 4))]
  else if 0x800 ≤ o ∧ o < 0x1000 then
    [fRo 0 64 (match look ((o - 0x800) / 64) v.results with | some e => fld (resultBytes e) (o % 64) 8 | none => 0)]
  else []

/-- The fields at an offset of an instance's slice of BAR2 (spec/01 R23); a window that is not served reads as zero (spec/14 R288). -/
def slotFields (s : State) (i : InstId) (a : Nat) : List RegField :=
  if a < 0x10000 then regFields s i a
  else if 0x40000 ≤ a ∧ a < 0x80000 then
    (if winServes s i ((a - 0x40000) / 0x1000) then windowFields (getInst s i) ((a - 0x40000) / 0x1000) (a % 0x1000) else [])
  else []

/-! ### Reading (R412, R414) -/

/-- The value of a whole register or window word; zero in a block reset (spec/20 R436). -/
def regRead (s : State) (i : InstId) (a : Nat) : BitVec 64 := if inReset s i then 0 else regValue (slotFields s i a)

/-- An RC field of a register is read: it clears (R412, R414); an intake queue's largest depth starts again from the depth that it has (spec/12 R266). -/
def clearRc (i : InstId) (a lo : Nat) (s : State) : State :=
  if a = 0x428 then modHearth i (fun h => { h with flushDeferMax := 0 }) s
  else if 0x800 ≤ a ∧ a < 0xA00 then modCtx i ((a - 0x800) / 32) (fun x => { x with sqBadKind := 0 }) s
  else if 0xC80 ≤ a ∧ a < 0xCC0 then
    modStair i (fun t => { t with classes := modAt t.classes ((a - 0xC80) / 16) fun c => { c with injected := 0 } }) s
  else if a = 0xD28 then modStudy i (fun y => { y with gaps := 0 }) s
  else if 0x1000 ≤ a ∧ a < 0x1400 then modHall i (fun h => { h with ushers := modAt h.ushers ((a - 0x1000) / 32) fun u => { u with waitMax := 0 } }) s
  else if 0x1400 ≤ a ∧ a < 0x1450 ∧ lo = 32 then
    modHall i (fun h => { h with intakes := modAt h.intakes ((a - 0x1400) / 16) fun q => { q with highWater := (inIntake ((a - 0x1400) / 16) h).length } }) s
  else if 0x1480 ≤ a ∧ a < 0x1500 then modHall i (fun h => { h with counts := modAt h.counts ((a - 0x1480) / 32) fun c => { c with late := 0 } }) s
  else s

/-- The access reaches the whole field (R412). -/
def wholly (reach : BitVec 64) (f : RegField) : Bool := f.mask &&& reach == f.mask

/-- A read at an offset: the value, in the low half for 4 bytes, and the RC fields wholly reached cleared (R412). -/
def readBus (i : InstId) (wide : Bool) (off : Nat) (s : State) : State :=
  let a := off / 8 * 8
  let v := regRead s i a
  let reach := (access wide off 0).2
  let t := { s with busData := if wide then v else if off % 8 = 0 then v &&& 0xFFFFFFFF else v >>> 32 }
  if inReset s i then t
  else ((slotFields s i a).filter fun f => f.acc == .rc && wholly reach f).foldl (fun t f => clearRc i a f.lo t) t

/-- The instance and the offset in its slice that an access reaches: instance A's 1 MiB stand at BAR2 offset 0, instance B's at 0x10_0000 (spec/01 R23). -/
def bar2 (i : InstId) (off : Nat) : InstId × Nat :=
  let a := 0x100000 * ibit i + off
  if a < 0x100000 then (.A, a) else (.B, a - 0x100000)

/-- RC_FIELD_READ (R412-R414, spec/00 R8, R10; a misaligned access is case 13 of R12 by spec/01 R24). -/
def execRcFieldRead (i : InstId) (wide : Bool) (off : Nat) (s : State) : Result :=
  let p := bar2 i off
  if aligned wide off then done p.1 s (readBus p.1 wide p.2 s) else .fault (.undefinedCase 13)

/-! ### Writing (R412, R413) -/

/-- What an access writes: the value in place, and the bits it reaches. -/
structure BusWrite where
  val : BitVec 64
  reach : BitVec 64
  deriving DecidableEq, Repr

/-- The value written to a field, where the access reaches it whole (R412). -/
def BusWrite.field (w : BusWrite) (lo width : Nat) : Option Nat :=
  if wholly w.reach { lo := lo, width := width, acc := .rw, val := 0 } then some (bits w.val.toNat (lo + width - 1) lo) else none

/-- A field's value after a write: the value written, or the old one. -/
def BusWrite.merged (w : BusWrite) (lo width old : Nat) : Nat := (w.field lo width).getD old

/-- A field's value after a write: what `f` makes of the value written, or the old one. -/
def BusWrite.made (w : BusWrite) (lo width : Nat) (f : Nat → Nat) (old : Nat) : Nat := ((w.field lo width).map f).getD old

/-- The nearest value within bounds (R420). -/
def clamp (lo hi v : Nat) : Nat := max lo (min hi v)

/-- A write to the Kitchen block (R420). -/
def writeKitchen (i : InstId) (k : Nat) (w : BusWrite) (s : State) : State :=
  modKit i (fun t =>
    match k with
    | 0x00 => { t with stepLogitLimit := w.made 0 15 (clamp 1 16384) t.stepLogitLimit, stepPrefillLimit := w.made 32 19 (clamp 0 262144) t.stepPrefillLimit }
    | 0x08 => { t with chunkLimit := w.made 0 19 (clamp 16 262144) t.chunkLimit, c0LogitCap := w.made 32 15 (clamp 1024 16384) t.c0LogitCap }
    | 0x10 => { t with c0PrefillCap := w.made 0 19 (clamp 0 262144) t.c0PrefillCap, starveSteps := w.merged 32 16 t.starveSteps }
    | 0x18 => { t with fuseMax := w.made 0 4 (clamp 1 8) t.fuseMax, depth := w.made 4 2 (clamp 1 2) t.depth,
                       preemptMask := w.merged 8 4 t.preemptMask, preemptShield := w.merged 16 8 t.preemptShield }
    | _ => t) s

/-- A write to the Foyer and directory block (R422, R423); `epoch_retired` spans both halves: only 8 bytes clear it (R412). -/
def writeFoyer (i : InstId) (k : Nat) (w : BusWrite) (s : State) : State :=
  match k with
  | 0x00 =>
    let t := modFoyer i (fun f => { f with pageHeadroom := w.merged 0 24 f.pageHeadroom }) s
    if (mir t i).foyer.pageHeadroom < (mir s i).foyer.pageHeadroom then foyerRound i t else t
  | 0x08 => match w.field 0 17 with
    | some v =>
      let s := modFoyer i (fun f => { f with coolMark := min 65536 v }) s
      coolExcess i (hotCount (mir s i)) s
    | none => s
  | 0x20 => match w.field 0 64 with
    | some v => modDir i (fun d => { d with epochRetired := d.epochRetired &&& ~~~ BitVec.ofNat 64 v }) s
    | none => s
  | _ => s

/-- `fence_mask` (R424, R425): only from the outpost's owner; refused whole where more than 8 groups would be fenced. -/
def writeFence (i : InstId) (o v : Nat) (s : State) : State :=
  let x := getOutpost s o
  let mask := BitVec.ofNat 32 v
  if x.owner != some i then s
  else if 8 < fencedCount (mask ||| x.testFence) then
    modOutpost o (fun x => match i with | .A => { x with fenceRefusedA := true } | .B => { x with fenceRefusedB := true }) s
  else
    let t := modOutpost o (fun x => fenceChange o x { x with fenceMask := mask }) s
    if fencedOf x == mask ||| x.testFence then t else outRingOf i o 2 0 0 (mask ||| x.testFence).toNat t

/-- A write to an outpost's group (R424, R425). -/
def writeOutpost (i : InstId) (o k : Nat) (w : BusWrite) (s : State) : State :=
  match k with
  | 0x00 => match w.field 0 32 with | some v => writeFence i o v s | none => s
  | 0x08 =>
    if w.field 3 1 == some 1 then modOutpost o (fun x => match i with | .A => { x with fenceRefusedA := false } | .B => { x with fenceRefusedB := false }) s else s
  | _ => s

/-- A write to a context's Porch group (spec/14 R311); a mirror keeps no journal of its own, and its copy follows the stream (spec/17 R361). -/
def writeContext (i : InstId) (c k : Nat) (w : BusWrite) (s : State) : State :=
  match k with
  | 0x00 => match w.field 0 32 with | some v => setSqTail i c v s | none => s
  | 0x08 => match w.field 0 32 with | some v => setCqHead i c v s | none => s
  | 0x18 =>
    let x := getCtx (mir s i) c
    let n := w.merged 32 16 x.irqCount
    let t := w.merged 48 16 x.irqTicks
    if n = x.irqCount && t = x.irqTicks then s
    else
      let s' := modCtx i c (fun x => { x with irqCount := n, irqTicks := t }) s
      if mirrorIdle s i then s' else testCq i c (journalCtx i c s')
  | _ => s

/-- A write to the Stairwell block (spec/16 R356, R357). -/
def writeStair (i : InstId) (k : Nat) (w : BusWrite) (s : State) : State :=
  modStair i (fun t =>
    match k with
    | 0x08 => { t with
        retryTicks := w.made 0 16 (max 16) t.retryTicks
        timeoutTicks := w.made 16 32 (max 1000) t.timeoutTicks }
    | 0x40 => { t with injectEnable := w.merged 0 1 (bit t.injectEnable) == 1 }
    | 0x48 => { t with seedLo := BitVec.ofNat 64 (w.merged 0 64 t.seedLo.toNat) }
    | 0x50 => match w.field 0 64 with
      | some v => { t with seedHi := BitVec.ofNat 64 v, classes := t.classes.map fun c => { c with count := 0 } }
      | none => t
    | _ =>
      if 0x80 ≤ k ∧ k < 0xC0 ∧ k % 16 = 0 then
        { t with classes := modAt t.classes ((k - 0x80) / 16) fun c =>
            { c with drop := w.merged 0 16 c.drop, corrupt := w.merged 16 16 c.corrupt, reorder := w.merged 32 16 c.reorder, depth := w.merged 48 8 c.depth } }
      else t) s

/-- A write to the Study block (spec/18 R394, R400, R402, R409); `cause_enable` of a mirror follows the stream (R416). -/
def writeStudy (i : InstId) (k : Nat) (w : BusWrite) (s : State) : State :=
  match k with
  | 0x08 =>
    let s := if w.field 0 1 == some 1 then requestDump i s else s
    if w.field 1 1 == some 1 then ackDump i s else s
  | 0x18 => modStudy i (fun y => { y with traceRp := w.merged 32 32 y.traceRp }) s
  | 0x28 => modMir i (fun m => { m with traceMin := w.merged 32 24 m.traceMin }) s
  | 0x38 =>
    let s := modStudy i (fun y => { y with cause := y.cause &&& ~~~ w.val.setWidth 4 }) s
    if mirrorIdle s i then s else modMir i (fun m => { m with causeEnable := w.merged 4 4 m.causeEnable }) s
  | _ => s

/-- The latch may be configured (spec/15 R330): it is free, and no uncommitted step of a model of the old or the new `models` exists. -/
def latchIdle (m : Mirrored) (l : Latch) (models : BitVec 64) : Bool :=
  !l.held && !(m.kitchen.steps.any fun st => uncommitted st && (l.models ||| models).getLsbD st.model)

/-- What a write makes of a latch's configuration (spec/15 R329). -/
def latchWritten (k : Nat) (w : BusWrite) (l : Latch) : Latch :=
  match k with
  | 0x08 => { l with maxHold := w.merged 0 16 l.maxHold, enable := w.merged 16 1 (bit l.enable) == 1 }
  | 0x10 => { l with models := BitVec.ofNat 64 (w.merged 0 64 l.models.toNat) }
  | _ => l

/-- A write to a latch's group (spec/15 R329, R330). -/
def writeLatch (i : InstId) (n k : Nat) (w : BusWrite) (s : State) : State :=
  let l := latchWritten k w (getLatch (mir s i) n)
  if k = 0x08 ∨ k = 0x10 then journalObj i (.latch n l.maxHold l.enable l.models) (modLatch i n (fun _ => l) s) else s

/-- Write one field of a window's staging area (spec/14 R288). -/
def writeCmd (i : InstId) (w o lo : Nat) (b : BusWrite) (s : State) : State :=
  match b.field lo 32 with
  | some v => modWin i w (fun x => { x with cmd := memPuts x.cmd (o - 0x100 + lo / 8) (leBytes 4 v) }) s
  | none => s

/-- A write to a served window (spec/14 R288, R289, R291). -/
def writeWindow (i : InstId) (w o : Nat) (b : BusWrite) (s : State) : State :=
  if o = 0x008 then (if b.field 0 1 == some 1 then modWin i w (fun x => { x with pending := true }) s else s)
  else if o = 0x018 then (match b.field 0 32 with | some v => modWin i w (fun x => { x with resHead := v }) s | none => s)
  else if 0x100 ≤ o ∧ o < 0x500 then writeCmd i w o 32 b (writeCmd i w o 0 b s)
  else s

/-- The block of a register takes writes (R416, R427, spec/13 R275, spec/17 R368, spec/20 R436). -/
def blockTakes (s : State) (i : InstId) (a : Nat) : Bool :=
  if 0x100 ≤ a ∧ a < 0x400 then limitsTake s i
  else if 0x800 ≤ a ∧ a < 0xA00 ∧ a % 32 < 16 then porchTakes s i
  else if (0x2000 ≤ a ∧ a < 0x4000) ∨ a = 0xD28 then mirrorTakes s i
  else !deaf s i

/-- The effect of a write on the register or window word at `a`. -/
def writeAt (i : InstId) (a : Nat) (w : BusWrite) (s : State) : State :=
  if a < 0x100 then s
  else if a < 0x200 then writeKitchen i (a - 0x100) w s
  else if a < 0x300 then writeFoyer i (a - 0x200) w s
  else if a < 0x400 then writeOutpost i ((a - 0x300) / 32) (a % 32) w s
  else if a = 0x420 then modHearth i (fun h => { h with wdogExpired := h.wdogExpired &&& ~~~ w.val.setWidth 4 }) s
  else if a < 0x800 then s
  else if a < 0xA00 then writeContext i ((a - 0x800) / 32) (a % 32) w s
  else if a = 0xA00 then clearIrq i (w.val.setWidth 36) s
  else if a = 0xA08 then (match w.field 0 36 with | some v => setEnable i (BitVec.ofNat 36 v) s | none => s)
  else if a < 0xC00 then s
  else if a < 0xD00 then writeStair i (a - 0xC00) w s
  else if a < 0xE00 then writeStudy i (a - 0xD00) w s
  else if a < 0x2000 then s
  else if a < 0x4000 then writeLatch i ((a - 0x2000) / 32) (a % 32) w s
  else if 0x40000 ≤ a ∧ a < 0x80000 then writeWindow i ((a - 0x40000) / 0x1000) (a % 0x1000) w s
  else s

/-- The write gives a field of the register a value: it reaches an RW field whole (R412). -/
def writesField (s : State) (i : InstId) (a : Nat) (w : BusWrite) : Bool := (slotFields s i a).any fun f => f.acc == .rw && wholly w.reach f

/-- The undefined case that a write to a defined register meets: a reserved bit (12), a ring index (11), a latch in use whose configuration it writes (10). -/
def writeCase (s : State) (i : InstId) (a : Nat) (w : BusWrite) : Option Nat :=
  if (w.val &&& regReserved (slotFields s i a)) != 0 then some 12
  else if 0x800 ≤ a ∧ a < 0xA00 ∧ a % 32 = 0 then (w.field 0 32).bind (sqTailCase (getCtx (mir s i) ((a - 0x800) / 32)))
  else if 0x800 ≤ a ∧ a < 0xA00 ∧ a % 32 = 8 then (w.field 0 32).bind (cqHeadCase (getCtx (mir s i) ((a - 0x800) / 32)))
  else if 0x2000 ≤ a ∧ a < 0x4000 ∧ (a % 32 = 8 ∨ a % 32 = 16) ∧ writesField s i a w = true then
    let l := getLatch (mir s i) ((a - 0x2000) / 32)
    if latchIdle (mir s i) l (latchWritten (a % 32) w l).models then none else some 10
  else none

/-- A write of 4 or 8 bytes at an offset of an instance's slice (R412, R413, spec/00 R8-R10, spec/01 R24). -/
def writeBus (i : InstId) (wide : Bool) (off v : Nat) (s : State) : Result :=
  let a := off / 8 * 8
  let w : BusWrite := { val := (access wide off v).1, reach := (access wide off v).2 }
  if !aligned wide off then .fault (.undefinedCase 13)
  else if !blockTakes s i a || (slotFields s i a).isEmpty then .next s
  else guarded i (writeCase s i a w) s (writeAt i a w s)

/-- A row's write, where the access reaches a register of the row (`p` of its offset); a misaligned one may reach two (spec/01 R24). -/
def rowWrite (p : Nat → Bool) (i : InstId) (wide : Bool) (off v : Nat) (s : State) : Result :=
  if p (off / 8 * 8) || p ((off + if wide then 7 else 3) / 8 * 8) then writeBus i wide off v s else .next s

/-- REGISTER_WRITE (spec/00 R8). -/
def execRegisterWrite (i : InstId) (wide : Bool) (off v : Nat) (s : State) : Result := writeBus (bar2 i off).1 wide (bar2 i off).2 v s

/-- KITCHEN_LIMIT_WRITE (R420). -/
def execKitchenLimitWrite (i : InstId) (wide : Bool) (off v : Nat) (s : State) : Result :=
  rowWrite (fun a => decide (0x100 ≤ a) && decide (a < 0x120)) i wide off v s

/-- PAGE_HEADROOM_WRITE (R422). -/
def execPageHeadroomWrite (i : InstId) (wide : Bool) (v : Nat) (s : State) : Result := writeBus i wide 0x200 v s

/-- COOL_MARK_WRITE (R422). -/
def execCoolMarkWrite (i : InstId) (wide : Bool) (v : Nat) (s : State) : Result := writeBus i wide 0x208 v s

/-- EPOCH_RETIRED_CLEAR (R423). -/
def execEpochRetiredClear (i : InstId) (wide : Bool) (off v : Nat) (s : State) : Result := rowWrite (· == 0x220) i wide off v s

/-- FENCE_MASK_WRITE (R424, R425). -/
def execFenceMaskWrite (i : InstId) (o : Nat) (wide : Bool) (v : Nat) (s : State) : Result := writeBus i wide (0x300 + 32 * (o % 8)) v s

/-- FENCE_REFUSED_CLEAR (R425). -/
def execFenceRefusedClear (i : InstId) (o : Nat) (wide : Bool) (v : Nat) (s : State) : Result := writeBus i wide (0x308 + 32 * (o % 8)) v s

/-- WDOG_EXPIRED_CLEAR (spec/13 R286). -/
def execWdogExpiredClear (i : InstId) (wide : Bool) (v : Nat) (s : State) : Result := writeBus i wide 0x420 v s

/-- LATCH_CONFIG_WRITE (spec/15 R329, R330). -/
def execLatchConfigWrite (i : InstId) (wide : Bool) (off v : Nat) (s : State) : Result :=
  rowWrite (fun a => decide (0x2000 ≤ a) && decide (a < 0x4000)) i wide off v s

/-- STAIRWELL_TIMING_WRITE (spec/16 R357). -/
def execStairwellTimingWrite (i : InstId) (wide : Bool) (off v : Nat) (s : State) : Result := rowWrite (· == 0xC08) i wide off v s

/-- INJECTION_SEED_WRITE (spec/16 R356): the count restarts at a write of `seed_hi`, which spans both halves. -/
def execInjectionSeedWrite (i : InstId) (wide : Bool) (v : Nat) (s : State) : Result := writeBus i wide 0xC50 v s

/-- TRACE_RP_WRITE (spec/18 R394). -/
def execTraceRpWrite (i : InstId) (wide : Bool) (off v : Nat) (s : State) : Result := rowWrite (· == 0xD18) i wide off v s

/-- DUMP_REQUEST (spec/18 R400, R402). -/
def execDumpRequest (i : InstId) (wide : Bool) (v : Nat) (s : State) : Result := writeBus i wide 0xD08 v s

/-- DUMP_ACK (spec/18 R402). -/
def execDumpAck (i : InstId) (wide : Bool) (v : Nat) (s : State) : Result := writeBus i wide 0xD08 v s

/-- STUDY_CAUSE_CLEAR (spec/18 R409). -/
def execStudyCauseClear (i : InstId) (wide : Bool) (v : Nat) (s : State) : Result := writeBus i wide 0xD38 v s

end Sys2Proof.Machine
end

