-- ==== Sys2Proof/Machine/Dumps.lean ====
section
/-! DEFINITION. Dumps (spec/18 R397, R398, R401, R402): the bytes of every section and of the header. -/

namespace Sys2Proof.Machine

open Sys2Proof

/-! ### Sections (R401) -/

/-- The register file of an instance: 64 KiB. -/
def registerImage (s : State) (i : InstId) : List Byte := (List.range 8192).flatMap fun k => leBytes 8 (regRead s i (8 * k)).toNat

/-- The 64 fault-log entries. -/
def faultImage (r : Reliability) : List Byte :=
  (List.range 64).flatMap fun k => match look k r.faultLog with | some e => faultBytes e | none => leBytes 32 0

/-- An edge record (R398). -/
def edgeBytes (tick : Nat) (e : Edge) : List Byte := leBytes 4 (e.src + 2 ^ 12 * e.dst + 2 ^ 24 * e.reason) ++ leBytes 4 (satTo 32 (tick - e.since))

/-- The graph of the last build (R398). -/
def graphImage (y : Study) : List Byte :=
  leBytes 8 y.graphTick ++ leBytes 4 y.graph.length ++ leBytes 4 (bit y.cycle) ++ y.graph.flatMap (edgeBytes y.graphTick)

/-- Bytes of a message (spec/07 R166), up to the first 48. -/
def ChannelMsg.size : ChannelMsg → Nat
  | .down (.rowSetup _) | .down (.locate _ _ _ _ _ _) | .up (.maxSum _ _ _ _ _) | .up (.massSum _ _) | .up (.roundSum _ _) | .up (.located _ _) => 48
  | .down (.maxResult _ _ _) | .down (.cut _ _ _ _) | .down (.resid _ _) => 32
  | .down (.roundReq _ _ _) | .up (.raceSum _ _) | .up (.parity _ _) => 16
  | .down (.quotas _ q) => min 48 (4 * q.length)
  | .up (.keptSum _ l) => min 48 (16 * l.length)
  | .up (.residSum _ _ l) => min 48 (16 * l.length)
  | .down (.done _) => 8

/-- The payload of an entry: a message's first 48 bytes, or the fields that R397 names, whose places neither rule gives (DESIGN CHOICE, log 64). -/
def ringPayload (e : RingEvent) : List Byte :=
  match e.message with
  | some m => slice (Config.imageBytes m) 0 m.size
  | none => Config.imageBytes e.payload

/-- An event-ring entry: the Stairwell's and the Hallway's hold their 64 bytes, the others the common header and their payload (R397). -/
def ringEntry (e : RingEvent) : List Byte :=
  if e.ring = 6 ∨ e.ring = 7 then slice (words 8 e.payload) 0 64
  else slice (leBytes 6 e.time ++ leBytes 2 e.unit ++ leBytes 2 e.event ++ leBytes 2 0 ++ leBytes 4 e.object ++ ringPayload e) 0 64

/-- The 20 event rings in the order of R397, oldest entry first (DESIGN CHOICE, log 64). -/
def ringImage (y : Study) : List Byte :=
  (List.range 20).flatMap fun k => slice ((y.rings.filter (·.ring == k)).flatMap ringEntry) 0 0x4000

/-- A step's phase code (R74's order). -/
def Phase.code : Phase → Nat
  | .composing => 0 | .issued => 1 | .landing => 2 | .sampled => 3 | .committing => 4 | .committed => 5 | .killed => 6

/-- Manifest headers of uncommitted steps, each with its phase in 16 bytes. -/
def manifestImage (x : Inst) : List Byte :=
  ((x.mir.kitchen.steps.filter uncommitted).take 8).flatMap fun st => manifestHeader x st ++ leBytes 16 st.phase.code

/-- A window's backing store: its 4 KiB as the host reads them. -/
def windowImage (x : Inst) (w : Nat) : List Byte := (List.range 512).flatMap fun k => leBytes 8 (regValue (windowFields x w (8 * k))).toNat

/-- The windows, then the mailbox journal, which no rule lays out (DESIGN CHOICE, log 18). -/
def mailboxImage (x : Inst) : List Byte :=
  (List.range 64).flatMap (windowImage x) ++ slice (Config.imageBytes x.mir.mbox) 0 0x40000

/-- Each usher's queue and prefetch slots: the events it has yet to release, the first two in the prefetch slots. -/
def usherImage (x : Inst) : List Byte :=
  (List.range 32).flatMap fun u =>
    let l := x.hall.events.filter (·.usher == u)
    slice ((l.drop 2).flatMap (eventBytes x.mir)) 0 0x1000 ++ slice ((l.take 2).flatMap (eventBytes x.mir)) 0 128

/-- The Parlour: hot records in ascending local id, free slots zero (DESIGN CHOICE, log 64). -/
def parlourImage (m : Mirrored) : List Byte :=
  slice ((sortBy (fun a b => decide (a.r.localId < b.r.localId)) (m.seqs.filter (·.r.hot))).flatMap fun q => recordBytes q.r) 0 0x2000000

/-- The nine sections in order: type, bytes (R401). -/
def dumpSections (s : State) (i : InstId) : List (Nat × List Byte) :=
  let x := getInst s i
  [ (1, registerImage s i), (2, faultImage x.rel), (3, graphImage x.study), (4, ringImage x.study), (5, x.study.fifo.flatMap traceBytes),
    (6, manifestImage x), (7, mailboxImage x), (8, usherImage x), (9, parlourImage x.mir) ]

/-- A section that cannot be read in full is written up to the failing word; which one, and where, is open (R401, DESIGN CHOICE, log 2). -/
def cutSections (incomplete : Bool) (free : Nat) (l : List (Nat × List Byte)) : List (Nat × List Byte) :=
  if incomplete then
    l.zipIdx.map fun p => if p.2 = free % 9 then (p.1.1, p.1.2.take (free / 9 % (p.1.2.length / 8 + 1) * 8)) else p.1
  else l

/-- Sections with the offsets at which they stand: 64 KiB boundaries from 0x1_0000 (R401). -/
def placeSections : Nat → List (Nat × List Byte) → List (Nat × Nat × List Byte)
  | _, [] => []
  | off, p :: t => (off, p.1, p.2) :: placeSections (off + max 0x10000 (roundUp p.2.length 0x10000)) t

/-- The 4 KiB header, its CRC-32C still zero (R401). -/
def dumpHeader (x : Inst) (d : Dump) (incomplete : Bool) (check : Nat) (l : List (Nat × Nat × List Byte)) : List Byte :=
  layout 0x1000
    ([ lf 0x000 4 0x504D5544, lf 0x004 2 1, lf 0x006 2 (peerAddr x), lf 0x008 1 (bit d.fatal + 2 * bit incomplete), lf 0x009 1 d.code,
       lf 0x00A 2 d.index, lf 0x00C 4 x.hearth.fwBuild, lf 0x010 8 (wrapTo 48 d.began), lf 0x018 8 x.mir.kitchen.stepAssigned,
       lf 0x020 4 l.length, lf 0x024 4 check ] ++
     l.zipIdx.map fun p => (0x100 + 32 * p.2, leBytes 2 p.1.2.1 ++ leBytes 2 0 ++ leBytes 4 p.1.1 ++ leBytes 4 p.1.2.2.length ++
       leBytes 4 (crc32c p.1.2.2) ++ leBytes 16 0))

/-- Write a dump: the sections in order, the header last (R401). -/
def writeDump (i : InstId) (base : Nat) (d : Dump) (incomplete : Bool) (s : State) : State :=
  let f := takeFree s
  let x := getInst f.2 i
  let l := placeSections 0x10000 (cutSections incomplete f.1 (dumpSections f.2 i))
  let t := l.foldl (fun t p => hbmPut (base + p.1) p.2.2 t) f.2
  hbmPut base (dumpHeader x d incomplete (crc32c (dumpHeader x d incomplete 0 l)) l) t

/-- DUMP_COMPLETE (R399, R401, R402): the graph is built, the dump stands, the DUMP cause rises. -/
def execDumpComplete (i : InstId) (incomplete : Bool) (s : State) : Result :=
  let x := getInst s i
  match x.study.dump, look 6 x.place.regions with
  | some d, some g =>
    if x.study.dumpState != 1 || x.hearth.coreUp == 0 then .next s
    else
      let t := writeDump i g.base d incomplete (buildGraph i s)
      done i s (setCause i causeDump (modStudy i (fun y => { y with dumpState := if incomplete then 3 else 2 }) t))
  | _, _ => .next s

end Sys2Proof.Machine
end

