-- ==== Sys2Proof/Machine/Dispatch.lean ====
section
/-! DEFINITION. One arm per command: a direct call of its meaning. -/

namespace Sys2Proof.Machine

open Sys2Proof

def exec (i : Instr) (s : State) : Host.Outcome State Fault Refusal :=
  match i with
  | .powerOnReset => Sys2Proof.Machine.execPowerOnReset s
  | .blockReset a => Sys2Proof.Machine.execBlockReset a s
  | .functionLevelReset => Sys2Proof.Machine.execFunctionLevelReset s
  | .resetControlWrite a b => Sys2Proof.Machine.execResetControlWrite a b s
  | .tick => Sys2Proof.Machine.execTick s
  | .livenessAdvance a => Sys2Proof.Machine.execLivenessAdvance a s
  | .flashGrant => Sys2Proof.Machine.execFlashGrant s
  | .imageReadComplete a img => Sys2Proof.Machine.execImageReadComplete a img s
  | .signatureVerified a => Sys2Proof.Machine.execSignatureVerified a s
  | .coresReady a => Sys2Proof.Machine.execCoresReady a s
  | .discoveryComplete a => Sys2Proof.Machine.execDiscoveryComplete a s
  | .discoveryTimeout a => Sys2Proof.Machine.execDiscoveryTimeout a s
  | .watchdogExpiry a core => Sys2Proof.Machine.execWatchdogExpiry a core s
  | .coreRestartDone a core => Sys2Proof.Machine.execCoreRestartDone a core s
  | .uncorrectableEcc a site => Sys2Proof.Machine.execUncorrectableEcc a site s
  | .mailboxGo a w => Sys2Proof.Machine.execMailboxGo a w s
  | .mailboxGoTaken a w => Sys2Proof.Machine.execMailboxGoTaken a w s
  | .resHeadWrite a w v => Sys2Proof.Machine.execResHeadWrite a w v s
  | .placeRegion a w => Sys2Proof.Machine.execPlaceRegion a w s
  | .driveRange a w => Sys2Proof.Machine.execDriveRange a w s
  | .identity a w => Sys2Proof.Machine.execIdentity a w s
  | .pairing a w => Sys2Proof.Machine.execPairing a w s
  | .hostTrims a w table => Sys2Proof.Machine.execHostTrims a w table s
  | .dawnComplete a w => Sys2Proof.Machine.execDawnComplete a w s
  | .class0Reserve a w => Sys2Proof.Machine.execClass0Reserve a w s
  | .contextOpen a w => Sys2Proof.Machine.execContextOpen a w s
  | .contextConfigure a w => Sys2Proof.Machine.execContextConfigure a w s
  | .contextClose a w => Sys2Proof.Machine.execContextClose a w s
  | .contextCloseDone a c => Sys2Proof.Machine.execContextCloseDone a c s
  | .contextQuery a w => Sys2Proof.Machine.execContextQuery a w s
  | .recipeDefine a w img => Sys2Proof.Machine.execRecipeDefine a w img s
  | .recipeUndefine a w => Sys2Proof.Machine.execRecipeUndefine a w s
  | .planRegister a w => Sys2Proof.Machine.execPlanRegister a w s
  | .planUnregister a w => Sys2Proof.Machine.execPlanUnregister a w s
  | .planQuery a w => Sys2Proof.Machine.execPlanQuery a w s
  | .cancel a w => Sys2Proof.Machine.execCancel a w s
  | .park a w => Sys2Proof.Machine.execPark a w s
  | .resume a w => Sys2Proof.Machine.execResume a w s
  | .extend a w toks => Sys2Proof.Machine.execExtend a w toks s
  | .querySequence a w => Sys2Proof.Machine.execQuerySequence a w s
  | .modelDescribe a w desc => Sys2Proof.Machine.execModelDescribe a w desc s
  | .modelQuery a w => Sys2Proof.Machine.execModelQuery a w s
  | .modelForget a w => Sys2Proof.Machine.execModelForget a w s
  | .modelLoaded a w => Sys2Proof.Machine.execModelLoaded a w s
  | .modelLoadDeclined a w => Sys2Proof.Machine.execModelLoadDeclined a w s
  | .modelUnloaded a w => Sys2Proof.Machine.execModelUnloaded a w s
  | .modelPin a w => Sys2Proof.Machine.execModelPin a w s
  | .epochStage a w desc => Sys2Proof.Machine.execEpochStage a w desc s
  | .epochReady a w => Sys2Proof.Machine.execEpochReady a w s
  | .epochCommit a w => Sys2Proof.Machine.execEpochCommit a w s
  | .epochUnstage a w => Sys2Proof.Machine.execEpochUnstage a w s
  | .epochRetire a w => Sys2Proof.Machine.execEpochRetire a w s
  | .evening a w => Sys2Proof.Machine.execEvening a w s
  | .eveningComplete a => Sys2Proof.Machine.execEveningComplete a s
  | .morning a w => Sys2Proof.Machine.execMorning a w s
  | .turnCost a w => Sys2Proof.Machine.execTurnCost a w s
  | .poolLend a w => Sys2Proof.Machine.execPoolLend a w s
  | .poolReturn a w => Sys2Proof.Machine.execPoolReturn a w s
  | .snapshot a w => Sys2Proof.Machine.execSnapshot a w s
  | .restore a w => Sys2Proof.Machine.execRestore a w s
  | .restoreComplete a => Sys2Proof.Machine.execRestoreComplete a s
  | .lossBound a w => Sys2Proof.Machine.execLossBound a w s
  | .driveRetry a w => Sys2Proof.Machine.execDriveRetry a w s
  | .migrate a w => Sys2Proof.Machine.execMigrate a w s
  | .directionsSet a w list => Sys2Proof.Machine.execDirectionsSet a w list s
  | .watch a w => Sys2Proof.Machine.execWatch a w s
  | .trace a w => Sys2Proof.Machine.execTrace a w s
  | .traceDrained a => Sys2Proof.Machine.execTraceDrained a s
  | .counters a w => Sys2Proof.Machine.execCounters a w s
  | .imageWrite a w img => Sys2Proof.Machine.execImageWrite a w img s
  | .imageProgramDone a ok => Sys2Proof.Machine.execImageProgramDone a ok s
  | .firmwareConfirm a w => Sys2Proof.Machine.execFirmwareConfirm a w s
  | .sqTailDoorbell a c v => Sys2Proof.Machine.execSqTailDoorbell a c v s
  | .submitEntry a c entry prompt stop => Sys2Proof.Machine.execSubmitEntry a c entry prompt stop s
  | .sqNop a c entry => Sys2Proof.Machine.execSqNop a c entry s
  | .sqBadKind a c entry => Sys2Proof.Machine.execSqBadKind a c entry s
  | .foyerReevaluation a => Sys2Proof.Machine.execFoyerReevaluation a s
  | .deferLimitExpiry a c => Sys2Proof.Machine.execDeferLimitExpiry a c s
  | .cqHeadWrite a c v => Sys2Proof.Machine.execCqHeadWrite a c v s
  | .cqRingWrite a c => Sys2Proof.Machine.execCqRingWrite a c s
  | .irqModerationTimer a c => Sys2Proof.Machine.execIrqModerationTimer a c s
  | .irqStatusClear a wide off v => Sys2Proof.Machine.execIrqStatusClear a wide off v s
  | .irqEnableWrite a wide off v => Sys2Proof.Machine.execIrqEnableWrite a wide off v s
  | .dmaError a c => Sys2Proof.Machine.execDmaError a c s
  | .teardownComplete a c => Sys2Proof.Machine.execTeardownComplete a c s
  | .composeStep a fuse => Sys2Proof.Machine.execComposeStep a fuse s
  | .drawList o => Sys2Proof.Machine.execDrawList o s
  | .keystreamBlock o h lane low => Sys2Proof.Machine.execKeystreamBlock o h lane low s
  | .classMapLoaded o plan lane => Sys2Proof.Machine.execClassMapLoaded o plan lane s
  | .larderGranuleWrite o off data => Sys2Proof.Machine.execLarderGranuleWrite o off data s
  | .waveDoneMarker o step wave => Sys2Proof.Machine.execWaveDoneMarker o step wave s
  | .waveLandedNotice a die step wave => Sys2Proof.Machine.execWaveLandedNotice a die step wave s
  | .completionNotice a die step => Sys2Proof.Machine.execCompletionNotice a die step s
  | .killAcknowledgement a die step => Sys2Proof.Machine.execKillAcknowledgement a die step s
  | .kernelFault a die step => Sys2Proof.Machine.execKernelFault a die step s
  | .lanePassComplete o h ev => Sys2Proof.Machine.execLanePassComplete o h ev s
  | .rowSetup o => Sys2Proof.Machine.execRowSetup o s
  | .maxResult o => Sys2Proof.Machine.execMaxResult o s
  | .roundReq o => Sys2Proof.Machine.execRoundReq o s
  | .cut o => Sys2Proof.Machine.execCut o s
  | .quotas o => Sys2Proof.Machine.execQuotas o s
  | .locate o => Sys2Proof.Machine.execLocate o s
  | .doneMsg o => Sys2Proof.Machine.execDoneMsg o s
  | .maxSum a o => Sys2Proof.Machine.execMaxSum a o s
  | .massSum a o => Sys2Proof.Machine.execMassSum a o s
  | .roundSum a o => Sys2Proof.Machine.execRoundSum a o s
  | .keptSum a o => Sys2Proof.Machine.execKeptSum a o s
  | .raceSum a o => Sys2Proof.Machine.execRaceSum a o s
  | .located a o => Sys2Proof.Machine.execLocated a o s
  | .parity a o => Sys2Proof.Machine.execParity a o s
  | .laneGroupSelftestDone o failed => Sys2Proof.Machine.execLaneGroupSelftestDone o failed s
  | .fenceMaskWrite a o wide v => Sys2Proof.Machine.execFenceMaskWrite a o wide v s
  | .commitPoint a step => Sys2Proof.Machine.execCommitPoint a step s
  | .tokenCommit a lid => Sys2Proof.Machine.execTokenCommit a lid s
  | .stopCheck a lid => Sys2Proof.Machine.execStopCheck a lid s
  | .kill a lid => Sys2Proof.Machine.execKill a lid s
  | .admitSeq a lid => Sys2Proof.Machine.execAdmitSeq a lid s
  | .warm a lid => Sys2Proof.Machine.execWarm a lid s
  | .cool a lid => Sys2Proof.Machine.execCool a lid s
  | .coolMarkWrite a wide v => Sys2Proof.Machine.execCoolMarkWrite a wide v s
  | .pageHeadroomWrite a wide v => Sys2Proof.Machine.execPageHeadroomWrite a wide v s
  | .evictionPark a lid => Sys2Proof.Machine.execEvictionPark a lid s
  | .evictionResume a lid => Sys2Proof.Machine.execEvictionResume a lid s
  | .kvInvalidation a lid => Sys2Proof.Machine.execKvInvalidation a lid s
  | .sequenceCancel a lid => Sys2Proof.Machine.execSequenceCancel a lid s
  | .sequencePark a lid => Sys2Proof.Machine.execSequencePark a lid s
  | .sequenceResume a lid => Sys2Proof.Machine.execSequenceResume a lid s
  | .sequenceExtend a lid => Sys2Proof.Machine.execSequenceExtend a lid s
  | .forceRun a lid => Sys2Proof.Machine.execForceRun a lid s
  | .midnight a m => Sys2Proof.Machine.execMidnight a m s
  | .midnightEvent a lid => Sys2Proof.Machine.execMidnightEvent a lid s
  | .epochAbort a lid => Sys2Proof.Machine.execEpochAbort a lid s
  | .eveningEvent a lid => Sys2Proof.Machine.execEveningEvent a lid s
  | .morningEvent a lid => Sys2Proof.Machine.execMorningEvent a lid s
  | .broadcastSweep a lid => Sys2Proof.Machine.execBroadcastSweep a lid s
  | .migrateOut a lid => Sys2Proof.Machine.execMigrateOut a lid s
  | .migrateAck a lid => Sys2Proof.Machine.execMigrateAck a lid s
  | .migrateFail a lid => Sys2Proof.Machine.execMigrateFail a lid s
  | .migrateIn a lid => Sys2Proof.Machine.execMigrateIn a lid s
  | .migrateDone a lid => Sys2Proof.Machine.execMigrateDone a lid s
  | .household a lid => Sys2Proof.Machine.execHousehold a lid s
  | .teardown a lid => Sys2Proof.Machine.execTeardown a lid s
  | .planReady a lid => Sys2Proof.Machine.execPlanReady a lid s
  | .context a c => Sys2Proof.Machine.execContext a c s
  | .deadlineEntry a lid => Sys2Proof.Machine.execDeadlineEntry a lid s
  | .parkWake a lid => Sys2Proof.Machine.execParkWake a lid s
  | .migrationRetry a subject => Sys2Proof.Machine.execMigrationRetry a subject s
  | .migrationTimeout a subject => Sys2Proof.Machine.execMigrationTimeout a subject s
  | .arrivalTimeout a subject => Sys2Proof.Machine.execArrivalTimeout a subject s
  | .mailboxCommandTimeout a core => Sys2Proof.Machine.execMailboxCommandTimeout a core s
  | .duskSpillRefill a list => Sys2Proof.Machine.execDuskSpillRefill a list s
  | .planFetchDone a plan img => Sys2Proof.Machine.execPlanFetchDone a plan img s
  | .latchAcquire a latch step => Sys2Proof.Machine.execLatchAcquire a latch step s
  | .latchRelease a latch => Sys2Proof.Machine.execLatchRelease a latch s
  | .latchConfigWrite a wide off v => Sys2Proof.Machine.execLatchConfigWrite a wide off v s
  | .announce a msg => Sys2Proof.Machine.execAnnounce a msg s
  | .announceReply a msg => Sys2Proof.Machine.execAnnounceReply a msg s
  | .offer a msg => Sys2Proof.Machine.execOffer a msg s
  | .accept a msg => Sys2Proof.Machine.execAccept a msg s
  | .refuse a msg => Sys2Proof.Machine.execRefuse a msg s
  | .dataMsg a msg => Sys2Proof.Machine.execDataMsg a msg s
  | .dataAck a msg => Sys2Proof.Machine.execDataAck a msg s
  | .handover a msg => Sys2Proof.Machine.execHandover a msg s
  | .ack a msg => Sys2Proof.Machine.execAck a msg s
  | .nak a msg => Sys2Proof.Machine.execNak a msg s
  | .abandon a msg => Sys2Proof.Machine.execAbandon a msg s
  | .bounce a msg => Sys2Proof.Machine.execBounce a msg s
  | .reorderRelease a => Sys2Proof.Machine.execReorderRelease a s
  | .injectionSeedWrite a wide v => Sys2Proof.Machine.execInjectionSeedWrite a wide v s
  | .stairwellTimingWrite a wide off v => Sys2Proof.Machine.execStairwellTimingWrite a wide off v s
  | .mirrorMessage a bad => Sys2Proof.Machine.execMirrorMessage a bad s
  | .mirrorAck a => Sys2Proof.Machine.execMirrorAck a s
  | .mirrorSyncComplete a => Sys2Proof.Machine.execMirrorSyncComplete a s
  | .heartbeat => Sys2Proof.Machine.execHeartbeat s
  | .heartbeatLost a => Sys2Proof.Machine.execHeartbeatLost a s
  | .livenessCheck a => Sys2Proof.Machine.execLivenessCheck a s
  | .failMsg a => Sys2Proof.Machine.execFailMsg a s
  | .claim a o => Sys2Proof.Machine.execClaim a o s
  | .takeover a => Sys2Proof.Machine.execTakeover a s
  | .claimRefused a => Sys2Proof.Machine.execClaimRefused a s
  | .digestPair a => Sys2Proof.Machine.execDigestPair a s
  | .driveCompletion a ok => Sys2Proof.Machine.execDriveCompletion a ok s
  | .driveTimeout a => Sys2Proof.Machine.execDriveTimeout a s
  | .journalFlush a => Sys2Proof.Machine.execJournalFlush a s
  | .flushDeferExpiry a => Sys2Proof.Machine.execFlushDeferExpiry a s
  | .flushComplete a => Sys2Proof.Machine.execFlushComplete a s
  | .bulkImageStart a => Sys2Proof.Machine.execBulkImageStart a s
  | .bulkImageDurable a => Sys2Proof.Machine.execBulkImageDurable a s
  | .graphBuild a => Sys2Proof.Machine.execGraphBuild a s
  | .traceWaitLimit a waiter holder reason object => Sys2Proof.Machine.execTraceWaitLimit a waiter holder reason object s
  | .traceBurstTimeout a => Sys2Proof.Machine.execTraceBurstTimeout a s
  | .traceSync a => Sys2Proof.Machine.execTraceSync a s
  | .traceRpWrite a wide off v => Sys2Proof.Machine.execTraceRpWrite a wide off v s
  | .dumpRequest a wide v => Sys2Proof.Machine.execDumpRequest a wide v s
  | .dumpComplete a incomplete => Sys2Proof.Machine.execDumpComplete a incomplete s
  | .dumpAck a wide v => Sys2Proof.Machine.execDumpAck a wide v s
  | .studyCauseClear a wide v => Sys2Proof.Machine.execStudyCauseClear a wide v s
  | .epochRetiredClear a wide off v => Sys2Proof.Machine.execEpochRetiredClear a wide off v s
  | .wdogExpiredClear a wide v => Sys2Proof.Machine.execWdogExpiredClear a wide v s
  | .fenceRefusedClear a o wide v => Sys2Proof.Machine.execFenceRefusedClear a o wide v s
  | .kitchenLimitWrite a wide off v => Sys2Proof.Machine.execKitchenLimitWrite a wide off v s
  | .rcFieldRead a wide off => Sys2Proof.Machine.execRcFieldRead a wide off s
  | .registerWrite a wide off v => Sys2Proof.Machine.execRegisterWrite a wide off v s
  | .powerLoss => Sys2Proof.Machine.execPowerLoss s
  | .linkCreditsReturned a n => Sys2Proof.Machine.execLinkCreditsReturned a n s
  | .pathRestored => Sys2Proof.Machine.execPathRestored s

end Sys2Proof.Machine
end

