-- ==== Sys2Proof/Safety.lean ====
section
/-! DEFINITION. What a safe run is, in the terms that claims use: a step that goes on, memories in canonical form, a change confined to one instance. -/

namespace Sys2Proof

open Sys2Proof.Machine

/-- The byte memories, HBM, the host's and the outposts' Larders, are in canonical form: addresses rising, no listed byte 0. -/
def MemOk (s : State) : Prop := Machine.Mem.wf s.hbm = true ∧ Machine.Mem.wf s.host = true ∧ ∀ o ∈ s.outposts, Machine.Mem.wf o.larder = true

/-- The command goes on to a state that `p` holds of. -/
def Goes (c : Instr) (s : State) (p : State → Prop) : Prop := ∃ t, exec c s = .next t ∧ p t

/-- An usher's event, or another command that ends as one does, goes on: what its own rule gives is `v`, of which `p` holds; `after` follows on it, and the closing work (forced runs, deferred requests, the turn, teardowns) ends it. -/
def Ends (c : Instr) (i : InstId) (s : State) (after : State → State) (p : State → Prop) : Prop :=
  ∃ v, exec c s = .next (closed i s (after v)) ∧ p v

/-- A command of the rings, the Landing or a register goes on: its own rule leaves `v`, of which `p` holds; due teardowns, watches and the mirror stream end it. -/
def Settles (c : Instr) (i : InstId) (s : State) (p : State → Prop) : Prop := ∃ v, exec c s = .next (settled i s v) ∧ p v

/-- A command that can make nothing else due goes on: its own rule leaves `v`, of which `p` holds; the mirror stream carries what it changed. -/
def Mirrors (c : Instr) (i : InstId) (s : State) (p : State → Prop) : Prop := ∃ v, exec c s = .next (mirrorOut i s v) ∧ p v

/-- The serving core may start the mailbox command `c` of code `code` in window `w`: it is the core's next, nothing of its scope refuses it, no reserved byte is set and no undefined case is met. -/
def starts (i : InstId) (w code : Nat) (bad : MboxCmd → Option Nat) (s : State) (c : MboxCmd) : Bool :=
  nextCommand s i w == some c && c.window == w && c.code == code &&
    (match cmdSpec code with
      | some sp => scopeRefusal s i sp w == none && reservedZero sp.fields c.params
      | none => false) && bad c == none

/-- A mailbox command goes on and gives its answer `a`: its own rule leaves `v`, of which `p` holds. -/
def Answers (cmd : Instr) (i : InstId) (c : MboxCmd) (s : State) (a : Answer) (after : State → State) (p : State → Prop) : Prop :=
  ∃ v, exec cmd s = .next (closed i s (answerCmd i c a (after v))) ∧ p v

/-- The command is refused, or has nothing to do: it gives its answer `a` and nothing else. -/
def Refuses (cmd : Instr) (i : InstId) (c : MboxCmd) (s : State) (a : Answer) : Prop := Answers cmd i c s a (fun v => v) (fun v => v = startCmd i c s)

/-- The serving core may start the command `c`, whose only undefined case, if it meets one, is an overlap (2), which a refusal spares it. -/
def mayRefuse (i : InstId) (w code : Nat) (bad : MboxCmd → Option Nat) (s : State) (c : MboxCmd) : Bool :=
  starts i w code noCase s c && (bad c == none || bad c == some 2)

/-- The mailbox commands' rows: instance, window and code (spec/14 R295). -/
def mailboxRow : Instr → Option (InstId × Nat × Nat)
  | .placeRegion i w => some (i, w, 0x01)
  | .driveRange i w => some (i, w, 0x02)
  | .identity i w => some (i, w, 0x03)
  | .pairing i w => some (i, w, 0x04)
  | .hostTrims i w _ => some (i, w, 0x05)
  | .dawnComplete i w => some (i, w, 0x06)
  | .class0Reserve i w => some (i, w, 0x10)
  | .contextOpen i w => some (i, w, 0x20)
  | .contextConfigure i w => some (i, w, 0x21)
  | .contextClose i w => some (i, w, 0x22)
  | .contextQuery i w => some (i, w, 0x23)
  | .recipeDefine i w _ => some (i, w, 0x30)
  | .recipeUndefine i w => some (i, w, 0x31)
  | .planRegister i w => some (i, w, 0x40)
  | .planUnregister i w => some (i, w, 0x41)
  | .planQuery i w => some (i, w, 0x42)
  | .cancel i w => some (i, w, 0x50)
  | .park i w => some (i, w, 0x51)
  | .resume i w => some (i, w, 0x52)
  | .extend i w _ => some (i, w, 0x53)
  | .querySequence i w => some (i, w, 0x54)
  | .modelDescribe i w _ => some (i, w, 0x60)
  | .modelQuery i w => some (i, w, 0x61)
  | .modelForget i w => some (i, w, 0x62)
  | .modelLoaded i w => some (i, w, 0x63)
  | .modelLoadDeclined i w => some (i, w, 0x64)
  | .modelUnloaded i w => some (i, w, 0x65)
  | .modelPin i w => some (i, w, 0x66)
  | .epochStage i w _ => some (i, w, 0x70)
  | .epochReady i w => some (i, w, 0x71)
  | .epochCommit i w => some (i, w, 0x72)
  | .epochUnstage i w => some (i, w, 0x73)
  | .epochRetire i w => some (i, w, 0x74)
  | .evening i w => some (i, w, 0x80)
  | .morning i w => some (i, w, 0x81)
  | .turnCost i w => some (i, w, 0x82)
  | .poolLend i w => some (i, w, 0x83)
  | .poolReturn i w => some (i, w, 0x84)
  | .snapshot i w => some (i, w, 0x90)
  | .restore i w => some (i, w, 0x91)
  | .lossBound i w => some (i, w, 0x92)
  | .driveRetry i w => some (i, w, 0x93)
  | .migrate i w => some (i, w, 0xA0)
  | .directionsSet i w _ => some (i, w, 0xA1)
  | .watch i w => some (i, w, 0xB0)
  | .trace i w => some (i, w, 0xB1)
  | .counters i w => some (i, w, 0xB2)
  | .imageWrite i w _ => some (i, w, 0xC0)
  | .firmwareConfirm i w => some (i, w, 0xC1)
  | _ => none

/-- The undefined case of spec/00 R12 that a mailbox command's parameters meet, by number; an overlap (2) counts only where the command acts. -/
def rowCase (s : State) : Instr → MboxCmd → Option Nat
  | .placeRegion i _ => placeCase s i
  | .identity _ _ => fun c => overId (prm c 0 2) 8192
  | .hostTrims _ _ table => trimsCase s table
  | .contextOpen _ _ | .contextConfigure _ _ => openCase
  | .contextClose _ _ => closeCase
  | .contextQuery _ _ => outCase s 0 128
  | .recipeDefine i _ img => recipeCase s i img
  | .recipeUndefine i _ => undefineCase (getInst s i)
  | .planRegister _ _ => planCase s
  | .cancel _ _ => cancelCase
  | .park _ _ => orderCase true
  | .resume _ _ => orderCase false
  | .extend i _ toks => extendCase s i toks
  | .querySequence _ _ => queryCase s
  | .modelDescribe _ _ desc => describeCase s desc
  | .modelQuery _ _ => fun c => (modelCase c).or (outCase s 8 64 c)
  | .modelForget _ _ | .modelLoaded _ _ | .modelLoadDeclined _ _ | .modelUnloaded _ _ | .modelPin _ _ | .epochReady _ _ | .epochCommit _ _
  | .epochUnstage _ _ | .epochRetire _ _ => modelCase
  | .epochStage _ _ desc => stageCase s desc
  | .morning _ _ => morningCase
  | .turnCost i _ => outCase s 0 (32 * (openCtxs (mir s i)).length)
  | .poolLend i _ => outCase s 0 (8 * (extents (getInst s i)).length)
  | .snapshot _ _ => fun c => tooWide (prm c 0 4) 10
  | .restore _ _ => fun c => tooWide (prm c 0 4) 1
  | .migrate _ _ => migrateCase
  | .directionsSet _ _ list => directionsCase s list
  | .watch _ _ => watchCase s
  | .counters _ _ => fun c => if prm c 0 4 = 0 then none else outCase s 8 (256 * popCount 32 (prm c 0 4)) c
  | .imageWrite _ _ img => imageCase s img
  | _ => noCase

/-- A peer message of type `ty` arrives whole: the fabric is on, it is for this address, its check holds and, where its type carries one, its generation is the instance's; the Stairwell is not held (spec/12 R259). -/
def whole (s : State) (i : InstId) (ty : Nat) (m : PeerMsg) : Bool :=
  fabricOn s i && m.dst == peerAddr (getInst s i) && msgCheck m == m.check && m.type == ty && (!hasGen ty || m.dstGen == (getInst s i).stair.roleGen)
    && !intakeFull 3 (getInst s i).hall

/-- It arrives whole, and no reserved bit of its header is set (spec/00 R12). -/
def arrives (s : State) (i : InstId) (ty : Nat) (m : PeerMsg) : Bool := whole s i ty m && !headerReserved m

/-- A message has been received and counted, and nothing has been made of it. -/
def Heard (i : InstId) (s v : State) : Prop :=
  (getInst v i).stair = { (getInst s i).stair with received := (getInst s i).stair.received + 1 } ∧ mir v i = mir s i ∧
    (getInst v i).hall = (getInst s i).hall ∧ v.hbm = s.hbm ∧ v.host = s.host ∧ v.tick = s.tick

/-- A peer message goes on: it is received, and `f` acts on it. -/
def Receives (c : Instr) (i : InstId) (f : State → State) (s : State) : Prop := Ends c i s f (Heard i s)

/-- What an access of the bus writes: the value in its place and the bits that it reaches (spec/19 R412). -/
def busWrite (wide : Bool) (off v : Nat) : BusWrite := { val := (access wide off v).1, reach := (access wide off v).2 }

/-- The command stops at a case of spec/00 R12, by its number. -/
def StopsAt (c : Instr) (s : State) (n : Nat) : Prop := exec c s = .fault (.undefinedCase n)

/-- Two states differ in instance `i` alone. -/
def OnlyInst (i : InstId) (s t : State) : Prop :=
  { s with a := t.a, b := t.b } = t ∧ getInst t (Machine.other i) = getInst s (Machine.other i)

/-- Two states differ in what instance `i` mirrors and what it sends its mirror, alone. -/
def OnlyMirror (i : InstId) (s t : State) : Prop :=
  OnlyInst i s t ∧ getInst t i = { getInst s i with mir := mir t i, rel := { (getInst s i).rel with streamOut := (getInst t i).rel.streamOut } }

/-- Two states differ in outpost `o` alone. -/
def OnlyOutpost (o : Nat) (s t : State) : Prop := { s with outposts := t.outposts } = t ∧ ∀ p, p ≠ o → getOutpost t p = getOutpost s p

/-- A 4-byte write of `v` in the Kitchen block goes on, and the instance's Kitchen becomes `f` of it: nothing else of what the instance mirrors changes. -/
def LimitSet (i : InstId) (s : State) (off v : Nat) (f : Kitchen → Kitchen) : Prop :=
  Settles (.kitchenLimitWrite i false off v) i s (fun t => mir t i = { mir s i with kitchen := f (mir s i).kitchen } ∧ OnlyMirror i s t)

/-- An outpost takes the message at the front of a peer channel from instance `i`: it leaves the channel, the row it names becomes what `f` makes of it, and nothing else changes. -/
def RowTakes (c : Instr) (o : Nat) (i : InstId) (h : RowHandle) (f : OutRow → OutRow) (s : State) : Prop :=
  Goes c s (fun t => OnlyOutpost o s t ∧ downOf (getOutpost t o) i = (downOf (getOutpost s o) i).drop 1 ∧
    downOf (getOutpost t o) (Machine.other i) = downOf (getOutpost s o) (Machine.other i) ∧
    (getOutpost t o).rows = (getOutpost s o).rows.map (fun r => if r.su.h == h then f r else r) ∧
    (getOutpost t o).larder = (getOutpost s o).larder ∧ (getOutpost t o).fifo = (getOutpost s o).fifo)

/-- An outpost that does not hold the row takes the message at the front of instance `i`'s channel and discards it, which is counted (spec/07 R167). -/
def RowDropped (c : Instr) (o : Nat) (i : InstId) (s : State) : Prop :=
  Goes c s (fun t => t = discardDown i (modOutpost o (fun x => downPut i ((downOf x i).drop 1) x) s))

/-- The host sees no difference: nothing but the queue and the counter of free values may differ. -/
def SameMachine (s t : State) : Prop := { s with pending := t.pending, free := t.free } = t

/-- The instance that a command acts within: none for a command of the package or of an outpost, and for one by which the two instances meet. -/
def within : Instr → Option InstId
  | .blockReset i | .livenessAdvance i | .imageReadComplete i _ | .signatureVerified i | .coresReady i | .discoveryComplete i | .discoveryTimeout i
  | .watchdogExpiry i _ | .coreRestartDone i _ | .uncorrectableEcc i _ | .mailboxGo i _ | .mailboxGoTaken i _ | .resHeadWrite i _ _
  | .placeRegion i _ | .driveRange i _ | .identity i _ | .pairing i _ | .hostTrims i _ _ | .dawnComplete i _ | .class0Reserve i _ | .contextOpen i _
  | .contextConfigure i _ | .contextClose i _ | .contextCloseDone i _ | .contextQuery i _ | .recipeDefine i _ _ | .recipeUndefine i _
  | .planRegister i _ | .planUnregister i _ | .planQuery i _ | .cancel i _ | .park i _ | .resume i _ | .extend i _ _ | .querySequence i _
  | .modelDescribe i _ _ | .modelQuery i _ | .modelForget i _ | .modelLoaded i _ | .modelLoadDeclined i _ | .modelUnloaded i _ | .modelPin i _
  | .epochStage i _ _ | .epochReady i _ | .epochCommit i _ | .epochUnstage i _ | .epochRetire i _ | .evening i _ | .eveningComplete i | .turnCost i _
  | .poolLend i _ | .poolReturn i _ | .snapshot i _ | .restore i _ | .restoreComplete i | .lossBound i _ | .driveRetry i _ | .migrate i _
  | .directionsSet i _ _ | .watch i _ | .trace i _ | .traceDrained i | .counters i _ | .imageWrite i _ _ | .imageProgramDone i _ | .firmwareConfirm i _
  | .sqTailDoorbell i _ _ | .submitEntry i _ _ _ _ | .sqNop i _ _ | .sqBadKind i _ _ | .foyerReevaluation i | .deferLimitExpiry i _
  | .cqHeadWrite i _ _ | .cqRingWrite i _ | .irqModerationTimer i _ | .irqStatusClear i _ _ _ | .irqEnableWrite i _ _ _ | .dmaError i _
  | .teardownComplete i _ | .composeStep i _ | .waveLandedNotice i _ _ _ | .completionNotice i _ _ | .killAcknowledgement i _ _ | .kernelFault i _ _
  | .maxSum i _ | .massSum i _ | .roundSum i _ | .keptSum i _ | .raceSum i _ | .located i _ | .parity i _ | .fenceMaskWrite i _ _ _
  | .commitPoint i _ | .tokenCommit i _ | .stopCheck i _ | .kill i _ | .admitSeq i _ | .warm i _ | .cool i _ | .coolMarkWrite i _ _
  | .pageHeadroomWrite i _ _ | .evictionPark i _ | .evictionResume i _ | .kvInvalidation i _ | .sequenceCancel i _ | .sequencePark i _
  | .sequenceResume i _ | .sequenceExtend i _ | .forceRun i _ | .midnight i _ | .midnightEvent i _ | .epochAbort i _ | .eveningEvent i _
  | .morningEvent i _ | .broadcastSweep i _ | .migrateOut i _ | .migrateAck i _ | .migrateFail i _ | .migrateIn i _ | .migrateDone i _
  | .household i _ | .teardown i _ | .planReady i _ | .context i _ | .deadlineEntry i _ | .parkWake i _ | .migrationRetry i _ | .migrationTimeout i _
  | .arrivalTimeout i _ | .mailboxCommandTimeout i _ | .duskSpillRefill i _ | .planFetchDone i _ _ | .latchAcquire i _ _ | .latchRelease i _
  | .latchConfigWrite i _ _ _ | .announce i _ | .announceReply i _ | .offer i _ | .accept i _ | .refuse i _ | .dataMsg i _ | .dataAck i _
  | .handover i _ | .ack i _ | .nak i _ | .abandon i _ | .bounce i _ | .reorderRelease i | .injectionSeedWrite i _ _ | .stairwellTimingWrite i _ _ _
  | .mirrorAck i | .heartbeatLost i | .livenessCheck i | .claim i _ | .claimRefused i | .digestPair i | .driveTimeout i | .journalFlush i
  | .flushDeferExpiry i | .bulkImageStart i | .graphBuild i | .traceWaitLimit i _ _ _ _ | .traceBurstTimeout i | .traceSync i | .traceRpWrite i _ _ _
  | .dumpRequest i _ _ | .dumpComplete i _ | .dumpAck i _ _ | .studyCauseClear i _ _ | .epochRetiredClear i _ _ _ | .wdogExpiredClear i _ _
  | .fenceRefusedClear i _ _ _ | .kitchenLimitWrite i _ _ _ | .rcFieldRead i _ _ | .registerWrite i _ _ _ | .linkCreditsReturned i _ => some i
  | .powerOnReset | .functionLevelReset | .resetControlWrite _ _ | .tick | .flashGrant | .morning _ _ | .drawList _
  | .keystreamBlock _ _ _ _ | .classMapLoaded _ _ _ | .larderGranuleWrite _ _ _ | .waveDoneMarker _ _ _ | .lanePassComplete _ _ _ | .rowSetup _
  | .maxResult _ | .roundReq _ | .cut _ | .quotas _ | .locate _ | .doneMsg _ | .laneGroupSelftestDone _ _ | .mirrorMessage _ _
  | .mirrorSyncComplete _ | .heartbeat | .failMsg _ | .takeover _ | .driveCompletion _ _ | .flushComplete _ | .bulkImageDurable _ | .powerLoss
  | .pathRestored => none

/-- The instance that a message at the front of an outpost's channel, of which `p` holds, came from. -/
def sentBy (s : State) (o : Nat) (p : DownMsg → Bool) : Option InstId := (downHead (getOutpost s o) p).map (·.1)

/-- The instance that a command acts for in a state: its own, the one whose slice an access reaches (spec/01 R23), the owner of the outpost, whose row it is, or the sender of the message that the outpost takes. -/
def actsFor (s : State) : Instr → Option InstId
  | .driveCompletion i _ | .flushComplete i | .bulkImageDurable i => some i
  | .waveDoneMarker o _ _ | .laneGroupSelftestDone o _ => (getOutpost s o).owner
  | .registerWrite i _ off _ | .rcFieldRead i _ off => some (bar2 i off).1
  | .lanePassComplete o h _ => (((getOutpost s o).rows.find? (·.su.h == h)).map (·.inst)).filter fun i => (getOutpost s o).owner == some i
  | .rowSetup o => sentBy s o (fun m => match m with | .rowSetup _ => true | _ => false)
  | .maxResult o => sentBy s o (fun m => match m with | .maxResult _ _ _ => true | _ => false)
  | .roundReq o => sentBy s o (fun m => match m with | .roundReq _ _ _ => true | _ => false)
  | .cut o => sentBy s o (fun m => match m with | .cut _ _ _ _ | .resid _ _ => true | _ => false)
  | .quotas o => sentBy s o (fun m => match m with | .quotas _ _ => true | _ => false)
  | .locate o => sentBy s o (fun m => match m with | .locate _ _ _ _ _ _ => true | _ => false)
  | .doneMsg o => sentBy s o (fun m => match m with | .done _ => true | _ => false)
  | c => within c

/-- The commands that may write the flash die, or who holds or awaits its bus (spec/01 R25, spec/13 R271-R279, spec/20 R436). -/
def mayWriteFlash : Instr → Bool
  | .powerOnReset | .blockReset _ | .functionLevelReset | .resetControlWrite _ _ | .tick | .flashGrant | .imageReadComplete _ _
  | .signatureVerified _ | .imageWrite _ _ _ | .imageProgramDone _ _ | .firmwareConfirm _ _ | .takeover _ | .powerLoss => true
  | _ => false

/-- The commands that may write the host's memory: rings, shadows, the buffers that an entry names (spec/14 R308-R310). -/
def mayWriteHost : Instr → Bool
  | .restoreComplete _ | .submitEntry _ _ _ _ _ | .sqNop _ _ _ | .sqBadKind _ _ _ | .cqRingWrite _ _ => true
  | _ => false

/-- The commands that may set a calibration register, or clear it (spec/13 R276, spec/20 R433). -/
def mayTrim : Instr → Bool
  | .powerOnReset | .signatureVerified _ | .hostTrims _ _ _ | .powerLoss | .blockReset _ | .functionLevelReset | .resetControlWrite _ _ => true
  | _ => false

/-- The commands that may begin or end a reset (spec/20 R433-R436). -/
def mayReset : Instr → Bool
  | .powerOnReset | .blockReset _ | .functionLevelReset | .resetControlWrite _ _ | .tick | .powerLoss => true
  | _ => false

/-- Commands that write no byte of HBM. -/
def keepsHbm : Instr → Bool
  | .blockReset _ | .functionLevelReset | .resetControlWrite _ _ | .livenessAdvance _ | .imageReadComplete _ _ | .signatureVerified _
  | .coresReady _ | .coreRestartDone _ _ | .mailboxGo _ _ | .resHeadWrite _ _ _ | .sqNop _ _ _ | .sqBadKind _ _ _ | .irqModerationTimer _ _
  | .drawList _ | .keystreamBlock _ _ _ _ | .classMapLoaded _ _ _ | .larderGranuleWrite _ _ _ | .waveDoneMarker _ _ _ | .waveLandedNotice _ _ _ _
  | .completionNotice _ _ _ | .killAcknowledgement _ _ _ | .rowSetup _ | .maxResult _ | .roundReq _ | .cut _ | .quotas _
  | .locate _ | .doneMsg _ | .commitPoint _ _ | .broadcastSweep _ _ | .mailboxCommandTimeout _ _ | .duskSpillRefill _ _ | .latchAcquire _ _ _
  | .latchRelease _ _ | .reorderRelease _ | .mirrorAck _ | .heartbeat | .heartbeatLost _ | .livenessCheck _ | .failMsg _ | .claim _ _ | .digestPair _
  | .journalFlush _ | .flushDeferExpiry _ | .flushComplete _ | .bulkImageStart _ | .graphBuild _ | .rcFieldRead _ _ _ | .linkCreditsReturned _ _
  | .pathRestored => true
  | _ => false

end Sys2Proof
end

