-- ==== Sys2Proof/Certificates/Slice0/Obligations.lean ====
section
/-! DEFINITION. The statements for the provers: what every step keeps, what each command does where it goes on, and what the register file answers. Where a statement says Ends, Settles, Answers, Mirrors or Receives (Sys2Proof/Safety.lean), it says that exec answers a next state. -/

open Sys2Proof Sys2Proof.Machine

/-- A step takes the command at the front of the queue and is that command's effect on the rest; on an empty queue the block idles (the model's choice, DESIGN CHOICE, log 8). -/
def Obligations.StepRunsFront : Prop :=
  (∀ (c : Instr) (rest : List Instr) (s : State), s.pending = c :: rest → step s = exec c { s with pending := rest }) ∧
    ∀ s : State, s.pending = [] → step s = .next s

/-- What a reset leaves: no command waits, the memories list nothing (that an unlisted byte of HBM reads 0 is the model's choice, DESIGN CHOICE, log 3), both instances stand in Dawn's ROM stage and wait for the flash, and the registers read the reset values of spec/19, spec/16 R357, spec/13 R286, spec/12 R266 and spec/18 R409: the identity with the instance's own bit, `trace_min` 16, the four `next_due` all ones, the Kitchen's, the Foyer's and the Stairwell's as their tables give them, and every other register 0. -/
def Obligations.ResetLeaves : Prop :=
  let r := State.reset
  MemOk r ∧ r.hbm = [] ∧ r.pending = [] ∧ r.tick = 0 ∧ r.powered = true ∧ r.flash.waiting = [(.A, .dawn), (.B, .dawn)] ∧ r.flash.holder = none ∧
    ∀ i : InstId, (getInst r i).hearth.stage = .rom ∧ inReset r i = false ∧ (mir r i).seqs = [] ∧ (mir r i).kitchen.steps = [] ∧
      regRead r i 0x100 = BitVec.ofNat 64 (16384 + 2 ^ 32 * 262144) ∧ regRead r i 0x108 = BitVec.ofNat 64 (8192 + 2 ^ 32 * 4096) ∧
      regRead r i 0x110 = BitVec.ofNat 64 (16384 + 2 ^ 32 * 64) ∧ regRead r i 0x118 = BitVec.ofNat 64 (4 + 2 ^ 4 * 2 + 2 ^ 8 * 1 + 2 ^ 16 * 3) ∧
      regRead r i 0x138 = BitVec.ofNat 64 (16384 + 2 ^ 32 * 262144) ∧ regRead r i 0x200 = 4096 ∧ regRead r i 0x208 = 57344 ∧
      regRead r i 0xC08 = BitVec.ofNat 64 (200 + 2 ^ 16 * 100000) ∧
      regRead r i 0x000 = BitVec.ofNat 64 (0x5348 + 2 ^ 16 * 0xB0 + 2 ^ 32 * (if i = .A then 0 else 1)) ∧
      regRead r i 0xD28 = BitVec.ofNat 64 (2 ^ 32 * 16) ∧ (∀ l, l < 4 → regRead r i (0x1488 + 32 * l) = BitVec.ofNat 64 (2 ^ 48 - 1)) ∧
      ∀ off, off < 0x10000 → off % 8 = 0 →
        off ∉ [0x000, 0x100, 0x108, 0x110, 0x118, 0x138, 0x200, 0x208, 0xC08, 0xD28, 0x1488, 0x14A8, 0x14C8, 0x14E8] → regRead r i off = 0

/-- Every step keeps the byte memories, HBM, the host's and every outpost's Larder, in canonical form, so that equal memories are equal lists (spec/01 R18-R20, spec/07 R155). -/
def Obligations.MemoryKept : Prop := ∀ (s t : State), MemOk s → step s = .next t → MemOk t

/-- No command's effect touches the queue, and none gives back a free value it took; queue and counter are the model's own (DESIGN CHOICE, log 2). -/
def Obligations.QueueKept : Prop := ∀ (c : Instr) (s t : State), exec c s = .next t → t.pending = s.pending ∧ s.free ≤ t.free

/-- Every command goes on, or stops at one of the undefined cases of spec/00 R12 that a command can meet, by its number; none is refused. -/
def Obligations.NeverRefused : Prop := ∀ (c : Instr) (s : State), (∃ t, exec c s = .next t) ∨ ∃ n ∈ [2, 3, 4, 5, 6, 7, 8, 10, 11, 12, 13], StopsAt c s n

/-- The tick is the package's one clock: only TICK and the two changes of power write it (spec/19 R418, spec/20 R433, R435). -/
def Obligations.TickKept : Prop := ∀ (c : Instr) (s t : State), c ≠ .tick → c ≠ .powerOnReset → c ≠ .powerLoss → exec c s = .next t → t.tick = s.tick

/-- In split mode no command of one instance changes anything of the other but the digest pairs that it has been sent, of which it is the replica (spec/17 R379), and none that an outpost receives from outside changes anything of either (spec/01 R15, R17). An access acts for the instance whose slice it reaches (R23), an outpost's command for the instance that owns it, whose row it is, or whose channel the message came by (`actsFor`); the pairs are sent as a drive's command ends, and by no other command. Left out are the commands that are not one instance's: power, the resets of the package and TICK, which are both's; the flash bus's grant, which is the package's; MORNING, which may change the mode of the pair; the heartbeats, and the mirror's and the takeover's messages, by which twins meet. -/
def Obligations.SplitIsolation : Prop :=
  (∀ (c : Instr) (i : InstId) (s t : State), actsFor s c = some i → (getInst s (Machine.other i)).place.split = true → exec c s = .next t →
    (∃ ps, getInst t (Machine.other i) = { getInst s (Machine.other i) with rel := { (getInst s (Machine.other i)).rel with digestsIn := (getInst s (Machine.other i)).rel.digestsIn ++ ps } }) ∧
    (c ≠ .flushComplete i → c ≠ .bulkImageDurable i → (∀ ok, c ≠ .driveCompletion i ok) → getInst t (Machine.other i) = getInst s (Machine.other i))) ∧
  ∀ (o : Nat) (h : RowHandle) (lane low plan off : Nat) (data : List Byte) (s t : State),
    ∀ c ∈ [Instr.drawList o, .keystreamBlock o h lane low, .classMapLoaded o plan lane, .larderGranuleWrite o off data], exec c s = .next t → ∀ i, getInst t i = getInst s i

/-- Each kind of state is written by few commands: all but those named leave the flash die and its bus, the board drive's other ranges, the host's memory, the calibration registers, the resets and the power as they were, and those that write no HBM leave every byte of it (spec/01 R25, spec/13 R276, spec/14 R308, spec/20 R433-R436). -/
def Obligations.KindsKept : Prop :=
  ∀ (c : Instr) (s t : State), exec c s = .next t →
    (mayWriteFlash c = false → t.flash = s.flash) ∧ (mayWriteHost c = false → ∀ a, memGet t.host a = memGet s.host a) ∧
    (mayTrim c = false → t.calib = s.calib) ∧ (mayReset c = false → t.cap = s.cap ∧ t.powered = s.powered) ∧
    (keepsHbm c = true → ∀ a, memGet t.hbm a = memGet s.hbm a) ∧ ((∀ j w, c ≠ .driveRange j w) → t.board = s.board)

/-- Nothing of the mirrored state of a running active twin changes unless the mirror stream's last message carries it as it is after the change, while the mirror is SYNCING or CURRENT and the instance's FAIL has not ended the stream (spec/17 R361, R363, R364, R366; that nothing follows the FAIL is DEDUCED, log 112). Left out are the commands that change which twin is active or what the pair is: power, the resets of the package, the flash bus's grant, the heartbeats, and the mirror's and the takeover's messages. -/
def Obligations.MirrorCarries : Prop :=
  ∀ (c : Instr) (i : InstId) (s t : State), (actsFor s c = some i ∨ (∃ w, c = .morning i w) ∨ c = .tick) → running s i = true → exec c s = .next t →
    (getInst t i).rel.active = true → ((getInst t i).rel.mirror = .syncing ∨ (getInst t i).rel.mirror = .current) → streamEnded t i = false → mir t i ≠ mir s i →
    ∃ m, (getInst t i).rel.streamOut.getLast? = some m ∧ m.img = mir t i

/-- A write of bytes reads back as they were written, leaves every other byte and the canonical form; memories in that form that read alike are the same. -/
def Obligations.MemoryWrites : Prop :=
  (∀ (m : Mem) (a : Nat) (bs : List Byte), Machine.Mem.wf m = true →
    Machine.Mem.wf (memPuts m a bs) = true ∧ memGets (memPuts m a bs) a bs.length = bs ∧
      ∀ b, b < a ∨ a + bs.length ≤ b → memGet (memPuts m a bs) b = memGet m b) ∧
  ∀ m n : Mem, Machine.Mem.wf m = true → Machine.Mem.wf n = true → (∀ a, memGet m a = memGet n a) → m = n

/-- A register reads zero in every bit that no field of it has, and an offset that no register occupies reads zero (spec/00 R9, R10). -/
def Obligations.ReservedReadZero : Prop :=
  ∀ (s : State) (i : InstId) (off : Nat), regRead s i off &&& regReserved (slotFields s i off) = 0 ∧
    (slotFields s i off = [] → regRead s i off = 0)

/-- The 36 status bits and the fields they stand for are one and the same (spec/14 R311). -/
def Obligations.StatusRoundTrip : Prop := ∀ (q : Irq) (v : BitVec 36), irqStatus (irqPut q v) = v ∧ irqPut q (irqStatus q) = q ∧ (irqPut q v).enable = q.enable

/-- A write of 1 to a context's completion bit clears it, and it rises again at once where `cq_tail` differs from `cq_head`; a bit not written stays (R313). -/
def Obligations.CompletionBit : Prop :=
  ∀ (i : InstId) (v : BitVec 36) (k : Nat) (s : State), deaf s i = false → k < 16 →
    let left := fun t : State => (irqStatus (mir t i).irq).getLsbD k =
      if v.getLsbD k then decide ((getCtx (mir s i) k).cqTail ≠ (getCtx (mir s i) k).cqHead) else (irqStatus (mir s i).irq).getLsbD k
    Settles (.irqStatusClear i true irqStatusOff v.toNat) i s left ∧ (v.toNat < 2 ^ 32 → Settles (.irqStatusClear i false irqStatusOff v.toNat) i s left)

/-- The order of composition and the order of commands are strict and total: of two sequences, or two commands, with different ids exactly one comes first (spec/04 R82, spec/13 R284). -/
def Obligations.OrderStrict : Prop :=
  (∀ (m : Mirrored) (tick : Nat) (houses : List Nat) (a b c : Machine.Seq),
    (before m tick houses a b = true → before m tick houses b a = false) ∧
    (before m tick houses a b = true → before m tick houses b c = true → before m tick houses a c = true) ∧
    (a.r.localId ≠ b.r.localId → before m tick houses a b = true ∨ before m tick houses b a = true)) ∧
  ∀ (m : Mirrored) (a b c : MboxCmd),
    (cmdBefore m a b = true → cmdBefore m b a = false) ∧ (cmdBefore m a b = true → cmdBefore m b c = true → cmdBefore m a c = true) ∧
    (a.id ≠ b.id → cmdBefore m a b = true ∨ cmdBefore m b a = true)

/-- The outposts of a set rank in ascending order; a token id's sliver lies in the outpost of its rank and no other, as its local sliver in order; no outpost holds more local slivers than S, which the vocabulary's limit keeps within 512 (R152). -/
def Obligations.OutpostPartition : Prop :=
  ∀ su : RowSetup, su.outposts ≠ 0 →
    let d := suD su
    (∀ q, q < d → ∃ o ∈ outList su.outposts, rankOf su.outposts o = q ∧ ∀ p ∈ outList su.outposts, (p < o ↔ rankOf su.outposts p < q)) ∧
    (∀ v, v < su.vocab → ∃ o ∈ outList su.outposts, rankOf su.outposts o = v / 256 % d ∧ outOfSliver su (v / 256) = o ∧ v ∈ outIds su o ∧
      (outSlivers su o)[v / 256 / d]? = some (v / 256) ∧ ∀ p ∈ outList su.outposts, v ∈ outIds su p → p = o) ∧
    localSlivers su.vocab d = ((su.vocab + 255) / 256 + d - 1) / d ∧ (∀ o ∈ outList su.outposts, (outSlivers su o).length ≤ localSlivers su.vocab d) ∧
    (su.vocab ≤ vocabLimit su.outposts → localSlivers su.vocab d ≤ 512)

/-- A context reset sets a context's fields as CONTEXT_OPEN gives and everything else of it to its first value, and keeps its windows (spec/20 R437). -/
def Obligations.ContextReset : Prop :=
  ∀ (i : InstId) (w : Nat) (c : MboxCmd) (s : State), starts i w 0x20 openCase s c = true → openInvalid c = false →
    (getCtx (mir s i) (winCtx w)).isOpen = false →
    ∃ v, exec (.contextOpen i w) s = .next (closed i s (answerCmd i c aOk (foyerRound i (journalCtx i (winCtx w) v)))) ∧
      (w < 64 → winCtx w < (mir s i).ctxs.length →
        let x := getCtx (mir v i) (winCtx w)
        x.isOpen = true ∧ x.cfg = openCfg c ∧ x.sqTail = 0 ∧ x.sqHead = 0 ∧ x.cqHead = 0 ∧ x.cqTail = 0 ∧ x.stream = [] ∧ x.sqBadKind = 0 ∧
          x.irqCount = prm c 0x50 2 ∧ x.irqTicks = prm c 0x52 2 ∧ x.faultCause = 0 ∧ x.faulted = false ∧ x.cqHold = false ∧
          x.adm.level = 65536 * (x.adm.capacity : Nat) ∧ x.row.level = 65536 * (x.row.capacity : Nat) ∧ x.hbm.level = 65536 * (x.hbm.capacity : Nat) ∧
          x.acct = {} ∧ (mir v i).irq.cq.getLsbD (winCtx w) = false ∧ (mir v i).irq.mb.getLsbD (winCtx w) = false) ∧
      (∀ k, k ≠ winCtx w → getCtx (mir v i) k = getCtx (mir s i) k) ∧
      (mir v i).windows = (mir s i).windows

/-- Power-on and power loss (R433, R435, R440): both instances start anew, the board drive and the boot record stand; the tick starts at 0. What HBM holds is the model's choice (DESIGN CHOICE, log 3). That power loss leaves both instances held, and unpowered, until power-on, and what a reset does not name, is DEDUCED (log 76). A block reset holds its instance, empties what it held but for the board drive, and leaves the tick, HBM, the other instance, and the calibration registers of its hub part and of the outposts that are not the held one's, as they were (R433, R436). A Function Level Reset, and a write of the reset control, reset the instances they name and never the tick or HBM (R433, R434). -/
def Obligations.ResetsAndPower : Prop :=
  (∀ s : State,
    Goes .powerOnReset s (fun t => t.powered = true ∧ t.tick = 0 ∧ t.hbm = [] ∧ t.board = s.board ∧ t.flash.boot = s.flash.boot ∧ t.flash.holder = none ∧
      ∀ i, (getInst t i).rel.disk = (getInst s i).rel.disk ∧ (getInst t i).hearth.stage = .rom ∧ (getInst t i).mir = {} ∧ inReset t i = false) ∧
    Goes .powerLoss s (fun t => t.powered = false ∧ t.board = s.board ∧ t.flash.boot = s.flash.boot ∧ t.flash.holder = none ∧ t.flash.waiting = [] ∧
      ∀ i, (getInst t i).rel.disk = (getInst s i).rel.disk ∧ (getInst t i).mir = {} ∧ inReset t i = true)) ∧
  (∀ (i : InstId) (s : State), s.powered = true → inReset s i = false →
    Goes (.blockReset i) s (fun t => inReset t i = true ∧ inReset t (Machine.other i) = inReset s (Machine.other i) ∧ t.tick = s.tick ∧ t.hbm = s.hbm ∧
      t.host = s.host ∧ getInst t (Machine.other i) = getInst s (Machine.other i) ∧ (getInst t i).rel.disk = (getInst s i).rel.disk ∧
      (getInst t i).mir = {} ∧ (getInst t i).liveness = 0 ∧ t.flash.boot = s.flash.boot ∧ t.calib = calibKept i s ∧
      (∀ o, (getOutpost t o).owner ≠ some i) ∧ (∀ o, (getOutpost s o).owner ≠ some i → (getOutpost t o).larder = (getOutpost s o).larder ∧
        (getOutpost t o).rows = (getOutpost s o).rows ∧ (getOutpost t o).owner = (getOutpost s o).owner))) ∧
  (∀ s : State, s.powered = true →
    Goes .functionLevelReset s (fun t => inReset t .A = true ∧ inReset t .B = true ∧ t.tick = s.tick ∧ t.hbm = s.hbm) ∧
    ∀ a b : Bool, Goes (.resetControlWrite a b) s (fun t => inReset t .A = (a || inReset s .A) ∧ inReset t .B = (b || inReset s .B) ∧
      t.tick = s.tick ∧ t.hbm = s.hbm ∧ (a = false → t.a = s.a) ∧ (b = false → t.b = s.b)))

/-- A powered package's tick counts one microsecond, and the queue stands (R418); that the 48-bit tick goes on from 2^48 - 1 at 0 is the model's choice (DESIGN CHOICE, log 85). The liveness word of an instance that is not held advances by 1, modulo 2^32, and nothing else changes (R419). -/
def Obligations.TimePasses : Prop :=
  (∀ s : State, s.powered = true → Goes .tick s (fun t => t.tick = (s.tick + 1) % 2 ^ 48 ∧ t.powered = true ∧ t.pending = s.pending)) ∧
  (∀ (i : InstId) (s : State), inReset s i = false →
    Goes (.livenessAdvance i) s (fun t => OnlyInst i s t ∧ getInst t i = { getInst s i with liveness := ((getInst s i).liveness + 1) % 2 ^ 32 }))

/-- The flash grant passes to the first hub die that waits (R25), and each stage of Dawn leads to the next where its checks pass; an image that fails a check sends Dawn to the other slot, or, with none left, to FAILED (R274, R275). Which images pass rests on the ROM key and the signature check, which the spec does not give (DESIGN CHOICE, log 4); a signed trim entry with a reserved field set is undefined (spec/13 R276, spec/00 R12). -/
def Obligations.DawnStages : Prop :=
  (∀ (i : InstId) (u : FlashUse) (rest : List (InstId × FlashUse)) (s : State), s.flash.holder = none → s.flash.waiting = (i, u) :: rest →
    (∀ cmd, u ≠ .confirm cmd) → Goes .flashGrant s (fun t => t.flash.holder = some (i, u) ∧ t.flash.waiting = rest ∧
      (u = .dawn → (getInst s i).hearth.stage = .rom →
        let b := s.flash.boot
        let other := bootTrial b && bootMark b i == 0
        (getInst t i).hearth.stage = .read ∧ (getInst t i).hearth.trying = (bootPreferred b != other) ∧
          (getInst t i).hearth.left = [!(bootPreferred b != other)] ∧ t.flash.boot = if bootTrial b && bootMark b i != 0 then setMark i b else b))) ∧
  (∀ (i : InstId) (img : List Byte) (s : State), s.flash.holder = some (i, .dawn) → (getInst s i).hearth.stage = .read →
    let b := (slotOf s.flash (getInst s i).hearth.trying).getD img
    Goes (.imageReadComplete i img) s (fun t => t.flash.holder = none ∧ t.tick = s.tick ∧ t.hbm = s.hbm ∧ slotOf t.flash (getInst s i).hearth.trying = some b ∧
      (imageFails b = none → (getInst t i).hearth.stage = .verify ∧ (getInst t i).hearth.image = parseImage b ∧ t.flash.waiting = s.flash.waiting) ∧
      (imageFails b ≠ none →
        (∀ k rest, (getInst s i).hearth.left = k :: rest → (getInst t i).hearth.trying = k ∧ (getInst t i).hearth.left = rest ∧
          (getInst t i).hearth.stage = .read ∧ t.flash.waiting = s.flash.waiting ++ [(i, .dawn)]) ∧
        ((getInst s i).hearth.left = [] → (getInst t i).hearth.stage = .failed)))) ∧
  (∀ (i : InstId) (s : State), (getInst s i).hearth.stage = .verify →
    (signatureOk (getInst s i).hearth.image = true → (getInst s i).hearth.image.reservedZero = true →
      (trimReserved (getInst s i).hearth.image.trims = true → StopsAt (.signatureVerified i) s 12) ∧
      (trimReserved (getInst s i).hearth.image.trims = false → Goes (.signatureVerified i) s (fun t => t.tick = s.tick ∧ t.hbm = s.hbm ∧
        (getInst t i).hearth.stage = .start ∧ (getInst t i).hearth.fwBuild = (getInst s i).hearth.image.fwBuild ∧ (getInst t i).hearth.slot = (getInst s i).hearth.trying))) ∧
    (signatureOk (getInst s i).hearth.image = false ∨ (getInst s i).hearth.image.reservedZero = false →
      Goes (.signatureVerified i) s (fun t => t.tick = s.tick ∧ t.hbm = s.hbm ∧
        (∀ k rest, (getInst s i).hearth.left = k :: rest → (getInst t i).hearth.trying = k ∧ (getInst t i).hearth.left = rest ∧ (getInst t i).hearth.stage = .read ∧
          t.flash.waiting = s.flash.waiting ++ [(i, .dawn)]) ∧
        ((getInst s i).hearth.left = [] → (getInst t i).hearth.stage = .failed)))) ∧
  (∀ (i : InstId) (s : State), (getInst s i).hearth.stage = .start →
    Goes (.coresReady i) s (fun t => (getInst t i).hearth.stage = .config ∧ (getInst t i).hearth.coreUp = 0b1111#4 ∧ t.tick = s.tick))

/-- Discovery, the work of core 3 (spec/13 R269), ends when every peer has answered or been given up and no known-answer test runs, and what it was for goes on: Dawn's end, which makes the instance READY, or Morning's; at 2,000 ticks the silent peers are given up as not reachable (spec/16 R343, spec/13 R275, spec/11 R247). -/
def Obligations.DiscoveryEnds : Prop :=
  (∀ (i : InstId) (s : State), onDuty s i 3 = true → discoveryDone s i = true →
    let u := modStair i (fun t => { t with discovery := .none }) s
    (∀ cmd, (getInst s i).stair.discovery = .dawn cmd →
      Ends (.discoveryComplete i) i s (openDawn i cmd) (fun v => v = u) ∧ (getInst (openDawn i cmd u) i).hearth.stage = .ready) ∧
    (∀ set, (getInst s i).stair.discovery = .morning set → Ends (.discoveryComplete i) i s (openMorning i) (fun v => v = u))) ∧
  (∀ (i : InstId) (s : State), onDuty s i 3 = true → (getInst s i).stair.discovery ≠ .none → (getInst s i).stair.discoveryTick + 2000 ≤ s.tick →
    Ends (.discoveryTimeout i) i s (fun v => if discoveryDone v i then afterDiscovery i v else v)
      (fun v => v.tick = s.tick ∧ ((getInst v i).stair.peers.all fun p => !p.asked) = true ∧
        (getInst v i).stair.peers.map (·.addr) = (getInst s i).stair.peers.map (·.addr) ∧
        (getInst v i).mir = (getInst s i).mir))

/-- A watchdog that runs out, or an uncorrectable error in a core's local SRAM, takes its core out of service; before the Hearth holds the Cellar copy that ends Dawn in FAILED, with it the core awaits its restart, and at the third expiry in 1,000,000 ticks it is fenced (R280, R281, R283). A restart copies the core's sections from the Cellar and brings it back where each has its digest; a core whose sections fail stays out (DESIGN CHOICE, log 88). An uncorrectable error is contained at what it struck: a sequence's context takes the fault with cause 3, a step's buffer kills the step, shared memory is an instance fault, in every stage of Dawn and after it; the address of a failing HBM read is a free value (spec/17 R359, R360, R388; DESIGN CHOICE, log 2). -/
def Obligations.WatchdogsAndErrors : Prop :=
  ((∀ (i : InstId) (core : Nat) (sram : Bool) (s : State), inReset s i = false → coreRuns (getInst s i).hearth core = true →
    (sram || wdogRunsOut (getInst s i).hearth core) = true →
    let h := (getInst s i).hearth
    let fallen : Hearth := { h with wdogExpired := h.wdogExpired ||| (1#4 <<< core), coreUp := h.coreUp &&& ~~~(1#4 <<< core), expiries := h.expiries ++ [(core, s.tick)],
                                    wdog := h.wdog.set core 0, sram := h.sram.set core [] }
    (h.cellarCopy = false → Goes (.watchdogExpiry i ⟨core, sram⟩) s (fun t => (getInst t i).hearth = { fallen with stage := .failed } ∧ (mir t i).irq.hearth = true ∧ (mir t i).seqs = (mir s i).seqs)) ∧
    (h.cellarCopy = true → recentExpiries h s.tick core < 2 → Goes (.watchdogExpiry i ⟨core, sram⟩) s (fun t =>
      (getInst t i).hearth = { fallen with restarts := satTo 32 (h.restarts + 1) } ∧ (mir t i).irq.hearth = true ∧ (mir t i).seqs = (mir s i).seqs)) ∧
    (h.cellarCopy = true → 2 ≤ recentExpiries h s.tick core →
      Ends (.watchdogExpiry i ⟨core, sram⟩) i s (fenceCore i core) (fun v => (getInst v i).hearth = fallen ∧ (mir v i).irq.hearth = true ∧ (mir v i).seqs = (mir s i).seqs))) ∧
  (∀ (i : InstId) (core : Nat) (s : State), (getInst s i).hearth.cellarCopy = true → (getInst s i).hearth.stage ≠ .failed →
    (getInst s i).hearth.coreUp.getLsbD core = false → (getInst s i).hearth.coreFenced.getLsbD core = false →
    let h := (getInst s i).hearth
    let copy := coreCopy s i core
    (copy.all (·.2) = true → Goes (.coreRestartDone i core) s (fun t =>
      (getInst t i).hearth = { h with coreUp := h.coreUp ||| (1#4 <<< core), wdog := h.wdog.set core 0, sram := h.sram.set core (copy.flatMap (·.1)) } ∧
      (getInst t i).mir = (getInst s i).mir ∧ t.tick = s.tick ∧ t.hbm = s.hbm ∧ getInst t (Machine.other i) = getInst s (Machine.other i))) ∧
    (copy.all (·.2) = false → exec (.coreRestartDone i core) s = .next s))) ∧
  (∀ (i : InstId) (s : State), running s i = true →
    (∀ lid q, findSeq (mir s i) lid = some q →
      Ends (.uncorrectableEcc i (.hbmOfSequence lid)) i s (fun v => v) (fun v =>
        (mir v i).ctxs = modAt (mir s i).ctxs q.r.context (fun x => if x.isOpen && x.faultCause == 0 then { x with faultCause := 3, faultAddr := (readAddr s).1 } else x) ∧
        (mir v i).seqs = (mir s i).seqs)) ∧
    (∀ lid q, findSeq (mir s i) lid = some q → q.r.hot = true →
      Ends (.uncorrectableEcc i (.parlour lid)) i s (fun v => v) (fun v =>
        mir v i = { mir s i with ctxs := modAt (mir s i).ctxs q.r.context (fun x => if x.isOpen && x.faultCause == 0 then { x with faultCause := 3 } else x) })) ∧
    (∀ lid, (seqOf s i lid).r.hot = false → Ends (.uncorrectableEcc i (.parlour lid)) i s (fun v => v) (fun v => v = s)) ∧
    (∀ n, Ends (.uncorrectableEcc i (.hbmStepBuffer n)) i s (killStep i n false) (fun v => v = s))) ∧
  (∀ (i : InstId) (s : State), inReset s i = false → (getInst s i).rel.failed = false → (getInst s i).hearth.stage ≠ .failed →
    Ends (.uncorrectableEcc i .hbmShared) i s (instFault i 0x08 0 0 0 (readAddr s).1 true) (fun v => v = (readAddr s).2) ∧
    Ends (.uncorrectableEcc i .hubTable) i s (instFault i 0x07 0 0 0 0 true) (fun v => v = s) ∧
    Ends (.uncorrectableEcc i .hearthShared) i s (instFault i 0x06 9 0 0 0 true) (fun v => v = s))

/-- A served window takes the host's writes of `go` and of `res_head`, and nothing but the window changes; one that is not served takes neither (R289, R291, spec/13 R275). A staged command is taken: an accepted one stands last in the mailbox journal with the window's count advanced and `go` cleared; a full queue answers BUSY, a code without a row UNKNOWN_COMMAND, a wrong length INVALID, each in the window's next result entry; a header with a reserved bit is undefined (R289, R290, R292). A command that its scope or the instance's state refuses is answered so and nothing is done for it; a reserved parameter byte that is set, or a parameter that meets another undefined case than an overlap, stops it (spec/00 R12); a row that names another command than the one to start next does nothing, and one that a full intake queue keeps from its command has the Porch held (R295-R297, R314, spec/12 R259, R260, spec/15 R333, spec/17 R369). -/
def Obligations.MailboxTransport : Prop :=
  (∀ (i : InstId) (w : Nat) (s : State),
    (winServes s i w = true →
      Goes (.mailboxGo i w) s (fun t => mir t i = { mir s i with windows := modAt (mir s i).windows w (fun x => { x with pending := true }) } ∧ OnlyMirror i s t) ∧
      ∀ v, Goes (.resHeadWrite i w v) s (fun t =>
        mir t i = { mir s i with windows := modAt (mir s i).windows w (fun x => { x with resHead := v % 2 ^ 32 }) } ∧ OnlyMirror i s t)) ∧
    (winServes s i w = false → exec (.mailboxGo i w) s = .next s ∧ ∀ v, exec (.resHeadWrite i w v) s = .next s)) ∧
  (∀ (i : InstId) (w : Nat) (s : State), winServes s i w = true → (getWin (mir s i) w).pending = true →
    (servingCore (getInst s i).hearth (winCtx w)).isSome = true → resultRoom (mir s i) w = true →
    let h := parseCmd (memGets (getWin (mir s i) w).cmd 0 16)
    let taken := modAt (mir s i).windows w (fun y => { y with pending := false, accepted := (y.accepted + 1) % 2 ^ 32 })
    let answered (r : Nat) : State → Prop := fun t => ∃ e : ResultEntry, e.cookie = h.cookie ∧ e.code = h.code ∧ e.result = r ∧ e.doneTick = s.tick ∧
      (mir t i).windows = modAt taken w (fun x => { x with results := put (x.resTail % 32) e x.results, resTail := (x.resTail + 1) % 2 ^ 32 }) ∧
      (mir t i).mbox = (mir s i).mbox
    (queuedOf (mir s i) (winCtx w) < 64 → h.reserved = true → StopsAt (.mailboxGoTaken i w) s 12) ∧
    (queuedOf (mir s i) (winCtx w) < 64 → h.reserved = false →
      (cmdSpec h.code = none → Goes (.mailboxGoTaken i w) s (answered rUnknown)) ∧
      ∀ sp, cmdSpec h.code = some sp →
        (h.length ≠ 16 + sp.size → Goes (.mailboxGoTaken i w) s (answered rInvalid)) ∧
        (h.length = 16 + sp.size → Goes (.mailboxGoTaken i w) s (fun t => (mir t i).windows = taken ∧ (mir t i).nextCmd = (mir s i).nextCmd + 1 ∧
          ∃ c : MboxCmd, c.window = w ∧ c.code = h.code ∧ c.cookie = h.cookie ∧ c.phase = .accepted ∧ c.acceptTick = s.tick ∧
            c.params = memGets (getWin (mir s i) w).cmd 16 sp.size ∧ (mir t i).mbox = (mir s i).mbox ++ [c]))) ∧
    (64 ≤ queuedOf (mir s i) (winCtx w) → Goes (.mailboxGoTaken i w) s (answered rBusy))) ∧
  (∀ (cmd : Instr) (i : InstId) (w code : Nat) (sp : CmdSpec) (s : State), mailboxRow cmd = some (i, w, code) → cmdSpec code = some sp →
    (nextCommand s i w = none →
      (intakeFull 2 (getInst s i).hall = true → coreCommand s i w ≠ none → Mirrors cmd i s (fun t => t = modHall i (holdSource 2 s.tick) s)) ∧
      (intakeFull 2 (getInst s i).hall = false ∨ coreCommand s i w = none → exec cmd s = .next s)) ∧
    (∀ c, nextCommand s i w = some c → c.window ≠ w ∨ c.code ≠ code → exec cmd s = .next s) ∧
    ∀ c, nextCommand s i w = some c → c.window = w → c.code = code →
      (∀ r, scopeRefusal s i sp w = some r → Ends cmd i s (finishCmd i c.id r 0 []) (fun v => v = startCmd i c s)) ∧
      (scopeRefusal s i sp w = none → reservedZero sp.fields c.params = false → StopsAt cmd s 12) ∧
      (scopeRefusal s i sp w = none → reservedZero sp.fields c.params = true → ∀ n, rowCase s cmd c = some n → n ≠ 2 → StopsAt cmd s n))

/-- Dawn's commands set what they name and are answered OK, and nothing else but the command's own bookkeeping changes (R298, R276, spec/01 R26); what an instance held in the range of the board drive that it used before stays there, and ranges are told apart by their three numbers (the model's choice, DESIGN CHOICE, log 88). A placement that may not be is INVALID or WRONG_STATE, the parameters checked first (DEDUCED, log 13), and places nothing; one that would be made over another region is undefined (spec/01 R20, R298). PAIRING gives the outposts of its set to an instance that is to be active, HOST_TRIMS answers the entries it applies and those it ignores as two counts of 4 bytes (DEDUCED, log 16), DAWN_COMPLETE writes the Cellar's firmware copy and begins discovery (spec/01 R15, R17, spec/13 R275, R276, spec/14 R299). -/
def Obligations.DawnCommands : Prop :=
  (∀ (i : InstId) (w : Nat) (s : State) (c : MboxCmd),
    (starts i w 0x01 noCase s c = true →
      let k := prm c 0 1
      let bad := placeInvalid k (prm c 1 1) (prm c 8 8) (prm c 16 8) (prm c 24 8)
      let wrong := (getInst s i).hearth.stage = .ready ∧ ¬((mir s i).kitchen.turn = .training ∧ (k = 2 ∨ k = 3 ∨ k = 5 ∨ k = 6)) ∨ (k = 5 ∧ (getInst s i).study.traceOn = true)
      (bad = true → Answers (.placeRegion i w) i c s aInvalid (fun v => v) (fun v => v = startCmd i c s)) ∧
      (bad = false → wrong → Answers (.placeRegion i w) i c s aWrong (fun v => v) (fun v => v = startCmd i c s)) ∧
      (bad = false → ¬wrong →
        (∀ n, placeCase s i c = some n → StopsAt (.placeRegion i w) s n) ∧
        (placeCase s i c = none → Answers (.placeRegion i w) i c s aOk (fun v => v) (fun v => v =
          modInst i (fun x => { x with place := { x.place with regions := put k (regionOf c) x.place.regions } }) (startCmd i c s))))) ∧
    (starts i w 0x02 noCase s c = true →
      let r := (prm c 0 4, prm c 8 8, prm c 16 8)
      Answers (.driveRange i w) i c s aOk (fun v => v) (fun v => (getInst v i).place = { (getInst s i).place with drive := some r } ∧
        mir v i = mir (startCmd i c s) i ∧
        ((getInst s i).rel.disk.range = some r → (getInst v i).rel = (getInst s i).rel ∧ v.board = s.board) ∧
        ((getInst s i).rel.disk.range ≠ some r → (getInst v i).rel.disk = ((s.board.find? (·.1 == r)).map (·.2)).getD { range := some r }) ∧
        (∀ q, (getInst s i).rel.disk.range = some q → q ≠ r → (q, (getInst s i).rel.disk) ∈ v.board))) ∧
    (starts i w 0x03 (fun c => overId (prm c 0 2) 8192) s c = true →
      Answers (.identity i w) i c s aOk (fun v => v) (fun v => v =
        modInst i (fun x => { x with place := { x.place with identityGiven := true, node := prm c 0 2, serial := prm c 8 8 } }) (startCmd i c s)))) ∧
  (∀ (i : InstId) (w : Nat) (s : State) (c : MboxCmd),
    (starts i w 0x04 noCase s c = true → prm c 0 1 ≤ 1 →
      setOk (prm c 0 1 == 1) (BitVec.ofNat 8 (prm c 1 1))
        (if (getInst s (Machine.other i)).place.pairingGiven then (getInst s (Machine.other i)).place.outposts else 0) = true →
      Answers (.pairing i w) i c s aOk (fun v => v) (fun v =>
        (getInst v i).place = { (getInst s i).place with pairingGiven := true, split := prm c 0 1 == 1, outposts := BitVec.ofNat 8 (prm c 1 1) } ∧
        v.tick = s.tick ∧ v.host = s.host ∧ v.hbm = (startCmd i c s).hbm ∧ getInst v (Machine.other i) = getInst s (Machine.other i) ∧
        ∀ o, o < 8 → o < s.outposts.length → ((getOutpost v o).owner = some i ↔
          (dawnActive s i (prm c 0 1 == 1) = true ∧ (prm c 1 1).testBit o = true ∧
            ((getOutpost s o).owner = none ∨ (getOutpost s o).owner = some i))))) ∧
    (∀ table : List Byte, starts i w 0x05 (trimsCase s table) s c = true → prm c 8 4 ≤ 4096 →
      let es := trimEntries (slice table 0 (16 * prm c 8 4))
      let known := (es.filter trimKnown).length
      Answers (.hostTrims i w table) i c s (.now rOk 0 (leBytes 4 known ++ leBytes 4 (es.length - known))) (fun v => v) (fun v =>
        v.calib = (es.filter trimKnown).foldl (fun l e => trimOne (trimPart i e.1, e.2) l) s.calib ∧ mir v i = mir (startCmd i c s) i ∧ v.tick = s.tick)) ∧
    (starts i w 0x06 noCase s c = true → placed (getInst s i).place = true → 0x1000000 ≤ arrivalBytes (getInst s i) →
      let b := (slotOf s.flash (getInst s i).hearth.slot).getD []
      Answers (.dawnComplete i w) i c s .later (startDiscovery i (.dawn c.id)) (fun v =>
        (getInst v i).hearth = { (getInst s i).hearth with stage := .discovery, cellarCopy := true } ∧ mir v i = { mir (startCmd i c s) i with irq := (mir v i).irq } ∧
        (mir v i).irq.hearth = true ∧ v.hbm = memPuts s.hbm (copyBase (getInst s i)) (slice b 0 (fld b 8 4)))))

/-- Class-0 reservation and the life of a context: OPEN gives the context the command's block and full buckets, CONFIGURE changes the selected fields, CLOSE cancels where it may, rejects what is deferred and begins the context's end, QUERY writes its accounting record, and the end clears it; each refuses as its row gives, the parameters checked before the state (R66, R67, R300-R302, spec/15 R331; the order DEDUCED, log 13). That CONTEXT_OPEN keeps the windows with their results is DEDUCED from spec/20 R437, where R300 says that they are empty (log 42). -/
def Obligations.ContextLife : Prop :=
  ∀ (i : InstId) (w : Nat) (s : State) (c : MboxCmd),
    (starts i w 0x10 noCase s c = true →
      (1024 < prm c 0 2 → Refuses (.class0Reserve i w) i c s aInvalid) ∧
      (prm c 0 2 ≤ 1024 → reserveOk (getInst s i) (prm c 0 2) (prm c 4 4) = false → Refuses (.class0Reserve i w) i c s aWrong) ∧
      (prm c 0 2 ≤ 1024 → reserveOk (getInst s i) (prm c 0 2) (prm c 4 4) = true →
        Answers (.class0Reserve i w) i c s aOk (fun v => foyerRound i (coolExcess i (hotCount (mir v i)) v)) (fun v =>
          mir v i = { mir (startCmd i c s) i with foyer := { (mir s i).foyer with c0Sequences := prm c 0 2, c0Pages := prm c 4 4 } }))) ∧
    (starts i w 0x20 openCase s c = true →
      (openInvalid c = true → Refuses (.contextOpen i w) i c s aInvalid) ∧
      (openInvalid c = false → (getCtx (mir s i) (winCtx w)).isOpen = true → Refuses (.contextOpen i w) i c s aWrong) ∧
      (openInvalid c = false → (getCtx (mir s i) (winCtx w)).isOpen = false →
        Answers (.contextOpen i w) i c s aOk (fun v => foyerRound i (journalCtx i (winCtx w) v)) (fun v =>
          (mir v i).ctxs = modAt (mir (startCmd i c s) i).ctxs (winCtx w) (fun _ => openedCtx c) ∧
          (mir v i).irq.cq = (mir s i).irq.cq &&& ~~~(1#16 <<< winCtx w) ∧ (mir v i).irq.mb = (mir s i).irq.mb &&& ~~~(1#16 <<< winCtx w) ∧
          (mir v i).seqs = (mir s i).seqs ∧ (mir v i).windows = (mir s i).windows))) ∧
    (starts i w 0x21 openCase s c = true →
      let late := (mir s i).kitchen.turn = .evening ∨ (mir s i).dir.models.any (·.stage == .armed) = true
      (configureInvalid c = true → Refuses (.contextConfigure i w) i c s aInvalid) ∧
      (configureInvalid c = false → late → Refuses (.contextConfigure i w) i c s aWrong) ∧
      (configureInvalid c = false → ¬late →
        Answers (.contextConfigure i w) i c s aOk (fun v => foyerRound i (deferTimer i (winCtx w) (journalCtx i (winCtx w) v))) (fun v =>
          mir v i = { mir (startCmd i c s) i with ctxs := modAt (mir (startCmd i c s) i).ctxs (winCtx w) (configured c) }))) ∧
    (starts i w 0x22 closeCase s c = true →
      let all := (prm c 0 4).testBit 0
      let qs := (seqsOfCtx (mir s i) (winCtx w)).filter cancellable
      (all = false → seqsOfCtx (mir s i) (winCtx w) ≠ [] → Refuses (.contextClose i w) i c s aWrong) ∧
      (all = true ∨ seqsOfCtx (mir s i) (winCtx w) = [] →
        Answers (.contextClose i w) i c s .later
          (fun v => postUnit i (winCtx w) (.context 2) (deferTimer i (winCtx w) (rejectDeferred i (winCtx w) 32 (fun _ => true)
            (if all then qs.foldl (fun v q => postSeq i q.r.localId (.cancel none) v) v else v))))
          (fun v => v = modCtx i (winCtx w) (fun x => { x with closing := true }) (startCmd i c s)))) ∧
    (∀ k, activeInst s i = true → closeReady (mir s i) k = true → closesOf (mir s i) k ≠ [] →
      Goes (.contextCloseDone i k) s (fun t => (mir t i).ctxs = modAt (mir s i).ctxs k (fun x => { x with isOpen := false, closing := false, cqHold := false }) ∧
        (mir t i).seqs = (mir s i).seqs)) ∧
    (mayRefuse i w 0x23 (outCase s 0 128) s c = true → prm c 0 8 % 64 ≠ 0 → Refuses (.contextQuery i w) i c s aInvalid) ∧
    (starts i w 0x23 noCase s c = true → prm c 0 8 % 64 = 0 → outCase s 0 128 c ≠ none → StopsAt (.contextQuery i w) s 2) ∧
    (starts i w 0x23 (outCase s 0 128) s c = true → prm c 0 8 % 64 = 0 →
      Answers (.contextQuery i w) i c s aOk (fun v => v) (fun v =>
        v = hbmPut (prm c 0 8) (acctBytes (mir (startCmd i c s) i) (winCtx w)) (startCmd i c s)))

/-- Recipes and plans: DEFINE installs the image's recipe, UNDEFINE takes one that no sequence names out; REGISTER adds a plan to the registry, UNREGISTER takes it out, or forgets a FAILED one's check, QUERY reports it and changes nothing; each refuses as its row gives, and an undefined case of its image or its area stops it (R130, R215, R216, R303, spec/00 R12). A plan image that arrives is written to its place in HBM and checked: one that passes is the slot's plan, one that fails loses its slot and is FAILED with the number of its check; core 1's duty, for a plan being fetched alone (R215, R216, R220, R221, spec/13 R269). -/
def Obligations.RecipesAndPlans : Prop :=
  (∀ (i : InstId) (w : Nat) (s : State) (c : MboxCmd),
    (∀ img : List Byte, starts i w 0x30 noCase s c = true →
      let ok := prm c 8 8 % 64 = 0 ∧ recipeOk (prm c 0 2) (slice img 0 recipeBytes) = true
      let r := parseRecipe (prm c 0 2) (slice img 0 recipeBytes)
      (∀ n, recipeCase s i img c = some n → StopsAt (.recipeDefine i w img) s n) ∧
      (recipeCase s i img c = none → ¬ok → Refuses (.recipeDefine i w img) i c s aInvalid) ∧
      (recipeCase s i img c = none → ok →
        Answers (.recipeDefine i w img) i c s aOk (fun v => foyerRound i (journalObj i (.recipe (prm c 0 2) (some r)) v)) (fun v =>
          v = modMir i (fun m => { m with recipes := recipePut r m.recipes }) (startCmd i c s)))) ∧
    (starts i w 0x31 noCase s c = true →
      (∀ n, undefineCase (getInst s i) c = some n → StopsAt (.recipeUndefine i w) s n) ∧
      (undefineCase (getInst s i) c = none →
        (findRecipe (mir s i) (prm c 0 2) = none → Refuses (.recipeUndefine i w) i c s aNotFound) ∧
        (findRecipe (mir s i) (prm c 0 2) ≠ none → recipeNamed (mir s i) (prm c 0 2) = true → Refuses (.recipeUndefine i w) i c s aWrong) ∧
        (findRecipe (mir s i) (prm c 0 2) ≠ none → recipeNamed (mir s i) (prm c 0 2) = false →
          Answers (.recipeUndefine i w) i c s aOk (journalObj i (.recipe (prm c 0 2) none)) (fun v =>
            v = modMir i (fun m => { m with recipes := m.recipes.filter (·.id != prm c 0 2) }) (startCmd i c s))))) ∧
    (starts i w 0x40 noCase s c = true →
      let p : PlanReg := { id := prm c 0 2, addr := prm c 8 8, size := prm c 4 4 }
      (∀ a, planRefusal (mir s i) (prm c 0 2) (prm c 8 8) (prm c 4 4) = some a → Refuses (.planRegister i w) i c s a) ∧
      (planRefusal (mir s i) (prm c 0 2) (prm c 8 8) (prm c 4 4) = none →
        (planCase s c ≠ none → StopsAt (.planRegister i w) s 2) ∧
        (planCase s c = none → Answers (.planRegister i w) i c s aOk (journalObj i (.plan p.id (some p))) (fun v =>
          v = modLib i (fun l => { l with registry := l.registry ++ [p], failed := del p.id l.failed }) (startCmd i c s))))) ∧
    (starts i w 0x41 noCase s c = true →
      let id := prm c 0 2
      (look id (mir s i).lib.failed ≠ none → Answers (.planUnregister i w) i c s aOk (fun v => v) (fun v =>
        v = modLib i (fun l => { l with failed := del id l.failed }) (startCmd i c s))) ∧
      (look id (mir s i).lib.failed = none → registered (mir s i) id = false → Refuses (.planUnregister i w) i c s aNotFound) ∧
      (look id (mir s i).lib.failed = none → registered (mir s i) id = true → planNamed (mir s i) id = true → Refuses (.planUnregister i w) i c s aWrong) ∧
      (look id (mir s i).lib.failed = none → registered (mir s i) id = true → planNamed (mir s i) id = false →
        Answers (.planUnregister i w) i c s aOk (fun v => libAssign i 256 (journalObj i (.plan id none) v)) (fun v =>
          v = modLib i (fun l => { l with registry := l.registry.filter (·.id != id), slots := l.slots.filter (·.planId != id),
                                          demand := l.demand.filter (·.1 != id), used := del id l.used }) (startCmd i c s)))) ∧
    (starts i w 0x42 noCase s c = true →
      (planReport (mir s i) (prm c 0 2) = none → Refuses (.planQuery i w) i c s aNotFound) ∧
      ∀ st slot k, planReport (mir s i) (prm c 0 2) = some (st, slot, k) →
        Refuses (.planQuery i w) i c s (.now rOk 0 (leBytes 1 st ++ leBytes 1 slot ++ leBytes 1 k)))) ∧
  (∀ (i : InstId) (img : List Byte) (s : State) (r : PlanReg) (sl : LibSlot), (mir s i).lib.registry.find? (·.id == r.id) = some r → findPlan (mir s i) r.id = some sl →
    let b := slice img 0 r.size
    (activeInst s i = false ∨ onDuty s i 1 = false ∨ sl.plan ≠ none → exec (.planFetchDone i r.id img) s = .next s) ∧
    (activeInst s i = true → onDuty s i 1 = true → sl.plan = none →
      (∀ n, hostWriteCase s r.addr b = some n → StopsAt (.planFetchDone i r.id img) s n) ∧
      (hostWriteCase s r.addr b = none →
        (planFails r.id r.size b = 0 → Ends (.planFetchDone i r.id img) i s (fetchPass i r.id (parsePlan b)) (fun v => v = hbmPut r.addr b s)) ∧
        (planFails r.id r.size b ≠ 0 →
          Ends (.planFetchDone i r.id img) i s (fetchFail i r.id (planFails r.id r.size b)) (fun v => v = hbmPut r.addr b s)))))

/-- CANCEL, PARK, RESUME, EXTEND and MIGRATE answer once the events they post have been applied; each event goes to the flow of the sequence it names, or of each member of its household in the context, and the command awaits as many as it sent; QUERY_SEQUENCE writes the record as the Parlour or the Attic holds it. Each refuses as its row gives, MIGRATE's FULL with detail 1 (DEDUCED, log 25) (R304, R305, R441, spec/02 R46, spec/11 R245, spec/16 R352). -/
def Obligations.OrdersPostEvents : Prop :=
  ∀ (i : InstId) (w : Nat) (s : State) (c : MboxCmd),
    let k := winCtx w
    let named := namedSeq (mir s i) k (prm c 0 4)
    let house := (prm c 4 4).testBit 0
    (starts i w 0x50 cancelCase s c = true →
      let mode := prm c 0 1
      let lids := cancelTargets (mir s i) k mode (prm c 8 8)
      let tag (d : Deferred) : Bool := mode == 2 && d.req.hostTag == prm c 8 8
      let n := ((getCtx (mir s i) k).defer.filter fun d => d.fwd.isNone && tag d).length
      (2 < mode → Refuses (.cancel i w) i c s aInvalid) ∧
      (mode ≤ 2 → lids = [] → n = 0 → Refuses (.cancel i w) i c s aNotFound) ∧
      (∀ q, mode = 0 → namedSeq (mir s i) k (prm c 8 8) = some q → q.r.state.live = false → Refuses (.cancel i w) i c s aWrong) ∧
      (mode ≤ 2 → (lids ≠ [] ∨ n ≠ 0) → (mode = 0 → ∀ q, namedSeq (mir s i) k (prm c 8 8) = some q → q.r.state.live = true) →
        Answers (.cancel i w) i c s .later (fun v => closeCmd i c.id (postEach i lids (.cancel (some c.id)) (awaitEvents i c.id lids.length n v)))
          (fun v => v = deferTimer i k (rejectDeferred i k 42 tag (startCmd i c s))))) ∧
    (starts i w 0x51 (orderCase true) s c = true →
      (named = none → Refuses (.park i w) i c s aNotFound) ∧
      ∀ q, named = some q →
        let lids := orderTargets (mir s i) q house
        Answers (.park i w) i c s .later (fun v => closeCmd i c.id (postEach i lids (.park (prm c 8 8) (some c.id)) v))
          (fun v => v = awaitEvents i c.id lids.length 0 (startCmd i c s))) ∧
    (starts i w 0x52 (orderCase false) s c = true →
      ((mir s i).kitchen.turn ≠ .service → Refuses (.resume i w) i c s aWrong) ∧
      ((mir s i).kitchen.turn = .service → named = none → Refuses (.resume i w) i c s aNotFound) ∧
      ∀ q, (mir s i).kitchen.turn = .service → named = some q →
        let lids := orderTargets (mir s i) q house
        Answers (.resume i w) i c s .later (fun v => closeCmd i c.id (postEach i lids (.resume (some c.id)) v))
          (fun v => v = awaitEvents i c.id lids.length 0 (warmFirst i lids (startCmd i c s)))) ∧
    (∀ toks : List Nat, starts i w 0x53 noCase s c = true →
      let ts := extendTokens (prm c 4 4) toks
      (∀ n, extendCase s i toks c = some n → StopsAt (.extend i w toks) s n) ∧
      (extendCase s i toks c = none →
        (named = none → Refuses (.extend i w toks) i c s aNotFound) ∧
        ∀ q, named = some q →
          (q.r.state ≠ .paused → Refuses (.extend i w toks) i c s aWrong) ∧
          (q.r.state = .paused → extendInvalid (mir s i) q.r (prm c 4 4) (prm c 8 8) (prm c 16 1) = true → Refuses (.extend i w toks) i c s aInvalid) ∧
          (q.r.state = .paused → extendInvalid (mir s i) q.r (prm c 4 4) (prm c 8 8) (prm c 16 1) = false →
            Answers (.extend i w toks) i c s .later (postSeq i q.r.localId (.extend ts (prm c 16 1) (prm c 17 1) (prm c 18 2) c.id))
              (fun v => v = hbmPut (prm c 8 8) (words 4 ts) (startCmd i c s))))) ∧
    (mayRefuse i w 0x54 (queryCase s) s c = true →
      (prm c 8 8 % 64 ≠ 0 → Refuses (.querySequence i w) i c s aInvalid) ∧ (prm c 8 8 % 64 = 0 → named = none → Refuses (.querySequence i w) i c s aNotFound) ∧
      (∀ q, prm c 8 8 % 64 = 0 → named = some q → queryCase s c = some 2 → StopsAt (.querySequence i w) s 2) ∧
      (∀ q, prm c 8 8 % 64 = 0 → named = some q → queryCase s c = none →
        Answers (.querySequence i w) i c s aOk (fun v => v) (fun v => v = hbmPut (prm c 8 8)
          (if q.r.hot then recordBytes q.r else memGets s.hbm (atticAddr (getInst s i) q.r.localId) 512) (startCmd i c s)))) ∧
    (starts i w 0xA0 migrateCase s c = true →
      (named = none → Refuses (.migrate i w) i c s aNotFound) ∧
      ∀ q, named = some q →
        (migrateWrong (getInst s i) q.r (prm c 8 4) = true → Refuses (.migrate i w) i c s aWrong) ∧
        (migrateWrong (getInst s i) q.r (prm c 8 4) = false → 64 ≤ (mir s i).outXfers.length → Refuses (.migrate i w) i c s (.now rFull 1 [])) ∧
        (migrateWrong (getInst s i) q.r (prm c 8 4) = false → (mir s i).outXfers.length < 64 →
          Answers (.migrate i w) i c s .later (postSeq i q.r.localId (.migrateOut c.id house (prm c 8 4))) (fun v => v = startCmd i c s)))

/-- MODEL_DESCRIBE enters a descriptor as DESCRIBED, or REFUSED where its vocabulary exceeds the outposts' limit; LOADED, DECLINED, UNLOADED move a model between DESCRIBED and RESIDENT and answer the request that asked for it; FORGET empties the entry; PIN sets the pin in every state but EMPTY (DEDUCED, log 44) and QUERY writes the descriptor; each refuses an EMPTY entry and a state of another row (R68-R71). -/
def Obligations.ModelLife : Prop :=
  ∀ (i : InstId) (w : Nat) (s : State) (c : MboxCmd) (n : Nat), n = prm c 0 1 →
    let md := getModel (mir s i) n
    (∀ desc : List Byte, starts i w 0x60 (describeCase s desc) s c = true →
      let b := slice desc 0 64
      let k := fld b 0 1 % 64
      let ok := 4 ≤ (parseModel b).pageSizeLog2 ∧ (parseModel b).pageSizeLog2 ≤ 8 ∧ (parseModel b).vocabMax ≠ 0
      ((getModel (mir s i) k).state ≠ .empty → Refuses (.modelDescribe i w desc) i c s (.now rExists 0 [])) ∧
      ((getModel (mir s i) k).state = .empty → ¬ok → Refuses (.modelDescribe i w desc) i c s aInvalid) ∧
      ((getModel (mir s i) k).state = .empty → ok →
        Answers (.modelDescribe i w desc) i c s aOk (journalModel i k) (fun v => v = modModel i k (fun _ =>
          { parseModel b with state := if instVocabLimit s i < (parseModel b).vocabMax then .refused else .described }) (startCmd i c s)))) ∧
    (starts i w 0x61 noCase s c = true → n < 64 →
      (prm c 8 8 % 64 ≠ 0 → Refuses (.modelQuery i w) i c s aInvalid) ∧ (prm c 8 8 % 64 = 0 → outCase s 8 64 c ≠ none → StopsAt (.modelQuery i w) s 2) ∧
      (prm c 8 8 % 64 = 0 → outCase s 8 64 c = none →
        Answers (.modelQuery i w) i c s aOk (fun v => v) (fun v => v = hbmPut (prm c 8 8) (modelBytes (mir (startCmd i c s) i) n) (startCmd i c s)))) ∧
    (∀ p ∈ [(0x62, Instr.modelForget i w), (0x63, .modelLoaded i w), (0x64, .modelLoadDeclined i w), (0x65, .modelUnloaded i w), (0x66, .modelPin i w)],
      starts i w p.1 modelCase s c = true → md.state = .empty → Refuses p.2 i c s aNotFound) ∧
    (starts i w 0x62 modelCase s c = true →
      (md.state ≠ .empty → (md.state ≠ .described ∧ md.state ≠ .refused) ∨ liveOfModel (mir s i) n ≠ 0 → Refuses (.modelForget i w) i c s aWrong) ∧
      (md.state = .described ∨ md.state = .refused → liveOfModel (mir s i) n = 0 →
        Answers (.modelForget i w) i c s aOk (fun v => foyerRound i (grantSlots i 64 (journalModel i n v))) (fun v =>
          v = modDir i (fun d => { d with models := modAt d.models n fun _ => {}, demand := d.demand.filter (·.1 != n) }) (startCmd i c s)))) ∧
    (starts i w 0x63 modelCase s c = true →
      (md.state ≠ .empty → md.state ≠ .loadPending → Refuses (.modelLoaded i w) i c s aWrong) ∧
      (md.state = .loadPending →
        Answers (.modelLoaded i w) i c s aOk (fun v => dirEdge i (startCmd i c s) (foyerRound i (journalModel i n v))) (fun v => v = answerRequest i n true
          (modModel i n (fun x => { x with state := .resident, lastStep := (mir s i).kitchen.stepAssigned }) (startCmd i c s))))) ∧
    (starts i w 0x64 modelCase s c = true →
      (md.state ≠ .empty → md.state ≠ .loadPending → Refuses (.modelLoadDeclined i w) i c s aWrong) ∧
      (md.state = .loadPending →
        Answers (.modelLoadDeclined i w) i c s aOk (fun v => grantSlots i 64 (journalModel i n (rejectOfModel i n 43 v))) (fun v => v = answerRequest i n true
          (modModel i n (fun x => { x with state := .described }) (startCmd i c s))))) ∧
    (starts i w 0x65 modelCase s c = true →
      (md.state ≠ .empty → md.state ≠ .evicting → Refuses (.modelUnloaded i w) i c s aWrong) ∧
      (md.state = .evicting →
        Answers (.modelUnloaded i w) i c s aOk (fun v => foyerRound i (wantAgain i n (grantSlots i 64 (journalModel i n v)))) (fun v => v = answerRequest i n false
          (modModel i n (fun x => { x with state := .described }) (startCmd i c s))))) ∧
    (starts i w 0x66 modelCase s c = true → md.state ≠ .empty →
      (1 < prm c 1 1 → Refuses (.modelPin i w) i c s aInvalid) ∧
      (prm c 1 1 ≤ 1 → Answers (.modelPin i w) i c s aOk (fun v => dirEdge i (startCmd i c s) (journalModel i n v)) (fun v =>
        v = modModel i n (fun x => { x with pinned := prm c 1 1 == 1 }) (startCmd i c s))))

/-- A staged epoch's life: STAGE enters the descriptor, READY takes a slot where one is free and is answered NO_SLOT where none is, COMMIT arms it and ends a fused run of the model, UNSTAGE drops one that is not armed, RETIRE aborts the old epoch's sequences; each refuses an EMPTY entry and a stage of another row (R232-R234, R243, spec/04 R91). -/
def Obligations.EpochLife : Prop :=
  ∀ (i : InstId) (w : Nat) (s : State) (c : MboxCmd) (n : Nat), n = prm c 0 1 →
    let md := getModel (mir s i) n
    (∀ desc : List Byte, starts i w 0x70 (stageCase s desc) s c = true →
      let b := slice desc 0 64
      let k := fld b 0 1 % 64
      (∀ a, stageRefusal (instVocabLimit s i) (getModel (mir s i) k) (parseEpoch b) = some a → Refuses (.epochStage i w desc) i c s a) ∧
      (stageRefusal (instVocabLimit s i) (getModel (mir s i) k) (parseEpoch b) = none →
        Answers (.epochStage i w desc) i c s aOk (fun v => grantSlots i 64 (journalModel i k v)) (fun v =>
          v = modModel i k (fun x => { x with stage := .staged, staged := parseEpoch b, noSlotClaim := false }) (startCmd i c s)))) ∧
    (∀ p ∈ [(0x71, Instr.epochReady i w), (0x72, .epochCommit i w), (0x73, .epochUnstage i w), (0x74, .epochRetire i w)],
      starts i w p.1 modelCase s c = true → md.state = .empty → Refuses p.2 i c s aNotFound) ∧
    (starts i w 0x71 modelCase s c = true → md.state ≠ .empty →
      (md.stage ≠ .staged → Refuses (.epochReady i w) i c s aWrong) ∧
      (md.stage = .staged → slotsFree (mir s i) ≠ 0 → Answers (.epochReady i w) i c s aOk (journalModel i n) (fun v =>
        v = modModel i n (fun x => { x with stage := .ready, noSlotClaim := false }) (startCmd i c s))) ∧
      (md.stage = .staged → slotsFree (mir s i) = 0 → Answers (.epochReady i w) i c s (.now rNoSlot 0 []) (dirCheck i) (fun v =>
        v = modModel i n (fun x => { x with noSlotClaim := true }) (startCmd i c s)))) ∧
    (starts i w 0x72 modelCase s c = true → md.state ≠ .empty →
      (commitAllowed (mir s i) n = false → Refuses (.epochCommit i w) i c s aWrong) ∧
      (commitAllowed (mir s i) n = true → Answers (.epochCommit i w) i c s aOk (journalModel i n) (fun v =>
        mir v i = { mir (startCmd i c s) i with dir := (mir v i).dir, kitchen := { (mir s i).kitchen with lastCommitted := (mir s i).kitchen.lastCommitted.filter (·.model != n), steps := (mir s i).kitchen.steps.map fun st => if st.model == n then { st with runOver := true } else st } } ∧
        (mir v i).dir = { (mir s i).dir with models := modAt (mir s i).dir.models n (fun x => { x with stage := .armed }) }))) ∧
    (starts i w 0x73 modelCase s c = true → md.state ≠ .empty →
      (md.stage = .none ∨ md.stage = .armed → Refuses (.epochUnstage i w) i c s aWrong) ∧
      (md.stage = .staged ∨ md.stage = .ready →
        Answers (.epochUnstage i w) i c s aOk (fun v => dirEdge i (startCmd i c s) (grantSlots i 64 (journalModel i n v))) (fun v =>
          v = modModel i n (fun x => { x with stage := .none, noSlotClaim := false }) (startCmd i c s)))) ∧
    (starts i w 0x74 modelCase s c = true → md.state ≠ .empty →
      (md.old = none → Refuses (.epochRetire i w) i c s aWrong) ∧
      ∀ o, md.old = some o →
        Answers (.epochRetire i w) i c s aOk (retireCheck i n) (fun v =>
          v = broadcast i (.epochAbort n o.epoch) (fun q => q.r.model == n && q.r.epoch == o.epoch) (startCmd i c s)))

/-- EVENING stops composition and waits; at rest its event work done, the instance is in training and the command is answered; MORNING leaves training for the stages of its end, taking each outpost of its set into its self-test, with a new set and limit where it names one (R244-R247). TURN_COST reports each open context and changes nothing; POOL_LEND lends every FREE page in training and says how many extents; POOL_RETURN takes every lent page back, none where none is lent (DEDUCED, log 45); each refuses as its row gives (R121-R123; that ahead pages count as they do in a cost record, and that a lend of no page leaves none outstanding, is the model's choice, DESIGN CHOICE, logs 97, 98). -/
def Obligations.DayAndPool : Prop :=
  (∀ (i : InstId) (w : Nat) (s : State) (c : MboxCmd),
    (starts i w 0x80 noCase s c = true →
      ((mir s i).kitchen.turn ≠ .service → Refuses (.evening i w) i c s aWrong) ∧
      ((mir s i).kitchen.turn = .service → Answers (.evening i w) i c s .later (fun v => v) (fun v =>
        v = modKit i (fun k => { k with turn := .evening, quiesced := true, eveningSent := false, raises := [] }) (startCmd i c s)))) ∧
    (activeInst s i = true → (mir s i).kitchen.turn = .evening → (mir s i).kitchen.eveningSent = true → pendingKind (getInst s i) eveningEvent = false →
      Goes (.eveningComplete i) s (fun t => (mir t i).kitchen = { (mir s i).kitchen with turn := .training } ∧ (mir t i).seqs = (mir s i).seqs ∧
        (mir t i).ctxs = (mir s i).ctxs ∧ (getInst t i).stair.role = 2 ∧ t.tick = s.tick)) ∧
    (starts i w 0x81 morningCase s c = true →
      let x := getInst s i
      let g := morningSet x c
      let ok := setChanges x g = true → g.1 ≤ 1 ∧ setOk (g.1 == 1) g.2 (if g.1 == bit x.place.split then partnerSet s i else 0) = true
      (¬ok → Refuses (.morning i w) i c s aInvalid) ∧
      (ok → morningWrong s i g = true → Refuses (.morning i w) i c s aWrong) ∧
      (ok → morningWrong s i g = false →
        Answers (.morning i w) i c s .later (beginMorning i g) (fun v => v = startCmd i c s) ∧
        let v := beginMorning i g (startCmd i c s)
        (mir v i).kitchen.turn = .morning ∧ (mir v i).kitchen.morningStage = 2 ∧ (mir v i).kitchen.newSet = setChanges x g ∧
        (getInst v i).place = { x.place with split := if setChanges x g then g.1 == 1 else x.place.split, outposts := g.2 } ∧ v.tick = s.tick ∧ v.host = s.host ∧
        (∀ o, o < 8 → o < s.outposts.length → g.2.getLsbD o = true → (getOutpost v o).owner = some i ∧ (getOutpost v o).selftest = true) ∧
        (setChanges x g = false → (mir v i).seqs = (mir s i).seqs)))) ∧
  (∀ (i : InstId) (w : Nat) (s : State) (c : MboxCmd),
    let cs := openCtxs (mir s i)
    let es := extents (getInst s i)
    (starts i w 0x82 noCase s c = true →
      (prm c 0 8 % 64 ≠ 0 → Refuses (.turnCost i w) i c s aInvalid) ∧
      (prm c 0 8 % 64 = 0 → prm c 8 4 < cs.length → Refuses (.turnCost i w) i c s (.now rFull cs.length [])) ∧
      (prm c 0 8 % 64 = 0 → cs.length ≤ prm c 8 4 →
        (outCase s 0 (32 * cs.length) c ≠ none → StopsAt (.turnCost i w) s 2) ∧
        (outCase s 0 (32 * cs.length) c = none → Answers (.turnCost i w) i c s (.now rOk 0 (leBytes 4 cs.length)) (fun v => v) (fun v =>
          v = hbmPut (prm c 0 8) (cs.flatMap (costRecord (mir (startCmd i c s) i))) (startCmd i c s))))) ∧
    (starts i w 0x83 noCase s c = true →
      let may := (mir s i).kitchen.turn = .training ∧ lentPages (mir s i) = []
      (prm c 0 8 % 64 ≠ 0 → Refuses (.poolLend i w) i c s aInvalid) ∧
      (prm c 0 8 % 64 = 0 → ¬may → Refuses (.poolLend i w) i c s aWrong) ∧
      (prm c 0 8 % 64 = 0 → may → prm c 8 4 < es.length → Refuses (.poolLend i w) i c s (.now rFull es.length [])) ∧
      (prm c 0 8 % 64 = 0 → may → es.length ≤ prm c 8 4 →
        (outCase s 0 (8 * es.length) c ≠ none → StopsAt (.poolLend i w) s 2) ∧
        (outCase s 0 (8 * es.length) c = none →
          Answers (.poolLend i w) i c s (.now rOk 0 (leBytes 4 es.length ++ leBytes 4 0 ++ leBytes 8 (sumNat (es.map (·.2))))) (fun v => v) (fun v =>
            mir v i = { mir (startCmd i c s) i with pantry := lendAll es (mir s i).pantry } ∧
            v.hbm = memPuts s.hbm (prm c 0 8) (es.flatMap fun e => leBytes 4 e.1 ++ leBytes 4 e.2) ∧ v.host = s.host)))) ∧
    (starts i w 0x84 noCase s c = true →
      Answers (.poolReturn i w) i c s (.now rOk 0 (leBytes 8 (lentPages (mir s i)).length)) (fun v => v) (fun v =>
        mir v i = { mir (startCmd i c s) i with pantry := { used := (mir s i).pantry.used.filter (·.2 != .lent) } } ∧ v.hbm = s.hbm ∧ v.host = s.host)))

/-- SNAPSHOT begins an image, or waits for the one in progress, and is IO_ERROR while the path has failed; LOSS_BOUND sets the bound; DRIVE_RETRY tries a failed path; RESTORE begins to read, and is refused where the instance is not empty, its path has failed or the image is of another pairing mode or too wide for its outposts; each leaves the mirrored state but for the command itself (R377, R378, R380, spec/01 R27). A restore that reads no superblock fails by check 1, one whose image has not the digest that it should by check 2; one whose digest is verified, or that no replica can verify, rebuilds the instance from the replayed image; the flag lets one that fails a later check go on as FORCED (R380-R384); a restored trail over another buffer given to Shapa is undefined (R386, spec/00 R12). A DRIVE_RETRY of a path that has not failed, or that is tried, and the IO_ERROR of a failed path are the model's choice (DESIGN CHOICE, log 72), as is RESTORE's refusal while one runs (DEDUCED, log 75). -/
def Obligations.DurabilityCommands : Prop :=
  (∀ (i : InstId) (w : Nat) (s : State) (c : MboxCmd),
    let r := (getInst s i).rel
    (starts i w 0x90 (fun c => tooWide (prm c 0 4) 10) s c = true →
      (r.driveFailed = false → r.bulk = none → Answers (.snapshot i w) i c s .later (startBulk i (some c.id) (prm c 0 4)) (fun v => v = startCmd i c s)) ∧
      (r.driveFailed = false → r.bulk ≠ none → Answers (.snapshot i w) i c s .later (fun v => v) (fun v => v = startCmd i c s)) ∧
      (r.driveFailed = true → Refuses (.snapshot i w) i c s (.now rIoError 0 []))) ∧
    (starts i w 0x92 noCase s c = true →
      Answers (.lossBound i w) i c s aOk (fun v => v) (fun v => v = modRel i (fun r => { r with lossBound := prm c 0 4 }) (startCmd i c s))) ∧
    (starts i w 0x93 noCase s c = true →
      (r.driveFailed = false ∨ r.drive ≠ [] → Refuses (.driveRetry i w) i c s aWrong) ∧
      (r.driveFailed = true → r.drive = [] → Answers (.driveRetry i w) i c s .later (driveIssue i (.probe c.id) false) (fun v => v = startCmd i c s))) ∧
    (starts i w 0x91 (fun c => tooWide (prm c 0 4) 1) s c = true →
      let unfit := ((curSuper r.disk).any fun b => b.split != (getInst s i).place.split) = true ∨ (curSuper r.disk ≠ none ∧ imageTooWide s i (replayed r.disk) = true)
      (restoreOpen s i = false → Refuses (.restore i w) i c s aWrong) ∧
      (restoreOpen s i = true → r.driveFailed = true → Refuses (.restore i w) i c s (.now rIoError 0 [])) ∧
      (restoreOpen s i = true → r.driveFailed = false → unfit → Refuses (.restore i w) i c s aInvalid) ∧
      (restoreOpen s i = true → r.driveFailed = false → ¬unfit →
        Answers (.restore i w) i c s .later (driveIssue i (.restore c.id) false) (fun v =>
          v = modRel i (fun r => { r with restore := .running, restoreCheck := 0, restoreCmd := some c.id, restoreForce := (prm c 0 4).testBit 0 }) (startCmd i c s))))) ∧
  (∀ (i : InstId) (s : State) (cmd : Nat), running s i = true → (getInst s i).rel.restore = .running → (getInst s i).rel.restoreCmd = some cmd →
    let d := (getInst s i).rel.disk
    let u := opDone i (· == .restore cmd) s
    let failed (n : Nat) : Prop := Mirrors (.restoreComplete i) i s (fun t => t = restoreFails i cmd n u)
    let rebuilt (o : RestoreState) (n : Nat) : Prop :=
      (restoreClash (rebuild i (replayed d) o n u) i = true → StopsAt (.restoreComplete i) s 2) ∧
      (restoreClash (rebuild i (replayed d) o n u) i = false →
        Ends (.restoreComplete i) i s (finishCmd i cmd rOk 0 (cursorData (replayed d))) (fun v => v = rebuild i (replayed d) o n u))
    (curSuper d = none → failed 1) ∧
    (curSuper d ≠ none → digestRight d = false → failed 2) ∧
    (curSuper d ≠ none → digestRight d = true →
      (compareDigest s i = .verified → rebuilt .verified 0) ∧ (compareDigest s i = .unverified → rebuilt .unverified 0) ∧
      ∀ n, compareDigest s i = .check n →
        ((getInst s i).rel.restoreForce = true → rebuilt .forced n) ∧ ((getInst s i).rel.restoreForce = false → failed n)))

/-- TRACE sets the mask of a running trace, begins one, or ends one once its records are drained; COUNTERS writes the banks it selects; WATCH arms a watch; each refuses as its row gives, and an output buffer over what Shapa holds is undefined (R396, R405, R407, spec/14 R293). The bytes that a watch needs are those of its sequence's present epoch (DEDUCED, log 62). -/
def Obligations.StudyCommands : Prop :=
  ∀ (i : InstId) (w : Nat) (s : State) (c : MboxCmd),
    (starts i w 0xB1 noCase s c = true →
      let on := (getInst s i).study.traceOn
      (1 < prm c 0 1 ∨ 1024 ≤ prm c 4 4 → Refuses (.trace i w) i c s aInvalid) ∧
      (prm c 4 4 < 1024 →
        (prm c 0 1 = 1 → on = true → Answers (.trace i w) i c s aOk (fun v => v) (fun v => v = modStudy i (fun y => { y with traceMask := prm c 4 4 }) (startCmd i c s))) ∧
        (prm c 0 1 = 1 → on = false → traceCap (getInst s i) = 0 → Refuses (.trace i w) i c s aWrong) ∧
        (prm c 0 1 = 1 → on = false → traceCap (getInst s i) ≠ 0 → Answers (.trace i w) i c s aOk (startTrace i (prm c 4 4)) (fun v => v = startCmd i c s)) ∧
        (prm c 0 1 = 0 → on = true →
          Answers (.trace i w) i c s .later (modStudy i (fun y => { y with traceOn := false, draining := some c.id })) (fun v => v = drainTrace i (startCmd i c s))) ∧
        (prm c 0 1 = 0 → on = false → Refuses (.trace i w) i c s aOk))) ∧
    (starts i w 0xB2 noCase s c = true →
      let bs := counterBytes (getInst (startCmd i c s) i).study (prm c 0 4)
      (prm c 0 4 = 0 ∨ prm c 8 8 % 64 ≠ 0 → Refuses (.counters i w) i c s aInvalid) ∧
      (prm c 0 4 ≠ 0 → prm c 8 8 % 64 = 0 →
        (outCase s 8 (256 * popCount 32 (prm c 0 4)) c ≠ none → StopsAt (.counters i w) s 2) ∧
        (outCase s 8 (256 * popCount 32 (prm c 0 4)) c = none →
          Answers (.counters i w) i c s (.now rOk 0 (leBytes 4 bs.length)) (fun v => v) (fun v => v = hbmPut (prm c 8 8) bs (startCmd i c s))))) ∧
    (mayRefuse i w 0xB0 (watchCase s) s c = true →
      let ok := prm c 8 1 < 5 ∧ prm c 0x10 8 % 64 = 0
      let named := namedSeq (mir s i) (winCtx w) (prm c 0 4)
      (¬ok → Refuses (.watch i w) i c s aInvalid) ∧ (ok → named = none → Refuses (.watch i w) i c s aNotFound) ∧
      ∀ q, ok → named = some q →
        let may := seqT q.r ≤ prm c 4 4 ∧ ((getInst s i).study.watches.filter (·.context == winCtx w)).length < 4 ∧ q.r.state.live = true
        let need := watchSize (mir s i) q.r (prm c 8 1)
        (¬may → Refuses (.watch i w) i c s aWrong) ∧
        (may → prm c 0x18 4 < need → Refuses (.watch i w) i c s (.now rFull need [])) ∧
        (may → need ≤ prm c 0x18 4 → watchCase s c = some 2 → StopsAt (.watch i w) s 2) ∧
        (may → need ≤ prm c 0x18 4 → watchCase s c = none →
          Answers (.watch i w) i c s .later (fun v => v) (fun v => v = modStudy i (fun y => { y with watches := y.watches ++
            [{ cmd := c.id, context := winCtx w, lid := q.r.localId, position := prm c 4 4, tensor := prm c 8 1, addr := prm c 0x10 8, size := prm c 0x18 4 }] })
            (startCmd i c s))))

/-- DIRECTIONS_SET replaces a model's candidates, or takes them away, and announces the instance to each new one; IMAGE_WRITE asks for the flash grant with the image for the other slot, the die's end of the operation checks it and puts it on trial, and FIRMWARE_CONFIRM ends the trial once it has the grant (spec/16 R344, spec/13 R279, spec/01 R25; that its rewrite is done as the grant comes is DEDUCED, log 22). A list that is too long is refused, as is an image that is too long and an image while one is written or on trial (the codes DEDUCED, log 19). -/
def Obligations.DirectionsAndImages : Prop :=
  ∀ (i : InstId) (w : Nat) (s : State),
    (∀ (list : List Byte) (c : MboxCmd), starts i w 0xA1 (directionsCase s list) s c = true →
      let k := prm c 0 1
      let n := prm c 4 4
      let as := directionEntries n list
      let fresh := as.eraseDups.filter fun a => !((getInst s i).stair.peers.any (·.addr == a))
      let tell (v : State) : State := fresh.foldl (fun v a => sendMsg i { mkMsg tAnnounce a with payload := announcePayload (getInst v i) }
        (modStair i (fun t => { t with peers := addPeer (mir v i) { addr := a } t.peers }) v)) v
      (16 < n → Refuses (.directionsSet i w list) i c s aInvalid) ∧
      (n ≤ 16 → Answers (.directionsSet i w list) i c s aOk (fun v => foyerRound i (tell (journalObj i (.directions k as) v))) (fun v =>
        v = modMir i (fun m => { m with directions := if n = 0 then del k m.directions else put k as m.directions }) (startCmd i c s)))) ∧
    (∀ (img : List Byte) (c : MboxCmd), starts i w 0xC0 (imageCase s img) s c = true →
      let busy := bootTrial s.flash.boot = true ∨ s.a.hearth.imgWrite ≠ none ∨ s.b.hearth.imgWrite ≠ none
      (16777216 < prm c 8 4 → Refuses (.imageWrite i w img) i c s aInvalid) ∧
      (prm c 8 4 ≤ 16777216 → busy → Refuses (.imageWrite i w img) i c s aWrong) ∧
      (prm c 8 4 ≤ 16777216 → ¬busy →
        Answers (.imageWrite i w img) i c s .later (fun v => v) (fun v => v.flash = { s.flash with waiting := s.flash.waiting ++ [(i, .program)] } ∧
          (getInst v i).hearth = { (getInst s i).hearth with
            imgWrite := some { cmd := c.id, slot := !(getInst s i).hearth.slot, prefer := (prm c 12 4).testBit 0, img := slice img 0 (prm c 8 4) } } ∧
          mir v i = mir (startCmd i c s) i))) ∧
    (∀ g, (getInst s i).hearth.imgWrite = some g → g.programming = true →
      (Goes (.imageProgramDone i false) s (fun t => slotOf t.flash g.slot = some [] ∧ t.flash.boot = s.flash.boot ∧ (getInst t i).hearth.imgWrite = none)) ∧
      Goes (.imageProgramDone i true) s (fun t => slotOf t.flash g.slot = some g.img ∧ (getInst t i).hearth.imgWrite = none ∧
        t.flash.boot = if (checksFail g.img).isNone && g.prefer then rewriteBoot (bit g.slot) 0x5A s.flash.boot else s.flash.boot)) ∧
    (∀ c, starts i w 0xC1 noCase s c = true →
      Answers (.firmwareConfirm i w) i c s .later (fun v => v) (fun v => v = askGrant i (.confirm c.id) (startCmd i c s))) ∧
    (∀ cmd rest, s.flash.holder = none → s.flash.waiting = (i, .confirm cmd) :: rest →
      Goes .flashGrant s (fun t => t.flash = { s.flash with waiting := rest, boot := rewriteBoot (bit (bootPreferred s.flash.boot)) 0 s.flash.boot } ∧
        t.a.hearth = { s.a.hearth with trial := false } ∧ t.b.hearth = { s.b.hearth with trial := false } ∧ (mir t i).mbox = (mir s i).mbox.filter (·.id != cmd)))

/-- The doorbells: an open context takes `sq_tail` and `cq_head` as written, one beyond the ring is undefined, and a context that is not open takes neither (R307, R311, spec/00 R12). The Porch writes what the completion ring has room for, in order, then the shadow and the interrupt's test; an interrupt rises where the count or the time of its moderation is reached, and only there (R309, R310, R312). -/
def Obligations.Rings : Prop :=
  (∀ (i : InstId) (k v : Nat) (s : State),
    (porchTakes s i = false → exec (.sqTailDoorbell i k v) s = .next s ∧ exec (.cqHeadWrite i k v) s = .next s) ∧
    (porchTakes s i = true →
      let x := getCtx (mir s i) k
      (x.isOpen = true → ringDiff v x.sqHead ≤ x.cfg.sqEntries →
        Settles (.sqTailDoorbell i k v) i s (fun t => mir t i = { mir s i with ctxs := modAt (mir s i).ctxs k (fun x => { x with sqTail := v }) } ∧
          t.host = s.host ∧ t.hbm = s.hbm)) ∧
      (x.isOpen = true → x.cfg.sqEntries < ringDiff v x.sqHead → StopsAt (.sqTailDoorbell i k v) s 11) ∧
      (x.isOpen = true → ringDiff x.cqTail v ≤ x.cfg.cqEntries →
        Settles (.cqHeadWrite i k v) i s (fun t => (getCtx (mir t i) k).cqHead = v ∧ (getCtx (mir t i) k).cqTail = x.cqTail ∧
          (getCtx (mir t i) k).stream = x.stream ∧ (∀ n, n ≠ k → getCtx (mir t i) n = getCtx (mir s i) n) ∧
          (mir t i).seqs = (mir s i).seqs ∧ t.host = s.host ∧ t.hbm = s.hbm)) ∧
      (x.isOpen = true → x.cfg.cqEntries < ringDiff x.cqTail v → StopsAt (.cqHeadWrite i k v) s 11) ∧
      (x.isOpen = false → Settles (.sqTailDoorbell i k v) i s (fun t => t = s) ∧ Settles (.cqHeadWrite i k v) i s (fun t => t = s)))) ∧
  (∀ (i : InstId) (k : Nat) (s : State),
    let x := getCtx (mir s i) k
    let n := cqWrites s i k
    (n = 0 → exec (.cqRingWrite i k) s = .next s) ∧
    (n ≠ 0 → ∃ v, exec (.cqRingWrite i k) s = .next (settled i s (if x.cqHold && !(getCtx (mir v i) k).cqHold then foyerRound i (ringPush i 5 0x025 3 0 [k] v) else v)) ∧
      v.host = (writeShadow i k (modCtx i k (ringWritten s.tick n) (writeRing x.cfg x.cqTail (x.stream.take n) s))).host ∧
      (mir v i).ctxs = modAt (mir s i).ctxs k (ringWritten s.tick n) ∧ v.hbm = s.hbm ∧ (mir v i).seqs = (mir s i).seqs)) ∧
  (∀ (i : InstId) (k : Nat) (s : State),
    let x := getCtx (mir s i) k
    let due := x.unsignalled ≠ 0 ∧ (max x.irqCount 1 ≤ x.unsignalled ∨ (x.irqTicks ≠ 0 ∧ x.oldestTick + x.irqTicks ≤ s.tick))
    ((getInst s i).rel.active = true → due → Mirrors (.irqModerationTimer i k) i s (fun t => t = raiseIrq i k s)) ∧
    ((getInst s i).rel.active = true → ¬due → Mirrors (.irqModerationTimer i k) i s (fun t => t = s)) ∧
    ((getInst s i).rel.active = false → exec (.irqModerationTimer i k) s = .next s))

/-- The Porch reads the entry at the ring's head, which the host has put into its slot: one of KIND 0 and one of an unknown kind pass the head and no more, the latter counted; a request's entry goes to admission and may let deferred requests through; a reserved bit is undefined, as is a buffer that may not be written or a descriptor that meets another undefined case (R308, R55, spec/00 R12). An entry is not read while the Foyer or the Porch is held, which is then noted (spec/03 R62, spec/12 R259). -/
def Obligations.EntriesRead : Prop :=
  ∀ (i : InstId) (k : Nat) (entry : List Byte) (prompt : List Nat) (stop : List Byte) (s : State),
    let u := placeEntry i k entry s
    let e := entryAt u i k
    (entry.length = 320 → Machine.Mem.wf s.host = true → e = entry) ∧
    (sqReads s i k = false → intakeFull 2 (getInst s i).hall = false →
      exec (.sqNop i k entry) s = .next s ∧ exec (.sqBadKind i k entry) s = .next s ∧ exec (.submitEntry i k entry prompt stop) s = .next s) ∧
    (sqReads s i k = true →
      (fld e 0 1 ≠ 0 → exec (.sqNop i k entry) s = .next s) ∧
      (fld e 0 1 = 0 → (entryReserved e = true → StopsAt (.sqNop i k entry) s 12) ∧
        (entryReserved e = false → Mirrors (.sqNop i k entry) i s (fun t => t = passEntry i k u))) ∧
      (fld e 0 1 ≤ 1 → exec (.sqBadKind i k entry) s = .next s) ∧
      (1 < fld e 0 1 → (entryReserved e = true → StopsAt (.sqBadKind i k entry) s 12) ∧
        (entryReserved e = false → Mirrors (.sqBadKind i k entry) i s (fun t =>
          t = modCtx i k (fun x => { x with sqBadKind := satTo 32 (x.sqBadKind + 1) }) (passEntry i k u)))) ∧
      (fld e 0 1 ≠ 1 → exec (.submitEntry i k entry prompt stop) s = .next s) ∧
      (fld e 0 1 = 1 →
        let r := parseRequest (slice e 0x40 256)
        let t := placeBuffers r prompt stop u
        let clash := (hostWriteCase u r.promptAddr (words 4 prompt)).or (hostWriteCase u r.stopBlockAddr stop)
        let meets := if (getCtx (mir t i) k).closing then none else requestCase t i r
        (entryReserved e = true ∨ requestReserved (slice e 0x40 256) = true → StopsAt (.submitEntry i k entry prompt stop) s 12) ∧
        (entryReserved e = false → requestReserved (slice e 0x40 256) = false →
          (∀ n, clash.or meets = some n → StopsAt (.submitEntry i k entry prompt stop) s n) ∧
          (clash.or meets = none → Ends (.submitEntry i k entry prompt stop) i s (fun v => passAll i (passEntry i k v)) (fun v => v = newRequest i k r t)))))

/-- A write of 1 to a status bit clears it, and a completion bit rises again while its context's records are unread; only an 8-byte write reaches the whole enable register; a write that reaches a register misaligned, and one with a bit of no field, is undefined; an instance in reset, or whose Dawn has FAILED, takes none (R311-R313, spec/19 R412, R416, spec/01 R24, spec/00 R12). -/
def Obligations.InterruptWrites : Prop :=
  (∀ (i : InstId) (v : BitVec 36) (s : State), deaf s i = false →
    Settles (.irqStatusClear i true irqStatusOff v.toNat) i s (fun t => t = clearIrq i v s) ∧
    (v &&& 0xFFFF#36 = 0 → Settles (.irqStatusClear i true irqStatusOff v.toNat) i s (fun t =>
      irqStatus (mir t i).irq = irqStatus (mir s i).irq &&& ~~~v ∧ (mir t i).irq.enable = (mir s i).irq.enable ∧ (mir t i).ctxs = (mir s i).ctxs ∧ t.host = s.host)) ∧
    Settles (.irqEnableWrite i true irqEnableOff v.toNat) i s (fun t => (mir t i).irq = { (mir s i).irq with enable := v } ∧
      (mir t i).ctxs = (mir s i).ctxs ∧ t.hbm = s.hbm) ∧
    Settles (.irqEnableWrite i false irqEnableOff v.toNat) i s (fun t => t = s)) ∧
  (∀ (i : InstId) (wide : Bool) (off v : Nat) (s : State),
    (reaches wide off irqStatusOff = true → aligned wide off = false → StopsAt (.irqStatusClear i wide off v) s 13) ∧
    (reaches wide off irqEnableOff = true → aligned wide off = false → StopsAt (.irqEnableWrite i wide off v) s 13) ∧
    (deaf s i = true → aligned wide off = true → exec (.irqStatusClear i wide off v) s = .next s ∧ exec (.irqEnableWrite i wide off v) s = .next s) ∧
    (deaf s i = false → (BitVec.ofNat 64 v) >>> 36 ≠ 0 → StopsAt (.irqStatusClear i true irqStatusOff v) s 12 ∧ StopsAt (.irqEnableWrite i true irqEnableOff v) s 12))

/-- The TIMER of the periodic entry has the deferred requests evaluated again, and the entry is inserted 16 ticks after it was due, or at once where the Foyer has none yet (R63, spec/12 R261); the TIMER of a context's defer limit rejects what it holds (R64). A host memory error gives its context cause 2 where it has none; an event of a context's unit flow is released and the requests evaluated (spec/12 R251; DESIGN CHOICE, log 84); a torn-down context with nothing left in it is released with its interrupt (R332, R333). -/
def Obligations.FoyerTimersAndFaults : Prop :=
  (∀ (i : InstId) (s : State),
    (activeInst s i = true → foyerTimed (getInst s i) = false →
      Ends (.foyerReevaluation i) i s (foyerRound i) (fun v => v = duskUnit i 1 foyerUnit (s.tick + 16) s)) ∧
    (activeInst s i = false ∨ foyerTimed (getInst s i) = true →
      let u := fireDue i 1 (.unit foyerUnit) s
      (dueTimer u i 1 (.unit foyerUnit) = none → Mirrors (.foyerReevaluation i) i s (fun t => t = u)) ∧
      ∀ h due, dueTimer u i 1 (.unit foyerUnit) = some (h, due) →
        Ends (.foyerReevaluation i) i s (foyerRound i) (fun v => v = duskUnit i 1 foyerUnit (max (due + 16) (s.tick + 1)) (releaseEvent i (.unit foyerUnit) u))) ∧
    (∀ due, (mir (duskUnit i 1 foyerUnit due s) i).seqs = (mir s i).seqs ∧
      ((mir (duskUnit i 1 foyerUnit due s) i).dusk.filter fun d => d.list == 1 && d.flow == .unit foyerUnit).map (·.due) = [due]) ∧
    (∀ k, let u := fireDue i 2 (.unit k) s
      (dueTimer u i 2 (.unit k) = none → Mirrors (.deferLimitExpiry i k) i s (fun t => t = u)) ∧
      ∀ p, dueTimer u i 2 (.unit k) = some p →
        Ends (.deferLimitExpiry i k) i s (foyerRound i) (fun v => v = expireDeferred i k (releaseEvent i (.unit k) u)))) ∧
  (∀ (i : InstId) (k : Nat) (s : State),
    (running s i = true → (getInst s i).rel.active = true → (getCtx (mir s i) k).isOpen = true →
      Ends (.dmaError i k) i s (fun t => t) (fun t => mir t i = { mir s i with ctxs := modAt (mir s i).ctxs k (fun x => if x.isOpen && x.faultCause == 0 then { x with faultCause := 2 } else x) } ∧ OnlyMirror i s t)) ∧
    (∀ src, flowKind s i (.unit k) = some (.context src) →
      Ends (.context i k) i s (foyerRound i) (fun v => v = releaseEvent i (.unit k) s)) ∧
    (activeInst s i = true → teardownDone (getInst s i) k = true →
      Ends (.teardownComplete i k) i s (fun v => raiseIrq i irqFault (journalCtx i k v)) (fun v => v = releaseContext i k s)))

/-- A composition with nothing composable composes nothing; with a candidate that no latch keeps out and room in flight it composes the first of the order; with none to spare the most urgent candidate preempts the youngest step where its class may, no latch holds it and that step may give way, and only if its own step is then composed; beyond the depth, or while the Kitchen is closed, nothing is composed (R73-R75, R78, R80, R82, spec/15 R320-R322, R335). -/
def Obligations.Composition : Prop :=
  ∀ (i : InstId) (fuse : Bool) (s : State),
    (kitchenOpen s i = false → exec (.composeStep i fuse) s = .next s) ∧
    (kitchenOpen s i = true →
      let u := preCompose i s
      let all := candidatesOf u i
      let v := latchWaits i all u
      let m := mir v i
      let most := firstBy (fun a b => before m v.tick [] a b)
      let idle := Ends (.composeStep i fuse) i s (fun w => w) (fun w => w = v)
      (inFlightSteps m < m.kitchen.depth →
        (most (unlatched m all) = none → idle) ∧
        ∀ first, most (unlatched m all) = some first → Ends (.composeStep i fuse) i s (composeNow i fuse first all) (fun w => w = v)) ∧
      (m.kitchen.depth < inFlightSteps m → idle) ∧
      (inFlightSteps m = m.kitchen.depth →
        (most all = none → idle) ∧
        ∀ top, most all = some top →
          let c := rankClass m top
          (m.kitchen.preemptMask.testBit c = false ∨ unlatched m [top] = [] ∨ preemptable m c = none → idle) ∧
          (∀ y, m.kitchen.preemptMask.testBit c = true → unlatched m [top] ≠ [] → preemptable m c = some y →
            let k := modAcct i top.r.context (fun a => { a with preempting := satTo 32 (a.preempting + 1) }) (killStep i y.num true v)
            let t := composeNow i fuse top (candidatesOf k i) k
            (composedFor v t i top.r.localId = true → Ends (.composeStep i fuse) i s (fun w => w) (fun w => w = t)) ∧
            (composedFor v t i top.r.localId = false → idle))))

/-- What reaches an outpost from outside: a draw list, a block of the keystream, a slice of a class map, a granule and a marker at the Larder's port; each changes that outpost alone, but for the owner's ring, and one that nothing there awaits changes nothing; a granule that no step of the owner addresses is undefined (R155-R158, R186, R188, R225, spec/01 R18, spec/00 R12). That a lane takes more than 64 blocks where one pass needs them is the model's choice (DESIGN CHOICE, log 100). -/
def Obligations.OutpostArrivals : Prop :=
  ∀ (o : Nat) (s : State),
    let x := getOutpost s o
    (x.drawsPending = [] → exec (.drawList o) s = .next s) ∧
    (∀ d rest, x.drawsPending = d :: rest →
      Goes (.drawList o) s (fun t => OnlyOutpost o s t ∧ getOutpost t o = { x with drawsPending := rest, draws := x.draws ++ [d] })) ∧
    (∀ su lane low d, let g := coreOf x su.h lane
      coreRow x o g = some su → (blocksWanted x o su lane).find? (·.low == low) = some d →
      ((coreNeeds x o su g).all (fifoRoom x · su.h) = true → Goes (.keystreamBlock o su.h lane low) s (fun t => OnlyOutpost o s t ∧
        getOutpost t o = { x with fifo := x.fifo ++ [{ h := su.h, kind := d.kind, lane := lane, low := low, value := BitVec.ofNat 128 (blockValue su d.kind d.position low) }] })) ∧
      ((coreNeeds x o su g).all (fifoRoom x · su.h) = false → exec (.keystreamBlock o su.h lane low) s = .next s)) ∧
    (∀ h lane low, (∀ su, coreRow x o (coreOf x h lane) = some su → su.h ≠ h) → exec (.keystreamBlock o h lane low) s = .next s) ∧
    (∀ plan lane,
      let first := (heldSetups x).find? fun y => y.plan.map (·.1) == some plan
      (first = none → exec (.classMapLoaded o plan lane) s = .next s) ∧
      (∀ su, first = some su → lane < 512 →
        let plans := ((heldSetups x).filterMap fun y => if y.h.step == su.h.step then y.plan.map (·.1) else none).eraseDups
        Goes (.classMapLoaded o plan lane) s (fun t => OnlyOutpost o s t ∧ getOutpost t o =
          { x with maps := mapSlice plan lane (if x.maps.any (·.plan == plan) then x.maps else assignMaps s.tick (plan :: plans.erase plan) x.maps) }))) ∧
    (∀ off data,
      (dieSteps s o = [] → exec (.larderGranuleWrite o off data) s = .next s) ∧
      ((dieSteps s o).any (fun st => stepLane st o (off / 0x10000)) = true →
        Goes (.larderGranuleWrite o off data) s (fun t => OnlyOutpost o s t ∧ getOutpost t o = drainPort { x with port := x.port ++ [.granule off data] })) ∧
      (dieSteps s o ≠ [] → (dieSteps s o).any (fun st => stepLane st o (off / 0x10000)) = false → StopsAt (.larderGranuleWrite o off data) s 8)) ∧
    (∀ step wave,
      ((dieSteps s o).any (fun st => step24 st.num == step) = false → exec (.waveDoneMarker o step wave) s = .next s) ∧
      ((dieSteps s o).any (fun st => step24 st.num == step) = true →
        Goes (.waveDoneMarker o step wave) s (fun t => (∀ p, p ≠ o → getOutpost t p = getOutpost s p) ∧
          getOutpost t o = drainPort { x with port := x.port ++ [.marker step wave] } ∧ ∀ i, (getInst t i).mir = (getInst s i).mir)))

/-- A lane pass that ends sends its summary up the channel of the row's instance, unless the row's set-up is on its way again, and uses up its keystream; it writes the tensors that its row's watches ask of it, and a slice that it reads again whole is counted as corrected (spec/17 R359, spec/18 R405); one that meets a parity error asks for the slice again; a MAX pass over a logit that is no number is undefined; the row of a killed step leaves at the end of its pass (R158, R160, R172, R188, spec/00 R12). A self-test that finds nothing in Dawn or Morning ends, and after a failed sum is an outpost fault; one that finds up to eight groups fences them, with an entry in the fault log for each; a ninth is an outpost fault (R169, R171, spec/08 R189). -/
def Obligations.LanePassesAndTests : Prop :=
  (∀ (o : Nat) (r : OutRow) (s : State),
    let x := getOutpost s o
    x.rows.find? (·.su.h == r.su.h) = some r →
    (∀ ev, r.killed = true → Goes (.lanePassComplete o r.su.h ev) s (fun t => OnlyOutpost o s t ∧ getOutpost t o = finishRow r.su.h x)) ∧
    (∀ ev, r.killed = false → passReady x r o = false → exec (.lanePassComplete o r.su.h ev) s = .next s) ∧
    (r.killed = false → passReady x r o = true →
      let l := outTokens s r.inst r.su o
      let nan := r.stage = .maxPass ∧ l.any (fun t => !fFinite t.l) = true
      (∀ delta, nan → StopsAt (.lanePassComplete o r.su.h (.upset delta)) s 8) ∧
      (∀ delta m stage, ¬nan → passSummary x o r delta l ((r.resid.bind (·.draft)).elim [] fun p => outTokens s r.inst p.1 o) = some (m, stage) →
        Goes (.lanePassComplete o r.su.h (.upset delta)) s (fun t => (∀ p, p ≠ o → getOutpost t p = getOutpost s p) ∧
          upOf (getOutpost t o) r.inst = (if restarting x r then upOf x r.inst else upOf x r.inst ++ [m]) ∧
          upOf (getOutpost t o) (Machine.other r.inst) = upOf x (Machine.other r.inst) ∧
          (getOutpost t o).rows = x.rows.map (fun q => if q.su.h == r.su.h then { q with stage := stage, reread := if r.stage = .maxPass then [] else q.reread } else q) ∧
          (∀ i, getInst t i = getInst (countFixed r.inst (rereadOk r).length s) i) ∧ t.hbm = (watchPass o r l s).hbm ∧ t.host = s.host ∧ t.tick = s.tick ∧
          ((getInst s r.inst).study.watches = [] → t.hbm = s.hbm) ∧ (getOutpost t o).maps = touchMap s.tick r.su x.maps ∧
          (getOutpost t o).fifo = x.fifo.filter (fun b => !usedBlock r b) ∧ (getOutpost t o).larder = x.larder)) ∧
      exec (.lanePassComplete o r.su.h .ok) s = exec (.lanePassComplete o r.su.h (.upset 0)) s ∧
      (∀ lane, (rowLanes r.su o).contains lane = true →
        Goes (.lanePassComplete o r.su.h (.parity lane)) s (fun t => (∀ p, p ≠ o → getOutpost t p = getOutpost s p) ∧
          upOf (getOutpost t o) r.inst = upOf x r.inst ++ [.parity r.su.h lane] ∧
          (getOutpost t o).rows = x.rows.map (fun q => if q.su.h == r.su.h then { q with stage := .setup, rereq := some lane, rewritten := false, reread := q.reread.erase lane } else q) ∧
          (getOutpost t o).parityEvents = satTo 32 (x.parityEvents + 1) ∧ t.hbm = s.hbm ∧ ∀ i, (getInst t i).mir = (getInst s i).mir)))) ∧
  (∀ (o : Nat) (i : InstId) (failed : BitVec 32) (s : State),
    let x := getOutpost s o
    (x.selftest = false → exec (.laneGroupSelftestDone o failed) s = .next s) ∧
    (x.owner = some i → x.selftest = true →
      let ends (after : State → State) : Prop := Ends (.laneGroupSelftestDone o failed) i s after (fun v => getOutpost v o = { x with selftest := false } ∧
        mir v i = mir s i ∧ v.hbm = s.hbm)
      (failed = 0 → knownAnswerTest s i = true → ends (fun v => v)) ∧
      (failed = 0 → knownAnswerTest s i = false → ends (outpostFault i o 0 0)) ∧
      (failed ≠ 0 → 8 < fencedCount (fencedOf x ||| failed) → ends (outpostFault i o failed.toNat 0)) ∧
      (failed ≠ 0 → fencedCount (fencedOf x ||| failed) ≤ 8 →
        Ends (.laneGroupSelftestDone o failed) i s (logFences i o failed) (fun v =>
          (getOutpost v o).testFence = x.testFence ||| failed ∧ (getOutpost v o).selftest = false ∧
          (getOutpost v o).selftestFences = satTo 32 (x.selftestFences + fencedCount (failed &&& ~~~x.testFence)) ∧
          (getOutpost v o).larder = x.larder ∧ (getOutpost v o).rows = x.rows ∧ mir v i = mir s i))))

/-- What the Landing sends down: a set-up of the outpost's draw lists enters a row, DONE ends one, and the five orders between passes move the row they name to the next pass with what they carry (that the residual pass is ordered as a CUT is the model's, PRESUMED, log 101); a message for a row that is not held, or is no longer wanted, is discarded and counted (R159-R167, R172). -/
def Obligations.ChannelOrders : Prop :=
  ∀ (o : Nat) (i : InstId) (h : RowHandle) (s : State),
    let x := getOutpost s o
    let taken := downPut i ((downOf x i).drop 1) x
    let held := holdsRow x h = true
    (∀ su, downHead x (fun m => match m with | .rowSetup _ => true | _ => false) = some (i, .rowSetup su) →
      ((knownSetups x).any (·.h == su.h) = true → Goes (.rowSetup o) s (fun t => OnlyOutpost o s t ∧ getOutpost t o = enterSetup i su taken)) ∧
      ((knownSetups x).any (·.h == su.h) = false → RowDropped (.rowSetup o) o i s)) ∧
    (downHead x (fun m => match m with | .done _ => true | _ => false) = some (i, .done h) →
      (held → Goes (.doneMsg o) s (fun t => OnlyOutpost o s t ∧ getOutpost t o = finishRow h taken)) ∧ (¬held → RowDropped (.doneMsg o) o i s)) ∧
    (∀ a b, downHead x (fun m => match m with | .maxResult _ _ _ => true | _ => false) = some (i, .maxResult h a b) →
      (held → RowTakes (.maxResult o) o i h (fun r => { r with stage := .massPass, m := a, mPi := b }) s) ∧ (¬held → RowDropped (.maxResult o) o i s)) ∧
    (∀ a b, downHead x (fun m => match m with | .roundReq _ _ _ => true | _ => false) = some (i, .roundReq h a b) →
      (held → RowTakes (.roundReq o) o i h (fun r => { r with stage := .roundPass, round := a, keyPrefix := b }) s) ∧ (¬held → RowDropped (.roundReq o) o i s)) ∧
    (∀ kb q, downHead x (fun m => match m with | .cut _ _ _ _ | .resid _ _ => true | _ => false) = some (i, .cut h kb q .kept) →
      (held → RowTakes (.cut o) o i h (fun r => { r with stage := .keptPass, kb := kb, quota := q }) s) ∧ (¬held → RowDropped (.cut o) o i s)) ∧
    (∀ kb q, downHead x (fun m => match m with | .cut _ _ _ _ | .resid _ _ => true | _ => false) = some (i, .cut h kb q .race) →
      (held → RowTakes (.cut o) o i h (fun r => { r with stage := .racePass, kb := kb, quota := q }) s) ∧ (¬held → RowDropped (.cut o) o i s)) ∧
    (∀ sp, downHead x (fun m => match m with | .cut _ _ _ _ | .resid _ _ => true | _ => false) = some (i, .resid h sp) →
      (held → RowTakes (.cut o) o i h (fun r => { r with stage := .residPass, resid := some sp }) s) ∧ (¬held → RowDropped (.cut o) o i s)) ∧
    (∀ q, downHead x (fun m => match m with | .quotas _ _ => true | _ => false) = some (i, .quotas h q) →
      (held → RowTakes (.quotas o) o i h (fun r => { r with quotas := q }) s) ∧ (¬held → RowDropped (.quotas o) o i s)) ∧
    (∀ g t kb q u, downHead x (fun m => match m with | .locate _ _ _ _ _ _ => true | _ => false) = some (i, .locate h g t kb q u) →
      (held → RowTakes (.locate o) o i h (fun r => { r with stage := .locatePass, sliver := g, residual := t, kb := kb, quota := some q }) s) ∧
      (¬held → RowDropped (.locate o) o i s))

/-- A summary that reaches a row of the Landing in its pass is added to those it holds; with those of every outpost in the row's set the next stage runs on them, unless the row's end must wait for the Landing's full intake queue; a summary of a row that is not held, of no uncommitted step, of an outpost outside the set or of another pass is discarded and counted (R166, R167, spec/12 R259). A residual pass's summaries come as KEPT_SUM does and LOCATED ends it (spec/09 R207; PRESUMED, log 101). LOCATED settles the row it names, unless its end must wait so, a PARITY report starts its passes again, and taking a message from the channel changes the channel and the Study alone (R158, R165, R167). -/
def Obligations.Landing : Prop :=
  (∀ (i : InstId) (o : Nat) (m : UpMsg) (rest : List UpMsg) (s : State), upOf (getOutpost s o) i = m :: rest →
    let dropped (cmd : Instr) : Prop := Mirrors cmd i s (fun t => t = discardDown i (popUp i o s))
    let taken (st : LandStage) (cmd : Instr) (act : LandRow → List (Nat × UpMsg) → State → State) : Prop :=
      (strayUp s i o m = true → dropped cmd) ∧
      ∀ r, strayUp s i o m = false → findLand s i m.h = some r →
        let sums := r.sums ++ [(o, m)]
        let v := modLand i m.h (fun y => { y with sums := sums }) (popUp i o s)
        let all := (landOuts r).all (fun k => sums.any (·.1 == k))
        let u := act { r with sums := sums } sums v
        (r.stage ≠ st → dropped cmd) ∧
        (r.stage = st → all = false → Mirrors cmd i s (fun t => t = v)) ∧
        (r.stage = st → all = true → landingHeld (getInst s i).hall (getInst u i).hall = false → Ends cmd i s (fun t => t) (fun t => t = u)) ∧
        (r.stage = st → all = true → landingHeld (getInst s i).hall (getInst u i).hall = true → Mirrors cmd i s (fun t => t = modHall i (holdSource 1 s.tick) s))
    (∀ h a b c d, m = .maxSum h a b c d → taken .max (.maxSum i o) (actMax i)) ∧
    (∀ h x, m = .massSum h x → taken .mass (.massSum i o) (actMass i)) ∧
    (∀ h x, m = .roundSum h x → taken .round (.roundSum i o) (actRound i)) ∧
    (∀ h x, m = .keptSum h x → taken .kept (.keptSum i o) (actKept i)) ∧
    (∀ h x l, m = .residSum h x l → taken .resid (.keptSum i o) (actResid i)) ∧
    (∀ h x, m = .raceSum h x → taken .race (.raceSum i o) (actRace i)) ∧
    (∀ h x, m = .located h x →
      (strayUp s i o m = true → dropped (.located i o)) ∧
      ∀ r, strayUp s i o m = false → findLand s i h = some r →
        let u := actLocated i r o x (popUp i o s)
        (r.stage ≠ .locate → dropped (.located i o)) ∧
        (r.stage = .locate → landingHeld (getInst s i).hall (getInst u i).hall = false → Ends (.located i o) i s (fun t => t) (fun t => t = u)) ∧
        (r.stage = .locate → landingHeld (getInst s i).hall (getInst u i).hall = true → Mirrors (.located i o) i s (fun t => t = modHall i (holdSource 1 s.tick) s))) ∧
    (∀ h lane, m = .parity h lane →
      (strayUp s i o m = true → dropped (.parity i o)) ∧
      ∀ r, strayUp s i o m = false → findLand s i h = some r → Ends (.parity i o) i s (fun t => t) (fun t => t = actParity i r o lane (popUp i o s)))) ∧
  (∀ (i : InstId) (o : Nat) (m : UpMsg) (rest : List UpMsg) (s : State), upOf (getOutpost s o) i = m :: rest →
    upOf (getOutpost (popUp i o s) o) i = rest ∧ mir (popUp i o s) i = mir s i ∧
      (getInst (popUp i o s) i).landing = (getInst s i).landing ∧ (popUp i o s).hbm = s.hbm ∧ (popUp i o s).host = s.host)

/-- Notices: one that matches no step of a die's is discarded and counted and changes nothing else; a landed wave, a completion and a kill's acknowledgement are noted in the step they name, and the step is SAMPLED once everything of it is in (R74, R90, R97). A kernel fault of a latched model is its context's fault, of cause 4; any other kills the step and is logged, and a second of the same rows is the outpost's fault (spec/15 R332, spec/17 R360). An instance that composes nothing takes none. -/
def Obligations.NoticesAndKernelFaults : Prop :=
  (∀ (i : InstId) (die n wave : Nat) (s : State),
    (activeInst s i = false → exec (.waveLandedNotice i die n wave) s = .next s ∧ exec (.completionNotice i die n) s = .next s ∧
      exec (.kernelFault i die n) s = .next s ∧ exec (.killAcknowledgement i die n) s = .next s) ∧
    (activeInst s i = true →
      (stepBy24 (mir s i) n = none ∨ (∃ st, stepBy24 (mir s i) n = some st ∧ st.outposts.getLsbD die = false) →
        Mirrors (.waveLandedNotice i die n wave) i s (fun t => t = discardNotice i s) ∧ Mirrors (.completionNotice i die n) i s (fun t => t = discardNotice i s) ∧
        Mirrors (.kernelFault i die n) i s (fun t => t = discardNotice i s)) ∧
      (∀ st, stepBy24 (mir s i) n = some st → st.outposts.getLsbD die = true →
        let landed := modStep i st.num (fun y => { y with phase := if y.phase == .issued then .landing else y.phase, landed := if y.landed.contains wave then y.landed else y.landed ++ [wave] }) s
        (st.phase ≠ .issued → Mirrors (.waveLandedNotice i die n wave) i s (fun t => t = sampledCheck i st.num landed)) ∧
        (st.phase = .issued → Mirrors (.waveLandedNotice i die n wave) i s (fun t => ∃ v, t = sampledCheck i st.num v ∧ v.tick = s.tick ∧ v.hbm = s.hbm ∧ mir v i = mir landed i)) ∧
        Mirrors (.completionNotice i die n) i s (fun t => t = sampledCheck i st.num
          (modStep i st.num (fun y => { y with completed := if y.completed.contains die then y.completed else y.completed ++ [die] }) s))) ∧
      (∀ st, (mir s i).kitchen.steps.find? (fun y => y.phase == .killed && step24 y.num == n && y.outposts.getLsbD die) = some st →
        Mirrors (.killAcknowledgement i die n) i s (fun t => t = sweepSteps i
          (modStep i st.num (fun y => { y with killAcked := if y.killAcked.contains die then y.killAcked else y.killAcked ++ [die] }) s))) ∧
      ((mir s i).kitchen.steps.find? (fun y => y.phase == .killed && step24 y.num == n && y.outposts.getLsbD die) = none →
        Mirrors (.killAcknowledgement i die n) i s (fun t => t = discardNotice i s)))) ∧
  (∀ (i : InstId) (die n : Nat) (st : Machine.Step) (s : State), activeInst s i = true → stepBy24 (mir s i) n = some st → st.outposts.getLsbD die = true →
    (latched (mir s i) st.model = true → Ends (.kernelFault i die n) i s (fun v => v) (fun v => v = askFault i ((st.rows.map (·.context)).headD 0) 4 s)) ∧
    (latched (mir s i) st.model = false →
      let again := st.rows.any fun r => (mir s i).kitchen.kernelFaultRows.contains r.lid
      Ends (.kernelFault i die n) i s (fun v => if again then outpostFault i die 0 st.num v else v) (fun v =>
        v = killStep i st.num false (modKit i (fun k => { k with kernelFaultRows := (stepSeqs st ++ k.kernelFaultRows).eraseDups })
          (logFault i 0x0C (1 + die) none 0 st.num 0 s)))))

/-- A SAMPLED step whose commit is not held back is sealed: it is COMMITTING and one event for each row to commit is posted, in the order of the rows (R93, R94, spec/17 R375); it waits while the staging is full. Midnight comes to a model whose epoch is ARMED once nothing of the model is uncommitted or to be run again, in service alone, and takes the staged epoch (R235, R236, R249). -/
def Obligations.CommitPointsAndMidnight : Prop :=
  (∀ (i : InstId) (n : Nat) (st : Machine.Step) (s : State), getStep (mir s i) n = some st →
    (activeInst s i = true → st.phase = .sampled → commitHeld (getInst s i) = false →
      Mirrors (.commitPoint i n) i s (fun t => ∃ v, mir v i = mir (modStep i n (fun y => { y with phase := .committing }) s) i ∧ (getInst v i).hall = (getInst s i).hall ∧ v.tick = s.tick ∧
        t = finishStep i n ((commitRows st).foldl (fun t k => match st.rows[k]? with
          | some r => postSeq i r.lid (.tokenCommit n k) t
          | none => t) v))) ∧
    (activeInst s i = false ∨ st.phase ≠ .sampled ∨ commitHeld (getInst s i) = true → exec (.commitPoint i n) s = .next s)) ∧
  (∀ (i : InstId) (k : Nat) (s : State),
    let md := getModel (mir s i) k
    (activeInst s i = true → md.stage = .armed → drained (mir s i) k = true → (mir s i).kitchen.turn = .service →
      Ends (.midnight i k) i s (fun v => v) (fun v => v = doMidnight i k false s)) ∧
    (md.stage ≠ .armed ∨ drained (mir s i) k = false ∨ (mir s i).kitchen.turn ≠ .service → exec (.midnight i k) s = .next s))

/-- A latch is given to the step's context where the step's model is one of its own and it is free or that context's already, and the answer is 1; else the answer is 0 and the latch stays (R324). A release frees it and clears the steps counted for its holder (DEDUCED, log 58); a latch of an instance that does not run stays (R324, R329). -/
def Obligations.Latches : Prop :=
  ∀ (i : InstId) (k n : Nat) (s : State),
    let l := getLatch (mir s i) k
    (∀ st, stepBy24 (mir s i) n = some st →
      let c := (st.rows.map (·.context)).headD 0
      let granted := running s i = true ∧ l.models.getLsbD st.model = true ∧ (l.held = false ∨ l.owner = c)
      (granted → Mirrors (.latchAcquire i k n) i s (fun t => t.busData = 1 ∧ t.tick = s.tick ∧ (mir t i).seqs = (mir s i).seqs ∧
        (mir t i).latches = modAt (mir s i).latches k (fun l => { l with held := true, owner := c, holder := step24 st.num, across := l.held && l.across, heldSteps := if l.held then l.heldSteps else 0, acquires := satTo 32 (l.acquires + 1) }))) ∧
      (¬granted → Goes (.latchAcquire i k n) s (fun t => t = { s with busData := 0 }))) ∧
    (stepBy24 (mir s i) n = none → Goes (.latchAcquire i k n) s (fun t => t = { s with busData := 0 })) ∧
    (running s i = true → Mirrors (.latchRelease i k) i s (fun t => mir t i = { mir s i with
      latches := modAt (mir s i).latches k (fun l => { l with held := false, across := false, waiting := false, heldSteps := 0 }) } ∧ OnlyMirror i s t)) ∧
    (running s i = false → exec (.latchRelease i k) s = .next s)

/-- A commit waits while the mirror is behind, and is else what the row's result makes of its sequence, on which the eviction-parked sequences follow where no page was released (else they follow at its end); one after which a latch is held too long stops at case 10 (R251, R94, spec/05 R127, spec/15 R326, spec/17 R362). A stop check changes no sequence; a kill counts a preemption of a live sequence and lets what waited for the row go on once no other row of it is in flight (R97, spec/02 R42). A command whose event is not the one its usher applies next changes nothing (the model's choice, log 1). An event that is released leaves its flow, counted by its usher, and what the instance mirrors is as it was (R252, R254). -/
def Obligations.CommitEvents : Prop :=
  (∀ (i : InstId) (lid : Nat) (s : State),
    let t := releaseEvent i (.seq lid) s
    (∀ n k, headKind s i lid = some (.tokenCommit n k) → mirrorBehind s i = true → exec (.tokenCommit i lid) s = .next s) ∧
    (∀ n k, headKind s i lid = some (.tokenCommit n k) → mirrorBehind s i = false →
      let u := commitOne i n k t
      let w := if pagesReleased (getInst s i) (getInst u i) then u else evictResumes i [] u
      (latchOver (mir w i) = false ∨ latchOver (mir s i) = true → Ends (.tokenCommit i lid) i s (fun v => v) (fun v => v = w)) ∧
      (latchOver (mir w i) = true → latchOver (mir s i) = false → StopsAt (.tokenCommit i lid) s 10)) ∧
    (∀ n k, headKind s i lid = some (.stopCheck n k) → Ends (.stopCheck i lid) i s (fun v => v) (fun v => mir v i = mir s i ∧ v.hbm = s.hbm ∧ v.host = s.host)) ∧
    (∀ n, headKind s i lid = some (.kill n) →
      let counted (v : State) : Prop := mir v i = mapSeq lid (fun q => { q with r := { q.r with preemptions := (q.r.preemptions + 1) % 2 ^ 32 } }) (mir s i) ∧ v.hbm = s.hbm
      (liveLid s i lid = true → inFlight (mir s i) lid = true → Ends (.kill i lid) i s (fun v => v) counted) ∧
      (liveLid s i lid = true → inFlight (mir s i) lid = false → Ends (.kill i lid) i s (applyWaiting i lid) counted) ∧
      (liveLid s i lid = false → Ends (.kill i lid) i s (fun v => v) (fun v => mir v i = mir s i ∧ v.hbm = s.hbm))) ∧
    (headKind s i lid = none → ∀ c ∈ [Instr.tokenCommit i lid, .stopCheck i lid, .kill i lid, .admitSeq i lid, .warm i lid, .cool i lid, .evictionPark i lid,
        .evictionResume i lid, .kvInvalidation i lid, .sequenceCancel i lid, .sequencePark i lid, .sequenceResume i lid, .sequenceExtend i lid, .forceRun i lid,
        .midnightEvent i lid, .epochAbort i lid, .eveningEvent i lid, .morningEvent i lid, .household i lid, .teardown i lid, .planReady i lid,
        .migrateOut i lid, .migrateAck i lid, .migrateFail i lid, .migrateIn i lid, .migrateDone i lid], exec c s = .next s)) ∧
  (∀ (i : InstId) (f : Flow) (e : Event) (s : State), headEvent (getInst s i) f = some e → (getInst s i).hall.waiting = [] →
    let t := releaseEvent i f s
    (getInst t i).hall.events = (getInst s i).hall.events.erase e ∧ mir t i = mir s i ∧ t.hbm = s.hbm ∧ t.host = s.host ∧ t.tick = s.tick ∧
      (getInst t i).rel = (getInst s i).rel ∧ (getInst t i).stair = (getInst s i).stair ∧ getInst t (Machine.other i) = getInst s (Machine.other i) ∧
      (getInst t i).hall.ushers = modAt (getInst s i).hall.ushers e.usher (fun x => { x with released := x.released + 1 }))

/-- Admission makes a FREE record ADMITTED, with a notice where it asks for one, and lets the ACK of a forwarded request follow (spec/16 R351); WARM, whatever asked for it, brings a live record into the Parlour, claims its plan and begins its forced run, COOL takes one that may be cold out of it, and each leaves the others alone (spec/02 R40, R46, R51, spec/10 R216, R227). The Pantry's events: an eviction parks a composed sequence without a row in flight, takes the pages of a parked or paused one and has no effect on another; its resume brings one that was parked so back in service, and only such a one; a prefix is taken by a member that waits for it; an invalidation marks a live one's KV (spec/05 R119, R124-R127; that an eviction sets `kv_len` to 0 is DEDUCED, log 12). -/
def Obligations.AdmissionAndPages : Prop :=
  (∀ (i : InstId) (lid : Nat) (q : Machine.Seq) (s : State), findSeq (mir s i) lid = some q →
    let t := releaseEvent i (.seq lid) s
    (headKind s i lid = some .admission →
      (q.r.state = .free → q.r.notifyAdmit = false → Ends (.admitSeq i lid) i s (passAll i) (fun v => v = ackPoint i q.r.promptAddr (recordDone i lid (enterState i lid .admitted t)))) ∧
      (q.r.state = .free → q.r.notifyAdmit = true →
        Ends (.admitSeq i lid) i s (passAll i) (fun v => v = ackPoint i q.r.promptAddr (recordDone i lid (postSeqRecord i lid 0 0 false (enterState i lid .admitted t))))) ∧
      (q.r.state ≠ .free → Ends (.admitSeq i lid) i s (passAll i) (fun v => v = t))) ∧
    (∀ src, headKind s i lid = some (.warm src) →
      (q.r.state.live = true → Ends (.warm i lid) i s (fun v => forceStart i lid (claimPlan i lid v)) (fun v => v = warmRecord i lid t)) ∧
      (q.r.state.live = false → Ends (.warm i lid) i s (fun v => v) (fun v => v = t))) ∧
    (headKind s i lid = some .cool →
      (q.r.hot = true → mustBeHot (mir s i) q = false → Ends (.cool i lid) i s (libAssign i 256) (fun v => v = coolRecord i lid t)) ∧
      (q.r.hot = false ∨ mustBeHot (mir s i) q = true → Ends (.cool i lid) i s (fun v => v) (fun v => v = t)))) ∧
  (∀ (i : InstId) (lid : Nat) (s : State),
    let t := releaseEvent i (.seq lid) s
    let q := seqOf s i lid
    (headKind s i lid = some .evictPark →
      (q.r.state.composed = true → inFlight (mir s i) lid = false → Ends (.evictionPark i lid) i s (parkSeq i lid true noDeadline) (fun v => v = t)) ∧
      (q.r.state = .parked ∨ q.r.state = .paused →
        Ends (.evictionPark i lid) i s (fun v => recordDone i lid (modRec i lid (fun r => { r with kvState := .released, kvLen := 0 }) v)) (fun v => v = releasePages i lid t)) ∧
      (q.r.state.composed = false ∨ inFlight (mir s i) lid = true → q.r.state ≠ .parked → q.r.state ≠ .paused →
        Ends (.evictionPark i lid) i s (fun v => v) (fun v => v = t))) ∧
    (headKind s i lid = some .evictResume →
      (q.r.state = .parked → q.evicted = true → (mir s i).kitchen.turn = .service → Ends (.evictionResume i lid) i s (resumeFully i lid) (fun v => v = t)) ∧
      (q.r.state ≠ .parked ∨ q.evicted = false ∨ (mir s i).kitchen.turn ≠ .service → Ends (.evictionResume i lid) i s (fun v => v) (fun v => v = t))) ∧
    (∀ n, headKind s i lid = some (.prefixTake n) →
      (q.r.state = .reheating → q.r.kvLen < q.r.promptLen - 1 →
        Ends (.evictionResume i lid) i s (fun v => recordDone i lid (settlePrefill i lid (takePrefix i lid v))) (fun v => v = releasePages i lid t)) ∧
      (q.r.state ≠ .reheating ∨ q.r.promptLen - 1 ≤ q.r.kvLen → Ends (.evictionResume i lid) i s (fun v => v) (fun v => v = t))) ∧
    (headKind s i lid = some .invalidate →
      (q.r.state.live = true → Ends (.kvInvalidation i lid) i s (recordDone i lid) (fun v => v = invalidateKv i lid t)) ∧
      (q.r.state.live = false → Ends (.kvInvalidation i lid) i s (fun v => v) (fun v => v = t))))

/-- The orders' events on a sequence. A cancel aborts a live one without a row in flight, an open transfer of it abandoned, waits for its row otherwise, and discards an arrival with no record (the model's inference, log 40); a park parks a composed one without a row in flight, waits for its row otherwise, and has no effect on another (on one ADMITTED whose first row is in flight the model's choice, log 90); a resume resumes a parked or paused one in service, ends a paused one whose trail is full, and answers that it did not act elsewhere (spec/02 R39-R42, spec/14 R304, R306, R441). An extension is refused where the sequence is not PAUSED, where its trail or its positions have no room and where its plan cannot take it; it waits for a plan that is not resident; else it appends (spec/10 R228, spec/14 R305). -/
def Obligations.OrderEvents : Prop :=
  ∀ (i : InstId) (lid : Nat) (s : State),
    let t := releaseEvent i (.seq lid) s
    let q := seqOf s i lid
    (∀ cmd, headKind s i lid = some (.cancel cmd) →
      (q.r.state.live = true → inFlight (mir s i) lid = false → arrivalOf (mir s i) lid = none →
        Ends (.sequenceCancel i lid) i s (fun v => resolveEvent i cmd true (endSeq i lid .aborted reasonCancel v)) (fun v => v = abandonFor i lid t)) ∧
      (∀ x, q.r.state.live = true → inFlight (mir s i) lid = false → arrivalOf (mir s i) lid = some x →
        Ends (.sequenceCancel i lid) i s (fun v => resolveEvent i cmd true (discardIn i x v)) (fun v => v = t)) ∧
      (q.r.state.live = true → inFlight (mir s i) lid = true → Ends (.sequenceCancel i lid) i s (resolveEvent i cmd true) (fun v =>
        mir v i = mapSeq lid (fun x => { x with waiting := x.waiting ++ [.cancel cmd] }) (mir s i) ∧ v.hbm = s.hbm)) ∧
      (q.r.state.live = false → Ends (.sequenceCancel i lid) i s (resolveEvent i cmd false) (fun v => v = t))) ∧
    (∀ wake cmd, headKind s i lid = some (.park wake cmd) →
      (q.r.state.composed = true → inFlight (mir s i) lid = false →
        Ends (.sequencePark i lid) i s (fun v => resolveEvent i cmd true (parkSeq i lid false wake v)) (fun v => v = t)) ∧
      (q.r.state.composed = true → inFlight (mir s i) lid = true → Ends (.sequencePark i lid) i s (resolveEvent i cmd true) (fun v =>
        mir v i = mapSeq lid (fun x => { x with waiting := x.waiting ++ [.park wake cmd] }) (mir s i) ∧ v.hbm = s.hbm)) ∧
      (q.r.state.composed = false → Ends (.sequencePark i lid) i s (resolveEvent i cmd false) (fun v => v = t))) ∧
    (∀ cmd, headKind s i lid = some (.resume cmd) →
      ((mir s i).kitchen.turn = .service → q.r.state = .parked ∨ (q.r.state = .paused ∧ q.r.committedLen < q.r.trailCapacity) →
        Ends (.sequenceResume i lid) i s (fun v => resolveEvent i cmd true (resumeFully i lid v)) (fun v => v = duskClear i 2 lid t)) ∧
      ((mir s i).kitchen.turn = .service → q.r.state = .paused → q.r.trailCapacity ≤ q.r.committedLen →
        Ends (.sequenceResume i lid) i s (fun v => resolveEvent i cmd true (endSeq i lid .finished reasonTrailFull v)) (fun v => v = duskClear i 2 lid t)) ∧
      ((mir s i).kitchen.turn ≠ .service ∨ (q.r.state ≠ .parked ∧ q.r.state ≠ .paused) →
        Ends (.sequenceResume i lid) i s (resolveEvent i cmd false) (fun v => v = t))) ∧
    (∀ toks mode nest st cmd, headKind s i lid = some (.extend toks mode nest st cmd) →
      let room := q.r.committedLen + toks.length ≤ q.r.trailCapacity ∧ q.r.promptLen + q.r.committedLen + toks.length ≤ (getModel (mir s i) q.r.model).maxPositions
      let waits := (mode == 1 || mode == 2) && q.r.planValid && (residentPlan (mir s i) q.r.planId).isNone && registered (mir s i) q.r.planId
      (q.r.state ≠ .paused → Ends (.sequenceExtend i lid) i s (finishCmd i cmd rWrongState 0 []) (fun v => v = t)) ∧
      (q.r.state = .paused → ¬room → Ends (.sequenceExtend i lid) i s (finishCmd i cmd rInvalid 0 []) (fun v => v = t)) ∧
      (q.r.state = .paused → room → waits = true → Ends (.sequenceExtend i lid) i s (demandPlan i q.r.planId (q.r.cls == 0)) (fun v =>
        mir v i = mapSeq lid (fun x => { x with waiting := x.waiting ++ [.extend toks mode nest st cmd] }) (mir s i) ∧ v.hbm = s.hbm)) ∧
      (q.r.state = .paused → room → waits = false → extendPlan (mir s i) q.r toks mode nest st = none →
        Ends (.sequenceExtend i lid) i s (finishCmd i cmd rInvalid 0 []) (fun v => v = t)) ∧
      (∀ x, q.r.state = .paused → room → waits = false → extendPlan (mir s i) q.r toks mode nest st = some x →
        Ends (.sequenceExtend i lid) i s (doExtend i lid toks x cmd) (fun v => v = t)))

/-- Forced runs, Midnight, an epoch's abort and the turn. A forced run appends up to 256 forced tokens, as a commit does, to a DECODING sequence with its plan resident, its deadline not passed, no row in an uncommitted step and no event that ends it in its flow, and nothing to another; it waits while the mirror is behind (spec/10 R227, spec/02 R43, spec/17 R362). Midnight: DRAIN keeps a sequence of the old epoch as it is, ABORT ends it, CROSS takes the new epoch and, where it reheats or the layout has changed, invalidates its KV, and a MIGRATING arrival keeps it for `migrate_done` (spec/11 R240, R241, R248; that the KV state is VALID from the resume is the model's choice, DESIGN CHOICE, log 96). An abort of the old epoch ends a live sequence, waits for its row, or discards an arrival (spec/11 R243, spec/02 R42; the arrival's end is DEDUCED, log 40). Evening shutters a live sequence that keeps its pages or takes them and parks it, its `kv_len` then 0 (DEDUCED, log 12); Morning brings each back, its record in the Parlour, and the sweep puts a cold record's broadcasts into its flow in ascending order (spec/02 R40, spec/05 R120, spec/11 R244, R247, spec/12 R256). A household's leader loses a member and, held at none, is FREE; a torn-down context's live sequence is aborted for CONTEXT_FAULT; a plan that is ready gives its slot to the record and its extension goes on (spec/02 R40, R47, spec/15 R333, spec/10 R216, R228). -/
def Obligations.TurnAndHouseholdEvents : Prop :=
  (∀ (i : InstId) (lid : Nat) (s : State),
    let t := releaseEvent i (.seq lid) s
    let q := seqOf s i lid
    (headKind s i lid = some .forceRun → mirrorBehind s i = true → exec (.forceRun i lid) s = .next s) ∧
    (headKind s i lid = some .forceRun → mirrorBehind s i = false →
      let runs := q.r.state = .decoding ∧ (stepOfSeq (mir s i) lid).isNone ∧ s.tick ≤ q.r.deadlineTick ∧ flowHas (getInst t i).hall (.seq lid) endsSeq = false ∧ q.r.planValid = true
      (∀ p, runs → residentPlan (mir s i) q.r.planId = some p →
        let a := appendAll i lid (forcedRun p 256 q.r.planState q.r.nest) t
        let u := modAcct i q.r.context (fun x => { x with entriesCommitted := x.entriesCommitted + a.n }) (modSeq i lid chargeSeq (watchAppended i lid (advancePenalty i lid a.s)))
        let w := journal i (rowEntries (seqOf u i lid) 0 q.r.committedLen (finState a.fin) a.bytes a.aux []) u
        a.n ≤ 256 ∧ (seqOf a.s i lid).r.committedLen = q.r.committedLen + a.n ∧
          Ends (.forceRun i lid) i s (endAppend i lid a.fin) (fun v => v = if a.fin = .none then w else dropDraft i lid w)) ∧
      (¬runs ∨ residentPlan (mir s i) q.r.planId = none → Ends (.forceRun i lid) i s (fun v => v) (fun v => v = t))) ∧
    (∀ info, headKind s i lid = some (.midnight info) →
      let policy := midnightPolicy (mir s i) q info
      let meets := q.r.state.live = true ∧ q.r.model = info.model ∧ q.r.epoch = info.old
      let kept := policy.2 = false ∧ (info.newTag = info.oldTag ∨ q.r.state = .shuttered)
      let after (v : State) : State := retireCheck i q.r.model (recordDone i lid v)
      (¬meets ∨ policy.1 = 0 → Ends (.midnightEvent i lid) i s (fun v => v) (fun v => v = t)) ∧
      (meets → policy.1 ≠ 0 → q.r.state = .migrating → Ends (.midnightEvent i lid) i s (fun v => v) (fun v =>
        mir v i = mapSeq lid (fun x => { x with migMidnight := x.migMidnight ++ [info] }) (mir s i) ∧ v.hbm = s.hbm)) ∧
      (meets → policy.1 = 2 → q.r.state ≠ .migrating → Ends (.midnightEvent i lid) i s (endSeq i lid .aborted reasonEpochAbort) (fun v => v = t)) ∧
      (meets → policy.1 ≠ 0 → policy.1 ≠ 2 → q.r.state ≠ .migrating →
        (kept → Ends (.midnightEvent i lid) i s after (fun v => v = crossTo i lid info t)) ∧
        (¬kept → q.r.state.composed = true → Ends (.midnightEvent i lid) i s after (fun v => v = resumeSeq i lid (invalidateKv i lid (crossTo i lid info t)))) ∧
        (¬kept → q.r.state.composed = false → Ends (.midnightEvent i lid) i s after (fun v => v = invalidateKv i lid (crossTo i lid info t))))) ∧
    (∀ e, headKind s i lid = some (.epochAbort e) →
      (q.r.state.live = true → inFlight (mir s i) lid = false → arrivalOf (mir s i) lid = none →
        Ends (.epochAbort i lid) i s (endSeq i lid .aborted reasonEpochAbort) (fun v => v = abandonFor i lid t)) ∧
      (∀ x, q.r.state.live = true → inFlight (mir s i) lid = false → arrivalOf (mir s i) lid = some x → Ends (.epochAbort i lid) i s (discardIn i x) (fun v => v = t)) ∧
      (q.r.state.live = true → inFlight (mir s i) lid = true → Ends (.epochAbort i lid) i s (fun v => v) (fun v =>
        mir v i = mapSeq lid (fun x => { x with waiting := x.waiting ++ [.epochAbort] }) (mir s i) ∧ v.hbm = s.hbm)) ∧
      (q.r.state.live = false → Ends (.epochAbort i lid) i s (fun v => v) (fun v => v = t))) ∧
    (headKind s i lid = some .evening →
      let takes := q.r.state.live = true ∧ q.r.state ≠ .migrating ∧ q.r.state ≠ .shuttered
      let keeps := (q.pages ≠ [] ∨ q.draftPages ≠ [] ∨ q.ahead ≠ []) ∧ (getCtx (mir s i) q.r.context).cfg.kvTurnRelease = false
      let back (v : State) : Prop := mir v i = mapSeq lid (fun x => { emptyDraft x with r := { (emptyDraft x).r with returnState := x.r.state } }) (mir s i) ∧ v.hbm = s.hbm
      (¬takes → Ends (.eveningEvent i lid) i s (fun v => v) (fun v => v = t)) ∧
      (takes → keeps → Ends (.eveningEvent i lid) i s
        (fun v => recordDone i lid (enterState i lid .shuttered (modRec i lid (fun r => { r with kvState := .shuttered }) (writeList i lid (freeAhead i lid (fun _ => true) v))))) back) ∧
      (takes → ¬keeps → Ends (.eveningEvent i lid) i s
        (fun v => recordDone i lid (enterState i lid (if q.r.state.composed then .parked else q.r.state)
          (modRec i lid (fun r => { r with kvState := .released, kvLen := 0 }) (releasePages i lid v)))) back)) ∧
    (headKind s i lid = some .morning ∨ headKind s i lid = some .morningResume →
      let rests := q.r.returnState = .paused ∨ q.r.returnState = .parked ∨ q.r.returnState = .admitted
      (q.r.state = .shuttered → rests → q.r.layoutTag ≠ tagOf (mir s i) q.r →
        Ends (.morningEvent i lid) i s (fun v => recordDone i lid (claimPlan i lid (warmRecord i lid (enterState i lid q.r.returnState v)))) (fun v => v = invalidateKv i lid t)) ∧
      (q.r.state = .shuttered → rests → q.r.layoutTag = tagOf (mir s i) q.r →
        Ends (.morningEvent i lid) i s (fun v => recordDone i lid (claimPlan i lid (warmRecord i lid (enterState i lid q.r.returnState v))))
          (fun v => v = modRec i lid (fun r => { r with kvState := if r.kvState == .shuttered then .valid else r.kvState }) t)) ∧
      (q.r.state = .shuttered → ¬rests → Ends (.morningEvent i lid) i s (resumeFully i lid) (fun v => v = t)) ∧
      (q.r.state = .parked → q.r.returnState.composed = true → Ends (.morningEvent i lid) i s (resumeFully i lid) (fun v => v = t)) ∧
      (q.r.state ≠ .shuttered → (q.r.state ≠ .parked ∨ q.r.returnState.composed = false) → Ends (.morningEvent i lid) i s (fun v => v) (fun v => v = t))) ∧
    (activeInst s i = true → sweepNext (mir s i) lid = true → Mirrors (.broadcastSweep i lid) i s (fun v => v = flushBcast i lid s ∧ (seqOf v i lid).bcast = [] ∧ (seqOf v i lid).r = q.r)) ∧
    (activeInst s i = false ∨ sweepNext (mir s i) lid = false → exec (.broadcastSweep i lid) s = .next s) ∧
    (headKind s i lid = some .teardown →
      (q.r.state.live = true → arrivalOf (mir s i) lid = none → Ends (.teardown i lid) i s (endSeq i lid .aborted reasonContextFault) (fun v => v = abandonFor i lid t)) ∧
      (∀ x, q.r.state.live = true → arrivalOf (mir s i) lid = some x → Ends (.teardown i lid) i s (discardIn i x) (fun v => v = t)) ∧
      (q.r.state.live = false → Ends (.teardown i lid) i s (fun v => v) (fun v => v = t)))) ∧
  (∀ (i : InstId) (lid : Nat) (q : Machine.Seq) (s : State), findSeq (mir s i) lid = some q →
    let t := releaseEvent i (.seq lid) s
    (headKind s i lid = some .household →
      let lost := modRec i lid (fun r => { r with liveMembers := r.liveMembers - 1 }) t
      (q.r.holdHousehold = false ∨ 1 < q.r.liveMembers → Ends (.household i lid) i s (recordDone i lid) (fun v => v = lost)) ∧
      (q.r.holdHousehold = true → q.r.liveMembers ≤ 1 → Ends (.household i lid) i s (fun v => freeHouse i q.r.household (freeSeq i lid v)) (fun v => v = lost))) ∧
    (headKind s i lid = some .planReady →
      let slot := if q.r.hot && q.r.planValid then ((findPlan (mir s i) q.r.planId).map (·.slot)).getD 0xFF else q.r.planSlot
      let slotted (ws : List WaitEvent) (v : State) : Prop := seqOf v i lid = { q with waiting := ws, r := { q.r with planSlot := slot } } ∧
        (∀ l, l ≠ lid → findSeq (mir v i) l = findSeq (mir s i) l) ∧ (mir v i).households = (mir s i).households ∧ (mir v i).ctxs = (mir s i).ctxs ∧ v.hbm = s.hbm
      let started (v : State) : State := if liveLid v i lid then forceStart i lid v else v
      ((∀ toks mode nest st cmd, WaitEvent.extend toks mode nest st cmd ∉ q.waiting) → Ends (.planReady i lid) i s started (slotted q.waiting)) ∧
      (∀ toks mode nest st cmd, q.waiting = [.extend toks mode nest st cmd] →
        Ends (.planReady i lid) i s (fun v => started (applyExtend i lid toks mode nest st cmd v)) (slotted []))))

/-- A Dusk entry that is due leaves its list, is counted and becomes a TIMER of its flow, counted late where it is accepted after its tick (R250, R263, R264, R266). A TIMER applied in its turn has no effect but its count where its record names another entry (R265). A deadline that has passed aborts a live sequence, an arrival discarded (DEDUCED, log 40); a spent wall budget finishes it, after its row's commit; else the entry is set anew (R262). A park's wake resumes a parked sequence in service and is held in a turn (R265). A batch of a list is refilled where entries were spilled (R264); a command's timeout has no other effect than to be counted stale where the command has its result (DEDUCED, log 28), and the drive's entries are left to theirs (R261, R265); a migration's retry resends and is set again, its timeout abandons the transfer before HANDOVER, either is stale once the transfer has closed, and a forward's timers run at the Foyer's evaluation (spec/16 R350); an arrival that has waited too long is discarded (R350). That a flow's entries fire when a row names an expiry of it that is due is the model's choice (DESIGN CHOICE, log 83). -/
def Obligations.DuskLists : Prop :=
  (∀ (i : InstId) (d : Dusk) (s : State),
    let t := fireEntry i d s
    (mir t i).dusk = (mir s i).dusk.filter (· != d) ∧ t.hbm = s.hbm ∧ t.host = s.host ∧
      (getInst t i).hall.counts.map (·.fired) = (modAt (getInst s i).hall.counts d.list (fun c => { c with fired := (c.fired + 1) % 2 ^ 64 })).map (·.fired)) ∧
  (∀ (tick list handle due : Nat) (e : Event) (h : Hallway), e.kind = .timer list handle due →
    (acceptEvent tick e h).counts = modAt h.counts list (fun c => { c with late := satTo 32 (c.late + bit (decide (due < tick))) })) ∧
  (∀ (i : InstId) (lid : Nat) (s : State),
    let u := fireDue i 0 (.seq lid) s
    let t := releaseEvent i (.seq lid) u
    let w := spendHandle i 0 lid t
    let q := seqOf w i lid
    (dueTimer u i 0 (.seq lid) = none → Mirrors (.deadlineEntry i lid) i s (fun v => v = u)) ∧
    (∀ h due, dueTimer u i 0 (.seq lid) = some (h, due) →
      let wallOut := q.r.maxWallTicks ≠ 0 ∧ q.r.maxWallTicks ≤ wallSpent q
      (handleOf t i lid 0 ≠ h → Mirrors (.deadlineEntry i lid) i s (fun v => v = countStale i 0 t)) ∧
      (handleOf t i lid 0 = h →
        (q.r.state.live = false → Ends (.deadlineEntry i lid) i s (fun v => v) (fun v => v = w)) ∧
        (q.r.state.live = true → q.r.deadlineTick < due →
          (arrivalOf (mir w i) lid = none → Ends (.deadlineEntry i lid) i s (endSeq i lid .aborted reasonDeadline) (fun v => v = abandonFor i lid w)) ∧
          (∀ x, arrivalOf (mir w i) lid = some x → Ends (.deadlineEntry i lid) i s (discardIn i x) (fun v => v = w))) ∧
        (q.r.state.live = true → due ≤ q.r.deadlineTick → wallOut →
          (inFlight (mir w i) lid = false → arrivalOf (mir w i) lid = none →
            Ends (.deadlineEntry i lid) i s (endSeq i lid .finished reasonWall) (fun v => v = abandonFor i lid w)) ∧
          (∀ x, inFlight (mir w i) lid = false → arrivalOf (mir w i) lid = some x → Ends (.deadlineEntry i lid) i s (discardIn i x) (fun v => v = w)) ∧
          (inFlight (mir w i) lid = true → Ends (.deadlineEntry i lid) i s (fun v => v) (fun v =>
            mir v i = mapSeq lid (fun x => { x with waiting := x.waiting ++ [.wall] }) (mir w i) ∧ v.hbm = w.hbm))) ∧
        (q.r.state.live = true → due ≤ q.r.deadlineTick → ¬wallOut → Ends (.deadlineEntry i lid) i s (fun v => writeAttic i lid (retime i lid v)) (fun v => v = w))))) ∧
  (∀ (i : InstId) (lid : Nat) (s : State),
    let u := fireDue i 2 (.seq lid) s
    let t := releaseEvent i (.seq lid) u
    let w := spendHandle i 2 lid t
    (dueTimer u i 2 (.seq lid) = none → Mirrors (.parkWake i lid) i s (fun v => v = u)) ∧
    (∀ h due, dueTimer u i 2 (.seq lid) = some (h, due) →
      (handleOf t i lid 2 ≠ h → Mirrors (.parkWake i lid) i s (fun v => v = countStale i 2 t)) ∧
      (handleOf t i lid 2 = h → (mir s i).kitchen.turn ≠ .service → Mirrors (.parkWake i lid) i s (fun v => v = modSeq i lid (fun x => { x with heldWake := some due }) w)) ∧
      (handleOf t i lid 2 = h → (mir s i).kitchen.turn = .service → (seqOf w i lid).r.state = .parked →
        Ends (.parkWake i lid) i s (resumeFully i lid) (fun v => v = duskClear i 2 lid w)) ∧
      (handleOf t i lid 2 = h → (mir s i).kitchen.turn = .service → (seqOf w i lid).r.state ≠ .parked →
        Ends (.parkWake i lid) i s (fun v => v) (fun v => v = w)))) ∧
  (∀ (i : InstId) (s : State),
    (∀ list, (activeInst s i = true → Mirrors (.duskSpillRefill i list) i s (fun t => mir t i = { mir s i with
      dusk := (mir s i).dusk.map fun d => if (refillBatch list (mir s i).dusk).contains d then { d with spilled := false } else d } ∧ OnlyMirror i s t)) ∧
      (activeInst s i = false → exec (.duskSpillRefill i list) s = .next s)) ∧
    (∀ core,
      let u := fireDue i 3 (.unit (20 + core)) s
      let t := releaseEvent i (.unit (20 + core)) u
      (dueTimer u i 3 (.unit (20 + core)) = none → Mirrors (.mailboxCommandTimeout i core) i s (fun v => v = u)) ∧
      (∀ h due, dueTimer u i 3 (.unit (20 + core)) = some (h, due) →
        (driveHandle (getInst u i) h = true → Mirrors (.mailboxCommandTimeout i core) i s (fun v => v = u)) ∧
        (driveHandle (getInst u i) h = false → (mir t i).mbox.any (·.timer == some h) = true → Mirrors (.mailboxCommandTimeout i core) i s (fun v => v = t)) ∧
        (driveHandle (getInst u i) h = false → (mir t i).mbox.any (·.timer == some h) = false → Mirrors (.mailboxCommandTimeout i core) i s (fun v => v = countStale i 3 t)))) ∧
    (∀ subject, findOut (mir s i) subject = none →
      let f : Flow := .seq (subject % 2 ^ 22)
      let closed (list : Nat) : Prop := subject < 2 ^ 63 ∧ dueTimer s i list f ≠ none
      (closed 1 → Mirrors (.migrationRetry i subject) i s (fun v => v = countStale i 1 (releaseEvent i f s))) ∧ (¬closed 1 → exec (.migrationRetry i subject) s = .next s) ∧
      (closed 3 → Mirrors (.migrationTimeout i subject) i s (fun v => v = countStale i 3 (releaseEvent i f s))) ∧ (¬closed 3 → exec (.migrationTimeout i subject) s = .next s)) ∧
    (∀ subject x, findOut (mir s i) subject = some x → x.forward = true →
      (activeInst s i = true → Ends (.migrationRetry i subject) i s (fun v => v) (fun v => v = forwardTimer i x s) ∧
        Ends (.migrationTimeout i subject) i s (fun v => v) (fun v => v = forwardTimer i x s)) ∧
      (activeInst s i = false → exec (.migrationRetry i subject) s = .next s ∧ exec (.migrationTimeout i subject) s = .next s)) ∧
    (∀ subject x, findOut (mir s i) subject = some x → x.forward = false →
      let u := fireDue i 1 (.seq x.lid) s
      let t := releaseEvent i (.seq x.lid) u
      (dueTimer u i 1 (.seq x.lid) = none → Mirrors (.migrationRetry i subject) i s (fun v => v = u)) ∧
      (∀ h due, dueTimer u i 1 (.seq x.lid) = some (h, due) →
        (handleOf t i x.lid 1 ≠ h → Mirrors (.migrationRetry i subject) i s (fun v => v = countStale i 1 t)) ∧
        (handleOf t i x.lid 1 = h → Mirrors (.migrationRetry i subject) i s (fun v =>
          v = duskSet i 1 x.lid (s.tick + (getInst s i).stair.retryTicks) (resend i x t))))) ∧
    (∀ subject x, findOut (mir s i) subject = some x → x.forward = false →
      let u := fireDue i 3 (.seq x.lid) s
      let t := releaseEvent i (.seq x.lid) u
      let w := spendHandle i 3 x.lid t
      (dueTimer u i 3 (.seq x.lid) = none → Mirrors (.migrationTimeout i subject) i s (fun v => v = u)) ∧
      (∀ h due, dueTimer u i 3 (.seq x.lid) = some (h, due) →
        (handleOf t i x.lid 3 ≠ h → Mirrors (.migrationTimeout i subject) i s (fun v => v = countStale i 3 t)) ∧
        (handleOf t i x.lid 3 = h → x.stage = .handover ∨ x.stage = .failed → Mirrors (.migrationTimeout i subject) i s (fun v => v = w)) ∧
        (handleOf t i x.lid 3 = h → x.stage ≠ .handover → x.stage ≠ .failed →
          Ends (.migrationTimeout i subject) i s (failTransfer i x 12) (fun v => v = sendMsg i (xferMsg x tAbandon) w)))) ∧
    (∀ subject,
      let old := (mir s i).inXfers.find? (fun t => t.subject == subject && arrivalExpired s i t)
      (∀ x, old = some x → activeInst s i = true → onDuty s i 3 = true → Ends (.arrivalTimeout i subject) i s (foyerRound i) (fun v => v = discardIn i x s)) ∧
      (old = none ∨ activeInst s i = false ∨ onDuty s i 3 = false → exec (.arrivalTimeout i subject) s = .next s)))

/-- A message for another address, or that the fabric is off for, is as if it had not come; one that meets a full intake queue holds its source; one that is damaged is counted and no more; one of another generation is answered with a BOUNCE (R336-R338, R341, R355, spec/12 R259). One whose header or payload sets a reserved bit or names a value out of range, and a HANDOVER of buffers that hold such a value, stops at its case (spec/00 R12). What each message does once it has arrived: an announcement enters its sender and is answered, a reply enters it; an offer is taken up, refused or repeated; the transfer that a message names takes it, at the active instance alone, one that names none is stale, and a HANDOVER that names none gets NAK (R340-R358). -/
def Obligations.PeerMessages : Prop :=
  (∀ (i : InstId) (m : PeerMsg) (s : State), ∀ p ∈ [(Instr.announce i m, tAnnounce), (.announceReply i m, tAnnounceReply), (.offer i m, tOffer), (.accept i m, tAccept),
      (.refuse i m, tRefuse), (.dataMsg i m, tData), (.dataAck i m, tDataAck), (.handover i m, tHandover), (.ack i m, tAck), (.nak i m, tNak), (.abandon i m, tAbandon), (.bounce i m, tBounce)],
    (fabricOn s i = false ∨ m.dst ≠ peerAddr (getInst s i) → exec p.1 s = .next s) ∧
    (fabricOn s i = true → m.dst = peerAddr (getInst s i) →
      (intakeFull 3 (getInst s i).hall = true → Mirrors p.1 i s (fun t => t = modHall i (holdSource 3 s.tick) s)) ∧
      (intakeFull 3 (getInst s i).hall = false →
        (msgCheck m ≠ m.check → Mirrors p.1 i s (fun t =>
          t = modStair i (fun t => { t with received := t.received + 1, crcDiscards := satTo 32 (t.crcDiscards + 1) }) s)) ∧
        (msgCheck m = m.check → m.type = p.2 → hasGen p.2 = true → m.dstGen ≠ (getInst s i).stair.roleGen →
          Mirrors p.1 i s (fun t => ∃ v, Heard i s v ∧ t = sendBounce i m v)) ∧
        (whole s i p.2 m = true → headerReserved m = true → StopsAt p.1 s 12)))) ∧
  (∀ (i : InstId) (m : PeerMsg) (s : State),
    (arrives s i tAnnounce m = true →
      (announceCase m = none → Receives (.announce i m) i
        (fun v => sendMsg i { mkMsg tAnnounceReply m.src with payload := announcePayload (getInst v i) } (noteAnnounce i false m v)) s) ∧
      (∀ n, announceCase m = some n → StopsAt (.announce i m) s n)) ∧
    (arrives s i tAnnounceReply m = true →
      (announceCase m = none → Receives (.announceReply i m) i (noteAnnounce i true m) s) ∧ (∀ n, announceCase m = some n → StopsAt (.announceReply i m) s n)) ∧
    (arrives s i tOffer m = true →
      (offerCase m.payload = none → Receives (.offer i m) i (takeOffer i m) s) ∧ (∀ n, offerCase m.payload = some n → StopsAt (.offer i m) s n)) ∧
    (arrives s i tBounce m = true →
      (bouncedCase m.payload = none → Receives (.bounce i m) i (takeBounce i m) s) ∧ (∀ n, bouncedCase m.payload = some n → StopsAt (.bounce i m) s n)) ∧
    (arrives s i tAccept m = true → fld m.payload 0 8 / 2 ≠ 0 → StopsAt (.accept i m) s 12) ∧
    (∀ n, handoverCase s i m = some n → arrives s i tHandover m = true → StopsAt (.handover i m) s n) ∧
    (∀ n, bodyCase s i m = some n → arrives s i tData m = true → m.reason = 0 → StopsAt (.dataMsg i m) s n) ∧
    (activeInst s i = true →
      (∀ x, outFor (mir s i) m = some x →
        (arrives s i tAccept m = true → fld m.payload 0 8 / 2 = 0 → Receives (.accept i m) i (takeAccept i m x) s) ∧
        (arrives s i tRefuse m = true → Receives (.refuse i m) i (takeRefuse i m x) s) ∧
        (arrives s i tDataAck m = true → Receives (.dataAck i m) i (takeDataAck i m x) s) ∧ (arrives s i tAck m = true → Receives (.ack i m) i (takeAck i x) s) ∧
        (arrives s i tNak m = true → Receives (.nak i m) i (takeNak i m x) s)) ∧
      (arrives s i tData m = true → m.reason ≠ 0 ∨ bodyCase s i m = none → Receives (.dataMsg i m) i (takeData i m) s) ∧
      (arrives s i tHandover m = true → handoverCase s i m = none → Receives (.handover i m) i (takeHandover i m) s) ∧
      (arrives s i tAbandon m = true → Receives (.abandon i m) i (takeAbandon i m) s)) ∧
    (activeInst s i = false ∨ outFor (mir s i) m = none →
      (arrives s i tAccept m = true → fld m.payload 0 8 / 2 = 0 → Receives (.accept i m) i (staleDiscard i) s) ∧ (arrives s i tRefuse m = true → Receives (.refuse i m) i (staleDiscard i) s) ∧
      (arrives s i tDataAck m = true → Receives (.dataAck i m) i (staleDiscard i) s) ∧ (arrives s i tAck m = true → Receives (.ack i m) i (staleDiscard i) s) ∧
      (arrives s i tNak m = true → Receives (.nak i m) i (staleDiscard i) s)) ∧
    (activeInst s i = false →
      (arrives s i tData m = true → Receives (.dataMsg i m) i (staleDiscard i) s) ∧ (arrives s i tAbandon m = true → Receives (.abandon i m) i (staleDiscard i) s) ∧
      (arrives s i tHandover m = true → Receives (.handover i m) i (sendNak i m) s)))

/-- A migration's own events on its sequence: one that may not open answers WRONG_STATE, one beyond 64 transfers FULL with detail 1 (DEDUCED, log 25), one whose row is in flight waits, and else the transfer opens (R352). The acknowledgement closes it: the record is FREE and its transfer gone (R351, R353). A failure brings the sequence back to `return_state`, answers WRONG_STATE with the reason, and the Midnights that waited act (R352, spec/11 R240). An arrival takes its place, MIGRATING, in a household of one, and is accepted (R347, R353), or is refused where no household or no list block is free; the destination's sequence stands when HANDOVER has come (R351, R354). Messages held back for reordering leave when they are due (R356). -/
def Obligations.MigrationEvents : Prop :=
  ∀ (i : InstId) (lid : Nat) (s : State),
    let t := releaseEvent i (.seq lid) s
    (∀ cmd kv dst, headKind s i lid = some (.migrateOut cmd kv dst) →
      let opens := migrateOpens (getInst s i) (seqOf s i lid).r dst
      (opens = false → Ends (.migrateOut i lid) i s (finishCmd i cmd rWrongState 0 []) (fun v => v = t)) ∧
      (opens = true → inFlight (mir s i) lid = true → Ends (.migrateOut i lid) i s (fun v => v) (fun v =>
        mir v i = mapSeq lid (fun x => { x with waiting := x.waiting ++ [.migrateOut cmd kv dst] }) (mir s i) ∧ v.hbm = s.hbm)) ∧
      (opens = true → inFlight (mir s i) lid = false → 64 ≤ (mir s i).outXfers.length → Ends (.migrateOut i lid) i s (finishCmd i cmd rFull 1 []) (fun v => v = t)) ∧
      (opens = true → inFlight (mir s i) lid = false → (mir s i).outXfers.length < 64 → Ends (.migrateOut i lid) i s (openTransfer i lid cmd kv dst) (fun v => v = t))) ∧
    (headKind s i lid = some .migrateAck →
      (outOfSeq (mir s i) lid = none → Ends (.migrateAck i lid) i s (fun v => v) (fun v => v = t)) ∧
      (∀ x, outOfSeq (mir s i) lid = some x → Ends (.migrateAck i lid) i s (fun v => v) (fun v => v = applyMigrateAck i lid t ∧
        findSeq (mir v i) lid = none ∧ (mir v i).outXfers = (mir s i).outXfers.filter (fun y => y.subject != x.subject)))) ∧
    (∀ reason, headKind s i lid = some (.migrateFail reason) →
      (outOfSeq (mir s i) lid = none → Ends (.migrateFail i lid) i s (fun v => v) (fun v => v = t)) ∧
      (∀ x q, outOfSeq (mir s i) lid = some x → findSeq (mir s i) lid = some q →
        let u := closeOut i x false t
        let back := if q.r.state = .migrating then enterState i lid q.r.returnState u else u
        let answer (v : State) : State := x.cmd.elim v (fun c => finishCmd i c rWrongState reason [] v)
        Ends (.migrateFail i lid) i s (fun v => q.migMidnight.foldl (fun v info => applyMidnight i lid info v) (answer (recordDone i lid v)))
          (fun v => v = modSeq i lid (fun y => { y with migMidnight := [], r := { y.r with peerSequence := 0 } }) back))) ∧
    (∀ n, headKind s i lid = some (.migrateIn n) →
      let offer := (mir s i).inXfers.find? (fun y => y.subject == n && y.lid == lid && !y.forward && !y.handedOver)
      (offer = none → Ends (.migrateIn i lid) i s (fun v => v) (fun v => v = t)) ∧
      (∀ y, offer = some y → freeHid (mir s i) = none ∨ freeBlocks (getInst s i) none = 0 → Ends (.migrateIn i lid) i s (discardIn i y) (fun v => v = sendMsg i { inMsg y tRefuse with reason := 9 } t)) ∧
      (∀ y hid q, offer = some y → freeHid (mir s i) = some hid → freeBlocks (getInst s i) none ≠ 0 → findSeq (mir s i) lid = some q → Ends (.migrateIn i lid) i s (fun v => v) (fun v =>
        v = applyMigrateIn i lid n t ∧ (seqOf v i lid).r.state = .migrating ∧ (seqOf v i lid).r.household = hid ∧ (seqOf v i lid).r.leader = true ∧
          (seqOf v i lid).r.liveMembers = 1 ∧ ∃ h ∈ (mir v i).households, h.id = hid ∧ h.leader = lid))) ∧
    (∀ n, headKind s i lid = some (.migrateDone n) →
      let due := (mir s i).inXfers.find? (fun y => y.subject == n && y.lid == lid && !y.forward && !y.handedOver && !y.final.isEmpty)
      (due = none → Ends (.migrateDone i lid) i s (fun v => v) (fun v => v = t)) ∧
      (∀ y, due = some y → Ends (.migrateDone i lid) i s (doMigrateDone i lid y) (fun v => v = t))) ∧
    (let leave := (getInst s i).stair.held.filter fun h => decide (h.due ≤ s.tick)
     (leave ≠ [] → Mirrors (.reorderRelease i) i s (fun v =>
      (getInst v i).stair.outbox = (getInst s i).stair.outbox ++ leave.map (·.sent) ∧
      (getInst v i).stair.held = (getInst s i).stair.held.filter (fun h => !decide (h.due ≤ s.tick)) ∧ mir v i = mir s i)) ∧
     (leave = [] → exec (.reorderRelease i) s = .next s))

/-- The mirror applies a message of the stream, which holds the whole mirrored state after a change (DEDUCED, log 77), in order and acknowledges it, its interrupt registers following what the stream changes of them (DEDUCED, log 41), one sent again counted as corrected; a damaged one is sent again, three times at most, and the fourth failure is a fault of the path; the active instance counts the acknowledgement; a SYNCING pair with nothing in flight is CURRENT (R359, R361-R363). A path that comes back brings a LOST pair of one build back to SYNCING; credits that come back over the links are those that were out (R363, spec/15 R323; the pool's size and a step's credits are the model's choice, DESIGN CHOICE, log 20). -/
def Obligations.MirrorAndPaths : Prop :=
  (∀ (i : InstId) (s : State),
    let o := Machine.other i
    let r := (getInst s o).rel
    (∀ msg rest, s.pathUp = true → r.streamOut = msg :: rest → follows s i = true →
      Goes (.mirrorMessage i false) s (fun t => mir t i = { msg.img with irq := irqFollow (getInst s i).rel.streamIrq msg.img.irq (mir s i).irq } ∧
        (getInst t i).hall = { (getInst s i).hall with events := msg.events, waiting := msg.waiting, nextArrival := msg.nextArrival } ∧
        (getInst t i).rel = { (getInst s i).rel with streamIrq := msg.img.irq, staged := (getInst s i).rel.staged ++ msg.entries, twinRole := msg.role, twinGen := msg.roleGen, twinSet := msg.outposts,
                                                     eccCorrected := if r.resends = 0 then (getInst s i).rel.eccCorrected else satTo 32 ((getInst s i).rel.eccCorrected + 1) } ∧
        (getInst t o).rel = { r with streamOut := rest, acksDue := r.acksDue + 1, resends := 0 } ∧ mir t o = mir s o ∧ t.tick = s.tick) ∧
      (r.resends < 3 → Goes (.mirrorMessage i true) s (fun t => t = modRel o (fun r => { r with resends := r.resends + 1 }) s)) ∧
      (3 ≤ r.resends → Goes (.mirrorMessage i true) s (fun t => t = pathFault i s))) ∧
    (∀ bad, r.streamOut = [] ∨ follows s i = false ∨ s.pathUp = false → exec (.mirrorMessage i bad) s = .next s) ∧
    (s.pathUp = true → (getInst s i).rel.active = true → (getInst s i).rel.acksDue ≠ 0 → Goes (.mirrorAck i) s (fun t =>
      t = modRel i (fun r => { r with acksDue := r.acksDue - 1, lastHeartbeat := s.tick, livenessRead := none }) s)) ∧
    (s.pathUp = false ∨ (getInst s i).rel.active = false ∨ (getInst s i).rel.acksDue = 0 → exec (.mirrorAck i) s = .next s) ∧
    (let syncs := s.pathUp = true ∧ follows s i = true ∧ (getInst s i).rel.mirror = .syncing ∧ activeInst s o = true ∧ r.mirror = .syncing ∧ r.streamOut = []
     (syncs → Goes (.mirrorSyncComplete i) s (fun t => (getInst t i).rel.mirror = .current ∧ (getInst t o).rel.mirror = .current ∧
       mir t i = { mir s o with irq := irqFollow (getInst s i).rel.streamIrq (mir s o).irq (mir s i).irq } ∧ mir t o = mir s o)) ∧
     (¬syncs → exec (.mirrorSyncComplete i) s = .next s))) ∧
  (∀ s : State,
    (s.pathUp = true → exec .pathRestored s = .next s) ∧
    (s.pathUp = false → mayResync { s with pathUp := true } = false → Goes .pathRestored s (fun t => t = { s with pathUp := true })) ∧
    (s.pathUp = false → mayResync { s with pathUp := true } = true → Goes .pathRestored s (fun t =>
      t.pathUp = true ∧ t.a.rel.mirror = .syncing ∧ t.b.rel.mirror = .syncing ∧ mir t .A = mir s .A ∧ mir t .B = mir s .B))) ∧
  (∀ (i : InstId) (n : Nat) (s : State), Mirrors (.linkCreditsReturned i n) i s (fun t =>
    (getInst t i).stair.credits = (getInst s i).stair.credits + min n (getInst s i).stair.creditsOut ∧
    (getInst t i).stair.creditsOut = (getInst s i).stair.creditsOut - n ∧ mir t i = mir s i ∧ (getInst t i).hall = (getInst s i).hall))

/-- Heartbeats: each running instance's is noted by the other; six ticks without one make an instance read its twin's liveness word, and two ticks later the word tells whether the twin has failed: a silent active twin is claimed from by a CURRENT mirror, and otherwise the mirror is LOST (R361, R364; that both sides are then LOST is the model's inference, DEDUCED, log 87; that running instances alone send heartbeats, and that a silent failed one keeps `active` until its claim is refused, DEDUCED, log 73). A takeover: a FAIL message makes a CURRENT mirror claim; each claim gives it an outpost of the pair's set; with all of them it takes over; an active instance that finds an outpost taken by its twin has failed (R364-R368). -/
def Obligations.TwinsWatchEachOther : Prop :=
  (∀ s : State,
    (s.pathUp = false → exec .heartbeat s = .next s) ∧
    (s.pathUp = true → ∀ i : InstId,
      let hears := running s (Machine.other i) = true ∧ inReset s i = false ∧ inReset s (Machine.other i) = false
      (hears → Goes .heartbeat s (fun t => (getInst t i).rel = { (getInst s i).rel with lastHeartbeat := s.tick, livenessRead := none, pathUp := true } ∧ mir t i = mir s i)) ∧
      (¬hears → Goes .heartbeat s (fun t => getInst t i = getInst s i)))) ∧
  (∀ (i : InstId) (s : State),
    let r := (getInst s i).rel
    let word := (getInst s (Machine.other i)).liveness
    (running s i = false ∨ s.tick < r.lastHeartbeat + 6 → exec (.heartbeatLost i) s = .next s) ∧
    (running s i = true → r.lastHeartbeat + 6 ≤ s.tick →
      (paired s i = true → r.livenessRead = none → r.claiming = false →
        Mirrors (.heartbeatLost i) i s (fun t => t = modRel i (fun r => { r with pathUp := false, livenessRead := some (word, s.tick) }) s)) ∧
      (paired s i = false ∨ r.livenessRead ≠ none ∨ r.claiming = true → Mirrors (.heartbeatLost i) i s (fun t => t = modRel i (fun r => { r with pathUp := false }) s))) ∧
    (r.livenessRead = none ∨ running s i = false ∨ paired s i = false → exec (.livenessCheck i) s = .next s) ∧
    (∀ v n, r.livenessRead = some (v, n) →
      (s.tick < n + 2 → exec (.livenessCheck i) s = .next s) ∧
      (running s i = true → paired s i = true → n + 2 ≤ s.tick →
        (word = v → r.active = false → r.mirror = .current → Goes (.livenessCheck i) s (fun t => t = modRel i (fun r => { r with claiming := true, claims := 0, livenessRead := none }) s)) ∧
        (word = v → r.active = true ∨ r.mirror ≠ .current → Goes (.livenessCheck i) s (fun t => t = markLost (Machine.other i) (mirrorLost i s))) ∧
        (word ≠ v → r.active = true → Goes (.livenessCheck i) s (fun t => t = markLost i (mirrorLost (Machine.other i) { s with pathUp := false }))) ∧
        (word ≠ v → r.active = false → Goes (.livenessCheck i) s (fun t => t = markLost (Machine.other i) (mirrorLost i { s with pathUp := false })))))) ∧
  (∀ (i : InstId) (s : State),
    let r := (getInst s i).rel
    let heeds := s.pathUp = true ∧ follows s i = true ∧ r.mirror = .current
    ((getInst s (Machine.other i)).rel.failSent = false → exec (.failMsg i) s = .next s) ∧
    ((getInst s (Machine.other i)).rel.failSent = true → heeds → Goes (.failMsg i) s (fun t => t = startClaim i (modRel (Machine.other i) (fun r => { r with failSent := false }) s))) ∧
    ((getInst s (Machine.other i)).rel.failSent = true → ¬heeds → Goes (.failMsg i) s (fun t => t = modRel (Machine.other i) (fun r => { r with failSent := false }) s)) ∧
    (∀ o, r.claiming = true → running s i = true → r.twinSet.getLsbD o = true → o < s.outposts.length →
      Goes (.claim i o) s (fun t => (getOutpost t o).owner = some i ∧ (getInst t i).rel = { r with claims := r.claims ||| (1#8 <<< o) } ∧
        (∀ p, p ≠ o → getOutpost t p = getOutpost s p) ∧ mir t i = mir s i ∧ getInst t (Machine.other i) = getInst s (Machine.other i))) ∧
    (∀ o, r.claiming = false ∨ running s i = false ∨ r.twinSet.getLsbD o = false → exec (.claim i o) s = .next s) ∧
    (let granted := r.claiming = true ∧ running s i = true ∧ r.claims &&& r.twinSet = r.twinSet
     (granted → Ends (.takeover i) i s (foyerRound i) (fun v => v = takeOver i s)) ∧ (¬granted → exec (.takeover i) s = .next s)) ∧
    (let refused := activeInst s i = true ∧ (getInst s i).place.split = false ∧ s.outposts.any (fun y => y.owner == some (Machine.other i)) = true
     (refused → Ends (.claimRefused i) i s (modRel i (fun r => { r with active := false, mirror := .lost, streamOut := [], acksDue := 0 }))
       (fun v => v = failInstance i 0x0E (logFault i 0x0E 0 none 0 0 0 s))) ∧
     (¬refused → exec (.claimRefused i) s = .next s)))

/-- A flush: one that is wanted begins at once where it is forced or no command waits, and is put off otherwise, until its bound; its end makes what it wrote durable (R373, R376, R377, spec/13 R284). A bulk image begins when it is wanted and no command waits, is put off as a flush is, and its end makes it current (R378). A replica writes each digest it is sent, while no command waits, into its log of 4,096 entries of 64 bytes (R379). A drive's answer ends one of the commands at the drive (which of several, no rule says: a free value, log 2); an error of it, or 2,000,000 ticks without an answer, has it tried once more, and then fails the path; a retry that succeeds is counted (spec/01 R27, spec/12 R261, spec/17 R359). Core 0, or its cover, does all of it (spec/13 R269). -/
def Obligations.FlushesAndDrive : Prop :=
  (∀ (i : InstId) (s : State),
    (drives s i = true → flushWanted (getInst s i) s.tick = true → (flushIsForced (getInst s i).rel = true ∨ commandWaits s i false = false) →
      Mirrors (.journalFlush i) i s (fun t => t = startFlush i s)) ∧
    (drives s i = true → flushWanted (getInst s i) s.tick = true → flushIsForced (getInst s i).rel = false → commandWaits s i false = true →
      Mirrors (.journalFlush i) i s (fun t => t = modRel i (fun r => { r with flushDue := some (r.flushDue.getD s.tick) }) s)) ∧
    (∀ due, drives s i = true → (getInst s i).rel.flushDue = some due → due + 4000 ≤ s.tick → (getInst s i).rel.flushing = none → commandWaits s i true = false →
      Mirrors (.flushDeferExpiry i) i s (fun t => t = startFlush i s)) ∧
    (hasOp s i (· == .flush) = true → onDuty s i 0 = true → Mirrors (.flushComplete i) i s (fun t => t = flushDone i s))) ∧
  (∀ (i : InstId) (s : State),
    let due := (getInst s i).rel.bulkDue.getD s.tick
    let now := commandWaits s i false = false ∨ (due + 4000 ≤ s.tick ∧ commandWaits s i true = false)
    (drives s i = true → bulkWanted (getInst s i) s.tick = true →
      (now → Mirrors (.bulkImageStart i) i s (fun t => t = startBulk i none allClasses s)) ∧
      (¬now → Mirrors (.bulkImageStart i) i s (fun t => t = modRel i (fun r => { r with bulkDue := some due }) s))) ∧
    (hasOp s i (· == .bulk) = true → onDuty s i 0 = true → Mirrors (.bulkImageDurable i) i s (fun t => t = bulkDone i s)) ∧
    (∀ p ps, drives s i = true → commandWaits s i false = false → (getInst s i).rel.digestsIn = p :: ps →
      Mirrors (.digestPair i) i s (fun t => t = driveIssue i (.digest p) false (modRel i (fun r => { r with digestsIn := ps }) s)))) ∧
  (∀ (i : InstId) (s : State),
    (onDuty s i 0 = false → ∀ ok, exec (.driveCompletion i ok) s = .next s) ∧
    (∀ ok, onDuty s i 0 = true → (getInst s i).rel.drive ≠ [] → ∃ d ∈ (getInst s i).rel.drive, Mirrors (.driveCompletion i ok) i s (fun t =>
      ∃ n, t = if ok then driveDone i d { s with free := s.free + n } else driveError i d { s with free := s.free + n })) ∧
    (∀ d, onDuty s i 0 = true → (getInst s i).rel.drive = [d] →
      let u := countFixed i (if d.retried then 1 else 0) s
      (d.op = .flush → Mirrors (.driveCompletion i true) i s (fun t => t = flushDone i u)) ∧
      (d.op = .bulk → Mirrors (.driveCompletion i true) i s (fun t => t = bulkDone i u)) ∧
      (∀ c, d.op = .probe c → Mirrors (.driveCompletion i true) i s (fun t => t = pathBack i c u)) ∧
      (∀ c, d.op = .restore c → Mirrors (.driveCompletion i true) i s (fun t => t = driveOver i d u)) ∧
      (∀ p, d.op = .digest p → Mirrors (.driveCompletion i true) i s (fun t => ((getInst s i).rel.driveNext = [] → (getInst t i).rel.drive = []) ∧ (mir t i).seqs = (mir s i).seqs ∧
        (getInst t i).rel.eccCorrected = (getInst u i).rel.eccCorrected ∧
        let disk := (getInst s i).rel.disk
        (getInst t i).rel.disk = { disk with digestLog := put (disk.digestCount % 4096) (digestEntry p) disk.digestLog, digestCount := disk.digestCount + 1 })) ∧
      (d.retried = false → Mirrors (.driveCompletion i false) i s (fun t => t = driveIssue i d.op true (driveOver i d s))) ∧
      (d.retried = true → Mirrors (.driveCompletion i false) i s (fun t => t = pathFail i s))) ∧
    (onDuty s i 0 = true → (getInst s i).rel.active = true → ∀ f d, driveTimer (fireCores i s) i = some (f, d) →
      Mirrors (.driveTimeout i) i s (fun t => t = driveError i d (releaseEvent i (.unit f) (fireCores i s)))) ∧
    (onDuty s i 0 = true → (getInst s i).rel.active = false → ∀ d, (getInst s i).rel.drive.find? (fun d => decide (d.start + 2000000 ≤ s.tick)) = some d →
      Mirrors (.driveTimeout i) i s (fun t => t = driveError i d s)))

/-- The wait graph is rebuilt once a millisecond by core 2 or its cover, of the waits of that moment, once no command waits there; where the same cycle stands in two builds running the flag is set and the CYCLE cause rises, a build without a cycle clears the flag, and else flag and causes stand (R398, R399, spec/13 R269, R284; since when a latch is waited for, DEDUCED, log 63). A wait that reaches the longest duration is recorded where its class is traced and goes on as a new one (R391, R393; a wait that the model does not show is as the row tells, under the lowest reason of those that apply, DESIGN CHOICE, log 108); a burst empties the FIFO into the buffer once no record has come for 4,096 cycles, a SYNC record is written every 65,536 ticks, and the TRACE that disabled tracing is answered when all is written (R393-R396). A dump begun is written to its area, its sections on 64 KiB boundaries and its header, and no other byte of HBM (its memory in canonical form, which O3 keeps); it is then complete, or complete with INCOMPLETE set, with its cause raised (R400-R402; which section an incomplete dump cuts, and where, is a free value, DESIGN CHOICE, log 2). -/
def Obligations.StudyEvents : Prop :=
  (∀ (i : InstId) (s : State),
    let y := (getInst s i).study
    (graphDue s i = true → onDuty s i 2 = true → commandWaitsAt s i 2 false = false →
      Mirrors (.graphBuild i) i s (fun t => t = buildGraph i s ∧ (mir t i).seqs = (mir s i).seqs ∧ t.hbm = s.hbm)) ∧
    (graphDue s i = false ∨ onDuty s i 2 = false ∨ commandWaitsAt s i 2 false = true → exec (.graphBuild i) s = .next s) ∧
    (let g := waitGraph s i
     let again := hasCycle (g.filter fun e => y.graph.any (sameEdge e))
     let t := buildGraph i s
     (getInst t i).study.graph = g ∧ (getInst t i).study.graphTick = s.tick ∧
       (again = true → (getInst t i).study.cycle = true ∧ (getInst t i).study.cause = y.cause ||| (1#4 <<< causeCycle) ∧
         (y.cause.getLsbD causeCycle = false → tbit (mir s i).causeEnable causeCycle = true → (mir t i).irq.study = true)) ∧
       (again = false → (getInst t i).study.cycle = (y.cycle && hasCycle g) ∧ (getInst t i).study.cause = y.cause ∧ mir t i = mir s i)) ∧
    (∀ waiter holder reason object,
      let e : Edge := { src := waiter, dst := holder % 2 ^ 12, reason := reason % 16, object := object % 2 ^ 24 }
      (∀ w, y.waits.find? (sameWait e) = some w →
        let lim := w.since + 0xFFFFFF
        let u := modStudy i (fun y => { y with waits := y.waits.map fun v => if v == w then { v with since := lim } else v }) s
        (waitRec w lim).duration = 0xFFFFFF ∧ (waitRec w lim).waiter = waiter ∧ (waitRec w lim).holder = holder % 2 ^ 12 ∧
        (studyCount s i + 500 ≤ lim → exec (.traceWaitLimit i waiter holder reason object) s = .next s) ∧
        (lim < studyCount s i + 500 → keepsWait s i (waitRec w lim) = true → Mirrors (.traceWaitLimit i waiter holder reason object) i s (fun t => t = traceAdd i (waitRec w lim) u)) ∧
        (lim < studyCount s i + 500 → keepsWait s i (waitRec w lim) = false → Mirrors (.traceWaitLimit i waiter holder reason object) i s (fun t => t = u))) ∧
      (y.waits.find? (sameWait e) = none →
        let also := (y.waits.filter fun w => w.src == waiter && w.object == e.object).map (·.reason)
        let r := { waitRec { e with reason := also.foldl min e.reason } (studyCount s i) with duration := 0xFFFFFF }
        (followed waiter = true → exec (.traceWaitLimit i waiter holder reason object) s = .next s) ∧
        (followed waiter = false → keepsWait s i r = true → Mirrors (.traceWaitLimit i waiter holder reason object) i s (fun t => t = traceAdd i r s)) ∧
        (followed waiter = false → keepsWait s i r = false → Mirrors (.traceWaitLimit i waiter holder reason object) i s (fun t => t = s)))) ∧
    (y.lastRec + 4096 < studyTime s i + 500 → Mirrors (.traceBurstTimeout i) i s (fun t => t = traceBurst i y.fifo.length s)) ∧
    (studyTime s i + 500 ≤ y.lastRec + 4096 → exec (.traceBurstTimeout i) s = .next s) ∧
    (y.traceOn = true → s.tick % 65536 = 0 → Mirrors (.traceSync i) i s (fun t => t = traceAdd i (syncRec s i) s)) ∧
    (y.traceOn = false ∨ s.tick % 65536 ≠ 0 → exec (.traceSync i) s = .next s) ∧
    (∀ cmd, y.draining = some cmd → Mirrors (.traceDrained i) i s (fun t =>
      t = finishCmd i cmd rOk 0 [] (modStudy i (fun y => { y with draining := none }) (traceBurst i y.fifo.length s)))) ∧
    (y.draining = none → Mirrors (.traceDrained i) i s (fun t => t = s))) ∧
  (∀ (i : InstId) (incomplete : Bool) (s : State),
    let y := (getInst s i).study
    (∀ g, y.dumpState = 1 → (getInst s i).hearth.coreUp ≠ 0 → look 6 (getInst s i).place.regions = some g → y.dump ≠ none →
      Mirrors (.dumpComplete i incomplete) i s (fun t => (getInst t i).study.dumpState = (if incomplete then 3 else 2) ∧
        (getInst t i).study.cause.getLsbD causeDump = true ∧ (mir t i).seqs = (mir s i).seqs ∧ t.host = s.host ∧
        ∀ d, y.dump = some d → Machine.Mem.wf s.hbm = true →
          let f := takeFree (buildGraph i s)
          let l := placeSections 0x10000 (cutSections incomplete f.1 (dumpSections f.2 i))
          let x := getInst f.2 i
          let h := dumpHeader x d incomplete (crc32c (dumpHeader x d incomplete 0 l)) l
          memGets t.hbm g.base h.length = h ∧ (∀ p ∈ l, memGets t.hbm (g.base + p.1) p.2.2.length = p.2.2) ∧
          ∀ a, (a < g.base ∨ g.base + h.length ≤ a) → (∀ p ∈ l, a < g.base + p.1 ∨ g.base + p.1 + p.2.2.length ≤ a) → memGet t.hbm a = memGet s.hbm a)) ∧
    (y.dumpState ≠ 1 ∨ (getInst s i).hearth.coreUp = 0 ∨ look 6 (getInst s i).place.regions = none ∨ y.dump = none → exec (.dumpComplete i incomplete) s = .next s))

/-- A register write, whichever row it comes by: a misaligned one that reaches the row's register, from below too, and one that sets a reserved bit or meets another undefined case stop, one to no register or to a block that takes none has no effect, and any other does what the register's fields say (R411-R413, R427, spec/00 R8-R10, spec/01 R24). BAR2 holds instance A's slice below 0x10_0000 and instance B's from there: a write there is the same write of instance B at the offset less 0x10_0000 (spec/01 R23). -/
def Obligations.RegisterWrites : Prop :=
  ∀ (i : InstId) (wide : Bool) (off v : Nat) (s : State),
    let w := busWrite wide off v
    (aligned wide off = false → StopsAt (.registerWrite i wide off v) s 13) ∧
    (aligned wide off = true → i = .B ∨ off < 0x100000 →
      ((blockTakes s i (off / 8 * 8) = false ∨ slotFields s i (off / 8 * 8) = []) → exec (.registerWrite i wide off v) s = .next s) ∧
      (blockTakes s i (off / 8 * 8) = true → slotFields s i (off / 8 * 8) ≠ [] →
        (∀ n, writeCase s i (off / 8 * 8) w = some n → StopsAt (.registerWrite i wide off v) s n) ∧
        (writeCase s i (off / 8 * 8) w = none → Settles (.registerWrite i wide off v) i s (fun t => t = writeAt i (off / 8 * 8) w s)))) ∧
    (0x100000 ≤ off → exec (.registerWrite .A wide off v) s = exec (.registerWrite .B wide (off - 0x100000) v) s) ∧
    (let last := (off + if wide then 7 else 3) / 8 * 8
     let reach (p : Nat → Bool) : Bool := p (off / 8 * 8) || p last
     (aligned wide off = false →
       (reach (fun a => decide (0x100 ≤ a) && decide (a < 0x120)) = true → StopsAt (.kitchenLimitWrite i wide off v) s 13) ∧
       (reach (· == 0x220) = true → StopsAt (.epochRetiredClear i wide off v) s 13) ∧
       (reach (fun a => decide (0x2000 ≤ a) && decide (a < 0x4000)) = true → StopsAt (.latchConfigWrite i wide off v) s 13) ∧
       (reach (· == 0xC08) = true → StopsAt (.stairwellTimingWrite i wide off v) s 13) ∧
       (reach (· == 0xD18) = true → StopsAt (.traceRpWrite i wide off v) s 13))) ∧
    (0x100 ≤ off / 8 * 8 → off / 8 * 8 < 0x120 → exec (.kitchenLimitWrite i wide off v) s = exec (.registerWrite i wide off v) s) ∧
    (off / 8 * 8 = 0x220 → exec (.epochRetiredClear i wide off v) s = exec (.registerWrite i wide off v) s) ∧
    (0x2000 ≤ off / 8 * 8 → off / 8 * 8 < 0x4000 → exec (.latchConfigWrite i wide off v) s = exec (.registerWrite i wide off v) s) ∧
    (off / 8 * 8 = 0xC08 → exec (.stairwellTimingWrite i wide off v) s = exec (.registerWrite i wide off v) s) ∧
    (off / 8 * 8 = 0xD18 → exec (.traceRpWrite i wide off v) s = exec (.registerWrite i wide off v) s)

/-- A write of a value outside a Kitchen field's bounds sets the nearer bound, and one inside sets the value; the fields of the register that is written are all that changes (R420). -/
def Obligations.KitchenLimits : Prop :=
  ∀ (i : InstId) (s : State) (a b c d : Nat), limitsTake s i = true →
    let k := (mir s i).kitchen
    (a < 2 ^ 15 → b < 2 ^ 19 → Settles (.kitchenLimitWrite i true 0x100 (a + 2 ^ 32 * b)) i s (fun t =>
      mir t i = { mir s i with kitchen := { k with stepLogitLimit := max 1 (min 16384 a), stepPrefillLimit := min 262144 b } } ∧ OnlyMirror i s t)) ∧
    (a < 2 ^ 19 → b < 2 ^ 15 → Settles (.kitchenLimitWrite i true 0x108 (a + 2 ^ 32 * b)) i s (fun t =>
      mir t i = { mir s i with kitchen := { k with chunkLimit := max 16 (min 262144 a), c0LogitCap := max 1024 (min 16384 b) } } ∧ OnlyMirror i s t)) ∧
    (a < 2 ^ 19 → b < 2 ^ 16 → Settles (.kitchenLimitWrite i true 0x110 (a + 2 ^ 32 * b)) i s (fun t =>
      mir t i = { mir s i with kitchen := { k with c0PrefillCap := min 262144 a, starveSteps := b } } ∧ OnlyMirror i s t)) ∧
    (a < 2 ^ 4 → b < 2 ^ 2 → c < 2 ^ 4 → d < 2 ^ 8 → Settles (.kitchenLimitWrite i true 0x118 (a + 2 ^ 4 * b + 2 ^ 8 * c + 2 ^ 16 * d)) i s (fun t =>
      mir t i = { mir s i with kitchen := { k with fuseMax := max 1 (min 8 a), depth := max 1 (min 2 b), preemptMask := c, preemptShield := d } } ∧ OnlyMirror i s t)) ∧
    (a < 2 ^ 15 → LimitSet i s 0x100 a (fun k => { k with stepLogitLimit := max 1 (min 16384 a) })) ∧
    (b < 2 ^ 19 → LimitSet i s 0x104 b (fun k => { k with stepPrefillLimit := min 262144 b })) ∧
    (a < 2 ^ 19 → LimitSet i s 0x108 a (fun k => { k with chunkLimit := max 16 (min 262144 a) })) ∧
    (b < 2 ^ 15 → LimitSet i s 0x10C b (fun k => { k with c0LogitCap := max 1024 (min 16384 b) })) ∧
    (a < 2 ^ 19 → LimitSet i s 0x110 a (fun k => { k with c0PrefillCap := min 262144 a })) ∧
    (b < 2 ^ 16 → LimitSet i s 0x114 b (fun k => { k with starveSteps := b })) ∧
    (a < 2 ^ 4 → b < 2 ^ 2 → c < 2 ^ 4 → d < 2 ^ 8 → LimitSet i s 0x118 (a + 2 ^ 4 * b + 2 ^ 8 * c + 2 ^ 16 * d) (fun k =>
          { k with fuseMax := max 1 (min 8 a), depth := max 1 (min 2 b), preemptMask := c, preemptShield := d }))

/-- The Foyer's marks, the fence mask and the W1C bits beside them: a headroom is as written, and a lower one has the deferred requests evaluated (spec/03 R63), `epoch_retired` is cleared by 8 bytes alone, a mark above 65,536 is 65,536 and cooling follows it at once; a fence mask acts only from the outpost's owner and whole, or is refused with `fence_refused` where more than eight groups would be fenced (R422-R425, R286). -/
def Obligations.MarksAndFences : Prop :=
  ∀ (i : InstId) (s : State) (v : Nat),
    (limitsTake s i = true → v < 2 ^ 24 → Settles (.pageHeadroomWrite i true v) i s (fun t =>
      let u := modFoyer i (fun f => { f with pageHeadroom := v }) s
      t = if v < (mir s i).foyer.pageHeadroom then foyerRound i u else u)) ∧
    (limitsTake s i = true → v < 2 ^ 17 → Settles (.coolMarkWrite i true v) i s (fun t => ∃ u, u = modFoyer i (fun f => { f with coolMark := min 65536 v }) s ∧
      t = coolExcess i (hotCount (mir s i)) u)) ∧
    (limitsTake s i = true → v < 2 ^ 64 → Settles (.epochRetiredClear i true 0x220 v) i s (fun t => t = modDir i (fun d => { d with epochRetired := d.epochRetired &&& ~~~BitVec.ofNat 64 v }) s)) ∧
    (∀ off, off = 0x220 ∨ off = 0x224 → limitsTake s i = true → Settles (.epochRetiredClear i false off v) i s (fun t => t = s)) ∧
    (∀ o, o < 8 → o < s.outposts.length → limitsTake s i = true → v < 2 ^ 32 →
      ((getOutpost s o).owner ≠ some i → Settles (.fenceMaskWrite i o true v) i s (fun t => t = s)) ∧
      ((getOutpost s o).owner = some i → fencedCount (BitVec.ofNat 32 v ||| (getOutpost s o).testFence) ≤ 8 →
        Settles (.fenceMaskWrite i o true v) i s (fun t => (getOutpost t o).fenceMask = BitVec.ofNat 32 v ∧ (getOutpost t o).testFence = (getOutpost s o).testFence ∧
          (getOutpost t o).larder = (getOutpost s o).larder ∧ (∀ p, p ≠ o → getOutpost t p = getOutpost s p) ∧ mir t i = mir s i)) ∧
      ((getOutpost s o).owner = some i → 8 < fencedCount (BitVec.ofNat 32 v ||| (getOutpost s o).testFence) →
        Settles (.fenceMaskWrite i o true v) i s (fun t => (getOutpost t o).fenceMask = (getOutpost s o).fenceMask ∧ refusedOf i (getOutpost t o) = true ∧ OnlyOutpost o s t)) ∧
      Settles (.fenceRefusedClear i o true 8) i s (fun t => refusedOf i (getOutpost t o) = false ∧ (getOutpost t o).fenceMask = (getOutpost s o).fenceMask ∧ OnlyOutpost o s t)) ∧
    (deaf s i = false → v < 2 ^ 4 → Settles (.wdogExpiredClear i true v) i s (fun t => t = modHearth i (fun h => { h with wdogExpired := h.wdogExpired &&& ~~~BitVec.ofNat 4 v }) s))

/-- Latches, timing, seeds, trace and causes: a free latch that no step of its models holds takes its configuration, one in use is an undefined case; the Stairwell's times have their least values; a seed's write starts the count again; a W1C write clears the causes it names, and sets their enables but at a mirror, which holds those of the stream (spec/19 R416; spec/15 R329, R330, spec/16 R356, R357, spec/18 R394, R400, R402, R409). -/
def Obligations.ControlWrites : Prop :=
  ∀ (i : InstId) (s : State) (a b : Nat),
    (∀ n, n < 256 → mirrorTakes s i = true → a < 2 ^ 16 → b < 2 →
      (latchIdle (mir s i) (getLatch (mir s i) n) (getLatch (mir s i) n).models = true → Settles (.latchConfigWrite i true (0x2000 + 32 * n + 8) (a + 2 ^ 16 * b)) i s (fun t =>
        mir t i = { mir s i with latches := modAt (mir s i).latches n (fun l => { l with maxHold := a, enable := b == 1 }) } ∧ t.tick = s.tick ∧ t.hbm = s.hbm)) ∧
      (latchIdle (mir s i) (getLatch (mir s i) n) (getLatch (mir s i) n).models = false → StopsAt (.latchConfigWrite i true (0x2000 + 32 * n + 8) (a + 2 ^ 16 * b)) s 10)) ∧
    (deaf s i = false → a < 2 ^ 16 → b < 2 ^ 32 → Settles (.stairwellTimingWrite i true 0xC08 (a + 2 ^ 16 * b)) i s (fun t =>
      t = modStair i (fun x => { x with retryTicks := max 16 a, timeoutTicks := max 1000 b }) s)) ∧
    (deaf s i = false → a < 2 ^ 64 → Settles (.injectionSeedWrite i true a) i s (fun t =>
      t = modStair i (fun x => { x with seedHi := BitVec.ofNat 64 a, classes := x.classes.map fun c => { c with count := 0 } }) s)) ∧
    (deaf s i = false → b < 2 ^ 32 → Settles (.traceRpWrite i true 0xD18 (2 ^ 32 * b)) i s (fun t => t = modStudy i (fun y => { y with traceRp := b }) s)) ∧
    (deaf s i = false → Settles (.dumpRequest i true 1) i s (fun t => t = requestDump i s) ∧ Settles (.dumpAck i true 2) i s (fun t => t = ackDump i s)) ∧
    (deaf s i = false → a < 2 ^ 4 → b < 2 ^ 4 → Settles (.studyCauseClear i true (a + 2 ^ 4 * b)) i s (fun t =>
      (getInst t i).study = { (getInst s i).study with cause := (getInst s i).study.cause &&& ~~~BitVec.ofNat 4 a } ∧
      mir t i = (if mirrorIdle s i then mir s i else { mir s i with causeEnable := b }) ∧ t.hbm = s.hbm))

/-- A read answers the register's value, in its half for 4 bytes, and changes nothing else where it reaches no RC field whole; an RC field that a read of 4 or of 8 bytes reaches whole is cleared, an intake queue's largest depth to the depth that it has, and nothing else changes; a misaligned read is undefined; in a block reset every register reads 0 (R412, R414, spec/01 R24, spec/12 R266, spec/20 R436). A read of BAR2 from 0x10_0000 on is the same read of instance B at the offset less 0x10_0000 (spec/01 R23). The flush deferral's largest value is read and cleared in one access (spec/13 R286, R412). -/
def Obligations.RegisterReads : Prop :=
  (∀ (i : InstId) (wide : Bool) (off : Nat) (s : State),
    let reg := off / 8 * 8
    let seen := if wide then regRead s i reg else if off % 8 = 0 then regRead s i reg &&& 0xFFFFFFFF else regRead s i reg >>> 32
    (aligned wide off = false → StopsAt (.rcFieldRead i wide off) s 13) ∧
    (0x100000 ≤ off → exec (.rcFieldRead .A wide off) s = exec (.rcFieldRead .B wide (off - 0x100000)) s) ∧
    (aligned wide off = true → off < 0x100000 →
      Mirrors (.rcFieldRead i wide off) i s (fun t => t.busData = seen ∧ t.tick = s.tick ∧ t.hbm = s.hbm ∧ t.host = s.host ∧ t.outposts = s.outposts ∧
        getInst t (Machine.other i) = getInst s (Machine.other i)) ∧
      (((slotFields s i reg).any fun f => f.acc == .rc && wholly (access wide off 0).2 f) = false →
        Mirrors (.rcFieldRead i wide off) i s (fun t => t = { s with busData := seen })) ∧
      (inReset s i = true → Mirrors (.rcFieldRead i wide off) i s (fun t => t = { s with busData := 0 })))) ∧
  (∀ (i : InstId) (s : State), inReset s i = false →
    let clears (reg lo : Nat) (f : State → State) : Prop :=
      Mirrors (.rcFieldRead i true reg) i s (fun t => t = f { s with busData := regRead s i reg }) ∧
      Mirrors (.rcFieldRead i false (reg + lo / 8)) i s (fun t => t = f { s with busData := if lo = 0 then regRead s i reg &&& 0xFFFFFFFF else regRead s i reg >>> 32 })
    clears 0x428 32 (modHearth i (fun h => { h with flushDeferMax := 0 })) ∧
    (∀ k, k < 16 → clears (0x818 + 32 * k) 0 (modCtx i k (fun x => { x with sqBadKind := 0 }))) ∧
    (∀ n, n < 4 → clears (0xC88 + 16 * n) 0 (modStair i (fun t => { t with classes := modAt t.classes n fun c => { c with injected := 0 } }))) ∧
    clears 0xD28 0 (modStudy i (fun y => { y with gaps := 0 })) ∧
    (∀ u, u < 32 → clears (0x1018 + 32 * u) 0 (modHall i (fun h => { h with ushers := modAt h.ushers u fun u => { u with waitMax := 0 } }))) ∧
    (∀ q, q < 5 → clears (0x1400 + 16 * q) 32 (modHall i (fun h => { h with intakes := modAt h.intakes q fun y => { y with highWater := (inIntake q h).length } }))) ∧
    (∀ l, l < 4 → clears (0x1498 + 32 * l) 0 (modHall i (fun h => { h with counts := modAt h.counts l fun c => { c with late := 0 } })))) ∧
  (∀ (i : InstId) (s : State), inReset s i = false →
    Mirrors (.rcFieldRead i true 0x428) i s (fun t => t.busData = BitVec.ofNat 64 ((getInst s i).hearth.flushDefer % 2 ^ 32 + 2 ^ 32 * ((getInst s i).hearth.flushDeferMax % 2 ^ 32)) ∧
      (getInst t i).hearth = { (getInst s i).hearth with flushDeferMax := 0 } ∧ mir t i = mir s i))
end

