-- ==== Sys2Proof/Laws/Bytes.lean ====
section
/-! SUPPORT. Bytes and the numbers that they spell: what a value's bytes, in either order, read back as, and that an entry of the digest log reads back as the pair it was written from (spec/17 R379). -/

namespace Sys2Proof.Laws

open Sys2Proof Sys2Proof.Machine

@[simp] theorem leBytes_length (n v : Nat) : (leBytes n v).length = n := by
  induction n generalizing v with
  | zero => rfl
  | succ n ih => simp [leBytes, ih]

/-- The bytes of a value in little-endian order spell the value, cut to their number. -/
@[simp] theorem leNat_leBytes (n v : Nat) : leNat (leBytes n v) = v % 256 ^ n := by
  induction n generalizing v with
  | zero => simp [leBytes, leNat, Nat.mod_one]
  | succ n ih => simp [leBytes, leNat, ih, Nat.pow_succ', Nat.mod_mul]

theorem beNat_reverse (l : List Byte) : beNat l.reverse = leNat l := by
  unfold beNat
  rw [List.foldl_reverse]
  induction l with
  | nil => rfl
  | cons b t ih => simp [leNat, ih]; omega

@[simp] theorem beBytes_length (n v : Nat) : (beBytes n v).length = n := by simp [beBytes]

/-- The same in big-endian order. -/
@[simp] theorem beNat_beBytes (n v : Nat) : beNat (beBytes n v) = v % 256 ^ n := by simp [beBytes, beNat_reverse]

set_option exponentiation.threshold 400 in
/-- An entry of the digest log reads back as the step, the digest and the sender that it was written from. -/
theorem digestRead_entry (n : Nat) (g : BitVec 384) (a : Nat) (hn : n < 2 ^ 64) (ha : a < 2 ^ 16) : digestRead (digestEntry (n, g, a)) = (n, g, a) := by
  have h : digestEntry (n, g, a) = leBytes 8 n ++ (beBytes 48 g.toNat ++ (leBytes 2 a ++ List.replicate 6 0)) := by
    simp [digestEntry, slice, List.take_of_length_le]
  have hg := g.isLt
  simp only [digestRead, h, fld, slice]
  simp [List.drop_append, List.drop_of_length_le]
  refine ⟨by omega, BitVec.eq_of_toNat_eq ?_, by omega⟩
  simpa using Nat.mod_eq_of_lt hg

end Sys2Proof.Laws
end

