-- ==== Sys2Proof/Laws/State.lean ====
section
/-! SUPPORT. One lemma per field per update of the state, so that no proof unfolds a record update: what each `mod…` leaves of the State's fields, of the instance it names and of the other one. -/

namespace Sys2Proof.Laws

open Sys2Proof Sys2Proof.Machine

@[simp] theorem other_ne (i : InstId) : Machine.other i ≠ i := by cases i <;> decide
@[simp] theorem ne_other (i : InstId) : i ≠ Machine.other i := by cases i <;> decide
@[simp] theorem other_other (i : InstId) : Machine.other (Machine.other i) = i := by cases i <;> rfl
@[simp] theorem mir_eq (s : State) (i : InstId) : mir s i = (getInst s i).mir := rfl

/-! ### The instance named, and the other -/

@[simp] theorem getInst_modInst (i : InstId) (f : Inst → Inst) (s : State) : getInst (modInst i f s) i = f (getInst s i) := by cases i <;> rfl
@[simp] theorem getInst_modInst_other (i : InstId) (f : Inst → Inst) (s : State) :
    getInst (modInst i f s) (Machine.other i) = getInst s (Machine.other i) := by cases i <;> rfl

@[simp] theorem getInst_modMir (i : InstId) (f : Mirrored → Mirrored) (s : State) : getInst (modMir i f s) i = { getInst s i with mir := f (getInst s i).mir } := by cases i <;> rfl
@[simp] theorem getInst_modMir_other (i : InstId) (f : Mirrored → Mirrored) (s : State) :
    getInst (modMir i f s) (Machine.other i) = getInst s (Machine.other i) := by cases i <;> rfl
@[simp] theorem getInst_modHearth (i : InstId) (f : Hearth → Hearth) (s : State) : getInst (modHearth i f s) i = { getInst s i with hearth := f (getInst s i).hearth } := by cases i <;> rfl
@[simp] theorem getInst_modHearth_other (i : InstId) (f : Hearth → Hearth) (s : State) :
    getInst (modHearth i f s) (Machine.other i) = getInst s (Machine.other i) := by cases i <;> rfl
@[simp] theorem getInst_modHall (i : InstId) (f : Hallway → Hallway) (s : State) : getInst (modHall i f s) i = { getInst s i with hall := f (getInst s i).hall } := by cases i <;> rfl
@[simp] theorem getInst_modHall_other (i : InstId) (f : Hallway → Hallway) (s : State) :
    getInst (modHall i f s) (Machine.other i) = getInst s (Machine.other i) := by cases i <;> rfl
@[simp] theorem getInst_modStair (i : InstId) (f : Stairwell → Stairwell) (s : State) : getInst (modStair i f s) i = { getInst s i with stair := f (getInst s i).stair } := by cases i <;> rfl
@[simp] theorem getInst_modStair_other (i : InstId) (f : Stairwell → Stairwell) (s : State) :
    getInst (modStair i f s) (Machine.other i) = getInst s (Machine.other i) := by cases i <;> rfl
@[simp] theorem getInst_modRel (i : InstId) (f : Reliability → Reliability) (s : State) : getInst (modRel i f s) i = { getInst s i with rel := f (getInst s i).rel } := by cases i <;> rfl
@[simp] theorem getInst_modRel_other (i : InstId) (f : Reliability → Reliability) (s : State) :
    getInst (modRel i f s) (Machine.other i) = getInst s (Machine.other i) := by cases i <;> rfl
@[simp] theorem getInst_modStudy (i : InstId) (f : Study → Study) (s : State) : getInst (modStudy i f s) i = { getInst s i with study := f (getInst s i).study } := by cases i <;> rfl
@[simp] theorem getInst_modStudy_other (i : InstId) (f : Study → Study) (s : State) :
    getInst (modStudy i f s) (Machine.other i) = getInst s (Machine.other i) := by cases i <;> rfl
@[simp] theorem getInst_modKit (i : InstId) (f : Kitchen → Kitchen) (s : State) : getInst (modKit i f s) i = { getInst s i with mir := { (getInst s i).mir with kitchen := f (getInst s i).mir.kitchen } } := by cases i <;> rfl
@[simp] theorem getInst_modKit_other (i : InstId) (f : Kitchen → Kitchen) (s : State) :
    getInst (modKit i f s) (Machine.other i) = getInst s (Machine.other i) := by cases i <;> rfl
@[simp] theorem getInst_modFoyer (i : InstId) (f : Foyer → Foyer) (s : State) : getInst (modFoyer i f s) i = { getInst s i with mir := { (getInst s i).mir with foyer := f (getInst s i).mir.foyer } } := by cases i <;> rfl
@[simp] theorem getInst_modFoyer_other (i : InstId) (f : Foyer → Foyer) (s : State) :
    getInst (modFoyer i f s) (Machine.other i) = getInst s (Machine.other i) := by cases i <;> rfl
@[simp] theorem getInst_modDir (i : InstId) (f : Directory → Directory) (s : State) : getInst (modDir i f s) i = { getInst s i with mir := { (getInst s i).mir with dir := f (getInst s i).mir.dir } } := by cases i <;> rfl
@[simp] theorem getInst_modDir_other (i : InstId) (f : Directory → Directory) (s : State) :
    getInst (modDir i f s) (Machine.other i) = getInst s (Machine.other i) := by cases i <;> rfl
@[simp] theorem getInst_modLib (i : InstId) (f : Library → Library) (s : State) : getInst (modLib i f s) i = { getInst s i with mir := { (getInst s i).mir with lib := f (getInst s i).mir.lib } } := by cases i <;> rfl
@[simp] theorem getInst_modLib_other (i : InstId) (f : Library → Library) (s : State) :
    getInst (modLib i f s) (Machine.other i) = getInst s (Machine.other i) := by cases i <;> rfl
@[simp] theorem getInst_modPantry (i : InstId) (f : Pantry → Pantry) (s : State) : getInst (modPantry i f s) i = { getInst s i with mir := { (getInst s i).mir with pantry := f (getInst s i).mir.pantry } } := by cases i <;> rfl
@[simp] theorem getInst_modPantry_other (i : InstId) (f : Pantry → Pantry) (s : State) :
    getInst (modPantry i f s) (Machine.other i) = getInst s (Machine.other i) := by cases i <;> rfl
@[simp] theorem getInst_modCtx (i : InstId) (k : Nat) (f : Ctx → Ctx) (s : State) :
    getInst (modCtx i k f s) i = { getInst s i with mir := { (getInst s i).mir with ctxs := modAt (getInst s i).mir.ctxs k f } } := by cases i <;> rfl
@[simp] theorem getInst_modCtx_other (i : InstId) (k : Nat) (f : Ctx → Ctx) (s : State) :
    getInst (modCtx i k f s) (Machine.other i) = getInst s (Machine.other i) := by cases i <;> rfl
@[simp] theorem getInst_modWin (i : InstId) (k : Nat) (f : Window → Window) (s : State) :
    getInst (modWin i k f s) i = { getInst s i with mir := { (getInst s i).mir with windows := modAt (getInst s i).mir.windows k f } } := by cases i <;> rfl
@[simp] theorem getInst_modWin_other (i : InstId) (k : Nat) (f : Window → Window) (s : State) :
    getInst (modWin i k f s) (Machine.other i) = getInst s (Machine.other i) := by cases i <;> rfl
@[simp] theorem getInst_modLatch (i : InstId) (k : Nat) (f : Latch → Latch) (s : State) :
    getInst (modLatch i k f s) i = { getInst s i with mir := { (getInst s i).mir with latches := modAt (getInst s i).mir.latches k f } } := by cases i <;> rfl
@[simp] theorem getInst_modLatch_other (i : InstId) (k : Nat) (f : Latch → Latch) (s : State) :
    getInst (modLatch i k f s) (Machine.other i) = getInst s (Machine.other i) := by cases i <;> rfl
@[simp] theorem getInst_modModel (i : InstId) (k : Nat) (f : Model → Model) (s : State) :
    getInst (modModel i k f s) i = { getInst s i with mir := { (getInst s i).mir with dir := { (getInst s i).mir.dir with models := modAt (getInst s i).mir.dir.models k f } } } := by cases i <;> rfl
@[simp] theorem getInst_modModel_other (i : InstId) (k : Nat) (f : Model → Model) (s : State) :
    getInst (modModel i k f s) (Machine.other i) = getInst s (Machine.other i) := by cases i <;> rfl
@[simp] theorem getInst_modOutpost (o : Nat) (f : Outpost → Outpost) (s : State) (i : InstId) : getInst (modOutpost o f s) i = getInst s i := by cases i <;> rfl
@[simp] theorem outposts_modOutpost (o : Nat) (f : Outpost → Outpost) (s : State) : (modOutpost o f s).outposts = modAt s.outposts o f := rfl
@[simp] theorem getInst_hbmPut (a : Nat) (bs : List Byte) (s : State) (i : InstId) : getInst (hbmPut a bs s) i = getInst s i := by cases i <;> rfl
@[simp] theorem hbm_hbmPut (a : Nat) (bs : List Byte) (s : State) : (hbmPut a bs s).hbm = memPuts s.hbm a bs := rfl
@[simp] theorem getInst_hostPut (a : Nat) (bs : List Byte) (s : State) (i : InstId) : getInst (hostPut a bs s) i = getInst s i := by cases i <;> rfl
@[simp] theorem host_hostPut (a : Nat) (bs : List Byte) (s : State) : (hostPut a bs s).host = memPuts s.host a bs := rfl

/-! ### The fields of the State that an update leaves -/

@[simp] theorem modInst_powered (i : InstId) (f : Inst → Inst) (s : State) : (modInst i f s).powered = s.powered := by cases i <;> rfl
@[simp] theorem modInst_tick (i : InstId) (f : Inst → Inst) (s : State) : (modInst i f s).tick = s.tick := by cases i <;> rfl
@[simp] theorem modInst_outposts (i : InstId) (f : Inst → Inst) (s : State) : (modInst i f s).outposts = s.outposts := by cases i <;> rfl
@[simp] theorem modInst_flash (i : InstId) (f : Inst → Inst) (s : State) : (modInst i f s).flash = s.flash := by cases i <;> rfl
@[simp] theorem modInst_cap (i : InstId) (f : Inst → Inst) (s : State) : (modInst i f s).cap = s.cap := by cases i <;> rfl
@[simp] theorem modInst_hbm (i : InstId) (f : Inst → Inst) (s : State) : (modInst i f s).hbm = s.hbm := by cases i <;> rfl
@[simp] theorem modInst_host (i : InstId) (f : Inst → Inst) (s : State) : (modInst i f s).host = s.host := by cases i <;> rfl
@[simp] theorem modInst_pathUp (i : InstId) (f : Inst → Inst) (s : State) : (modInst i f s).pathUp = s.pathUp := by cases i <;> rfl
@[simp] theorem modInst_calib (i : InstId) (f : Inst → Inst) (s : State) : (modInst i f s).calib = s.calib := by cases i <;> rfl
@[simp] theorem modInst_board (i : InstId) (f : Inst → Inst) (s : State) : (modInst i f s).board = s.board := by cases i <;> rfl
@[simp] theorem modInst_msix (i : InstId) (f : Inst → Inst) (s : State) : (modInst i f s).msix = s.msix := by cases i <;> rfl
@[simp] theorem modInst_notices (i : InstId) (f : Inst → Inst) (s : State) : (modInst i f s).notices = s.notices := by cases i <;> rfl
@[simp] theorem modInst_busData (i : InstId) (f : Inst → Inst) (s : State) : (modInst i f s).busData = s.busData := by cases i <;> rfl
@[simp] theorem modInst_free (i : InstId) (f : Inst → Inst) (s : State) : (modInst i f s).free = s.free := by cases i <;> rfl
@[simp] theorem modInst_pending (i : InstId) (f : Inst → Inst) (s : State) : (modInst i f s).pending = s.pending := by cases i <;> rfl

@[simp] theorem modMir_powered (i : InstId) (f : Mirrored → Mirrored) (s : State) : (modMir i f s).powered = s.powered := by cases i <;> rfl
@[simp] theorem modMir_tick (i : InstId) (f : Mirrored → Mirrored) (s : State) : (modMir i f s).tick = s.tick := by cases i <;> rfl
@[simp] theorem modMir_outposts (i : InstId) (f : Mirrored → Mirrored) (s : State) : (modMir i f s).outposts = s.outposts := by cases i <;> rfl
@[simp] theorem modMir_flash (i : InstId) (f : Mirrored → Mirrored) (s : State) : (modMir i f s).flash = s.flash := by cases i <;> rfl
@[simp] theorem modMir_cap (i : InstId) (f : Mirrored → Mirrored) (s : State) : (modMir i f s).cap = s.cap := by cases i <;> rfl
@[simp] theorem modMir_hbm (i : InstId) (f : Mirrored → Mirrored) (s : State) : (modMir i f s).hbm = s.hbm := by cases i <;> rfl
@[simp] theorem modMir_host (i : InstId) (f : Mirrored → Mirrored) (s : State) : (modMir i f s).host = s.host := by cases i <;> rfl
@[simp] theorem modMir_pathUp (i : InstId) (f : Mirrored → Mirrored) (s : State) : (modMir i f s).pathUp = s.pathUp := by cases i <;> rfl
@[simp] theorem modMir_calib (i : InstId) (f : Mirrored → Mirrored) (s : State) : (modMir i f s).calib = s.calib := by cases i <;> rfl
@[simp] theorem modMir_board (i : InstId) (f : Mirrored → Mirrored) (s : State) : (modMir i f s).board = s.board := by cases i <;> rfl
@[simp] theorem modMir_msix (i : InstId) (f : Mirrored → Mirrored) (s : State) : (modMir i f s).msix = s.msix := by cases i <;> rfl
@[simp] theorem modMir_notices (i : InstId) (f : Mirrored → Mirrored) (s : State) : (modMir i f s).notices = s.notices := by cases i <;> rfl
@[simp] theorem modMir_busData (i : InstId) (f : Mirrored → Mirrored) (s : State) : (modMir i f s).busData = s.busData := by cases i <;> rfl
@[simp] theorem modMir_free (i : InstId) (f : Mirrored → Mirrored) (s : State) : (modMir i f s).free = s.free := by cases i <;> rfl
@[simp] theorem modMir_pending (i : InstId) (f : Mirrored → Mirrored) (s : State) : (modMir i f s).pending = s.pending := by cases i <;> rfl

@[simp] theorem modHearth_powered (i : InstId) (f : Hearth → Hearth) (s : State) : (modHearth i f s).powered = s.powered := by cases i <;> rfl
@[simp] theorem modHearth_tick (i : InstId) (f : Hearth → Hearth) (s : State) : (modHearth i f s).tick = s.tick := by cases i <;> rfl
@[simp] theorem modHearth_outposts (i : InstId) (f : Hearth → Hearth) (s : State) : (modHearth i f s).outposts = s.outposts := by cases i <;> rfl
@[simp] theorem modHearth_flash (i : InstId) (f : Hearth → Hearth) (s : State) : (modHearth i f s).flash = s.flash := by cases i <;> rfl
@[simp] theorem modHearth_cap (i : InstId) (f : Hearth → Hearth) (s : State) : (modHearth i f s).cap = s.cap := by cases i <;> rfl
@[simp] theorem modHearth_hbm (i : InstId) (f : Hearth → Hearth) (s : State) : (modHearth i f s).hbm = s.hbm := by cases i <;> rfl
@[simp] theorem modHearth_host (i : InstId) (f : Hearth → Hearth) (s : State) : (modHearth i f s).host = s.host := by cases i <;> rfl
@[simp] theorem modHearth_pathUp (i : InstId) (f : Hearth → Hearth) (s : State) : (modHearth i f s).pathUp = s.pathUp := by cases i <;> rfl
@[simp] theorem modHearth_calib (i : InstId) (f : Hearth → Hearth) (s : State) : (modHearth i f s).calib = s.calib := by cases i <;> rfl
@[simp] theorem modHearth_board (i : InstId) (f : Hearth → Hearth) (s : State) : (modHearth i f s).board = s.board := by cases i <;> rfl
@[simp] theorem modHearth_msix (i : InstId) (f : Hearth → Hearth) (s : State) : (modHearth i f s).msix = s.msix := by cases i <;> rfl
@[simp] theorem modHearth_notices (i : InstId) (f : Hearth → Hearth) (s : State) : (modHearth i f s).notices = s.notices := by cases i <;> rfl
@[simp] theorem modHearth_busData (i : InstId) (f : Hearth → Hearth) (s : State) : (modHearth i f s).busData = s.busData := by cases i <;> rfl
@[simp] theorem modHearth_free (i : InstId) (f : Hearth → Hearth) (s : State) : (modHearth i f s).free = s.free := by cases i <;> rfl
@[simp] theorem modHearth_pending (i : InstId) (f : Hearth → Hearth) (s : State) : (modHearth i f s).pending = s.pending := by cases i <;> rfl

@[simp] theorem modHall_powered (i : InstId) (f : Hallway → Hallway) (s : State) : (modHall i f s).powered = s.powered := by cases i <;> rfl
@[simp] theorem modHall_tick (i : InstId) (f : Hallway → Hallway) (s : State) : (modHall i f s).tick = s.tick := by cases i <;> rfl
@[simp] theorem modHall_outposts (i : InstId) (f : Hallway → Hallway) (s : State) : (modHall i f s).outposts = s.outposts := by cases i <;> rfl
@[simp] theorem modHall_flash (i : InstId) (f : Hallway → Hallway) (s : State) : (modHall i f s).flash = s.flash := by cases i <;> rfl
@[simp] theorem modHall_cap (i : InstId) (f : Hallway → Hallway) (s : State) : (modHall i f s).cap = s.cap := by cases i <;> rfl
@[simp] theorem modHall_hbm (i : InstId) (f : Hallway → Hallway) (s : State) : (modHall i f s).hbm = s.hbm := by cases i <;> rfl
@[simp] theorem modHall_host (i : InstId) (f : Hallway → Hallway) (s : State) : (modHall i f s).host = s.host := by cases i <;> rfl
@[simp] theorem modHall_pathUp (i : InstId) (f : Hallway → Hallway) (s : State) : (modHall i f s).pathUp = s.pathUp := by cases i <;> rfl
@[simp] theorem modHall_calib (i : InstId) (f : Hallway → Hallway) (s : State) : (modHall i f s).calib = s.calib := by cases i <;> rfl
@[simp] theorem modHall_board (i : InstId) (f : Hallway → Hallway) (s : State) : (modHall i f s).board = s.board := by cases i <;> rfl
@[simp] theorem modHall_msix (i : InstId) (f : Hallway → Hallway) (s : State) : (modHall i f s).msix = s.msix := by cases i <;> rfl
@[simp] theorem modHall_notices (i : InstId) (f : Hallway → Hallway) (s : State) : (modHall i f s).notices = s.notices := by cases i <;> rfl
@[simp] theorem modHall_busData (i : InstId) (f : Hallway → Hallway) (s : State) : (modHall i f s).busData = s.busData := by cases i <;> rfl
@[simp] theorem modHall_free (i : InstId) (f : Hallway → Hallway) (s : State) : (modHall i f s).free = s.free := by cases i <;> rfl
@[simp] theorem modHall_pending (i : InstId) (f : Hallway → Hallway) (s : State) : (modHall i f s).pending = s.pending := by cases i <;> rfl

@[simp] theorem modStair_powered (i : InstId) (f : Stairwell → Stairwell) (s : State) : (modStair i f s).powered = s.powered := by cases i <;> rfl
@[simp] theorem modStair_tick (i : InstId) (f : Stairwell → Stairwell) (s : State) : (modStair i f s).tick = s.tick := by cases i <;> rfl
@[simp] theorem modStair_outposts (i : InstId) (f : Stairwell → Stairwell) (s : State) : (modStair i f s).outposts = s.outposts := by cases i <;> rfl
@[simp] theorem modStair_flash (i : InstId) (f : Stairwell → Stairwell) (s : State) : (modStair i f s).flash = s.flash := by cases i <;> rfl
@[simp] theorem modStair_cap (i : InstId) (f : Stairwell → Stairwell) (s : State) : (modStair i f s).cap = s.cap := by cases i <;> rfl
@[simp] theorem modStair_hbm (i : InstId) (f : Stairwell → Stairwell) (s : State) : (modStair i f s).hbm = s.hbm := by cases i <;> rfl
@[simp] theorem modStair_host (i : InstId) (f : Stairwell → Stairwell) (s : State) : (modStair i f s).host = s.host := by cases i <;> rfl
@[simp] theorem modStair_pathUp (i : InstId) (f : Stairwell → Stairwell) (s : State) : (modStair i f s).pathUp = s.pathUp := by cases i <;> rfl
@[simp] theorem modStair_calib (i : InstId) (f : Stairwell → Stairwell) (s : State) : (modStair i f s).calib = s.calib := by cases i <;> rfl
@[simp] theorem modStair_board (i : InstId) (f : Stairwell → Stairwell) (s : State) : (modStair i f s).board = s.board := by cases i <;> rfl
@[simp] theorem modStair_msix (i : InstId) (f : Stairwell → Stairwell) (s : State) : (modStair i f s).msix = s.msix := by cases i <;> rfl
@[simp] theorem modStair_notices (i : InstId) (f : Stairwell → Stairwell) (s : State) : (modStair i f s).notices = s.notices := by cases i <;> rfl
@[simp] theorem modStair_busData (i : InstId) (f : Stairwell → Stairwell) (s : State) : (modStair i f s).busData = s.busData := by cases i <;> rfl
@[simp] theorem modStair_free (i : InstId) (f : Stairwell → Stairwell) (s : State) : (modStair i f s).free = s.free := by cases i <;> rfl
@[simp] theorem modStair_pending (i : InstId) (f : Stairwell → Stairwell) (s : State) : (modStair i f s).pending = s.pending := by cases i <;> rfl

@[simp] theorem modRel_powered (i : InstId) (f : Reliability → Reliability) (s : State) : (modRel i f s).powered = s.powered := by cases i <;> rfl
@[simp] theorem modRel_tick (i : InstId) (f : Reliability → Reliability) (s : State) : (modRel i f s).tick = s.tick := by cases i <;> rfl
@[simp] theorem modRel_outposts (i : InstId) (f : Reliability → Reliability) (s : State) : (modRel i f s).outposts = s.outposts := by cases i <;> rfl
@[simp] theorem modRel_flash (i : InstId) (f : Reliability → Reliability) (s : State) : (modRel i f s).flash = s.flash := by cases i <;> rfl
@[simp] theorem modRel_cap (i : InstId) (f : Reliability → Reliability) (s : State) : (modRel i f s).cap = s.cap := by cases i <;> rfl
@[simp] theorem modRel_hbm (i : InstId) (f : Reliability → Reliability) (s : State) : (modRel i f s).hbm = s.hbm := by cases i <;> rfl
@[simp] theorem modRel_host (i : InstId) (f : Reliability → Reliability) (s : State) : (modRel i f s).host = s.host := by cases i <;> rfl
@[simp] theorem modRel_pathUp (i : InstId) (f : Reliability → Reliability) (s : State) : (modRel i f s).pathUp = s.pathUp := by cases i <;> rfl
@[simp] theorem modRel_calib (i : InstId) (f : Reliability → Reliability) (s : State) : (modRel i f s).calib = s.calib := by cases i <;> rfl
@[simp] theorem modRel_board (i : InstId) (f : Reliability → Reliability) (s : State) : (modRel i f s).board = s.board := by cases i <;> rfl
@[simp] theorem modRel_msix (i : InstId) (f : Reliability → Reliability) (s : State) : (modRel i f s).msix = s.msix := by cases i <;> rfl
@[simp] theorem modRel_notices (i : InstId) (f : Reliability → Reliability) (s : State) : (modRel i f s).notices = s.notices := by cases i <;> rfl
@[simp] theorem modRel_busData (i : InstId) (f : Reliability → Reliability) (s : State) : (modRel i f s).busData = s.busData := by cases i <;> rfl
@[simp] theorem modRel_free (i : InstId) (f : Reliability → Reliability) (s : State) : (modRel i f s).free = s.free := by cases i <;> rfl
@[simp] theorem modRel_pending (i : InstId) (f : Reliability → Reliability) (s : State) : (modRel i f s).pending = s.pending := by cases i <;> rfl

@[simp] theorem modStudy_powered (i : InstId) (f : Study → Study) (s : State) : (modStudy i f s).powered = s.powered := by cases i <;> rfl
@[simp] theorem modStudy_tick (i : InstId) (f : Study → Study) (s : State) : (modStudy i f s).tick = s.tick := by cases i <;> rfl
@[simp] theorem modStudy_outposts (i : InstId) (f : Study → Study) (s : State) : (modStudy i f s).outposts = s.outposts := by cases i <;> rfl
@[simp] theorem modStudy_flash (i : InstId) (f : Study → Study) (s : State) : (modStudy i f s).flash = s.flash := by cases i <;> rfl
@[simp] theorem modStudy_cap (i : InstId) (f : Study → Study) (s : State) : (modStudy i f s).cap = s.cap := by cases i <;> rfl
@[simp] theorem modStudy_hbm (i : InstId) (f : Study → Study) (s : State) : (modStudy i f s).hbm = s.hbm := by cases i <;> rfl
@[simp] theorem modStudy_host (i : InstId) (f : Study → Study) (s : State) : (modStudy i f s).host = s.host := by cases i <;> rfl
@[simp] theorem modStudy_pathUp (i : InstId) (f : Study → Study) (s : State) : (modStudy i f s).pathUp = s.pathUp := by cases i <;> rfl
@[simp] theorem modStudy_calib (i : InstId) (f : Study → Study) (s : State) : (modStudy i f s).calib = s.calib := by cases i <;> rfl
@[simp] theorem modStudy_board (i : InstId) (f : Study → Study) (s : State) : (modStudy i f s).board = s.board := by cases i <;> rfl
@[simp] theorem modStudy_msix (i : InstId) (f : Study → Study) (s : State) : (modStudy i f s).msix = s.msix := by cases i <;> rfl
@[simp] theorem modStudy_notices (i : InstId) (f : Study → Study) (s : State) : (modStudy i f s).notices = s.notices := by cases i <;> rfl
@[simp] theorem modStudy_busData (i : InstId) (f : Study → Study) (s : State) : (modStudy i f s).busData = s.busData := by cases i <;> rfl
@[simp] theorem modStudy_free (i : InstId) (f : Study → Study) (s : State) : (modStudy i f s).free = s.free := by cases i <;> rfl
@[simp] theorem modStudy_pending (i : InstId) (f : Study → Study) (s : State) : (modStudy i f s).pending = s.pending := by cases i <;> rfl

@[simp] theorem modKit_powered (i : InstId) (f : Kitchen → Kitchen) (s : State) : (modKit i f s).powered = s.powered := by cases i <;> rfl
@[simp] theorem modKit_tick (i : InstId) (f : Kitchen → Kitchen) (s : State) : (modKit i f s).tick = s.tick := by cases i <;> rfl
@[simp] theorem modKit_outposts (i : InstId) (f : Kitchen → Kitchen) (s : State) : (modKit i f s).outposts = s.outposts := by cases i <;> rfl
@[simp] theorem modKit_flash (i : InstId) (f : Kitchen → Kitchen) (s : State) : (modKit i f s).flash = s.flash := by cases i <;> rfl
@[simp] theorem modKit_cap (i : InstId) (f : Kitchen → Kitchen) (s : State) : (modKit i f s).cap = s.cap := by cases i <;> rfl
@[simp] theorem modKit_hbm (i : InstId) (f : Kitchen → Kitchen) (s : State) : (modKit i f s).hbm = s.hbm := by cases i <;> rfl
@[simp] theorem modKit_host (i : InstId) (f : Kitchen → Kitchen) (s : State) : (modKit i f s).host = s.host := by cases i <;> rfl
@[simp] theorem modKit_pathUp (i : InstId) (f : Kitchen → Kitchen) (s : State) : (modKit i f s).pathUp = s.pathUp := by cases i <;> rfl
@[simp] theorem modKit_calib (i : InstId) (f : Kitchen → Kitchen) (s : State) : (modKit i f s).calib = s.calib := by cases i <;> rfl
@[simp] theorem modKit_board (i : InstId) (f : Kitchen → Kitchen) (s : State) : (modKit i f s).board = s.board := by cases i <;> rfl
@[simp] theorem modKit_msix (i : InstId) (f : Kitchen → Kitchen) (s : State) : (modKit i f s).msix = s.msix := by cases i <;> rfl
@[simp] theorem modKit_notices (i : InstId) (f : Kitchen → Kitchen) (s : State) : (modKit i f s).notices = s.notices := by cases i <;> rfl
@[simp] theorem modKit_busData (i : InstId) (f : Kitchen → Kitchen) (s : State) : (modKit i f s).busData = s.busData := by cases i <;> rfl
@[simp] theorem modKit_free (i : InstId) (f : Kitchen → Kitchen) (s : State) : (modKit i f s).free = s.free := by cases i <;> rfl
@[simp] theorem modKit_pending (i : InstId) (f : Kitchen → Kitchen) (s : State) : (modKit i f s).pending = s.pending := by cases i <;> rfl

@[simp] theorem modFoyer_powered (i : InstId) (f : Foyer → Foyer) (s : State) : (modFoyer i f s).powered = s.powered := by cases i <;> rfl
@[simp] theorem modFoyer_tick (i : InstId) (f : Foyer → Foyer) (s : State) : (modFoyer i f s).tick = s.tick := by cases i <;> rfl
@[simp] theorem modFoyer_outposts (i : InstId) (f : Foyer → Foyer) (s : State) : (modFoyer i f s).outposts = s.outposts := by cases i <;> rfl
@[simp] theorem modFoyer_flash (i : InstId) (f : Foyer → Foyer) (s : State) : (modFoyer i f s).flash = s.flash := by cases i <;> rfl
@[simp] theorem modFoyer_cap (i : InstId) (f : Foyer → Foyer) (s : State) : (modFoyer i f s).cap = s.cap := by cases i <;> rfl
@[simp] theorem modFoyer_hbm (i : InstId) (f : Foyer → Foyer) (s : State) : (modFoyer i f s).hbm = s.hbm := by cases i <;> rfl
@[simp] theorem modFoyer_host (i : InstId) (f : Foyer → Foyer) (s : State) : (modFoyer i f s).host = s.host := by cases i <;> rfl
@[simp] theorem modFoyer_pathUp (i : InstId) (f : Foyer → Foyer) (s : State) : (modFoyer i f s).pathUp = s.pathUp := by cases i <;> rfl
@[simp] theorem modFoyer_calib (i : InstId) (f : Foyer → Foyer) (s : State) : (modFoyer i f s).calib = s.calib := by cases i <;> rfl
@[simp] theorem modFoyer_board (i : InstId) (f : Foyer → Foyer) (s : State) : (modFoyer i f s).board = s.board := by cases i <;> rfl
@[simp] theorem modFoyer_msix (i : InstId) (f : Foyer → Foyer) (s : State) : (modFoyer i f s).msix = s.msix := by cases i <;> rfl
@[simp] theorem modFoyer_notices (i : InstId) (f : Foyer → Foyer) (s : State) : (modFoyer i f s).notices = s.notices := by cases i <;> rfl
@[simp] theorem modFoyer_busData (i : InstId) (f : Foyer → Foyer) (s : State) : (modFoyer i f s).busData = s.busData := by cases i <;> rfl
@[simp] theorem modFoyer_free (i : InstId) (f : Foyer → Foyer) (s : State) : (modFoyer i f s).free = s.free := by cases i <;> rfl
@[simp] theorem modFoyer_pending (i : InstId) (f : Foyer → Foyer) (s : State) : (modFoyer i f s).pending = s.pending := by cases i <;> rfl

@[simp] theorem modDir_powered (i : InstId) (f : Directory → Directory) (s : State) : (modDir i f s).powered = s.powered := by cases i <;> rfl
@[simp] theorem modDir_tick (i : InstId) (f : Directory → Directory) (s : State) : (modDir i f s).tick = s.tick := by cases i <;> rfl
@[simp] theorem modDir_outposts (i : InstId) (f : Directory → Directory) (s : State) : (modDir i f s).outposts = s.outposts := by cases i <;> rfl
@[simp] theorem modDir_flash (i : InstId) (f : Directory → Directory) (s : State) : (modDir i f s).flash = s.flash := by cases i <;> rfl
@[simp] theorem modDir_cap (i : InstId) (f : Directory → Directory) (s : State) : (modDir i f s).cap = s.cap := by cases i <;> rfl
@[simp] theorem modDir_hbm (i : InstId) (f : Directory → Directory) (s : State) : (modDir i f s).hbm = s.hbm := by cases i <;> rfl
@[simp] theorem modDir_host (i : InstId) (f : Directory → Directory) (s : State) : (modDir i f s).host = s.host := by cases i <;> rfl
@[simp] theorem modDir_pathUp (i : InstId) (f : Directory → Directory) (s : State) : (modDir i f s).pathUp = s.pathUp := by cases i <;> rfl
@[simp] theorem modDir_calib (i : InstId) (f : Directory → Directory) (s : State) : (modDir i f s).calib = s.calib := by cases i <;> rfl
@[simp] theorem modDir_board (i : InstId) (f : Directory → Directory) (s : State) : (modDir i f s).board = s.board := by cases i <;> rfl
@[simp] theorem modDir_msix (i : InstId) (f : Directory → Directory) (s : State) : (modDir i f s).msix = s.msix := by cases i <;> rfl
@[simp] theorem modDir_notices (i : InstId) (f : Directory → Directory) (s : State) : (modDir i f s).notices = s.notices := by cases i <;> rfl
@[simp] theorem modDir_busData (i : InstId) (f : Directory → Directory) (s : State) : (modDir i f s).busData = s.busData := by cases i <;> rfl
@[simp] theorem modDir_free (i : InstId) (f : Directory → Directory) (s : State) : (modDir i f s).free = s.free := by cases i <;> rfl
@[simp] theorem modDir_pending (i : InstId) (f : Directory → Directory) (s : State) : (modDir i f s).pending = s.pending := by cases i <;> rfl

@[simp] theorem modLib_powered (i : InstId) (f : Library → Library) (s : State) : (modLib i f s).powered = s.powered := by cases i <;> rfl
@[simp] theorem modLib_tick (i : InstId) (f : Library → Library) (s : State) : (modLib i f s).tick = s.tick := by cases i <;> rfl
@[simp] theorem modLib_outposts (i : InstId) (f : Library → Library) (s : State) : (modLib i f s).outposts = s.outposts := by cases i <;> rfl
@[simp] theorem modLib_flash (i : InstId) (f : Library → Library) (s : State) : (modLib i f s).flash = s.flash := by cases i <;> rfl
@[simp] theorem modLib_cap (i : InstId) (f : Library → Library) (s : State) : (modLib i f s).cap = s.cap := by cases i <;> rfl
@[simp] theorem modLib_hbm (i : InstId) (f : Library → Library) (s : State) : (modLib i f s).hbm = s.hbm := by cases i <;> rfl
@[simp] theorem modLib_host (i : InstId) (f : Library → Library) (s : State) : (modLib i f s).host = s.host := by cases i <;> rfl
@[simp] theorem modLib_pathUp (i : InstId) (f : Library → Library) (s : State) : (modLib i f s).pathUp = s.pathUp := by cases i <;> rfl
@[simp] theorem modLib_calib (i : InstId) (f : Library → Library) (s : State) : (modLib i f s).calib = s.calib := by cases i <;> rfl
@[simp] theorem modLib_board (i : InstId) (f : Library → Library) (s : State) : (modLib i f s).board = s.board := by cases i <;> rfl
@[simp] theorem modLib_msix (i : InstId) (f : Library → Library) (s : State) : (modLib i f s).msix = s.msix := by cases i <;> rfl
@[simp] theorem modLib_notices (i : InstId) (f : Library → Library) (s : State) : (modLib i f s).notices = s.notices := by cases i <;> rfl
@[simp] theorem modLib_busData (i : InstId) (f : Library → Library) (s : State) : (modLib i f s).busData = s.busData := by cases i <;> rfl
@[simp] theorem modLib_free (i : InstId) (f : Library → Library) (s : State) : (modLib i f s).free = s.free := by cases i <;> rfl
@[simp] theorem modLib_pending (i : InstId) (f : Library → Library) (s : State) : (modLib i f s).pending = s.pending := by cases i <;> rfl

@[simp] theorem modPantry_powered (i : InstId) (f : Pantry → Pantry) (s : State) : (modPantry i f s).powered = s.powered := by cases i <;> rfl
@[simp] theorem modPantry_tick (i : InstId) (f : Pantry → Pantry) (s : State) : (modPantry i f s).tick = s.tick := by cases i <;> rfl
@[simp] theorem modPantry_outposts (i : InstId) (f : Pantry → Pantry) (s : State) : (modPantry i f s).outposts = s.outposts := by cases i <;> rfl
@[simp] theorem modPantry_flash (i : InstId) (f : Pantry → Pantry) (s : State) : (modPantry i f s).flash = s.flash := by cases i <;> rfl
@[simp] theorem modPantry_cap (i : InstId) (f : Pantry → Pantry) (s : State) : (modPantry i f s).cap = s.cap := by cases i <;> rfl
@[simp] theorem modPantry_hbm (i : InstId) (f : Pantry → Pantry) (s : State) : (modPantry i f s).hbm = s.hbm := by cases i <;> rfl
@[simp] theorem modPantry_host (i : InstId) (f : Pantry → Pantry) (s : State) : (modPantry i f s).host = s.host := by cases i <;> rfl
@[simp] theorem modPantry_pathUp (i : InstId) (f : Pantry → Pantry) (s : State) : (modPantry i f s).pathUp = s.pathUp := by cases i <;> rfl
@[simp] theorem modPantry_calib (i : InstId) (f : Pantry → Pantry) (s : State) : (modPantry i f s).calib = s.calib := by cases i <;> rfl
@[simp] theorem modPantry_board (i : InstId) (f : Pantry → Pantry) (s : State) : (modPantry i f s).board = s.board := by cases i <;> rfl
@[simp] theorem modPantry_msix (i : InstId) (f : Pantry → Pantry) (s : State) : (modPantry i f s).msix = s.msix := by cases i <;> rfl
@[simp] theorem modPantry_notices (i : InstId) (f : Pantry → Pantry) (s : State) : (modPantry i f s).notices = s.notices := by cases i <;> rfl
@[simp] theorem modPantry_busData (i : InstId) (f : Pantry → Pantry) (s : State) : (modPantry i f s).busData = s.busData := by cases i <;> rfl
@[simp] theorem modPantry_free (i : InstId) (f : Pantry → Pantry) (s : State) : (modPantry i f s).free = s.free := by cases i <;> rfl
@[simp] theorem modPantry_pending (i : InstId) (f : Pantry → Pantry) (s : State) : (modPantry i f s).pending = s.pending := by cases i <;> rfl

@[simp] theorem modCtx_powered (i : InstId) (k : Nat) (f : Ctx → Ctx) (s : State) : (modCtx i k f s).powered = s.powered := by cases i <;> rfl
@[simp] theorem modCtx_tick (i : InstId) (k : Nat) (f : Ctx → Ctx) (s : State) : (modCtx i k f s).tick = s.tick := by cases i <;> rfl
@[simp] theorem modCtx_outposts (i : InstId) (k : Nat) (f : Ctx → Ctx) (s : State) : (modCtx i k f s).outposts = s.outposts := by cases i <;> rfl
@[simp] theorem modCtx_flash (i : InstId) (k : Nat) (f : Ctx → Ctx) (s : State) : (modCtx i k f s).flash = s.flash := by cases i <;> rfl
@[simp] theorem modCtx_cap (i : InstId) (k : Nat) (f : Ctx → Ctx) (s : State) : (modCtx i k f s).cap = s.cap := by cases i <;> rfl
@[simp] theorem modCtx_hbm (i : InstId) (k : Nat) (f : Ctx → Ctx) (s : State) : (modCtx i k f s).hbm = s.hbm := by cases i <;> rfl
@[simp] theorem modCtx_host (i : InstId) (k : Nat) (f : Ctx → Ctx) (s : State) : (modCtx i k f s).host = s.host := by cases i <;> rfl
@[simp] theorem modCtx_pathUp (i : InstId) (k : Nat) (f : Ctx → Ctx) (s : State) : (modCtx i k f s).pathUp = s.pathUp := by cases i <;> rfl
@[simp] theorem modCtx_calib (i : InstId) (k : Nat) (f : Ctx → Ctx) (s : State) : (modCtx i k f s).calib = s.calib := by cases i <;> rfl
@[simp] theorem modCtx_board (i : InstId) (k : Nat) (f : Ctx → Ctx) (s : State) : (modCtx i k f s).board = s.board := by cases i <;> rfl
@[simp] theorem modCtx_msix (i : InstId) (k : Nat) (f : Ctx → Ctx) (s : State) : (modCtx i k f s).msix = s.msix := by cases i <;> rfl
@[simp] theorem modCtx_notices (i : InstId) (k : Nat) (f : Ctx → Ctx) (s : State) : (modCtx i k f s).notices = s.notices := by cases i <;> rfl
@[simp] theorem modCtx_busData (i : InstId) (k : Nat) (f : Ctx → Ctx) (s : State) : (modCtx i k f s).busData = s.busData := by cases i <;> rfl
@[simp] theorem modCtx_free (i : InstId) (k : Nat) (f : Ctx → Ctx) (s : State) : (modCtx i k f s).free = s.free := by cases i <;> rfl
@[simp] theorem modCtx_pending (i : InstId) (k : Nat) (f : Ctx → Ctx) (s : State) : (modCtx i k f s).pending = s.pending := by cases i <;> rfl

@[simp] theorem modWin_powered (i : InstId) (k : Nat) (f : Window → Window) (s : State) : (modWin i k f s).powered = s.powered := by cases i <;> rfl
@[simp] theorem modWin_tick (i : InstId) (k : Nat) (f : Window → Window) (s : State) : (modWin i k f s).tick = s.tick := by cases i <;> rfl
@[simp] theorem modWin_outposts (i : InstId) (k : Nat) (f : Window → Window) (s : State) : (modWin i k f s).outposts = s.outposts := by cases i <;> rfl
@[simp] theorem modWin_flash (i : InstId) (k : Nat) (f : Window → Window) (s : State) : (modWin i k f s).flash = s.flash := by cases i <;> rfl
@[simp] theorem modWin_cap (i : InstId) (k : Nat) (f : Window → Window) (s : State) : (modWin i k f s).cap = s.cap := by cases i <;> rfl
@[simp] theorem modWin_hbm (i : InstId) (k : Nat) (f : Window → Window) (s : State) : (modWin i k f s).hbm = s.hbm := by cases i <;> rfl
@[simp] theorem modWin_host (i : InstId) (k : Nat) (f : Window → Window) (s : State) : (modWin i k f s).host = s.host := by cases i <;> rfl
@[simp] theorem modWin_pathUp (i : InstId) (k : Nat) (f : Window → Window) (s : State) : (modWin i k f s).pathUp = s.pathUp := by cases i <;> rfl
@[simp] theorem modWin_calib (i : InstId) (k : Nat) (f : Window → Window) (s : State) : (modWin i k f s).calib = s.calib := by cases i <;> rfl
@[simp] theorem modWin_board (i : InstId) (k : Nat) (f : Window → Window) (s : State) : (modWin i k f s).board = s.board := by cases i <;> rfl
@[simp] theorem modWin_msix (i : InstId) (k : Nat) (f : Window → Window) (s : State) : (modWin i k f s).msix = s.msix := by cases i <;> rfl
@[simp] theorem modWin_notices (i : InstId) (k : Nat) (f : Window → Window) (s : State) : (modWin i k f s).notices = s.notices := by cases i <;> rfl
@[simp] theorem modWin_busData (i : InstId) (k : Nat) (f : Window → Window) (s : State) : (modWin i k f s).busData = s.busData := by cases i <;> rfl
@[simp] theorem modWin_free (i : InstId) (k : Nat) (f : Window → Window) (s : State) : (modWin i k f s).free = s.free := by cases i <;> rfl
@[simp] theorem modWin_pending (i : InstId) (k : Nat) (f : Window → Window) (s : State) : (modWin i k f s).pending = s.pending := by cases i <;> rfl

@[simp] theorem modLatch_powered (i : InstId) (k : Nat) (f : Latch → Latch) (s : State) : (modLatch i k f s).powered = s.powered := by cases i <;> rfl
@[simp] theorem modLatch_tick (i : InstId) (k : Nat) (f : Latch → Latch) (s : State) : (modLatch i k f s).tick = s.tick := by cases i <;> rfl
@[simp] theorem modLatch_outposts (i : InstId) (k : Nat) (f : Latch → Latch) (s : State) : (modLatch i k f s).outposts = s.outposts := by cases i <;> rfl
@[simp] theorem modLatch_flash (i : InstId) (k : Nat) (f : Latch → Latch) (s : State) : (modLatch i k f s).flash = s.flash := by cases i <;> rfl
@[simp] theorem modLatch_cap (i : InstId) (k : Nat) (f : Latch → Latch) (s : State) : (modLatch i k f s).cap = s.cap := by cases i <;> rfl
@[simp] theorem modLatch_hbm (i : InstId) (k : Nat) (f : Latch → Latch) (s : State) : (modLatch i k f s).hbm = s.hbm := by cases i <;> rfl
@[simp] theorem modLatch_host (i : InstId) (k : Nat) (f : Latch → Latch) (s : State) : (modLatch i k f s).host = s.host := by cases i <;> rfl
@[simp] theorem modLatch_pathUp (i : InstId) (k : Nat) (f : Latch → Latch) (s : State) : (modLatch i k f s).pathUp = s.pathUp := by cases i <;> rfl
@[simp] theorem modLatch_calib (i : InstId) (k : Nat) (f : Latch → Latch) (s : State) : (modLatch i k f s).calib = s.calib := by cases i <;> rfl
@[simp] theorem modLatch_board (i : InstId) (k : Nat) (f : Latch → Latch) (s : State) : (modLatch i k f s).board = s.board := by cases i <;> rfl
@[simp] theorem modLatch_msix (i : InstId) (k : Nat) (f : Latch → Latch) (s : State) : (modLatch i k f s).msix = s.msix := by cases i <;> rfl
@[simp] theorem modLatch_notices (i : InstId) (k : Nat) (f : Latch → Latch) (s : State) : (modLatch i k f s).notices = s.notices := by cases i <;> rfl
@[simp] theorem modLatch_busData (i : InstId) (k : Nat) (f : Latch → Latch) (s : State) : (modLatch i k f s).busData = s.busData := by cases i <;> rfl
@[simp] theorem modLatch_free (i : InstId) (k : Nat) (f : Latch → Latch) (s : State) : (modLatch i k f s).free = s.free := by cases i <;> rfl
@[simp] theorem modLatch_pending (i : InstId) (k : Nat) (f : Latch → Latch) (s : State) : (modLatch i k f s).pending = s.pending := by cases i <;> rfl

@[simp] theorem modModel_powered (i : InstId) (k : Nat) (f : Model → Model) (s : State) : (modModel i k f s).powered = s.powered := by cases i <;> rfl
@[simp] theorem modModel_tick (i : InstId) (k : Nat) (f : Model → Model) (s : State) : (modModel i k f s).tick = s.tick := by cases i <;> rfl
@[simp] theorem modModel_outposts (i : InstId) (k : Nat) (f : Model → Model) (s : State) : (modModel i k f s).outposts = s.outposts := by cases i <;> rfl
@[simp] theorem modModel_flash (i : InstId) (k : Nat) (f : Model → Model) (s : State) : (modModel i k f s).flash = s.flash := by cases i <;> rfl
@[simp] theorem modModel_cap (i : InstId) (k : Nat) (f : Model → Model) (s : State) : (modModel i k f s).cap = s.cap := by cases i <;> rfl
@[simp] theorem modModel_hbm (i : InstId) (k : Nat) (f : Model → Model) (s : State) : (modModel i k f s).hbm = s.hbm := by cases i <;> rfl
@[simp] theorem modModel_host (i : InstId) (k : Nat) (f : Model → Model) (s : State) : (modModel i k f s).host = s.host := by cases i <;> rfl
@[simp] theorem modModel_pathUp (i : InstId) (k : Nat) (f : Model → Model) (s : State) : (modModel i k f s).pathUp = s.pathUp := by cases i <;> rfl
@[simp] theorem modModel_calib (i : InstId) (k : Nat) (f : Model → Model) (s : State) : (modModel i k f s).calib = s.calib := by cases i <;> rfl
@[simp] theorem modModel_board (i : InstId) (k : Nat) (f : Model → Model) (s : State) : (modModel i k f s).board = s.board := by cases i <;> rfl
@[simp] theorem modModel_msix (i : InstId) (k : Nat) (f : Model → Model) (s : State) : (modModel i k f s).msix = s.msix := by cases i <;> rfl
@[simp] theorem modModel_notices (i : InstId) (k : Nat) (f : Model → Model) (s : State) : (modModel i k f s).notices = s.notices := by cases i <;> rfl
@[simp] theorem modModel_busData (i : InstId) (k : Nat) (f : Model → Model) (s : State) : (modModel i k f s).busData = s.busData := by cases i <;> rfl
@[simp] theorem modModel_free (i : InstId) (k : Nat) (f : Model → Model) (s : State) : (modModel i k f s).free = s.free := by cases i <;> rfl
@[simp] theorem modModel_pending (i : InstId) (k : Nat) (f : Model → Model) (s : State) : (modModel i k f s).pending = s.pending := by cases i <;> rfl

@[simp] theorem modOutpost_powered (o : Nat) (f : Outpost → Outpost) (s : State) : (modOutpost o f s).powered = s.powered := rfl
@[simp] theorem modOutpost_tick (o : Nat) (f : Outpost → Outpost) (s : State) : (modOutpost o f s).tick = s.tick := rfl
@[simp] theorem modOutpost_flash (o : Nat) (f : Outpost → Outpost) (s : State) : (modOutpost o f s).flash = s.flash := rfl
@[simp] theorem modOutpost_cap (o : Nat) (f : Outpost → Outpost) (s : State) : (modOutpost o f s).cap = s.cap := rfl
@[simp] theorem modOutpost_hbm (o : Nat) (f : Outpost → Outpost) (s : State) : (modOutpost o f s).hbm = s.hbm := rfl
@[simp] theorem modOutpost_host (o : Nat) (f : Outpost → Outpost) (s : State) : (modOutpost o f s).host = s.host := rfl
@[simp] theorem modOutpost_pathUp (o : Nat) (f : Outpost → Outpost) (s : State) : (modOutpost o f s).pathUp = s.pathUp := rfl
@[simp] theorem modOutpost_calib (o : Nat) (f : Outpost → Outpost) (s : State) : (modOutpost o f s).calib = s.calib := rfl
@[simp] theorem modOutpost_board (o : Nat) (f : Outpost → Outpost) (s : State) : (modOutpost o f s).board = s.board := rfl
@[simp] theorem modOutpost_msix (o : Nat) (f : Outpost → Outpost) (s : State) : (modOutpost o f s).msix = s.msix := rfl
@[simp] theorem modOutpost_notices (o : Nat) (f : Outpost → Outpost) (s : State) : (modOutpost o f s).notices = s.notices := rfl
@[simp] theorem modOutpost_busData (o : Nat) (f : Outpost → Outpost) (s : State) : (modOutpost o f s).busData = s.busData := rfl
@[simp] theorem modOutpost_free (o : Nat) (f : Outpost → Outpost) (s : State) : (modOutpost o f s).free = s.free := rfl
@[simp] theorem modOutpost_pending (o : Nat) (f : Outpost → Outpost) (s : State) : (modOutpost o f s).pending = s.pending := rfl

@[simp] theorem hbmPut_powered (a : Nat) (bs : List Byte) (s : State) : (hbmPut a bs s).powered = s.powered := rfl
@[simp] theorem hbmPut_tick (a : Nat) (bs : List Byte) (s : State) : (hbmPut a bs s).tick = s.tick := rfl
@[simp] theorem hbmPut_outposts (a : Nat) (bs : List Byte) (s : State) : (hbmPut a bs s).outposts = s.outposts := rfl
@[simp] theorem hbmPut_flash (a : Nat) (bs : List Byte) (s : State) : (hbmPut a bs s).flash = s.flash := rfl
@[simp] theorem hbmPut_cap (a : Nat) (bs : List Byte) (s : State) : (hbmPut a bs s).cap = s.cap := rfl
@[simp] theorem hbmPut_host (a : Nat) (bs : List Byte) (s : State) : (hbmPut a bs s).host = s.host := rfl
@[simp] theorem hbmPut_pathUp (a : Nat) (bs : List Byte) (s : State) : (hbmPut a bs s).pathUp = s.pathUp := rfl
@[simp] theorem hbmPut_calib (a : Nat) (bs : List Byte) (s : State) : (hbmPut a bs s).calib = s.calib := rfl
@[simp] theorem hbmPut_board (a : Nat) (bs : List Byte) (s : State) : (hbmPut a bs s).board = s.board := rfl
@[simp] theorem hbmPut_msix (a : Nat) (bs : List Byte) (s : State) : (hbmPut a bs s).msix = s.msix := rfl
@[simp] theorem hbmPut_notices (a : Nat) (bs : List Byte) (s : State) : (hbmPut a bs s).notices = s.notices := rfl
@[simp] theorem hbmPut_busData (a : Nat) (bs : List Byte) (s : State) : (hbmPut a bs s).busData = s.busData := rfl
@[simp] theorem hbmPut_free (a : Nat) (bs : List Byte) (s : State) : (hbmPut a bs s).free = s.free := rfl
@[simp] theorem hbmPut_pending (a : Nat) (bs : List Byte) (s : State) : (hbmPut a bs s).pending = s.pending := rfl

@[simp] theorem hostPut_powered (a : Nat) (bs : List Byte) (s : State) : (hostPut a bs s).powered = s.powered := rfl
@[simp] theorem hostPut_tick (a : Nat) (bs : List Byte) (s : State) : (hostPut a bs s).tick = s.tick := rfl
@[simp] theorem hostPut_outposts (a : Nat) (bs : List Byte) (s : State) : (hostPut a bs s).outposts = s.outposts := rfl
@[simp] theorem hostPut_flash (a : Nat) (bs : List Byte) (s : State) : (hostPut a bs s).flash = s.flash := rfl
@[simp] theorem hostPut_cap (a : Nat) (bs : List Byte) (s : State) : (hostPut a bs s).cap = s.cap := rfl
@[simp] theorem hostPut_hbm (a : Nat) (bs : List Byte) (s : State) : (hostPut a bs s).hbm = s.hbm := rfl
@[simp] theorem hostPut_pathUp (a : Nat) (bs : List Byte) (s : State) : (hostPut a bs s).pathUp = s.pathUp := rfl
@[simp] theorem hostPut_calib (a : Nat) (bs : List Byte) (s : State) : (hostPut a bs s).calib = s.calib := rfl
@[simp] theorem hostPut_board (a : Nat) (bs : List Byte) (s : State) : (hostPut a bs s).board = s.board := rfl
@[simp] theorem hostPut_msix (a : Nat) (bs : List Byte) (s : State) : (hostPut a bs s).msix = s.msix := rfl
@[simp] theorem hostPut_notices (a : Nat) (bs : List Byte) (s : State) : (hostPut a bs s).notices = s.notices := rfl
@[simp] theorem hostPut_busData (a : Nat) (bs : List Byte) (s : State) : (hostPut a bs s).busData = s.busData := rfl
@[simp] theorem hostPut_free (a : Nat) (bs : List Byte) (s : State) : (hostPut a bs s).free = s.free := rfl
@[simp] theorem hostPut_pending (a : Nat) (bs : List Byte) (s : State) : (hostPut a bs s).pending = s.pending := rfl

/-! ### Entries of the lists -/

theorem modAt_length {α : Type} (f : α → α) : ∀ (l : List α) (k : Nat), (modAt l k f).length = l.length
  | [], _ => rfl
  | _ :: _, 0 => rfl
  | _ :: xs, k + 1 => congrArg (· + 1) (modAt_length f xs k)

theorem getD_modAt {α : Type} (f : α → α) (d : α) : ∀ (l : List α) (k : Nat), k < l.length → (modAt l k f).getD k d = f (l.getD k d)
  | [], k, h => absurd h (Nat.not_lt_zero k)
  | _ :: _, 0, _ => rfl
  | _ :: xs, k + 1, h => getD_modAt f d xs k (Nat.lt_of_succ_lt_succ h)

theorem getD_modAt_ne {α : Type} (f : α → α) (d : α) : ∀ (l : List α) (k j : Nat), j ≠ k → (modAt l k f).getD j d = l.getD j d
  | [], _, _, _ => rfl
  | _ :: _, 0, 0, h => absurd rfl h
  | _ :: _, 0, _ + 1, _ => rfl
  | _ :: _, _ + 1, 0, _ => rfl
  | _ :: xs, k + 1, j + 1, h => getD_modAt_ne f d xs k j (fun e => h (congrArg (· + 1) e))

end Sys2Proof.Laws
end

