-- ==== Sys2Proof/Laws/Events.lean ====
section
/-! SUPPORT. What the release of an event, a change of one sequence and a spent handle leave, once for each, so that the statements about an usher's events unfold none of them. -/

namespace Sys2Proof.Laws
open Sys2Proof Sys2Proof.Machine

/-- What an event's release leaves: all of the machine but its instance's Hallway and event rings. -/
theorem releaseEvent_keeps (i : InstId) (f : Machine.Flow) (s : State) :
    let t := releaseEvent i f s
    mir t i = mir s i ∧ t.hbm = s.hbm ∧ t.host = s.host ∧ t.tick = s.tick ∧ t.free = s.free ∧ t.outposts = s.outposts ∧
      (getInst t i).rel = (getInst s i).rel ∧ (getInst t i).stair = (getInst s i).stair ∧ (getInst t i).place = (getInst s i).place ∧
      (getInst t i).hearth = (getInst s i).hearth ∧ getInst t (Machine.other i) = getInst s (Machine.other i) := by
  intro t
  show _ ∧ _
  unfold t releaseEvent
  cases i <;> split <;> exact ⟨rfl, rfl, rfl, rfl, rfl, rfl, rfl, rfl, rfl, rfl, rfl⟩

@[simp] theorem releaseEvent_mir (i : InstId) (f : Machine.Flow) (s : State) : (getInst (releaseEvent i f s) i).mir = (getInst s i).mir := (releaseEvent_keeps i f s).1
@[simp] theorem releaseEvent_hbm (i : InstId) (f : Machine.Flow) (s : State) : (releaseEvent i f s).hbm = s.hbm := (releaseEvent_keeps i f s).2.1
@[simp] theorem releaseEvent_host (i : InstId) (f : Machine.Flow) (s : State) : (releaseEvent i f s).host = s.host := (releaseEvent_keeps i f s).2.2.1
@[simp] theorem releaseEvent_tick (i : InstId) (f : Machine.Flow) (s : State) : (releaseEvent i f s).tick = s.tick := (releaseEvent_keeps i f s).2.2.2.1
@[simp] theorem releaseEvent_seqOf (i : InstId) (f : Machine.Flow) (l : Nat) (s : State) : seqOf (releaseEvent i f s) i l = seqOf s i l := by
  unfold seqOf; simp

/-- `modSeq` changes the sequences of its id and nothing else. -/
theorem modSeq_keeps (i : InstId) (l : Nat) (f : Seq → Seq) (s : State) :
    let t := modSeq i l f s
    mir t i = mapSeq l f (mir s i) ∧ t.hbm = s.hbm ∧ t.host = s.host ∧ t.tick = s.tick ∧ (getInst t i).hall = (getInst s i).hall ∧
      (getInst t i).rel = (getInst s i).rel ∧ (getInst t i).stair = (getInst s i).stair ∧ getInst t (Machine.other i) = getInst s (Machine.other i) := by
  cases i <;> exact ⟨rfl, rfl, rfl, rfl, rfl, rfl, rfl, rfl⟩

@[simp] theorem modSeq_mir (i : InstId) (l : Nat) (f : Seq → Seq) (s : State) : (getInst (modSeq i l f s) i).mir = mapSeq l f (getInst s i).mir := (modSeq_keeps i l f s).1
@[simp] theorem modSeq_hbm (i : InstId) (l : Nat) (f : Seq → Seq) (s : State) : (modSeq i l f s).hbm = s.hbm := (modSeq_keeps i l f s).2.1

theorem find_map_if {p : Seq → Bool} {f : Seq → Seq} (h : ∀ q, p q = true → p (f q) = true) (l : List Seq) :
    (l.map fun q => if p q then f q else q).find? p = (l.find? p).map f := by
  induction l with
  | nil => rfl
  | cons q t ih =>
    by_cases hq : p q = true
    · simp [hq, h q hq]
    · simp only [Bool.not_eq_true] at hq
      simp [hq, ih]

/-- The sequence of an id after a change of it that keeps the id. -/
theorem findSeq_mapSeq (l : Nat) (f : Seq → Seq) (m : Mirrored) (h : ∀ q, (f q).r.localId = q.r.localId) :
    findSeq (mapSeq l f m) l = (findSeq m l).map f := by
  unfold findSeq mapSeq
  exact find_map_if (p := fun q => q.r.localId == l) (fun q hq => by simpa [h] using hq) m.seqs

end Sys2Proof.Laws
end

