-- ==== Sys2Proof/Laws/Memory.lean ====
section
/-! SUPPORT. The byte memories: every write keeps the canonical form; a byte read after a write is the byte written there, or the byte that stood there. -/

namespace Sys2Proof.Laws

open Sys2Proof Sys2Proof.Machine

/-! ### The canonical form -/

theorem memWfFrom_mono {m : Mem} {a b : Nat} (h : b ≤ a) (w : memWfFrom a m = true) : memWfFrom b m = true := by
  cases m with
  | nil => rfl
  | cons c m => simp only [memWfFrom, Bool.and_eq_true, decide_eq_true_eq] at w ⊢; exact ⟨⟨by omega, w.1.2⟩, w.2⟩

theorem memSet_from (m : Mem) (a : Nat) (v : Byte) : ∀ lo, lo ≤ a → memWfFrom lo m = true → memWfFrom lo (memSet m a v) = true := by
  induction m with
  | nil => intro lo h _; simp only [memSet]; split <;> simp_all [memWfFrom]
  | cons c m ih =>
    intro lo h w
    obtain ⟨k, x⟩ := c
    simp only [memWfFrom, Bool.and_eq_true, decide_eq_true_eq] at w
    obtain ⟨⟨w1, w2⟩, w3⟩ := w
    have hv (e : ¬ v = 0) : (v != 0) = true := by simpa using e
    simp only [memSet]
    split
    · split
      · simp only [memWfFrom, Bool.and_eq_true, decide_eq_true_eq]; exact ⟨⟨w1, w2⟩, w3⟩
      · rename_i _ e
        simp only [memWfFrom, Bool.and_eq_true, decide_eq_true_eq]; exact ⟨⟨h, hv e⟩, ⟨by omega, w2⟩, w3⟩
    · split
      · split
        · exact memWfFrom_mono (by omega) w3
        · rename_i _ e1 e
          subst e1
          simp only [memWfFrom, Bool.and_eq_true, decide_eq_true_eq]; exact ⟨⟨h, hv e⟩, w3⟩
      · simp only [memWfFrom, Bool.and_eq_true, decide_eq_true_eq]; exact ⟨⟨w1, w2⟩, ih (k + 1) (by omega) w3⟩

theorem memSet_wf {m : Mem} (a : Nat) (v : Byte) (h : Machine.Mem.wf m = true) : Machine.Mem.wf (memSet m a v) = true :=
  memSet_from m a v 0 (Nat.zero_le _) h

theorem memPuts_wf (bs : List Byte) : ∀ {m : Mem} (a : Nat), Machine.Mem.wf m = true → Machine.Mem.wf (memPuts m a bs) = true := by
  induction bs with
  | nil => intro m a h; exact h
  | cons b bs ih => intro m a h; exact ih (a + 1) (memSet_wf a b h)

/-! ### Reading after writing -/

theorem memGet_memSet (m : Mem) (a : Nat) (v : Byte) (b : Nat) : ∀ lo, memWfFrom lo m = true →
    memGet (memSet m a v) b = if b = a then v else memGet m b := by
  induction m with
  | nil =>
    intro lo _
    simp only [memSet]
    by_cases hv : v = 0
    · rw [if_pos hv, hv]; simp only [memGet, ite_self]
    · rw [if_neg hv]
      simp only [memGet, eq_comm]
  | cons c m ih =>
    intro lo w
    obtain ⟨k, x⟩ := c
    simp only [memWfFrom, Bool.and_eq_true, decide_eq_true_eq] at w
    have low : ∀ (l : Mem) (n : Nat), memWfFrom n l = true → ∀ b, b < n → memGet l b = 0 := by
      intro l
      induction l with
      | nil => intro _ _ _ _; rfl
      | cons d l ihl =>
        intro n hw b hb
        obtain ⟨k', x'⟩ := d
        simp only [memWfFrom, Bool.and_eq_true, decide_eq_true_eq] at hw
        simp only [memGet]
        rw [if_neg (by omega)]
        exact ihl (k' + 1) hw.2 b (by omega)
    have hlow := low m (k + 1) w.2
    simp only [memSet]
    split
    · split
      · rename_i h1 h2
        by_cases hb : b = a
        · subst hb; simp only [memGet, if_true]; rw [if_neg (by omega), h2]; exact hlow b (by omega)
        · simp only [if_neg hb]
      · by_cases hb : b = a
        · subst hb; simp [memGet]
        · simp only [memGet, if_neg hb, if_neg (Ne.symm hb)]
    · split
      · rename_i h1 h2
        subst h2
        split
        · rename_i h3
          by_cases hb : b = a
          · subst hb; simp only [if_true, h3]; exact hlow b (by omega)
          · simp only [memGet, if_neg hb, if_neg (Ne.symm hb)]
        · by_cases hb : b = a
          · subst hb; simp [memGet]
          · simp only [memGet, if_neg hb, if_neg (Ne.symm hb)]
      · rename_i h1 h2
        by_cases hk : k = b
        · subst hk; simp only [memGet, if_true]; rw [if_neg (by omega)]
        · simp only [memGet, if_neg hk]; exact ih (k + 1) w.2

theorem memGet_set {m : Mem} (h : Machine.Mem.wf m = true) (a : Nat) (v : Byte) (b : Nat) :
    memGet (memSet m a v) b = if b = a then v else memGet m b := memGet_memSet m a v b 0 h

end Sys2Proof.Laws
end

