-- ==== Sys2Proof/Laws/Larder.lean ====
section
/-! SUPPORT. The Larders: what the operations of an outpost leave of its Larder, whose only writes are the granules that its port takes. -/

namespace Sys2Proof.Laws

open Sys2Proof Sys2Proof.Machine

@[simp] theorem upPut_larder (i : InstId) (l : List UpMsg) (x : Outpost) : (upPut i l x).larder = x.larder := by cases i <;> rfl
@[simp] theorem downPut_larder (i : InstId) (l : List DownMsg) (x : Outpost) : (downPut i l x).larder = x.larder := by cases i <;> rfl
@[simp] theorem modRow_larder (h : RowHandle) (f : OutRow → OutRow) (x : Outpost) : (modRow h f x).larder = x.larder := rfl
@[simp] theorem setHalf_larder (h : Nat) (v : Bool) (x : Outpost) : (setHalf h v x).larder = x.larder := by unfold setHalf; split <;> rfl
@[simp] theorem beginWave_larder (n w : Nat) (x : Outpost) : (beginWave n w x).larder = x.larder := by unfold beginWave; dsimp only; split <;> rfl
@[simp] theorem fenceChange_larder (o : Nat) (x y : Outpost) : (fenceChange o x y).larder = y.larder := rfl
@[simp] theorem fenceGroups_larder (o : Nat) (g : BitVec 32) (x : Outpost) : (fenceGroups o g x).larder = x.larder := rfl

@[simp] theorem takeMarker_larder (n w : Nat) (x : Outpost) : (takeMarker n w x).larder = x.larder := by
  unfold takeMarker
  split
  · rfl
  · split
    · rfl
    · split
      · rfl
      · rw [beginWave_larder, setHalf_larder]

@[simp] theorem enterSetup_larder (i : InstId) (su : RowSetup) (x : Outpost) : (enterSetup i su x).larder = x.larder := by
  unfold enterSetup
  split
  · rfl
  · rw [beginWave_larder]

theorem drainItems_wf (l : List PortItem) : ∀ x : Outpost, Machine.Mem.wf x.larder = true → Machine.Mem.wf (drainItems l x).larder = true := by
  induction l with
  | nil => exact fun _ h => h
  | cons p l ih =>
    intro x h
    cases p with
    | granule off data =>
      unfold drainItems
      split
      · exact ih _ (memPuts_wf data off h)
      · exact h
    | marker n w => exact ih _ (by rw [takeMarker_larder]; exact h)

theorem drainPort_wf {x : Outpost} (h : Machine.Mem.wf x.larder = true) : Machine.Mem.wf (drainPort x).larder = true := drainItems_wf _ x h

theorem freeHalves_larder (l : List (Nat × Nat × Nat)) : ∀ x : Outpost, (l.foldl (fun o m => setHalf m.2.2 true o) x).larder = x.larder := by
  induction l with
  | nil => exact fun _ => rfl
  | cons m l ih => exact fun x => (ih _).trans (setHalf_larder _ _ x)

theorem releaseWaves_wf {x : Outpost} (h : Machine.Mem.wf x.larder = true) : Machine.Mem.wf (releaseWaves x).larder = true := by
  unfold releaseWaves
  exact drainPort_wf (by dsimp only; rw [freeHalves_larder]; exact h)

theorem finishRow_wf (r : RowHandle) {x : Outpost} (h : Machine.Mem.wf x.larder = true) : Machine.Mem.wf (finishRow r x).larder = true :=
  releaseWaves_wf h

theorem discardStep_wf (n o : Nat) {x : Outpost} (h : Machine.Mem.wf x.larder = true) : Machine.Mem.wf (discardStep n o x).larder = true :=
  releaseWaves_wf h

theorem resetOutpost_wf (i : InstId) {x : Outpost} (h : Machine.Mem.wf x.larder = true) : Machine.Mem.wf (resetOutpost i x).larder = true := by
  unfold resetOutpost
  dsimp only
  split
  · exact h
  · cases i <;> exact h

@[simp] theorem tickOutpost_larder (x : Outpost) : (tickOutpost x).larder = x.larder := by unfold tickOutpost; split <;> rfl
@[simp] theorem morningOutpost_larder (i : InstId) (x : Outpost) : (morningOutpost i x).larder = x.larder := rfl
@[simp] theorem claimedOutpost_larder (x : Outpost) : (claimedOutpost x).larder = x.larder := rfl

/-- A change of an outpost keeps its Larder's canonical form. -/
def LarderKeeps (f : Outpost → Outpost) : Prop := ∀ x, Machine.Mem.wf x.larder = true → Machine.Mem.wf (f x).larder = true

theorem modAt_all {α : Type} {p : α → Prop} {f : α → α} (hf : ∀ x, p x → p (f x)) : ∀ (l : List α) (k : Nat), (∀ x ∈ l, p x) → ∀ x ∈ modAt l k f, p x
  | [], _, h => h
  | y :: l, 0, h => fun x hx => by
      rcases List.mem_cons.mp hx with rfl | hx
      · exact hf _ (h _ List.mem_cons_self)
      · exact h _ (List.mem_cons_of_mem _ hx)
  | y :: l, k + 1, h => fun x hx => by
      rcases List.mem_cons.mp hx with rfl | hx
      · exact h _ List.mem_cons_self
      · exact modAt_all hf l k (fun z hz => h z (List.mem_cons_of_mem _ hz)) x hx

end Sys2Proof.Laws
end

