-- ==== Sys2Proof/Laws/Frame.lean ====
section
/-! SUPPORT. What an operation leaves alone, as one relation between the states before and after, and the lemmas that compose it. -/

namespace Sys2Proof.Laws

open Sys2Proof Sys2Proof.Machine

/-- What every operation of the model but the reset and the tick keeps: the queue, the form of the memories, the tick, the power; and no free value is given back. -/
structure Kept (s t : State) : Prop where
  pending : t.pending = s.pending
  mem : MemOk s → MemOk t
  free : s.free ≤ t.free
  tick : t.tick = s.tick
  powered : t.powered = s.powered

theorem Kept.trans {s t u : State} (h : Kept s t) (k : Kept t u) : Kept s u :=
  ⟨k.pending.trans h.pending, fun m => k.mem (h.mem m), Nat.le_trans h.free k.free, k.tick.trans h.tick, k.powered.trans h.powered⟩

/-- What is asked of the next state that a meaning answers, if it answers one. -/
def ResOk (p : State → Prop) : Result → Prop
  | .next t => p t
  | _ => True

/-- The same of an operation of instance `i`, which leaves its partner alone where the partner is split from it (spec/01 R15). -/
structure KeptI (i : InstId) (s t : State) : Prop extends Kept s t where
  other : (getInst s (Machine.other i)).place.split = true → getInst t (Machine.other i) = getInst s (Machine.other i)

theorem KeptI.refl (i : InstId) (s : State) : KeptI i s s := ⟨⟨rfl, id, Nat.le_refl _, rfl, rfl⟩, fun _ => rfl⟩
theorem Kept.refl (s : State) : Kept s s := ⟨rfl, id, Nat.le_refl _, rfl, rfl⟩

theorem KeptI.raw {i : InstId} {s t : State} {f c p cal br m n bd} (h : KeptI i s t) :
    KeptI i s ⟨t.powered, t.tick, t.a, t.b, t.outposts, f, c, t.hbm, t.host, p, cal, br, m, n, bd, t.free, t.pending⟩ :=
  ⟨⟨h.pending, h.mem, h.free, h.tick, h.powered⟩, by cases i <;> exact h.other⟩

theorem Kept.raw {s t : State} {a b f c p cal br m n bd} (h : Kept s t) :
    Kept s ⟨t.powered, t.tick, a, b, t.outposts, f, c, t.hbm, t.host, p, cal, br, m, n, bd, t.free, t.pending⟩ :=
  ⟨h.pending, h.mem, h.free, h.tick, h.powered⟩

theorem foldl_keptI {i : InstId} {s : State} {α : Type} {f : State → α → State} (hf : ∀ t x, KeptI i s t → KeptI i s (f t x)) :
    ∀ (l : List α) (t : State), KeptI i s t → KeptI i s (l.foldl f t)
  | [], _, h => h
  | x :: l, t, h => foldl_keptI hf l _ (hf t x h)

theorem foldl_kept {s : State} {α : Type} {f : State → α → State} (hf : ∀ t x, Kept s t → Kept s (f t x)) :
    ∀ (l : List α) (t : State), Kept s t → Kept s (l.foldl f t)
  | [], _, h => h
  | x :: l, t, h => foldl_kept hf l _ (hf t x h)

theorem modInst_keptI {i : InstId} {s t : State} (f : Inst → Inst) (h : KeptI i s t) : KeptI i s (modInst i f t) := by
  cases i <;> exact ⟨⟨h.pending, h.mem, h.free, h.tick, h.powered⟩, h.other⟩

theorem modInst_kept (i : InstId) {s t : State} (f : Inst → Inst) (h : Kept s t) : Kept s (modInst i f t) := by
  cases i <;> exact ⟨h.pending, h.mem, h.free, h.tick, h.powered⟩

theorem hbmPut_keptI {i : InstId} {s t : State} (a : Nat) (bs : List Byte) (h : KeptI i s t) : KeptI i s (hbmPut a bs t) :=
  ⟨⟨h.pending, fun m => ⟨memPuts_wf bs a (h.mem m).1, (h.mem m).2⟩, h.free, h.tick, h.powered⟩, by cases i <;> exact h.other⟩

theorem hostPut_keptI {i : InstId} {s t : State} (a : Nat) (bs : List Byte) (h : KeptI i s t) : KeptI i s (hostPut a bs t) :=
  ⟨⟨h.pending, fun m => ⟨(h.mem m).1, memPuts_wf bs a (h.mem m).2.1, (h.mem m).2.2⟩, h.free, h.tick, h.powered⟩, by cases i <;> exact h.other⟩

theorem hbmPut_kept {s t : State} (a : Nat) (bs : List Byte) (h : Kept s t) : Kept s (hbmPut a bs t) :=
  ⟨h.pending, fun m => ⟨memPuts_wf bs a (h.mem m).1, (h.mem m).2⟩, h.free, h.tick, h.powered⟩

theorem hostPut_kept {s t : State} (a : Nat) (bs : List Byte) (h : Kept s t) : Kept s (hostPut a bs t) :=
  ⟨h.pending, fun m => ⟨(h.mem m).1, memPuts_wf bs a (h.mem m).2.1, (h.mem m).2.2⟩, h.free, h.tick, h.powered⟩

theorem modOutpost_keptI {s t : State} (i : InstId) (x0 : Nat) (x1 : Outpost → Outpost) (hf : LarderKeeps x1) (h : KeptI i s t) : KeptI i s (modOutpost x0 x1 t) :=
  ⟨⟨h.pending, fun m => ⟨(h.mem m).1, (h.mem m).2.1, modAt_all hf _ _ (h.mem m).2.2⟩, h.free, h.tick, h.powered⟩, by cases i <;> exact h.other⟩

theorem modOutpost_kept {s t : State} (x0 : Nat) (x1 : Outpost → Outpost) (hf : LarderKeeps x1) (h : Kept s t) : Kept s (modOutpost x0 x1 t) :=
  ⟨h.pending, fun m => ⟨(h.mem m).1, (h.mem m).2.1, modAt_all hf _ _ (h.mem m).2.2⟩, h.free, h.tick, h.powered⟩

theorem takeFree_keptI {i : InstId} {s t : State} (h : KeptI i s t) : KeptI i s (takeFree t).2 :=
  ⟨⟨h.pending, h.mem, Nat.le_succ_of_le h.free, h.tick, h.powered⟩, by cases i <;> exact h.other⟩

theorem takeFree_kept {s t : State} (h : Kept s t) : Kept s (takeFree t).2 :=
  ⟨h.pending, h.mem, Nat.le_succ_of_le h.free, h.tick, h.powered⟩

theorem KeptI.cross {i : InstId} {s t u : State} (h : KeptI i s t) (k : Kept s u)
    (hc : (getInst t (Machine.other i)).place.split = false) : KeptI i s u :=
  ⟨k, fun hs => by rw [h.other hs, hs] at hc; cases hc⟩

theorem ite_keptI {i : InstId} {s t u : State} {c : Prop} [Decidable c] (h : KeptI i s t) (k : KeptI i s u) : KeptI i s (if c then t else u) := by
  split
  · exact h
  · exact k

theorem ResOk.next {p : State → Prop} {t : State} (h : p t) : ResOk p (.next t) := h

theorem ResOk.lift {i : InstId} {s t : State} {r : Result} (h : Kept s t) (k : ResOk (KeptI i t) r) : ResOk (Kept s) r := by
  cases r with
  | next u => exact h.trans k.toKept
  | fault f => exact True.intro
  | refused f => exact True.intro

theorem ResOk.fault {p : State → Prop} (f : Fault) : ResOk p (.fault f) := True.intro

end Sys2Proof.Laws
end

