-- ==== Sys2Proof/Laws/FrameOps.lean ====
section
/-! SUPPORT. What the operations over the state, the pages, the results, the directory, the records, the kills, admission and the commit leave alone. Each lemma says of one operation what Kept and KeptI (Laws/Frame.lean) say: it keeps the queue, the memories' form, the tick and the power, never gives a free value back, and, where it names an instance, leaves a split partner alone. -/

namespace Sys2Proof.Laws

open Sys2Proof Sys2Proof.Machine

/-! ### Machine/Ops.lean -/

theorem modMir_keptI {s t : State} (x0 : InstId) (x1 : Mirrored → Mirrored) (h : KeptI x0 s t) :
    KeptI x0 s (modMir x0 x1 t) := by
  unfold modMir
  try dsimp only
  repeat' first | (with_reducible first | assumption | apply modInst_keptI) | split | dsimp only | intro _

theorem modHearth_keptI {s t : State} (x0 : InstId) (x1 : Hearth → Hearth) (h : KeptI x0 s t) :
    KeptI x0 s (modHearth x0 x1 t) := by
  unfold modHearth
  try dsimp only
  repeat' first | (with_reducible first | assumption | apply modInst_keptI) | split | dsimp only | intro _

theorem modHall_keptI {s t : State} (x0 : InstId) (x1 : Hallway → Hallway) (h : KeptI x0 s t) :
    KeptI x0 s (modHall x0 x1 t) := by
  unfold modHall
  try dsimp only
  repeat' first | (with_reducible first | assumption | apply modInst_keptI) | split | dsimp only | intro _

theorem modStair_keptI {s t : State} (x0 : InstId) (x1 : Stairwell → Stairwell) (h : KeptI x0 s t) :
    KeptI x0 s (modStair x0 x1 t) := by
  unfold modStair
  try dsimp only
  repeat' first | (with_reducible first | assumption | apply modInst_keptI) | split | dsimp only | intro _

theorem modRel_keptI {s t : State} (x0 : InstId) (x1 : Reliability → Reliability) (h : KeptI x0 s t) :
    KeptI x0 s (modRel x0 x1 t) := by
  unfold modRel
  try dsimp only
  repeat' first | (with_reducible first | assumption | apply modInst_keptI) | split | dsimp only | intro _

theorem modStudy_keptI {s t : State} (x0 : InstId) (x1 : Study → Study) (h : KeptI x0 s t) :
    KeptI x0 s (modStudy x0 x1 t) := by
  unfold modStudy
  try dsimp only
  repeat' first | (with_reducible first | assumption | apply modInst_keptI) | split | dsimp only | intro _

theorem modKit_keptI {s t : State} (x0 : InstId) (x1 : Kitchen → Kitchen) (h : KeptI x0 s t) :
    KeptI x0 s (modKit x0 x1 t) := by
  unfold modKit
  try dsimp only
  repeat' first | (with_reducible first | assumption | apply modMir_keptI) | split | dsimp only | intro _

theorem modFoyer_keptI {s t : State} (x0 : InstId) (x1 : Foyer → Foyer) (h : KeptI x0 s t) :
    KeptI x0 s (modFoyer x0 x1 t) := by
  unfold modFoyer
  try dsimp only
  repeat' first | (with_reducible first | assumption | apply modMir_keptI) | split | dsimp only | intro _

theorem modDir_keptI {s t : State} (x0 : InstId) (x1 : Directory → Directory) (h : KeptI x0 s t) :
    KeptI x0 s (modDir x0 x1 t) := by
  unfold modDir
  try dsimp only
  repeat' first | (with_reducible first | assumption | apply modMir_keptI) | split | dsimp only | intro _

theorem modLib_keptI {s t : State} (x0 : InstId) (x1 : Library → Library) (h : KeptI x0 s t) :
    KeptI x0 s (modLib x0 x1 t) := by
  unfold modLib
  try dsimp only
  repeat' first | (with_reducible first | assumption | apply modMir_keptI) | split | dsimp only | intro _

theorem modPantry_keptI {s t : State} (x0 : InstId) (x1 : Pantry → Pantry) (h : KeptI x0 s t) :
    KeptI x0 s (modPantry x0 x1 t) := by
  unfold modPantry
  try dsimp only
  repeat' first | (with_reducible first | assumption | apply modMir_keptI) | split | dsimp only | intro _

theorem modCtx_keptI {s t : State} (x0 : InstId) (x1 : Nat) (x2 : Ctx → Ctx) (h : KeptI x0 s t) :
    KeptI x0 s (modCtx x0 x1 x2 t) := by
  unfold modCtx
  try dsimp only
  repeat' first | (with_reducible first | assumption | apply modMir_keptI) | split | dsimp only | intro _

theorem modAcct_keptI {s t : State} (x0 : InstId) (x1 : Nat) (x2 : Acct → Acct) (h : KeptI x0 s t) :
    KeptI x0 s (modAcct x0 x1 x2 t) := by
  unfold modAcct
  try dsimp only
  repeat' first | (with_reducible first | assumption | apply modCtx_keptI) | split | dsimp only | intro _

theorem modModel_keptI {s t : State} (x0 : InstId) (x1 : Nat) (x2 : Model → Model) (h : KeptI x0 s t) :
    KeptI x0 s (modModel x0 x1 x2 t) := by
  unfold modModel
  try dsimp only
  repeat' first | (with_reducible first | assumption | apply modDir_keptI) | split | dsimp only | intro _

theorem modWin_keptI {s t : State} (x0 : InstId) (x1 : Nat) (x2 : Window → Window) (h : KeptI x0 s t) :
    KeptI x0 s (modWin x0 x1 x2 t) := by
  unfold modWin
  try dsimp only
  repeat' first | (with_reducible first | assumption | apply modMir_keptI) | split | dsimp only | intro _

theorem modLatch_keptI {s t : State} (x0 : InstId) (x1 : Nat) (x2 : Latch → Latch) (h : KeptI x0 s t) :
    KeptI x0 s (modLatch x0 x1 x2 t) := by
  unfold modLatch
  try dsimp only
  repeat' first | (with_reducible first | assumption | apply modMir_keptI) | split | dsimp only | intro _

theorem modSeq_keptI {s t : State} (x0 : InstId) (x1 : Nat) (x2 : Machine.Seq → Machine.Seq) (h : KeptI x0 s t) :
    KeptI x0 s (modSeq x0 x1 x2 t) := by
  unfold modSeq
  try dsimp only
  repeat' first | (with_reducible first | assumption | apply modMir_keptI) | split | dsimp only | intro _

theorem modRec_keptI {s t : State} (x0 : InstId) (x1 : Nat) (x2 : Record → Record) (h : KeptI x0 s t) :
    KeptI x0 s (modRec x0 x1 x2 t) := by
  unfold modRec
  try dsimp only
  repeat' first | (with_reducible first | assumption | apply modSeq_keptI) | split | dsimp only | intro _

theorem modHouse_keptI {s t : State} (x0 : InstId) (x1 : Nat) (x2 : Household → Household) (h : KeptI x0 s t) :
    KeptI x0 s (modHouse x0 x1 x2 t) := by
  unfold modHouse
  try dsimp only
  repeat' first | (with_reducible first | assumption | apply modMir_keptI) | split | dsimp only | intro _

theorem modStep_keptI {s t : State} (x0 : InstId) (x1 : Nat) (x2 : Machine.Step → Machine.Step) (h : KeptI x0 s t) :
    KeptI x0 s (modStep x0 x1 x2 t) := by
  unfold modStep
  try dsimp only
  repeat' first | (with_reducible first | assumption | apply modKit_keptI) | split | dsimp only | intro _

theorem sendIrq_keptI {s t : State} (x0 : InstId) (x1 x2 : BitVec 36) (h : KeptI x0 s t) :
    KeptI x0 s (sendIrq x0 x1 x2 t) := by
  unfold sendIrq
  try dsimp only
  repeat' first | (with_reducible first | assumption) | split | dsimp only | intro _ | with_reducible apply KeptI.raw

theorem raiseIrq_keptI {s t : State} (x0 : InstId) (x1 : Nat) (h : KeptI x0 s t) :
    KeptI x0 s (raiseIrq x0 x1 t) := by
  unfold raiseIrq
  try dsimp only
  repeat' first | (with_reducible first | assumption | apply modMir_keptI | apply sendIrq_keptI) | split | dsimp only | intro _

theorem logFault_keptI {s t : State} (x0 : InstId) (x1 x2 : Nat) (x3 : Option Nat) (x4 x5 x6 : Nat) (h : KeptI x0 s t) :
    KeptI x0 s (logFault x0 x1 x2 x3 x4 x5 x6 t) := by
  unfold logFault
  try dsimp only
  repeat' first | (with_reducible first | assumption | apply modRel_keptI | apply raiseIrq_keptI) | split | dsimp only | intro _

theorem countFixed_keptI {s t : State} (x0 : InstId) (x1 : Nat) (h : KeptI x0 s t) :
    KeptI x0 s (countFixed x0 x1 t) := by
  unfold countFixed
  try dsimp only
  repeat' first | (with_reducible first | assumption | apply modRel_keptI) | split | dsimp only | intro _

theorem modRel_kept {s t : State} (x0 : InstId) (x1 : Reliability → Reliability) (h : Kept s t) :
    Kept s (modRel x0 x1 t) := h.trans (modRel_keptI x0 x1 (KeptI.refl _ t)).toKept

theorem countFixed_kept {s t : State} (x0 : InstId) (x1 : Nat) (h : Kept s t) :
    Kept s (countFixed x0 x1 t) := by
  unfold countFixed
  try dsimp only
  repeat' first | (with_reducible first | assumption | apply modRel_kept) | split | dsimp only | intro _

theorem ringEnter_keptI {s t : State} (x0 : InstId) (x1 : RingEvent) (h : KeptI x0 s t) :
    KeptI x0 s (ringEnter x0 x1 t) := by
  unfold ringEnter
  try dsimp only
  repeat' first | (with_reducible first | assumption | apply modStudy_keptI) | split | dsimp only | intro _

theorem ringPush_keptI {s t : State} (x0 : InstId) (x1 x2 x3 x4 : Nat) (x5 : List Nat) (h : KeptI x0 s t) :
    KeptI x0 s (ringPush x0 x1 x2 x3 x4 x5 t) := by
  unfold ringPush
  try dsimp only
  repeat' first | (with_reducible first | assumption | apply ringEnter_keptI) | split | dsimp only | intro _

theorem ringMessage_keptI {s t : State} (x0 : InstId) (x1 x2 : Nat) (x3 : ChannelMsg) (h : KeptI x0 s t) :
    KeptI x0 s (ringMessage x0 x1 x2 x3 t) := by
  unfold ringMessage
  try dsimp only
  repeat' first | (with_reducible first | assumption | apply ringEnter_keptI) | split | dsimp only | intro _

theorem postTo_keptI {s t : State} (x0 : InstId) (x1 : Flow) (x2 : EvKind) (x3 : Bool) (x4 : Nat) (h : KeptI x0 s t) :
    KeptI x0 s (postTo x0 x1 x2 x3 x4 t) := by
  unfold postTo
  try dsimp only
  repeat' first | (with_reducible first | assumption | apply modHall_keptI) | split | dsimp only | intro _

theorem flushBcast_keptI {s t : State} (x0 : InstId) (x1 : Nat) (h : KeptI x0 s t) :
    KeptI x0 s (flushBcast x0 x1 t) := by
  unfold flushBcast
  try dsimp only
  repeat' first | (with_reducible first | assumption | apply modSeq_keptI | apply postTo_keptI | apply foldl_keptI) | split | dsimp only | intro _

theorem postSeq_keptI {s t : State} (x0 : InstId) (x1 : Nat) (x2 : EvKind) (h : KeptI x0 s t) :
    KeptI x0 s (postSeq x0 x1 x2 t) := by
  unfold postSeq
  try dsimp only
  repeat' first | (with_reducible first | assumption | apply flushBcast_keptI | apply postTo_keptI) | split | dsimp only | intro _

theorem postUnit_keptI {s t : State} (x0 : InstId) (x1 : Nat) (x2 : EvKind) (h : KeptI x0 s t) :
    KeptI x0 s (postUnit x0 x1 x2 t) := by
  unfold postUnit
  try dsimp only
  repeat' first | (with_reducible first | assumption | apply postTo_keptI) | split | dsimp only | intro _

theorem broadcastTo_keptI {s t : State} (x0 : InstId) (x1 : Bcast) (x2 : Nat) (h : KeptI x0 s t) :
    KeptI x0 s (broadcastTo x0 x1 x2 t) := by
  unfold broadcastTo
  try dsimp only
  repeat' first | (with_reducible first | assumption | apply modSeq_keptI | apply postTo_keptI) | split | dsimp only | intro _

theorem broadcast_keptI {s t : State} (x0 : InstId) (x1 : Bcast) (x2 : Machine.Seq → Bool) (h : KeptI x0 s t) :
    KeptI x0 s (broadcast x0 x1 x2 t) := by
  unfold broadcast
  try dsimp only
  repeat' first | (with_reducible first | assumption | apply broadcastTo_keptI | apply foldl_keptI) | split | dsimp only | intro _

theorem releaseEvent_keptI {s t : State} (x0 : InstId) (x1 : Flow) (h : KeptI x0 s t) :
    KeptI x0 s (releaseEvent x0 x1 t) := by
  unfold releaseEvent
  try dsimp only
  repeat' first | (with_reducible first | assumption | apply modHall_keptI | apply ringPush_keptI) | split | dsimp only | intro _

theorem duskSet_keptI {s t : State} (x0 : InstId) (x1 x2 x3 : Nat) (h : KeptI x0 s t) :
    KeptI x0 s (duskSet x0 x1 x2 x3 t) := by
  unfold duskSet
  try dsimp only
  repeat' first | (with_reducible first | assumption | apply modMir_keptI | apply modRec_keptI) | split | dsimp only | intro _

theorem duskClear_keptI {s t : State} (x0 : InstId) (x1 x2 : Nat) (h : KeptI x0 s t) :
    KeptI x0 s (duskClear x0 x1 x2 t) := by
  unfold duskClear
  try dsimp only
  repeat' first | (with_reducible first | assumption | apply modMir_keptI | apply modRec_keptI) | split | dsimp only | intro _

theorem duskUnit_keptI {s t : State} (x0 : InstId) (x1 x2 x3 : Nat) (h : KeptI x0 s t) :
    KeptI x0 s (duskUnit x0 x1 x2 x3 t) := by
  unfold duskUnit
  try dsimp only
  repeat' first | (with_reducible first | assumption | apply modMir_keptI) | split | dsimp only | intro _

theorem duskMore_keptI {s t : State} (x0 : InstId) (x1 x2 x3 : Nat) (h : KeptI x0 s t) :
    KeptI x0 s (duskMore x0 x1 x2 x3 t) := by
  unfold duskMore
  try dsimp only
  repeat' first | (with_reducible first | assumption | apply modMir_keptI) | split | dsimp only | intro _

theorem duskDrop_keptI {s t : State} (x0 : InstId) (x1 x2 : Nat) (h : KeptI x0 s t) :
    KeptI x0 s (duskDrop x0 x1 x2 t) := by
  unfold duskDrop
  try dsimp only
  repeat' first | (with_reducible first | assumption | apply modMir_keptI) | split | dsimp only | intro _

theorem retime_keptI {s t : State} (x0 : InstId) (x1 : Nat) (h : KeptI x0 s t) :
    KeptI x0 s (retime x0 x1 t) := by
  unfold retime
  try dsimp only
  repeat' first | (with_reducible first | assumption | apply duskClear_keptI | apply duskSet_keptI) | split | dsimp only | intro _

theorem fireEntry_keptI {s t : State} (x0 : InstId) (x1 : Dusk) (h : KeptI x0 s t) :
    KeptI x0 s (fireEntry x0 x1 t) := by
  unfold fireEntry
  try dsimp only
  repeat' first | (with_reducible first | assumption | apply flushBcast_keptI | apply modHall_keptI | apply modMir_keptI | apply postTo_keptI) | split | dsimp only | intro _

theorem fireSome_keptI {s t : State} (x0 : InstId) (x1 : Dusk → Bool) (h : KeptI x0 s t) :
    KeptI x0 s (fireSome x0 x1 t) := by
  unfold fireSome
  try dsimp only
  repeat' first | (with_reducible first | assumption | apply fireEntry_keptI | apply modHall_keptI | apply foldl_keptI) | split | dsimp only | intro _

theorem fireLists_keptI {s t : State} (x0 : InstId) (h : KeptI x0 s t) :
    KeptI x0 s (fireLists x0 t) := by
  unfold fireLists
  try dsimp only
  repeat' first | (with_reducible first | assumption | apply fireSome_keptI | apply modHall_keptI) | split | dsimp only | intro _

theorem countStale_keptI {s t : State} (x0 : InstId) (x1 : Nat) (h : KeptI x0 s t) :
    KeptI x0 s (countStale x0 x1 t) := by
  unfold countStale
  try dsimp only
  repeat' first | (with_reducible first | assumption | apply modHall_keptI) | split | dsimp only | intro _

theorem enterState_keptI {s t : State} (x0 : InstId) (x1 : Nat) (x2 : SeqState) (h : KeptI x0 s t) :
    KeptI x0 s (enterState x0 x1 x2 t) := by
  unfold enterState
  try dsimp only
  repeat' first | (with_reducible first | assumption | apply modSeq_keptI | apply retime_keptI) | split | dsimp only | intro _

theorem journal_keptI {s t : State} (x0 : InstId) (x1 : List JEntry) (h : KeptI x0 s t) :
    KeptI x0 s (journal x0 x1 t) := by
  unfold journal
  try dsimp only
  repeat' first | (with_reducible first | assumption | apply modRel_keptI) | split | dsimp only | intro _

theorem journalRecord_keptI {s t : State} (x0 : InstId) (x1 : Nat) (h : KeptI x0 s t) :
    KeptI x0 s (journalRecord x0 x1 t) := by
  unfold journalRecord
  try dsimp only
  repeat' first | (with_reducible first | assumption | apply journal_keptI) | split | dsimp only | intro _

theorem journalRing_keptI {s t : State} (x0 : InstId) (x1 : Nat) (h : KeptI x0 s t) :
    KeptI x0 s (journalRing x0 x1 t) := by
  unfold journalRing
  try dsimp only
  repeat' first | (with_reducible first | assumption | apply journal_keptI) | split | dsimp only | intro _

theorem journalObj_keptI {s t : State} (x0 : InstId) (x1 : JObj) (h : KeptI x0 s t) :
    KeptI x0 s (journalObj x0 x1 t) := by
  unfold journalObj
  try dsimp only
  repeat' first | (with_reducible first | assumption | apply journal_keptI) | split | dsimp only | intro _

theorem faultAt_keptI {s t : State} (x0 : InstId) (x1 x2 : Nat) (h : KeptI x0 s t) :
    KeptI x0 s (faultAt x0 x1 x2 t) := by
  unfold faultAt
  try dsimp only
  repeat' first | (with_reducible first | assumption | apply modCtx_keptI) | split | dsimp only | intro _

theorem askFault_keptI {s t : State} (x0 : InstId) (x1 x2 : Nat) (h : KeptI x0 s t) :
    KeptI x0 s (askFault x0 x1 x2 t) := by
  unfold askFault
  try dsimp only
  repeat' first | (with_reducible first | assumption | apply modCtx_keptI) | split | dsimp only | intro _

theorem freeArrival_keptI {s t : State} (x0 : InstId) (x1 : Nat) (h : KeptI x0 s t) :
    KeptI x0 s (freeArrival x0 x1 t) := by
  unfold freeArrival
  try dsimp only
  repeat' first | (with_reducible first | assumption | apply modMir_keptI) | split | dsimp only | intro _

theorem discardRecord_keptI {s t : State} (x0 : InstId) (x1 : Completion) (h : KeptI x0 s t) :
    KeptI x0 s (discardRecord x0 x1 t) := by
  unfold discardRecord
  try dsimp only
  repeat' first | (with_reducible first | assumption | apply freeArrival_keptI) | split | dsimp only | intro _

theorem storeRecord_keptI {s t : State} (x0 : InstId) (x1 : Nat) (x2 : Completion) (h : KeptI x0 s t) :
    KeptI x0 s (storeRecord x0 x1 x2 t) := by
  unfold storeRecord
  try dsimp only
  repeat' first | (with_reducible first | assumption | apply hbmPut_keptI) | split | dsimp only | intro _

theorem postRecord_keptI {s t : State} (x0 : InstId) (x1 : Nat) (x2 : Completion) (h : KeptI x0 s t) :
    KeptI x0 s (postRecord x0 x1 x2 t) := by
  unfold postRecord
  try dsimp only
  repeat' first | (with_reducible first | assumption | apply askFault_keptI | apply discardRecord_keptI | apply journal_keptI | apply modCtx_keptI | apply ringPush_keptI | apply storeRecord_keptI) | split | dsimp only | intro _

theorem postSeqRecord_keptI {s t : State} (x0 : InstId) (x1 x2 x3 : Nat) (x4 : Bool) (h : KeptI x0 s t) :
    KeptI x0 s (postSeqRecord x0 x1 x2 x3 x4 t) := by
  unfold postSeqRecord
  try dsimp only
  repeat' first | (with_reducible first | assumption | apply modRec_keptI | apply postRecord_keptI) | split | dsimp only | intro _

theorem postReject_keptI {s t : State} (x0 : InstId) (x1 : Nat) (x2 : Request) (x3 : Nat) (h : KeptI x0 s t) :
    KeptI x0 s (postReject x0 x1 x2 x3 t) := by
  unfold postReject
  try dsimp only
  repeat' first | (with_reducible first | assumption | apply postRecord_keptI) | split | dsimp only | intro _

theorem notePlanFaults_keptI {s t : State} (x0 : InstId) (x1 x2 : Nat) (h : KeptI x0 s t) :
    KeptI x0 s (notePlanFaults x0 x1 x2 t) := by
  unfold notePlanFaults
  try dsimp only
  repeat' first | (with_reducible first | assumption | apply modAcct_keptI) | split | dsimp only | intro _

theorem rejectLeft_keptI {s t : State} (x0 : InstId) (x1 : Nat) (x2 : Request) (x3 : Nat) (h : KeptI x0 s t) :
    KeptI x0 s (rejectLeft x0 x1 x2 x3 t) := by
  unfold rejectLeft
  try dsimp only
  repeat' first | (with_reducible first | assumption | apply notePlanFaults_keptI | apply postReject_keptI | apply ringPush_keptI) | split | dsimp only | intro _

theorem mirrorOut_keptI {s t : State} (x0 : InstId) (x1 : State) (h : KeptI x0 s t) :
    KeptI x0 s (mirrorOut x0 x1 t) := by
  unfold mirrorOut
  try dsimp only
  repeat' first | (with_reducible first | assumption | apply modRel_keptI) | split | dsimp only | intro _

theorem done_keptI {s t : State} (x0 : InstId) (x1 : State) (h : KeptI x0 s t) :
    ResOk (KeptI x0 s) (done x0 x1 t) := by
  unfold done
  try dsimp only
  repeat' first | (with_reducible first | assumption | apply mirrorOut_keptI | apply ResOk.next | exact ResOk.fault _) | split | dsimp only | intro _

/-! ### Machine/Trace.lean -/

theorem setCause_keptI {s t : State} (x0 : InstId) (x1 : Nat) (h : KeptI x0 s t) :
    KeptI x0 s (setCause x0 x1 t) := by
  unfold setCause
  try dsimp only
  repeat' first | (with_reducible first | assumption | apply modStudy_keptI | apply raiseIrq_keptI) | split | dsimp only | intro _

theorem traceStore_keptI {s t : State} (x0 : InstId) (x1 : TraceRec) (h : KeptI x0 s t) :
    KeptI x0 s (traceStore x0 x1 t).1 := by
  unfold traceStore
  try dsimp only
  repeat' first | (with_reducible first | assumption | apply hbmPut_keptI | apply modStudy_keptI | apply setCause_keptI) | split | dsimp only | intro _

theorem traceGap_keptI {s t : State} (x0 : InstId) (h : KeptI x0 s t) :
    KeptI x0 s (traceGap x0 t) := by
  unfold traceGap
  try dsimp only
  repeat' first | (with_reducible first | assumption | apply modStudy_keptI | apply setCause_keptI | apply traceStore_keptI) | split | dsimp only | intro _

theorem traceDrop_keptI {s t : State} (x0 : InstId) (x1 : TraceRec) (h : KeptI x0 s t) :
    KeptI x0 s (traceDrop x0 x1 t) := by
  unfold traceDrop
  try dsimp only
  repeat' first | (with_reducible first | assumption | apply modStudy_keptI) | split | dsimp only | intro _

theorem traceWrite_keptI {s t : State} (x0 : InstId) (x1 : TraceRec) (h : KeptI x0 s t) :
    KeptI x0 s (traceWrite x0 x1 t) := by
  unfold traceWrite
  try dsimp only
  repeat' first | (with_reducible first | assumption | apply traceDrop_keptI | apply traceGap_keptI | apply traceStore_keptI) | split | dsimp only | intro _

theorem traceBurst_keptI {s t : State} (x0 : InstId) (x1 : Nat) (h : KeptI x0 s t) :
    KeptI x0 s (traceBurst x0 x1 t) := by
  unfold traceBurst
  try dsimp only
  repeat' first | (with_reducible first | assumption | apply modStudy_keptI | apply traceWrite_keptI | apply foldl_keptI) | split | dsimp only | intro _

theorem traceAdd_keptI {s t : State} (x0 : InstId) (x1 : TraceRec) (h : KeptI x0 s t) :
    KeptI x0 s (traceAdd x0 x1 t) := by
  unfold traceAdd
  try dsimp only
  repeat' first | (with_reducible first | assumption | apply modStudy_keptI | apply traceBurst_keptI | apply traceDrop_keptI) | split | dsimp only | intro _

theorem traceMark_keptI {s t : State} (x0 : InstId) (x1 x2 x3 : Nat) (h : KeptI x0 s t) :
    KeptI x0 s (traceMark x0 x1 x2 x3 t) := by
  unfold traceMark
  try dsimp only
  repeat' first | (with_reducible first | assumption | apply traceAdd_keptI) | split | dsimp only | intro _

/-! ### Machine/Pages.lean -/

theorem writeAttic_keptI {s t : State} (x0 : InstId) (x1 : Nat) (h : KeptI x0 s t) :
    KeptI x0 s (writeAttic x0 x1 t) := by
  unfold writeAttic
  try dsimp only
  repeat' first | (with_reducible first | assumption | apply hbmPut_keptI) | split | dsimp only | intro _

theorem writeChain_keptI {s t : State} (i : InstId) (x0 x1 x2 : Nat) (x3 : Bool) (x4 x5 : List Nat) (h : KeptI i s t) :
    KeptI i s (writeChain x0 x1 x2 x3 x4 x5 t) := by
  induction x4 generalizing x3 x5 t with
  | nil => (unfold writeChain; (try dsimp only); exact h)
  | cons a b ih =>
    unfold writeChain
    try dsimp only
    repeat' first | (with_reducible first | apply ih | assumption | apply hbmPut_keptI) | split | dsimp only | intro _

theorem holdBlocks_keptI {s t : State} (x0 : InstId) (x1 x2 : Nat) (h : KeptI x0 s t) :
    KeptI x0 s (holdBlocks x0 x1 x2 t) := by
  unfold holdBlocks
  try dsimp only
  repeat' first | (with_reducible first | assumption | apply modSeq_keptI) | split | dsimp only | intro _

theorem writeList_keptI {s t : State} (x0 : InstId) (x1 : Nat) (h : KeptI x0 s t) :
    KeptI x0 s (writeList x0 x1 t) := by
  unfold writeList
  try dsimp only
  repeat' first | (with_reducible first | assumption | apply modSeq_keptI | apply writeAttic_keptI | apply writeChain_keptI) | split | dsimp only | intro _

theorem clearLone_keptI {s t : State} (x0 : InstId) (x1 : Nat) (h : KeptI x0 s t) :
    KeptI x0 s (clearLone x0 x1 t) := by
  unfold clearLone
  try dsimp only
  repeat' first | (with_reducible first | assumption | apply modSeq_keptI | apply writeList_keptI) | split | dsimp only | intro _

theorem dropPage_keptI {s t : State} (x0 : InstId) (x1 : Nat) (h : KeptI x0 s t) :
    KeptI x0 s (dropPage x0 x1 t) := by
  unfold dropPage
  try dsimp only
  repeat' first | (with_reducible first | assumption | apply clearLone_keptI | apply modMir_keptI) | split | dsimp only | intro _

theorem freeAhead_keptI {s t : State} (x0 : InstId) (x1 : Nat) (x2 : AheadPage → Bool) (h : KeptI x0 s t) :
    KeptI x0 s (freeAhead x0 x1 x2 t) := by
  unfold freeAhead
  try dsimp only
  repeat' first | (with_reducible first | assumption | apply modMir_keptI | apply modSeq_keptI | apply foldl_keptI) | split | dsimp only | intro _

theorem releasePages_keptI {s t : State} (x0 : InstId) (x1 : Nat) (h : KeptI x0 s t) :
    KeptI x0 s (releasePages x0 x1 t) := by
  unfold releasePages
  try dsimp only
  repeat' first | (with_reducible first | assumption | apply dropPage_keptI | apply freeAhead_keptI | apply modSeq_keptI | apply writeList_keptI | apply foldl_keptI) | split | dsimp only | intro _

theorem markShared_keptI {s t : State} (x0 : InstId) (x1 : Nat) (h : KeptI x0 s t) :
    KeptI x0 s (markShared x0 x1 t) := by
  unfold markShared
  try dsimp only
  repeat' first | (with_reducible first | assumption | apply modSeq_keptI | apply writeList_keptI | apply foldl_keptI) | split | dsimp only | intro _

theorem takePrefix_keptI {s t : State} (x0 : InstId) (x1 : Nat) (h : KeptI x0 s t) :
    KeptI x0 s (takePrefix x0 x1 t) := by
  unfold takePrefix
  try dsimp only
  repeat' first | (with_reducible first | assumption | apply markShared_keptI | apply modPantry_keptI | apply modSeq_keptI | apply writeList_keptI | apply foldl_keptI) | split | dsimp only | intro _

theorem takeAhead_keptI {s t : State} (x0 : InstId) (x1 : Nat) (x2 : Bool) (x3 : List Nat) (h : KeptI x0 s t) :
    KeptI x0 s (takeAhead x0 x1 x2 x3 t) := by
  unfold takeAhead
  try dsimp only
  repeat' first | (with_reducible first | assumption | apply modHouse_keptI | apply modPantry_keptI | apply modSeq_keptI | apply foldl_keptI) | split | dsimp only | intro _

theorem ensureTake_keptI {s t : State} (x0 : InstId) (x1 : List EnsureReq) (h : KeptI x0 s t) :
    KeptI x0 s (ensureTake x0 x1 t) := by
  unfold ensureTake
  try dsimp only
  repeat' first | (with_reducible first | assumption | apply modHouse_keptI | apply takeAhead_keptI | apply foldl_keptI) | split | dsimp only | intro _

theorem commitAhead_keptI {s t : State} (x0 : InstId) (x1 : Nat) (x2 : AheadPage) (h : KeptI x0 s t) :
    KeptI x0 s (commitAhead x0 x1 x2 t) := by
  unfold commitAhead
  try dsimp only
  repeat' first | (with_reducible first | assumption | apply dropPage_keptI | apply modPantry_keptI | apply modSeq_keptI) | split | dsimp only | intro _

theorem sharePrefix_keptI {s t : State} (x0 : InstId) (x1 : Nat) (x2 : List Nat) (x3 : AheadPage) (h : KeptI x0 s t) :
    KeptI x0 s (sharePrefix x0 x1 x2 x3 t) := by
  unfold sharePrefix
  try dsimp only
  repeat' first | (with_reducible first | assumption | apply modHouse_keptI | apply modPantry_keptI | apply modSeq_keptI | apply foldl_keptI) | split | dsimp only | intro _

theorem commitPrefix_keptI {s t : State} (x0 : InstId) (x1 x2 : Nat) (x3 : List Nat) (h : KeptI x0 s t) :
    KeptI x0 s (commitPrefix x0 x1 x2 x3 t) := by
  unfold commitPrefix
  try dsimp only
  repeat' first | (with_reducible first | assumption | apply sharePrefix_keptI | apply writeList_keptI | apply foldl_keptI) | split | dsimp only | intro _

theorem notePrefix_keptI {s t : State} (x0 : InstId) (x1 x2 : Nat) (h : KeptI x0 s t) :
    KeptI x0 s (notePrefix x0 x1 x2 t) := by
  unfold notePrefix
  try dsimp only
  repeat' first | (with_reducible first | assumption | apply modHouse_keptI) | split | dsimp only | intro _

theorem commitRebuild_keptI {s t : State} (x0 : InstId) (x1 : Nat) (h : KeptI x0 s t) :
    KeptI x0 s (commitRebuild x0 x1 t) := by
  unfold commitRebuild
  try dsimp only
  repeat' first | (with_reducible first | assumption | apply commitAhead_keptI | apply writeList_keptI | apply foldl_keptI) | split | dsimp only | intro _

theorem commitTarget_keptI {s t : State} (x0 : InstId) (x1 : Nat) (h : KeptI x0 s t) :
    KeptI x0 s (commitTarget x0 x1 t) := by
  unfold commitTarget
  try dsimp only
  repeat' first | (with_reducible first | assumption | apply commitAhead_keptI | apply freeAhead_keptI | apply writeList_keptI | apply foldl_keptI) | split | dsimp only | intro _

theorem commitDraft_keptI {s t : State} (x0 : InstId) (x1 x2 x3 : Nat) (h : KeptI x0 s t) :
    KeptI x0 s (commitDraft x0 x1 x2 x3 t) := by
  unfold commitDraft
  try dsimp only
  repeat' first | (with_reducible first | assumption | apply commitAhead_keptI | apply writeList_keptI | apply foldl_keptI) | split | dsimp only | intro _

theorem trimDraft_keptI {s t : State} (x0 : InstId) (x1 x2 : Nat) (h : KeptI x0 s t) :
    KeptI x0 s (trimDraft x0 x1 x2 t) := by
  unfold trimDraft
  try dsimp only
  repeat' first | (with_reducible first | assumption | apply commitDraft_keptI | apply freeAhead_keptI | apply modMir_keptI | apply modSeq_keptI | apply writeList_keptI | apply foldl_keptI) | split | dsimp only | intro _

theorem evictPass_keptI {s t : State} (x0 : InstId) (x1 : List Machine.Seq) (x2 x3 : Nat) (h : KeptI x0 s t) :
    KeptI x0 s (evictPass x0 x1 x2 x3 t) := by
  induction x1 generalizing x2 x3 t with
  | nil => (unfold evictPass; (try dsimp only); exact h)
  | cons a b ih =>
    unfold evictPass
    try dsimp only
    repeat' first | (with_reducible first | apply ih | assumption | apply postSeq_keptI) | split | dsimp only | intro _

theorem evictResumes_keptI {s t : State} (x0 : InstId) (x1 : List Nat) (h : KeptI x0 s t) :
    KeptI x0 s (evictResumes x0 x1 t) := by
  unfold evictResumes
  try dsimp only
  repeat' first | (with_reducible first | assumption | apply evictPass_keptI) | split | dsimp only | intro _

/-! ### Machine/Results.lean -/

theorem pushResult_keptI {s t : State} (x0 : InstId) (x1 : Nat) (x2 : Bool) (x3 : ResultEntry) (h : KeptI x0 s t) :
    KeptI x0 s (pushResult x0 x1 x2 x3 t) := by
  unfold pushResult
  try dsimp only
  repeat' first | (with_reducible first | assumption | apply modWin_keptI | apply raiseIrq_keptI) | split | dsimp only | intro _

theorem commandLatch_keptI {s t : State} (x0 : InstId) (x1 x2 x3 x4 : Nat) (h : KeptI x0 s t) :
    KeptI x0 s (commandLatch x0 x1 x2 x3 x4 t) := by
  unfold commandLatch
  try dsimp only
  repeat' first | (with_reducible first | assumption | apply hbmPut_keptI | apply traceMark_keptI) | split | dsimp only | intro _

theorem modCmd_keptI {s t : State} (x0 : InstId) (x1 : Nat) (x2 : MboxCmd → MboxCmd) (h : KeptI x0 s t) :
    KeptI x0 s (modCmd x0 x1 x2 t) := by
  unfold modCmd
  try dsimp only
  repeat' first | (with_reducible first | assumption | apply modMir_keptI) | split | dsimp only | intro _

theorem finishCmd_keptI {s t : State} (x0 : InstId) (x1 x2 x3 : Nat) (x4 : List Byte) (h : KeptI x0 s t) :
    KeptI x0 s (finishCmd x0 x1 x2 x3 x4 t) := by
  unfold finishCmd
  try dsimp only
  repeat' first | (with_reducible first | assumption | apply commandLatch_keptI | apply duskDrop_keptI | apply modMir_keptI | apply pushResult_keptI | apply ringPush_keptI) | split | dsimp only | intro _

theorem closeCmd_keptI {s t : State} (x0 : InstId) (x1 : Nat) (h : KeptI x0 s t) :
    KeptI x0 s (closeCmd x0 x1 t) := by
  unfold closeCmd
  try dsimp only
  repeat' first | (with_reducible first | assumption | apply finishCmd_keptI) | split | dsimp only | intro _

theorem resolveEvent_keptI {s t : State} (x0 : InstId) (x1 : Option Nat) (x2 : Bool) (h : KeptI x0 s t) :
    KeptI x0 s (resolveEvent x0 x1 x2 t) := by
  unfold resolveEvent
  try dsimp only
  repeat' first | (with_reducible first | assumption | apply closeCmd_keptI | apply modCmd_keptI) | split | dsimp only | intro _

theorem endWatches_keptI {s t : State} (x0 : InstId) (x1 : Nat) (x2 : Watch → Bool) (h : KeptI x0 s t) :
    KeptI x0 s (endWatches x0 x1 x2 t) := by
  unfold endWatches
  try dsimp only
  repeat' first | (with_reducible first | assumption | apply finishCmd_keptI | apply modStudy_keptI | apply foldl_keptI) | split | dsimp only | intro _

theorem watchAppended_keptI {s t : State} (x0 : InstId) (x1 : Nat) (h : KeptI x0 s t) :
    KeptI x0 s (watchAppended x0 x1 t) := by
  unfold watchAppended
  try dsimp only
  repeat' first | (with_reducible first | assumption | apply endWatches_keptI) | split | dsimp only | intro _

theorem watchSweep_keptI {s t : State} (x0 : InstId) (x1 : State) (h : KeptI x0 s t) :
    KeptI x0 s (watchSweep x0 x1 t) := by
  unfold watchSweep
  try dsimp only
  repeat' first | (with_reducible first | assumption | apply endWatches_keptI) | split | dsimp only | intro _

theorem faultCommands_keptI {s t : State} (x0 : InstId) (x1 : Nat) (h : KeptI x0 s t) :
    KeptI x0 s (faultCommands x0 x1 t) := by
  unfold faultCommands
  try dsimp only
  repeat' first | (with_reducible first | assumption | apply finishCmd_keptI | apply modStudy_keptI | apply foldl_keptI) | split | dsimp only | intro _

/-! ### Machine/Directory.lean -/

theorem requestBit_keptI {s t : State} (x0 : InstId) (x1 : Nat) (x2 : Bool) (h : KeptI x0 s t) :
    KeptI x0 s (requestBit x0 x1 x2 t) := by
  unfold requestBit
  try dsimp only
  repeat' first | (with_reducible first | assumption | apply modDir_keptI | apply modModel_keptI | apply raiseIrq_keptI) | split | dsimp only | intro _

theorem chooseVictims_keptI {s t : State} (x0 : InstId) (x1 : Nat) (h : KeptI x0 s t) :
    KeptI x0 s (chooseVictims x0 x1 t) := by
  induction x1 generalizing  t with
  | zero => (unfold chooseVictims; (try dsimp only); exact h)
  | succ n ih =>
    unfold chooseVictims
    try dsimp only
    repeat' first | (with_reducible first | apply ih | assumption | apply modModel_keptI | apply requestBit_keptI) | split | dsimp only | intro _

theorem dirCheck_keptI {s t : State} (x0 : InstId) (h : KeptI x0 s t) :
    KeptI x0 s (dirCheck x0 t) := by
  unfold dirCheck
  try dsimp only
  repeat' first | (with_reducible first | assumption | apply chooseVictims_keptI) | split | dsimp only | intro _

theorem dirEdge_keptI {s t : State} (x0 : InstId) (x1 : State) (h : KeptI x0 s t) :
    KeptI x0 s (dirEdge x0 x1 t) := by
  unfold dirEdge
  try dsimp only
  repeat' first | (with_reducible first | assumption | apply dirCheck_keptI) | split | dsimp only | intro _

theorem grantSlots_keptI {s t : State} (x0 : InstId) (x1 : Nat) (h : KeptI x0 s t) :
    KeptI x0 s (grantSlots x0 x1 t) := by
  induction x1 generalizing  t with
  | zero => (unfold grantSlots; (try dsimp only); exact h)
  | succ n ih =>
    unfold grantSlots
    try dsimp only
    repeat' first | (with_reducible first | apply ih | assumption | apply modDir_keptI | apply modModel_keptI | apply requestBit_keptI) | split | dsimp only | intro _

theorem demandModel_keptI {s t : State} (x0 : InstId) (x1 : Nat) (x2 : Bool) (h : KeptI x0 s t) :
    KeptI x0 s (demandModel x0 x1 x2 t) := by
  unfold demandModel
  try dsimp only
  repeat' first | (with_reducible first | assumption | apply dirCheck_keptI | apply grantSlots_keptI | apply modDir_keptI | apply modModel_keptI | apply requestBit_keptI | apply ringPush_keptI) | split | dsimp only | intro _

theorem epochGone_keptI {s t : State} (x0 : InstId) (x1 : Nat) (h : KeptI x0 s t) :
    KeptI x0 s (epochGone x0 x1 t) := by
  unfold epochGone
  try dsimp only
  repeat' first | (with_reducible first | assumption | apply modDir_keptI | apply raiseIrq_keptI) | split | dsimp only | intro _

theorem retireCheck_keptI {s t : State} (x0 : InstId) (x1 : Nat) (h : KeptI x0 s t) :
    KeptI x0 s (retireCheck x0 x1 t) := by
  unfold retireCheck
  try dsimp only
  repeat' first | (with_reducible first | assumption | apply epochGone_keptI | apply grantSlots_keptI | apply modModel_keptI) | split | dsimp only | intro _

theorem libAssign_keptI {s t : State} (x0 : InstId) (x1 : Nat) (h : KeptI x0 s t) :
    KeptI x0 s (libAssign x0 x1 t) := by
  induction x1 generalizing  t with
  | zero => (unfold libAssign; (try dsimp only); exact h)
  | succ n ih =>
    unfold libAssign
    try dsimp only
    repeat' first | (with_reducible first | apply ih | assumption | apply modLib_keptI | apply ringPush_keptI) | split | dsimp only | intro _

theorem demandPlan_keptI {s t : State} (x0 : InstId) (x1 : Nat) (x2 : Bool) (h : KeptI x0 s t) :
    KeptI x0 s (demandPlan x0 x1 x2 t) := by
  unfold demandPlan
  try dsimp only
  repeat' first | (with_reducible first | assumption | apply libAssign_keptI | apply modLib_keptI | apply ringPush_keptI) | split | dsimp only | intro _

/-! ### Machine/Life.lean -/

theorem recordDone_keptI {s t : State} (x0 : InstId) (x1 : Nat) (h : KeptI x0 s t) :
    KeptI x0 s (recordDone x0 x1 t) := by
  unfold recordDone
  try dsimp only
  repeat' first | (with_reducible first | assumption | apply journalRecord_keptI | apply modSeq_keptI | apply writeAttic_keptI) | split | dsimp only | intro _

theorem coolRecord_keptI {s t : State} (x0 : InstId) (x1 : Nat) (h : KeptI x0 s t) :
    KeptI x0 s (coolRecord x0 x1 t) := by
  unfold coolRecord
  try dsimp only
  repeat' first | (with_reducible first | assumption | apply modRec_keptI | apply writeAttic_keptI) | split | dsimp only | intro _

theorem coolExcess_keptI {s t : State} (x0 : InstId) (x1 : Nat) (h : KeptI x0 s t) :
    KeptI x0 s (coolExcess x0 x1 t) := by
  induction x1 generalizing  t with
  | zero => (unfold coolExcess; (try dsimp only); exact h)
  | succ n ih =>
    unfold coolExcess
    try dsimp only
    repeat' first | (with_reducible first | apply ih | assumption | apply postSeq_keptI) | split | dsimp only | intro _

theorem claimOwn_keptI {s t : State} (x0 : InstId) (x1 : Nat) (h : KeptI x0 s t) :
    KeptI x0 s (claimOwn x0 x1 t) := by
  unfold claimOwn
  try dsimp only
  repeat' first | (with_reducible first | assumption | apply demandPlan_keptI) | split | dsimp only | intro _

theorem warmRecord_keptI {s t : State} (x0 : InstId) (x1 : Nat) (h : KeptI x0 s t) :
    KeptI x0 s (warmRecord x0 x1 t) := by
  unfold warmRecord
  try dsimp only
  repeat' first | (with_reducible first | assumption | apply coolExcess_keptI | apply coolRecord_keptI | apply flushBcast_keptI | apply modSeq_keptI) | split | dsimp only | intro _

theorem resumeSeq_keptI {s t : State} (x0 : InstId) (x1 : Nat) (h : KeptI x0 s t) :
    KeptI x0 s (resumeSeq x0 x1 t) := by
  unfold resumeSeq
  try dsimp only
  repeat' first | (with_reducible first | assumption | apply enterState_keptI | apply modRec_keptI | apply modSeq_keptI | apply releasePages_keptI | apply takePrefix_keptI | apply warmRecord_keptI) | split | dsimp only | intro _

theorem settlePrefill_keptI {s t : State} (x0 : InstId) (x1 : Nat) (h : KeptI x0 s t) :
    KeptI x0 s (settlePrefill x0 x1 t) := by
  unfold settlePrefill
  try dsimp only
  repeat' first | (with_reducible first | assumption | apply enterState_keptI) | split | dsimp only | intro _

theorem dropDraft_keptI {s t : State} (x0 : InstId) (x1 : Nat) (h : KeptI x0 s t) :
    KeptI x0 s (dropDraft x0 x1 t) := by
  unfold dropDraft
  try dsimp only
  repeat' first | (with_reducible first | assumption | apply modSeq_keptI) | split | dsimp only | intro _

theorem invalidateKv_keptI {s t : State} (x0 : InstId) (x1 : Nat) (h : KeptI x0 s t) :
    KeptI x0 s (invalidateKv x0 x1 t) := by
  unfold invalidateKv
  try dsimp only
  repeat' first | (with_reducible first | assumption | apply modSeq_keptI | apply releasePages_keptI) | split | dsimp only | intro _

theorem freeSeq_keptI {s t : State} (x0 : InstId) (x1 : Nat) (h : KeptI x0 s t) :
    KeptI x0 s (freeSeq x0 x1 t) := by
  unfold freeSeq
  try dsimp only
  repeat' first | (with_reducible first | assumption | apply duskClear_keptI | apply hbmPut_keptI | apply journal_keptI | apply modMir_keptI | apply retireCheck_keptI | apply foldl_keptI) | split | dsimp only | intro _

theorem freeHouse_keptI {s t : State} (x0 : InstId) (x1 : Nat) (h : KeptI x0 s t) :
    KeptI x0 s (freeHouse x0 x1 t) := by
  unfold freeHouse
  try dsimp only
  repeat' first | (with_reducible first | assumption | apply modMir_keptI) | split | dsimp only | intro _

theorem dropWaiting_keptI {s t : State} (x0 : InstId) (x1 : Nat) (h : KeptI x0 s t) :
    KeptI x0 s (dropWaiting x0 x1 t) := by
  unfold dropWaiting
  try dsimp only
  repeat' first | (with_reducible first | assumption | apply finishCmd_keptI | apply modSeq_keptI | apply foldl_keptI) | split | dsimp only | intro _

theorem finalSeq_keptI {s t : State} (x0 : InstId) (x1 x2 : Nat) (h : KeptI x0 s t) :
    KeptI x0 s (finalSeq x0 x1 x2 t) := by
  unfold finalSeq
  try dsimp only
  repeat' first | (with_reducible first | assumption | apply dropWaiting_keptI | apply duskClear_keptI | apply freeHouse_keptI | apply freeSeq_keptI | apply modHouse_keptI | apply modRec_keptI | apply modSeq_keptI | apply postSeq_keptI | apply postSeqRecord_keptI | apply recordDone_keptI | apply releasePages_keptI | apply retireCheck_keptI | apply foldl_keptI) | split | dsimp only | intro _

theorem endSeq_keptI {s t : State} (x0 : InstId) (x1 : Nat) (x2 : SeqState) (x3 : Nat) (h : KeptI x0 s t) :
    KeptI x0 s (endSeq x0 x1 x2 x3 t) := by
  unfold endSeq
  try dsimp only
  repeat' first | (with_reducible first | assumption | apply dirEdge_keptI | apply finalSeq_keptI | apply modSeq_keptI) | split | dsimp only | intro _

theorem parkSeq_keptI {s t : State} (x0 : InstId) (x1 : Nat) (x2 : Bool) (x3 : Nat) (h : KeptI x0 s t) :
    KeptI x0 s (parkSeq x0 x1 x2 x3 t) := by
  unfold parkSeq
  try dsimp only
  repeat' first | (with_reducible first | assumption | apply dirEdge_keptI | apply duskSet_keptI | apply enterState_keptI | apply freeAhead_keptI | apply modRec_keptI | apply modSeq_keptI | apply postSeqRecord_keptI | apply recordDone_keptI | apply releasePages_keptI | apply writeList_keptI) | split | dsimp only | intro _

/-! ### Machine/Kill.lean -/

theorem killAcct_keptI {s t : State} (x0 : Bool) (x1 : Machine.Step) (x3 : InstId) (h : KeptI x3 s t) :
    KeptI x3 s (killAcct x0 x1 t x3) := by
  unfold killAcct
  try dsimp only
  repeat' first | (with_reducible first | assumption | apply modAcct_keptI | apply foldl_keptI) | split | dsimp only | intro _

theorem sweepSteps_keptI {s t : State} (x0 : InstId) (h : KeptI x0 s t) :
    KeptI x0 s (sweepSteps x0 t) := by
  unfold sweepSteps
  try dsimp only
  repeat' first | (with_reducible first | assumption | apply modKit_keptI) | split | dsimp only | intro _

theorem killStep_keptI {s t : State} (x0 : InstId) (x1 : Nat) (x2 : Bool) (h : KeptI x0 s t) :
    KeptI x0 s (killStep x0 x1 x2 t) := by
  unfold killStep
  try dsimp only
  repeat' first | (with_reducible first | assumption | apply killAcct_keptI | apply modInst_keptI | apply modKit_keptI | apply modMir_keptI | apply modOutpost_keptI | apply modSeq_keptI | apply modStair_keptI | apply modStep_keptI | apply postSeq_keptI | apply ringPush_keptI | apply sweepSteps_keptI | apply foldl_keptI) | (unfold LarderKeeps; intro x hx; first | exact hx | exact discardStep_wf _ _ hx | exact finishRow_wf _ hx | exact drainPort_wf hx | (split <;> exact hx) | (split <;> split <;> exact hx) | simpa using hx | (dsimp only; split <;> first | exact hx | simpa using hx)) | split | dsimp only | intro _ | with_reducible apply KeptI.raw

theorem rejectDeferred_keptI {s t : State} (x0 : InstId) (x1 x2 : Nat) (x3 : Deferred → Bool) (h : KeptI x0 s t) :
    KeptI x0 s (rejectDeferred x0 x1 x2 x3 t) := by
  unfold rejectDeferred
  try dsimp only
  repeat' first | (with_reducible first | assumption | apply journal_keptI | apply modCtx_keptI | apply rejectLeft_keptI | apply foldl_keptI) | split | dsimp only | intro _

theorem tearDown_keptI {s t : State} (x0 : InstId) (x1 : Nat) (h : KeptI x0 s t) :
    KeptI x0 s (tearDown x0 x1 t) := by
  unfold tearDown
  try dsimp only
  repeat' first | (with_reducible first | assumption | apply broadcast_keptI | apply faultCommands_keptI | apply killStep_keptI | apply logFault_keptI | apply modCtx_keptI | apply modMir_keptI | apply postUnit_keptI | apply rejectDeferred_keptI | apply foldl_keptI) | split | dsimp only | intro _

theorem tearDue_keptI {s t : State} (x0 : InstId) (h : KeptI x0 s t) :
    KeptI x0 s (tearDue x0 t) := by
  unfold tearDue
  try dsimp only
  repeat' first | (with_reducible first | assumption | apply tearDown_keptI | apply foldl_keptI) | split | dsimp only | intro _

theorem settled_keptI {s t : State} (x0 : InstId) (x1 : State) (h : KeptI x0 s t) :
    KeptI x0 s (settled x0 x1 t) := by
  unfold settled
  try dsimp only
  repeat' first | (with_reducible first | assumption | apply mirrorOut_keptI | apply tearDue_keptI | apply watchSweep_keptI) | split | dsimp only | intro _

theorem settle_keptI {s t : State} (x0 : InstId) (x1 : State) (h : KeptI x0 s t) :
    ResOk (KeptI x0 s) (settle x0 x1 t) := by
  unfold settle
  try dsimp only
  repeat' first | (with_reducible first | assumption | apply settled_keptI | apply ResOk.next | exact ResOk.fault _) | split | dsimp only | intro _

theorem markLost_keptI {s t : State} (x0 : InstId) (h : KeptI x0 s t) :
    KeptI x0 s (markLost x0 t) := by
  unfold markLost
  try dsimp only
  repeat' first | (with_reducible first | assumption | apply modRel_keptI) | split | dsimp only | intro _

theorem mirrorLost_keptI {s t : State} (x0 : InstId) (h : KeptI x0 s t) :
    KeptI x0 s (mirrorLost x0 t) := by
  unfold mirrorLost
  try dsimp only
  repeat' first | (with_reducible first | assumption | apply logFault_keptI | apply markLost_keptI) | split | dsimp only | intro _

theorem fatalDump_keptI {s t : State} (x0 : InstId) (x1 x2 : Nat) (h : KeptI x0 s t) :
    KeptI x0 s (fatalDump x0 x1 x2 t) := by
  unfold fatalDump
  try dsimp only
  repeat' first | (with_reducible first | assumption | apply modStudy_keptI) | split | dsimp only | intro _

theorem failInstance_keptI {s t : State} (x0 : InstId) (x1 : Nat) (h : KeptI x0 s t) : KeptI x0 s (failInstance x0 x1 t) := by
  unfold Sys2Proof.Machine.failInstance
  split
  · exact h
  · dsimp only
    generalize hu : modRel x0 _ _ = u
    have hk : KeptI x0 s u := by
      rw [← hu]
      repeat' first | with_reducible assumption | with_reducible apply fatalDump_keptI | with_reducible apply killStep_keptI | with_reducible apply modRel_keptI | with_reducible apply foldl_keptI | (intro _)
    split
    · rename_i hc
      simp only [Bool.and_eq_true, Bool.not_eq_true'] at hc
      exact KeptI.cross hk (hk.toKept.trans ((mirrorLost_keptI x0 (KeptI.refl _ u)).toKept.trans (markLost_keptI (Machine.other x0) (KeptI.refl _ _)).toKept)) hc.1
    · exact hk

theorem instFault_keptI {s t : State} (x0 : InstId) (x1 x2 x3 x4 x5 : Nat) (x6 : Bool) (h : KeptI x0 s t) :
    KeptI x0 s (instFault x0 x1 x2 x3 x4 x5 x6 t) := by
  unfold instFault
  try dsimp only
  repeat' first | (with_reducible first | assumption | apply failInstance_keptI | apply fatalDump_keptI | apply killStep_keptI | apply logFault_keptI | apply modRel_keptI | apply foldl_keptI) | split | dsimp only | intro _

theorem outpostFault_keptI {s t : State} (x0 : InstId) (x1 x2 x3 : Nat) (h : KeptI x0 s t) :
    KeptI x0 s (outpostFault x0 x1 x2 x3 t) := by
  unfold outpostFault
  try dsimp only
  repeat' first | (with_reducible first | assumption | apply instFault_keptI | apply modOutpost_keptI) | (unfold LarderKeeps; intro x hx; first | exact hx | exact discardStep_wf _ _ hx | exact finishRow_wf _ hx | exact drainPort_wf hx | (split <;> exact hx) | (split <;> split <;> exact hx) | simpa using hx | (dsimp only; split <;> first | exact hx | simpa using hx)) | split | dsimp only | intro _

/-! ### Machine/Admission.lean -/

theorem admitRequest_keptI {s t : State} (x0 : InstId) (x1 : Nat) (x2 : Request) (h : KeptI x0 s t) :
    KeptI x0 s (admitRequest x0 x1 x2 t) := by
  unfold admitRequest
  try dsimp only
  repeat' first | (with_reducible first | assumption | apply journal_keptI | apply modCtx_keptI | apply modMir_keptI | apply postSeq_keptI | apply ringPush_keptI | apply writeList_keptI | apply foldl_keptI) | split | dsimp only | intro _

theorem deferTimer_keptI {s t : State} (x0 : InstId) (x1 : Nat) (h : KeptI x0 s t) :
    KeptI x0 s (deferTimer x0 x1 t) := by
  unfold deferTimer
  try dsimp only
  repeat' first | (with_reducible first | assumption | apply duskUnit_keptI | apply modMir_keptI | apply foldl_keptI) | split | dsimp only | intro _

theorem defer_keptI {s t : State} (x0 : InstId) (x1 x2 : Nat) (x3 : Request) (x4 : DeferWhy) (h : KeptI x0 s t) :
    KeptI x0 s (defer x0 x1 x2 x3 x4 t) := by
  unfold defer
  try dsimp only
  repeat' first | (with_reducible first | assumption | apply deferTimer_keptI | apply journal_keptI | apply modCtx_keptI | apply ringPush_keptI) | split | dsimp only | intro _

theorem deferDemand_keptI {s t : State} (x0 : InstId) (x1 x2 : Nat) (h : KeptI x0 s t) :
    KeptI x0 s (deferDemand x0 x1 x2 t) := by
  unfold deferDemand
  try dsimp only
  repeat' first | (with_reducible first | assumption | apply demandModel_keptI | apply demandPlan_keptI) | split | dsimp only | intro _

theorem undefer_keptI {s t : State} (x0 : InstId) (x1 x2 : Nat) (h : KeptI x0 s t) :
    KeptI x0 s (undefer x0 x1 x2 t) := by
  unfold undefer
  try dsimp only
  repeat' first | (with_reducible first | assumption | apply deferTimer_keptI | apply journal_keptI | apply modCtx_keptI) | split | dsimp only | intro _

theorem reevaluate_keptI {s t : State} (x0 : InstId) (x1 x2 : Nat) (h : KeptI x0 s t) :
    KeptI x0 s (reevaluate x0 x1 x2 t) := by
  unfold reevaluate
  try dsimp only
  repeat' first | (with_reducible first | assumption | apply admitRequest_keptI | apply modCtx_keptI | apply rejectLeft_keptI | apply undefer_keptI) | split | dsimp only | intro _

theorem deferDemands_keptI {s t : State} (x0 : InstId) (h : KeptI x0 s t) :
    KeptI x0 s (deferDemands x0 t) := by
  unfold deferDemands
  try dsimp only
  repeat' first | (with_reducible first | assumption | apply deferDemand_keptI | apply foldl_keptI) | split | dsimp only | intro _

theorem reevaluateAll_keptI {s t : State} (x0 : InstId) (h : KeptI x0 s t) :
    KeptI x0 s (reevaluateAll x0 t) := by
  unfold reevaluateAll
  try dsimp only
  repeat' first | (with_reducible first | assumption | apply modFoyer_keptI | apply reevaluate_keptI | apply foldl_keptI) | split | dsimp only | intro _

theorem passHouse_keptI {s t : State} (x0 : InstId) (x1 : Household) (h : KeptI x0 s t) :
    KeptI x0 s (passHouse x0 x1 t) := by
  unfold passHouse
  try dsimp only
  repeat' first | (with_reducible first | assumption | apply modSeq_keptI | apply postSeq_keptI | apply ringPush_keptI | apply foldl_keptI) | split | dsimp only | intro _

theorem passAll_keptI {s t : State} (x0 : InstId) (h : KeptI x0 s t) :
    KeptI x0 s (passAll x0 t) := by
  unfold passAll
  try dsimp only
  repeat' first | (with_reducible first | assumption | apply passHouse_keptI | apply foldl_keptI) | split | dsimp only | intro _

/-! ### Machine/Append.lean -/

theorem postProgress_keptI {s t : State} (x0 : InstId) (x1 : Nat) (h : KeptI x0 s t) :
    KeptI x0 s (postProgress x0 x1 t) := by
  unfold postProgress
  try dsimp only
  repeat' first | (with_reducible first | assumption | apply modRec_keptI | apply postSeqRecord_keptI) | split | dsimp only | intro _

theorem endAppend_keptI {s t : State} (x0 : InstId) (x1 : Nat) (x2 : AppendEnd) (h : KeptI x0 s t) :
    KeptI x0 s (endAppend x0 x1 x2 t) := by
  unfold endAppend
  try dsimp only
  repeat' first | (with_reducible first | assumption | apply endSeq_keptI | apply enterState_keptI | apply postProgress_keptI | apply postSeqRecord_keptI) | split | dsimp only | intro _

theorem advancePenalty_keptI {s t : State} (x0 : InstId) (x1 : Nat) (h : KeptI x0 s t) :
    KeptI x0 s (advancePenalty x0 x1 t) := by
  unfold advancePenalty
  try dsimp only
  repeat' first | (with_reducible first | assumption | apply modRec_keptI) | split | dsimp only | intro _

theorem appendExtend_keptI {s t : State} (x0 : InstId) (x1 : Nat) (x2 : List Nat) (h : KeptI x0 s t) :
    KeptI x0 s (appendExtend x0 x1 x2 t) := by
  unfold appendExtend
  try dsimp only
  repeat' first | (with_reducible first | assumption | apply advancePenalty_keptI | apply hbmPut_keptI | apply modRec_keptI | apply modSeq_keptI | apply watchAppended_keptI | apply foldl_keptI) | split | dsimp only | intro _

theorem appendOne_keptI {s : State} (i : InstId) (lid : Nat) (p : Option Plan) (m e : Bool) (n : Nat) (a : Appending) (k : Tok)
    (h : KeptI i s a.s) : KeptI i s (appendOne i lid p m e n a k).s := by
  unfold appendOne
  split
  · dsimp only
    repeat' first | with_reducible assumption | with_reducible apply hbmPut_keptI | with_reducible apply modSeq_keptI | split
  · exact h

theorem appends_keptI {s : State} (i : InstId) (lid : Nat) (p : Option Plan) (m e : Bool) (n : Nat) (l : List Tok) :
    ∀ a : Appending, KeptI i s a.s → KeptI i s (l.foldl (appendOne i lid p m e n) a).s := by
  induction l with
  | nil => exact fun _ h => h
  | cons k l ih => exact fun a h => ih _ (appendOne_keptI i lid p m e n a k h)

theorem appendAll_keptI {s t : State} (i : InstId) (lid : Nat) (toks : List Tok) (h : KeptI i s t) : KeptI i s (appendAll i lid toks t).s :=
  appends_keptI i lid _ _ _ _ toks _ h

/-! ### Machine/Peers.lean -/

theorem sendMsg_keptI {s t : State} (x0 : InstId) (x1 : PeerMsg) (h : KeptI x0 s t) :
    KeptI x0 s (sendMsg x0 x1 t) := by
  unfold sendMsg
  try dsimp only
  repeat' first | (with_reducible first | assumption | apply modStair_keptI | apply ringPush_keptI) | split | dsimp only | intro _

theorem announceAll_keptI {s t : State} (x0 : InstId) (h : KeptI x0 s t) :
    KeptI x0 s (announceAll x0 t) := by
  unfold announceAll
  try dsimp only
  repeat' first | (with_reducible first | assumption | apply modStair_keptI | apply sendMsg_keptI | apply foldl_keptI) | split | dsimp only | intro _

theorem announceChange_keptI {s t : State} (x0 : InstId) (h : KeptI x0 s t) :
    KeptI x0 s (announceChange x0 t) := by
  unfold announceChange
  try dsimp only
  repeat' first | (with_reducible first | assumption | apply announceAll_keptI) | split | dsimp only | intro _

theorem setRole_keptI {s t : State} (x0 : InstId) (x1 : Nat) (h : KeptI x0 s t) :
    KeptI x0 s (setRole x0 x1 t) := by
  unfold setRole
  try dsimp only
  repeat' first | (with_reducible first | assumption | apply announceAll_keptI | apply modStair_keptI) | split | dsimp only | intro _

theorem raiseGen_keptI {s t : State} (x0 : InstId) (h : KeptI x0 s t) :
    KeptI x0 s (raiseGen x0 t) := by
  unfold raiseGen
  try dsimp only
  repeat' first | (with_reducible first | assumption | apply announceAll_keptI | apply modStair_keptI) | split | dsimp only | intro _

theorem notePeer_keptI {s t : State} (x0 : InstId) (x1 x2 x3 : Nat) (h : KeptI x0 s t) :
    KeptI x0 s (notePeer x0 x1 x2 x3 t) := by
  unfold notePeer
  try dsimp only
  repeat' first | (with_reducible first | assumption | apply modStair_keptI) | split | dsimp only | intro _

theorem modOut_keptI {s t : State} (x0 : InstId) (x1 : Nat) (x2 : OutXfer → OutXfer) (h : KeptI x0 s t) :
    KeptI x0 s (modOut x0 x1 x2 t) := by
  unfold modOut
  try dsimp only
  repeat' first | (with_reducible first | assumption | apply modMir_keptI) | split | dsimp only | intro _

theorem modIn_keptI {s t : State} (x0 : InstId) (x1 : InXfer) (x2 : InXfer → InXfer) (h : KeptI x0 s t) :
    KeptI x0 s (modIn x0 x1 x2 t) := by
  unfold modIn
  try dsimp only
  repeat' first | (with_reducible first | assumption | apply modMir_keptI) | split | dsimp only | intro _

theorem sendOut_keptI {s t : State} (x0 : InstId) (x1 : PeerMsg) (h : KeptI x0 s t) :
    KeptI x0 s (sendOut x0 x1 t) := by
  unfold sendOut
  try dsimp only
  repeat' first | (with_reducible first | assumption | apply modOut_keptI | apply sendMsg_keptI) | split | dsimp only | intro _

theorem sendIn_keptI {s t : State} (x0 : InstId) (x1 : InXfer) (x2 : PeerMsg) (h : KeptI x0 s t) :
    KeptI x0 s (sendIn x0 x1 x2 t) := by
  unfold sendIn
  try dsimp only
  repeat' first | (with_reducible first | assumption | apply modIn_keptI | apply sendMsg_keptI) | split | dsimp only | intro _

theorem sendOffer_keptI {s t : State} (x0 : InstId) (x1 : OutXfer) (h : KeptI x0 s t) :
    KeptI x0 s (sendOffer x0 x1 t) := by
  unfold sendOffer
  try dsimp only
  repeat' first | (with_reducible first | assumption | apply sendOut_keptI) | split | dsimp only | intro _

theorem sendData_keptI {s t : State} (x0 : InstId) (x1 : OutXfer) (h : KeptI x0 s t) :
    KeptI x0 s (sendData x0 x1 t) := by
  unfold sendData
  try dsimp only
  repeat' first | (with_reducible first | assumption | apply sendOut_keptI | apply foldl_keptI) | split | dsimp only | intro _

theorem sendHandover_keptI {s t : State} (x0 : InstId) (x1 : OutXfer) (h : KeptI x0 s t) :
    KeptI x0 s (sendHandover x0 x1 t) := by
  unfold sendHandover
  try dsimp only
  repeat' first | (with_reducible first | assumption | apply sendOut_keptI) | split | dsimp only | intro _

theorem resend_keptI {s t : State} (x0 : InstId) (x1 : OutXfer) (h : KeptI x0 s t) :
    KeptI x0 s (resend x0 x1 t) := by
  unfold resend
  try dsimp only
  repeat' first | (with_reducible first | assumption | apply sendData_keptI | apply sendHandover_keptI | apply sendOffer_keptI) | split | dsimp only | intro _

theorem closeOut_keptI {s t : State} (x0 : InstId) (x1 : OutXfer) (x2 : Bool) (h : KeptI x0 s t) :
    KeptI x0 s (closeOut x0 x1 x2 t) := by
  unfold closeOut
  try dsimp only
  repeat' first | (with_reducible first | assumption | apply duskClear_keptI | apply journal_keptI | apply modMir_keptI | apply modStair_keptI) | split | dsimp only | intro _

theorem abandonOut_keptI {s t : State} (x0 : InstId) (x1 : OutXfer) (h : KeptI x0 s t) :
    KeptI x0 s (abandonOut x0 x1 t) := by
  unfold abandonOut
  try dsimp only
  repeat' first | (with_reducible first | assumption | apply closeOut_keptI | apply sendMsg_keptI) | split | dsimp only | intro _

theorem abandonFor_keptI {s t : State} (x0 : InstId) (x1 : Nat) (h : KeptI x0 s t) :
    KeptI x0 s (abandonFor x0 x1 t) := by
  unfold abandonFor
  try dsimp only
  repeat' first | (with_reducible first | assumption | apply abandonOut_keptI | apply finishCmd_keptI) | split | dsimp only | intro _

theorem discardIn_keptI {s t : State} (x0 : InstId) (x1 : InXfer) (h : KeptI x0 s t) :
    KeptI x0 s (discardIn x0 x1 t) := by
  unfold discardIn
  try dsimp only
  repeat' first | (with_reducible first | assumption | apply duskClear_keptI | apply freeArrival_keptI | apply journal_keptI | apply modMir_keptI | apply modStair_keptI | apply foldl_keptI) | split | dsimp only | intro _

theorem openTransfer_keptI {s t : State} (x0 : InstId) (x1 x2 : Nat) (x3 : Bool) (x4 : Nat) (h : KeptI x0 s t) :
    KeptI x0 s (openTransfer x0 x1 x2 x3 x4 t) := by
  unfold openTransfer
  try dsimp only
  repeat' first | (with_reducible first | assumption | apply claimOwn_keptI | apply dropDraft_keptI | apply duskSet_keptI | apply enterState_keptI | apply journal_keptI | apply modMir_keptI | apply modRec_keptI | apply recordDone_keptI | apply sendOffer_keptI | apply warmRecord_keptI) | split | dsimp only | intro _

theorem startMigration_keptI {s t : State} (x0 : InstId) (x1 x2 : Nat) (x3 : Bool) (x4 : Nat) (h : KeptI x0 s t) :
    KeptI x0 s (startMigration x0 x1 x2 x3 x4 t) := by
  unfold startMigration
  try dsimp only
  repeat' first | (with_reducible first | assumption | apply finishCmd_keptI | apply openTransfer_keptI) | split | dsimp only | intro _

theorem applyMigrateOut_keptI {s t : State} (x0 : InstId) (x1 x2 : Nat) (x3 : Bool) (x4 : Nat) (h : KeptI x0 s t) :
    KeptI x0 s (applyMigrateOut x0 x1 x2 x3 x4 t) := by
  unfold applyMigrateOut
  try dsimp only
  repeat' first | (with_reducible first | assumption | apply finishCmd_keptI | apply modSeq_keptI | apply startMigration_keptI) | split | dsimp only | intro _

theorem endWaiting_keptI {s t : State} (x0 : InstId) (x1 : Nat) (x2 : SeqState) (x3 : Nat) (h : KeptI x0 s t) :
    KeptI x0 s (endWaiting x0 x1 x2 x3 t) := by
  unfold endWaiting
  try dsimp only
  repeat' first | (with_reducible first | assumption | apply abandonFor_keptI | apply endSeq_keptI) | split | dsimp only | intro _

theorem applyWaiting_keptI {s t : State} (x0 : InstId) (x1 : Nat) (h : KeptI x0 s t) :
    KeptI x0 s (applyWaiting x0 x1 t) := by
  unfold applyWaiting
  try dsimp only
  repeat' first | (with_reducible first | assumption | apply endWaiting_keptI | apply modSeq_keptI | apply parkSeq_keptI | apply startMigration_keptI | apply foldl_keptI) | split | dsimp only | intro _

theorem offerForward_keptI {s t : State} (x0 : InstId) (x1 x2 : Nat) (h : KeptI x0 s t) :
    KeptI x0 s (offerForward x0 x1 x2 t) := by
  unfold offerForward
  try dsimp only
  repeat' first | (with_reducible first | assumption | apply deferTimer_keptI | apply journal_keptI | apply modCtx_keptI | apply modMir_keptI | apply ringPush_keptI | apply sendOffer_keptI) | split | dsimp only | intro _

theorem offerForwards_keptI {s t : State} (x0 : InstId) (h : KeptI x0 s t) :
    KeptI x0 s (offerForwards x0 t) := by
  unfold offerForwards
  try dsimp only
  repeat' first | (with_reducible first | assumption | apply offerForward_keptI | apply foldl_keptI) | split | dsimp only | intro _

theorem newRequest_keptI {s t : State} (x0 : InstId) (x1 : Nat) (x2 : Request) (h : KeptI x0 s t) :
    KeptI x0 s (newRequest x0 x1 x2 t) := by
  unfold newRequest
  try dsimp only
  repeat' first | (with_reducible first | assumption | apply admitRequest_keptI | apply defer_keptI | apply deferDemand_keptI | apply modFoyer_keptI | apply offerForward_keptI | apply postReject_keptI | apply ringPush_keptI) | split | dsimp only | intro _

theorem ackPoint_keptI {s t : State} (x0 : InstId) (x1 : Nat) (h : KeptI x0 s t) :
    KeptI x0 s (ackPoint x0 x1 t) := by
  unfold ackPoint
  try dsimp only
  repeat' first | (with_reducible first | assumption | apply journal_keptI | apply modIn_keptI | apply modRel_keptI) | split | dsimp only | intro _

theorem takeForwarded_keptI {s t : State} (x0 : InstId) (h : KeptI x0 s t) :
    KeptI x0 s (takeForwarded x0 t) := by
  unfold takeForwarded
  try dsimp only
  repeat' first | (with_reducible first | assumption | apply ackPoint_keptI | apply modFoyer_keptI | apply newRequest_keptI | apply foldl_keptI) | split | dsimp only | intro _

theorem forwardBack_keptI {s t : State} (x0 : InstId) (x1 : OutXfer) (h : KeptI x0 s t) :
    KeptI x0 s (forwardBack x0 x1 t) := by
  unfold forwardBack
  try dsimp only
  repeat' first | (with_reducible first | assumption | apply deferTimer_keptI | apply modCtx_keptI) | split | dsimp only | intro _

theorem forwardTimer_keptI {s t : State} (x0 : InstId) (x1 : OutXfer) (h : KeptI x0 s t) :
    KeptI x0 s (forwardTimer x0 x1 t) := by
  unfold forwardTimer
  try dsimp only
  repeat' first | (with_reducible first | assumption | apply abandonOut_keptI | apply forwardBack_keptI | apply modOut_keptI | apply resend_keptI) | split | dsimp only | intro _

theorem forwardTimers_keptI {s t : State} (x0 : InstId) (h : KeptI x0 s t) :
    KeptI x0 s (forwardTimers x0 t) := by
  unfold forwardTimers
  try dsimp only
  repeat' first | (with_reducible first | assumption | apply forwardTimer_keptI | apply foldl_keptI) | split | dsimp only | intro _

theorem foyerRound_keptI {s t : State} (x0 : InstId) (h : KeptI x0 s t) :
    KeptI x0 s (foyerRound x0 t) := by
  unfold foyerRound
  try dsimp only
  repeat' first | (with_reducible first | assumption | apply deferDemands_keptI | apply forwardTimers_keptI | apply offerForwards_keptI | apply passAll_keptI | apply reevaluateAll_keptI | apply takeForwarded_keptI) | split | dsimp only | intro _

/-! ### Machine/Commit.lean -/

theorem fireDue_keptI {s t : State} (x0 : InstId) (x1 : Nat) (x2 : Flow) (h : KeptI x0 s t) :
    KeptI x0 s (fireDue x0 x1 x2 t) := by
  unfold fireDue
  try dsimp only
  repeat' first | (with_reducible first | assumption | apply fireSome_keptI) | split | dsimp only | intro _

theorem forceCheck_keptI {s t : State} (x0 : InstId) (h : KeptI x0 s t) :
    KeptI x0 s (forceCheck x0 t) := by
  unfold forceCheck
  try dsimp only
  repeat' first | (with_reducible first | assumption | apply postSeq_keptI | apply foldl_keptI) | split | dsimp only | intro _

theorem doMidnight_keptI {s t : State} (x0 : InstId) (x1 : Nat) (x2 : Bool) (h : KeptI x0 s t) :
    KeptI x0 s (doMidnight x0 x1 x2 t) := by
  unfold doMidnight
  try dsimp only
  repeat' first | (with_reducible first | assumption | apply broadcast_keptI | apply epochGone_keptI | apply foyerRound_keptI | apply grantSlots_keptI | apply journalObj_keptI | apply modKit_keptI | apply modMir_keptI | apply modModel_keptI | apply ringPush_keptI) | split | dsimp only | intro _

theorem startDiscovery_keptI {s t : State} (x0 : InstId) (x1 : Discovery) (h : KeptI x0 s t) :
    KeptI x0 s (startDiscovery x0 x1 t) := by
  unfold startDiscovery
  try dsimp only
  repeat' first | (with_reducible first | assumption | apply announceAll_keptI | apply modStair_keptI | apply foldl_keptI) | split | dsimp only | intro _

theorem morningStep_keptI {s t : State} (x0 : InstId) (h : KeptI x0 s t) :
    KeptI x0 s (morningStep x0 t) := by
  unfold morningStep
  try dsimp only
  repeat' first | (with_reducible first | assumption | apply broadcast_keptI | apply doMidnight_keptI | apply modKit_keptI | apply postSeq_keptI | apply startDiscovery_keptI | apply foldl_keptI) | split | dsimp only | intro _

theorem turnCheck_keptI {s t : State} (x0 : InstId) (h : KeptI x0 s t) :
    KeptI x0 s (turnCheck x0 t) := by
  unfold turnCheck
  try dsimp only
  repeat' first | (with_reducible first | assumption | apply broadcast_keptI | apply modKit_keptI | apply morningStep_keptI) | split | dsimp only | intro _

theorem closed_keptI {s t : State} (x0 : InstId) (x1 : State) (h : KeptI x0 s t) :
    KeptI x0 s (closed x0 x1 t) := by
  unfold closed
  try dsimp only
  repeat' first | (with_reducible first | assumption | apply coolExcess_keptI | apply dirEdge_keptI | apply evictResumes_keptI | apply forceCheck_keptI | apply foyerRound_keptI | apply libAssign_keptI | apply settled_keptI | apply turnCheck_keptI) | split | dsimp only | intro _

theorem endEvent_keptI {s t : State} (x0 : InstId) (x1 : State) (h : KeptI x0 s t) :
    ResOk (KeptI x0 s) (endEvent x0 x1 t) := by
  unfold endEvent
  try dsimp only
  repeat' first | (with_reducible first | assumption | apply closed_keptI | apply ResOk.next | exact ResOk.fault _) | split | dsimp only | intro _

theorem planErrorSeq_keptI {s t : State} (x0 : InstId) (x1 : Nat) (h : KeptI x0 s t) :
    KeptI x0 s (planErrorSeq x0 x1 t) := by
  unfold planErrorSeq
  try dsimp only
  repeat' first | (with_reducible first | assumption | apply endSeq_keptI | apply notePlanFaults_keptI) | split | dsimp only | intro _

theorem claimPlan_keptI {s t : State} (x0 : InstId) (x1 : Nat) (h : KeptI x0 s t) :
    KeptI x0 s (claimPlan x0 x1 t) := by
  unfold claimPlan
  try dsimp only
  repeat' first | (with_reducible first | assumption | apply claimOwn_keptI | apply planErrorSeq_keptI) | split | dsimp only | intro _

theorem memberPrefill_keptI {s t : State} (x0 : InstId) (x1 x2 : Nat) (h : KeptI x0 s t) :
    KeptI x0 s (memberPrefill x0 x1 x2 t) := by
  unfold memberPrefill
  try dsimp only
  repeat' first | (with_reducible first | assumption | apply enterState_keptI | apply modRec_keptI | apply warmRecord_keptI | apply writeAttic_keptI) | split | dsimp only | intro _

theorem commitPrefill_keptI {s t : State} (x0 : InstId) (x1 : StepRow) (h : KeptI x0 s t) :
    KeptI x0 s (commitPrefill x0 x1 t) := by
  unfold commitPrefill
  try dsimp only
  repeat' first | (with_reducible first | assumption | apply commitPrefix_keptI | apply commitRebuild_keptI | apply commitTarget_keptI | apply enterState_keptI | apply memberPrefill_keptI | apply modRec_keptI | apply notePrefix_keptI | apply postSeq_keptI | apply foldl_keptI) | split | dsimp only | intro _

theorem noteRow_keptI {s t : State} (x0 : InstId) (x1 x2 : Nat) (h : KeptI x0 s t) :
    KeptI x0 s (noteRow x0 x1 x2 t) := by
  unfold noteRow
  try dsimp only
  repeat' first | (with_reducible first | assumption | apply modSeq_keptI) | split | dsimp only | intro _

theorem verifyCommit_keptI {s t : State} (x0 : InstId) (x1 x2 : Nat) (x3 : List Source) (h : KeptI x0 s t) :
    KeptI x0 s (verifyCommit x0 x1 x2 x3 t) := by
  unfold verifyCommit
  try dsimp only
  repeat' first | (with_reducible first | assumption | apply dropDraft_keptI | apply modRec_keptI | apply modSeq_keptI | apply trimDraft_keptI) | split | dsimp only | intro _

theorem commitTokens_keptI {s t : State} (x0 : InstId) (x1 : Nat) (x2 : StepRow) (x3 : RowResult) (x4 : Bool) (x5 : Nat)
    (h : KeptI x0 s t) : KeptI x0 s (commitTokens x0 x1 x2 x3 x4 x5 t).1 := by
  unfold Sys2Proof.Machine.commitTokens
  extract_lets q plan w a
  have ha : KeptI x0 s a.s := appendAll_keptI _ _ _ (enterState_keptI _ _ _ h)
  clear_value a
  split
  · exact planErrorSeq_keptI _ _ h
  · rename_i t1 t2 t3 t4 t5 t6 t7 t8 hc
    clear hc
    have h1 : KeptI x0 s t1 := watchAppended_keptI _ _ (advancePenalty_keptI _ _ ha)
    clear_value t1
    have h2 : KeptI x0 s t2 := modRec_keptI _ _ _ h1
    clear_value t2
    have h3 : KeptI x0 s t3 := commitTarget_keptI _ _ h2
    clear_value t3
    have h4 : KeptI x0 s t4 := by
      unfold t4; split
      · exact verifyCommit_keptI _ _ _ _ h3
      · exact h3
    clear_value t4
    have h5 : KeptI x0 s t5 := by
      unfold t5; split
      · exact h4
      · exact dropDraft_keptI _ _ h4
    clear_value t5
    have h6 : KeptI x0 s t6 := noteRow_keptI _ _ _ h5
    clear_value t6
    exact endAppend_keptI _ _ _ (journal_keptI _ _ (modAcct_keptI _ _ _ h6))

theorem commitDraftRow_keptI {s t : State} (x0 : InstId) (x1 : Nat) (x2 : StepRow) (x3 : RowResult) (x4 : Nat) (h : KeptI x0 s t) :
    KeptI x0 s (commitDraftRow x0 x1 x2 x3 x4 t).1 := by
  unfold commitDraftRow
  try dsimp only
  repeat' first | (with_reducible first | assumption | apply commitDraft_keptI | apply journal_keptI | apply modSeq_keptI | apply noteRow_keptI | apply planErrorSeq_keptI) | split | dsimp only | intro _

theorem commitCatchUp_keptI {s t : State} (x0 : InstId) (x1 : Machine.Step) (x2 : StepRow) (x3 : Nat) (h : KeptI x0 s t) :
    KeptI x0 s (commitCatchUp x0 x1 x2 x3 t) := by
  unfold commitCatchUp
  try dsimp only
  repeat' first | (with_reducible first | assumption | apply commitDraft_keptI | apply journal_keptI | apply modSeq_keptI | apply noteRow_keptI) | split | dsimp only | intro _

theorem chargeRow_keptI {s t : State} (x0 : InstId) (x1 : StepRow) (h : KeptI x0 s t) :
    KeptI x0 s (chargeRow x0 x1 t) := by
  unfold chargeRow
  try dsimp only
  repeat' first | (with_reducible first | assumption | apply modCtx_keptI) | split | dsimp only | intro _

theorem markRow_keptI {s t : State} (x0 : InstId) (x1 x2 : Nat) (h : KeptI x0 s t) :
    KeptI x0 s (markRow x0 x1 x2 t) := by
  unfold markRow
  try dsimp only
  repeat' first | (with_reducible first | assumption | apply modStep_keptI) | split | dsimp only | intro _

theorem finishStep_keptI {s t : State} (x0 : InstId) (x1 : Nat) (h : KeptI x0 s t) :
    KeptI x0 s (finishStep x0 x1 t) := by
  unfold finishStep
  try dsimp only
  repeat' first | (with_reducible first | assumption | apply journal_keptI | apply modKit_keptI | apply modMir_keptI | apply modStair_keptI | apply modStep_keptI | apply ringPush_keptI | apply sweepSteps_keptI) | split | dsimp only | intro _

theorem commitRow_keptI {s t : State} (x0 : InstId) (x1 : Machine.Step) (x2 : Nat) (x3 : StepRow) (h : KeptI x0 s t) :
    KeptI x0 s (commitRow x0 x1 x2 x3 t).1 := by
  unfold commitRow
  try dsimp only
  repeat' first | (with_reducible first | assumption | apply commitCatchUp_keptI | apply commitDraftRow_keptI | apply commitPrefill_keptI | apply commitTokens_keptI | apply journal_keptI | apply noteRow_keptI) | split | dsimp only | intro _

theorem rowUses_keptI {s t : State} (x0 : InstId) (x1 : Machine.Step) (x2 : Nat) (h : KeptI x0 s t) :
    KeptI x0 s (rowUses x0 x1 x2 t) := by
  unfold rowUses
  try dsimp only
  repeat' first | (with_reducible first | assumption | apply chargeRow_keptI | apply modLib_keptI | apply modModel_keptI | apply foldl_keptI) | split | dsimp only | intro _

theorem tryRow_keptI {s t : State} (x0 : InstId) (x1 : Machine.Step) (x2 : Nat) (x3 : StepRow) (h : KeptI x0 s t) :
    KeptI x0 s (tryRow x0 x1 x2 x3 t).1 := by
  unfold tryRow
  try dsimp only
  repeat' first | (with_reducible first | assumption | apply commitRow_keptI | apply endSeq_keptI) | split | dsimp only | intro _

theorem watchRow_keptI {s t : State} (x0 : InstId) (x1 : StepRow) (x2 : Nat) (h : KeptI x0 s t) :
    KeptI x0 s (watchRow x0 x1 x2 t) := by
  unfold watchRow
  try dsimp only
  repeat' first | (with_reducible first | assumption | apply endWatches_keptI) | split | dsimp only | intro _

theorem commitOne_keptI {s t : State} (x0 : InstId) (x1 x2 : Nat) (h : KeptI x0 s t) :
    KeptI x0 s (commitOne x0 x1 x2 t) := by
  unfold commitOne
  try dsimp only
  repeat' first | (with_reducible first | assumption | apply applyWaiting_keptI | apply finishStep_keptI | apply markRow_keptI | apply rowUses_keptI | apply tryRow_keptI | apply watchRow_keptI | apply foldl_keptI) | split | dsimp only | intro _

end Sys2Proof.Laws
end

