-- ==== Sys2Proof/Laws/FrameSteps.lean ====
section
/-! SUPPORT. What the ushers' applies, composition, the outposts, the Landing, the mailbox and its commands leave alone. Each lemma says of one operation what Kept and KeptI (Laws/Frame.lean) say: it keeps the queue, the memories' form, the tick and the power, never gives a free value back, and, where it names an instance, leaves a split partner alone. -/

namespace Sys2Proof.Laws

open Sys2Proof Sys2Proof.Machine

/-! ### Machine/Usher.lean -/

theorem applyKill_keptI {s t : State} (x0 : InstId) (x1 : Nat) (h : KeptI x0 s t) :
    KeptI x0 s (applyKill x0 x1 t) := by
  unfold applyKill
  try dsimp only
  repeat' first | (with_reducible first | assumption | apply applyWaiting_keptI | apply modRec_keptI) | split | dsimp only | intro _

theorem applyAdmit_keptI {s t : State} (x0 : InstId) (x1 : Nat) (h : KeptI x0 s t) :
    KeptI x0 s (applyAdmit x0 x1 t) := by
  unfold applyAdmit
  try dsimp only
  repeat' first | (with_reducible first | assumption | apply ackPoint_keptI | apply enterState_keptI | apply postSeqRecord_keptI | apply recordDone_keptI) | split | dsimp only | intro _

theorem forceStart_keptI {s t : State} (x0 : InstId) (x1 : Nat) (h : KeptI x0 s t) :
    KeptI x0 s (forceStart x0 x1 t) := by
  unfold forceStart
  try dsimp only
  repeat' first | (with_reducible first | assumption | apply enterState_keptI | apply recordDone_keptI) | split | dsimp only | intro _

theorem applyWarm_keptI {s t : State} (x0 : InstId) (x1 : Nat) (h : KeptI x0 s t) :
    KeptI x0 s (applyWarm x0 x1 t) := by
  unfold applyWarm
  try dsimp only
  repeat' first | (with_reducible first | assumption | apply claimPlan_keptI | apply forceStart_keptI | apply warmRecord_keptI) | split | dsimp only | intro _

theorem applyCool_keptI {s t : State} (x0 : InstId) (x1 : Nat) (h : KeptI x0 s t) :
    KeptI x0 s (applyCool x0 x1 t) := by
  unfold applyCool
  try dsimp only
  repeat' first | (with_reducible first | assumption | apply coolRecord_keptI | apply libAssign_keptI) | split | dsimp only | intro _

theorem applyEvict_keptI {s t : State} (x0 : InstId) (x1 : Nat) (h : KeptI x0 s t) :
    KeptI x0 s (applyEvict x0 x1 t) := by
  unfold applyEvict
  try dsimp only
  repeat' first | (with_reducible first | assumption | apply modRec_keptI | apply parkSeq_keptI | apply recordDone_keptI | apply releasePages_keptI) | split | dsimp only | intro _

theorem wantModel_keptI {s t : State} (x0 : InstId) (x1 : Nat) (h : KeptI x0 s t) :
    KeptI x0 s (wantModel x0 x1 t) := by
  unfold wantModel
  try dsimp only
  repeat' first | (with_reducible first | assumption | apply demandModel_keptI) | split | dsimp only | intro _

theorem resumeFully_keptI {s t : State} (x0 : InstId) (x1 : Nat) (h : KeptI x0 s t) :
    KeptI x0 s (resumeFully x0 x1 t) := by
  unfold resumeFully
  try dsimp only
  repeat' first | (with_reducible first | assumption | apply claimPlan_keptI | apply recordDone_keptI | apply resumeSeq_keptI | apply wantModel_keptI) | split | dsimp only | intro _

theorem applyPrefix_keptI {s t : State} (x0 : InstId) (x1 : Nat) (h : KeptI x0 s t) :
    KeptI x0 s (applyPrefix x0 x1 t) := by
  unfold applyPrefix
  try dsimp only
  repeat' first | (with_reducible first | assumption | apply recordDone_keptI | apply releasePages_keptI | apply settlePrefill_keptI | apply takePrefix_keptI) | split | dsimp only | intro _

theorem endAlive_keptI {s t : State} (x0 : InstId) (x1 : Nat) (x2 : SeqState) (x3 : Nat) (h : KeptI x0 s t) :
    KeptI x0 s (endAlive x0 x1 x2 x3 t) := by
  unfold endAlive
  try dsimp only
  repeat' first | (with_reducible first | assumption | apply abandonFor_keptI | apply discardIn_keptI | apply endSeq_keptI) | split | dsimp only | intro _

theorem endOrWait_keptI {s t : State} (x0 : InstId) (x1 : Nat) (x2 : SeqState) (x3 : Nat) (x4 : WaitEvent) (h : KeptI x0 s t) :
    KeptI x0 s (endOrWait x0 x1 x2 x3 x4 t) := by
  unfold endOrWait
  try dsimp only
  repeat' first | (with_reducible first | assumption | apply endAlive_keptI | apply modSeq_keptI) | split | dsimp only | intro _

theorem applyCancel_keptI {s t : State} (x0 : InstId) (x1 : Nat) (x2 : Option Nat) (h : KeptI x0 s t) :
    KeptI x0 s (applyCancel x0 x1 x2 t) := by
  unfold applyCancel
  try dsimp only
  repeat' first | (with_reducible first | assumption | apply endOrWait_keptI | apply resolveEvent_keptI) | split | dsimp only | intro _

theorem applyPark_keptI {s t : State} (x0 : InstId) (x1 x2 : Nat) (x3 : Option Nat) (h : KeptI x0 s t) :
    KeptI x0 s (applyPark x0 x1 x2 x3 t) := by
  unfold applyPark
  try dsimp only
  repeat' first | (with_reducible first | assumption | apply modSeq_keptI | apply parkSeq_keptI | apply resolveEvent_keptI) | split | dsimp only | intro _

theorem applyResume_keptI {s t : State} (x0 : InstId) (x1 : Nat) (h : KeptI x0 s t) :
    KeptI x0 s (applyResume x0 x1 t).1 := by
  unfold applyResume
  try dsimp only
  repeat' first | (with_reducible first | assumption | apply duskClear_keptI | apply endSeq_keptI | apply resumeFully_keptI) | split | dsimp only | intro _

theorem doExtend_keptI {s t : State} (x0 : InstId) (x1 : Nat) (x2 : List Nat) (x3 : Nat × Nat) (x4 : Nat) (h : KeptI x0 s t) :
    KeptI x0 s (doExtend x0 x1 x2 x3 x4 t) := by
  unfold doExtend
  try dsimp only
  repeat' first | (with_reducible first | assumption | apply appendExtend_keptI | apply finishCmd_keptI | apply journal_keptI | apply modAcct_keptI | apply modRec_keptI | apply postSeqRecord_keptI | apply recordDone_keptI) | split | dsimp only | intro _

theorem applyExtend_keptI {s t : State} (x0 : InstId) (x1 : Nat) (x2 : List Nat) (x3 x4 x5 x6 : Nat) (h : KeptI x0 s t) :
    KeptI x0 s (applyExtend x0 x1 x2 x3 x4 x5 x6 t) := by
  unfold applyExtend
  try dsimp only
  repeat' first | (with_reducible first | assumption | apply demandPlan_keptI | apply doExtend_keptI | apply finishCmd_keptI | apply modSeq_keptI) | split | dsimp only | intro _

theorem applyForce_keptI {s t : State} (x0 : InstId) (x1 : Nat) (h : KeptI x0 s t) :
    KeptI x0 s (applyForce x0 x1 t) := by
  unfold applyForce
  try dsimp only
  repeat' first | (with_reducible first | assumption | apply advancePenalty_keptI | apply appendAll_keptI | apply dropDraft_keptI | apply endAppend_keptI | apply journal_keptI | apply modAcct_keptI | apply modSeq_keptI | apply watchAppended_keptI) | split | dsimp only | intro _

theorem crossTo_keptI {s t : State} (x0 : InstId) (x1 : Nat) (x2 : MidnightInfo) (h : KeptI x0 s t) :
    KeptI x0 s (crossTo x0 x1 x2 t) := by
  unfold crossTo
  try dsimp only
  repeat' first | (with_reducible first | assumption | apply modSeq_keptI) | split | dsimp only | intro _

theorem applyMidnight_keptI {s t : State} (x0 : InstId) (x1 : Nat) (x2 : MidnightInfo) (h : KeptI x0 s t) :
    KeptI x0 s (applyMidnight x0 x1 x2 t) := by
  unfold applyMidnight
  try dsimp only
  repeat' first | (with_reducible first | assumption | apply crossTo_keptI | apply endSeq_keptI | apply invalidateKv_keptI | apply modSeq_keptI | apply recordDone_keptI | apply resumeSeq_keptI | apply retireCheck_keptI) | split | dsimp only | intro _

theorem applyEvening_keptI {s t : State} (x0 : InstId) (x1 : Nat) (h : KeptI x0 s t) :
    KeptI x0 s (applyEvening x0 x1 t) := by
  unfold applyEvening
  try dsimp only
  repeat' first | (with_reducible first | assumption | apply enterState_keptI | apply freeAhead_keptI | apply modRec_keptI | apply modSeq_keptI | apply recordDone_keptI | apply releasePages_keptI | apply writeList_keptI) | split | dsimp only | intro _

theorem applyMorning_keptI {s t : State} (x0 : InstId) (x1 : Nat) (h : KeptI x0 s t) :
    KeptI x0 s (applyMorning x0 x1 t) := by
  unfold applyMorning
  try dsimp only
  repeat' first | (with_reducible first | assumption | apply claimPlan_keptI | apply enterState_keptI | apply invalidateKv_keptI | apply modRec_keptI | apply recordDone_keptI | apply resumeFully_keptI | apply warmRecord_keptI) | split | dsimp only | intro _

theorem applyHousehold_keptI {s t : State} (x0 : InstId) (x1 : Nat) (h : KeptI x0 s t) :
    KeptI x0 s (applyHousehold x0 x1 t) := by
  unfold applyHousehold
  try dsimp only
  repeat' first | (with_reducible first | assumption | apply freeHouse_keptI | apply freeSeq_keptI | apply modRec_keptI | apply recordDone_keptI) | split | dsimp only | intro _

theorem applyTeardown_keptI {s t : State} (x0 : InstId) (x1 : Nat) (h : KeptI x0 s t) :
    KeptI x0 s (applyTeardown x0 x1 t) := by
  unfold applyTeardown
  try dsimp only
  repeat' first | (with_reducible first | assumption | apply endAlive_keptI) | split | dsimp only | intro _

theorem applyPlanReady_keptI {s t : State} (x0 : InstId) (x1 : Nat) (h : KeptI x0 s t) :
    KeptI x0 s (applyPlanReady x0 x1 t) := by
  unfold applyPlanReady
  try dsimp only
  repeat' first | (with_reducible first | assumption | apply applyExtend_keptI | apply forceStart_keptI | apply modSeq_keptI | apply foldl_keptI) | split | dsimp only | intro _

theorem spendHandle_keptI {s t : State} (x0 : InstId) (x1 x2 : Nat) (h : KeptI x0 s t) :
    KeptI x0 s (spendHandle x0 x1 x2 t) := by
  unfold spendHandle
  try dsimp only
  repeat' first | (with_reducible first | assumption | apply modRec_keptI | apply writeAttic_keptI) | split | dsimp only | intro _

theorem applyDeadline_keptI {s t : State} (x0 : InstId) (x1 x2 : Nat) (h : KeptI x0 s t) :
    KeptI x0 s (applyDeadline x0 x1 x2 t) := by
  unfold applyDeadline
  try dsimp only
  repeat' first | (with_reducible first | assumption | apply endAlive_keptI | apply endOrWait_keptI | apply retime_keptI | apply writeAttic_keptI) | split | dsimp only | intro _

/-! ### Machine/Stage.lean -/

theorem sendDown_keptI {s t : State} (x0 : InstId) (x1 : DownMsg) (x2 : Nat) (h : KeptI x0 s t) :
    KeptI x0 s (sendDown x0 x1 x2 t) := by
  unfold sendDown
  try dsimp only
  repeat' first | (with_reducible first | assumption | apply modOutpost_keptI | apply ringMessage_keptI) | (unfold LarderKeeps; intro x hx; first | exact hx | exact discardStep_wf _ _ hx | exact finishRow_wf _ hx | exact drainPort_wf hx | (split <;> exact hx) | (split <;> split <;> exact hx) | simpa using hx | (dsimp only; split <;> first | exact hx | simpa using hx)) | split | dsimp only | intro _

theorem sendAll_keptI {s t : State} (x0 : InstId) (x1 : DownMsg) (x2 : BitVec 8) (h : KeptI x0 s t) :
    KeptI x0 s (sendAll x0 x1 x2 t) := by
  unfold sendAll
  try dsimp only
  repeat' first | (with_reducible first | assumption | apply sendDown_keptI | apply foldl_keptI) | split | dsimp only | intro _

theorem stageSampler_keptI {s t : State} (x0 : InstId) (x1 : Machine.Step) (h : KeptI x0 s t) :
    KeptI x0 s (stageSampler x0 x1 t) := by
  unfold stageSampler
  try dsimp only
  repeat' first | (with_reducible first | assumption | apply modInst_keptI | apply modOutpost_keptI | apply sendAll_keptI | apply foldl_keptI) | (unfold LarderKeeps; intro x hx; first | exact hx | exact discardStep_wf _ _ hx | exact finishRow_wf _ hx | exact drainPort_wf hx | (split <;> exact hx) | (split <;> split <;> exact hx) | simpa using hx | (dsimp only; split <;> first | exact hx | simpa using hx)) | split | dsimp only | intro _

/-! ### Machine/Compose.lean -/

theorem preCompose_keptI {s t : State} (x0 : InstId) (h : KeptI x0 s t) :
    KeptI x0 s (preCompose x0 t) := by
  unfold preCompose
  try dsimp only
  repeat' first | (with_reducible first | assumption | apply modMir_keptI | apply planErrorSeq_keptI | apply foldl_keptI) | split | dsimp only | intro _

theorem latchWaits_keptI {s t : State} (x0 : InstId) (x1 : List Machine.Seq) (h : KeptI x0 s t) :
    KeptI x0 s (latchWaits x0 x1 t) := by
  unfold latchWaits
  try dsimp only
  repeat' first | (with_reducible first | assumption | apply modKit_keptI | apply modMir_keptI) | split | dsimp only | intro _

theorem writeManifest_keptI {s t : State} (x0 : InstId) (x1 : Machine.Step) (h : KeptI x0 s t) :
    KeptI x0 s (writeManifest x0 x1 t) := by
  unfold writeManifest
  try dsimp only
  repeat' first | (with_reducible first | assumption | apply hbmPut_keptI) | split | dsimp only | intro _

theorem evictFor_keptI {s t : State} (x0 : InstId) (x1 : Machine.Seq) (x2 : Nat) (x3 : Inst) (x4 : Nat) (h : KeptI x0 s t) :
    KeptI x0 s (evictFor x0 x1 x2 x3 x4 t) := by
  induction x2 generalizing x3 x4 t with
  | zero => (unfold evictFor; (try dsimp only); exact h)
  | succ n ih =>
    unfold evictFor
    try dsimp only
    repeat' first | (with_reducible first | apply ih | assumption | apply postSeq_keptI | apply ringPush_keptI) | split | dsimp only | intro _

theorem addRows_keptI {s : State} (i : InstId) (c : Candidate) (k : Comp) (h : KeptI i s k.s) : KeptI i s (addRows i c k).s := by
  unfold addRows
  generalize c.rows = rows
  induction rows generalizing k with
  | nil => exact h
  | cons p ps ih =>
    rw [List.foldl_cons]
    apply ih
    exact ensureTake_keptI _ _ h

theorem tryCandidate_keptI {s : State} (i : InstId) (wide : Bool) (effL effP lid : Nat) (k : Comp) (h : KeptI i s k.s) :
    KeptI i s (tryCandidate i wide effL effP lid k).s := by
  unfold tryCandidate
  extract_lets x m q rs c
  split
  · exact h
  · rename_i es pages lack hc
    split
    · exact h
    · exact addRows_keptI _ _ _ h

theorem chooseRows_keptI {s : State} (i : InstId) (tick : Nat) (wide : Bool) (effL effP n : Nat) :
    ∀ (lids : List Nat) (k : Comp), KeptI i s k.s → KeptI i s (chooseRows i tick wide effL effP n lids k).s := by
  induction n with
  | zero => exact fun _ _ h => h
  | succ n ih =>
    intro lids k h
    unfold chooseRows
    dsimp only
    split
    · exact h
    · exact ih _ _ (tryCandidate_keptI _ _ _ _ _ _ h)

theorem issue_keptI {s : State} (i : InstId) (fuse : Bool) (k : Comp) (st : Machine.Step) (h : KeptI i s k.s) : KeptI i s (issue i fuse k st) := by
  unfold issue
  extract_lets s0 x m kit raised credits rows st1 st2 s1 s2 s3 s4 s5 s6 s7 s8 s9
  clear_value raised st2
  have h1 : KeptI i s s1 := modKit_keptI _ _ h
  clear_value s1
  have h2 : KeptI i s s2 := modStair_keptI _ _ h1
  clear_value s2
  have h3 : KeptI i s s3 := foldl_keptI (fun _ _ hu => modLatch_keptI _ _ _ hu) _ _ h2
  clear_value s3
  have h4 : KeptI i s s4 := by
    unfold s4; split
    · exact modAcct_keptI _ _ _ h3
    · exact h3
  clear_value s4
  have h5 : KeptI i s s5 := writeManifest_keptI _ _ h4
  clear_value s5
  have h7 : KeptI i s s7 := KeptI.raw h5
  clear_value s7
  have h8 : KeptI i s s8 := ringPush_keptI _ _ _ _ _ _ h7
  clear_value s8
  have h9 : KeptI i s s9 := ringPush_keptI _ _ _ _ _ _ h8
  clear_value s9
  exact stageSampler_keptI _ _ h9

theorem composeNow_keptI {s t : State} (i : InstId) (fuse : Bool) (first : Machine.Seq) (all : List Machine.Seq) (h : KeptI i s t) :
    KeptI i s (composeNow i fuse first all t) := by
  unfold composeNow
  extract_lets m md ep caps effL effP el mine s1 k k1 st1 chosen t1
  have h1 : KeptI i s s1 := modKit_keptI _ _ h
  clear_value s1
  have h2 : KeptI i s k.s := chooseRows_keptI _ _ _ _ _ _ _ _ h1
  clear_value k
  have h3 : KeptI i s k1.s := by
    unfold k1
    dsimp only
    exact modKit_keptI _ _ h2
  clear_value k1
  have h4 : KeptI i s t1 := by
    unfold t1; split
    · exact h3
    · exact issue_keptI _ _ _ _ (modMir_keptI _ _ h3)
  clear_value t1
  split
  · exact evictFor_keptI _ _ _ _ _ (ringPush_keptI _ _ _ _ _ _ h4)
  · exact h4

theorem preemptFor_keptI {s t : State} (x0 : InstId) (x1 : Bool) (x2 : Machine.Seq) (h : KeptI x0 s t) :
    KeptI x0 s (preemptFor x0 x1 x2 t) := by
  unfold preemptFor
  try dsimp only
  repeat' first | (with_reducible first | assumption | apply composeNow_keptI | apply killStep_keptI | apply modAcct_keptI) | split | dsimp only | intro _

theorem composeOnce_keptI {s t : State} (x0 : InstId) (x1 : Bool) (x2 : List Machine.Seq) (h : KeptI x0 s t) :
    KeptI x0 s (composeOnce x0 x1 x2 t) := by
  unfold composeOnce
  try dsimp only
  repeat' first | (with_reducible first | assumption | apply composeNow_keptI | apply preemptFor_keptI) | split | dsimp only | intro _

/-! ### Machine/Steps.lean -/

theorem discardNotice_keptI {s t : State} (x0 : InstId) (h : KeptI x0 s t) :
    KeptI x0 s (discardNotice x0 t) := by
  unfold discardNotice
  try dsimp only
  repeat' first | (with_reducible first | assumption | apply modStudy_keptI) | split | dsimp only | intro _

theorem sampledCheck_keptI {s t : State} (x0 : InstId) (x1 : Nat) (h : KeptI x0 s t) :
    KeptI x0 s (sampledCheck x0 x1 t) := by
  unfold sampledCheck
  try dsimp only
  repeat' first | (with_reducible first | assumption | apply modStep_keptI | apply ringPush_keptI) | split | dsimp only | intro _

/-! ### Machine/Engine.lean -/

theorem outRingOf_keptI {s t : State} (x0 : InstId) (x1 x2 x3 x4 x5 : Nat) (h : KeptI x0 s t) :
    KeptI x0 s (outRingOf x0 x1 x2 x3 x4 x5 t) := by
  unfold outRingOf
  try dsimp only
  repeat' first | (with_reducible first | assumption | apply ringPush_keptI) | split | dsimp only | intro _

theorem outRingOf_kept {s t : State} (x0 : InstId) (x1 : Nat) (x2 : Nat) (x3 : Nat) (x4 : Nat) (x5 : Nat) (h : Kept s t) :
    Kept s (outRingOf x0 x1 x2 x3 x4 x5 t) := h.trans (outRingOf_keptI x0 x1 x2 x3 x4 x5 (KeptI.refl _ t)).toKept

theorem outRing_kept {s t : State} (x0 x1 x2 x3 x4 : Nat) (h : Kept s t) :
    Kept s (outRing x0 x1 x2 x3 x4 t) := by
  unfold outRing
  try dsimp only
  repeat' first | (with_reducible first | assumption | apply outRingOf_kept) | split | dsimp only | intro _

theorem watchPass_keptI {s t : State} (i : InstId) (x0 : Nat) (x1 : OutRow) (x2 : List TokVal) (h : KeptI i s t) :
    KeptI i s (watchPass x0 x1 x2 t) := by
  unfold watchPass
  try dsimp only
  repeat' first | (with_reducible first | assumption | apply hbmPut_keptI | apply foldl_keptI) | split | dsimp only | intro _

theorem watchPass_kept {s t : State} (x0 : Nat) (x1 : OutRow) (x2 : List TokVal) (h : Kept s t) :
    Kept s (watchPass x0 x1 x2 t) := by
  unfold watchPass
  try dsimp only
  repeat' first | (with_reducible first | assumption | apply hbmPut_kept | apply foldl_kept) | split | dsimp only | intro _

theorem passDone_kept {s t : State} (x0 : Nat) (x1 : OutRow) (x2 : Nat) (h : Kept s t) :
    ResOk (Kept s) (passDone x0 x1 x2 t) := by
  unfold passDone
  try dsimp only
  repeat' first | (with_reducible first | assumption | apply countFixed_kept | apply modOutpost_kept | apply watchPass_kept | apply ResOk.next | exact ResOk.fault _) | (unfold LarderKeeps; intro x hx; first | exact hx | exact discardStep_wf _ _ hx | exact finishRow_wf _ hx | exact drainPort_wf hx | (split <;> exact hx) | (split <;> split <;> exact hx) | simpa using hx | (dsimp only; split <;> first | exact hx | simpa using hx)) | split | dsimp only | intro _

theorem passParity_kept {s t : State} (x0 x1 : Nat) (x2 : OutRow) (h : Kept s t) :
    ResOk (Kept s) (passParity x0 x1 x2 t) := by
  unfold passParity
  try dsimp only
  repeat' first | (with_reducible first | assumption | apply modOutpost_kept | apply outRing_kept | apply ResOk.next | exact ResOk.fault _) | (unfold LarderKeeps; intro x hx; first | exact hx | exact discardStep_wf _ _ hx | exact finishRow_wf _ hx | exact drainPort_wf hx | (split <;> exact hx) | (split <;> split <;> exact hx) | simpa using hx | (dsimp only; split <;> first | exact hx | simpa using hx)) | split | dsimp only | intro _

theorem discardDown_keptI {s t : State} (x0 : InstId) (h : KeptI x0 s t) :
    KeptI x0 s (discardDown x0 t) := by
  unfold discardDown
  try dsimp only
  repeat' first | (with_reducible first | assumption | apply modStudy_keptI) | split | dsimp only | intro _

theorem discardDown_kept {s t : State} (x0 : InstId) (h : Kept s t) :
    Kept s (discardDown x0 t) := h.trans (discardDown_keptI x0 (KeptI.refl _ t)).toKept

theorem takeDown_kept {s t : State} (x0 : Nat) (x1 : DownMsg → Bool) (x2 : DownMsg → OutRow → OutRow) (h : Kept s t) :
    ResOk (Kept s) (takeDown x0 x1 x2 t) := by
  unfold takeDown
  try dsimp only
  repeat' first | (with_reducible first | assumption | apply discardDown_kept | apply modOutpost_kept | apply ResOk.next | exact ResOk.fault _) | (unfold LarderKeeps; intro x hx; first | exact hx | exact discardStep_wf _ _ hx | exact finishRow_wf _ hx | exact drainPort_wf hx | (split <;> exact hx) | (split <;> split <;> exact hx) | simpa using hx | (dsimp only; split <;> first | exact hx | simpa using hx)) | split | dsimp only | intro _

theorem logFences_keptI {s t : State} (x0 : InstId) (x1 : Nat) (x2 : BitVec 32) (h : KeptI x0 s t) :
    KeptI x0 s (logFences x0 x1 x2 t) := by
  unfold logFences
  try dsimp only
  repeat' first | (with_reducible first | assumption | apply logFault_keptI | apply foldl_keptI) | split | dsimp only | intro _

/-! ### Machine/Landing.lean -/

theorem modLand_keptI {s t : State} (x0 : InstId) (x1 : RowHandle) (x2 : LandRow → LandRow) (h : KeptI x0 s t) :
    KeptI x0 s (modLand x0 x1 x2 t) := by
  unfold modLand
  try dsimp only
  repeat' first | (with_reducible first | assumption | apply modInst_keptI) | split | dsimp only | intro _

theorem watchCopy_keptI {s t : State} (x0 : InstId) (x1 : LandRow) (x2 : RowOut) (h : KeptI x0 s t) :
    KeptI x0 s (watchCopy x0 x1 x2 t) := by
  unfold watchCopy
  try dsimp only
  repeat' first | (with_reducible first | assumption | apply hbmPut_keptI | apply foldl_keptI) | split | dsimp only | intro _

theorem postResult_keptI {s t : State} (x0 : InstId) (x1 : LandRow) (x2 : RowResult) (h : KeptI x0 s t) :
    KeptI x0 s (postResult x0 x1 x2 t) := by
  unfold postResult
  try dsimp only
  repeat' first | (with_reducible first | assumption | apply countFixed_keptI | apply modInst_keptI | apply modStep_keptI | apply postSeq_keptI | apply sampledCheck_keptI | apply sendAll_keptI | apply foldl_keptI) | split | dsimp only | intro _

theorem decodeDone_keptI {s t : State} (x0 : InstId) (x1 : LandRow) (x2 : RowOut) (h : KeptI x0 s t) :
    KeptI x0 s (decodeDone x0 x1 x2 t) := by
  unfold decodeDone
  try dsimp only
  repeat' first | (with_reducible first | assumption | apply postResult_keptI | apply watchCopy_keptI) | split | dsimp only | intro _

theorem emptyDone_keptI {s t : State} (x0 : InstId) (x1 : LandRow) (h : KeptI x0 s t) :
    KeptI x0 s (emptyDone x0 x1 t) := by
  unfold emptyDone
  try dsimp only
  repeat' first | (with_reducible first | assumption | apply postResult_keptI) | split | dsimp only | intro _

theorem draftDone_keptI {s t : State} (x0 : InstId) (x1 : LandRow) (x2 : List Nat) (h : KeptI x0 s t) :
    KeptI x0 s (draftDone x0 x1 x2 t) := by
  unfold draftDone
  try dsimp only
  repeat' first | (with_reducible first | assumption | apply postResult_keptI) | split | dsimp only | intro _

theorem restartRows_keptI {s t : State} (x0 : InstId) (x1 : List LandRow) (h : KeptI x0 s t) :
    KeptI x0 s (restartRows x0 x1 t) := by
  unfold restartRows
  try dsimp only
  repeat' first | (with_reducible first | assumption | apply modLand_keptI | apply modOutpost_keptI | apply sendAll_keptI | apply foldl_keptI) | (unfold LarderKeeps; intro x hx; first | exact hx | exact discardStep_wf _ _ hx | exact finishRow_wf _ hx | exact drainPort_wf hx | (split <;> exact hx) | (split <;> split <;> exact hx) | simpa using hx | (dsimp only; split <;> first | exact hx | simpa using hx)) | split | dsimp only | intro _

theorem checkFailed_keptI {s t : State} (x0 : InstId) (x1 : LandRow) (x2 : List Nat) (h : KeptI x0 s t) :
    KeptI x0 s (checkFailed x0 x1 x2 t) := by
  unfold checkFailed
  try dsimp only
  repeat' first | (with_reducible first | assumption | apply killStep_keptI | apply modLand_keptI | apply modOutpost_keptI | apply modStudy_keptI | apply restartRows_keptI | apply foldl_keptI) | (unfold LarderKeeps; intro x hx; first | exact hx | exact discardStep_wf _ _ hx | exact finishRow_wf _ hx | exact drainPort_wf hx | (split <;> exact hx) | (split <;> split <;> exact hx) | simpa using hx | (dsimp only; split <;> first | exact hx | simpa using hx)) | split | dsimp only | intro _

theorem finishPair_keptI {s t : State} (x0 : InstId) (x1 : LandRow) (x2 : List LandRow) (x3 : Verdict) (x4 : Nat) (h : KeptI x0 s t) :
    KeptI x0 s (finishPair x0 x1 x2 x3 x4 t) := by
  unfold finishPair
  try dsimp only
  repeat' first | (with_reducible first | assumption | apply postResult_keptI | apply watchCopy_keptI) | split | dsimp only | intro _

theorem startResid_keptI {s t : State} (x0 : InstId) (x1 : LandRow) (x2 : List LandRow) (x3 : Verdict) (h : KeptI x0 s t) :
    KeptI x0 s (startResid x0 x1 x2 x3 t) := by
  unfold startResid
  try dsimp only
  repeat' first | (with_reducible first | assumption | apply modLand_keptI | apply sendAll_keptI) | split | dsimp only | intro _

theorem settlePair_keptI {s t : State} (x0 : InstId) (x1 : LandRow) (x2 : List LandRow) (h : KeptI x0 s t) :
    KeptI x0 s (settlePair x0 x1 x2 t) := by
  unfold settlePair
  try dsimp only
  repeat' first | (with_reducible first | assumption | apply finishPair_keptI | apply postResult_keptI | apply startResid_keptI) | split | dsimp only | intro _

theorem pairReady_keptI {s t : State} (x0 : InstId) (x1 : LandRow) (h : KeptI x0 s t) :
    KeptI x0 s (pairReady x0 x1 t) := by
  unfold pairReady
  try dsimp only
  repeat' first | (with_reducible first | assumption | apply modLand_keptI | apply settlePair_keptI) | split | dsimp only | intro _

theorem sendLocate_keptI {s t : State} (x0 : InstId) (x1 : LandRow) (h : KeptI x0 s t) :
    KeptI x0 s (sendLocate x0 x1 t) := by
  unfold sendLocate
  try dsimp only
  repeat' first | (with_reducible first | assumption | apply modLand_keptI | apply sendDown_keptI) | split | dsimp only | intro _

theorem raceWithQuotas_keptI {s t : State} (x0 : InstId) (x1 : LandRow) (x2 : List (Nat × Nat × Nat)) (h : KeptI x0 s t) :
    KeptI x0 s (raceWithQuotas x0 x1 x2 t) := by
  unfold raceWithQuotas
  try dsimp only
  repeat' first | (with_reducible first | assumption | apply modLand_keptI | apply sendAll_keptI | apply sendDown_keptI | apply foldl_keptI) | split | dsimp only | intro _

theorem afterCut_keptI {s t : State} (x0 : InstId) (x1 : LandRow) (h : KeptI x0 s t) :
    KeptI x0 s (afterCut x0 x1 t) := by
  unfold afterCut
  try dsimp only
  repeat' first | (with_reducible first | assumption | apply decodeDone_keptI | apply draftDone_keptI | apply modLand_keptI | apply pairReady_keptI | apply raceWithQuotas_keptI | apply sendAll_keptI) | split | dsimp only | intro _

theorem cutRound_keptI {s t : State} (x0 : InstId) (x1 : LandRow) (x2 : List (Nat × List Bin)) (h : KeptI x0 s t) :
    KeptI x0 s (cutRound x0 x1 x2 t) := by
  unfold cutRound
  try dsimp only
  repeat' first | (with_reducible first | assumption | apply afterCut_keptI | apply modLand_keptI | apply sendAll_keptI) | split | dsimp only | intro _

theorem popUp_keptI {s t : State} (x0 : InstId) (x1 : Nat) (h : KeptI x0 s t) :
    KeptI x0 s (popUp x0 x1 t) := by
  unfold popUp
  try dsimp only
  repeat' first | (with_reducible first | assumption | apply modOutpost_keptI | apply ringMessage_keptI) | (unfold LarderKeeps; intro x hx; first | exact hx | exact discardStep_wf _ _ hx | exact finishRow_wf _ hx | exact drainPort_wf hx | (split <;> exact hx) | (split <;> split <;> exact hx) | simpa using hx | (dsimp only; split <;> first | exact hx | simpa using hx)) | split | dsimp only | intro _

theorem landEnd_keptI {s t : State} (x0 : InstId) (x1 : State) (h1 : KeptI x0 s x1) (h : KeptI x0 s t) : ResOk (KeptI x0 s) (landEnd x0 x1 t) := by
  unfold landEnd
  split
  · exact done_keptI _ _ (modHall_keptI _ _ h1)
  · exact endEvent_keptI _ _ h

theorem takeSum_keptI {s t : State} (x0 : InstId) (x1 : Nat) (x2 : LandStage) (x3 : UpMsg → Bool) (x4 : LandRow → List (Nat × UpMsg) → State → State) (hf4 : ∀ y0 y1 y2, KeptI x0 s y2 → KeptI x0 s (x4 y0 y1 y2)) (h : KeptI x0 s t) :
    ResOk (KeptI x0 s) (takeSum x0 x1 x2 x3 x4 t) := by
  unfold takeSum
  try dsimp only
  repeat' first | (with_reducible first | assumption | apply hf4 | apply discardDown_keptI | apply done_keptI | apply landEnd_keptI | apply modLand_keptI | apply popUp_keptI | apply ResOk.next | exact ResOk.fault _) | split | dsimp only | intro _

theorem actMax_keptI {s t : State} (x0 : InstId) (x1 : LandRow) (x2 : List (Nat × UpMsg)) (h : KeptI x0 s t) :
    KeptI x0 s (actMax x0 x1 x2 t) := by
  unfold actMax
  try dsimp only
  repeat' first | (with_reducible first | assumption | apply emptyDone_keptI | apply modLand_keptI | apply pairReady_keptI | apply sendAll_keptI) | split | dsimp only | intro _

theorem actMass_keptI {s t : State} (x0 : InstId) (x1 : LandRow) (x2 : List (Nat × UpMsg)) (h : KeptI x0 s t) :
    KeptI x0 s (actMass x0 x1 x2 t) := by
  unfold actMass
  try dsimp only
  repeat' first | (with_reducible first | assumption | apply afterCut_keptI | apply checkFailed_keptI | apply cutRound_keptI | apply decodeDone_keptI | apply modLand_keptI | apply pairReady_keptI) | split | dsimp only | intro _

theorem actRound_keptI {s t : State} (x0 : InstId) (x1 : LandRow) (x2 : List (Nat × UpMsg)) (h : KeptI x0 s t) :
    KeptI x0 s (actRound x0 x1 x2 t) := by
  unfold actRound
  try dsimp only
  repeat' first | (with_reducible first | assumption | apply checkFailed_keptI | apply cutRound_keptI) | split | dsimp only | intro _

theorem actKept_keptI {s t : State} (x0 : InstId) (x1 : LandRow) (x2 : List (Nat × UpMsg)) (h : KeptI x0 s t) :
    KeptI x0 s (actKept x0 x1 x2 t) := by
  unfold actKept
  try dsimp only
  repeat' first | (with_reducible first | assumption | apply checkFailed_keptI | apply modLand_keptI | apply raceWithQuotas_keptI | apply sendLocate_keptI) | split | dsimp only | intro _

theorem actResid_keptI {s t : State} (x0 : InstId) (x1 : LandRow) (x2 : List (Nat × UpMsg)) (h : KeptI x0 s t) :
    KeptI x0 s (actResid x0 x1 x2 t) := by
  unfold actResid
  try dsimp only
  repeat' first | (with_reducible first | assumption | apply checkFailed_keptI | apply modLand_keptI | apply sendDown_keptI) | split | dsimp only | intro _

theorem actRace_keptI {s t : State} (x0 : InstId) (x1 : LandRow) (x2 : List (Nat × UpMsg)) (h : KeptI x0 s t) :
    KeptI x0 s (actRace x0 x1 x2 t) := by
  unfold actRace
  try dsimp only
  repeat' first | (with_reducible first | assumption | apply decodeDone_keptI) | split | dsimp only | intro _

theorem actLocated_keptI {s t : State} (x0 : InstId) (x1 : LandRow) (x2 : Nat) (x3 : LocInfo) (h : KeptI x0 s t) :
    KeptI x0 s (actLocated x0 x1 x2 x3 t) := by
  unfold actLocated
  try dsimp only
  repeat' first | (with_reducible first | assumption | apply checkFailed_keptI | apply decodeDone_keptI | apply draftDone_keptI | apply finishPair_keptI | apply modLand_keptI | apply sendLocate_keptI) | split | dsimp only | intro _

theorem larderFault_keptI {s t : State} (x0 : InstId) (x1 x2 : Nat) (x3 : Machine.Step) (h : KeptI x0 s t) :
    KeptI x0 s (larderFault x0 x1 x2 x3 t) := by
  unfold larderFault
  try dsimp only
  repeat' first | (with_reducible first | assumption | apply killStep_keptI | apply logFault_keptI | apply modRel_keptI | apply outpostFault_keptI) | split | dsimp only | intro _

theorem actParity_keptI {s t : State} (x0 : InstId) (x1 : LandRow) (x2 x3 : Nat) (h : KeptI x0 s t) :
    KeptI x0 s (actParity x0 x1 x2 x3 t) := by
  unfold actParity
  try dsimp only
  repeat' first | (with_reducible first | assumption | apply larderFault_keptI | apply modLand_keptI | apply restartRows_keptI) | split | dsimp only | intro _

/-! ### Machine/Mailbox.lean -/

theorem answerGo_keptI {s t : State} (x0 : InstId) (x1 : Nat) (x2 : CmdHeader) (x3 : Nat) (h : KeptI x0 s t) :
    KeptI x0 s (answerGo x0 x1 x2 x3 t) := by
  unfold answerGo
  try dsimp only
  repeat' first | (with_reducible first | assumption | apply pushResult_keptI) | split | dsimp only | intro _

theorem acceptCmd_keptI {s t : State} (x0 : InstId) (x1 : Nat) (x2 : CmdHeader) (x3 : List Byte) (h : KeptI x0 s t) :
    KeptI x0 s (acceptCmd x0 x1 x2 x3 t) := by
  unfold acceptCmd
  try dsimp only
  repeat' first | (with_reducible first | assumption | apply commandLatch_keptI | apply modMir_keptI) | split | dsimp only | intro _

theorem notTaken_keptI {s t : State} (x0 : InstId) (x1 : Nat) (h : KeptI x0 s t) :
    ResOk (KeptI x0 s) (notTaken x0 x1 t) := by
  unfold notTaken
  try dsimp only
  repeat' first | (with_reducible first | assumption | apply done_keptI | apply modHall_keptI | apply ResOk.next | exact ResOk.fault _) | split | dsimp only | intro _

theorem startCmd_keptI {s t : State} (x0 : InstId) (x1 : MboxCmd) (h : KeptI x0 s t) :
    KeptI x0 s (startCmd x0 x1 t) := by
  unfold startCmd
  try dsimp only
  repeat' first | (with_reducible first | assumption | apply modAcct_keptI | apply modCmd_keptI | apply ringPush_keptI) | split | dsimp only | intro _

theorem timeCmd_keptI {s t : State} (x0 : InstId) (x1 : MboxCmd) (h : KeptI x0 s t) :
    KeptI x0 s (timeCmd x0 x1 t) := by
  unfold timeCmd
  try dsimp only
  repeat' first | (with_reducible first | assumption | apply duskMore_keptI | apply modCmd_keptI) | split | dsimp only | intro _

theorem answerCmd_keptI {s t : State} (x0 : InstId) (x1 : MboxCmd) (x2 : Answer) (h : KeptI x0 s t) :
    KeptI x0 s (answerCmd x0 x1 x2 t) := by
  unfold answerCmd
  try dsimp only
  repeat' first | (with_reducible first | assumption | apply finishCmd_keptI | apply timeCmd_keptI) | split | dsimp only | intro _

theorem serve_keptI {s t : State} (x0 : InstId) (x1 x2 : Nat) (x3 : MboxCmd → Option Nat) (x4 : MboxCmd → State → Answer × State) (hf4 : ∀ y0 y1, KeptI x0 s y1 → KeptI x0 s (x4 y0 y1).2) (h : KeptI x0 s t) :
    ResOk (KeptI x0 s) (serve x0 x1 x2 x3 x4 t) := by
  unfold serve
  try dsimp only
  repeat' first | (with_reducible first | assumption | apply hf4 | apply answerCmd_keptI | apply endEvent_keptI | apply finishCmd_keptI | apply notTaken_keptI | apply startCmd_keptI | apply ResOk.next | exact ResOk.fault _) | split | dsimp only | intro _

theorem answerCmd_kept {s t : State} (x0 : InstId) (x1 : MboxCmd) (x2 : Answer) (h : Kept s t) :
    Kept s (answerCmd x0 x1 x2 t) := h.trans (answerCmd_keptI x0 x1 x2 (KeptI.refl _ t)).toKept

theorem endEvent_kept {s t : State} (x0 : InstId) (x1 : State) (h : Kept s t) :
    ResOk (Kept s) (endEvent x0 x1 t) := ResOk.lift h (endEvent_keptI x0 x1 (KeptI.refl _ t))

theorem finishCmd_kept {s t : State} (x0 : InstId) (x1 : Nat) (x2 : Nat) (x3 : Nat) (x4 : List Byte) (h : Kept s t) :
    Kept s (finishCmd x0 x1 x2 x3 x4 t) := h.trans (finishCmd_keptI x0 x1 x2 x3 x4 (KeptI.refl _ t)).toKept

theorem notTaken_kept {s t : State} (x0 : InstId) (x1 : Nat) (h : Kept s t) :
    ResOk (Kept s) (notTaken x0 x1 t) := ResOk.lift h (notTaken_keptI x0 x1 (KeptI.refl _ t))

theorem startCmd_kept {s t : State} (x0 : InstId) (x1 : MboxCmd) (h : Kept s t) :
    Kept s (startCmd x0 x1 t) := h.trans (startCmd_keptI x0 x1 (KeptI.refl _ t)).toKept

theorem serve_kept {s t : State} (x0 : InstId) (x1 x2 : Nat) (x3 : MboxCmd → Option Nat) (x4 : MboxCmd → State → Answer × State) (hf4 : ∀ y0 y1, Kept s y1 → Kept s (x4 y0 y1).2) (h : Kept s t) :
    ResOk (Kept s) (serve x0 x1 x2 x3 x4 t) := by
  unfold serve
  try dsimp only
  repeat' first | (with_reducible first | assumption | apply hf4 | apply answerCmd_kept | apply endEvent_kept | apply finishCmd_kept | apply notTaken_kept | apply startCmd_kept | apply ResOk.next | exact ResOk.fault _) | split | dsimp only | intro _

/-! ### Machine/Contexts.lean -/

theorem doClass0Reserve_keptI {s t : State} (x0 : InstId) (x1 : MboxCmd) (h : KeptI x0 s t) :
    KeptI x0 s (doClass0Reserve x0 x1 t).2 := by
  unfold doClass0Reserve
  try dsimp only
  repeat' first | (with_reducible first | assumption | apply coolExcess_keptI | apply foyerRound_keptI | apply journalObj_keptI | apply modFoyer_keptI) | split | dsimp only | intro _

theorem clearCtxIrq_keptI {s t : State} (x0 : InstId) (x1 : Nat) (h : KeptI x0 s t) :
    KeptI x0 s (clearCtxIrq x0 x1 t) := by
  unfold clearCtxIrq
  try dsimp only
  repeat' first | (with_reducible first | assumption | apply modMir_keptI) | split | dsimp only | intro _

theorem journalCtx_keptI {s t : State} (x0 : InstId) (x1 : Nat) (h : KeptI x0 s t) :
    KeptI x0 s (journalCtx x0 x1 t) := by
  unfold journalCtx
  try dsimp only
  repeat' first | (with_reducible first | assumption | apply journalObj_keptI) | split | dsimp only | intro _

theorem doContextOpen_keptI {s t : State} (x0 : InstId) (x1 : MboxCmd) (h : KeptI x0 s t) :
    KeptI x0 s (doContextOpen x0 x1 t).2 := by
  unfold doContextOpen
  try dsimp only
  repeat' first | (with_reducible first | assumption | apply clearCtxIrq_keptI | apply foyerRound_keptI | apply freeArrival_keptI | apply journalCtx_keptI | apply modCtx_keptI | apply foldl_keptI) | split | dsimp only | intro _

theorem doContextConfigure_keptI {s t : State} (x0 : InstId) (x1 : MboxCmd) (h : KeptI x0 s t) :
    KeptI x0 s (doContextConfigure x0 x1 t).2 := by
  unfold doContextConfigure
  try dsimp only
  repeat' first | (with_reducible first | assumption | apply deferTimer_keptI | apply foyerRound_keptI | apply journalCtx_keptI | apply modCtx_keptI) | split | dsimp only | intro _

theorem doContextClose_keptI {s t : State} (x0 : InstId) (x1 : MboxCmd) (h : KeptI x0 s t) :
    KeptI x0 s (doContextClose x0 x1 t).2 := by
  unfold doContextClose
  try dsimp only
  repeat' first | (with_reducible first | assumption | apply deferTimer_keptI | apply modCtx_keptI | apply postSeq_keptI | apply postUnit_keptI | apply rejectDeferred_keptI | apply foldl_keptI) | split | dsimp only | intro _

theorem doContextQuery_keptI {s t : State} (x0 : InstId) (x1 : MboxCmd) (h : KeptI x0 s t) :
    KeptI x0 s (doContextQuery x0 x1 t).2 := by
  unfold doContextQuery
  try dsimp only
  repeat' first | (with_reducible first | assumption | apply hbmPut_keptI) | split | dsimp only | intro _

/-! ### Machine/Objects.lean -/

theorem doRecipeDefine_keptI {s t : State} (x0 : InstId) (x1 : List Byte) (x2 : MboxCmd) (h : KeptI x0 s t) :
    KeptI x0 s (doRecipeDefine x0 x1 x2 t).2 := by
  unfold doRecipeDefine
  try dsimp only
  repeat' first | (with_reducible first | assumption | apply foyerRound_keptI | apply journalObj_keptI | apply modMir_keptI) | split | dsimp only | intro _

theorem doRecipeUndefine_keptI {s t : State} (x0 : InstId) (x1 : MboxCmd) (h : KeptI x0 s t) :
    KeptI x0 s (doRecipeUndefine x0 x1 t).2 := by
  unfold doRecipeUndefine
  try dsimp only
  repeat' first | (with_reducible first | assumption | apply journalObj_keptI | apply modMir_keptI) | split | dsimp only | intro _

theorem doPlanRegister_keptI {s t : State} (x0 : InstId) (x1 : MboxCmd) (h : KeptI x0 s t) :
    KeptI x0 s (doPlanRegister x0 x1 t).2 := by
  unfold doPlanRegister
  try dsimp only
  repeat' first | (with_reducible first | assumption | apply journalObj_keptI | apply modLib_keptI) | split | dsimp only | intro _

theorem doPlanUnregister_keptI {s t : State} (x0 : InstId) (x1 : MboxCmd) (h : KeptI x0 s t) :
    KeptI x0 s (doPlanUnregister x0 x1 t).2 := by
  unfold doPlanUnregister
  try dsimp only
  repeat' first | (with_reducible first | assumption | apply journalObj_keptI | apply libAssign_keptI | apply modLib_keptI) | split | dsimp only | intro _

theorem doPlanQuery_keptI {s t : State} (x0 : InstId) (x1 : MboxCmd) (h : KeptI x0 s t) :
    KeptI x0 s (doPlanQuery x0 x1 t).2 := by
  unfold doPlanQuery
  try dsimp only
  repeat' first | (with_reducible first | assumption) | split | dsimp only | intro _

theorem fetchPass_keptI {s t : State} (x0 : InstId) (x1 : Nat) (x2 : Plan) (h : KeptI x0 s t) :
    KeptI x0 s (fetchPass x0 x1 x2 t) := by
  unfold fetchPass
  try dsimp only
  repeat' first | (with_reducible first | assumption | apply foyerRound_keptI | apply modLib_keptI | apply postSeq_keptI | apply ringPush_keptI | apply foldl_keptI) | split | dsimp only | intro _

theorem fetchFail_keptI {s t : State} (x0 : InstId) (x1 x2 : Nat) (h : KeptI x0 s t) :
    KeptI x0 s (fetchFail x0 x1 x2 t) := by
  unfold fetchFail
  try dsimp only
  repeat' first | (with_reducible first | assumption | apply deferTimer_keptI | apply journalObj_keptI | apply libAssign_keptI | apply modLib_keptI | apply postSeq_keptI | apply rejectDeferred_keptI | apply ringPush_keptI | apply foldl_keptI) | split | dsimp only | intro _

/-! ### Machine/Orders.lean -/

theorem awaitEvents_keptI {s t : State} (x0 : InstId) (x1 x2 x3 : Nat) (h : KeptI x0 s t) :
    KeptI x0 s (awaitEvents x0 x1 x2 x3 t) := by
  unfold awaitEvents
  try dsimp only
  repeat' first | (with_reducible first | assumption | apply modCmd_keptI) | split | dsimp only | intro _

theorem postEach_keptI {s t : State} (x0 : InstId) (x1 : List Nat) (x2 : EvKind) (h : KeptI x0 s t) :
    KeptI x0 s (postEach x0 x1 x2 t) := by
  unfold postEach
  try dsimp only
  repeat' first | (with_reducible first | assumption | apply postSeq_keptI | apply foldl_keptI) | split | dsimp only | intro _

theorem doCancel_keptI {s t : State} (x0 : InstId) (x1 : MboxCmd) (h : KeptI x0 s t) :
    KeptI x0 s (doCancel x0 x1 t).2 := by
  unfold doCancel
  try dsimp only
  repeat' first | (with_reducible first | assumption | apply awaitEvents_keptI | apply closeCmd_keptI | apply deferTimer_keptI | apply postEach_keptI | apply rejectDeferred_keptI) | split | dsimp only | intro _

theorem doOrder_keptI {s t : State} (x0 : InstId) (x1 : MboxCmd) (x2 : EvKind) (h : KeptI x0 s t) :
    KeptI x0 s (doOrder x0 x1 x2 t).2 := by
  unfold doOrder
  try dsimp only
  repeat' first | (with_reducible first | assumption | apply awaitEvents_keptI | apply closeCmd_keptI | apply postEach_keptI) | split | dsimp only | intro _

theorem warmFirst_keptI {s t : State} (x0 : InstId) (x1 : List Nat) (h : KeptI x0 s t) :
    KeptI x0 s (warmFirst x0 x1 t) := by
  unfold warmFirst
  try dsimp only
  repeat' first | (with_reducible first | assumption | apply postSeq_keptI | apply foldl_keptI) | split | dsimp only | intro _

theorem doResume_keptI {s t : State} (x0 : InstId) (x1 : MboxCmd) (h : KeptI x0 s t) :
    KeptI x0 s (doResume x0 x1 t).2 := by
  unfold doResume
  try dsimp only
  repeat' first | (with_reducible first | assumption | apply doOrder_keptI | apply warmFirst_keptI) | split | dsimp only | intro _

theorem doExtendCmd_keptI {s t : State} (x0 : InstId) (x1 : List Nat) (x2 : MboxCmd) (h : KeptI x0 s t) :
    KeptI x0 s (doExtendCmd x0 x1 x2 t).2 := by
  unfold doExtendCmd
  try dsimp only
  repeat' first | (with_reducible first | assumption | apply hbmPut_keptI | apply postSeq_keptI) | split | dsimp only | intro _

theorem doQuerySequence_keptI {s t : State} (x0 : InstId) (x1 : MboxCmd) (h : KeptI x0 s t) :
    KeptI x0 s (doQuerySequence x0 x1 t).2 := by
  unfold doQuerySequence
  try dsimp only
  repeat' first | (with_reducible first | assumption | apply hbmPut_keptI) | split | dsimp only | intro _

theorem doMigrate_keptI {s t : State} (x0 : InstId) (x1 : MboxCmd) (h : KeptI x0 s t) :
    KeptI x0 s (doMigrate x0 x1 t).2 := by
  unfold doMigrate
  try dsimp only
  repeat' first | (with_reducible first | assumption | apply postSeq_keptI) | split | dsimp only | intro _

/-! ### Machine/Models.lean -/

theorem onModel_keptI {s t : State} (x0 : InstId) (x1 : Nat → Model → State → Answer × State) (x2 : MboxCmd) (hf1 : ∀ y0 y1 y2, KeptI x0 s y2 → KeptI x0 s (x1 y0 y1 y2).2) (h : KeptI x0 s t) :
    KeptI x0 s (onModel x0 x1 x2 t).2 := by
  unfold onModel
  try dsimp only
  repeat' first | (with_reducible first | assumption | apply hf1) | split | dsimp only | intro _

theorem journalModel_keptI {s t : State} (x0 : InstId) (x1 : Nat) (h : KeptI x0 s t) :
    KeptI x0 s (journalModel x0 x1 t) := by
  unfold journalModel
  try dsimp only
  repeat' first | (with_reducible first | assumption | apply journalObj_keptI) | split | dsimp only | intro _

theorem answerRequest_keptI {s t : State} (x0 : InstId) (x1 : Nat) (x2 : Bool) (h : KeptI x0 s t) :
    KeptI x0 s (answerRequest x0 x1 x2 t) := by
  unfold answerRequest
  try dsimp only
  repeat' first | (with_reducible first | assumption | apply modDir_keptI) | split | dsimp only | intro _

theorem doModelDescribe_keptI {s t : State} (x0 : InstId) (x1 : List Byte) (x2 : MboxCmd) (h : KeptI x0 s t) :
    KeptI x0 s (doModelDescribe x0 x1 x2 t).2 := by
  unfold doModelDescribe
  try dsimp only
  repeat' first | (with_reducible first | assumption | apply journalModel_keptI | apply modModel_keptI) | split | dsimp only | intro _

theorem doModelQuery_keptI {s t : State} (x0 : InstId) (x1 : MboxCmd) (h : KeptI x0 s t) :
    KeptI x0 s (doModelQuery x0 x1 t).2 := by
  unfold doModelQuery
  try dsimp only
  repeat' first | (with_reducible first | assumption | apply hbmPut_keptI) | split | dsimp only | intro _

theorem doModelForget_keptI {s t : State} (x0 : InstId) (x1 : MboxCmd) (h : KeptI x0 s t) :
    KeptI x0 s (doModelForget x0 x1 t).2 := by
  unfold doModelForget
  try dsimp only
  repeat' first | (with_reducible first | assumption | apply foyerRound_keptI | apply grantSlots_keptI | apply journalModel_keptI | apply modDir_keptI | apply onModel_keptI) | split | dsimp only | intro _

theorem doModelLoaded_keptI {s t : State} (x0 : InstId) (x1 : MboxCmd) (h : KeptI x0 s t) :
    KeptI x0 s (doModelLoaded x0 x1 t).2 := by
  unfold doModelLoaded
  try dsimp only
  repeat' first | (with_reducible first | assumption | apply answerRequest_keptI | apply dirEdge_keptI | apply foyerRound_keptI | apply journalModel_keptI | apply modModel_keptI | apply onModel_keptI) | split | dsimp only | intro _

theorem rejectOfModel_keptI {s t : State} (x0 : InstId) (x1 x2 : Nat) (h : KeptI x0 s t) :
    KeptI x0 s (rejectOfModel x0 x1 x2 t) := by
  unfold rejectOfModel
  try dsimp only
  repeat' first | (with_reducible first | assumption | apply deferTimer_keptI | apply rejectDeferred_keptI | apply foldl_keptI) | split | dsimp only | intro _

theorem doModelLoadDeclined_keptI {s t : State} (x0 : InstId) (x1 : MboxCmd) (h : KeptI x0 s t) :
    KeptI x0 s (doModelLoadDeclined x0 x1 t).2 := by
  unfold doModelLoadDeclined
  try dsimp only
  repeat' first | (with_reducible first | assumption | apply answerRequest_keptI | apply grantSlots_keptI | apply journalModel_keptI | apply modModel_keptI | apply onModel_keptI | apply rejectOfModel_keptI) | split | dsimp only | intro _

theorem wantAgain_keptI {s t : State} (x0 : InstId) (x1 : Nat) (h : KeptI x0 s t) :
    KeptI x0 s (wantAgain x0 x1 t) := by
  unfold wantAgain
  try dsimp only
  repeat' first | (with_reducible first | assumption | apply demandModel_keptI) | split | dsimp only | intro _

theorem doModelUnloaded_keptI {s t : State} (x0 : InstId) (x1 : MboxCmd) (h : KeptI x0 s t) :
    KeptI x0 s (doModelUnloaded x0 x1 t).2 := by
  unfold doModelUnloaded
  try dsimp only
  repeat' first | (with_reducible first | assumption | apply answerRequest_keptI | apply foyerRound_keptI | apply grantSlots_keptI | apply journalModel_keptI | apply modModel_keptI | apply onModel_keptI | apply wantAgain_keptI) | split | dsimp only | intro _

theorem doModelPin_keptI {s t : State} (x0 : InstId) (x1 : MboxCmd) (h : KeptI x0 s t) :
    KeptI x0 s (doModelPin x0 x1 t).2 := by
  unfold doModelPin
  try dsimp only
  repeat' first | (with_reducible first | assumption | apply dirEdge_keptI | apply journalModel_keptI | apply modModel_keptI | apply onModel_keptI) | split | dsimp only | intro _

theorem doEpochStage_keptI {s t : State} (x0 : InstId) (x1 : List Byte) (x2 : MboxCmd) (h : KeptI x0 s t) :
    KeptI x0 s (doEpochStage x0 x1 x2 t).2 := by
  unfold doEpochStage
  try dsimp only
  repeat' first | (with_reducible first | assumption | apply grantSlots_keptI | apply journalModel_keptI | apply modModel_keptI) | split | dsimp only | intro _

theorem doEpochReady_keptI {s t : State} (x0 : InstId) (x1 : MboxCmd) (h : KeptI x0 s t) :
    KeptI x0 s (doEpochReady x0 x1 t).2 := by
  unfold doEpochReady
  try dsimp only
  repeat' first | (with_reducible first | assumption | apply dirCheck_keptI | apply journalModel_keptI | apply modModel_keptI | apply onModel_keptI) | split | dsimp only | intro _

theorem doEpochCommit_keptI {s t : State} (x0 : InstId) (x1 : MboxCmd) (h : KeptI x0 s t) :
    KeptI x0 s (doEpochCommit x0 x1 t).2 := by
  unfold doEpochCommit
  try dsimp only
  repeat' first | (with_reducible first | assumption | apply journalModel_keptI | apply modKit_keptI | apply modModel_keptI | apply onModel_keptI) | split | dsimp only | intro _

theorem doEpochUnstage_keptI {s t : State} (x0 : InstId) (x1 : MboxCmd) (h : KeptI x0 s t) :
    KeptI x0 s (doEpochUnstage x0 x1 t).2 := by
  unfold doEpochUnstage
  try dsimp only
  repeat' first | (with_reducible first | assumption | apply dirEdge_keptI | apply grantSlots_keptI | apply journalModel_keptI | apply modModel_keptI | apply onModel_keptI) | split | dsimp only | intro _

theorem doEpochRetire_keptI {s t : State} (x0 : InstId) (x1 : MboxCmd) (h : KeptI x0 s t) :
    KeptI x0 s (doEpochRetire x0 x1 t).2 := by
  unfold doEpochRetire
  try dsimp only
  repeat' first | (with_reducible first | assumption | apply broadcast_keptI | apply onModel_keptI | apply retireCheck_keptI) | split | dsimp only | intro _

/-! ### Machine/Turns.lean -/

theorem doEvening_keptI {s t : State} (x0 : InstId) (x1 : MboxCmd) (h : KeptI x0 s t) :
    KeptI x0 s (doEvening x0 x1 t).2 := by
  unfold doEvening
  try dsimp only
  repeat' first | (with_reducible first | assumption | apply modKit_keptI) | split | dsimp only | intro _

theorem finishCode_keptI {s t : State} (x0 : InstId) (x1 x2 : Nat) (h : KeptI x0 s t) :
    KeptI x0 s (finishCode x0 x1 x2 t) := by
  unfold finishCode
  try dsimp only
  repeat' first | (with_reducible first | assumption | apply finishCmd_keptI | apply foldl_keptI) | split | dsimp only | intro _

theorem announceAll_kept {s t : State} (x0 : InstId) (h : Kept s t) :
    Kept s (announceAll x0 t) := h.trans (announceAll_keptI x0 (KeptI.refl _ t)).toKept

theorem logFault_kept {s t : State} (x0 : InstId) (x1 : Nat) (x2 : Nat) (x3 : Option Nat) (x4 : Nat) (x5 : Nat) (x6 : Nat) (h : Kept s t) :
    Kept s (logFault x0 x1 x2 x3 x4 x5 x6 t) := h.trans (logFault_keptI x0 x1 x2 x3 x4 x5 x6 (KeptI.refl _ t)).toKept

theorem changeMode_kept {s t : State} (x0 : InstId) (x1 : Bool) (h : Kept s t) :
    Kept s (changeMode x0 x1 t) := by
  unfold changeMode
  try dsimp only
  repeat' first | (with_reducible first | assumption | apply announceAll_kept | apply logFault_kept | apply modInst_kept) | split | dsimp only | intro _

theorem assignSet_kept {s t : State} (x0 : InstId) (x1 : BitVec 8) (h : Kept s t) :
    Kept s (assignSet x0 x1 t) := by
  unfold assignSet
  try dsimp only
  repeat' first | (with_reducible first | assumption | apply modInst_kept | apply modOutpost_kept | apply foldl_kept) | (unfold LarderKeeps; intro x hx; first | exact hx | exact discardStep_wf _ _ hx | exact finishRow_wf _ hx | exact drainPort_wf hx | (split <;> exact hx) | (split <;> split <;> exact hx) | simpa using hx | (dsimp only; split <;> first | exact hx | simpa using hx)) | split | dsimp only | intro _

theorem foyerRound_kept {s t : State} (x0 : InstId) (h : Kept s t) :
    Kept s (foyerRound x0 t) := h.trans (foyerRound_keptI x0 (KeptI.refl _ t)).toKept

theorem grantSlots_kept {s t : State} (x0 : InstId) (x1 : Nat) (h : Kept s t) :
    Kept s (grantSlots x0 x1 t) := h.trans (grantSlots_keptI x0 x1 (KeptI.refl _ t)).toKept

theorem modDir_kept {s t : State} (x0 : InstId) (x1 : Directory → Directory) (h : Kept s t) :
    Kept s (modDir x0 x1 t) := h.trans (modDir_keptI x0 x1 (KeptI.refl _ t)).toKept

theorem modKit_kept {s t : State} (x0 : InstId) (x1 : Kitchen → Kitchen) (h : Kept s t) :
    Kept s (modKit x0 x1 t) := h.trans (modKit_keptI x0 x1 (KeptI.refl _ t)).toKept

theorem beginMorning_kept {s t : State} (x0 : InstId) (x1 : Nat × BitVec 8) (h : Kept s t) :
    Kept s (beginMorning x0 x1 t) := by
  unfold beginMorning
  try dsimp only
  repeat' first | (with_reducible first | assumption | apply assignSet_kept | apply changeMode_kept | apply foyerRound_kept | apply grantSlots_kept | apply modDir_kept | apply modKit_kept | apply modOutpost_kept | apply foldl_kept) | (unfold LarderKeeps; intro x hx; first | exact hx | exact discardStep_wf _ _ hx | exact finishRow_wf _ hx | exact drainPort_wf hx | (split <;> exact hx) | (split <;> split <;> exact hx) | simpa using hx | (dsimp only; split <;> first | exact hx | simpa using hx)) | split | dsimp only | intro _

theorem doMorning_kept {s t : State} (x0 : InstId) (x1 : MboxCmd) (h : Kept s t) :
    Kept s (doMorning x0 x1 t).2 := by
  unfold doMorning
  try dsimp only
  repeat' first | (with_reducible first | assumption | apply beginMorning_kept) | split | dsimp only | intro _

theorem openMorning_keptI {s t : State} (x0 : InstId) (h : KeptI x0 s t) :
    KeptI x0 s (openMorning x0 t) := by
  unfold openMorning
  try dsimp only
  repeat' first | (with_reducible first | assumption | apply dirEdge_keptI | apply finishCode_keptI | apply foyerRound_keptI | apply journalObj_keptI | apply modKit_keptI | apply modSeq_keptI | apply postSeq_keptI | apply setRole_keptI | apply foldl_keptI) | split | dsimp only | intro _

theorem doTurnCost_keptI {s t : State} (x0 : InstId) (x1 : MboxCmd) (h : KeptI x0 s t) :
    KeptI x0 s (doTurnCost x0 x1 t).2 := by
  unfold doTurnCost
  try dsimp only
  repeat' first | (with_reducible first | assumption | apply hbmPut_keptI) | split | dsimp only | intro _

theorem doPoolLend_keptI {s t : State} (x0 : InstId) (x1 : MboxCmd) (h : KeptI x0 s t) :
    KeptI x0 s (doPoolLend x0 x1 t).2 := by
  unfold doPoolLend
  try dsimp only
  repeat' first | (with_reducible first | assumption | apply hbmPut_keptI | apply modPantry_keptI | apply ringPush_keptI) | split | dsimp only | intro _

theorem doPoolReturn_keptI {s t : State} (x0 : InstId) (x1 : MboxCmd) (h : KeptI x0 s t) :
    KeptI x0 s (doPoolReturn x0 x1 t).2 := by
  unfold doPoolReturn
  try dsimp only
  repeat' first | (with_reducible first | assumption | apply modPantry_keptI | apply ringPush_keptI) | split | dsimp only | intro _

end Sys2Proof.Laws
end

