-- ==== Sys2Proof/Laws/FrameRest.lean ====
section
/-! SUPPORT. What Dawn, the rings, the fabric, the Study, the registers, the drive, the twin, the restore and the clock leave alone. Each lemma says of one operation what Kept and KeptI (Laws/Frame.lean) say: it keeps the queue, the memories' form, the tick and the power, never gives a free value back, and, where it names an instance, leaves a split partner alone. -/

namespace Sys2Proof.Laws

open Sys2Proof Sys2Proof.Machine

/-! ### Machine/Dawn.lean -/

theorem askGrant_keptI {s t : State} (x0 : InstId) (x1 : FlashUse) (h : KeptI x0 s t) :
    KeptI x0 s (askGrant x0 x1 t) := by
  unfold askGrant
  try dsimp only
  repeat' first | (with_reducible first | assumption) | split | dsimp only | intro _ | with_reducible apply KeptI.raw

theorem dropGrant_keptI {s t : State} (x0 : InstId) (h : KeptI x0 s t) :
    KeptI x0 s (dropGrant x0 t) := by
  unfold dropGrant
  try dsimp only
  repeat' first | (with_reducible first | assumption) | split | dsimp only | intro _ | with_reducible apply KeptI.raw

theorem setStage_keptI {s t : State} (x0 : InstId) (x1 : DawnStage) (h : KeptI x0 s t) :
    KeptI x0 s (setStage x0 x1 t) := by
  unfold setStage
  try dsimp only
  repeat' first | (with_reducible first | assumption | apply modHearth_keptI | apply raiseIrq_keptI) | split | dsimp only | intro _

theorem dawnGrant_keptI {s t : State} (x0 : InstId) (h : KeptI x0 s t) :
    KeptI x0 s (dawnGrant x0 t) := by
  unfold dawnGrant
  try dsimp only
  repeat' first | (with_reducible first | assumption | apply modHearth_keptI | apply setStage_keptI) | split | dsimp only | intro _ | with_reducible apply KeptI.raw

theorem dropGrant_kept {s t : State} (x0 : InstId) (h : Kept s t) :
    Kept s (dropGrant x0 t) := h.trans (dropGrant_keptI x0 (KeptI.refl _ t)).toKept

theorem modHearth_kept {s t : State} (x0 : InstId) (x1 : Hearth → Hearth) (h : Kept s t) :
    Kept s (modHearth x0 x1 t) := h.trans (modHearth_keptI x0 x1 (KeptI.refl _ t)).toKept

theorem confirmBoot_kept {s t : State} (x0 : InstId) (x1 : Nat) (h : Kept s t) :
    Kept s (confirmBoot x0 x1 t) := by
  unfold confirmBoot
  try dsimp only
  repeat' first | (with_reducible first | assumption | apply dropGrant_kept | apply finishCmd_kept | apply modHearth_kept) | split | dsimp only | intro _ | with_reducible apply Kept.raw

theorem nextSlot_keptI {s t : State} (x0 : InstId) (h : KeptI x0 s t) :
    KeptI x0 s (nextSlot x0 t) := by
  unfold nextSlot
  try dsimp only
  repeat' first | (with_reducible first | assumption | apply askGrant_keptI | apply modHearth_keptI | apply setStage_keptI) | split | dsimp only | intro _

theorem applyTrims_keptI {s t : State} (x0 : InstId) (x1 : List (Nat × Nat × Nat × Nat)) (h : KeptI x0 s t) :
    KeptI x0 s (applyTrims x0 x1 t) := by
  unfold applyTrims
  try dsimp only
  repeat' first | (with_reducible first | assumption | apply modHearth_keptI | apply foldl_keptI) | split | dsimp only | intro _ | with_reducible apply KeptI.raw

theorem startImage_keptI {s t : State} (x0 : InstId) (h : KeptI x0 s t) :
    KeptI x0 s (startImage x0 t) := by
  unfold startImage
  try dsimp only
  repeat' first | (with_reducible first | assumption | apply applyTrims_keptI | apply modHearth_keptI | apply setStage_keptI) | split | dsimp only | intro _

theorem doPlaceRegion_keptI {s t : State} (x0 : InstId) (x1 : MboxCmd) (h : KeptI x0 s t) :
    KeptI x0 s (doPlaceRegion x0 x1 t).2 := by
  unfold doPlaceRegion
  try dsimp only
  repeat' first | (with_reducible first | assumption | apply modInst_keptI) | split | dsimp only | intro _

theorem useRange_keptI {s t : State} (x0 : InstId) (x1 : Nat × Nat × Nat) (h : KeptI x0 s t) :
    KeptI x0 s (useRange x0 x1 t) := by
  unfold useRange
  try dsimp only
  repeat' first | (with_reducible first | assumption | apply modRel_keptI) | split | dsimp only | intro _ | with_reducible apply KeptI.raw

theorem doDriveRange_keptI {s t : State} (x0 : InstId) (x1 : MboxCmd) (h : KeptI x0 s t) :
    KeptI x0 s (doDriveRange x0 x1 t).2 := by
  unfold doDriveRange
  try dsimp only
  repeat' first | (with_reducible first | assumption | apply modInst_keptI | apply useRange_keptI) | split | dsimp only | intro _

theorem doIdentity_keptI {s t : State} (x0 : InstId) (x1 : MboxCmd) (h : KeptI x0 s t) :
    KeptI x0 s (doIdentity x0 x1 t).2 := by
  unfold doIdentity
  try dsimp only
  repeat' first | (with_reducible first | assumption | apply modInst_keptI) | split | dsimp only | intro _

theorem doPairing_keptI {s t : State} (x0 : InstId) (x1 : MboxCmd) (h : KeptI x0 s t) :
    KeptI x0 s (doPairing x0 x1 t).2 := by
  unfold doPairing
  try dsimp only
  repeat' first | (with_reducible first | assumption | apply modInst_keptI | apply modOutpost_keptI | apply foldl_keptI) | (unfold LarderKeeps; intro x hx; first | exact hx | exact discardStep_wf _ _ hx | exact finishRow_wf _ hx | exact drainPort_wf hx | (split <;> exact hx) | (split <;> split <;> exact hx) | simpa using hx | (dsimp only; split <;> first | exact hx | simpa using hx)) | split | dsimp only | intro _

theorem doHostTrims_keptI {s t : State} (x0 : InstId) (x1 : List Byte) (x2 : MboxCmd) (h : KeptI x0 s t) :
    KeptI x0 s (doHostTrims x0 x1 x2 t).2 := by
  unfold doHostTrims
  try dsimp only
  repeat' first | (with_reducible first | assumption | apply applyTrims_keptI) | split | dsimp only | intro _

theorem copyFirmware_keptI {s t : State} (x0 : InstId) (h : KeptI x0 s t) :
    KeptI x0 s (copyFirmware x0 t) := by
  unfold copyFirmware
  try dsimp only
  repeat' first | (with_reducible first | assumption | apply hbmPut_keptI | apply modHearth_keptI) | split | dsimp only | intro _

theorem doDawnComplete_keptI {s t : State} (x0 : InstId) (x1 : MboxCmd) (h : KeptI x0 s t) :
    KeptI x0 s (doDawnComplete x0 x1 t).2 := by
  unfold doDawnComplete
  try dsimp only
  repeat' first | (with_reducible first | assumption | apply copyFirmware_keptI | apply modOutpost_keptI | apply setStage_keptI | apply startDiscovery_keptI | apply foldl_keptI) | (unfold LarderKeeps; intro x hx; first | exact hx | exact discardStep_wf _ _ hx | exact finishRow_wf _ hx | exact drainPort_wf hx | (split <;> exact hx) | (split <;> split <;> exact hx) | simpa using hx | (dsimp only; split <;> first | exact hx | simpa using hx)) | split | dsimp only | intro _

theorem pairUp_keptI {s t : State} (x0 : InstId) (h : KeptI x0 s t) : KeptI x0 s (pairUp x0 t) := by
  unfold pairUp
  extract_lets j x y
  split
  · exact h
  · rename_i hc
    simp only [Bool.or_eq_true, not_or, Bool.not_eq_true] at hc
    have k1 : ∀ (f : Reliability → Reliability) (l : InstId) (u : State), Kept s u → Kept s (modRel l f u) :=
      fun f l u hu => hu.trans (modRel_keptI l f (KeptI.refl _ u)).toKept
    have k2 : ∀ (l : InstId) (u : State), Kept s u → Kept s (mirrorLost l u) :=
      fun l u hu => hu.trans (mirrorLost_keptI l (KeptI.refl _ u)).toKept
    split
    · exact KeptI.cross h (k1 _ _ _ (k1 _ _ _ h.toKept)) hc.1.1.2
    · exact KeptI.cross h (k1 _ _ _ (k2 _ _ h.toKept)) hc.1.1.2

theorem openDawn_keptI {s t : State} (x0 : InstId) (x1 : Nat) (h : KeptI x0 s t) :
    KeptI x0 s (openDawn x0 x1 t) := by
  unfold openDawn
  try dsimp only
  repeat' first | (with_reducible first | assumption | apply finishCmd_keptI | apply modRel_keptI | apply pairUp_keptI | apply setRole_keptI | apply setStage_keptI) | split | dsimp only | intro _

theorem afterDiscovery_keptI {s t : State} (x0 : InstId) (h : KeptI x0 s t) :
    KeptI x0 s (afterDiscovery x0 t) := by
  unfold afterDiscovery
  try dsimp only
  repeat' first | (with_reducible first | assumption | apply modStair_keptI | apply openDawn_keptI | apply openMorning_keptI) | split | dsimp only | intro _

theorem fenceCore_keptI {s t : State} (x0 : InstId) (x1 : Nat) (h : KeptI x0 s t) :
    KeptI x0 s (fenceCore x0 x1 t) := by
  unfold fenceCore
  try dsimp only
  repeat' first | (with_reducible first | assumption | apply instFault_keptI | apply logFault_keptI | apply modHearth_keptI) | split | dsimp only | intro _

theorem eccSeq_keptI {s t : State} (x0 : InstId) (x1 : Nat) (h : KeptI x0 s t) :
    KeptI x0 s (eccSeq x0 x1 t) := by
  unfold eccSeq
  try dsimp only
  repeat' first | (with_reducible first | assumption | apply askFault_keptI) | split | dsimp only | intro _

theorem readAddr_keptI {s t : State} (i : InstId) (h : KeptI i s t) :
    KeptI i s (readAddr t).2 := by
  unfold readAddr
  try dsimp only
  repeat' first | (with_reducible first | assumption | apply takeFree_keptI) | split | dsimp only | intro _

theorem eccHbm_keptI {s t : State} (x0 : InstId) (x1 : Nat) (h : KeptI x0 s t) :
    KeptI x0 s (eccHbm x0 x1 t) := by
  unfold eccHbm
  try dsimp only
  repeat' first | (with_reducible first | assumption | apply eccSeq_keptI | apply faultAt_keptI | apply readAddr_keptI) | split | dsimp only | intro _

theorem eccFatal_keptI {s t : State} (x0 : InstId) (x1 x2 x3 : Nat) (h : KeptI x0 s t) :
    KeptI x0 s (eccFatal x0 x1 x2 x3 t) := by
  unfold eccFatal
  try dsimp only
  repeat' first | (with_reducible first | assumption | apply instFault_keptI) | split | dsimp only | intro _

theorem doImageWrite_keptI {s t : State} (x0 : InstId) (x1 : List Byte) (x2 : MboxCmd) (h : KeptI x0 s t) :
    KeptI x0 s (doImageWrite x0 x1 x2 t).2 := by
  unfold doImageWrite
  try dsimp only
  repeat' first | (with_reducible first | assumption | apply askGrant_keptI | apply modHearth_keptI) | split | dsimp only | intro _

theorem askGrant_kept {s t : State} (x0 : InstId) (x1 : FlashUse) (h : Kept s t) :
    Kept s (askGrant x0 x1 t) := h.trans (askGrant_keptI x0 x1 (KeptI.refl _ t)).toKept

theorem doFirmwareConfirm_kept {s t : State} (x0 : InstId) (x1 : MboxCmd) (h : Kept s t) :
    Kept s (doFirmwareConfirm x0 x1 t).2 := by
  unfold doFirmwareConfirm
  try dsimp only
  repeat' first | (with_reducible first | assumption | apply askGrant_kept) | split | dsimp only | intro _

/-! ### Machine/Rings.lean -/

theorem writeShadow_keptI {s t : State} (x0 : InstId) (x1 : Nat) (h : KeptI x0 s t) :
    KeptI x0 s (writeShadow x0 x1 t) := by
  unfold writeShadow
  try dsimp only
  repeat' first | (with_reducible first | assumption | apply hostPut_keptI) | split | dsimp only | intro _

theorem setSqTail_keptI {s t : State} (x0 : InstId) (x1 x2 : Nat) (h : KeptI x0 s t) :
    KeptI x0 s (setSqTail x0 x1 x2 t) := by
  unfold setSqTail
  try dsimp only
  repeat' first | (with_reducible first | assumption | apply modCtx_keptI | apply ringPush_keptI) | split | dsimp only | intro _

theorem setCqHead_keptI {s t : State} (x0 : InstId) (x1 x2 : Nat) (h : KeptI x0 s t) :
    KeptI x0 s (setCqHead x0 x1 x2 t) := by
  unfold setCqHead
  try dsimp only
  repeat' first | (with_reducible first | assumption | apply freeArrival_keptI | apply journalRing_keptI | apply modCtx_keptI | apply foldl_keptI) | split | dsimp only | intro _

theorem guarded_keptI {s t : State} (x0 : InstId) (x1 : Option Nat) (x2 : State) (h : KeptI x0 s t) :
    ResOk (KeptI x0 s) (guarded x0 x1 x2 t) := by
  unfold guarded
  try dsimp only
  repeat' first | (with_reducible first | assumption | apply settle_keptI | apply ResOk.next | exact ResOk.fault _) | split | dsimp only | intro _

theorem testCq_keptI {s t : State} (x0 : InstId) (x1 : Nat) (h : KeptI x0 s t) :
    KeptI x0 s (testCq x0 x1 t) := by
  unfold testCq
  try dsimp only
  repeat' first | (with_reducible first | assumption | apply raiseIrq_keptI) | split | dsimp only | intro _

theorem testCqs_keptI {s t : State} (x0 : InstId) (h : KeptI x0 s t) :
    KeptI x0 s (testCqs x0 t) := by
  unfold testCqs
  try dsimp only
  repeat' first | (with_reducible first | assumption | apply testCq_keptI | apply foldl_keptI) | split | dsimp only | intro _

theorem clearCq_keptI {s t : State} (x0 : InstId) (x1 : Nat) (h : KeptI x0 s t) :
    KeptI x0 s (clearCq x0 x1 t) := by
  unfold clearCq
  try dsimp only
  repeat' first | (with_reducible first | assumption | apply modCtx_keptI | apply raiseIrq_keptI) | split | dsimp only | intro _

theorem clearIrq_keptI {s t : State} (x0 : InstId) (x1 : BitVec 36) (h : KeptI x0 s t) :
    KeptI x0 s (clearIrq x0 x1 t) := by
  unfold clearIrq
  try dsimp only
  repeat' first | (with_reducible first | assumption | apply clearCq_keptI | apply modMir_keptI | apply foldl_keptI) | split | dsimp only | intro _

theorem setEnable_keptI {s t : State} (x0 : InstId) (x1 : BitVec 36) (h : KeptI x0 s t) :
    KeptI x0 s (setEnable x0 x1 t) := by
  unfold setEnable
  try dsimp only
  repeat' first | (with_reducible first | assumption | apply modMir_keptI | apply sendIrq_keptI) | split | dsimp only | intro _

theorem writeRing_keptI {s t : State} (i : InstId) (x0 : CtxCfg) (x1 : Nat) (x2 : List Completion) (h : KeptI i s t) :
    KeptI i s (writeRing x0 x1 x2 t) := by
  induction x2 generalizing x1 t with
  | nil => (unfold writeRing; (try dsimp only); exact h)
  | cons a b ih =>
    unfold writeRing
    try dsimp only
    repeat' first | (with_reducible first | apply ih | assumption | apply hostPut_keptI) | split | dsimp only | intro _

theorem notRead_keptI {s t : State} (x0 : InstId) (x1 : Nat) (h : KeptI x0 s t) :
    ResOk (KeptI x0 s) (notRead x0 x1 t) := by
  unfold notRead
  try dsimp only
  repeat' first | (with_reducible first | assumption | apply done_keptI | apply modHall_keptI | apply ResOk.next | exact ResOk.fault _) | split | dsimp only | intro _

theorem passEntry_keptI {s t : State} (x0 : InstId) (x1 : Nat) (h : KeptI x0 s t) :
    KeptI x0 s (passEntry x0 x1 t) := by
  unfold passEntry
  try dsimp only
  repeat' first | (with_reducible first | assumption | apply journalRing_keptI | apply modCtx_keptI | apply writeShadow_keptI) | split | dsimp only | intro _

theorem placeBuffers_keptI {s t : State} (i : InstId) (x0 : Request) (x1 : List Nat) (x2 : List Byte) (h : KeptI i s t) :
    KeptI i s (placeBuffers x0 x1 x2 t) := by
  unfold placeBuffers
  try dsimp only
  repeat' first | (with_reducible first | assumption | apply hbmPut_keptI) | split | dsimp only | intro _

theorem placeEntry_keptI {s t : State} (x0 : InstId) (x1 : Nat) (x2 : List Byte) (h : KeptI x0 s t) :
    KeptI x0 s (placeEntry x0 x1 x2 t) := by
  unfold placeEntry
  try dsimp only
  repeat' first | (with_reducible first | assumption | apply hostPut_keptI) | split | dsimp only | intro _

theorem readSubmit_keptI {s t : State} (x0 : InstId) (x1 : Nat) (x2 : List Byte) (x3 : List Nat) (x4 : List Byte) (x5 : State) (h : KeptI x0 s t) :
    ResOk (KeptI x0 s) (readSubmit x0 x1 x2 x3 x4 x5 t) := by
  unfold readSubmit
  try dsimp only
  repeat' first | (with_reducible first | assumption | apply endEvent_keptI | apply newRequest_keptI | apply passAll_keptI | apply passEntry_keptI | apply placeBuffers_keptI | apply ResOk.next | exact ResOk.fault _) | split | dsimp only | intro _

theorem foyerPeriod_keptI {s t : State} (x0 : InstId) (x1 : Nat) (h : KeptI x0 s t) :
    KeptI x0 s (foyerPeriod x0 x1 t) := by
  unfold foyerPeriod
  try dsimp only
  repeat' first | (with_reducible first | assumption | apply duskUnit_keptI | apply foyerRound_keptI) | split | dsimp only | intro _

theorem expireDeferred_keptI {s t : State} (x0 : InstId) (x1 : Nat) (h : KeptI x0 s t) :
    KeptI x0 s (expireDeferred x0 x1 t) := by
  unfold expireDeferred
  try dsimp only
  repeat' first | (with_reducible first | assumption | apply deferTimer_keptI | apply rejectDeferred_keptI) | split | dsimp only | intro _

theorem releaseContext_keptI {s t : State} (x0 : InstId) (x1 : Nat) (h : KeptI x0 s t) :
    KeptI x0 s (releaseContext x0 x1 t) := by
  unfold releaseContext
  try dsimp only
  repeat' first | (with_reducible first | assumption | apply freeArrival_keptI | apply modCtx_keptI | apply foldl_keptI) | split | dsimp only | intro _

/-! ### Machine/Fabric.lean -/

theorem staleDiscard_keptI {s t : State} (x0 : InstId) (h : KeptI x0 s t) :
    KeptI x0 s (staleDiscard x0 t) := by
  unfold staleDiscard
  try dsimp only
  repeat' first | (with_reducible first | assumption | apply modStair_keptI) | split | dsimp only | intro _

theorem sendBounce_keptI {s t : State} (x0 : InstId) (x1 : PeerMsg) (h : KeptI x0 s t) :
    KeptI x0 s (sendBounce x0 x1 t) := by
  unfold sendBounce
  try dsimp only
  repeat' first | (with_reducible first | assumption | apply modStair_keptI | apply sendMsg_keptI) | split | dsimp only | intro _

theorem receiveIf_keptI {s t : State} (x0 : InstId) (x1 : Nat) (x2 : PeerMsg) (x3 : State → Option Nat) (x4 : State → State) (hf4 : ∀ y0, KeptI x0 s y0 → KeptI x0 s (x4 y0)) (h : KeptI x0 s t) :
    ResOk (KeptI x0 s) (receiveIf x0 x1 x2 x3 x4 t) := by
  unfold receiveIf
  try dsimp only
  repeat' first | (with_reducible first | assumption | apply hf4 | apply done_keptI | apply endEvent_keptI | apply modHall_keptI | apply modStair_keptI | apply ringPush_keptI | apply sendBounce_keptI | apply ResOk.next | exact ResOk.fault _) | split | dsimp only | intro _

theorem done_kept {s t : State} (x0 : InstId) (x1 : State) (h : Kept s t) :
    ResOk (Kept s) (done x0 x1 t) := ResOk.lift h (done_keptI x0 x1 (KeptI.refl _ t))

theorem modHall_kept {s t : State} (x0 : InstId) (x1 : Hallway → Hallway) (h : Kept s t) :
    Kept s (modHall x0 x1 t) := h.trans (modHall_keptI x0 x1 (KeptI.refl _ t)).toKept

theorem modStair_kept {s t : State} (x0 : InstId) (x1 : Stairwell → Stairwell) (h : Kept s t) :
    Kept s (modStair x0 x1 t) := h.trans (modStair_keptI x0 x1 (KeptI.refl _ t)).toKept

theorem ringPush_kept {s t : State} (x0 : InstId) (x1 : Nat) (x2 : Nat) (x3 : Nat) (x4 : Nat) (x5 : List Nat) (h : Kept s t) :
    Kept s (ringPush x0 x1 x2 x3 x4 x5 t) := h.trans (ringPush_keptI x0 x1 x2 x3 x4 x5 (KeptI.refl _ t)).toKept

theorem sendBounce_kept {s t : State} (x0 : InstId) (x1 : PeerMsg) (h : Kept s t) :
    Kept s (sendBounce x0 x1 t) := h.trans (sendBounce_keptI x0 x1 (KeptI.refl _ t)).toKept

theorem receiveIf_kept {s t : State} (x0 : InstId) (x1 : Nat) (x2 : PeerMsg) (x3 : State → Option Nat) (x4 : State → State) (hf4 : ∀ y0, Kept s y0 → Kept s (x4 y0)) (h : Kept s t) :
    ResOk (Kept s) (receiveIf x0 x1 x2 x3 x4 t) := by
  unfold receiveIf
  try dsimp only
  repeat' first | (with_reducible first | assumption | apply hf4 | apply done_kept | apply endEvent_kept | apply modHall_kept | apply modStair_kept | apply ringPush_kept | apply sendBounce_kept | apply ResOk.next | exact ResOk.fault _) | split | dsimp only | intro _

theorem receive_keptI {s t : State} (x0 : InstId) (x1 : Nat) (x2 : PeerMsg) (x3 : State → State) (hf3 : ∀ y0, KeptI x0 s y0 → KeptI x0 s (x3 y0)) (h : KeptI x0 s t) :
    ResOk (KeptI x0 s) (receive x0 x1 x2 x3 t) := by
  unfold receive
  try dsimp only
  repeat' first | (with_reducible first | assumption | apply hf3 | apply receiveIf_keptI | apply ResOk.next | exact ResOk.fault _) | split | dsimp only | intro _

theorem receive_kept {s t : State} (x0 : InstId) (x1 : Nat) (x2 : PeerMsg) (x3 : State → State) (hf3 : ∀ y0, Kept s y0 → Kept s (x3 y0)) (h : Kept s t) :
    ResOk (Kept s) (receive x0 x1 x2 x3 t) := by
  unfold receive
  try dsimp only
  repeat' first | (with_reducible first | assumption | apply hf3 | apply receiveIf_kept | apply ResOk.next | exact ResOk.fault _) | split | dsimp only | intro _

theorem atActive_keptI {s t : State} (x0 : InstId) (x1 : State → State) (hf1 : ∀ y0, KeptI x0 s y0 → KeptI x0 s (x1 y0)) (h : KeptI x0 s t) :
    KeptI x0 s (atActive x0 x1 t) := by
  unfold atActive
  try dsimp only
  repeat' first | (with_reducible first | assumption | apply hf1 | apply staleDiscard_keptI) | split | dsimp only | intro _

theorem noteAnnounce_keptI {s t : State} (x0 : InstId) (x1 : Bool) (x2 : PeerMsg) (h : KeptI x0 s t) :
    KeptI x0 s (noteAnnounce x0 x1 x2 t) := by
  unfold noteAnnounce
  try dsimp only
  repeat' first | (with_reducible first | assumption | apply modStair_keptI) | split | dsimp only | intro _

theorem noteProgress_keptI {s t : State} (x0 : InstId) (x1 : OutXfer) (h : KeptI x0 s t) :
    KeptI x0 s (noteProgress x0 x1 t) := by
  unfold noteProgress
  try dsimp only
  repeat' first | (with_reducible first | assumption | apply duskSet_keptI | apply modOut_keptI) | split | dsimp only | intro _

theorem failTransfer_keptI {s t : State} (x0 : InstId) (x1 : OutXfer) (x2 : Nat) (h : KeptI x0 s t) :
    KeptI x0 s (failTransfer x0 x1 x2 t) := by
  unfold failTransfer
  try dsimp only
  repeat' first | (with_reducible first | assumption | apply closeOut_keptI | apply forwardBack_keptI | apply foyerRound_keptI | apply modOut_keptI | apply postSeq_keptI) | split | dsimp only | intro _

theorem atSource_keptI {s t : State} (x0 : InstId) (x1 : PeerMsg) (x2 : OutXfer → State → State) (hf2 : ∀ y0 y1, KeptI x0 s y1 → KeptI x0 s (x2 y0 y1)) (h : KeptI x0 s t) :
    KeptI x0 s (atSource x0 x1 x2 t) := by
  unfold atSource
  try dsimp only
  repeat' first | (with_reducible first | assumption | apply hf2 | apply staleDiscard_keptI) | split | dsimp only | intro _

theorem takeAccept_keptI {s t : State} (x0 : InstId) (x1 : PeerMsg) (x2 : OutXfer) (h : KeptI x0 s t) :
    KeptI x0 s (takeAccept x0 x1 x2 t) := by
  unfold takeAccept
  try dsimp only
  repeat' first | (with_reducible first | assumption | apply journal_keptI | apply modOut_keptI | apply modRec_keptI | apply noteProgress_keptI | apply sendData_keptI) | split | dsimp only | intro _

theorem takeRefuse_keptI {s t : State} (x0 : InstId) (x1 : PeerMsg) (x2 : OutXfer) (h : KeptI x0 s t) :
    KeptI x0 s (takeRefuse x0 x1 x2 t) := by
  unfold takeRefuse
  try dsimp only
  repeat' first | (with_reducible first | assumption | apply failTransfer_keptI | apply staleDiscard_keptI) | split | dsimp only | intro _

theorem takeDataAck_keptI {s t : State} (x0 : InstId) (x1 : PeerMsg) (x2 : OutXfer) (h : KeptI x0 s t) :
    KeptI x0 s (takeDataAck x0 x1 x2 t) := by
  unfold takeDataAck
  try dsimp only
  repeat' first | (with_reducible first | assumption | apply duskClear_keptI | apply journal_keptI | apply modOut_keptI | apply noteProgress_keptI | apply sendHandover_keptI) | split | dsimp only | intro _

theorem ackForward_keptI {s t : State} (x0 : InstId) (x1 : OutXfer) (x2 : Request) (h : KeptI x0 s t) :
    KeptI x0 s (ackForward x0 x1 x2 t) := by
  unfold ackForward
  try dsimp only
  repeat' first | (with_reducible first | assumption | apply closeOut_keptI | apply foyerRound_keptI | apply postRecord_keptI | apply undefer_keptI) | split | dsimp only | intro _

theorem takeAck_keptI {s t : State} (x0 : InstId) (x1 : OutXfer) (h : KeptI x0 s t) :
    KeptI x0 s (takeAck x0 x1 t) := by
  unfold takeAck
  try dsimp only
  repeat' first | (with_reducible first | assumption | apply ackForward_keptI | apply postSeq_keptI | apply staleDiscard_keptI) | split | dsimp only | intro _

theorem takeNak_keptI {s t : State} (x0 : InstId) (x1 : PeerMsg) (x2 : OutXfer) (h : KeptI x0 s t) :
    KeptI x0 s (takeNak x0 x1 x2 t) := by
  unfold takeNak
  try dsimp only
  repeat' first | (with_reducible first | assumption | apply failTransfer_keptI | apply staleDiscard_keptI) | split | dsimp only | intro _

theorem sendAccept_keptI {s t : State} (x0 : InstId) (x1 : InXfer) (h : KeptI x0 s t) :
    KeptI x0 s (sendAccept x0 x1 t) := by
  unfold sendAccept
  try dsimp only
  repeat' first | (with_reducible first | assumption | apply sendIn_keptI) | split | dsimp only | intro _

theorem sendRefuse_keptI {s t : State} (x0 : InstId) (x1 : PeerMsg) (x2 x3 : Nat) (h : KeptI x0 s t) :
    KeptI x0 s (sendRefuse x0 x1 x2 x3 t) := by
  unfold sendRefuse
  try dsimp only
  repeat' first | (with_reducible first | assumption | apply sendMsg_keptI) | split | dsimp only | intro _

theorem sendDataAck_keptI {s t : State} (x0 : InstId) (x1 : InXfer) (x2 x3 : Nat) (h : KeptI x0 s t) :
    KeptI x0 s (sendDataAck x0 x1 x2 x3 t) := by
  unfold sendDataAck
  try dsimp only
  repeat' first | (with_reducible first | assumption | apply sendIn_keptI) | split | dsimp only | intro _

theorem sendAck_keptI {s t : State} (x0 : InstId) (x1 : InXfer) (h : KeptI x0 s t) :
    KeptI x0 s (sendAck x0 x1 t) := by
  unfold sendAck
  try dsimp only
  repeat' first | (with_reducible first | assumption | apply sendIn_keptI) | split | dsimp only | intro _

theorem keepOffer_keptI {s t : State} (x0 : InstId) (x1 : PeerMsg) (h : KeptI x0 s t) :
    KeptI x0 s (keepOffer x0 x1 t) := by
  unfold keepOffer
  try dsimp only
  repeat' first | (with_reducible first | assumption | apply journal_keptI | apply modMir_keptI | apply postSeq_keptI | apply sendAccept_keptI) | split | dsimp only | intro _

theorem takeOffer_keptI {s t : State} (x0 : InstId) (x1 : PeerMsg) (h : KeptI x0 s t) :
    KeptI x0 s (takeOffer x0 x1 t) := by
  unfold takeOffer
  try dsimp only
  repeat' first | (with_reducible first | assumption | apply keepOffer_keptI | apply sendAccept_keptI | apply sendRefuse_keptI) | split | dsimp only | intro _

theorem refuseArrival_keptI {s t : State} (x0 : InstId) (x1 : PeerMsg) (x2 : InXfer) (x3 x4 : Nat) (h : KeptI x0 s t) :
    KeptI x0 s (refuseArrival x0 x1 x2 x3 x4 t) := by
  unfold refuseArrival
  try dsimp only
  repeat' first | (with_reducible first | assumption | apply discardIn_keptI | apply sendRefuse_keptI) | split | dsimp only | intro _

theorem takeRecordPart_keptI {s t : State} (x0 : InstId) (x1 : PeerMsg) (x2 : InXfer) (h : KeptI x0 s t) :
    KeptI x0 s (takeRecordPart x0 x1 x2 t) := by
  unfold takeRecordPart
  try dsimp only
  repeat' first | (with_reducible first | assumption | apply demandPlan_keptI | apply journal_keptI | apply modIn_keptI | apply modMir_keptI | apply modSeq_keptI | apply refuseArrival_keptI | apply sendDataAck_keptI) | split | dsimp only | intro _

theorem takeRequestPart_keptI {s t : State} (x0 : InstId) (x1 : PeerMsg) (x2 : InXfer) (h : KeptI x0 s t) :
    KeptI x0 s (takeRequestPart x0 x1 x2 t) := by
  unfold takeRequestPart
  try dsimp only
  repeat' first | (with_reducible first | assumption | apply journal_keptI | apply modIn_keptI | apply modMir_keptI | apply refuseArrival_keptI | apply sendDataAck_keptI) | split | dsimp only | intro _

theorem takePart_keptI {s t : State} (x0 : InstId) (x1 : PeerMsg) (x2 : InXfer) (h : KeptI x0 s t) :
    KeptI x0 s (takePart x0 x1 x2 t) := by
  unfold takePart
  try dsimp only
  repeat' first | (with_reducible first | assumption | apply hbmPut_keptI | apply sendDataAck_keptI) | split | dsimp only | intro _

theorem takeData_keptI {s t : State} (x0 : InstId) (x1 : PeerMsg) (h : KeptI x0 s t) :
    KeptI x0 s (takeData x0 x1 t) := by
  unfold takeData
  try dsimp only
  repeat' first | (with_reducible first | assumption | apply sendDataAck_keptI | apply staleDiscard_keptI | apply takePart_keptI | apply takeRecordPart_keptI | apply takeRequestPart_keptI) | split | dsimp only | intro _

theorem awaitFlush_keptI {s t : State} (x0 : InstId) (x1 : InXfer) (h : KeptI x0 s t) :
    KeptI x0 s (awaitFlush x0 x1 t) := by
  unfold awaitFlush
  try dsimp only
  repeat' first | (with_reducible first | assumption | apply modIn_keptI | apply modMir_keptI | apply modRel_keptI) | split | dsimp only | intro _

theorem takeForward_keptI {s t : State} (x0 : InstId) (x1 : InXfer) (x2 : List Byte) (h : KeptI x0 s t) :
    KeptI x0 s (takeForward x0 x1 x2 t) := by
  unfold takeForward
  try dsimp only
  repeat' first | (with_reducible first | assumption | apply awaitFlush_keptI | apply modFoyer_keptI | apply modIn_keptI | apply passAll_keptI | apply takeForwarded_keptI) | split | dsimp only | intro _

theorem sendNak_keptI {s t : State} (x0 : InstId) (x1 : PeerMsg) (h : KeptI x0 s t) :
    KeptI x0 s (sendNak x0 x1 t) := by
  unfold sendNak
  try dsimp only
  repeat' first | (with_reducible first | assumption | apply sendMsg_keptI | apply staleDiscard_keptI) | split | dsimp only | intro _

theorem takeHandover_keptI {s t : State} (x0 : InstId) (x1 : PeerMsg) (h : KeptI x0 s t) :
    KeptI x0 s (takeHandover x0 x1 t) := by
  unfold takeHandover
  try dsimp only
  repeat' first | (with_reducible first | assumption | apply modIn_keptI | apply postSeq_keptI | apply sendAck_keptI | apply sendNak_keptI | apply takeForward_keptI) | split | dsimp only | intro _

theorem takeAbandon_keptI {s t : State} (x0 : InstId) (x1 : PeerMsg) (h : KeptI x0 s t) :
    KeptI x0 s (takeAbandon x0 x1 t) := by
  unfold takeAbandon
  try dsimp only
  repeat' first | (with_reducible first | assumption | apply discardIn_keptI | apply foyerRound_keptI | apply staleDiscard_keptI) | split | dsimp only | intro _

theorem resendOut_keptI {s t : State} (x0 : InstId) (x1 : OutXfer) (x2 : PeerMsg) (h : KeptI x0 s t) :
    KeptI x0 s (resendOut x0 x1 x2 t) := by
  unfold resendOut
  try dsimp only
  repeat' first | (with_reducible first | assumption | apply sendHandover_keptI | apply sendOffer_keptI | apply sendOut_keptI) | split | dsimp only | intro _

theorem resendIn_keptI {s t : State} (x0 : InstId) (x1 : InXfer) (x2 : PeerMsg) (h : KeptI x0 s t) :
    KeptI x0 s (resendIn x0 x1 x2 t) := by
  unfold resendIn
  try dsimp only
  repeat' first | (with_reducible first | assumption | apply sendAccept_keptI | apply sendAck_keptI | apply sendDataAck_keptI) | split | dsimp only | intro _

theorem takeBounced_keptI {s t : State} (x0 : InstId) (x1 x2 : PeerMsg) (h : KeptI x0 s t) :
    KeptI x0 s (takeBounced x0 x1 x2 t) := by
  unfold takeBounced
  try dsimp only
  repeat' first | (with_reducible first | assumption | apply failTransfer_keptI | apply resendIn_keptI | apply resendOut_keptI) | split | dsimp only | intro _

theorem takeBounce_keptI {s t : State} (x0 : InstId) (x1 : PeerMsg) (h : KeptI x0 s t) :
    KeptI x0 s (takeBounce x0 x1 t) := by
  unfold takeBounce
  try dsimp only
  repeat' first | (with_reducible first | assumption | apply modStair_keptI | apply notePeer_keptI | apply takeBounced_keptI) | split | dsimp only | intro _

theorem voidEvents_keptI {s t : State} (x0 : InstId) (x1 : Nat) (h : KeptI x0 s t) :
    KeptI x0 s (voidEvents x0 x1 t) := by
  unfold voidEvents
  try dsimp only
  repeat' first | (with_reducible first | assumption | apply finishCmd_keptI | apply modHall_keptI | apply resolveEvent_keptI | apply foldl_keptI) | split | dsimp only | intro _

theorem applyMigrateAck_keptI {s t : State} (x0 : InstId) (x1 : Nat) (h : KeptI x0 s t) :
    KeptI x0 s (applyMigrateAck x0 x1 t) := by
  unfold applyMigrateAck
  try dsimp only
  repeat' first | (with_reducible first | assumption | apply closeOut_keptI | apply dirEdge_keptI | apply finishCmd_keptI | apply freeHouse_keptI | apply freeSeq_keptI | apply modHouse_keptI | apply modRec_keptI | apply postSeq_keptI | apply postSeqRecord_keptI | apply releasePages_keptI | apply voidEvents_keptI) | split | dsimp only | intro _

theorem applyMigrateFail_keptI {s t : State} (x0 : InstId) (x1 x2 : Nat) (h : KeptI x0 s t) :
    KeptI x0 s (applyMigrateFail x0 x1 x2 t) := by
  unfold applyMigrateFail
  try dsimp only
  repeat' first | (with_reducible first | assumption | apply applyMidnight_keptI | apply closeOut_keptI | apply enterState_keptI | apply finishCmd_keptI | apply modSeq_keptI | apply recordDone_keptI | apply foldl_keptI) | split | dsimp only | intro _

theorem takeKvPages_keptI {s t : State} (x0 : InstId) (x1 : Nat) (x2 : List Nat) (h : KeptI x0 s t) :
    KeptI x0 s (takeKvPages x0 x1 x2 t).2 := by
  induction x1 generalizing x2 t with
  | zero => (unfold takeKvPages; (try dsimp only); exact h)
  | succ n ih =>
    unfold takeKvPages
    try dsimp only
    repeat' first | (with_reducible first | apply ih | assumption | apply modPantry_keptI) | split | dsimp only | intro _

theorem applyMigrateIn_keptI {s t : State} (x0 : InstId) (x1 x2 : Nat) (h : KeptI x0 s t) :
    KeptI x0 s (applyMigrateIn x0 x1 x2 t) := by
  unfold applyMigrateIn
  try dsimp only
  repeat' first | (with_reducible first | assumption | apply discardIn_keptI | apply holdBlocks_keptI | apply modIn_keptI | apply modMir_keptI | apply modRec_keptI | apply sendAccept_keptI | apply sendMsg_keptI | apply takeKvPages_keptI | apply warmRecord_keptI | apply writeList_keptI) | split | dsimp only | intro _

theorem crossArrival_keptI {s t : State} (x0 : InstId) (x1 : Nat) (x2 : MidnightInfo) (h : KeptI x0 s t) :
    KeptI x0 s (crossArrival x0 x1 x2 t) := by
  unfold crossArrival
  try dsimp only
  repeat' first | (with_reducible first | assumption | apply crossTo_keptI | apply invalidateKv_keptI) | split | dsimp only | intro _

theorem arriveState_keptI {s t : State} (x0 : InstId) (x1 : Nat) (x2 : SeqState) (h : KeptI x0 s t) :
    KeptI x0 s (arriveState x0 x1 x2 t) := by
  unfold arriveState
  try dsimp only
  repeat' first | (with_reducible first | assumption | apply enterState_keptI | apply resumeFully_keptI) | split | dsimp only | intro _

theorem doMigrateDone_keptI {s t : State} (x0 : InstId) (x1 : Nat) (x2 : InXfer) (h : KeptI x0 s t) :
    KeptI x0 s (doMigrateDone x0 x1 x2 t) := by
  unfold doMigrateDone
  try dsimp only
  repeat' first | (with_reducible first | assumption | apply applyMidnight_keptI | apply arriveState_keptI | apply awaitFlush_keptI | apply crossArrival_keptI | apply dropPage_keptI | apply journal_keptI | apply modHouse_keptI | apply modRec_keptI | apply modSeq_keptI | apply postSeqRecord_keptI | apply recordDone_keptI | apply retime_keptI | apply writeList_keptI | apply foldl_keptI) | split | dsimp only | intro _

theorem applyMigrateDone_keptI {s t : State} (x0 : InstId) (x1 x2 : Nat) (h : KeptI x0 s t) :
    KeptI x0 s (applyMigrateDone x0 x1 x2 t) := by
  unfold applyMigrateDone
  try dsimp only
  repeat' first | (with_reducible first | assumption | apply doMigrateDone_keptI) | split | dsimp only | intro _

theorem retryMigration_keptI {s t : State} (x0 : InstId) (x1 : OutXfer) (h : KeptI x0 s t) :
    ResOk (KeptI x0 s) (retryMigration x0 x1 t) := by
  unfold retryMigration
  try dsimp only
  repeat' first | (with_reducible first | assumption | apply countStale_keptI | apply done_keptI | apply duskSet_keptI | apply fireDue_keptI | apply releaseEvent_keptI | apply resend_keptI | apply ResOk.next | exact ResOk.fault _) | split | dsimp only | intro _

theorem staleTimer_keptI {s t : State} (x0 : InstId) (x1 x2 : Nat) (h : KeptI x0 s t) :
    ResOk (KeptI x0 s) (staleTimer x0 x1 x2 t) := by
  unfold staleTimer
  try dsimp only
  repeat' first | (with_reducible first | assumption | apply countStale_keptI | apply done_keptI | apply releaseEvent_keptI | apply ResOk.next | exact ResOk.fault _) | split | dsimp only | intro _

theorem timeoutMigration_keptI {s t : State} (x0 : InstId) (x1 : OutXfer) (h : KeptI x0 s t) :
    ResOk (KeptI x0 s) (timeoutMigration x0 x1 t) := by
  unfold timeoutMigration
  try dsimp only
  repeat' first | (with_reducible first | assumption | apply countStale_keptI | apply done_keptI | apply endEvent_keptI | apply failTransfer_keptI | apply fireDue_keptI | apply releaseEvent_keptI | apply sendMsg_keptI | apply spendHandle_keptI | apply ResOk.next | exact ResOk.fault _) | split | dsimp only | intro _

theorem doDirectionsSet_keptI {s t : State} (x0 : InstId) (x1 : List Byte) (x2 : MboxCmd) (h : KeptI x0 s t) :
    KeptI x0 s (doDirectionsSet x0 x1 x2 t).2 := by
  unfold doDirectionsSet
  try dsimp only
  repeat' first | (with_reducible first | assumption | apply foyerRound_keptI | apply journalObj_keptI | apply modMir_keptI | apply modStair_keptI | apply sendMsg_keptI | apply foldl_keptI) | split | dsimp only | intro _

/-! ### Machine/Study.lean -/

theorem drainTrace_keptI {s t : State} (x0 : InstId) (h : KeptI x0 s t) :
    KeptI x0 s (drainTrace x0 t) := by
  unfold drainTrace
  try dsimp only
  repeat' first | (with_reducible first | assumption | apply finishCmd_keptI | apply modStudy_keptI | apply traceBurst_keptI) | split | dsimp only | intro _

theorem startTrace_keptI {s t : State} (x0 : InstId) (x1 : Nat) (h : KeptI x0 s t) :
    KeptI x0 s (startTrace x0 x1 t) := by
  unfold startTrace
  try dsimp only
  repeat' first | (with_reducible first | assumption | apply drainTrace_keptI | apply modStudy_keptI | apply traceAdd_keptI) | split | dsimp only | intro _

theorem doTrace_keptI {s t : State} (x0 : InstId) (x1 : MboxCmd) (h : KeptI x0 s t) :
    KeptI x0 s (doTrace x0 x1 t).2 := by
  unfold doTrace
  try dsimp only
  repeat' first | (with_reducible first | assumption | apply drainTrace_keptI | apply modStudy_keptI | apply startTrace_keptI) | split | dsimp only | intro _

theorem doCounters_keptI {s t : State} (x0 : InstId) (x1 : MboxCmd) (h : KeptI x0 s t) :
    KeptI x0 s (doCounters x0 x1 t).2 := by
  unfold doCounters
  try dsimp only
  repeat' first | (with_reducible first | assumption | apply hbmPut_keptI) | split | dsimp only | intro _

theorem doWatch_keptI {s t : State} (x0 : InstId) (x1 : MboxCmd) (h : KeptI x0 s t) :
    KeptI x0 s (doWatch x0 x1 t).2 := by
  unfold doWatch
  try dsimp only
  repeat' first | (with_reducible first | assumption | apply modStudy_keptI) | split | dsimp only | intro _

theorem buildGraph_keptI {s t : State} (x0 : InstId) (h : KeptI x0 s t) :
    KeptI x0 s (buildGraph x0 t) := by
  unfold buildGraph
  try dsimp only
  repeat' first | (with_reducible first | assumption | apply modStudy_keptI | apply setCause_keptI) | split | dsimp only | intro _

theorem noteWaits_keptI {s t : State} (x0 : InstId) (h : KeptI x0 s t) : KeptI x0 s (noteWaits x0 t) := by
  unfold noteWaits
  extract_lets now old cycle kept ended recs latched u
  have hf : s.free ≤ t.free + now.length + old.length := Nat.le_trans h.free (by omega)
  clear_value now old recs kept latched
  have h0 : KeptI x0 s { t with free := t.free + now.length + old.length } :=
    ⟨⟨h.pending, h.mem, hf, h.tick, h.powered⟩, by cases x0 <;> exact h.other⟩
  have hu : KeptI x0 s u := modStudy_keptI _ _ h0
  clear_value u
  exact foldl_keptI (fun _ _ hv => traceAdd_keptI _ _ hv) _ _ hu

theorem requestDump_keptI {s t : State} (x0 : InstId) (h : KeptI x0 s t) :
    KeptI x0 s (requestDump x0 t) := by
  unfold requestDump
  try dsimp only
  repeat' first | (with_reducible first | assumption | apply modStudy_keptI) | split | dsimp only | intro _

theorem ackDump_keptI {s t : State} (x0 : InstId) (h : KeptI x0 s t) :
    KeptI x0 s (ackDump x0 t) := by
  unfold ackDump
  try dsimp only
  repeat' first | (with_reducible first | assumption | apply modStudy_keptI) | split | dsimp only | intro _

/-! ### Machine/Registers.lean -/

theorem clearRc_keptI {s t : State} (x0 : InstId) (x1 x2 : Nat) (h : KeptI x0 s t) :
    KeptI x0 s (clearRc x0 x1 x2 t) := by
  unfold clearRc
  try dsimp only
  repeat' first | (with_reducible first | assumption | apply modCtx_keptI | apply modHall_keptI | apply modHearth_keptI | apply modStair_keptI | apply modStudy_keptI) | split | dsimp only | intro _

theorem readBus_keptI {s t : State} (x0 : InstId) (x1 : Bool) (x2 : Nat) (h : KeptI x0 s t) :
    KeptI x0 s (readBus x0 x1 x2 t) := by
  unfold readBus
  try dsimp only
  repeat' first | (with_reducible first | assumption | apply clearRc_keptI | apply foldl_keptI) | split | dsimp only | intro _ | with_reducible apply KeptI.raw

theorem writeKitchen_keptI {s t : State} (x0 : InstId) (x1 : Nat) (x2 : BusWrite) (h : KeptI x0 s t) :
    KeptI x0 s (writeKitchen x0 x1 x2 t) := by
  unfold writeKitchen
  try dsimp only
  repeat' first | (with_reducible first | assumption | apply modKit_keptI) | split | dsimp only | intro _

theorem writeFoyer_keptI {s t : State} (x0 : InstId) (x1 : Nat) (x2 : BusWrite) (h : KeptI x0 s t) :
    KeptI x0 s (writeFoyer x0 x1 x2 t) := by
  unfold writeFoyer
  try dsimp only
  repeat' first | (with_reducible first | assumption | apply coolExcess_keptI | apply foyerRound_keptI | apply modDir_keptI | apply modFoyer_keptI) | split | dsimp only | intro _

theorem writeFence_keptI {s t : State} (x0 : InstId) (x1 x2 : Nat) (h : KeptI x0 s t) :
    KeptI x0 s (writeFence x0 x1 x2 t) := by
  unfold writeFence
  try dsimp only
  repeat' first | (with_reducible first | assumption | apply modOutpost_keptI | apply outRingOf_keptI) | (unfold LarderKeeps; intro x hx; first | exact hx | exact discardStep_wf _ _ hx | exact finishRow_wf _ hx | exact drainPort_wf hx | (split <;> exact hx) | (split <;> split <;> exact hx) | simpa using hx | (dsimp only; split <;> first | exact hx | simpa using hx)) | split | dsimp only | intro _

theorem writeOutpost_keptI {s t : State} (x0 : InstId) (x1 x2 : Nat) (x3 : BusWrite) (h : KeptI x0 s t) :
    KeptI x0 s (writeOutpost x0 x1 x2 x3 t) := by
  unfold writeOutpost
  try dsimp only
  repeat' first | (with_reducible first | assumption | apply modOutpost_keptI | apply writeFence_keptI) | (unfold LarderKeeps; intro x hx; first | exact hx | exact discardStep_wf _ _ hx | exact finishRow_wf _ hx | exact drainPort_wf hx | (split <;> exact hx) | (split <;> split <;> exact hx) | simpa using hx | (dsimp only; split <;> first | exact hx | simpa using hx)) | split | dsimp only | intro _

theorem writeContext_keptI {s t : State} (x0 : InstId) (x1 x2 : Nat) (x3 : BusWrite) (h : KeptI x0 s t) :
    KeptI x0 s (writeContext x0 x1 x2 x3 t) := by
  unfold writeContext
  try dsimp only
  repeat' first | (with_reducible first | assumption | apply journalCtx_keptI | apply modCtx_keptI | apply setCqHead_keptI | apply setSqTail_keptI | apply testCq_keptI) | split | dsimp only | intro _

theorem writeStair_keptI {s t : State} (x0 : InstId) (x1 : Nat) (x2 : BusWrite) (h : KeptI x0 s t) :
    KeptI x0 s (writeStair x0 x1 x2 t) := by
  unfold writeStair
  try dsimp only
  repeat' first | (with_reducible first | assumption | apply modStair_keptI) | split | dsimp only | intro _

theorem writeStudy_keptI {s t : State} (x0 : InstId) (x1 : Nat) (x2 : BusWrite) (h : KeptI x0 s t) :
    KeptI x0 s (writeStudy x0 x1 x2 t) := by
  unfold writeStudy
  try dsimp only
  repeat' first | (with_reducible first | assumption | apply ackDump_keptI | apply modMir_keptI | apply modStudy_keptI | apply requestDump_keptI) | split | dsimp only | intro _

theorem writeLatch_keptI {s t : State} (x0 : InstId) (x1 x2 : Nat) (x3 : BusWrite) (h : KeptI x0 s t) :
    KeptI x0 s (writeLatch x0 x1 x2 x3 t) := by
  unfold writeLatch
  try dsimp only
  repeat' first | (with_reducible first | assumption | apply journalObj_keptI | apply modLatch_keptI) | split | dsimp only | intro _

theorem writeCmd_keptI {s t : State} (x0 : InstId) (x1 x2 x3 : Nat) (x4 : BusWrite) (h : KeptI x0 s t) :
    KeptI x0 s (writeCmd x0 x1 x2 x3 x4 t) := by
  unfold writeCmd
  try dsimp only
  repeat' first | (with_reducible first | assumption | apply modWin_keptI) | split | dsimp only | intro _

theorem writeWindow_keptI {s t : State} (x0 : InstId) (x1 x2 : Nat) (x3 : BusWrite) (h : KeptI x0 s t) :
    KeptI x0 s (writeWindow x0 x1 x2 x3 t) := by
  unfold writeWindow
  try dsimp only
  repeat' first | (with_reducible first | assumption | apply modWin_keptI | apply writeCmd_keptI) | split | dsimp only | intro _

theorem writeAt_keptI {s t : State} (x0 : InstId) (x1 : Nat) (x2 : BusWrite) (h : KeptI x0 s t) : KeptI x0 s (writeAt x0 x1 x2 t) := by
  unfold writeAt
  refine ite_keptI h ?_
  refine ite_keptI (writeKitchen_keptI _ _ _ h) ?_
  refine ite_keptI (writeFoyer_keptI _ _ _ h) ?_
  refine ite_keptI (writeOutpost_keptI _ _ _ _ h) ?_
  refine ite_keptI (modHearth_keptI _ _ h) ?_
  refine ite_keptI h ?_
  refine ite_keptI (writeContext_keptI _ _ _ _ h) ?_
  refine ite_keptI (clearIrq_keptI _ _ h) ?_
  refine ite_keptI ?_ ?_
  · split
    · exact setEnable_keptI _ _ h
    · exact h
  refine ite_keptI h ?_
  refine ite_keptI (writeStair_keptI _ _ _ h) ?_
  refine ite_keptI (writeStudy_keptI _ _ _ h) ?_
  refine ite_keptI h ?_
  refine ite_keptI (writeLatch_keptI _ _ _ _ h) ?_
  exact ite_keptI (writeWindow_keptI _ _ _ _ h) h

theorem writeBus_keptI {s t : State} (x0 : InstId) (x1 : Bool) (x2 x3 : Nat) (h : KeptI x0 s t) :
    ResOk (KeptI x0 s) (writeBus x0 x1 x2 x3 t) := by
  unfold writeBus
  try dsimp only
  repeat' first | (with_reducible first | assumption | apply guarded_keptI | apply writeAt_keptI | apply ResOk.next | exact ResOk.fault _) | split | dsimp only | intro _

theorem rowWrite_keptI {s t : State} (x0 : Nat → Bool) (x1 : InstId) (x2 : Bool) (x3 x4 : Nat) (h : KeptI x1 s t) :
    ResOk (KeptI x1 s) (rowWrite x0 x1 x2 x3 x4 t) := by
  unfold rowWrite
  try dsimp only
  repeat' first | (with_reducible first | assumption | apply writeBus_keptI | apply ResOk.next | exact ResOk.fault _) | split | dsimp only | intro _

/-! ### Machine/Dumps.lean -/

theorem writeDump_keptI {s t : State} (x0 : InstId) (x1 : Nat) (x2 : Dump) (x3 : Bool) (h : KeptI x0 s t) :
    KeptI x0 s (writeDump x0 x1 x2 x3 t) := by
  unfold writeDump
  try dsimp only
  repeat' first | (with_reducible first | assumption | apply hbmPut_keptI | apply takeFree_keptI | apply foldl_keptI) | split | dsimp only | intro _

/-! ### Machine/Drive.lean -/

theorem sendDigest_kept {s t : State} (x0 : InstId) (h : Kept s t) :
    Kept s (sendDigest x0 t) := by
  unfold sendDigest
  try dsimp only
  repeat' first | (with_reducible first | assumption | apply modRel_kept) | split | dsimp only | intro _

theorem driveEnter_keptI {s t : State} (x0 : InstId) (x1 : DriveOp) (x2 : Bool) (h : KeptI x0 s t) :
    KeptI x0 s (driveEnter x0 x1 x2 t) := by
  unfold driveEnter
  try dsimp only
  repeat' first | (with_reducible first | assumption | apply duskMore_keptI | apply modRel_keptI) | split | dsimp only | intro _

theorem driveIssue_keptI {s t : State} (x0 : InstId) (x1 : DriveOp) (x2 : Bool) (h : KeptI x0 s t) :
    KeptI x0 s (driveIssue x0 x1 x2 t) := by
  unfold driveIssue
  try dsimp only
  repeat' first | (with_reducible first | assumption | apply driveEnter_keptI | apply modRel_keptI) | split | dsimp only | intro _

theorem driveOver_keptI {s t : State} (x0 : InstId) (x1 : DriveCmd) (h : KeptI x0 s t) :
    KeptI x0 s (driveOver x0 x1 t) := by
  unfold driveOver
  try dsimp only
  repeat' first | (with_reducible first | assumption | apply driveEnter_keptI | apply duskDrop_keptI | apply modRel_keptI) | split | dsimp only | intro _

theorem opDone_keptI {s t : State} (x0 : InstId) (x1 : DriveOp → Bool) (h : KeptI x0 s t) :
    KeptI x0 s (opDone x0 x1 t) := by
  unfold opDone
  try dsimp only
  repeat' first | (with_reducible first | assumption | apply driveOver_keptI) | split | dsimp only | intro _

theorem digestLogged_keptI {s t : State} (x0 : InstId) (x1 : Nat × BitVec 384 × Nat) (h : KeptI x0 s t) :
    KeptI x0 s (digestLogged x0 x1 t) := by
  unfold digestLogged
  try dsimp only
  repeat' first | (with_reducible first | assumption | apply modRel_keptI) | split | dsimp only | intro _

theorem startFlush_keptI {s t : State} (x0 : InstId) (h : KeptI x0 s t) :
    KeptI x0 s (startFlush x0 t) := by
  unfold startFlush
  try dsimp only
  repeat' first | (with_reducible first | assumption | apply driveIssue_keptI | apply journal_keptI | apply modHearth_keptI | apply modRel_keptI) | split | dsimp only | intro _

theorem ackArrivals_keptI {s t : State} (x0 : InstId) (x1 : Nat) (h : KeptI x0 s t) :
    KeptI x0 s (ackArrivals x0 x1 t) := by
  unfold ackArrivals
  try dsimp only
  repeat' first | (with_reducible first | assumption | apply modMir_keptI | apply modRel_keptI | apply sendAck_keptI | apply foldl_keptI) | split | dsimp only | intro _

theorem ackArrivals_kept {s t : State} (x0 : InstId) (x1 : Nat) (h : Kept s t) :
    Kept s (ackArrivals x0 x1 t) := h.trans (ackArrivals_keptI x0 x1 (KeptI.refl _ t)).toKept

theorem opDone_kept {s t : State} (x0 : InstId) (x1 : DriveOp → Bool) (h : Kept s t) :
    Kept s (opDone x0 x1 t) := h.trans (opDone_keptI x0 x1 (KeptI.refl _ t)).toKept

theorem flushDone_kept {s t : State} (x0 : InstId) (h : Kept s t) :
    Kept s (flushDone x0 t) := by
  unfold flushDone
  try dsimp only
  repeat' first | (with_reducible first | assumption | apply ackArrivals_kept | apply modRel_kept | apply opDone_kept | apply sendDigest_kept) | split | dsimp only | intro _

theorem startBulk_keptI {s t : State} (x0 : InstId) (x1 : Option Nat) (x2 : Nat) (h : KeptI x0 s t) :
    KeptI x0 s (startBulk x0 x1 x2 t) := by
  unfold startBulk
  try dsimp only
  repeat' first | (with_reducible first | assumption | apply driveIssue_keptI | apply modHearth_keptI | apply modRel_keptI) | split | dsimp only | intro _

theorem journal_kept {s t : State} (x0 : InstId) (x1 : List JEntry) (h : Kept s t) :
    Kept s (journal x0 x1 t) := h.trans (journal_keptI x0 x1 (KeptI.refl _ t)).toKept

theorem startBulk_kept {s t : State} (x0 : InstId) (x1 : Option Nat) (x2 : Nat) (h : Kept s t) :
    Kept s (startBulk x0 x1 x2 t) := h.trans (startBulk_keptI x0 x1 x2 (KeptI.refl _ t)).toKept

theorem bulkDone_kept {s t : State} (x0 : InstId) (h : Kept s t) :
    Kept s (bulkDone x0 t) := by
  unfold bulkDone
  try dsimp only
  repeat' first | (with_reducible first | assumption | apply finishCmd_kept | apply journal_kept | apply modRel_kept | apply opDone_kept | apply sendDigest_kept | apply startBulk_kept) | split | dsimp only | intro _

theorem pathFail_keptI {s t : State} (x0 : InstId) (h : KeptI x0 s t) :
    KeptI x0 s (pathFail x0 t) := by
  unfold pathFail
  try dsimp only
  repeat' first | (with_reducible first | assumption | apply driveOver_keptI | apply finishCmd_keptI | apply logFault_keptI | apply modRel_keptI | apply foldl_keptI) | split | dsimp only | intro _

theorem driveError_keptI {s t : State} (x0 : InstId) (x1 : DriveCmd) (h : KeptI x0 s t) :
    KeptI x0 s (driveError x0 x1 t) := by
  unfold driveError
  try dsimp only
  repeat' first | (with_reducible first | assumption | apply driveIssue_keptI | apply driveOver_keptI | apply pathFail_keptI) | split | dsimp only | intro _

theorem pathBack_keptI {s t : State} (x0 : InstId) (x1 : Nat) (h : KeptI x0 s t) :
    KeptI x0 s (pathBack x0 x1 t) := by
  unfold pathBack
  try dsimp only
  repeat' first | (with_reducible first | assumption | apply finishCmd_keptI | apply modRel_keptI | apply opDone_keptI) | split | dsimp only | intro _

theorem driveEnds_keptI {s t : State} (x0 : InstId) (h : KeptI x0 s t) :
    KeptI x0 s (driveEnds x0 t).2 := by
  unfold driveEnds
  try dsimp only
  repeat' first | (with_reducible first | assumption | apply takeFree_keptI) | split | dsimp only | intro _

theorem digestLogged_kept {s t : State} (x0 : InstId) (x1 : Nat × BitVec 384 × Nat) (h : Kept s t) :
    Kept s (digestLogged x0 x1 t) := h.trans (digestLogged_keptI x0 x1 (KeptI.refl _ t)).toKept

theorem driveOver_kept {s t : State} (x0 : InstId) (x1 : DriveCmd) (h : Kept s t) :
    Kept s (driveOver x0 x1 t) := h.trans (driveOver_keptI x0 x1 (KeptI.refl _ t)).toKept

theorem pathBack_kept {s t : State} (x0 : InstId) (x1 : Nat) (h : Kept s t) :
    Kept s (pathBack x0 x1 t) := h.trans (pathBack_keptI x0 x1 (KeptI.refl _ t)).toKept

theorem driveDone_kept {s t : State} (x0 : InstId) (x1 : DriveCmd) (h : Kept s t) :
    Kept s (driveDone x0 x1 t) := by
  unfold driveDone
  try dsimp only
  repeat' first | (with_reducible first | assumption | apply bulkDone_kept | apply countFixed_kept | apply digestLogged_kept | apply driveOver_kept | apply flushDone_kept | apply pathBack_kept) | split | dsimp only | intro _

theorem fireCores_keptI {s t : State} (x0 : InstId) (h : KeptI x0 s t) :
    KeptI x0 s (fireCores x0 t) := by
  unfold fireCores
  try dsimp only
  repeat' first | (with_reducible first | assumption | apply fireDue_keptI | apply foldl_keptI) | split | dsimp only | intro _

theorem doSnapshot_keptI {s t : State} (x0 : InstId) (x1 : MboxCmd) (h : KeptI x0 s t) :
    KeptI x0 s (doSnapshot x0 x1 t).2 := by
  unfold doSnapshot
  try dsimp only
  repeat' first | (with_reducible first | assumption | apply startBulk_keptI) | split | dsimp only | intro _

theorem doLossBound_keptI {s t : State} (x0 : InstId) (x1 : MboxCmd) (h : KeptI x0 s t) :
    KeptI x0 s (doLossBound x0 x1 t).2 := by
  unfold doLossBound
  try dsimp only
  repeat' first | (with_reducible first | assumption | apply modRel_keptI) | split | dsimp only | intro _

theorem doDriveRetry_keptI {s t : State} (x0 : InstId) (x1 : MboxCmd) (h : KeptI x0 s t) :
    KeptI x0 s (doDriveRetry x0 x1 t).2 := by
  unfold doDriveRetry
  try dsimp only
  repeat' first | (with_reducible first | assumption | apply driveIssue_keptI) | split | dsimp only | intro _

/-! ### Machine/Twin.lean -/

theorem copyAttic_keptI {s t : State} (x0 : InstId) (x1 x2 : Mirrored) (h : KeptI x0 s t) :
    KeptI x0 s (copyAttic x0 x1 x2 t) := by
  unfold copyAttic
  try dsimp only
  repeat' first | (with_reducible first | assumption | apply hbmPut_keptI | apply foldl_keptI) | split | dsimp only | intro _

theorem applyMirror_keptI {s t : State} (x0 : InstId) (x1 : MirrorMsg) (h : KeptI x0 s t) :
    KeptI x0 s (applyMirror x0 x1 t) := by
  unfold applyMirror
  try dsimp only
  repeat' first | (with_reducible first | assumption | apply copyAttic_keptI | apply modInst_keptI) | split | dsimp only | intro _

theorem markLost_kept {s t : State} (x0 : InstId) (h : Kept s t) :
    Kept s (markLost x0 t) := h.trans (markLost_keptI x0 (KeptI.refl _ t)).toKept

theorem mirrorLost_kept {s t : State} (x0 : InstId) (h : Kept s t) :
    Kept s (mirrorLost x0 t) := h.trans (mirrorLost_keptI x0 (KeptI.refl _ t)).toKept

theorem pathFault_kept {s t : State} (x0 : InstId) (h : Kept s t) :
    Kept s (pathFault x0 t) := by
  unfold pathFault
  try dsimp only
  repeat' first | (with_reducible first | assumption | apply markLost_kept | apply mirrorLost_kept) | split | dsimp only | intro _ | with_reducible apply Kept.raw

theorem heartbeatOf_kept {s t : State} (x0 : InstId) (h : Kept s t) :
    Kept s (heartbeatOf x0 t) := by
  unfold heartbeatOf
  try dsimp only
  repeat' first | (with_reducible first | assumption | apply modRel_kept) | split | dsimp only | intro _

theorem startClaim_keptI {s t : State} (x0 : InstId) (h : KeptI x0 s t) :
    KeptI x0 s (startClaim x0 t) := by
  unfold startClaim
  try dsimp only
  repeat' first | (with_reducible first | assumption | apply modRel_keptI) | split | dsimp only | intro _

theorem startClaim_kept {s t : State} (x0 : InstId) (h : Kept s t) :
    Kept s (startClaim x0 t) := h.trans (startClaim_keptI x0 (KeptI.refl _ t)).toKept

theorem judge_kept {s t : State} (x0 : InstId) (x1 : Bool) (h : Kept s t) :
    Kept s (judge x0 x1 t) := by
  unfold judge
  try dsimp only
  repeat' first | (with_reducible first | assumption | apply markLost_kept | apply mirrorLost_kept | apply startClaim_kept) | split | dsimp only | intro _ | with_reducible apply Kept.raw

theorem settleStep_keptI {s t : State} (x0 : InstId) (x1 : Machine.Step) (h : KeptI x0 s t) :
    KeptI x0 s (settleStep x0 x1 t) := by
  unfold settleStep
  try dsimp only
  repeat' first | (with_reducible first | assumption | apply commitOne_keptI | apply finishStep_keptI | apply foldl_keptI) | split | dsimp only | intro _

theorem dropFlashOps_keptI {s t : State} (x0 : InstId) (h : KeptI x0 s t) :
    KeptI x0 s (dropFlashOps x0 t) := by
  unfold dropFlashOps
  try dsimp only
  repeat' first | (with_reducible first | assumption | apply modHearth_keptI) | split | dsimp only | intro _ | with_reducible apply KeptI.raw

theorem rearmCores_keptI {s t : State} (x0 : InstId) (h : KeptI x0 s t) :
    KeptI x0 s (rearmCores x0 t) := by
  unfold rearmCores
  try dsimp only
  repeat' first | (with_reducible first | assumption | apply duskMore_keptI | apply modMir_keptI | apply modRel_keptI | apply foldl_keptI) | split | dsimp only | intro _

theorem killAgain_keptI {s t : State} (x0 : InstId) (h : KeptI x0 s t) :
    KeptI x0 s (killAgain x0 t) := by
  unfold killAgain
  try dsimp only
  repeat' first | (with_reducible first | assumption | apply foldl_keptI) | split | dsimp only | intro _ | with_reducible apply KeptI.raw

theorem tellPeers_keptI {s t : State} (x0 : InstId) (h : KeptI x0 s t) :
    KeptI x0 s (tellPeers x0 t) := by
  unfold tellPeers
  try dsimp only
  repeat' first | (with_reducible first | assumption | apply announceAll_keptI | apply modStair_keptI | apply startDiscovery_keptI | apply foldl_keptI) | split | dsimp only | intro _

theorem creditsBack_kept {s t : State} (x0 x1 : InstId) (h : Kept s t) :
    Kept s (creditsBack x0 x1 t) := by
  unfold creditsBack
  try dsimp only
  repeat' first | (with_reducible first | assumption | apply modKit_kept | apply modStair_kept) | split | dsimp only | intro _

theorem passSet_kept {s t : State} (x0 : InstId) (h : Kept s t) :
    Kept s (passSet x0 t) := by
  unfold passSet
  try dsimp only
  repeat' first | (with_reducible first | assumption | apply modInst_kept) | split | dsimp only | intro _

theorem dropFlashOps_kept {s t : State} (x0 : InstId) (h : Kept s t) :
    Kept s (dropFlashOps x0 t) := h.trans (dropFlashOps_keptI x0 (KeptI.refl _ t)).toKept

theorem killAgain_kept {s t : State} (x0 : InstId) (h : Kept s t) :
    Kept s (killAgain x0 t) := h.trans (killAgain_keptI x0 (KeptI.refl _ t)).toKept

theorem killStep_kept {s t : State} (x0 : InstId) (x1 : Nat) (x2 : Bool) (h : Kept s t) :
    Kept s (killStep x0 x1 x2 t) := h.trans (killStep_keptI x0 x1 x2 (KeptI.refl _ t)).toKept

theorem modMir_kept {s t : State} (x0 : InstId) (x1 : Mirrored → Mirrored) (h : Kept s t) :
    Kept s (modMir x0 x1 t) := h.trans (modMir_keptI x0 x1 (KeptI.refl _ t)).toKept

theorem rearmCores_kept {s t : State} (x0 : InstId) (h : Kept s t) :
    Kept s (rearmCores x0 t) := h.trans (rearmCores_keptI x0 (KeptI.refl _ t)).toKept

theorem settleStep_kept {s t : State} (x0 : InstId) (x1 : Machine.Step) (h : Kept s t) :
    Kept s (settleStep x0 x1 t) := h.trans (settleStep_keptI x0 x1 (KeptI.refl _ t)).toKept

theorem tellPeers_kept {s t : State} (x0 : InstId) (h : Kept s t) :
    Kept s (tellPeers x0 t) := h.trans (tellPeers_keptI x0 (KeptI.refl _ t)).toKept

theorem takeOver_kept {s t : State} (x0 : InstId) (h : Kept s t) :
    Kept s (takeOver x0 t) := by
  unfold takeOver
  try dsimp only
  repeat' first | (with_reducible first | assumption | apply creditsBack_kept | apply dropFlashOps_kept | apply killAgain_kept | apply killStep_kept | apply logFault_kept | apply modInst_kept | apply modKit_kept | apply modMir_kept | apply modOutpost_kept | apply modRel_kept | apply modStair_kept | apply passSet_kept | apply rearmCores_kept | apply settleStep_kept | apply tellPeers_kept | apply foldl_kept) | (unfold LarderKeeps; intro x hx; first | exact hx | exact discardStep_wf _ _ hx | exact finishRow_wf _ hx | exact drainPort_wf hx | (split <;> exact hx) | (split <;> split <;> exact hx) | simpa using hx | (dsimp only; split <;> first | exact hx | simpa using hx)) | split | dsimp only | intro _

theorem resync_kept {s t : State}  (h : Kept s t) :
    Kept s (resync t) := by
  unfold resync
  try dsimp only
  repeat' first | (with_reducible first | assumption | apply modRel_kept) | split | dsimp only | intro _

/-! ### Machine/Restore.lean -/

theorem doRestore_keptI {s t : State} (x0 : InstId) (x1 : MboxCmd) (h : KeptI x0 s t) :
    KeptI x0 s (doRestore x0 x1 t).2 := by
  unfold doRestore
  try dsimp only
  repeat' first | (with_reducible first | assumption | apply driveIssue_keptI | apply modRel_keptI) | split | dsimp only | intro _

theorem rewriteBuffers_keptI {s t : State} (x0 : InstId) (x1 : DurImage) (h : KeptI x0 s t) :
    KeptI x0 s (rewriteBuffers x0 x1 t) := by
  unfold rewriteBuffers
  try dsimp only
  repeat' first | (with_reducible first | assumption | apply hbmPut_keptI | apply writeAttic_keptI | apply foldl_keptI) | split | dsimp only | intro _

theorem withdrawAll_keptI {s t : State} (x0 : InstId) (x1 : DurImage) (h : KeptI x0 s t) :
    KeptI x0 s (withdrawAll x0 x1 t) := by
  unfold withdrawAll
  try dsimp only
  repeat' first | (with_reducible first | assumption | apply journal_keptI | apply postReject_keptI | apply writeShadow_keptI | apply foldl_keptI) | split | dsimp only | intro _

theorem restartSeqs_keptI {s t : State} (x0 : InstId) (h : KeptI x0 s t) :
    KeptI x0 s (restartSeqs x0 t) := by
  unfold restartSeqs
  try dsimp only
  repeat' first | (with_reducible first | assumption | apply duskSet_keptI | apply postSeq_keptI | apply retime_keptI | apply wantModel_keptI | apply foldl_keptI) | split | dsimp only | intro _

theorem rebuild_keptI {s t : State} (x0 : InstId) (x1 : DurImage) (x2 : RestoreState) (x3 : Nat) (h : KeptI x0 s t) :
    KeptI x0 s (rebuild x0 x1 x2 x3 t) := by
  unfold rebuild
  try dsimp only
  repeat' first | (with_reducible first | assumption | apply foyerRound_keptI | apply logFault_keptI | apply modInst_keptI | apply modRel_keptI | apply raiseGen_keptI | apply restartSeqs_keptI | apply rewriteBuffers_keptI | apply setRole_keptI | apply withdrawAll_keptI) | split | dsimp only | intro _

theorem restoreFails_keptI {s t : State} (x0 : InstId) (x1 x2 : Nat) (h : KeptI x0 s t) :
    KeptI x0 s (restoreFails x0 x1 x2 t) := by
  unfold restoreFails
  try dsimp only
  repeat' first | (with_reducible first | assumption | apply finishCmd_keptI | apply modRel_keptI) | split | dsimp only | intro _

/-! ### Machine/Clock.lean -/

theorem blockReset_keptI {s t : State} (x0 : InstId) (x1 : Nat) (h : KeptI x0 s t) : KeptI x0 s (blockReset x0 x1 t) := by
  unfold blockReset
  split
  · exact h
  · extract_lets u v
    have hu : KeptI x0 s u := KeptI.raw h
    clear_value u
    have hv : KeptI x0 s v := modInst_keptI _ hu
    clear_value v
    exact ⟨⟨hv.pending, fun m => ⟨(hv.mem m).1, (hv.mem m).2.1, fun o ho => by
      obtain ⟨p, hp, rfl⟩ := List.mem_map.mp ho
      exact resetOutpost_wf x0 ((hv.mem m).2.2 p hp)⟩, hv.free, hv.tick, hv.powered⟩, by cases x0 <;> exact hv.other⟩

theorem releaseReset_keptI {s t : State} (x0 : InstId) (h : KeptI x0 s t) :
    KeptI x0 s (releaseReset x0 t) := by
  unfold releaseReset
  try dsimp only
  repeat' first | (with_reducible first | assumption | apply modHearth_keptI) | split | dsimp only | intro _ | with_reducible apply KeptI.raw

theorem tickCounters_keptI {s t : State} (x0 : InstId) (h : KeptI x0 s t) : KeptI x0 s (tickCounters x0 t) := by
  unfold tickCounters
  extract_lets f bank usher load u
  have hu : KeptI x0 s u := modInst_keptI _ h
  have hf : s.free ≤ t.free + tickFrees := Nat.le_trans h.free (Nat.le_add_right _ _)
  clear_value u
  exact ⟨⟨hu.pending, hu.mem, hf, hu.tick, hu.powered⟩, by cases x0 <;> exact hu.other⟩

theorem tickInst_keptI {s t : State} (x0 : InstId) (h : KeptI x0 s t) :
    KeptI x0 s (tickInst x0 t) := by
  unfold tickInst
  try dsimp only
  repeat' first | (with_reducible first | assumption | apply announceChange_keptI | apply foyerRound_keptI | apply mirrorOut_keptI | apply modInst_keptI | apply noteWaits_keptI | apply tearDue_keptI | apply testCqs_keptI | apply tickCounters_keptI) | split | dsimp only | intro _

theorem closeTick_keptI {s t : State} (x0 : InstId) (h : KeptI x0 s t) :
    KeptI x0 s (closeTick x0 t) := by
  unfold closeTick
  try dsimp only
  repeat' first | (with_reducible first | assumption | apply fireLists_keptI | apply mirrorOut_keptI) | split | dsimp only | intro _

end Sys2Proof.Laws
end

