-- ==== Sys2Proof/WellFormed.lean ====
section
/-! DEFINITION. The ranges of a command's operands: windows 0-63, contexts 0-15, outposts 0-7, models 0-63, latches 0-255, Hearth cores 0-3, Dusk lists 0-3, offsets within a register file, values within an access's width, entries of their fixed size. -/

namespace Sys2Proof

/-- An access of 4 or 8 bytes: a value of its width. -/
def wfVal (wide : Bool) (v : Nat) : Bool := decide (v < if wide then 2 ^ 64 else 2 ^ 32)

/-- A register offset within the instance's 64 KiB register file, aligned to the access (spec/01 R23, R24). -/
def wfOff (wide : Bool) (off : Nat) : Bool := decide (off < 0x10000) && decide (off % (if wide then 8 else 4) = 0)

/-- An offset within the instance's 1 MiB slice of BAR2, which holds the mailbox windows too, aligned to the access (spec/01 R23, R24). -/
def wfSlice (wide : Bool) (off : Nat) : Bool := decide (off < 0x100000) && decide (off % (if wide then 8 else 4) = 0)

/-- A local sequence id (spec/00 R1). -/
def wfLid (n : Nat) : Bool := decide (n < 2 ^ 22)

/-- A peer message's header fields within their widths (spec/16 R340). -/
def wfMsg (m : PeerMsg) : Bool :=
  decide (m.type < 256) && decide (m.reason < 256) && decide (m.src < 2 ^ 16) && decide (m.dst < 2 ^ 16)
    && decide (m.srcGen < 2 ^ 16) && decide (m.dstGen < 2 ^ 16) && decide (m.check < 2 ^ 32)

/-- The operand ranges of a command. -/
def Instr.wf : Instr → Bool
  | .mailboxGo _ w | .mailboxGoTaken _ w | .placeRegion _ w | .driveRange _ w | .identity _ w | .pairing _ w
  | .hostTrims _ w _ | .dawnComplete _ w | .class0Reserve _ w | .contextOpen _ w | .contextConfigure _ w
  | .contextClose _ w | .contextQuery _ w | .recipeDefine _ w _ | .recipeUndefine _ w | .planRegister _ w
  | .planUnregister _ w | .planQuery _ w | .cancel _ w | .park _ w | .resume _ w | .extend _ w _
  | .querySequence _ w | .modelDescribe _ w _ | .modelQuery _ w | .modelForget _ w | .modelLoaded _ w
  | .modelLoadDeclined _ w | .modelUnloaded _ w | .modelPin _ w | .epochStage _ w _ | .epochReady _ w
  | .epochCommit _ w | .epochUnstage _ w | .epochRetire _ w | .evening _ w | .morning _ w | .turnCost _ w
  | .poolLend _ w | .poolReturn _ w | .snapshot _ w | .restore _ w | .lossBound _ w | .driveRetry _ w
  | .migrate _ w | .directionsSet _ w _ | .watch _ w | .trace _ w | .counters _ w | .imageWrite _ w _
  | .firmwareConfirm _ w => decide (w < 64)
  | .resHeadWrite _ w v => decide (w < 64) && wfVal false v
  | .sqTailDoorbell _ c v | .cqHeadWrite _ c v => decide (c < 16) && wfVal false v
  | .submitEntry _ c e _ _ | .sqNop _ c e | .sqBadKind _ c e => decide (c < 16) && decide (e.length = 320)
  | .contextCloseDone _ c | .deferLimitExpiry _ c | .cqRingWrite _ c | .irqModerationTimer _ c | .dmaError _ c
  | .teardownComplete _ c | .context _ c => decide (c < 16)
  | .irqStatusClear _ wide off v | .irqEnableWrite _ wide off v | .latchConfigWrite _ wide off v
  | .stairwellTimingWrite _ wide off v | .traceRpWrite _ wide off v | .epochRetiredClear _ wide off v
  | .kitchenLimitWrite _ wide off v => wfOff wide off && wfVal wide v
  | .registerWrite _ wide off v => wfSlice wide off && wfVal wide v
  | .rcFieldRead _ wide off => wfSlice wide off
  | .coolMarkWrite _ wide v | .pageHeadroomWrite _ wide v | .injectionSeedWrite _ wide v | .dumpRequest _ wide v
  | .dumpAck _ wide v | .studyCauseClear _ wide v | .wdogExpiredClear _ wide v => wfVal wide v
  | .fenceMaskWrite _ o wide v | .fenceRefusedClear _ o wide v => decide (o < 8) && wfVal wide v
  | .drawList o | .keystreamBlock o _ _ _ | .classMapLoaded o _ _ | .waveDoneMarker o _ _
  | .lanePassComplete o _ _ | .rowSetup o | .maxResult o | .roundReq o | .cut o | .quotas o | .locate o | .doneMsg o
  | .maxSum _ o | .massSum _ o | .roundSum _ o | .keptSum _ o | .raceSum _ o | .located _ o | .parity _ o
  | .laneGroupSelftestDone o _ | .claim _ o => decide (o < 8)
  | .larderGranuleWrite o off data => decide (o < 8) && decide (off < 2 ^ 25) && decide (off % 64 = 0) && decide (data.length = 64)
  | .waveLandedNotice _ d st _ | .completionNotice _ d st | .killAcknowledgement _ d st | .kernelFault _ d st =>
    decide (d < 8) && decide (st < 2 ^ 24)
  | .tokenCommit _ l | .stopCheck _ l | .kill _ l | .admitSeq _ l | .warm _ l | .cool _ l | .evictionPark _ l
  | .evictionResume _ l | .kvInvalidation _ l | .sequenceCancel _ l | .sequencePark _ l | .sequenceResume _ l
  | .sequenceExtend _ l | .forceRun _ l | .midnightEvent _ l | .epochAbort _ l | .eveningEvent _ l | .morningEvent _ l
  | .broadcastSweep _ l | .migrateOut _ l | .migrateAck _ l | .migrateFail _ l | .migrateIn _ l | .migrateDone _ l
  | .household _ l | .teardown _ l | .planReady _ l | .deadlineEntry _ l | .parkWake _ l => wfLid l
  | .midnight _ m => decide (m < 64)
  | .watchdogExpiry _ l => decide (l.core < 4)
  | .coreRestartDone _ k | .mailboxCommandTimeout _ k => decide (k < 4)
  | .duskSpillRefill _ l => decide (l < 4)
  | .planFetchDone _ p _ => decide (p < 2 ^ 16)
  | .latchAcquire _ k st => decide (k < 256) && decide (st < 2 ^ 24)
  | .latchRelease _ k => decide (k < 256)
  | .announce _ m | .announceReply _ m | .offer _ m | .accept _ m | .refuse _ m | .dataMsg _ m | .dataAck _ m
  | .handover _ m | .ack _ m | .nak _ m | .abandon _ m | .bounce _ m => wfMsg m
  | .uncorrectableEcc _ site =>
    match site with
    | .parlour l | .hbmOfSequence l => wfLid l
    | .hbmStepBuffer _ | .hbmShared | .hubTable | .hearthShared => true
  | .commitPoint _ _ | .composeStep _ _ | .migrationRetry _ _ | .migrationTimeout _ _ | .arrivalTimeout _ _
  | .traceWaitLimit _ _ _ _ _ | .linkCreditsReturned _ _ => true
  | .powerOnReset | .blockReset _ | .functionLevelReset | .resetControlWrite _ _ | .tick | .livenessAdvance _
  | .flashGrant | .imageReadComplete _ _ | .signatureVerified _ | .coresReady _ | .discoveryComplete _
  | .discoveryTimeout _ | .eveningComplete _ | .restoreComplete _ | .traceDrained _ | .imageProgramDone _ _
  | .foyerReevaluation _ | .reorderRelease _ | .mirrorMessage _ _ | .mirrorAck _ | .mirrorSyncComplete _ | .heartbeat
  | .heartbeatLost _ | .livenessCheck _ | .failMsg _ | .takeover _ | .claimRefused _ | .digestPair _
  | .driveCompletion _ _ | .driveTimeout _ | .journalFlush _ | .flushDeferExpiry _ | .flushComplete _
  | .bulkImageStart _ | .bulkImageDurable _ | .graphBuild _ | .traceBurstTimeout _ | .traceSync _
  | .dumpComplete _ _ | .powerLoss | .pathRestored => true

end Sys2Proof
end

