-- ==== Sys2Proof/Tests/Slice0.lean ====
section
/-! SUPPORT. The model's own tests: ill-formed commands that WellFormed refuses, small values worked out by hand from the spec, and for each statement with hypotheses a state that meets them. -/

namespace Sys2Proof.Tests

set_option Elab.async false

open Sys2Proof Sys2Proof.Machine

/-! ### Small states -/

/-- Instance A after Dawn, active, with context 0 open, as a state to start from. -/
def up : State :=
  modInst .A (fun x => { x with
    hearth := { x.hearth with stage := .ready, coreUp := 0xF#4, cellarCopy := true }
    rel := { x.rel with active := true }
    place := { x.place with outposts := 0x0F#8, pairingGiven := true }
    mir := { x.mir with ctxs := modAt x.mir.ctxs 0 fun c => { c with isOpen := true, cfg := { c.cfg with sqEntries := 16, cqEntries := 64, cqBase := 0x1000, shadow := 0x8000 } } } })
    State.reset

def mirUp (f : Mirrored → Mirrored) : State := modMir .A f up

/-- A mailbox command of window 0 with a parameter block of `n` bytes. -/
def ask (code n : Nat) (fs : List (Nat × List Byte)) : MboxCmd :=
  { id := 0, window := 0, code := code, irq := false, cookie := 7, params := layout n fs, acceptTick := 0 }

/-- The state in which the command waits. -/
def asked (c : MboxCmd) (s : State) : State := modMir .A (fun m => { m with mbox := [c] }) s

/-- A live sequence, id 5, of context 0 and model 0. -/
def seq5 (st : SeqState) : Machine.Seq := { r := { localId := 5, state := st, trailCapacity := 16, promptLen := 4 } }

/-- A state with that sequence, its household and an event at the head of its flow. -/
def evented (st : SeqState) (k : EvKind) : State :=
  modHall .A (fun h => { h with events := [{ flow := .seq 5, arrival := 0, kind := k }] })
    (mirUp fun m => { m with seqs := [seq5 st], households := [{ id := 5, leader := 5, context := 0, cls := 0, model := 0, promptLen := 4, capacity := 1, prefixPages := 0, share := 1, unalloc := 0 }] })

/-- A command's next state, where it has one. -/
def goesOn (c : Instr) (s : State) : Bool := match exec c s with | .next _ => true | _ => false

/-- What `p` says of a command's next state. -/
def after (c : Instr) (s : State) (p : State → Bool) : Bool := match exec c s with | .next t => p t | _ => false

/-- The command stops at case `n`. -/
def stops (c : Instr) (s : State) (n : Nat) : Bool := match exec c s with | .fault (.undefinedCase k) => k == n | _ => false

/-- Sequence 5 in a state, with nothing waiting. -/
def with5 (st : SeqState) (f : Record → Record) : State := mirUp fun m => { m with
  seqs := [{ seq5 st with r := f (seq5 st).r }], households := [{ id := 5, leader := 5, context := 0, cls := 0, model := 0, promptLen := 4, capacity := 1, prefixPages := 0, share := 1, unalloc := 0 }],
  dir := { m.dir with models := modAt m.dir.models 0 fun x => { x with state := .resident, maxPositions := 100, vocabMax := 1000, pageSizeLog2 := 4, committed := some { epoch := 0, vocab := 1000 } } } }

/-! ### Ill-formed commands -/

theorem wf_window : Instr.wf (.mailboxGo .A 64) = false ∧ Instr.wf (.mailboxGo .A 63) = true := by decide
theorem wf_window_value : Instr.wf (.resHeadWrite .A 0 (2 ^ 32)) = false ∧ Instr.wf (.resHeadWrite .A 63 (2 ^ 32 - 1)) = true := by decide
theorem wf_context_value : Instr.wf (.sqTailDoorbell .A 16 0) = false ∧ Instr.wf (.cqHeadWrite .A 15 (2 ^ 32)) = false := by decide
theorem wf_entry : Instr.wf (.sqNop .A 0 []) = false ∧ Instr.wf (.submitEntry .A 0 (List.replicate 320 0) [] []) = true := by decide +kernel
theorem wf_context : Instr.wf (.dmaError .A 16) = false ∧ Instr.wf (.context .B 15) = true := by decide
theorem wf_offset : Instr.wf (.kitchenLimitWrite .A true 0x104 0) = false ∧ Instr.wf (.kitchenLimitWrite .A false 0x104 0) = true ∧
    Instr.wf (.kitchenLimitWrite .A true 0x10000 0) = false ∧ Instr.wf (.kitchenLimitWrite .A false 0x100 (2 ^ 32)) = false := by decide
theorem wf_slice : Instr.wf (.registerWrite .A true 0x100000 0) = false ∧ Instr.wf (.registerWrite .A true 0xFFFF8 (2 ^ 64)) = false ∧
    Instr.wf (.registerWrite .A false 0xFFFFE 0) = false := by decide
theorem wf_read : Instr.wf (.rcFieldRead .A true 4) = false ∧ Instr.wf (.rcFieldRead .A false 4) = true := by decide
theorem wf_value : Instr.wf (.coolMarkWrite .A false (2 ^ 32)) = false ∧ Instr.wf (.coolMarkWrite .A true (2 ^ 32)) = true := by decide
theorem wf_outpost_value : Instr.wf (.fenceMaskWrite .A 8 false 0) = false ∧ Instr.wf (.fenceRefusedClear .A 7 false (2 ^ 32)) = false := by decide
theorem wf_outpost : Instr.wf (.drawList 8) = false ∧ Instr.wf (.claim .A 7) = true := by decide
theorem wf_granule : Instr.wf (.larderGranuleWrite 0 32 (List.replicate 64 0)) = false ∧ Instr.wf (.larderGranuleWrite 0 64 []) = false ∧
    Instr.wf (.larderGranuleWrite 0 (2 ^ 25) (List.replicate 64 0)) = false ∧ Instr.wf (.larderGranuleWrite 8 64 (List.replicate 64 0)) = false := by decide +kernel
theorem wf_notice : Instr.wf (.completionNotice .A 8 0) = false ∧ Instr.wf (.completionNotice .A 0 (2 ^ 24)) = false := by decide
theorem wf_sequence : Instr.wf (.tokenCommit .A (2 ^ 22)) = false ∧ Instr.wf (.uncorrectableEcc .A (.parlour (2 ^ 22))) = false ∧
    Instr.wf (.uncorrectableEcc .A .hubTable) = true := by decide
theorem wf_model : Instr.wf (.midnight .A 64) = false ∧ Instr.wf (.midnight .A 63) = true := by decide
theorem wf_core : Instr.wf (.watchdogExpiry .A ⟨4, false⟩) = false ∧ Instr.wf (.mailboxCommandTimeout .A 3) = true := by decide
theorem wf_dusk_list : Instr.wf (.duskSpillRefill .A 4) = false ∧ Instr.wf (.duskSpillRefill .A 3) = true := by decide
theorem wf_plan : Instr.wf (.planFetchDone .A (2 ^ 16) []) = false ∧ Instr.wf (.planFetchDone .A 0 []) = true := by decide
theorem wf_latch : Instr.wf (.latchAcquire .A 256 0) = false ∧ Instr.wf (.latchAcquire .A 255 (2 ^ 24)) = false ∧ Instr.wf (.latchRelease .A 256) = false := by decide
theorem wf_message : Instr.wf (.offer .A { type := 256, reason := 0, src := 0, dst := 0, srcGen := 0, dstGen := 0, srcRole := 0, admitReason := 0, subject := 0, attempt := 0, offset := 0, peerSubject := 0, check := 0, payload := [] }) = false := by decide

/-! ### The table gives its rows no bits, and the queue -/

theorem test_table_word : decodeTableWord 32 0 = none ∧ State.reset.withFetchWord 32 0 = State.reset := ⟨rfl, rfl⟩
theorem test_reset_idles : (match step State.reset with | .next t => t.pending.isEmpty && t.tick == 0 | _ => false) = true := by decide +kernel
theorem test_queue_order : (match step { State.reset with pending := [.tick, .flashGrant] } with | .next t => t.tick == 1 && t.pending == [.flashGrant] | _ => false) = true := by
  decide +kernel

/-! ### States that meet the hypotheses of the statements: the whole machine -/

/-- Both instances run in split mode. -/
def splitUp : State := modInst .B (fun x => { x with place := { x.place with split := true, outposts := 0xF0#8 } }) (modInst .A (fun x => { x with place := { x.place with split := true } }) up)

/-- The active twin of a CURRENT pair. -/
def paired2 : State :=
  modInst .B (fun x => { x with hearth := { x.hearth with stage := .ready, coreUp := 0xF#4 }, rel := { x.rel with mirror := .current } })
    (modRel .A (fun r => { r with mirror := .current }) { up with pathUp := true })

theorem witness_StepRunsFront : ({ up with pending := [Instr.tick] } : State).pending = Instr.tick :: [] ∧ up.pending = [] := ⟨rfl, rfl⟩
theorem witness_MemoryKept : MemOk up ∧ (match step { up with pending := [Instr.tick] } with | .next _ => true | _ => false) = true := ⟨⟨rfl, rfl, by decide +kernel⟩, by decide +kernel⟩
theorem witness_QueueKept : goesOn (.mailboxGo .A 0) up = true := by decide +kernel
theorem witness_TickKept : Instr.mailboxGo .A 0 ≠ .tick ∧ Instr.mailboxGo .A 0 ≠ .powerOnReset ∧ Instr.mailboxGo .A 0 ≠ .powerLoss ∧ goesOn (.mailboxGo .A 0) up = true := by
  decide +kernel
theorem witness_SplitIsolation : within (.mailboxGo .A 0) = some .A ∧ (getInst splitUp (Machine.other .A)).place.split = true ∧ goesOn (.mailboxGo .A 0) splitUp = true := by
  decide +kernel
theorem witness_KindsKept : mayWriteFlash (.mailboxGo .A 0) = false ∧ mayWriteHost (.mailboxGo .A 0) = false ∧ mayTrim (.mailboxGo .A 0) = false ∧ mayReset (.mailboxGo .A 0) = false ∧
    keepsHbm (.mailboxGo .A 0) = true ∧ goesOn (.mailboxGo .A 0) up = true := by decide +kernel
theorem witness_MirrorCarries : within (.mailboxGo .A 0) = some .A ∧ running paired2 .A = true ∧
    after (.mailboxGo .A 0) paired2 (fun t => (getInst t .A).rel.active && (getInst t .A).rel.mirror == .current && mir t .A != mir paired2 .A) = true := by decide +kernel
theorem witness_MirrorCarries_syncing : let s := modRel .A (fun r => { r with mirror := .syncing }) paired2
    running s .A = true ∧ after (.mailboxGo .A 0) s (fun t => (getInst t .A).rel.active && (getInst t .A).rel.mirror == .syncing && mir t .A != mir s .A) = true := by decide +kernel
theorem witness_MemoryWrites : Machine.Mem.wf [(4, 1#8), (7, 2#8)] = true ∧ (3 < 4 ∨ 4 + 2 ≤ 3) ∧ (6 < 4 ∨ 4 + [0#8, 9#8].length ≤ 6) ∧
    (∀ a, memGet [(4, 1#8)] a = memGet (memPuts [] 4 [1#8]) a) := ⟨rfl, by decide, by decide, fun _ => rfl⟩
theorem witness_ReservedReadZero : slotFields up .A 0x440 = [] ∧ slotFields up .A 0x100 ≠ [] := by decide +kernel
theorem witness_CompletionBit : porchTakes up .A = true ∧ 15 < 16 ∧ (0x8001#36).toNat < 2 ^ 32 ∧ (0x8001#36).getLsbD 15 = true := by decide +kernel
theorem test_completion_bit_rises : let s := mirUp fun m => { m with ctxs := modAt m.ctxs 0 fun x => { x with cqTail := 2 } }
    after (.irqStatusClear .A true 0xA00 1) s (fun t => (mir t .A).irq.cq == 1) = true := by decide +kernel
theorem test_completion_bit_stays_clear : let s := mirUp fun m => { m with irq := { m.irq with cq := 3 } }
    after (.irqStatusClear .A true 0xA00 1) s (fun t => (mir t .A).irq.cq == 2) = true := by decide +kernel
theorem witness_OrderStrict : let a := seq5 .decoding; let b : Machine.Seq := { r := { localId := 6, deadlineTick := 9 } }; let c : Machine.Seq := { r := { localId := 7, deadlineTick := 9 } }
    before (mir up .A) 0 [] a b = true ∧ before (mir up .A) 0 [] b c = true ∧ a.r.localId ≠ b.r.localId := by decide +kernel
theorem witness_OrderStrict_commands : let a := ask 0x51 16 []; let b := { a with id := 1 }; let c := { a with id := 2 }
    cmdBefore (mir up .A) a b = true ∧ cmdBefore (mir up .A) b c = true ∧ a.id ≠ b.id := by decide +kernel
theorem witness_OutpostPartition : let su : RowSetup := { h := ⟨0, 0, 0⟩, vocab := 1000, wide := false, outposts := 0x0A#8, firstHalf := 0, recipe := {} }
    su.outposts ≠ 0 ∧ 1 < suD su ∧ 999 < su.vocab ∧ 3 ∈ outList su.outposts ∧ 999 ∈ outIds su 3 ∧ su.vocab ≤ vocabLimit su.outposts := by decide +kernel
theorem test_local_slivers_at_limit : localSlivers (vocabLimit 0x0F#8) 4 = 512 := by decide +kernel

/-- A block of CONTEXT_OPEN: rings of 16 and 64 entries, every capacity 1. -/
def openBlock : List (Nat × List Byte) := [lf 0x20 4 16, lf 0x24 4 64, lf 0x38 4 1, lf 0x40 4 1, lf 0x48 4 1, lf 0x50 2 4, lf 0x52 2 50]
/-- Context 0 closed. -/
def shut : State := mirUp fun m => { m with ctxs := modAt m.ctxs 0 fun _ => {} }

theorem witness_ContextReset : let c := ask 0x20 96 openBlock; let s := asked c shut
    starts .A 0 0x20 openCase s c = true ∧ openInvalid c = false ∧ (getCtx (mir s .A) (winCtx 0)).isOpen = false ∧ 0 < 64 ∧ winCtx 0 < (mir s .A).ctxs.length ∧ 1 ≠ winCtx 0 := by
  decide +kernel

/-! ### Resets, time, Dawn -/

theorem witness_ResetsAndPower : up.powered = true ∧ inReset up .A = false ∧ (getOutpost { up with outposts := modAt up.outposts 1 fun o => { o with owner := some .B } } 1).owner ≠ some .A ∧
    (false = false ∧ true = true) := by decide +kernel
theorem test_power_on_keeps_drive : let s := modRel .A (fun r => { r with disk := { r.disk with lastBlock := 3 } }) { up with tick := 9, hbm := [(1, 1#8)] }
    after .powerOnReset s (fun t => t.tick == 0 && t.hbm == [] && t.a.rel.disk.lastBlock == 3 && t.a.hearth.stage == .rom) = true := by decide +kernel
theorem test_power_loss : after .powerLoss up (fun t => !t.powered && t.flash.waiting == [] && inReset t .B) = true := by decide +kernel
theorem test_block_reset_keeps_tick_and_hbm : let s : State := { up with tick := 77, hbm := [(1, 1#8)] }
    after (.blockReset .A) s (fun t => t.tick == 77 && t.hbm == [(1, 1#8)] && inReset t .A && !inReset t .B && t.a.hearth.stage == .rom) = true := by decide +kernel
theorem test_reset_control_one : after (.resetControlWrite false true) up (fun t => !inReset t .A && inReset t .B && t.a == up.a) = true := by decide +kernel
theorem test_flr_both : after .functionLevelReset up (fun t => inReset t .A && inReset t .B) = true := by decide +kernel
theorem witness_TimePasses : up.powered = true ∧ inReset up .B = false := by decide +kernel
theorem test_tick_counts : after .tick { up with tick := 41 } (fun t => t.tick == 42) = true := by decide +kernel
theorem test_tick_without_power : after .tick { up with powered := false } (fun t => t.tick == 0) = true := by decide +kernel
theorem test_liveness_wraps : after (.livenessAdvance .A) (modInst .A (fun x => { x with liveness := 2 ^ 32 - 1 }) up) (fun t => t.a.liveness == 0) = true := by decide +kernel

/-- Instance A in a stage of Dawn. -/
def dawnAt (st : DawnStage) (f : Hearth → Hearth) : State := modHearth .A (fun h => f { h with stage := st }) State.reset

theorem witness_DawnStages_grant : State.reset.flash.holder = none ∧ State.reset.flash.waiting = (.A, .dawn) :: [(.B, .dawn)] ∧ State.reset.a.hearth.stage = .rom := by decide +kernel
theorem test_flash_grant : after .flashGrant State.reset (fun t => t.flash.holder == some (.A, .dawn) && t.a.hearth.stage == .read && t.b.hearth.stage == .rom) = true := by decide +kernel
theorem test_flash_grant_held : after .flashGrant { State.reset with flash := { holder := some (.B, .dawn) } } (fun t => t.flash.holder == some (.B, .dawn)) = true := by decide +kernel
/-- Reading slot A, an image of another magic: its first check fails. -/
def badSlot (left : List Bool) : State := { dawnAt .read (fun h => { h with left := left }) with flash := { holder := some (.A, .dawn), waiting := [], slotA := some [1#8] } }
theorem witness_DawnStages_fall_back : (badSlot [true]).flash.holder = some (.A, .dawn) ∧ (badSlot [true]).a.hearth.stage = .read ∧
    imageFails ((slotOf (badSlot [true]).flash (badSlot [true]).a.hearth.trying).getD []) ≠ none ∧ (badSlot [true]).a.hearth.left = true :: [] ∧ (badSlot []).a.hearth.left = [] ∧
    (badSlot []).flash.holder = some (.A, .dawn) := by decide +kernel
theorem test_bad_image_tries_other_slot : after (.imageReadComplete .A []) (badSlot [true]) (fun t => t.a.hearth.stage == .read && t.a.hearth.trying && t.flash.waiting == [(.A, .dawn)]) = true := by decide +kernel
theorem test_bad_images_fail_dawn : after (.imageReadComplete .A []) (badSlot []) (fun t => t.a.hearth.stage == .failed) = true := by decide +kernel
theorem witness_DawnStages_cores : (dawnAt .start id).a.hearth.stage = .start ∧ after (.coresReady .A) (dawnAt .start id) (fun t => t.a.hearth.stage == .config && t.a.hearth.coreUp == 0xF#4) = true := by decide +kernel

/-- A waits for its peers' replies in Dawn's discovery. -/
def finding (d : Discovery) (asked : Bool) : State :=
  modStair .A (fun t => { t with discovery := d, peers := [{ addr := 9, asked := asked, reachable := true }] }) { dawnAt .discovery (fun h => { h with coreUp := 0xF#4 }) with tick := 2000 }
theorem witness_DiscoveryEnds_dawn : onDuty (finding (.dawn 0) false) .A 3 = true ∧ discoveryDone (finding (.dawn 0) false) .A = true ∧ (getInst (finding (.dawn 0) false) .A).stair.discovery = .dawn 0 := by decide +kernel
theorem test_discovery_makes_ready : after (.discoveryComplete .A) (finding (.dawn 0) false) (fun t => t.a.hearth.stage == .ready) = true := by decide +kernel
theorem witness_DiscoveryEnds_morning : discoveryDone (modStair .A (fun t => { t with discovery := .morning none }) up) .A = true ∧
    goesOn (.discoveryComplete .A) (modStair .A (fun t => { t with discovery := .morning none }) up) = true := by decide +kernel
theorem witness_DiscoveryEnds_timeout : onDuty (finding (.dawn 0) true) .A 3 = true ∧ onDuty (modStair .A (fun t => { t with discovery := .morning none }) up) .A 3 = true ∧ (getInst (finding (.dawn 0) true) .A).stair.discovery ≠ .none ∧ (getInst (finding (.dawn 0) true) .A).stair.discoveryTick + 2000 ≤ (finding (.dawn 0) true).tick := by
  decide +kernel
theorem test_discovery_times_out : after (.discoveryTimeout .A) (finding (.dawn 0) true) (fun t => t.a.stair.peers.map (fun p => (p.asked, p.reachable)) == [(false, false)]) = true := by decide +kernel

/-- Core 3's watchdog has run out in START; core 2 has expired `n` times in the last tick of a READY instance. -/
def wdogOut : State := dawnAt .start (fun h => { h with wdog := h.wdog.set 3 (h.watchdogMs * 1000) })
def wdogAgain (n : Nat) : State := modHearth .A (fun h => { h with expiries := List.replicate n (2, up.tick) }) up
theorem witness_WatchdogsAndErrors_Watchdogs : inReset wdogOut .A = false ∧ coreRuns wdogOut.a.hearth 3 = true ∧ wdogRunsOut wdogOut.a.hearth 3 = true ∧ wdogOut.a.hearth.cellarCopy = false ∧
    coreRuns up.a.hearth 2 = true ∧ (wdogAgain 1).a.hearth.cellarCopy = true ∧ recentExpiries (wdogAgain 1).a.hearth up.tick 2 < 2 ∧ 2 ≤ recentExpiries (wdogAgain 2).a.hearth up.tick 2 := by decide +kernel
theorem test_watchdog_before_ready_fails_dawn : after (.watchdogExpiry .A ⟨3, false⟩) wdogOut (fun t => t.a.hearth.stage == .failed && t.a.hearth.wdogExpired == 8) = true := by decide +kernel
theorem test_third_expiry_fences : after (.watchdogExpiry .A ⟨2, true⟩) (wdogAgain 2) (fun t => t.a.hearth.coreFenced == 4) = true := by decide +kernel
/-- Core 2 is down. -/
def down2 : State := modHearth .A (fun h => { h with coreUp := 0xB#4 }) up
theorem witness_WatchdogsAndErrors_CoreRestart : down2.a.hearth.cellarCopy = true ∧ down2.a.hearth.stage ≠ .failed ∧ down2.a.hearth.coreUp.getLsbD 2 = false ∧ down2.a.hearth.coreFenced.getLsbD 2 = false ∧ (coreCopy down2 .A 2).all (·.2) = true ∧
    after (.coreRestartDone .A 2) down2 (fun t => t.a.hearth.coreUp == 0xF#4) = true := by decide +kernel
/-- A section of core 2 that has not its digest in the Cellar. -/
def badSection : State := modHearth .A (fun h => { h with sectionTable := [{ target := 2, offset := 0, size := 1, digest := [] }] }) down2
theorem witness_WatchdogsAndErrors_CoreRestart_fails : badSection.a.hearth.cellarCopy = true ∧ (coreCopy badSection .A 2).all (·.2) = false := by decide +kernel
theorem test_restart_of_fenced_core : let s := modHearth .A (fun h => { h with coreFenced := 4 }) down2
    after (.coreRestartDone .A 2) s (fun t => t.a.hearth.coreUp == 0xB#4) = true := by decide +kernel
theorem witness_WatchdogsAndErrors_EccContained : let s := evented .decoding .cool
    running s .A = true ∧ (findSeq (mir s .A) 5).isSome = true ∧ (seqOf (modRec .A 5 (fun r => { r with hot := true }) s) .A 5).r.hot = true ∧ (seqOf s .A 5).r.hot = false ∧
    inReset s .A = false ∧ s.a.rel.failed = false ∧ s.a.hearth.stage ≠ .failed := by decide +kernel
theorem test_ecc_of_sequence : after (.uncorrectableEcc .A (.hbmOfSequence 5)) (evented .decoding .cool) (fun t => (getCtx (mir t .A) 0).faultCause == 3) = true := by decide +kernel
theorem test_ecc_shared_fails_instance : after (.uncorrectableEcc .A .hbmShared) up (fun t => t.a.rel.failed) = true := by decide +kernel

/-! ### Mailbox -/

/-- Window 0 holds a staged command of the given header and is asked to take it. -/
def staged (code length : Nat) (mb : List MboxCmd) : State :=
  mirUp fun m => { m with mbox := mb, windows := modAt m.windows 0 fun w => { w with pending := true, cmd := memPuts [] 0 (leBytes 2 code ++ leBytes 2 0 ++ leBytes 2 length ++ leBytes 2 0 ++ leBytes 8 7) } }
theorem witness_MailboxTransport_WindowWrites : winServes up .A 63 = true := by decide +kernel
theorem test_go : after (.mailboxGo .A 0) up (fun t => (getWin (mir t .A) 0).pending) = true := by decide +kernel
theorem test_res_head_wraps : after (.resHeadWrite .A 3 (2 ^ 32 - 1)) up (fun t => (getWin (mir t .A) 3).resHead == 2 ^ 32 - 1) = true := by decide +kernel

/-- The result code of window 0's first result entry. -/
def result0 (t : State) : Option Nat := ((getWin (mir t .A) 0).results.head?).map (·.2.result)

theorem witness_MailboxTransport_GoTaken_accepted : let s := staged 0x22 24 []
    winServes s .A 0 = true ∧ (getWin (mir s .A) 0).pending = true ∧ (servingCore (getInst s .A).hearth (winCtx 0)).isSome = true ∧ resultRoom (mir s .A) 0 = true ∧
      queuedOf (mir s .A) 0 < 64 ∧ (cmdSpec 0x22).map (·.size) = some 8 ∧ parseCmd (memGets (getWin (mir s .A) 0).cmd 0 16) = ⟨0x22, 0, 24, 7, false⟩ := by decide +kernel
theorem witness_MailboxTransport_GoTaken_wrong_length : parseCmd (memGets (getWin (mir (staged 0x22 23 []) .A) 0).cmd 0 16) = ⟨0x22, 0, 23, 7, false⟩ ∧ (cmdSpec 0x22).map (·.size) ≠ some 7 := by decide +kernel
theorem witness_MailboxTransport_GoTaken_unknown : cmdSpec 0x07 = none ∧ (parseCmd (memGets (getWin (mir (staged 0x07 16 []) .A) 0).cmd 0 16)).code = 0x07 := by decide +kernel
/-- The context's queue is full with commands of its other windows. -/
def fullQueue : State := staged 0x22 24 ((List.range 64).map fun k => { ask 0x22 8 [] with id := k, window := 1 + k % 3 })
theorem witness_MailboxTransport_GoTaken_full : winServes fullQueue .A 0 = true ∧ (getWin (mir fullQueue .A) 0).pending = true ∧ resultRoom (mir fullQueue .A) 0 = true ∧ 64 ≤ queuedOf (mir fullQueue .A) (winCtx 0) := by
  decide +kernel
theorem test_full_queue_answers_busy : after (.mailboxGoTaken .A 0) fullQueue (fun t => result0 t == some rBusy && (mir t .A).mbox.length == 64) = true := by decide +kernel
theorem test_go_taken : after (.mailboxGoTaken .A 0) (staged 0x22 24 []) (fun t => (mir t .A).mbox.map (fun c => (c.code, c.cookie, c.params.length)) == [(0x22, 7, 8)] &&
    (getWin (mir t .A) 0).accepted == 1 && !(getWin (mir t .A) 0).pending) = true := by decide +kernel

/-- Before READY: the command waits in the CONFIG stage. -/
def configured0 : State := modHearth .A (fun h => { h with stage := .config }) (modInst .A (fun x => { x with place := {} }) up)
/-- A command of code `code` may be started. -/
def runs (code n : Nat) (fs : List (Nat × List Byte)) (bad : MboxCmd → Option Nat) (s : State) : Bool := starts .A 0 code bad (asked (ask code n fs) s) (ask code n fs)

def manifestRegion : List (Nat × List Byte) := [lf 0 1 2, lf 8 8 0x10000000, lf 16 8 0x1000000]
theorem witness_DawnCommands_PlaceRegion : let c := ask 0x01 32 manifestRegion
    runs 0x01 32 manifestRegion noCase configured0 = true ∧ configured0.a.hearth.stage = .config ∧ prm c 0 1 ≠ 5 ∧ placeCase configured0 .A c = none ∧
    placeInvalid (prm c 0 1) (prm c 1 1) (prm c 8 8) (prm c 16 8) (prm c 24 8) = false := by decide +kernel
theorem test_place_region : after (.placeRegion .A 0) (asked (ask 0x01 32 manifestRegion) configured0)
    (fun t => result0 t == some rOk && (look 2 t.a.place.regions).map (·.base) == some 0x10000000) = true := by decide +kernel
theorem witness_DawnCommands_PlaceRegion_trace : prm (ask 0x01 32 [lf 0 1 5]) 0 1 = 5 ∧ (getInst configured0 .A).study.traceOn = false := by decide +kernel
theorem witness_DawnCommands_PlaceRegion_invalid : let fs := [lf 0 1 2, lf 16 8 0x10000]; let c := ask 0x01 32 fs
    runs 0x01 32 fs noCase configured0 = true ∧ placeInvalid (prm c 0 1) (prm c 1 1) (prm c 8 8) (prm c 16 8) (prm c 24 8) = true ∧
    after (.placeRegion .A 0) (asked c configured0) (fun t => result0 t == some rInvalid) = true := by decide +kernel
theorem witness_DawnCommands_DriveRange : runs 0x02 24 [lf 0 4 1, lf 8 8 4096, lf 16 8 8192] noCase configured0 = true ∧
    after (.driveRange .A 0) (asked (ask 0x02 24 [lf 0 4 1, lf 8 8 4096, lf 16 8 8192]) configured0) (fun t => t.a.place.drive == some (1, 4096, 8192)) = true := by decide +kernel
theorem witness_DawnCommands_Identity : let fs := [lf 0 2 8191, lf 8 8 99]
    runs 0x03 16 fs (fun c => overId (prm c 0 2) 8192) configured0 = true ∧ after (.identity .A 0) (asked (ask 0x03 16 fs) configured0) (fun t => t.a.place.node == 8191 && t.a.place.serial == 99) = true := by
  decide +kernel
theorem test_identity_node_out_of_range : stops (.identity .A 0) (asked (ask 0x03 16 [lf 0 2 8192]) configured0) 13 = true := by decide +kernel
theorem witness_DawnCommands_Pairing : let fs := [lf 0 1 1, lf 1 1 0x0F]; let c := ask 0x04 8 fs
    runs 0x04 8 fs noCase configured0 = true ∧ prm c 0 1 ≤ 1 ∧
    setOk (prm c 0 1 == 1) (BitVec.ofNat 8 (prm c 1 1)) (if (getInst configured0 (Machine.other .A)).place.pairingGiven then (getInst configured0 (Machine.other .A)).place.outposts else 0) = true ∧
    3 < 8 ∧ 3 < configured0.outposts.length := by decide +kernel
theorem test_pairing_gives_outposts : after (.pairing .A 0) (asked (ask 0x04 8 [lf 0 1 1, lf 1 1 0x0F]) configured0)
    (fun t => (t.outposts.map (·.owner)) == [some .A, some .A, some .A, some .A, none, none, none, none]) = true := by decide +kernel
theorem test_pairing_refuses_three : after (.pairing .A 0) (asked (ask 0x04 8 [lf 0 1 1, lf 1 1 7]) configured0) (fun t => result0 t == some rInvalid) = true := by decide +kernel
theorem witness_DawnCommands_HostTrims : let fs := [lf 8 4 0]
    runs 0x05 16 fs (trimsCase configured0 []) configured0 = true ∧ prm (ask 0x05 16 fs) 8 4 ≤ 4096 ∧ goesOn (.hostTrims .A 0 []) (asked (ask 0x05 16 fs) configured0) = true := by decide +kernel

/-- Everything that DAWN_COMPLETE needs. -/
def placed0 : State := modInst .A (fun x => { x with place := { x.place with
  identityGiven := true, pairingGiven := true, drive := some (0, 0, 2 ^ 30),
  regions := [(0, { base := 0, size := 0x10000 }), (1, { base := 0x80000000, size := 0x400000000 }), (2, { base := 0, size := 0 }), (3, { base := 0, size := 0 }), (4, { base := 0, size := 0 }), (6, { base := 0, size := 0 })] } }) configured0
theorem witness_DawnCommands_DawnComplete : runs 0x06 0 [] noCase placed0 = true ∧ placed placed0.a.place = true ∧ 0x1000000 ≤ arrivalBytes placed0.a ∧
    after (.dawnComplete .A 0) (asked (ask 0x06 0 []) placed0) (fun t => t.a.hearth.stage == .discovery) = true := by decide +kernel
theorem test_dawn_complete_unplaced : after (.dawnComplete .A 0) (asked (ask 0x06 0 []) configured0) (fun t => result0 t == some rWrongState) = true := by decide +kernel

theorem witness_ContextLife_Class0Reserve : let fs := [lf 0 2 1]
    runs 0x10 8 fs noCase up = true ∧ prm (ask 0x10 8 fs) 0 2 ≤ 1024 ∧ reserveOk (getInst (asked (ask 0x10 8 fs) up) .A) 1 0 = true ∧
    after (.class0Reserve .A 0) (asked (ask 0x10 8 fs) up) (fun t => (mir t .A).foyer.c0Sequences == 1) = true := by decide +kernel
theorem test_context_open : after (.contextOpen .A 0) (asked (ask 0x20 96 openBlock) shut) (fun t => result0 t == some rOk && (getCtx (mir t .A) 0).isOpen && (getCtx (mir t .A) 0).irqTicks == 50) = true := by
  decide +kernel
theorem test_context_open_zero_capacity : after (.contextOpen .A 0) (asked (ask 0x20 96 (openBlock.take 3)) shut) (fun t => result0 t == some rInvalid && !(getCtx (mir t .A) 0).isOpen) = true := by
  decide +kernel
theorem witness_ContextLife_ContextConfigure : let fs := [lf 0x54 4 2, lf 4 4 9]; let c := ask 0x21 96 fs
    runs 0x21 96 fs openCase up = true ∧ configureInvalid c = false ∧ (mir up .A).kitchen.turn ≠ .evening ∧ (mir up .A).dir.models.any (·.stage == .armed) = false ∧
    after (.contextConfigure .A 0) (asked c up) (fun t => (getCtx (mir t .A) 0).cfg.deferLimit == 9) = true := by decide +kernel
theorem witness_ContextLife_ContextClose : let c := ask 0x22 8 []
    runs 0x22 8 [] closeCase up = true ∧ (prm c 0 4).testBit 0 = false ∧ seqsOfCtx (mir up .A) (winCtx 0) = [] ∧
    after (.contextClose .A 0) (asked c up) (fun t => (getCtx (mir t .A) 0).closing) = true := by decide +kernel
/-- CONTEXT_CLOSE waits for its end. -/
def closing0 : State := mirUp fun m => { m with mbox := [{ ask 0x22 8 [] with phase := .issued }], ctxs := modAt m.ctxs 0 fun x => { x with closing := true } }
theorem witness_ContextLife_ContextCloseDone : activeInst closing0 .A = true ∧ closeReady (mir closing0 .A) 0 = true ∧ closesOf (mir closing0 .A) 0 ≠ [] ∧
    after (.contextCloseDone .A 0) closing0 (fun t => !(getCtx (mir t .A) 0).isOpen && result0 t == some rOk) = true := by decide +kernel
theorem witness_ContextLife_ContextQuery : let fs := [lf 0 8 0x100]
    runs 0x23 8 fs (outCase up 0 128) up = true ∧ prm (ask 0x23 8 fs) 0 8 % 64 = 0 ∧ goesOn (.contextQuery .A 0) (asked (ask 0x23 8 fs) up) = true := by decide +kernel

/-- Reading slot A: a good magic needs the ROM's key digest, which the spec does not give (DESIGN CHOICE, log 4), so the verify stage is set by hand. -/
def verifying (left : List Bool) : State := dawnAt .verify (fun h => { h with left := left })
theorem witness_DawnStages_verify : (verifying [true]).a.hearth.stage = .verify ∧ trimReserved (verifying [true]).a.hearth.image.trims = false ∧
    (verifying [true]).a.hearth.left = true :: [] ∧ (verifying []).a.hearth.left = [] ∧ (verifying []).a.hearth.image.reservedZero = true ∧
    (modHearth .A (fun h => { h with image := { h.image with reservedZero := false } }) (verifying [])).a.hearth.image.reservedZero = false ∧ trimReserved (layout 16 [lf 12 4 1]) = true := by decide +kernel

/-! ### Recipes, plans, orders, models, epochs -/

/-- A recipe image with an inverse temperature of 1.0 and nothing else. -/
def recipe7 : List Byte := layout 2304 [lf 0 2 7, lf 4 4 0x3F800000]
theorem test_recipe_image_layout : (parseRecipe 7 recipe7).invTemperature = 0x3F800000 := by decide +kernel
theorem witness_RecipesAndPlans_RecipeDefine : let fs := [lf 0 2 7, lf 8 8 64]; let c := ask 0x30 16 fs
    runs 0x30 16 fs (recipeCase up .A recipe7) up = true ∧ prm c 8 8 % 64 = 0 ∧ recipeOk (prm c 0 2) (slice recipe7 0 recipeBytes) = true := by decide +kernel
theorem test_recipe_define : after (.recipeDefine .A 0 recipe7) (asked (ask 0x30 16 [lf 0 2 7, lf 8 8 64]) up) (fun t => (findRecipe (mir t .A) 7).isSome && result0 t == some rOk) = true := by decide +kernel
def recipeUp : State := mirUp fun m => { m with recipes := [{ id := 7 }] }
theorem witness_RecipesAndPlans_RecipeUndefine : let fs := [lf 0 2 7]
    runs 0x31 8 fs (undefineCase recipeUp.a) recipeUp = true ∧ (findRecipe (mir recipeUp .A) 7).isSome = true ∧ recipeNamed (mir recipeUp .A) 7 = false ∧
    after (.recipeUndefine .A 0) (asked (ask 0x31 8 fs) recipeUp) (fun t => (findRecipe (mir t .A) 7).isNone) = true := by decide +kernel
theorem test_recipe_undefine_missing : after (.recipeUndefine .A 0) (asked (ask 0x31 8 [lf 0 2 8]) recipeUp) (fun t => result0 t == some rNotFound) = true := by decide +kernel

def planFs : List (Nat × List Byte) := [lf 0 2 3, lf 4 4 1024, lf 8 8 0x10000]
theorem witness_RecipesAndPlans_PlanRegister : let c := ask 0x40 16 planFs
    runs 0x40 16 planFs noCase up = true ∧ planRefusal (mir up .A) (prm c 0 2) (prm c 8 8) (prm c 4 4) = none ∧
    after (.planRegister .A 0) (asked c up) (fun t => registered (mir t .A) 3 && result0 t == some rOk) = true := by decide +kernel
theorem test_plan_register_smallest_size : (planRefusal (mir up .A) 3 0x10000 192).isSome = true ∧ planRefusal (mir up .A) 3 0x10000 256 = none := by decide +kernel
/-- Plan 3 is registered and holds a slot that is being fetched. -/
def planUp : State := mirUp fun m => { m with lib := { m.lib with registry := [{ id := 3, addr := 0x10000, size := 1024 }], slots := [{ slot := 0, planId := 3 }] } }
theorem witness_RecipesAndPlans_PlanUnregister : let fs := [lf 0 2 3]
    runs 0x41 8 fs noCase planUp = true ∧ look 3 (mir planUp .A).lib.failed = none ∧ registered (mir planUp .A) 3 = true ∧ planNamed (mir planUp .A) 3 = false ∧
    after (.planUnregister .A 0) (asked (ask 0x41 8 fs) planUp) (fun t => !registered (mir t .A) 3) = true := by decide +kernel
theorem witness_RecipesAndPlans_PlanQuery : let fs := [lf 0 2 3]
    runs 0x42 8 fs noCase planUp = true ∧ planReport (mir planUp .A) 3 = some (1, 0, 0) ∧
    after (.planQuery .A 0) (asked (ask 0x42 8 fs) planUp) (fun t => result0 t == some rOk) = true := by decide +kernel
/-- A plan of one token, one class, one state and one mask. -/
def plan3 : List Byte :=
  let b := layout 1024 [lf 0 4 0x4E414C50, lf 4 2 1, lf 6 2 3, lf 8 4 1, lf 0x0C 2 1, lf 0x10 4 1, lf 0x14 4 1, lf 0x1C 4 1024, lf 0x20 8 0x100, lf 0x28 8 0x140, lf 0x30 8 0x180, lf 0x38 8 0x380, lf 0x180 1 0]
  zeroAt b 0x40 4 |>.take 0x40 |>.append (leBytes 4 (crc32c b)) |>.append (b.drop 0x44)
set_option maxRecDepth 20000 in
theorem test_plan_passes_its_checks : planFails 3 1024 plan3 = 0 ∧ planFails 4 1024 plan3 = 1 := by decide +kernel
set_option maxRecDepth 20000 in
theorem witness_RecipesAndPlans_PlanFetched : activeInst planUp .A = true ∧ (mir planUp .A).lib.registry.find? (·.id == 3) = some { id := 3, addr := 0x10000, size := 1024 } ∧
    findPlan (mir planUp .A) 3 = some { slot := 0, planId := 3 } ∧ planFails 3 1024 (slice plan3 0 1024) = 0 ∧ planFails 3 1024 (slice [] 0 1024) ≠ 0 := by decide +kernel
theorem test_plan_fetch_fails : after (.planFetchDone .A 3 []) planUp (fun t => look 3 (mir t .A).lib.failed == some 1 && !registered (mir t .A) 3) = true := by decide +kernel
set_option maxRecDepth 20000 in
theorem test_plan_fetched : after (.planFetchDone .A 3 plan3) planUp (fun t => (findPlan (mir t .A) 3).any fun x => x.plan.isSome) = true := by decide +kernel

theorem witness_OrdersPostEvents_Cancel : let fs := [lf 8 8 5]; let s := with5 .decoding id
    runs 0x50 16 fs cancelCase s = true ∧ prm (ask 0x50 16 fs) 0 1 = 0 ∧ cancelTargets (mir s .A) (winCtx 0) 0 5 = [5] ∧ (seqOf s .A 5).r.state.live = true ∧
    after (.cancel .A 0) (asked (ask 0x50 16 fs) s) (fun t => (getInst t .A).hall.events.map (·.kind) == [.cancel (some 0)]) = true := by decide +kernel
theorem test_cancel_of_ended : after (.cancel .A 0) (asked (ask 0x50 16 [lf 8 8 5]) (with5 .finished id)) (fun t => result0 t == some rWrongState) = true := by decide +kernel
theorem witness_OrdersPostEvents_Park : let fs := [lf 0 4 5, lf 8 8 99]; let s := with5 .decoding id
    runs 0x51 16 fs (orderCase true) s = true ∧ (namedSeq (mir s .A) (winCtx 0) 5).isSome = true ∧ (prm (ask 0x51 16 fs) 4 4).testBit 0 = false ∧
    after (.park .A 0) (asked (ask 0x51 16 fs) s) (fun t => (getInst t .A).hall.events.map (·.kind) == [.park 99 (some 0)]) = true := by decide +kernel
theorem witness_OrdersPostEvents_Resume : let fs := [lf 0 4 5]; let s := with5 .parked id
    runs 0x52 8 fs (orderCase false) s = true ∧ (mir s .A).kitchen.turn = .service ∧ (namedSeq (mir s .A) (winCtx 0) 5).isSome = true ∧ (prm (ask 0x52 8 fs) 4 4).testBit 0 = false ∧
    after (.resume .A 0) (asked (ask 0x52 8 fs) s) (fun t => ((getInst t .A).hall.events.map (·.kind)).getLast? == some (.resume (some 0))) = true := by decide +kernel
theorem witness_OrdersPostEvents_Extend : let fs := [lf 0 4 5, lf 4 4 2, lf 8 8 0x60000]; let s := with5 .paused id; let u := asked (ask 0x53 24 fs) s
    runs 0x53 24 fs noCase s = true ∧ extendCase u .A [8, 9] (ask 0x53 24 fs) = none ∧ ((namedSeq (mir s .A) (winCtx 0) 5).map (·.r.state)) = some .paused ∧
    extendInvalid (mir s .A) (seqOf s .A 5).r (prm (ask 0x53 24 fs) 4 4) (prm (ask 0x53 24 fs) 8 8) (prm (ask 0x53 24 fs) 16 1) = false ∧
    after (.extend .A 0 [8, 9]) (asked (ask 0x53 24 fs) s) (fun t => (getInst t .A).hall.events.map (·.kind) == [.extend [8, 9] 0 0 0 0]) = true := by decide +kernel
theorem test_extend_not_paused : after (.extend .A 0 [8]) (asked (ask 0x53 24 [lf 0 4 5, lf 4 4 1]) (with5 .decoding id)) (fun t => result0 t == some rWrongState) = true := by decide +kernel
theorem witness_OrdersPostEvents_QuerySequence : let fs := [lf 0 4 5, lf 8 8 0x400]; let s := with5 .parked id
    mayRefuse .A 0 0x54 (queryCase (asked (ask 0x54 16 fs) s)) (asked (ask 0x54 16 fs) s) (ask 0x54 16 fs) = true ∧ queryCase (asked (ask 0x54 16 fs) s) (ask 0x54 16 fs) = none ∧ prm (ask 0x54 16 fs) 8 8 % 64 = 0 ∧ (namedSeq (mir s .A) (winCtx 0) 5).isSome = true ∧
    goesOn (.querySequence .A 0) (asked (ask 0x54 16 fs) s) = true := by decide +kernel
theorem witness_OrdersPostEvents_Migrate : let fs := [lf 0 4 5, lf 8 4 40]; let s := with5 .paused id
    runs 0xA0 16 fs migrateCase s = true ∧ (namedSeq (mir s .A) (winCtx 0) 5).isSome = true ∧ migrateWrong s.a (seqOf s .A 5).r 40 = false ∧ (mir s .A).outXfers.length < 64 ∧
    after (.migrate .A 0) (asked (ask 0xA0 16 fs) s) (fun t => (getInst t .A).hall.events.map (·.kind) == [.migrateOut 0 false 40]) = true := by decide +kernel

/-- The descriptor of model 2. -/
def model2 : List Byte := layout 64 [lf 0 1 2, lf 2 1 4, lf 4 4 1000, lf 8 4 4096]
theorem witness_ModelLife_ModelDescribe : runs 0x60 8 [lf 0 8 64] (describeCase up model2) up = true ∧ (getModel (mir up .A) 2).state = .empty ∧ fld (slice model2 0 64) 0 1 % 64 = 2 ∧
    4 ≤ (parseModel (slice model2 0 64)).pageSizeLog2 ∧ (parseModel (slice model2 0 64)).pageSizeLog2 ≤ 8 ∧ (parseModel (slice model2 0 64)).vocabMax ≠ 0 ∧
    after (.modelDescribe .A 0 model2) (asked (ask 0x60 8 [lf 0 8 64]) up) (fun t => (getModel (mir t .A) 2).state == .described) = true := by decide +kernel
theorem test_model_over_vocabulary_limit : after (.modelDescribe .A 0 (layout 64 [lf 0 1 2, lf 2 1 8, lf 4 4 524289])) (asked (ask 0x60 8 [lf 0 8 64]) up)
    (fun t => (getModel (mir t .A) 2).state == .refused) = true := by decide +kernel
theorem witness_ModelLife_ModelQuery : let fs := [lf 0 1 2, lf 8 8 64]
    runs 0x61 16 fs (fun c => (modelCase c).or (outCase up 8 64 c)) up = true ∧ prm (ask 0x61 16 fs) 8 8 % 64 = 0 ∧ goesOn (.modelQuery .A 0) (asked (ask 0x61 16 fs) up) = true := by decide +kernel
/-- Model 2 in a state and a stage. -/
def modelAt (st : ModelState) (g : StageState) : State := mirUp fun m => { m with dir := { m.dir with models := modAt m.dir.models 2 fun x => { x with state := st, stage := g, vocabMax := 1000, pageSizeLog2 := 4 } } }
theorem witness_ModelLife_ModelForget : let s := modelAt .described .none
    runs 0x62 8 [lf 0 1 2] modelCase s = true ∧ (getModel (mir s .A) 2).state = .described ∧ liveOfModel (mir s .A) 2 = 0 ∧
    after (.modelForget .A 0) (asked (ask 0x62 8 [lf 0 1 2]) s) (fun t => (getModel (mir t .A) 2).state == .empty) = true := by decide +kernel
theorem witness_ModelLife_ModelLoaded : let s := modelAt .loadPending .none
    runs 0x63 8 [lf 0 1 2] modelCase s = true ∧ (getModel (mir s .A) 2).state = .loadPending ∧
    after (.modelLoaded .A 0) (asked (ask 0x63 8 [lf 0 1 2]) s) (fun t => (getModel (mir t .A) 2).state == .resident) = true := by decide +kernel
theorem witness_ModelLife_ModelLoadDeclined : let s := modelAt .loadPending .none
    runs 0x64 8 [lf 0 1 2] modelCase s = true ∧ (getModel (mir s .A) 2).state = .loadPending ∧
    after (.modelLoadDeclined .A 0) (asked (ask 0x64 8 [lf 0 1 2]) s) (fun t => (getModel (mir t .A) 2).state == .described) = true := by decide +kernel
theorem witness_ModelLife_ModelUnloaded : let s := modelAt .evicting .none
    runs 0x65 8 [lf 0 1 2] modelCase s = true ∧ (getModel (mir s .A) 2).state = .evicting ∧
    after (.modelUnloaded .A 0) (asked (ask 0x65 8 [lf 0 1 2]) s) (fun t => (getModel (mir t .A) 2).state == .described) = true := by decide +kernel
theorem witness_ModelLife_ModelPin : let s := modelAt .resident .none; let fs := [lf 0 1 2, lf 1 1 1]
    runs 0x66 8 fs modelCase s = true ∧ (getModel (mir s .A) 2).state ≠ .empty ∧ prm (ask 0x66 8 fs) 1 1 ≤ 1 ∧
    after (.modelPin .A 0) (asked (ask 0x66 8 fs) s) (fun t => (getModel (mir t .A) 2).pinned) = true := by decide +kernel

def epoch2 : List Byte := layout 64 [lf 0 1 2, lf 2 2 9, lf 4 2 1, lf 8 4 1000]
theorem witness_EpochLife_EpochStage : let s := modelAt .resident .none
    runs 0x70 8 [lf 0 8 64] (stageCase s epoch2) s = true ∧ fld (slice epoch2 0 64) 0 1 % 64 = 2 ∧ stageRefusal (instVocabLimit s .A) (getModel (mir s .A) 2) (parseEpoch (slice epoch2 0 64)) = none ∧
    after (.epochStage .A 0 epoch2) (asked (ask 0x70 8 [lf 0 8 64]) s) (fun t => (getModel (mir t .A) 2).stage == .staged && (getModel (mir t .A) 2).staged.epoch == 9) = true := by decide +kernel
theorem witness_EpochLife_EpochReady : let s := modelAt .resident .staged
    runs 0x71 8 [lf 0 1 2] modelCase s = true ∧ (getModel (mir s .A) 2).state ≠ .empty ∧ (getModel (mir s .A) 2).stage = .staged ∧ slotsFree (mir s .A) ≠ 0 ∧
    after (.epochReady .A 0) (asked (ask 0x71 8 [lf 0 1 2]) s) (fun t => (getModel (mir t .A) 2).stage == .ready) = true := by decide +kernel
/-- Every weight slot is taken. -/
def fullSlots : State := mirUp fun m => { m with dir := { m.dir with models := m.dir.models.zipIdx.map fun p => if p.2 < 8 then { p.1 with state := .resident, stage := if p.2 = 2 then .staged else .none, pinned := true } else p.1 } }
theorem witness_EpochLife_EpochReady_no_slot : slotsFree (mir fullSlots .A) = 0 ∧ (getModel (mir fullSlots .A) 2).stage = .staged ∧
    after (.epochReady .A 0) (asked (ask 0x71 8 [lf 0 1 2]) fullSlots) (fun t => result0 t == some rNoSlot) = true := by decide +kernel
theorem witness_EpochLife_EpochCommit : let s := modelAt .resident .ready
    runs 0x72 8 [lf 0 1 2] modelCase s = true ∧ commitAllowed (mir s .A) 2 = true ∧
    after (.epochCommit .A 0) (asked (ask 0x72 8 [lf 0 1 2]) s) (fun t => (getModel (mir t .A) 2).stage == .armed) = true := by decide +kernel
theorem witness_EpochLife_EpochUnstage : let s := modelAt .resident .ready; let s2 := modelAt .resident .staged
    runs 0x73 8 [lf 0 1 2] modelCase s = true ∧ (getModel (mir s .A) 2).stage = .ready ∧ (getModel (mir s2 .A) 2).stage = .staged ∧ runs 0x73 8 [lf 0 1 2] modelCase s2 = true ∧
    after (.epochUnstage .A 0) (asked (ask 0x73 8 [lf 0 1 2]) s) (fun t => (getModel (mir t .A) 2).stage == .none) = true := by decide +kernel
theorem witness_EpochLife_EpochRetire : let s := modModel .A 2 (fun x => { x with old := some {} }) (modelAt .resident .none)
    runs 0x74 8 [lf 0 1 2] modelCase s = true ∧ (getModel (mir s .A) 2).state ≠ .empty ∧ (getModel (mir s .A) 2).old = some {} ∧
    goesOn (.epochRetire .A 0) (asked (ask 0x74 8 [lf 0 1 2]) s) = true := by decide +kernel

/-! ### The turn of the day, the pool, durability, the Study's commands -/

def turnIs (t : Turn) : State := modKit .A (fun k => { k with turn := t, quiesced := true, eveningSent := true }) up
theorem witness_DayAndPool_Evening : runs 0x80 0 [] noCase up = true ∧ (mir up .A).kitchen.turn = .service ∧
    after (.evening .A 0) (asked (ask 0x80 0 []) up) (fun t => (mir t .A).kitchen.turn == .evening) = true := by decide +kernel
theorem witness_DayAndPool_EveningComplete : let s := turnIs .evening
    activeInst s .A = true ∧ (mir s .A).kitchen.turn = .evening ∧ (mir s .A).kitchen.eveningSent = true ∧ pendingKind (getInst s .A) eveningEvent = false ∧
    after (.eveningComplete .A) s (fun t => (mir t .A).kitchen.turn == .training && (getInst t .A).stair.role == 2) = true := by decide +kernel
theorem witness_DayAndPool_Morning : let s := turnIs .training
    runs 0x81 8 [] morningCase s = true ∧ setChanges (getInst s .A) (morningSet (getInst s .A) (ask 0x81 8 [])) = false ∧ morningWrong s .A (morningSet (getInst s .A) (ask 0x81 8 [])) = false ∧
    after (.morning .A 0) (asked (ask 0x81 8 []) s) (fun t => (mir t .A).kitchen.turn == .morning && (mir t .A).kitchen.morningStage == 2) = true := by decide +kernel
theorem test_morning_in_service : after (.morning .A 0) (asked (ask 0x81 8 []) up) (fun t => result0 t == some rWrongState) = true := by decide +kernel
theorem witness_DayAndPool_TurnCost : let fs := [lf 0 8 64, lf 8 4 1]
    runs 0x82 16 fs (outCase up 0 (32 * (openCtxs (mir up .A)).length)) up = true ∧ prm (ask 0x82 16 fs) 0 8 % 64 = 0 ∧ (openCtxs (mir up .A)).length ≤ prm (ask 0x82 16 fs) 8 4 ∧
    after (.turnCost .A 0) (asked (ask 0x82 16 fs) up) (fun t => result0 t == some rOk) = true := by decide +kernel
/-- Two free pages of 64 KiB in training. -/
def poolUp : State := modInst .A (fun x => { x with place := { x.place with regions := [(4, { base := 0x1000000, size := 0x20000, frameLog2 := 16 })] } }) (turnIs .training)
theorem witness_DayAndPool_PoolLend : let fs := [lf 0 8 64, lf 8 4 4]
    runs 0x83 16 fs (outCase poolUp 0 (8 * (extents (getInst poolUp .A)).length)) poolUp = true ∧ prm (ask 0x83 16 fs) 0 8 % 64 = 0 ∧ (mir poolUp .A).kitchen.turn = .training ∧
    lentPages (mir poolUp .A) = [] ∧ (extents (getInst poolUp .A)).length ≤ 4 := by decide +kernel
theorem test_pool_lend : after (.poolLend .A 0) (asked (ask 0x83 16 [lf 0 8 64, lf 8 4 4]) poolUp) (fun t => result0 t == some rOk && lentPages (mir t .A) == [0, 1]) = true := by decide +kernel
theorem witness_DayAndPool_PoolReturn : let s := modMir .A (fun m => { m with pantry := { used := [(0, .lent)] } }) poolUp
    runs 0x84 0 [] noCase s = true ∧ after (.poolReturn .A 0) (asked (ask 0x84 0 []) s) (fun t => lentPages (mir t .A) == []) = true := by decide +kernel

theorem witness_DurabilityCommands_Snapshot : runs 0x90 8 [lf 0 4 0x3FF] (fun c => tooWide (prm c 0 4) 10) up = true ∧ (getInst up .A).rel.driveFailed = false ∧ (getInst up .A).rel.bulk = none ∧
    goesOn (.snapshot .A 0) (asked (ask 0x90 8 [lf 0 4 0x3FF]) up) = true := by decide +kernel
def driveGone : State := modRel .A (fun r => { r with driveFailed := true }) up
def bulkRuns : State := modRel .A (fun r => { r with bulk := some { seqno := 1, mask := 0, replay := 1, cmd := none, image := {}, began := 0, skip := 0 } }) up
theorem witness_DurabilityCommands_Snapshot_waits : runs 0x90 8 [] (fun c => tooWide (prm c 0 4) 10) bulkRuns = true ∧ (getInst bulkRuns .A).rel.bulk ≠ none ∧
    (getInst bulkRuns .A).rel.driveFailed = false := by decide +kernel
theorem witness_DurabilityCommands_Snapshot_failed : runs 0x90 8 [] (fun c => tooWide (prm c 0 4) 10) driveGone = true ∧ (getInst driveGone .A).rel.driveFailed = true ∧
    after (.snapshot .A 0) (asked (ask 0x90 8 []) driveGone) (fun t => result0 t == some rIoError) = true := by decide +kernel
theorem test_snapshot_reserved_mask : stops (.snapshot .A 0) (asked (ask 0x90 8 [lf 0 4 0x400]) up) 12 = true := by decide +kernel
theorem witness_DurabilityCommands_LossBound : runs 0x92 8 [lf 0 4 10] noCase up = true ∧ after (.lossBound .A 0) (asked (ask 0x92 8 [lf 0 4 10]) up) (fun t => (getInst t .A).rel.lossBound == 10) = true := by decide +kernel
theorem witness_DurabilityCommands_DriveRetry : runs 0x93 0 [] noCase driveGone = true ∧ (getInst driveGone .A).rel.drive = [] ∧
    after (.driveRetry .A 0) (asked (ask 0x93 0 []) driveGone) (fun t => (getInst t .A).rel.drive.length == 1) = true := by decide +kernel
/-- Bulk slot 0 holds an image of step 1, which the superblock names with its digest; its bytes no proof sees (DESIGN CHOICE, log 18). -/
def slot1 : BulkSlot := { seqno := 1, mask := 0x3FF, replay := 1, image := { lastStep := 1 } }
/-- A superblock copy with the check that it should have; no proof sees its value (DESIGN CHOICE, log 18). -/
def sealed (b : Superblock) : Superblock := { b with check := superCheck b }
def super1 : Superblock := sealed { address := 0, split := false, seqno := 1, slot := false, bulkSeqno := 1, digest := slotDigest slot1, replay := 1 }
/-- A range that no image is in, one whose image has its digest, one whose slot is empty, one of the other pairing mode, one whose only copy is damaged. -/
def blankDisk : Disk := {}
def goodDisk : Disk := { super0 := some super1, slot0 := some slot1 }
def lostDisk : Disk := { super0 := some (sealed { super1 with slot := true }), slot0 := some slot1 }
def splitDisk : Disk := { super0 := some (sealed { super1 with split := true }), slot0 := some slot1 }
def brokenDisk : Disk := { super0 := some { super1 with check := superCheck super1 + 1 }, slot0 := some slot1 }
theorem sealed_valid (b : Superblock) (h : b.magic = 0x4B505553) : superValid (sealed b) = true := by simp [superValid, sealed, superCheck, h]
theorem one_super (b : Superblock) (x : Option BulkSlot) (h : b.magic = 0x4B505553) : curSuper { super0 := some (sealed b), slot0 := x } = some (sealed b) := by
  simp [curSuper, Option.filter, sealed_valid b h]
theorem good_super : curSuper goodDisk = some super1 := one_super _ _ rfl
theorem lost_super : curSuper lostDisk = some (sealed { super1 with slot := true }) := one_super _ _ rfl
theorem split_super : curSuper splitDisk = some (sealed { super1 with split := true }) := one_super _ _ rfl
theorem good_slot : curSlot goodDisk = some slot1 := by unfold curSlot; rw [good_super]; rfl
theorem lost_slot : curSlot lostDisk = none := by unfold curSlot; rw [lost_super]; rfl
theorem good_entries : ringEntries goodDisk = [] := by unfold ringEntries replayBlocks; rw [good_super]; rfl
/-- With no block in the ring, a replay of the range is the image of its slot. -/
theorem good_image : replayed goodDisk = { lastStep := 1 } := by simp [replayed, curImage, curSlot, ringEntries, replayBlocks, good_super]; rfl
theorem split_image : replayed splitDisk = { lastStep := 1 } := by simp [replayed, curImage, curSlot, ringEntries, replayBlocks, split_super]; rfl
theorem test_damaged_superblock_is_no_copy : curSuper brokenDisk = none := by simp [curSuper, brokenDisk, Option.filter, superValid, superCheck, super1, sealed]
def onDisk (d : Disk) (s : State) : State := modRel .A (fun r => { r with disk := d }) s
def restoreAsk (d : Disk) : State := asked (ask 0x91 8 [lf 0 4 1]) (onDisk d shut)
theorem witness_DurabilityCommands_Restore : (∀ d ∈ [blankDisk, goodDisk, lostDisk], starts .A 0 0x91 (fun c => tooWide (prm c 0 4) 1) (restoreAsk d) (ask 0x91 8 [lf 0 4 1]) = true ∧
      restoreOpen (restoreAsk d) .A = true ∧ (getInst (restoreAsk d) .A).rel.driveFailed = false) ∧ curSuper blankDisk = none ∧ imageTooWide (restoreAsk blankDisk) .A (replayed blankDisk) = false ∧
    after (.restore .A 0) (restoreAsk blankDisk) (fun t => (getInst t .A).rel.restore == .running && (getInst t .A).rel.restoreForce && (getInst t .A).rel.drive.map (·.op) == [.restore 0]) = true := by
  refine ⟨?_, by decide +kernel⟩
  intro d hd
  simp only [List.mem_cons, List.not_mem_nil, or_false] at hd
  rcases hd with rfl | rfl | rfl <;> decide +kernel
theorem witness_DurabilityCommands_Restore_fits : ((curSuper goodDisk).any fun b => b.split != (getInst (restoreAsk goodDisk) .A).place.split) = false ∧
    imageTooWide (restoreAsk goodDisk) .A (replayed goodDisk) = false := by
  rw [good_super, good_image]; exact ⟨rfl, by decide +kernel⟩
theorem witness_DurabilityCommands_Restore_refused :
    let busy := asked (ask 0x91 8 [lf 0 4 1]) up; let gone := asked (ask 0x91 8 [lf 0 4 1]) (modRel .A (fun r => { r with driveFailed := true }) shut)
    starts .A 0 0x91 (fun c => tooWide (prm c 0 4) 1) busy (ask 0x91 8 [lf 0 4 1]) = true ∧ restoreOpen busy .A = false ∧ after (.restore .A 0) busy (fun t => result0 t == some rWrongState) = true ∧
    restoreOpen gone .A = true ∧ after (.restore .A 0) gone (fun t => result0 t == some rIoError) = true ∧
    restoreOpen (restoreAsk splitDisk) .A = true := by decide +kernel
theorem witness_DurabilityCommands_Restore_unfit : ((curSuper splitDisk).any fun b => b.split != (getInst (restoreAsk splitDisk) .A).place.split) = true := by
  rw [split_super]; rfl

/-- A restore runs; the twin's log holds the pairs of `log`. -/
def restoring (force : Bool) (d : Disk) (log : List (Nat × BitVec 384 × Nat)) : State :=
  modInst .B (fun x => { x with hearth := { x.hearth with stage := .ready }, place := { x.place with drive := some (0, 0, 0) },
                                rel := { x.rel with disk := { digestLog := log.zipIdx.map fun p => (p.2, digestEntry p.1), digestCount := log.length } } })
    (modRel .A (fun r => { r with restore := .running, restoreCmd := some 0, restoreForce := force, disk := d, drive := [{ op := .restore 0, start := 0 }] }) { up with pathUp := true })
/-- The digest that the instance's own drive gives for step 1; no proof sees its value (DESIGN CHOICE, log 18). -/
def ownDigest : BitVec 384 := digestAt goodDisk 1
theorem witness_DurabilityCommands_RestoreEnds_none : running (restoring false blankDisk []) .A = true ∧ (restoring false blankDisk []).a.rel.restore = .running ∧ (restoring false blankDisk []).a.rel.restoreCmd = some 0 ∧
    curSuper (restoring false blankDisk []).a.rel.disk = none := by decide +kernel
theorem witness_DurabilityCommands_RestoreEnds_lost : curSuper lostDisk ≠ none ∧ digestRight lostDisk = false := by
  unfold digestRight; rw [lost_super, lost_slot]; exact ⟨nofun, rfl⟩
theorem witness_DurabilityCommands_RestoreEnds_right : curSuper goodDisk ≠ none ∧ digestRight goodDisk = true := by
  unfold digestRight; rw [good_super, good_slot]; exact ⟨nofun, by simp [super1, sealed]⟩
/-- The comparison of the good range with a log of one pair, or of that and a later one, of the instance's own digest. -/
theorem compared (g : BitVec 384) : compareDigest (restoring false goodDisk [(1, g, peerAddr up.a)]) .A = if g != ownDigest then .check 3 else .verified := by
  have h : digestRead (digestEntry (1, g, peerAddr up.a)) = (1, g, peerAddr up.a) := Laws.digestRead_entry 1 g _ (by decide) (by decide +kernel)
  have l : (getInst (restoring false goodDisk [(1, g, peerAddr up.a)]) (Machine.other .A)).rel.disk.digestLog = [(0, digestEntry (1, g, peerAddr up.a))] := rfl
  have k : (getInst (restoring false goodDisk [(1, g, peerAddr up.a)]) .A).rel.disk = goodDisk := rfl
  have p : peerAddr (getInst (restoring false goodDisk [(1, g, peerAddr up.a)]) .A) = peerAddr up.a := rfl
  have q : replicaReached (restoring false goodDisk [(1, g, peerAddr up.a)]) .A = true := rfl
  have z : stepReached goodDisk 1 = true := by unfold stepReached; rw [good_entries, good_slot]; rfl
  unfold compareDigest
  simp only [l, k, p, q, List.map_cons, List.map_nil, h, List.filter_cons, List.filter_nil, beq_self_eq_true, if_true, z, List.foldl_cons, List.foldl_nil, good_image]
  rfl
theorem test_restore_without_image_fails : after (.restoreComplete .A) (restoring false blankDisk []) (fun t => (getInst t .A).rel.restore == .failed && (getInst t .A).rel.restoreCheck == 1) = true := by decide +kernel

/-! ### Study commands, directions, images -/

def tracing (on : Bool) : State := modInst .A (fun x => { x with place := { x.place with regions := [(5, { base := 0x100000, size := 0x10000 })] }, study := { x.study with traceOn := on } }) up
theorem witness_StudyCommands_Trace_mask : let fs := [lf 0 1 1, lf 4 4 5]; let s := tracing true
    runs 0xB1 8 fs noCase s = true ∧ prm (ask 0xB1 8 fs) 4 4 < 1024 ∧ prm (ask 0xB1 8 fs) 0 1 = 1 ∧ (getInst s .A).study.traceOn = true ∧
    after (.trace .A 0) (asked (ask 0xB1 8 fs) s) (fun t => (getInst t .A).study.traceMask == 5) = true := by decide +kernel
theorem witness_StudyCommands_Trace_begin : let fs := [lf 0 1 1, lf 4 4 1023]; let s := tracing false
    runs 0xB1 8 fs noCase s = true ∧ prm (ask 0xB1 8 fs) 4 4 < 1024 ∧ (getInst s .A).study.traceOn = false ∧ traceCap (getInst s .A) ≠ 0 ∧
    after (.trace .A 0) (asked (ask 0xB1 8 fs) s) (fun t => (getInst t .A).study.traceOn) = true := by decide +kernel
theorem witness_StudyCommands_Trace_end : let s := tracing true
    runs 0xB1 8 [] noCase s = true ∧ prm (ask 0xB1 8 []) 0 1 = 0 ∧ (getInst s .A).study.traceOn = true ∧
    after (.trace .A 0) (asked (ask 0xB1 8 []) s) (fun t => !(getInst t .A).study.traceOn) = true := by decide +kernel
theorem witness_StudyCommands_Trace_off : runs 0xB1 8 [] noCase (tracing false) = true ∧ (getInst (tracing false) .A).study.traceOn = false ∧
    after (.trace .A 0) (asked (ask 0xB1 8 []) (tracing false)) (fun t => result0 t == some rOk) = true := by decide +kernel
theorem witness_StudyCommands_Counters : let fs := [lf 0 4 1, lf 8 8 0x1000]; let c := ask 0xB2 16 fs
    runs 0xB2 16 fs (fun c => if prm c 0 4 = 0 then none else outCase up 8 (256 * popCount 32 (prm c 0 4)) c) up = true ∧ prm c 0 4 ≠ 0 ∧ prm c 8 8 % 64 = 0 ∧
    after (.counters .A 0) (asked c up) (fun t => result0 t == some rOk) = true := by decide +kernel
theorem witness_StudyCommands_Watch : let fs := [lf 0 4 5, lf 4 4 4, lf 0x10 8 0x100000, lf 0x18 4 0x100000]; let c := ask 0xB0 32 fs; let s := with5 .decoding id
    runs 0xB0 32 fs (watchCase s) s = true ∧ prm c 8 1 < 5 ∧ prm c 0x10 8 % 64 = 0 ∧ (namedSeq (mir s .A) (winCtx 0) 5).isSome = true ∧ seqT (seqOf s .A 5).r ≤ prm c 4 4 ∧
    ((getInst s .A).study.watches.filter (·.context == winCtx 0)).length < 4 ∧ (seqOf s .A 5).r.state.live = true ∧ watchSize (mir s .A) (seqOf s .A 5).r (prm c 8 1) ≤ prm c 0x18 4 ∧
    after (.watch .A 0) (asked c s) (fun t => (getInst t .A).study.watches.length == 1) = true := by decide +kernel
theorem witness_DirectionsAndImages_Directions_none : runs 0xA1 16 [lf 0 1 63] (directionsCase up []) up = true ∧ prm (ask 0xA1 16 [lf 0 1 63]) 4 4 = 0 ∧
    goesOn (.directionsSet .A 0 []) (asked (ask 0xA1 16 [lf 0 1 63]) up) = true := by decide +kernel
def knowsPeer9 : State := modStair .A (fun t => { t with peers := [{ addr := 9 }] }) up
theorem witness_DirectionsAndImages_Directions : let fs := [lf 0 1 2, lf 4 4 1]; let c := ask 0xA1 16 fs
    runs 0xA1 16 fs (directionsCase knowsPeer9 (leBytes 4 9)) knowsPeer9 = true ∧ prm c 4 4 ≠ 0 ∧ prm c 4 4 ≤ 16 ∧
    ((directionEntries (prm c 4 4) (leBytes 4 9)).all fun a => (getInst knowsPeer9 .A).stair.peers.any (·.addr == a)) = true ∧
    after (.directionsSet .A 0 (leBytes 4 9)) (asked c knowsPeer9) (fun t => look 2 (mir t .A).directions == some [9]) = true := by decide +kernel
theorem witness_DirectionsAndImages_ImageWrite : let fs := [lf 8 4 4096, lf 12 4 1]; let c := ask 0xC0 16 fs
    runs 0xC0 16 fs (imageCase up []) up = true ∧ prm c 8 4 ≤ 16777216 ∧ bootTrial up.flash.boot = false ∧ up.a.hearth.imgWrite = none ∧ up.b.hearth.imgWrite = none := by decide +kernel
def programming (prefer : Bool) : State := modHearth .A (fun h => { h with imgWrite := some { cmd := 0, slot := true, prefer := prefer, img := [1#8], programming := true } }) up
theorem witness_DirectionsAndImages_ImageProgramDone : ((programming true).a.hearth.imgWrite.any fun g => g.programming) = true ∧
    after (.imageProgramDone .A false) (programming true) (fun t => slotOf t.flash true == some [] && t.a.hearth.imgWrite == none) = true := by decide +kernel
theorem test_bad_image_is_not_preferred : after (.imageProgramDone .A true) (programming true) (fun t => slotOf t.flash true == some [1#8] && t.flash.boot == up.flash.boot) = true := by decide +kernel
theorem witness_DirectionsAndImages_FirmwareConfirm : runs 0xC1 0 [] noCase up = true ∧ after (.firmwareConfirm .A 0) (asked (ask 0xC1 0 []) up) (fun t => t.flash.waiting.getLast? == some (.A, .confirm 0)) = true := by decide +kernel
/-- The confirmation waits for the grant, first in the queue. -/
def confirming : State := let s := asked { ask 0xC1 0 [] with phase := .issued } up; { s with flash := { s.flash with holder := none, waiting := [(.A, .confirm 0)], boot := { magic := 1, trial := 0x5A, seqno := 4 } } }
theorem witness_DirectionsAndImages_FirmwareConfirm_grant : confirming.flash.holder = none ∧ confirming.flash.waiting = (.A, .confirm 0) :: [] ∧
    after .flashGrant confirming (fun t => t.flash.boot.trial == 0 && t.flash.holder == none && (mir t .A).mbox == []) = true := by decide +kernel

/-! ### Rings, the Foyer's timers, composition -/

theorem witness_Rings_RingDoorbells : porchTakes up .A = true ∧ (getCtx (mir up .A) 0).isOpen = true ∧ ringDiff 16 (getCtx (mir up .A) 0).sqHead ≤ (getCtx (mir up .A) 0).cfg.sqEntries ∧
    ringDiff (getCtx (mir up .A) 0).cqTail 0 ≤ (getCtx (mir up .A) 0).cfg.cqEntries ∧ (getCtx (mir up .A) 5).isOpen = false := by decide +kernel
theorem test_doorbell_past_ring : stops (.sqTailDoorbell .A 0 17) up 11 = true := by decide +kernel
theorem test_doorbell : after (.sqTailDoorbell .A 0 16) up (fun t => (getCtx (mir t .A) 0).sqTail == 16) = true := by decide +kernel

/-- Context 0 of an active instance. -/
def ctx0 (f : Ctx → Ctx) (s : State) : State := modMir .A (fun m => { m with ctxs := modAt m.ctxs 0 f }) s
/-- An entry that carries a request for context 0, model 0: a prompt of two tokens at 0x40000, a trail at 0x50000. -/
def request1 : List Byte := layout 256 [lf 0 8 77, lf 0x14 2 1, lf 0x18 4 4, lf 0x20 8 1000, lf 0x2C 4 2, lf 0x30 8 0x40000, lf 0x38 8 0x50000, lf 0x40 4 4]
def entryOf (k : Nat) : List Byte := leBytes 1 k ++ List.replicate 63 0#8 ++ (if k = 1 then request1 else List.replicate 256 0#8)
def submitting : State := ctx0 (fun x => { x with sqTail := 1 }) (mirUp fun m => { m with
  recipes := [{ id := 0 }]
  dir := { m.dir with models := modAt m.dir.models 0 fun x => { x with state := .resident, maxPositions := 100, vocabMax := 1000, pageSizeLog2 := 4, committed := some { epoch := 0, vocab := 1000 } } } })
theorem witness_EntriesRead : sqReads submitting .A 0 = true ∧ entryReserved (entryOf 0) = false ∧ fld (entryOf 0) 0 1 = 0 ∧ entryReserved (entryOf 2) = false ∧ 1 < fld (entryOf 2) 0 1 := by
  decide +kernel
theorem witness_EntriesRead_request : let r := parseRequest (slice (entryOf 1) 0x40 256)
    entryReserved (entryOf 1) = false ∧ fld (entryOf 1) 0 1 = 1 ∧ requestReserved (slice (entryOf 1) 0x40 256) = false ∧
    (hostWriteCase submitting r.promptAddr (words 4 [3, 5])).or (hostWriteCase submitting r.stopBlockAddr []) = none ∧ requestCase (placeBuffers r [3, 5] [] submitting) .A r = none := by
  decide +kernel
theorem test_submit : after (.submitEntry .A 0 (entryOf 1) [3, 5] []) submitting (fun t => (getCtx (mir t .A) 0).sqHead == 1 && (mir t .A).seqs.length + (getCtx (mir t .A) 0).stream.length == 1) = true := by
  decide +kernel
theorem test_bad_kind_counted : after (.sqBadKind .A 0 (entryOf 2)) submitting (fun t => (getCtx (mir t .A) 0).sqBadKind == 1 && (getCtx (mir t .A) 0).sqHead == 1) = true := by decide +kernel
theorem test_token_over_vocabulary : stops (.submitEntry .A 0 (entryOf 1) [3, 1000] []) submitting 13 = true := by decide +kernel

def unread : State := ctx0 (fun x => { x with stream := [{ seqno := 1, kind := 1, hostTag := 77 }] }) up
theorem witness_Rings_RingWrites : cqWrites unread .A 0 ≠ 0 := by decide +kernel
theorem test_ring_write : after (.cqRingWrite .A 0) unread (fun t => (getCtx (mir t .A) 0).cqTail == 1 && (getCtx (mir t .A) 0).stream == [] &&
    (mir t .A).irq.cq.getLsbD 0) = true := by decide +kernel
theorem witness_Rings_RingWrites_moderation : let s := ctx0 (fun x => { x with irqTicks := 5, unsignalled := 1 }) { up with tick := 5 }
    (getInst s .A).rel.active = true ∧ (getCtx (mir s .A) 0).isOpen = true ∧ (getCtx (mir s .A) 0).irqTicks ≠ 0 ∧
    (getCtx (mir s .A) 0).unsignalled ≠ 0 ∧ (getCtx (mir s .A) 0).oldestTick + (getCtx (mir s .A) 0).irqTicks ≤ s.tick := by decide +kernel
theorem witness_InterruptWrites : porchTakes up .A = true ∧ (0x800000000#36) &&& 0xFFFF#36 = 0 := by decide +kernel
theorem test_narrow_enable_write : after (.irqEnableWrite .A false 0x0A08 0xFFFFFFFF) up (fun t => (mir t .A).irq.enable == 0) = true := by decide +kernel

theorem witness_FoyerTimersAndFaults_FoyerTimers : activeInst up .A = true ∧ foyerTimed up.a = false ∧
    after (.foyerReevaluation .A) up (fun t => (mir t .A).dusk.map (fun d => (d.list, d.flow, d.due)) == [(1, .unit foyerUnit, 16)]) = true := by decide +kernel
/-- A Dusk entry at a tick that is due. -/
def dueAt (list : Nat) (f : Flow) (s : State) : State := modMir .A (fun m => { m with dusk := [{ list := list, flow := f, due := s.tick, handle := 0 }] }) s
/-- The list fires and the entry's TIMER comes to the head of its flow: its handle and due tick. -/
def timerOf (list : Nat) (f : Flow) (s : State) : Option (Nat × Nat) := dueTimer (fireDue .A list f s) .A list f
theorem witness_FoyerTimersAndFaults_FoyerTimers_limit : timerOf 2 (.unit 0) (dueAt 2 (.unit 0) up) = some (0, up.tick) ∧ timerOf 2 (.unit 0) up = none ∧
    goesOn (.deferLimitExpiry .A 0) (dueAt 2 (.unit 0) up) = true ∧ foyerTimed (dueAt 1 (.unit foyerUnit) up).a = true ∧ timerOf 1 (.unit foyerUnit) (dueAt 1 (.unit foyerUnit) up) = some (0, up.tick) ∧
    timerOf 1 (.unit foyerUnit) (modMir .A (fun m => { m with dusk := [{ list := 1, flow := .unit foyerUnit, due := 16, handle := 0 }] }) up) = none := by decide +kernel
theorem test_foyer_period : after (.foyerReevaluation .A) (dueAt 1 (.unit foyerUnit) up) (fun t => (mir t .A).dusk.map (fun d => (d.list, d.due)) == [(1, 16)] && (getInst t .A).hall.events == []) = true := by decide +kernel
theorem witness_FoyerTimersAndFaults_ContextFaults : running up .A = true ∧ (getInst up .A).rel.active = true ∧ (getCtx (mir up .A) 0).isOpen = true ∧
    after (.dmaError .A 0) up (fun t => (getCtx (mir t .A) 0).faultCause == 2) = true := by decide +kernel
theorem witness_FoyerTimersAndFaults_ContextFaults_event : let s := modHall .A (fun h => { h with events := [{ flow := .unit 0, arrival := 0, kind := .context 2 }] }) up
    flowKind s .A (.unit 0) = some (.context 2) ∧ goesOn (.context .A 0) s = true := by decide +kernel
theorem witness_FoyerTimersAndFaults_ContextFaults_teardown : let s := ctx0 (fun x => { x with teardown := true }) up
    activeInst s .A = true ∧ teardownDone (getInst s .A) 0 = true ∧ after (.teardownComplete .A 0) s (fun t => !(getCtx (mir t .A) 0).isOpen) = true := by decide +kernel

/-- The Kitchen may compose: outposts 0 to 3 are A's, the pool has two pages, and sequence 5 is eligible (no latch is listed, which reads as none enabled). -/
def kitchen0 (f : Mirrored → Mirrored) : State := { modInst .A (fun x => { x with place := { x.place with regions := [(1, { base := 0x2000000, size := 0x100000, aux := 0x1000 }), (4, { base := 0x1000000, size := 0x20000, frameLog2 := 16 })] } })
  (modMir .A (fun m => f { m with latches := [] }) (with5 .decoding fun r => { r with hot := true, deadlineTick := 100, kvLen := 3 })) with
  outposts := (List.range 8).map fun k => if k < 4 then { owner := some .A } else {} }
theorem witness_Composition_none : let s := kitchen0 fun m => { m with seqs := [] }
    kitchenOpen s .A = true ∧ unlatched (mir (latchWaits .A (candidatesOf (preCompose .A s) .A) (preCompose .A s)) .A) (candidatesOf (preCompose .A s) .A) = [] := by decide +kernel
theorem witness_Composition_room : let s := kitchen0 id
    let s2 := latchWaits .A (candidatesOf (preCompose .A s) .A) (preCompose .A s)
    kitchenOpen s .A = true ∧ (firstBy (fun a b => before (mir s2 .A) s.tick [] a b) (unlatched (mir s2 .A) (candidatesOf (preCompose .A s) .A))).isSome = true ∧
    inFlightSteps (mir s2 .A) < (mir s2 .A).kitchen.depth := by decide +kernel
theorem test_compose : after (.composeStep .A false) (kitchen0 id) (fun t => (mir t .A).kitchen.steps.map (fun st => (st.num, st.phase, st.rows.length)) == [(1, .issued, 1)]) = true := by decide +kernel

/-- A step of number 1 with that sequence's row, of a context and class. -/
def step1 (cls : Nat) : Machine.Step := { num := 1, model := 0, epoch := 0, phase := .issued, slot := 3, rows := [{ lid := 6, context := 1, kind := .decode, start := 0, count := 1, cls := cls }] }
theorem witness_Composition_deep : let s := kitchen0 fun m => { m with kitchen := { m.kitchen with depth := 1, steps := [step1 3, { step1 3 with num := 2, slot := 2 }] } }
    let s2 := latchWaits .A (candidatesOf (preCompose .A s) .A) (preCompose .A s)
    kitchenOpen s .A = true ∧ (firstBy (fun a b => before (mir s2 .A) s.tick [] a b) (unlatched (mir s2 .A) (candidatesOf (preCompose .A s) .A))).isSome = true ∧
    (mir s2 .A).kitchen.depth < inFlightSteps (mir s2 .A) := by decide +kernel
/-- One step in flight of depth 1, which a candidate of class 0 may take the place of. -/
def preempting : State := kitchen0 fun m => { m with kitchen := { m.kitchen with depth := 1, preemptMask := 1, steps := [step1 3] } }
theorem witness_Composition_preempt : let s := preempting
    let s2 := latchWaits .A (candidatesOf (preCompose .A s) .A) (preCompose .A s)
    kitchenOpen s .A = true ∧ (firstBy (fun a b => before (mir s2 .A) s.tick [] a b) (unlatched (mir s2 .A) (candidatesOf (preCompose .A s) .A))).map (rankClass (mir s2 .A)) = some 0 ∧
    inFlightSteps (mir s2 .A) = (mir s2 .A).kitchen.depth ∧ (mir s2 .A).kitchen.preemptMask.testBit 0 = true ∧ (preemptable (mir s2 .A) 0).isSome = true := by decide +kernel
theorem test_preempt : after (.composeStep .A false) preempting (fun t => (mir t .A).kitchen.steps.map (fun st => (st.num, st.rows.map (·.lid))) == [(1, [5])]) = true := by decide +kernel

/-! ### Outposts and the Landing -/

def handle1 : RowHandle := { step := 1, wave := 0, row := 0 }
/-- The set-up of an inverse-mode row of two tokens on the outposts of a mask. -/
def setup1 (mask : BitVec 8) : RowSetup := { h := handle1, vocab := 2, wide := false, outposts := mask, firstHalf := 0, recipe := { drawRace := false }, draw := { draws := [{ kind := 1, position := 3, low := 0 }] } }
/-- Outpost 0 is A's and is as `f` makes it. -/
def post0 (f : Outpost → Outpost) (s : State) : State := { s with outposts := modAt s.outposts 0 fun x => f { x with owner := some .A } }
theorem witness_OutpostArrivals_draws : (getOutpost (post0 (fun x => { x with drawsPending := [{ step := 1, rows := [setup1 1] }] }) up) 0).drawsPending = { step := 1, rows := [setup1 1] } :: [] := by decide +kernel
theorem witness_OutpostArrivals_keystream : let x := getOutpost (post0 (fun x => { x with draws := [{ step := 1, rows := [setup1 1] }] }) up) 0
    coreRow x 0 (coreOf x handle1 rowDrawLane) = some (setup1 1) ∧ (blocksWanted x 0 (setup1 1) rowDrawLane).find? (·.low == 0) = some { kind := 1, position := 3, low := 0 } ∧
    (coreNeeds x 0 (setup1 1) 0).all (fifoRoom x · handle1) = true ∧ coreRow x 0 (coreOf x handle1 16) = none ∧
    (let y := { x with fifo := (List.range 4096).map fun k => { h := { handle1 with row := 1 }, kind := 1, lane := rowDrawLane, low := k, value := 0 } };
      coreRow y 0 (coreOf y handle1 rowDrawLane) = some (setup1 1) ∧ (coreNeeds y 0 (setup1 1) 0).all (fifoRoom y · handle1) = false) ∧ (getOutpost up 0).drawsPending = [] := by decide +kernel
theorem test_keystream_block : after (.keystreamBlock 0 handle1 rowDrawLane 0) (post0 (fun x => { x with draws := [{ step := 1, rows := [setup1 1] }] }) up) (fun t => (getOutpost t 0).fifo.map (fun b => (b.kind, b.lane, b.low)) == [(1, rowDrawLane, 0)]) = true := by decide +kernel
theorem witness_OutpostArrivals_map : let r : OutRow := { su := { setup1 1 with plan := some (3, 1) } }
    511 < 512 ∧ r ∈ (getOutpost (post0 (fun x => { x with rows := [r] }) up) 0).rows ∧ r.su.plan.map (·.1) = some 3 := by decide +kernel
theorem test_class_map_lane_512 : after (.classMapLoaded 0 3 512) (post0 (fun x => { x with rows := [{ su := { setup1 1 with plan := some (3, 1) } }] }) up) (fun t => (getOutpost t 0).maps == []) = true := by decide +kernel
/-- A step of a vocabulary of 1,000 is under way on outposts 0 and 1. -/
def stepOn : State := post0 id (mirUp fun m => { m with kitchen := { m.kitchen with steps := [{ num := 1, model := 0, epoch := 0, vocab := 1000, outposts := 0x03#8, phase := .landing }] } })
theorem witness_OutpostArrivals_granule : dieSteps stepOn 0 ≠ [] ∧ (dieSteps stepOn 0).any (fun st => stepLane st 0 (0x10000 / 0x10000)) = true ∧
    (dieSteps stepOn 0).any (fun st => stepLane st 0 (0x20000 / 0x10000)) = false ∧ dieSteps up 0 = [] ∧ (dieSteps stepOn 0).any (fun st => step24 st.num == 1) = true ∧
    (dieSteps stepOn 0).any (fun st => step24 st.num == 2) = false := by decide +kernel
/-- A vocabulary of 1,000 has four slivers, two for each of two outposts: lane 2 holds none (R152, R154, R158). -/
theorem test_granule_outside_shard : stops (.larderGranuleWrite 0 0x20000 []) stepOn 8 = true ∧ goesOn (.larderGranuleWrite 0 0x10000 []) stepOn = true := by decide +kernel
theorem test_wave_done : after (.waveDoneMarker 0 1 0) (post0 (fun x => { x with drawsPending := [{ step := 1, rows := [setup1 1] }] }) stepOn) (fun t => (getOutpost t 0).markers == [(1, 0, 0)] && (getOutpost t 0).port == []) = true := by decide +kernel

/-- Outpost 0 holds the row in a stage, its inverse block in the buffer. -/
def rowAt (st : OutStagePass) : State := post0 (fun x => { x with rows := [{ su := setup1 1, stage := st }], fifo := [{ h := handle1, kind := 1, lane := rowDrawLane, low := 0, value := 5 }] }) up
def row1 (st : OutStagePass) : OutRow := { su := setup1 1, stage := st }
theorem witness_LanePassesAndTests_LanePasses : [OutStagePass.maxPass, .massPass, .roundPass, .keptPass].all (fun st => ((getOutpost (rowAt st) 0).rows.find? (·.su.h == (row1 st).su.h)) == some (row1 st) &&
    passReady (getOutpost (rowAt st) 0) (row1 st) 0 && (passSummary (getOutpost (rowAt st) 0) 0 (row1 st) 0 (outTokens (rowAt st) .A (setup1 1) 0) []).isSome &&
    !((outTokens (rowAt st) .A (setup1 1) 0).any fun t => !fFinite t.l) && (rowLanes (setup1 1) 0).contains 0) = true := by decide +kernel
theorem test_max_pass : after (.lanePassComplete 0 handle1 .ok) (rowAt .maxPass) (fun t => (getOutpost t 0).upA.length == 1 && (getOutpost t 0).rows.map (·.stage) == [.maxSent]) = true := by decide +kernel
theorem test_parity : after (.lanePassComplete 0 handle1 (.parity 0)) (rowAt .maxPass) (fun t => (getOutpost t 0).parityEvents == 1 && (getOutpost t 0).upA == [.parity handle1 0]) = true := by decide +kernel
theorem test_nan_logit : let s := post0 (fun x => { x with rows := [row1 .maxPass], larder := memPuts [] 0 [0xC0#8, 0x7F#8] }) up
    stops (.lanePassComplete 0 handle1 .ok) s 8 = true := by decide +kernel

/-- The Landing of A has sent `m` down to outpost 0, which holds the row. -/
def sentDown (m : DownMsg) : State := post0 (fun x => { x with rows := [row1 .maxSent], downA := [m] }) up
theorem witness_ChannelOrders :
    downHead (getOutpost (sentDown (.rowSetup (setup1 1))) 0) (fun m => match m with | .rowSetup _ => true | _ => false) = some (.A, .rowSetup (setup1 1)) ∧
    ((getOutpost (sentDown (.done handle1)) 0).rows.any (·.su.h == handle1)) = true ∧
    downHead (getOutpost (sentDown (.done handle1)) 0) (fun m => match m with | .done _ => true | _ => false) = some (.A, .done handle1) ∧
    downHead (getOutpost (sentDown (.maxResult handle1 1 2)) 0) (fun m => match m with | .maxResult _ _ _ => true | _ => false) = some (.A, .maxResult handle1 1 2) ∧
    downHead (getOutpost (sentDown (.roundReq handle1 2 7)) 0) (fun m => match m with | .roundReq _ _ _ => true | _ => false) = some (.A, .roundReq handle1 2 7) ∧
    downHead (getOutpost (sentDown (.cut handle1 7 none .kept)) 0) (fun m => match m with | .cut _ _ _ _ => true | _ => false) = some (.A, .cut handle1 7 none .kept) ∧
    downHead (getOutpost (sentDown (.cut handle1 7 none .race)) 0) (fun m => match m with | .cut _ _ _ _ => true | _ => false) = some (.A, .cut handle1 7 none .race) ∧
    downHead (getOutpost (sentDown (.quotas handle1 [1])) 0) (fun m => match m with | .quotas _ _ => true | _ => false) = some (.A, .quotas handle1 [1]) ∧
    downHead (getOutpost (sentDown (.locate handle1 0 5 7 256 3)) 0) (fun m => match m with | .locate _ _ _ _ _ _ => true | _ => false) = some (.A, .locate handle1 0 5 7 256 3) := by decide +kernel

/-- Outpost 0 of A, whose instance is active, runs a self-test. -/
def testing (fenced : BitVec 32) (t : Turn) : State := post0 (fun x => { x with selftest := true, testFence := fenced }) (mirUp fun m => { m with kitchen := { m.kitchen with turn := t } })
theorem witness_LanePassesAndTests_SelfTests : (getOutpost (testing 0 .service) 0).owner = some .A ∧ (getOutpost (testing 0 .service) 0).selftest = true ∧ knownAnswerTest (testing 0 .service) .A = false ∧
    knownAnswerTest (testing 0 .morning) .A = true ∧ (getOutpost (testing 0 .morning) 0).owner = some .A ∧ (getOutpost (testing 0 .morning) 0).selftest = true ∧
    fencedCount (fencedOf (getOutpost (testing 0x7F .service) 0) ||| 0x80#32) ≤ 8 ∧ 8 < fencedCount (fencedOf (getOutpost (testing 0xFF .service) 0) ||| 0x100#32) ∧
    (getOutpost (testing 0xFF .service) 0).selftest = true := by decide +kernel
theorem test_ninth_fence_fails_outpost : after (.laneGroupSelftestDone 0 0x100) (testing 0xFF .service) (fun t => t.a.rel.failed || (getOutpost t 0).faultA) = true := by decide +kernel

/-- The row stands in the Landing in a stage, and `m` is at the front of outpost 0's channel. -/
def landed1 (mask : BitVec 8) (st : LandStage) (m : UpMsg) : State :=
  post0 (fun x => { x with upA := [m] }) (modInst .A (fun x => { x with landing := [{ su := setup1 mask, rowIdx := 0, sub := 0, lid := 5, stage := st }] })
    (mirUp fun m => { m with kitchen := { m.kitchen with steps := [{ num := 1, model := 0, epoch := 0, outposts := mask, phase := .landing, rows := [{ lid := 5, context := 0, cls := 0, kind := .decode, start := 3, count := 1 }] }] } }))
def landRow1 (mask : BitVec 8) (st : LandStage) : LandRow := { su := setup1 mask, rowIdx := 0, sub := 0, lid := 5, stage := st }
/-- The five summaries, each with its stage. -/
def summaries : List (LandStage × UpMsg) :=
  [(.max, .maxSum handle1 none none 0 none), (.mass, .massSum handle1 { z := 0, zPi := 0, sH := 0, minCount := 0, cands := [], hist := [], us := [] }),
   (.round, .roundSum handle1 []), (.kept, .keptSum handle1 []), (.race, .raceSum handle1 none)]
/-- The last of the row's outposts, one of several, and a summary of another pass. -/
theorem witness_Landing_LandingSums : summaries.all (fun p =>
    let s := landed1 1 p.1 p.2
    upOf (getOutpost s 0) .A == [p.2] && findLand s .A p.2.h == some (landRow1 1 p.1) && !strayUp s .A 0 p.2 && (landOuts (landRow1 1 p.1)).all (fun k => ((landRow1 1 p.1).sums ++ [(0, p.2)]).any (·.1 == k)) &&
      !((landOuts (landRow1 0x0F p.1)).all fun k => ((landRow1 0x0F p.1).sums ++ [(0, p.2)]).any (·.1 == k)) && !strayUp (landed1 0x0F p.1 p.2) .A 0 p.2 && findLand (landed1 0x0F p.1 p.2) .A p.2.h == some (landRow1 0x0F p.1) &&
      findLand (landed1 1 .locate p.2) .A p.2.h == some (landRow1 1 .locate) && !strayUp (landed1 1 .locate p.2) .A 0 p.2) = true := by decide +kernel
theorem witness_Landing_LandingReports : let m : UpMsg := .located handle1 { id := 0, d := 0, e := 0, dPi := 0, ePi := 0, before := 0 }
    findLand (landed1 1 .locate m) .A handle1 = some (landRow1 1 .locate) ∧ upOf (getOutpost (landed1 1 .locate m) 0) .A = m :: [] ∧ strayUp (landed1 1 .locate m) .A 0 m = false ∧
    upOf (getOutpost (landed1 1 .max (.parity handle1 0)) 0) .A = .parity handle1 0 :: [] ∧ strayUp (landed1 1 .max (.parity handle1 0)) .A 0 (.parity handle1 0) = false := by decide +kernel
theorem test_summary_of_other_pass : after (.maxSum .A 0) (landed1 1 .locate (.maxSum handle1 none none 0 none)) (fun t => (getInst t .A).study.channelDiscards == 1 && (getOutpost t 0).upA == []) = true := by decide +kernel

/-! ### Steps, notices, latches, events, Dusk -/

/-- One step, number 1 of model 0, in a phase, with a prefill row of sequence 5. -/
def stepIn (ph : Phase) : Machine.Step := { num := 1, model := 0, epoch := 0, phase := ph, outposts := 0x01#8, rows := [{ lid := 5, context := 0, cls := 0, kind := .prefill, start := 0, count := 2 }] }
def stepping (ph : Phase) : State := modKit .A (fun k => { k with steps := [stepIn ph] }) (with5 .prefilling id)
theorem witness_NoticesAndKernelFaults_StepNotices : activeInst (stepping .issued) .A = true ∧ stepBy24 (mir (stepping .issued) .A) 9 = none ∧ stepBy24 (mir (stepping .issued) .A) 1 = some (stepIn .issued) ∧
    stepBy24 (mir (stepping .landing) .A) 1 = some (stepIn .landing) ∧ (stepIn .landing).phase ≠ .issued ∧ (stepIn .issued).phase = .issued ∧ (stepIn .issued).outposts.getLsbD 0 = true ∧
    (mir (stepping .killed) .A).kitchen.steps.find? (fun y => y.phase == .killed && step24 y.num == 1 && y.outposts.getLsbD 0) = some (stepIn .killed) ∧
    (mir (stepping .issued) .A).kitchen.steps.find? (fun y => y.phase == .killed && step24 y.num == 1 && y.outposts.getLsbD 0) = none := by decide +kernel
theorem test_completion_samples : after (.completionNotice .A 0 1) (stepping .issued) (fun t => (mir t .A).kitchen.steps.map (·.phase) == [.sampled]) = true := by decide +kernel
/-- An enabled latch of model 0. -/
def latchOn (f : Latch → Latch) (s : State) : State := modMir .A (fun m => { m with latches := [f { enable := true, models := 1, maxHold := 0 }] }) s
theorem witness_NoticesAndKernelFaults_KernelFaults : stepBy24 (mir (latchOn id (stepping .issued)) .A) 1 = some (stepIn .issued) ∧ latched (mir (latchOn id (stepping .issued)) .A) 0 = true ∧
    latched (mir (stepping .issued) .A) 0 = false ∧ activeInst (latchOn id (stepping .issued)) .A = true := by decide +kernel
theorem test_kernel_fault : after (.kernelFault .A 0 1) (latchOn id (stepping .issued)) (fun t => (getCtx (mir t .A) 0).faultCause == 4) = true := by decide +kernel
/-- A loss bound of one step that is reached. -/
def held1 : State := modRel .A (fun r => { r with lossBound := 1, staged := [.step 1 0] }) (stepping .sampled)
theorem witness_CommitPointsAndMidnight_CommitPoints : getStep (mir (stepping .sampled) .A) 1 = some (stepIn .sampled) ∧ activeInst (stepping .sampled) .A = true ∧ commitHeld (getInst (stepping .sampled) .A) = false ∧
    (stepIn .sampled).phase = .sampled ∧ getStep (mir held1 .A) 1 = some (stepIn .sampled) ∧ commitHeld (getInst held1 .A) = true := by decide +kernel
theorem test_commit_point : after (.commitPoint .A 1) (stepping .sampled) (fun t => (mir t .A).kitchen.steps.map (·.phase) == [.committing] && (getInst t .A).hall.events.map (·.kind) == [.tokenCommit 1 0]) = true := by decide +kernel
theorem witness_Latches : stepBy24 (mir (latchOn id (stepping .issued)) .A) 1 = some (stepIn .issued) ∧ running (latchOn id (stepping .issued)) .A = true ∧
    (getLatch (mir (latchOn id (stepping .issued)) .A) 0).models.getLsbD 0 = true ∧ (getLatch (mir (latchOn id (stepping .issued)) .A) 0).held = false ∧
    (getLatch (mir (latchOn (fun l => { l with held := true }) (stepping .issued)) .A) 0).owner = ((stepIn .issued).rows.map (·.context)).headD 0 ∧
    (getLatch (mir (latchOn (fun l => { l with held := true, owner := 3 }) (stepping .issued)) .A) 0).held = true ∧
    (getLatch (mir (latchOn (fun l => { l with held := true, owner := 3 }) (stepping .issued)) .A) 0).owner ≠ ((stepIn .issued).rows.map (·.context)).headD 0 := by decide +kernel
theorem test_latch_acquire : after (.latchAcquire .A 0 1) (latchOn id (stepping .issued)) (fun t => t.busData == 1 && (getLatch (mir t .A) 0).held) = true := by decide +kernel
theorem test_latch_refused : after (.latchAcquire .A 0 1) (latchOn (fun l => { l with held := true, owner := 3 }) (stepping .issued)) (fun t => t.busData == 0 && (getLatch (mir t .A) 0).owner == 3) = true := by decide +kernel
/-- Model 0 is ARMED. -/
def armed0 (t : Turn) (steps : List Machine.Step) : State := modKit .A (fun k => { k with turn := t, steps := steps })
  (modModel .A 0 (fun x => { x with stage := .armed, staged := { epoch := 1, vocab := 1000 } }) (with5 .decoding id))
theorem witness_CommitPointsAndMidnight_MidnightComes : activeInst (armed0 .service []) .A = true ∧ (getModel (mir (armed0 .service []) .A) 0).stage = .armed ∧ drained (mir (armed0 .service []) .A) 0 = true ∧
    (mir (armed0 .service []) .A).kitchen.turn = .service ∧ (getModel (mir (armed0 .service []) .A) 1).stage ≠ .armed ∧ drained (mir (armed0 .service [stepIn .issued]) .A) 0 = false ∧
    (mir (armed0 .training []) .A).kitchen.turn ≠ .service ∧ activeInst (armed0 .training []) .A = true := by decide +kernel
theorem test_midnight : after (.midnight .A 0) (armed0 .service []) (fun t => ((getModel (mir t .A) 0).committed.map (·.epoch)) == some 1 && (getModel (mir t .A) 0).stage == .none) = true := by decide +kernel

/-- A state with an event of sequence 5 at the head of its flow. -/
def withEvent (k : EvKind) (s : State) : State := modHall .A (fun h => { h with events := [{ flow := .seq 5, arrival := 0, kind := k }] }) s
/-- The step is COMMITTING, its row's commit at the head of its flow. -/
def committing (l : Latch → Latch) : State := withEvent (.tokenCommit 1 0) (latchOn l (stepping .committing))
def behind : State := modRel .A (fun r => { r with mirror := .current, acksDue := 1 }) (committing id)
theorem witness_CommitEvents : headKind behind .A 5 = some (.tokenCommit 1 0) ∧ mirrorBehind behind .A = true ∧ headKind (committing id) .A 5 = some (.tokenCommit 1 0) ∧ mirrorBehind (committing id) .A = false ∧
    latchOver (mir (commitOne .A 1 0 (releaseEvent .A (.seq 5) (committing id))) .A) = false ∧ headKind (withEvent (.stopCheck 1 0) (stepping .landing)) .A 5 = some (.stopCheck 1 0) ∧
    headKind (withEvent (.kill 1) (stepping .landing)) .A 5 = some (.kill 1) ∧ liveLid (stepping .landing) .A 5 = true ∧ inFlight (mir (stepping .landing) .A) 5 = true ∧
    headKind (withEvent (.kill 1) (with5 .finished id)) .A 5 = some (.kill 1) ∧ liveLid (with5 .finished id) .A 5 = false := by decide +kernel
/-- A latch held across by context 0 is at its maximum. -/
def overHeld : State := committing fun l => { l with held := true, across := true }
theorem witness_CommitEvents_over : headKind overHeld .A 5 = some (.tokenCommit 1 0) ∧ mirrorBehind overHeld .A = false ∧ latchOver (mir (commitOne .A 1 0 (releaseEvent .A (.seq 5) overHeld)) .A) = true ∧
    latchOver (mir overHeld .A) = false := by decide +kernel
theorem test_token_commit : after (.tokenCommit .A 5) (committing id) (fun t => (seqOf t .A 5).r.kvLen == 2 && (mir t .A).kitchen.stepCommitted == 1) = true := by decide +kernel
theorem test_held_too_long : stops (.tokenCommit .A 5) overHeld 10 = true := by decide +kernel
theorem test_kill_counts : after (.kill .A 5) (withEvent (.kill 1) (stepping .landing)) (fun t => (seqOf t .A 5).r.preemptions == 1) = true := by decide +kernel
theorem witness_CommitEvents_EventsReleased : headEvent (getInst (evented .decoding .cool) .A) (.seq 5) = some { flow := .seq 5, arrival := 0, kind := .cool } := by decide +kernel

/-- An event at the head, sequence 5 as it stands in `with5`. -/
def ev (st : SeqState) (k : EvKind) (f : Record → Record) : State := withEvent k (with5 st f)
/-- The event that a command takes up is at the head of its flow. -/
def heads (st : SeqState) (k : EvKind) : Bool := headKind (ev st k id) .A 5 == some k
theorem witness_AdmissionAndPages_AdmissionAndParlour : (findSeq (mir (ev .free .admission id) .A) 5).isSome = true ∧ heads .free .admission = true ∧ (seqOf (ev .free .admission id) .A 5).r.state = .free ∧
    (seqOf (ev .free .admission id) .A 5).r.notifyAdmit = false ∧ heads .parked (.warm 1) = true ∧ SeqState.parked.live = true ∧ heads .finished (.warm 1) = true ∧ SeqState.finished.live = false ∧
    heads .parked .cool = true ∧ (seqOf (ev .parked .cool fun r => { r with hot := true }) .A 5).r.hot = true ∧ mustBeHot (mir (ev .parked .cool fun r => { r with hot := true }) .A) (seqOf (ev .parked .cool fun r => { r with hot := true }) .A 5) = false ∧
    (seqOf (ev .parked .cool id) .A 5).r.hot = false := by decide +kernel
theorem test_admission : after (.admitSeq .A 5) (ev .free .admission id) (fun t => (seqOf t .A 5).r.state == .admitted) = true := by decide +kernel
theorem test_cool : after (.cool .A 5) (ev .parked .cool fun r => { r with hot := true }) (fun t => !(seqOf t .A 5).r.hot) = true := by decide +kernel
def evicted5 (k : EvKind) : State := modSeq .A 5 (fun q => { q with evicted := true }) (ev .parked k id)
theorem witness_AdmissionAndPages_PantryEvents : heads .decoding .evictPark = true ∧ SeqState.decoding.composed = true ∧ inFlight (mir (ev .decoding .evictPark id) .A) 5 = false ∧ heads .parked .evictPark = true ∧
    headKind (evicted5 .evictResume) .A 5 = some .evictResume ∧ (seqOf (evicted5 .evictResume) .A 5).evicted = true ∧ (seqOf (evicted5 .evictResume) .A 5).r.state = .parked ∧ (mir (evicted5 .evictResume) .A).kitchen.turn = .service ∧
    heads .reheating (.prefixTake 3) = true ∧ (seqOf (ev .reheating (.prefixTake 3) id) .A 5).r.kvLen < (seqOf (ev .reheating (.prefixTake 3) id) .A 5).r.promptLen - 1 ∧
    heads .decoding .invalidate = true ∧ heads .finished .invalidate = true := by decide +kernel
theorem test_eviction_park : after (.evictionPark .A 5) (ev .decoding .evictPark id) (fun t => (seqOf t .A 5).r.state == .parked && (seqOf t .A 5).evicted) = true := by decide +kernel
/-- Sequence 5 has a row in flight. -/
def flying (k : EvKind) : State := withEvent k (modKit .A (fun x => { x with steps := [stepIn .issued] }) (with5 .decoding id))
theorem witness_OrderEvents_cancel : heads .decoding (.cancel (some 0)) = true ∧ SeqState.decoding.live = true ∧ arrivalOf (mir (ev .decoding (.cancel (some 0)) id) .A) 5 = none ∧
    inFlight (mir (ev .decoding (.cancel (some 0)) id) .A) 5 = false ∧ headKind (flying (.cancel (some 0))) .A 5 = some (.cancel (some 0)) ∧ inFlight (mir (flying (.cancel (some 0))) .A) 5 = true ∧
    arrivalOf (mir (flying (.cancel (some 0))) .A) 5 = none ∧ heads .finished (.cancel (some 0)) = true ∧ SeqState.finished.live = false := by decide +kernel
theorem witness_OrderEvents_park : heads .decoding (.park 9 none) = true ∧ SeqState.decoding.composed = true ∧ inFlight (mir (ev .decoding (.park 9 none) id) .A) 5 = false ∧ heads .paused (.park 9 none) = true ∧
    SeqState.paused.composed = false ∧ heads .parked (.resume none) = true ∧ (mir (ev .parked (.resume none) id) .A).kitchen.turn = .service ∧
    heads .paused (.resume none) = true ∧ (seqOf (ev .paused (.resume none) fun r => { r with committedLen := 16 }) .A 5).r.trailCapacity ≤ (seqOf (ev .paused (.resume none) fun r => { r with committedLen := 16 }) .A 5).r.committedLen ∧
    headKind (modKit .A (fun k => { k with turn := .evening }) (ev .parked (.resume none) id)) .A 5 = some (.resume none) := by decide +kernel
theorem witness_OrderEvents_extend : heads .decoding (.extend [8] 0 0 0 0) = true ∧ heads .paused (.extend [8] 0 0 0 0) = true ∧
    (let s := ev .paused (.extend [8] 0 0 0 0) id; let r := (seqOf s .A 5).r
      r.committedLen + 1 ≤ r.trailCapacity ∧ r.promptLen + r.committedLen + 1 ≤ (getModel (mir s .A) r.model).maxPositions ∧ extendPlan (mir s .A) r [8] 0 0 0 = some (0, 0)) := by decide +kernel
theorem test_cancel_aborts : after (.sequenceCancel .A 5) (ev .decoding (.cancel none) id) (fun t => (mir t .A).seqs == [] && ((getCtx (mir t .A) 0).stream.map (·.kind)).length == 1) = true := by decide +kernel
theorem test_park_wake : after (.sequencePark .A 5) (ev .decoding (.park 9 none) id) (fun t => (seqOf t .A 5).r.state == .parked && (mir t .A).dusk.map (fun d => (d.list, d.due)) == [(0, 1), (2, 9)]) = true := by decide +kernel

def midnight01 : MidnightInfo := { model := 0, old := 0, new := 1, oldTag := 0, newTag := 0 }
/-- Context 0 under an epoch policy. -/
def policy (p : Nat) : State := modCtx .A 0 (fun x => { x with cfg := { x.cfg with epochPolicy := p } }) (ev .decoding (.midnight midnight01) id)
theorem witness_TurnAndHouseholdEvents_TurnEvents : heads .parked .forceRun = true ∧ SeqState.parked ≠ .decoding ∧ headKind (policy 0) .A 5 = some (.midnight midnight01) ∧ (seqOf (policy 0) .A 5).r.state = .decoding ∧
    (seqOf (policy 0) .A 5).r.model = midnight01.model ∧ (seqOf (policy 0) .A 5).r.epoch = midnight01.old ∧ midnight01.newSet = false ∧ (getCtx (mir (policy 0) .A) 0).cfg.epochPolicy = 0 ∧
    headKind (policy 2) .A 5 = some (.midnight midnight01) ∧ (getCtx (mir (policy 2) .A) 0).cfg.epochPolicy = 2 ∧
    heads .decoding (.epochAbort none) = true ∧ arrivalOf (mir (ev .decoding (.epochAbort none) id) .A) 5 = none ∧ inFlight (mir (ev .decoding (.epochAbort none) id) .A) 5 = false ∧
    heads .finished .evening = true ∧ SeqState.finished.live = false ∧ heads .decoding .evening = true ∧ heads .decoding .morning = true ∧ heads .shuttered .morning = true ∧
    (seqOf (ev .shuttered .morning fun r => { r with returnState := .decoding }) .A 5).r.returnState.composed = true ∧
    activeInst (with5 .parked id) .A = true ∧ (seqOf (with5 .parked id) .A 5).r.hot = false := by decide +kernel
theorem test_midnight_abort : after (.midnightEvent .A 5) (policy 2) (fun t => (mir t .A).seqs == []) = true := by decide +kernel
theorem test_evening_parks_without_pages : after (.eveningEvent .A 5) (ev .decoding .evening id) (fun t => (seqOf t .A 5).r.state == .parked && (seqOf t .A 5).r.returnState == .decoding) = true := by decide +kernel

theorem witness_TurnAndHouseholdEvents_HouseholdEvents : (findSeq (mir (ev .finished .household id) .A) 5).isSome = true ∧ heads .finished .household = true ∧ (seqOf (ev .finished .household id) .A 5).r.holdHousehold = false ∧
    (seqOf (ev .finished .household fun r => { r with holdHousehold := true, liveMembers := 1 }) .A 5).r.holdHousehold = true ∧ (seqOf (ev .finished .household fun r => { r with holdHousehold := true, liveMembers := 1 }) .A 5).r.liveMembers ≤ 1 ∧
    heads .decoding .teardown = true ∧ (mir (ev .decoding .teardown id) .A).inXfers = [] ∧ heads .finished .teardown = true ∧
    heads .decoding .planReady = true ∧ heads .finished .planReady = true ∧ (seqOf (ev .finished .planReady id) .A 5).waiting = [] := by decide +kernel
theorem test_household_frees : after (.household .A 5) (ev .finished .household fun r => { r with holdHousehold := true, liveMembers := 1 }) (fun t => (mir t .A).seqs == []) = true := by decide +kernel

/-- A due Dusk entry of sequence 5, handle 4, in a turn. -/
def dusk5 (list : Nat) (t : Turn) : State := modKit .A (fun k => { k with turn := t }) (modMir .A (fun m => { m with dusk := [{ list := list, flow := .seq 5, due := 1, handle := 4 }] })
  { with5 .parked (fun r => { r with duskHandles := [4, noHandle, 4, noHandle] }) with tick := 2 })
/-- The same entry, of which the record has no handle. -/
def stale5 (list : Nat) : State := modRec .A 5 (fun r => { r with duskHandles := [noHandle, noHandle, noHandle, noHandle] }) (dusk5 list .service)
def entry4 (list : Nat) : Dusk := { list := list, flow := .seq 5, due := 1, handle := 4 }
/-- The state in which the TIMER has been applied and its handle spent. -/
def spent (list : Nat) (s : State) : State := spendHandle .A list 5 (releaseEvent .A (.seq 5) (fireDue .A list (.seq 5) s))
theorem witness_DuskLists_DuskEntries : [0, 2].all (fun l => timerOf l (.seq 5) (dusk5 l .service) == some (4, 1) && handleOf (releaseEvent .A (.seq 5) (fireDue .A l (.seq 5) (dusk5 l .service))) .A 5 l == 4 &&
      timerOf l (.seq 5) (stale5 l) == some (4, 1) && handleOf (releaseEvent .A (.seq 5) (fireDue .A l (.seq 5) (stale5 l))) .A 5 l != 4 && timerOf l (.seq 5) up == none) = true ∧
    (let q := seqOf (spent 0 (dusk5 0 .service)) .A 5; q.r.state.live = true ∧ q.r.deadlineTick < 1 ∧ arrivalOf (mir (spent 0 (dusk5 0 .service)) .A) 5 = none) ∧
    (mir (dusk5 2 .service) .A).kitchen.turn = .service ∧ (seqOf (spent 2 (dusk5 2 .service)) .A 5).r.state = .parked ∧
    timerOf 2 (.seq 5) (dusk5 2 .training) = some (4, 1) ∧ (mir (dusk5 2 .training) .A).kitchen.turn ≠ .service := by decide +kernel
/-- The deadline has not passed; the wall budget is as `wall` gives, with or without a row in flight. -/
def walled (st : SeqState) (wall : Nat) (steps : List Machine.Step) : State := modKit .A (fun k => { k with steps := steps }) (modRec .A 5 (fun r => { r with state := st, deadlineTick := 50, maxWallTicks := wall, wallUsed := 7 }) (dusk5 0 .service))
theorem witness_DuskLists_DuskEntries_wall : [walled .decoding 7 [], walled .decoding 7 [stepIn .issued], walled .decoding 8 [], walled .finished 7 []].all (fun s => timerOf 0 (.seq 5) s == some (4, 1) &&
      handleOf (releaseEvent .A (.seq 5) (fireDue .A 0 (.seq 5) s)) .A 5 0 == 4) = true ∧
    (let w := spent 0 (walled .decoding 7 []); let q := seqOf w .A 5; q.r.state.live = true ∧ 1 ≤ q.r.deadlineTick ∧ q.r.maxWallTicks ≠ 0 ∧ q.r.maxWallTicks ≤ wallSpent q ∧ inFlight (mir w .A) 5 = false ∧ arrivalOf (mir w .A) 5 = none) ∧
    inFlight (mir (spent 0 (walled .decoding 7 [stepIn .issued])) .A) 5 = true ∧ wallSpent (seqOf (spent 0 (walled .decoding 8 [])) .A 5) < 8 ∧ (seqOf (spent 0 (walled .finished 7 [])) .A 5).r.state.live = false := by decide +kernel
theorem test_deadline : after (.deadlineEntry .A 5) (dusk5 0 .service) (fun t => (mir t .A).seqs == [] && ((getInst t .A).hall.counts.map (·.fired)).headD 0 == 1) = true := by decide +kernel
theorem test_park_wake_held : after (.parkWake .A 5) (dusk5 2 .training) (fun t => (seqOf t .A 5).heldWake == some 1 && (seqOf t .A 5).r.state == .parked) = true := by decide +kernel

/-- An open transfer and an arrival. -/
def xfers (fwd : Bool) : State := mirUp fun m => { m with outXfers := [{ subject := 1, attempt := 0, forward := fwd, dst := 9 }], inXfers := [{ subject := 2, attempt := 0, forward := false, src := 9, context := 0, lid := 5 }] }
/-- A core's command timeout that is due: of a command that waits, of one with its result, of a drive command. -/
def coreTimer (f : State → State) : State := f (dueAt 3 (.unit 21) up)
theorem witness_DuskLists_OtherTimers :
    [id, asked { ask 0x51 16 [] with timer := some 0 }, modRel .A (fun r => { r with drive := [{ op := .flush, start := 0, handle := 0 }] })].all (fun f => timerOf 3 (.unit (20 + 1)) (coreTimer f) == some (0, up.tick)) = true ∧
    timerOf 3 (.unit 21) up = none ∧ driveHandle (coreTimer (modRel .A fun r => { r with drive := [{ op := .flush, start := 0, handle := 0 }] })).a 0 = true ∧ driveHandle (coreTimer id).a 0 = false ∧
    (mir (coreTimer (asked { ask 0x51 16 [] with timer := some 0 })) .A).mbox.any (·.timer == some 0) = true ∧ (mir (coreTimer id) .A).mbox.any (·.timer == some 0) = false ∧
    activeInst up .A = true ∧ activeInst State.reset .A = false ∧ findOut (mir up .A) 1 = none ∧ (findOut (mir (xfers true) .A) 1).map (·.forward) = some true ∧ activeInst (xfers true) .A = true ∧
    ((mir { xfers true with tick := 10 ^ 9 } .A).inXfers.find? (fun t => t.subject == 2 && arrivalExpired { xfers true with tick := 10 ^ 9 } .A t)).isSome = true ∧ activeInst { xfers true with tick := 10 ^ 9 } .A = true ∧
    (mir (xfers true) .A).inXfers.find? (fun t => t.subject == 2 && arrivalExpired (xfers true) .A t) = none := by decide +kernel
/-- A migration of sequence 5 in a stage, its retry and timeout entries due with handle 4. -/
def retrying (l : Nat) (st : OutStage) (h : Nat) : State := modMir .A (fun m => { m with outXfers := [{ subject := 1, attempt := 0, forward := false, lid := 5, dst := 9, stage := st }] })
  (modRec .A 5 (fun r => { r with duskHandles := [h, h, h, h] }) (dusk5 l .service))
theorem witness_DuskLists_OtherTimers_migration : [(1, 4), (1, 3), (3, 4), (3, 3)].all (fun p => timerOf p.1 (.seq 5) (retrying p.1 OutStage.offered p.2) == some (4, 1) && (findOut (mir (retrying p.1 OutStage.offered p.2) .A) 1).map (fun x => (x.forward, x.lid)) == some (false, 5) &&
      handleOf (releaseEvent .A (.seq 5) (fireDue .A p.1 (.seq 5) (retrying p.1 OutStage.offered p.2))) .A 5 p.1 == p.2) = true ∧
    timerOf 3 (.seq 5) (retrying 3 OutStage.failed 4) = some (4, 1) ∧ timerOf 1 (.seq 5) (xfers false) = none ∧ (findOut (mir (xfers false) .A) 1).map (·.forward) = some false := by decide +kernel
theorem test_spill_refill : after (.duskSpillRefill .A 0) (modMir .A (fun m => { m with dusk := [{ list := 0, flow := .seq 5, due := 1, handle := 4, spilled := true }] }) up) (fun t => (mir t .A).dusk.map (·.spilled) == [false]) = true := by decide +kernel
theorem test_arrival_timeout : after (.arrivalTimeout .A 2) { xfers true with tick := 10 ^ 9 } (fun t => (mir t .A).inXfers == []) = true := by decide +kernel

/-! ### The peer fabric, twins, the drive -/

/-- A message of a type to instance A (address 0 before IDENTITY), with its check in place. -/
def msgTo (ty gen : Nat) : PeerMsg :=
  let m := { mkMsg ty 0 with src := 9, subject := 1, dstGen := gen }
  { m with check := msgCheck m }
def badCheck : PeerMsg := let m := msgTo tAccept 0; { m with check := m.check + 1 }
theorem witness_PeerMessages_MessagesChecked : fabricOn { up with powered := true } .A = true ∧ (msgTo tAccept 0).dst = peerAddr (getInst up .A) ∧ { msgTo tAccept 0 with dst := 77 }.dst ≠ peerAddr (getInst up .A) ∧
    fabricOn State.reset .A = false ∧ msgCheck badCheck ≠ badCheck.check ∧ badCheck.dst = peerAddr (getInst up .A) ∧
    msgCheck (msgTo tHandover 1) = (msgTo tHandover 1).check ∧ (msgTo tHandover 1).type = tHandover ∧ (msgTo tHandover 1).dstGen ≠ (getInst up .A).stair.roleGen := by decide +kernel
theorem test_bad_check : after (.accept .A badCheck) up (fun t => t.a.stair.crcDiscards == 1 && t.a.stair.staleDiscards == 0) = true := by decide +kernel
theorem test_bounce : after (.handover .A (msgTo tHandover 1)) up (fun t => t.a.stair.bouncedOut == 1 && t.a.stair.outbox.length == 1) = true := by decide +kernel
/-- A transfer of sequence 5 is open, subject 1. -/
def outOpen : State := modMir .A (fun m => { m with outXfers := [{ subject := 1, attempt := 0, forward := false, lid := 5, dst := 9 }] }) (with5 .migrating id)
def passive : State := modRel .A (fun r => { r with active := false }) up
theorem witness_PeerMessages_MessagesActed : [tAnnounce, tAnnounceReply, tOffer, tBounce, tAccept, tRefuse, tDataAck, tAck, tNak, tData, tHandover, tAbandon].all (fun ty => arrives outOpen .A ty (msgTo ty 0)) = true ∧
    activeInst outOpen .A = true ∧ (outFor (mir outOpen .A) (msgTo tAccept 0)).isSome = true ∧ outFor (mir up .A) (msgTo tAccept 0) = none ∧ arrives up .A tAccept (msgTo tAccept 0) = true ∧ activeInst up .A = true ∧
    activeInst passive .A = false ∧ arrives passive .A tData (msgTo tData 0) = true := by decide +kernel
theorem test_refuse_fails_migration : after (.refuse .A (msgTo tRefuse 0)) outOpen (fun t => t.a.hall.events.map (·.kind) == [.migrateFail 0]) = true := by decide +kernel
theorem test_stale_message : after (.accept .A (msgTo tAccept 0)) up (fun t => t.a.stair.staleDiscards == 1) = true := by decide +kernel
/-- The destination of MIGRATE is another node. -/
def leaving (st : SeqState) (steps : List Machine.Step) : State := withEvent (.migrateOut 0 false 40) (modKit .A (fun k => { k with steps := steps }) (with5 st id))
theorem witness_MigrationEvents : headKind (leaving .prefilling []) .A 5 = some (.migrateOut 0 false 40) ∧ migrateOpens (getInst (leaving .prefilling []) .A) (seqOf (leaving .prefilling []) .A 5).r 40 = false ∧
    headKind (leaving .paused []) .A 5 = some (.migrateOut 0 false 40) ∧ migrateOpens (getInst (leaving .paused []) .A) (seqOf (leaving .paused []) .A 5).r 40 = true ∧ inFlight (mir (leaving .paused []) .A) 5 = false ∧
    (mir (leaving .paused []) .A).outXfers.length < 64 ∧ headKind (leaving .decoding [stepIn .issued]) .A 5 = some (.migrateOut 0 false 40) ∧
    migrateOpens (getInst (leaving .decoding [stepIn .issued]) .A) (seqOf (leaving .decoding [stepIn .issued]) .A 5).r 40 = true ∧ inFlight (mir (leaving .decoding [stepIn .issued]) .A) 5 = true ∧
    heads .migrating .migrateAck = true ∧ heads .migrating (.migrateFail 3) = true ∧ heads .migrating (.migrateIn 2) = true ∧ heads .migrating (.migrateDone 2) = true := by decide +kernel
/-- A held message that is due. -/
def holding : State := modStair .A (fun t => { t with held := [{ sent := { msg := msgTo tAccept 0 }, after := 3, due := 0 }] }) up
theorem witness_MigrationEvents_reorder : ((getInst holding .A).stair.held.any fun h => decide (h.due ≤ holding.tick)) = true ∧
    after (.reorderRelease .A) holding (fun t => t.a.stair.outbox.length == 1 && t.a.stair.held == []) = true := by decide +kernel

/-- A is active and B its mirror. -/
def pair (m : MirrorState) (f g : Reliability → Reliability) : State :=
  modRel .A (fun r => f { r with mirror := m }) (modRel .B (fun r => g { r with mirror := m })
    { modInst .B (fun x => { x with hearth := { x.hearth with stage := .ready, coreUp := 0xF#4 }, place := { x.place with outposts := 0x0F#8 } }) up with pathUp := true })
def streaming (n : Nat) : State := pair .current (fun r => { r with streamOut := [{ img := (mir up .A) }], resends := n }) id
theorem witness_MirrorAndPaths_MirrorStream : (streaming 2).pathUp = true ∧ (getInst (streaming 2) .A).rel.streamOut = { img := mir up .A } :: [] ∧ follows (streaming 2) .B = true ∧ (getInst (streaming 2) .A).rel.resends < 3 ∧
    follows (streaming 3) .B = true ∧ 3 ≤ (getInst (streaming 3) .A).rel.resends ∧ (pair .current (fun r => { r with acksDue := 1 }) id).a.rel.active = true ∧ (pair .current (fun r => { r with acksDue := 1 }) id).a.rel.acksDue ≠ 0 ∧
    (pair .current (fun r => { r with acksDue := 1 }) id).pathUp = true := by decide +kernel
theorem witness_MirrorAndPaths_MirrorStream_sync : let s := pair .syncing id id
    s.pathUp = true ∧ follows s .B = true ∧ s.b.rel.mirror = .syncing ∧ activeInst s .A = true ∧ s.a.rel.mirror = .syncing ∧ s.a.rel.streamOut = [] := by decide +kernel
theorem test_mirror_message : after (.mirrorMessage .B false) (streaming 0) (fun t => (getCtx (mir t .B) 0).isOpen && t.a.rel.acksDue == 1 && t.a.rel.streamOut == []) = true := by decide +kernel
theorem witness_TwinsWatchEachOther_Heartbeats : let s := pair .current id id
    s.pathUp = true ∧ running s .A = true ∧ running s .B = true ∧ inReset s .A = false ∧ inReset s .B = false ∧ (getInst s .A).rel.lastHeartbeat + 6 ≤ { s with tick := 6 }.tick ∧ paired { s with tick := 6 } .A = true ∧
    s.a.rel.livenessRead = none ∧ s.a.rel.claiming = false := by decide +kernel
theorem witness_TwinsWatchEachOther_Heartbeats_check : let s := { pair .current (fun r => { r with livenessRead := some (0, 6) }) id with tick := 8 }
    s.a.rel.livenessRead = some (0, 6) ∧ running s .A = true ∧ paired s .A = true ∧ 6 + 2 ≤ s.tick := by decide +kernel
theorem test_heartbeat_lost : after (.heartbeatLost .A) { pair .current id id with tick := 6 } (fun t => t.a.rel.livenessRead == some (0, 6) && !t.a.rel.pathUp) = true := by decide +kernel
/-- B claims. -/
def claims (c : BitVec 8) : State := pair .current id fun r => { r with claiming := true, claims := c, twinSet := 0x0F#8 }
theorem witness_TwinsWatchEachOther_Takeovers : let s := pair .current (fun r => { r with failSent := true }) id
    s.a.rel.failSent = true ∧ s.pathUp = true ∧ follows s .B = true ∧ s.b.rel.mirror = .current ∧ (claims 0).b.rel.claiming = true ∧ running (claims 0) .B = true ∧
    (claims 0).b.rel.twinSet.getLsbD 2 = true ∧ (claims 0).b.rel.twinSet.getLsbD 6 = false ∧ 2 < (claims 0).outposts.length ∧ (claims 0x0F).b.rel.claiming = true ∧ running (claims 0x0F) .B = true ∧
    (claims 0x0F).b.rel.claims &&& (claims 0x0F).b.rel.twinSet = (claims 0x0F).b.rel.twinSet ∧ (claims 0x07).b.rel.claims &&& (claims 0x07).b.rel.twinSet ≠ (claims 0x07).b.rel.twinSet := by decide +kernel
def robbed : State := { pair .current id id with outposts := List.replicate 8 { owner := some .B } }
theorem witness_TwinsWatchEachOther_Takeovers_refused : activeInst robbed .A = true ∧ (getInst robbed .A).place.split = false ∧ ((outpostSet robbed .A).any fun o => (robbed.outposts.getD o {}).owner == some .B) = true := by decide +kernel
theorem test_takeover : after (.takeover .B) (claims 0x0F) (fun t => t.b.rel.active && t.b.rel.takeovers == 1) = true := by decide +kernel
theorem test_claim : after (.claim .B 2) (claims 0) (fun t => (getOutpost t 2).owner == some .B && t.b.rel.claims == 4) = true := by decide +kernel
theorem witness_MirrorAndPaths_PathsAndCredits : { up with pathUp := false }.pathUp = false ∧ mayResync { up with pathUp := true } = false ∧ mayResync { pair .lost id id with pathUp := true } = true := by decide +kernel
theorem test_credits_return : after (.linkCreditsReturned .A 9) (modStair .A (fun t => { t with credits := 60, creditsOut := 4 }) up) (fun t => t.a.stair.credits == 64 && t.a.stair.creditsOut == 0) = true := by decide +kernel

/-- A drive range is given and an entry is staged. -/
def writing (f : Reliability → Reliability) : State :=
  modInst .A (fun x => { x with place := { x.place with drive := some (0, 0, 2 ^ 30) } }) (modRel .A (fun r => f { r with staged := [.step 1 0] }) { up with tick := 1000 })
def waitingCmd (s : State) : State := modMir .A (fun m => { m with mbox := [ask 0x22 8 []] }) s
theorem witness_FlushesAndDrive_Flushes : drives (writing id) .A = true ∧ flushWanted (getInst (writing id) .A) 1000 = true ∧ commandWaits (writing id) .A false = false ∧
    flushIsForced (getInst (writing fun r => { r with flushForced := true }) .A).rel = true ∧ flushIsForced (getInst (writing id) .A).rel = false ∧ commandWaits (waitingCmd (writing id)) .A false = true ∧
    drives (waitingCmd (writing id)) .A = true ∧ flushWanted (getInst (waitingCmd (writing id)) .A) 1000 = true := by decide +kernel
theorem witness_FlushesAndDrive_Flushes_bound : let s := { writing (fun r => { r with flushDue := some 1000 }) with tick := 5000 }
    drives s .A = true ∧ s.a.rel.flushDue = some 1000 ∧ 1000 + 4000 ≤ s.tick ∧ s.a.rel.flushing = none ∧ commandWaits s .A true = false ∧
    hasOp (writing fun r => { r with flushing := some 1, drive := [{ op := .flush, start := 0 }] }) .A (· == .flush) = true := by decide +kernel
theorem test_flush : after (.journalFlush .A) (writing id) (fun t => t.a.rel.flushing.isSome && t.a.rel.drive.length == 1) = true := by decide +kernel
theorem test_flush_complete : after (.flushComplete .A) (writing fun r => { r with flushing := some 1, drive := [{ op := .flush, start := 0 }] }) (fun t => t.a.rel.staged == [] && t.a.rel.flushes == 1 && t.a.rel.durableStep == 1) = true := by decide +kernel
/-- An operation is at the front of the drive's queue. -/
def driving (op : DriveOp) (again : Bool) : State := writing fun r => { r with drive := [{ op := op, start := 0, retried := again }], bulkForced := true }
theorem witness_FlushesAndDrive_DriveOperations : drives (driving .flush false) .A = true ∧ bulkWanted (getInst (driving .flush false) .A) 1000 = true ∧ commandWaits (driving .flush false) .A false = false ∧
    commandWaits (waitingCmd (driving .flush false)) .A false = true ∧ hasOp (driving .bulk false) .A (· == .bulk) = true ∧
    (driving .flush false).a.rel.drive = [{ op := .flush, start := 0 }] ∧ (driving (.probe 0) true).a.rel.drive = [{ op := .probe 0, start := 0, retried := true }] := by decide +kernel
/-- A drive command has not ended: its entry in the Dusk list is due; in an instance that is not active its own limit has passed. -/
def driveLate : State := dueAt 3 (.unit 20) (writing fun r => { r with drive := [{ op := .flush, start := 0, handle := 0 }] })
def replicaLate : State := { writing (fun r => { r with active := false, drive := [{ op := .flush, start := 0 }] }) with tick := 2000000 }
theorem witness_FlushesAndDrive_DriveTimeout : driveLate.a.rel.active = true ∧ (driveTimer (fireCores .A driveLate) .A).map (·.1) = some 20 ∧ replicaLate.a.rel.active = false ∧
    (replicaLate.a.rel.drive.find? (fun d => decide (d.start + 2000000 ≤ replicaLate.tick))).isSome = true := by decide +kernel
theorem witness_FlushesAndDrive_DriveOperations_digest : let s := writing fun r => { r with digestsIn := [(1, 0, 9)] }
    drives s .A = true ∧ s.a.rel.digestsIn = (1, 0, 9) :: [] ∧ after (.digestPair .A) s (fun t => t.a.rel.drive.map (·.op) == [.digest (1, 0, 9)] && t.a.rel.digestsIn == []) = true := by decide +kernel
theorem test_drive_error_twice : after (.driveCompletion .A false) (driving .flush true) (fun t => t.a.rel.driveFailed) = true := by decide +kernel

/-! ### The Study and the registers -/

/-- A trace with every class and room in its FIFO; a millisecond has passed. -/
def traceUp : State := modStudy .A (fun y => { y with traceOn := true, traceMask := 0x3FF }) { up with tick := 65536000 }
/-- A wait of the trace that began at a Study cycle: the Kitchen's, which the model follows, or one inside an outpost's lane group. -/
def waits (w : Nat) (since : Nat) (s : State) : State := modStudy .A (fun y => { y with waits := [{ src := w, dst := 5, reason := 1, object := 3, since := since }] }) s
def noWaits (s : State) : State := modStudy .A (fun y => { y with waits := [] }) s
def waitEdge (w : Nat) : Edge := { src := w, dst := 5, reason := 1, object := 3 }
theorem witness_StudyEvents : traceUp.tick % 1000 = 0 ∧ traceUp.tick ≠ traceUp.a.study.graphTick ∧ traceUp.a.hearth.coreUp ≠ 0 ∧ traceUp.a.study.traceOn = true ∧ traceUp.tick % 65536 = 0 ∧ up.a.study.draining = none ∧
    traceUp.a.study.lastRec + 4096 < studyTime traceUp .A + 500 ∧ studyTime up .A + 500 ≤ up.a.study.lastRec + 4096 ∧ up.a.study.traceOn = false ∧ up.tick = up.a.study.graphTick := by decide +kernel
theorem witness_StudyEvents_waits : [0x20, 0x200].all (fun w => let s := waits w 0 traceUp
      s.a.study.waits.find? (sameWait (waitEdge w)) == some (waitEdge w) && decide (0 + 0xFFFFFF < studyCount s .A + 500) && keepsWait s .A (waitRec (waitEdge w) 0xFFFFFF)) = true ∧
    (let s := waits 0x20 0 up; s.a.study.waits.find? (sameWait (waitEdge 0x20)) = some (waitEdge 0x20) ∧ studyCount s .A + 500 ≤ 0 + 0xFFFFFF) ∧
    (let s := waits 0x20 0 (modStudy .A (fun y => { y with traceOn := false }) traceUp); s.a.study.waits.find? (sameWait (waitEdge 0x20)) = some (waitEdge 0x20) ∧ keepsWait s .A (waitRec (waitEdge 0x20) 0xFFFFFF) = false) ∧
    (noWaits traceUp).a.study.waits.find? (sameWait (waitEdge 0x20)) = none ∧ followed 0x20 = true ∧ followed 0x200 = false ∧
    keepsWait (noWaits traceUp) .A { waitRec (waitEdge 0x200) (studyCount (noWaits traceUp) .A) with duration := 0xFFFFFF } = true ∧
    keepsWait (noWaits up) .A { waitRec (waitEdge 0x200) (studyCount (noWaits up) .A) with duration := 0xFFFFFF } = false := by decide +kernel
theorem test_wait_record : after (.traceWaitLimit .A 0x20 5 1 3) (waits 0x20 0 traceUp) (fun t => t.a.study.fifo.map (fun r => (r.kind, r.reason, r.waiter, r.holder, r.duration, r.object)) == [(1, 1, 0x20, 5, 0xFFFFFF, 3)]) = true := by decide +kernel
def dumping : State := modInst .A (fun x => { x with place := { x.place with regions := [(6, { base := 0x3000000, size := 0x200000 })] } })
  (modStudy .A (fun y => { y with dumpState := 1, dump := some { fatal := false, code := 0, index := 0, began := 0 } }) up)
theorem witness_StudyEvents_DumpsWritten : dumping.a.study.dumpState = 1 ∧ dumping.a.hearth.coreUp ≠ 0 ∧ (look 6 dumping.a.place.regions).isSome = true ∧ dumping.a.study.dump ≠ none := by decide +kernel
theorem witness_RegisterWrites : aligned true 0x104 = false ∧ aligned true 0x100 = true ∧ slotFields up .A 0x0 ≠ [] ∧ slotFields up .A 0x8000 = [] ∧ blockTakes (modRel .A (fun r => { r with failed := true }) up) .A 0x100 = false ∧
    blockTakes up .A 0x100 = true ∧ slotFields up .A 0x100 ≠ [] ∧ writeCase up .A 0x100 (busWrite true 0x100 (2 ^ 63)) = some 12 ∧ writeCase up .A 0x100 (busWrite true 0x100 5) = none := by decide +kernel
theorem test_misaligned_write : stops (.registerWrite .A true 0x104 5) up 13 = true ∧ stops (.registerWrite .A true 0x100 (2 ^ 63)) up 12 = true := by decide +kernel
theorem witness_KitchenLimits : limitsTake up .A = true ∧ 20000 < 2 ^ 15 ∧ 2 ^ 18 < 2 ^ 19 := by decide +kernel
theorem test_limit_bounds : after (.kitchenLimitWrite .A true 0x100 (20000 + 2 ^ 32 * 300000)) up (fun t => (mir t .A).kitchen.stepLogitLimit == 16384 && (mir t .A).kitchen.stepPrefillLimit == 262144) = true := by decide +kernel
def fences (o : Option InstId) (f : BitVec 32) : State := { up with outposts := modAt up.outposts 2 fun x => { x with owner := o, testFence := f } }
theorem witness_MarksAndFences : limitsTake up .A = true ∧ 2 < (fences none 0).outposts.length ∧ limitsTake (fences none 0) .A = true ∧ (getOutpost (fences (some .B) 0) 2).owner ≠ some .A ∧
    (getOutpost (fences (some .A) 0x7F) 2).owner = some .A ∧ fencedCount (BitVec.ofNat 32 0x80 ||| (getOutpost (fences (some .A) 0x7F) 2).testFence) ≤ 8 ∧
    8 < fencedCount (BitVec.ofNat 32 0x180 ||| (getOutpost (fences (some .A) 0x7F) 2).testFence) ∧ deaf up .A = false := by decide +kernel
theorem test_fence_refused : after (.fenceMaskWrite .A 2 true 0x180) (fences (some .A) 0x7F) (fun t => (getOutpost t 2).fenceMask == 0 && (getOutpost t 2).fenceRefusedA) = true := by decide +kernel
/-- Latch 3 is held. -/
def held3 : State := mirUp fun m => { m with latches := modAt m.latches 3 fun l => { l with held := true } }
theorem witness_ControlWrites : porchTakes up .A = true ∧ latchIdle (mir up .A) (getLatch (mir up .A) 255) (getLatch (mir up .A) 255).models = true ∧ porchTakes held3 .A = true ∧
    latchIdle (mir held3 .A) (getLatch (mir held3 .A) 3) (getLatch (mir held3 .A) 3).models = false ∧ deaf up .A = false := by decide +kernel
theorem test_timing_least : after (.stairwellTimingWrite .A true 0xC08 0) up (fun t => t.a.stair.retryTicks == 16 && t.a.stair.timeoutTicks == 1000) = true := by decide +kernel
theorem test_latch_in_use : stops (.latchConfigWrite .A true 0x2068 5) held3 10 = true := by decide +kernel
theorem witness_RegisterReads : 0x428 % 8 = 0 ∧ ((slotFields up .A 0x100).any fun f => f.acc == .rc) = false ∧ 0x42C % 8 = 4 ∧ 0x42A % 4 ≠ 0 ∧ 0x42C % 8 ≠ 0 ∧ inReset { up with cap := { up.cap with inResetA := true } } .A = true := by decide +kernel
theorem witness_RegisterReads_DeferMaxCleared : inReset up .A = false := by decide +kernel
theorem test_rc_read : after (.rcFieldRead .A true 0x428) (modHearth .A (fun h => { h with flushDefer := 2, flushDeferMax := 7 }) up) (fun t => t.busData == BitVec.ofNat 64 (2 + 2 ^ 32 * 7) && t.a.hearth.flushDeferMax == 0) = true := by decide +kernel

/-! ### Commands that are refused, stopped, or have nothing to do -/

/-- The command may be started, its row meets no undefined case, and it is answered with a result code. -/
def refused (cmd : Instr) (code n : Nat) (fs : List (Nat × List Byte)) (bad : State → MboxCmd → Option Nat) (s : State) (r : Nat) : Bool :=
  runs code n fs (bad (asked (ask code n fs) s)) s && after cmd (asked (ask code n fs) s) (fun t => result0 t == some r)
/-- The command may be started, and stops at case `k`. -/
def stopped (cmd : Instr) (code n : Nat) (fs : List (Nat × List Byte)) (s : State) (k : Nat) : Bool :=
  runs code n fs noCase s && stops cmd (asked (ask code n fs) s) k
def free' (bad : MboxCmd → Option Nat) (_ : State) : MboxCmd → Option Nat := bad
def plain (_ : State) : MboxCmd → Option Nat := noCase

theorem witness_MailboxTransport_rows : winServes State.reset .A 0 = false ∧
    parseCmd (memGets (getWin (mir (mirUp fun m => { m with windows := modAt m.windows 0 fun w => { w with pending := true, cmd := memPuts [] 0 (leBytes 2 0x22 ++ leBytes 2 2) } }) .A) 0).cmd 0 16) = ⟨0x22, 2, 0, 0, true⟩ ∧
    nextCommand (asked (ask 0x22 8 []) up) .A 0 = some (ask 0x22 8 []) ∧ (ask 0x22 8 []).code ≠ 0x23 ∧
    (cmdSpec 0x30).map (scopeRefusal (asked (ask 0x30 16 []) configured0) .A · 0) ≠ some none ∧ refused (.recipeDefine .A 0 []) 0x30 16 [] plain configured0 rOk = false ∧
    after (.recipeDefine .A 0 []) (asked (ask 0x30 16 []) configured0) (fun t => result0 t == some rWrongState) = true ∧
    (cmdSpec 0x30).map (fun sp => reservedZero sp.fields (ask 0x30 16 [lf 4 4 1]).params) = some false ∧ stops (.recipeDefine .A 0 []) (asked (ask 0x30 16 [lf 4 4 1]) up) 12 = true ∧
    rowCase up (.park .A 0) (ask 0x51 16 [lf 4 4 2]) = some 12 := by decide +kernel
theorem witness_DawnCommands_refused : refused (.placeRegion .A 0) 0x01 32 manifestRegion plain up rWrongState = true ∧
    stopped (.placeRegion .A 0) 0x01 32 manifestRegion (modInst .A (fun x => { x with place := { x.place with regions := [(3, { base := 0x10FFFFC0, size := 0x1000000 })] } }) configured0) 2 = true ∧
    (let fs := [lf 0 4 1, lf 8 8 4096, lf 16 8 8192]; let s := asked (ask 0x02 24 fs) (onDisk { range := some (1, 4096, 8192) } configured0); let q := asked (ask 0x02 24 fs) (onDisk { range := some (2, 4096, 8192) } configured0);
      s.a.rel.disk.range = some (1, 4096, 8192) ∧ q.a.rel.disk.range ≠ some (1, 4096, 8192) ∧ after (.driveRange .A 0) q (fun t => t.board.length == 1 && t.a.rel.disk == { range := some (1, 4096, 8192) }) = true) := by decide +kernel
theorem witness_ContextLife_refused : refused (.class0Reserve .A 0) 0x10 8 [lf 0 2 1025] plain up rInvalid = true ∧ refused (.class0Reserve .A 0) 0x10 8 [lf 0 2 1, lf 4 4 1] plain up rWrongState = true ∧
    refused (.contextOpen .A 0) 0x20 96 [] (free' openCase) shut rInvalid = true ∧ refused (.contextOpen .A 0) 0x20 96 openBlock (free' openCase) up rWrongState = true ∧
    refused (.contextConfigure .A 0) 0x21 96 [lf 0x54 4 64] (free' openCase) up rInvalid = true ∧ refused (.contextConfigure .A 0) 0x21 96 [] (free' openCase) (turnIs .evening) rWrongState = true ∧
    refused (.contextClose .A 0) 0x22 8 [] (free' closeCase) (with5 .decoding id) rWrongState = true ∧ refused (.contextQuery .A 0) 0x23 8 [lf 0 8 1] (fun s => outCase s 0 128) up rInvalid = true ∧
    stopped (.contextQuery .A 0) 0x23 8 [] (with5 .decoding id) 2 = true ∧ (prm (ask 0x22 8 [lf 0 4 1]) 0 4).testBit 0 = true ∧ closesOf (mir up .A) 0 = [] := by decide +kernel
theorem witness_RecipesAndPlans_refused : stopped (.recipeDefine .A 0 recipe7) 0x30 16 [lf 0 2 4096, lf 8 8 64] up 13 = true ∧ refused (.recipeDefine .A 0 recipe7) 0x30 16 [lf 0 2 8, lf 8 8 64] (fun s => recipeCase s .A recipe7) up rInvalid = true ∧
    stopped (.recipeUndefine .A 0) 0x31 8 [lf 0 2 4096] up 13 = true ∧
    refused (.recipeUndefine .A 0) 0x31 8 [lf 0 2 7] (fun s => undefineCase s.a) (modMir .A (fun m => { m with recipes := [{ id := 7 }] }) (with5 .paused fun r => { r with recipe := 7 })) rWrongState = true ∧
    refused (.planRegister .A 0) 0x40 16 [lf 0 2 3, lf 4 4 192, lf 8 8 0x10000] plain up rInvalid = true ∧ stopped (.planRegister .A 0) 0x40 16 [lf 0 2 3, lf 4 4 1024] (with5 .decoding id) 2 = true ∧
    refused (.planUnregister .A 0) 0x41 8 [lf 0 2 3] plain up rNotFound = true ∧ refused (.planUnregister .A 0) 0x41 8 [lf 0 2 3] plain (modMir .A (fun m => { m with lib := { m.lib with failed := [(3, 1)] } }) up) rOk = true ∧
    refused (.planUnregister .A 0) 0x41 8 [lf 0 2 3] plain (modMir .A (fun m => { m with lib := (mir planUp .A).lib }) (with5 .paused fun r => { r with planValid := true, planId := 3 })) rWrongState = true ∧
    refused (.planQuery .A 0) 0x42 8 [lf 0 2 3] plain up rNotFound = true := by decide +kernel
/-- The image of plan 3 arrives where a prompt is held, or at an instance none of whose cores is in service. -/
theorem witness_RecipesAndPlans_PlanFetched_not : onDuty planUp .A 1 = true ∧ onDuty (modHearth .A (fun h => { h with coreUp := 0 }) planUp) .A 1 = false ∧
    hostWriteCase planUp 0x10000 (slice plan3 0 64) = none ∧
    (let s := modMir .A (fun m => { m with lib := (mir planUp .A).lib }) (with5 .admitted fun r => { r with promptAddr := 0x10000, promptLen := 4 });
      activeInst s .A = true ∧ onDuty s .A 1 = true ∧ hostWriteCase s 0x10000 [1#8] = some 5) := by decide +kernel
theorem witness_OrdersPostEvents_refused : refused (.cancel .A 0) 0x50 16 [lf 0 1 3] (free' cancelCase) up rInvalid = true ∧ refused (.cancel .A 0) 0x50 16 [lf 8 8 5] (free' cancelCase) up rNotFound = true ∧
    refused (.cancel .A 0) 0x50 16 [lf 8 8 5] (free' cancelCase) (with5 .finished id) rWrongState = true ∧ refused (.park .A 0) 0x51 16 [lf 0 4 5] (free' (orderCase true)) up rNotFound = true ∧
    refused (.resume .A 0) 0x52 8 [lf 0 4 5] (free' (orderCase false)) (turnIs .evening) rWrongState = true ∧ refused (.resume .A 0) 0x52 8 [lf 0 4 5] (free' (orderCase false)) up rNotFound = true ∧
    refused (.extend .A 0 [8]) 0x53 24 [lf 0 4 5, lf 4 4 1] (fun s => extendCase s .A [8]) up rNotFound = true ∧ refused (.extend .A 0 [8]) 0x53 24 [lf 0 4 5, lf 4 4 1] (fun s => extendCase s .A [8]) (with5 .decoding id) rWrongState = true ∧
    refused (.extend .A 0 []) 0x53 24 [lf 0 4 5] (fun s => extendCase s .A []) (with5 .paused id) rInvalid = true ∧ stopped (.extend .A 0 [1000]) 0x53 24 [lf 0 4 5, lf 4 4 1, lf 8 8 0x60000] (with5 .paused id) 13 = true ∧
    refused (.querySequence .A 0) 0x54 16 [lf 0 4 5, lf 8 8 4] queryCase up rInvalid = true ∧ refused (.querySequence .A 0) 0x54 16 [lf 0 4 5, lf 8 8 64] queryCase up rNotFound = true ∧
    stopped (.querySequence .A 0) 0x54 16 [lf 0 4 5] (with5 .decoding id) 2 = true ∧
    refused (.migrate .A 0) 0xA0 16 [lf 0 4 5] (free' migrateCase) up rNotFound = true ∧ refused (.migrate .A 0) 0xA0 16 [lf 0 4 5, lf 8 4 40] (free' migrateCase) (with5 .prefilling id) rWrongState = true ∧
    refused (.migrate .A 0) 0xA0 16 [lf 0 4 5, lf 8 4 40] (free' migrateCase) (modMir .A (fun m => { m with outXfers := List.replicate 64 { subject := 1, attempt := 0, forward := true, dst := 9 } }) (with5 .paused id)) rFull = true ∧
    cancelTargets (mir up .A) 0 0 5 = [] ∧ (prm (ask 0x51 16 [lf 4 4 1]) 4 4).testBit 0 = true := by decide +kernel
theorem witness_ModelLife_refused : refused (.modelDescribe .A 0 model2) 0x60 8 [lf 0 8 64] (free' (describeCase (modelAt .described .none) model2)) (modelAt .described .none) rExists = true ∧
    refused (.modelDescribe .A 0 (layout 64 [lf 0 1 2, lf 2 1 3, lf 4 4 1])) 0x60 8 [lf 0 8 64] (free' (describeCase up (layout 64 [lf 0 1 2, lf 2 1 3, lf 4 4 1]))) up rInvalid = true ∧
    refused (.modelQuery .A 0) 0x61 16 [lf 0 1 2, lf 8 8 1] plain up rInvalid = true ∧ stopped (.modelQuery .A 0) 0x61 16 [lf 0 1 2] (with5 .decoding id) 2 = true ∧
    ([(0x62, Instr.modelForget .A 0), (0x63, .modelLoaded .A 0), (0x64, .modelLoadDeclined .A 0), (0x65, .modelUnloaded .A 0), (0x66, .modelPin .A 0)].all fun p =>
      refused p.2 p.1 8 [lf 0 1 2] (free' modelCase) up rNotFound) = true ∧
    ([(0x62, Instr.modelForget .A 0), (0x63, .modelLoaded .A 0), (0x64, .modelLoadDeclined .A 0), (0x65, .modelUnloaded .A 0)].all fun p =>
      refused p.2 p.1 8 [lf 0 1 2] (free' modelCase) (modelAt .resident .none) rWrongState) = true ∧
    refused (.modelPin .A 0) 0x66 8 [lf 0 1 2, lf 1 1 2] (free' modelCase) (modelAt .resident .none) rInvalid = true ∧ (getModel (mir (modelAt .refused .none) .A) 2).state = .refused ∧
    refused (.modelForget .A 0) 0x62 8 [lf 0 1 2] (free' modelCase) (modelAt .refused .none) rOk = true := by decide +kernel
theorem witness_EpochLife_refused : refused (.epochStage .A 0 epoch2) 0x70 8 [lf 0 8 64] (free' (stageCase up epoch2)) up rNotFound = true ∧
    ([(0x71, Instr.epochReady .A 0), (0x72, .epochCommit .A 0), (0x73, .epochUnstage .A 0), (0x74, .epochRetire .A 0)].all fun p =>
      refused p.2 p.1 8 [lf 0 1 2] (free' modelCase) up rNotFound && refused p.2 p.1 8 [lf 0 1 2] (free' modelCase) (modelAt .resident .armed) rWrongState) = true := by decide +kernel
theorem witness_DayAndPool_refused : refused (.evening .A 0) 0x80 0 [] plain (turnIs .training) rWrongState = true ∧ refused (.morning .A 0) 0x81 8 [lf 0 1 1, lf 1 1 0, lf 2 1 7] (free' morningCase) (turnIs .training) rInvalid = true ∧
    refused (.morning .A 0) 0x81 8 [] (free' morningCase) up rWrongState = true ∧ setChanges up.a (morningSet up.a (ask 0x81 8 [lf 0 1 1, lf 1 1 0, lf 2 1 3])) = true ∧
    setOk false 3 0 = true ∧ refused (.turnCost .A 0) 0x82 16 [lf 0 8 1] plain up rInvalid = true ∧ refused (.turnCost .A 0) 0x82 16 [] plain up rFull = true ∧ stopped (.turnCost .A 0) 0x82 16 [lf 8 4 1] (with5 .decoding id) 2 = true ∧
    refused (.poolLend .A 0) 0x83 16 [lf 0 8 1] plain poolUp rInvalid = true ∧ refused (.poolLend .A 0) 0x83 16 [lf 8 4 9] plain up rWrongState = true ∧ refused (.poolLend .A 0) 0x83 16 [] plain poolUp rFull = true ∧
    stopped (.poolLend .A 0) 0x83 16 [lf 8 4 4] (modInst .A (fun x => { x with place := poolUp.a.place }) (modKit .A (fun k => { k with turn := .training }) (with5 .decoding id))) 2 = true := by decide +kernel
theorem witness_DurabilityCommands_refused : refused (.driveRetry .A 0) 0x93 0 [] plain up rWrongState = true ∧ refused (.snapshot .A 0) 0x90 8 [] (free' fun c => tooWide (prm c 0 4) 10) driveGone rIoError = true := by decide +kernel
theorem witness_StudyCommands_refused : refused (.trace .A 0) 0xB1 8 [lf 0 1 2] plain up rInvalid = true ∧ refused (.trace .A 0) 0xB1 8 [lf 0 1 1] plain up rWrongState = true ∧ traceCap up.a = 0 ∧
    refused (.counters .A 0) 0xB2 16 [] plain up rInvalid = true ∧ stopped (.counters .A 0) 0xB2 16 [lf 0 4 1] (with5 .decoding id) 2 = true ∧
    refused (.watch .A 0) 0xB0 32 [lf 8 1 5] watchCase up rInvalid = true ∧ refused (.watch .A 0) 0xB0 32 [] watchCase up rNotFound = true ∧ refused (.watch .A 0) 0xB0 32 [lf 0 4 5] watchCase (with5 .decoding id) rWrongState = true ∧
    refused (.watch .A 0) 0xB0 32 [lf 0 4 5, lf 4 4 4] watchCase (with5 .decoding id) rFull = true ∧ stopped (.watch .A 0) 0xB0 32 [lf 0 4 5, lf 4 4 4, lf 0x18 4 0x100000] (with5 .decoding id) 2 = true := by decide +kernel
theorem witness_DirectionsAndImages_refused : refused (.directionsSet .A 0 []) 0xA1 16 [lf 4 4 17] (free' (directionsCase up [])) up rInvalid = true ∧ refused (.imageWrite .A 0 []) 0xC0 16 [lf 8 4 16777217] (free' (imageCase up [])) up rInvalid = true ∧
    refused (.imageWrite .A 0 []) 0xC0 16 [lf 8 4 1] (free' (imageCase (programming false) [])) (programming false) rWrongState = true := by decide +kernel

/-! ### The other clauses: rings, composition, outposts, the Landing, notices -/

/-- A's mirror: the active twin is B. -/
def mirrorA : State := modRel .A (fun r => { r with mirror := .current, active := false }) up
/-- An intake queue of A's Hallway is full. -/
def full (k : EvKind) (n : Nat) (s : State) : State := modHall .A (fun h => { h with waiting := List.replicate n { flow := .seq 9, kind := k } }) s
theorem witness_Rings_others : porchTakes mirrorA .A = false ∧ (getCtx (mir up .A) 0).cfg.sqEntries < ringDiff 17 (getCtx (mir up .A) 0).sqHead ∧ (getCtx (mir up .A) 0).cfg.cqEntries < ringDiff (getCtx (mir up .A) 0).cqTail 1 ∧
    cqWrites up .A 0 = 0 ∧ (getInst up .A).rel.active = true ∧ (getCtx (mir up .A) 0).unsignalled = 0 ∧ mirrorA.a.rel.active = false := by decide +kernel
theorem test_count_moderation : let s := ctx0 (fun x => { x with irqCount := 2, unsignalled := 2 }) up
    after (.irqModerationTimer .A 0) s (fun t => (mir t .A).irq.cq.getLsbD 0) = true := by decide +kernel
theorem witness_EntriesRead_others : sqReads up .A 0 = false ∧ intakeFull 2 up.a.hall = false ∧ (entryOf 0).length = 320 ∧ Machine.Mem.wf submitting.host = true ∧ entryReserved (1#8 :: 0#8 :: 1#8 :: List.replicate 317 0#8) = true ∧
    fld (entryOf 1) 0 1 ≤ 1 ∧ fld (entryOf 2) 0 1 ≠ 0 ∧ requestReserved (layout 256 [lf 0x0C 1 4]) = true ∧
    (requestCase (placeBuffers (parseRequest request1) [3, 1000] [] submitting) .A (parseRequest request1)) = some 13 ∧ (getCtx (mir submitting .A) 0).closing = false := by decide +kernel
theorem witness_InterruptWrites_others : reaches true 0xA04 irqStatusOff = true ∧ aligned true 0xA04 = false ∧ reaches false 0xA0A irqEnableOff = true ∧ aligned false 0xA0A = false ∧
    porchTakes mirrorA .A = false ∧ aligned true 0xA00 = true ∧ (BitVec.ofNat 64 (2 ^ 36)) >>> 36 ≠ 0#64 := by decide +kernel
theorem test_misaligned_clear : stops (.irqStatusClear .A true 0xA04 1) up 13 = true ∧ stops (.irqEnableWrite .A false 0xA0A 1) up 13 = true := by decide +kernel

/-- What a composition has before it. -/
def composing (s : State) : State := latchWaits .A (candidatesOf (preCompose .A s) .A) (preCompose .A s)
def topOf (s : State) : Option Machine.Seq := firstBy (fun a b => before (mir (composing s) .A) s.tick [] a b) (candidatesOf (preCompose .A s) .A)
/-- The candidate that would preempt waits on a latch of another context. -/
def latchedOut : State := modMir .A (fun m => { m with latches := [{ enable := true, models := 1, held := true, owner := 3, maxHold := 9 }] }) preempting
theorem witness_Composition_others : kitchenOpen up .A = false ∧
    [preempting, latchedOut, modKit .A (fun k => { k with preemptMask := 0 }) preempting, modKit .A (fun k => { k with steps := [step1 0] }) preempting].all (fun s => kitchenOpen s .A &&
      inFlightSteps (mir (composing s) .A) == (mir (composing s) .A).kitchen.depth && (topOf s).map (rankClass (mir (composing s) .A)) == some 0) = true ∧
    (topOf latchedOut).map (fun q => unlatched (mir (composing latchedOut) .A) [q]) = some [] ∧ (mir (composing (modKit .A (fun k => { k with preemptMask := 0 }) preempting)) .A).kitchen.preemptMask.testBit 0 = false ∧
    preemptable (mir (composing (modKit .A (fun k => { k with steps := [step1 0] }) preempting)) .A) 0 = none ∧
    (let s := modMir .A (fun m => { m with seqs := [] }) preempting; kitchenOpen s .A = true ∧ topOf s = none) := by decide +kernel
/-- The step that would preempt is composed, or, with no page for it, is not. -/
def preemptTry (s : State) : Bool :=
  let v := composing s
  match topOf s, preemptable (mir v .A) 0 with
  | some top, some y =>
    let k := modAcct .A top.r.context (fun a => { a with preempting := satTo 32 (a.preempting + 1) }) (killStep .A y.num true v)
    composedFor v (composeNow .A false top (candidatesOf k .A) k) .A top.r.localId
  | _, _ => false
def pageless : State := modInst .A (fun x => { x with place := { x.place with regions := [(1, { base := 0x2000000, size := 0x100000, aux := 0x1000 }), (4, { base := 0x1000000, size := 0, frameLog2 := 16 })] } }) preempting
theorem witness_Composition_composed : preemptTry preempting = true ∧ (topOf pageless).isSome = true ∧ (preemptable (mir (composing pageless) .A) 0).isSome = true ∧ preemptTry pageless = false := by decide +kernel

/-- The row of a killed step, and a row whose pass may not begin. -/
theorem witness_LanePassesAndTests_others : let k := post0 (fun x => { x with rows := [{ row1 .maxPass with killed := true }] }) up
    (getOutpost k 0).rows.find? (·.su.h == handle1) = some { row1 .maxPass with killed := true } ∧ (row1 .setup).killed = false ∧ passReady (getOutpost (rowAt .setup) 0) (row1 .setup) 0 = false ∧
    (getOutpost (rowAt .setup) 0).rows.find? (·.su.h == handle1) = some (row1 .setup) ∧ (getOutpost up 0).selftest = false := by decide +kernel
theorem witness_ChannelOrders_held : holdsRow (getOutpost (sentDown (.done handle1)) 0) handle1 = true ∧ (knownSetups (getOutpost (sentDown (.rowSetup (setup1 1))) 0)).any (·.h == handle1) = false ∧
    (knownSetups (getOutpost (post0 (fun x => { x with draws := [{ step := 1, rows := [setup1 1] }] }) (sentDown (.rowSetup (setup1 1)))) 0)).any (·.h == handle1) = true ∧
    holdsRow (getOutpost (post0 (fun x => { x with rows := [], downA := [.done handle1] }) up) 0) handle1 = false := by decide +kernel
theorem test_row_dropped : after (.doneMsg 0) (post0 (fun x => { x with rows := [], downA := [.done handle1] }) up) (fun t => t.a.study.channelDiscards == 1 && (getOutpost t 0).downA == []) = true := by decide +kernel
theorem witness_Landing_stray : let m : UpMsg := .maxSum handle1 none none 0 none
    strayUp (post0 (fun x => { x with upA := [m] }) up) .A 0 m = true := by decide +kernel
def drawn : UpMsg := .raceSum handle1 (some (0x3F800000, 0))
/-- Every usher holds 64 events, and 1,024 stop checks wait: what the race's end posts must wait too. -/
def crowded : State := modMir .A (fun m => { m with seqs := [{ seq5 .decoding with r := { (seq5 .decoding).r with stopSeqCount := 1 } }] })
  (modHall .A (fun h => { h with events := (List.range 2048).map (fun k => { flow := .seq (10 + k), kind := .stopCheck 0 0, usher := k % 32 }), waiting := List.replicate 1024 { flow := .seq 9, kind := .stopCheck 0 0 } }) (landed1 1 .race drawn))
set_option maxRecDepth 20000 in
theorem witness_Landing_held : (let s := crowded; let sums := [(0, drawn)]
      let v := modLand .A handle1 (fun y => { y with sums := sums }) (popUp .A 0 s)
      let u := actRace .A { landRow1 1 .race with sums := sums } sums v
      strayUp s .A 0 drawn = false ∧ landingHeld (getInst s .A).hall (getInst u .A).hall = true) := by decide +kernel
theorem witness_NoticesAndKernelFaults_others : activeInst mirrorA .A = false ∧ (stepIn .issued).outposts.getLsbD 3 = false := by decide +kernel
theorem witness_Latches_others : stepBy24 (mir up .A) 1 = none ∧ running State.reset .A = false := by decide +kernel
theorem witness_CommitPoints_others : (stepIn .landing).phase ≠ .sampled ∧ getStep (mir (stepping .landing) .A) 1 = some (stepIn .landing) := by decide +kernel
/-- A commit that frees no page, where the pool has none, lets the parked ones go on. -/
theorem witness_CommitEvents_pages : let s := committing id; let u := commitOne .A 1 0 (releaseEvent .A (.seq 5) s)
    ¬(freePages (getInst s .A) < freePages (getInst u .A)) ∧ headKind up .A 5 = none ∧ (evented .decoding .cool).a.hall.waiting = [] := by decide +kernel

/-! ### The events' other outcomes -/

theorem witness_AdmissionAndPages_others : (seqOf (ev .free .admission fun r => { r with notifyAdmit := true }) .A 5).r.notifyAdmit = true ∧ heads .decoding .admission = true ∧
    mustBeHot (mir (ev .decoding .cool fun r => { r with hot := true }) .A) (seqOf (ev .decoding .cool fun r => { r with hot := true }) .A 5) = true ∧ heads .finished .evictPark = true ∧ SeqState.finished.composed = false ∧
    heads .parked .evictResume = true ∧ (seqOf (ev .parked .evictResume id) .A 5).evicted = false ∧ heads .decoding (.prefixTake 3) = true := by decide +kernel
theorem test_eviction_resume : after (.evictionResume .A 5) (evicted5 .evictResume) (fun t => (seqOf t .A 5).r.state == .prefilling && !(seqOf t .A 5).evicted) = true := by decide +kernel
/-- Sequence 5 has a row in flight and is in a state; an arrival takes its place. -/
def busy5 (st : SeqState) (k : EvKind) : State := withEvent k (modKit .A (fun x => { x with steps := [stepIn .issued] }) (with5 st id))
def arrival5 : InXfer := { subject := 2, attempt := 0, forward := false, src := 9, context := 0, lid := 5 }
def arrivingEv (k : EvKind) : State := modMir .A (fun m => { m with inXfers := [arrival5] }) (ev .migrating k id)
theorem witness_OrderEvents_arrival : [EvKind.cancel none, .epochAbort none, .teardown].all (fun k => headKind (arrivingEv k) .A 5 == some k && (seqOf (arrivingEv k) .A 5).r.state.live &&
      !(inFlight (mir (arrivingEv k) .A) 5) && arrivalOf (mir (arrivingEv k) .A) 5 == some arrival5) = true := by decide +kernel
theorem test_cancel_discards_arrival : after (.sequenceCancel .A 5) (arrivingEv (.cancel none)) (fun t => (mir t .A).seqs == [] && (mir t .A).inXfers == [] && (getCtx (mir t .A) 0).stream == []) = true := by decide +kernel
theorem witness_OrderEvents_waits : headKind (busy5 .decoding (.park 9 none)) .A 5 = some (.park 9 none) ∧ inFlight (mir (busy5 .decoding (.park 9 none)) .A) 5 = true ∧ headKind (busy5 .decoding (.epochAbort none)) .A 5 = some (.epochAbort none) ∧
    heads .paused (.resume none) = true ∧ (seqOf (ev .paused (.resume none) id) .A 5).r.committedLen < 16 ∧ heads .decoding (.resume none) = true ∧ heads .admitted (.park 9 none) = true ∧ SeqState.admitted.composed = false := by decide +kernel
/-- An extension with no room, one whose plan is being fetched, one whose plan is not registered. -/
def extending (toks : List Nat) (mode : Nat) (lib : Library) : State := modMir .A (fun m => { m with lib := lib }) (ev .paused (.extend toks mode 0 0 0) fun r => { r with planValid := true, planId := 3 })
theorem witness_OrderEvents_extend_others : headKind (extending (List.replicate 17 8) 0 {}) .A 5 = some (.extend (List.replicate 17 8) 0 0 0 0) ∧ (seqOf (extending [] 0 {}) .A 5).r.trailCapacity < (seqOf (extending [] 0 {}) .A 5).r.committedLen + 17 ∧
    headKind (extending [8] 1 (mir planUp .A).lib) .A 5 = some (.extend [8] 1 0 0 0) ∧ (residentPlan (mir (extending [8] 1 (mir planUp .A).lib) .A) 3).isNone = true ∧ registered (mir (extending [8] 1 (mir planUp .A).lib) .A) 3 = true ∧
    registered (mir (extending [8] 1 {}) .A) 3 = false ∧ extendPlan (mir (extending [8] 1 {}) .A) (seqOf (extending [8] 1 {}) .A 5).r [8] 1 0 0 = none := by decide +kernel

/-- Plan 3 is resident: one state, from which token 0 is forced. -/
def forcedPlan : Plan := parsePlan plan3
def forcing (f : Plan → Plan) : State := modMir .A (fun m => { m with lib := { m.lib with registry := [{ id := 3, addr := 0x10000, size := 1024 }], slots := [{ slot := 0, planId := 3, plan := some (f forcedPlan) }] } })
  (ev .decoding .forceRun fun r => { r with hot := true, planValid := true, planId := 3, deadlineTick := 50 })
set_option maxRecDepth 20000 in
theorem witness_TurnAndHouseholdEvents_forced : let s := forcing id; let q := seqOf s .A 5; let t := releaseEvent .A (.seq 5) s
    headKind s .A 5 = some .forceRun ∧ q.r.state = .decoding ∧ (stepOfSeq (mir s .A) 5).isNone = true ∧ s.tick ≤ q.r.deadlineTick ∧ flowHas (getInst t .A).hall (.seq 5) endsSeq = false ∧ q.r.planValid = true ∧
    (residentPlan (mir s .A) q.r.planId).isSome = true ∧ goesOn (.forceRun .A 5) s = true := by decide +kernel
/-- Context 0 under CROSS, Midnight reheating or not; sequence 5 in a state. -/
def crossing (st : SeqState) (reheat : Bool) (p : Nat) : State := modCtx .A 0 (fun x => { x with cfg := { x.cfg with epochPolicy := p, crossReheat := reheat } }) (ev st (.midnight midnight01) id)
theorem witness_TurnAndHouseholdEvents_midnight : [crossing .decoding false 1, crossing .decoding true 1, crossing .parked true 1, crossing .migrating false 1].all (fun s => headKind s .A 5 == some (.midnight midnight01) &&
      (seqOf s .A 5).r.state.live && (seqOf s .A 5).r.model == midnight01.model && (seqOf s .A 5).r.epoch == midnight01.old && (midnightPolicy (mir s .A) (seqOf s .A 5) midnight01).1 == 1) = true ∧
    (midnightPolicy (mir (crossing .decoding false 1) .A) (seqOf (crossing .decoding false 1) .A 5) midnight01).2 = false ∧ midnight01.newTag = midnight01.oldTag ∧
    (midnightPolicy (mir (crossing .decoding true 1) .A) (seqOf (crossing .decoding true 1) .A 5) midnight01).2 = true ∧ SeqState.decoding.composed = true ∧ SeqState.parked.composed = false ∧
    (midnightPolicy (mir (policy 2) .A) (seqOf (policy 2) .A 5) midnight01).1 = 2 ∧ (midnightPolicy (mir (policy 0) .A) (seqOf (policy 0) .A 5) midnight01).1 = 0 := by decide +kernel
theorem test_cross_reheat : after (.midnightEvent .A 5) (crossing .decoding true 1) (fun t => (seqOf t .A 5).r.epoch == 1 && (seqOf t .A 5).r.kvLen == 0) = true := by decide +kernel
/-- Sequence 5 holds a page; it is shuttered, or parked, with the state it returns to. -/
def paged (st : SeqState) (k : EvKind) : State := modSeq .A 5 (fun q => { q with pages := [{ page := 0 }] }) (ev st k id)
def returning (st ret : SeqState) (tag : Nat) (k : EvKind) : State := ev st k fun r => { r with returnState := ret, layoutTag := tag }
theorem witness_TurnAndHouseholdEvents_turn : headKind (paged .decoding .evening) .A 5 = some .evening ∧ (seqOf (paged .decoding .evening) .A 5).pages ≠ [] ∧ (getCtx (mir (paged .decoding .evening) .A) 0).cfg.kvTurnRelease = false ∧
    SeqState.decoding ≠ .migrating ∧ SeqState.decoding ≠ .shuttered ∧ (seqOf (ev .decoding .evening id) .A 5).pages = [] ∧
    [returning .shuttered .paused 0 .morning, returning .shuttered .paused 7 .morning, returning .shuttered .decoding 0 .morning, returning .parked .decoding 0 .morning, returning .decoding .free 0 .morning].all (fun s => headKind s .A 5 == some .morning) = true ∧
    headKind (returning .parked .decoding 0 .morningResume) .A 5 = some .morningResume ∧ tagOf (mir (returning .shuttered .paused 0 .morning) .A) (seqOf (returning .shuttered .paused 0 .morning) .A 5).r = 0 ∧
    tagOf (mir (returning .shuttered .paused 7 .morning) .A) (seqOf (returning .shuttered .paused 7 .morning) .A 5).r ≠ 7 := by decide +kernel
theorem test_evening_shutters : after (.eveningEvent .A 5) (paged .decoding .evening) (fun t => (seqOf t .A 5).r.state == .shuttered && (seqOf t .A 5).r.returnState == .decoding) = true := by decide +kernel
theorem test_morning_resumes : after (.morningEvent .A 5) (returning .parked .decoding 0 .morning) (fun t => (seqOf t .A 5).r.state == .prefilling) = true := by decide +kernel
/-- A cold record holds a broadcast event. -/
def sweeping : State := modSeq .A 5 (fun q => { q with bcast := [(.evening, 0)] }) (with5 .parked id)
theorem witness_TurnAndHouseholdEvents_sweep : activeInst sweeping .A = true ∧ sweepNext (mir sweeping .A) 5 = true ∧ sweepNext (mir up .A) 5 = false := by decide +kernel
theorem witness_TurnAndHouseholdEvents_planReady : let s := modSeq .A 5 (fun q => { q with waiting := [.extend [8] 0 0 0 0] }) (ev .paused .planReady id)
    headKind s .A 5 = some .planReady ∧ (seqOf s .A 5).waiting = [.extend [8] 0 0 0 0] := by decide +kernel

theorem witness_PeerMessages_others : fabricOn (full (.migrateIn 0) 1024 up) .A = true ∧ intakeFull 3 (full (.migrateIn 0) 1024 up).a.hall = true ∧ intakeFull 3 up.a.hall = false ∧
    hasGen tAccept = true ∧ (let m := msgTo tAccept 1; msgCheck m = m.check ∧ m.dstGen ≠ (getInst up .A).stair.roleGen) ∧
    announceCase (msgTo tAnnounce 0) = none ∧ announceCase { msgTo tAnnounce 0 with payload := layout 64 [lf 0x13 1 1] } = some 12 ∧ offerCase [] = none ∧ offerCase (layout 128 [lf 1 1 2]) = some 12 ∧
    (let m := { mkMsg tAccept 0 with src := 9, subject := 1, payload := leBytes 8 2 }; arrives up .A tAccept { m with check := msgCheck m } = true ∧ fld m.payload 0 8 / 2 ≠ 0) ∧
    bodyCase up .A (msgTo tHandover 0) = none ∧ bodyCase up .A (msgTo tData 0) = none := by decide +kernel
theorem test_offer_reserved : (let m := { mkMsg tOffer 0 with src := 9, subject := 1, payload := layout 128 [lf 1 1 2] }; stops (.offer .A { m with check := msgCheck m }) up 12) = true := by decide +kernel
/-- A transfer of sequence 5 is open, or an arrival of it waits for its place or for its end. -/
def outgoing (st : SeqState) (k : EvKind) : State := modMir .A (fun m => { m with outXfers := [{ subject := 1, attempt := 0, forward := false, lid := 5, dst := 9 }] }) (ev st k id)
def incoming (k : EvKind) (fin : List Byte) : State :=
  modInst .A (fun x => { x with place := { x.place with regions := [(1, { base := 0x1000000, size := 0x10000, aux := 0x10000 })] } }) (modMir .A (fun m => { m with households := [], inXfers := [{ arrival5 with final := fin }] }) (ev .free k id))
theorem witness_MigrationEvents_transfers : [EvKind.migrateAck, .migrateFail 3].all (fun k => headKind (outgoing .migrating k) .A 5 == some k && (outOfSeq (mir (outgoing .migrating k) .A) 5).isSome && (findSeq (mir (outgoing .migrating k) .A) 5).isSome) = true ∧
    outOfSeq (mir (ev .migrating .migrateAck id) .A) 5 = none ∧ headKind (incoming (.migrateIn 2) []) .A 5 = some (.migrateIn 2) ∧
    ((mir (incoming (.migrateIn 2) []) .A).inXfers.find? (fun y => y.subject == 2 && y.lid == 5 && !y.forward && !y.handedOver)).isSome = true ∧ freeHid (mir (incoming (.migrateIn 2) []) .A) = some 0 ∧
    (findSeq (mir (incoming (.migrateIn 2) []) .A) 5).isSome = true ∧ headKind (incoming (.migrateDone 2) [1#8]) .A 5 = some (.migrateDone 2) ∧
    ((mir (incoming (.migrateDone 2) [1#8]) .A).inXfers.find? (fun y => y.subject == 2 && y.lid == 5 && !y.forward && !y.handedOver && !y.final.isEmpty)).isSome = true ∧
    64 ≤ (List.replicate 64 arrival5).length ∧ (getInst up .A).stair.held = [] := by decide +kernel
theorem test_migrate_ack_frees : after (.migrateAck .A 5) (outgoing .migrating .migrateAck) (fun t => (mir t .A).seqs == [] && (mir t .A).outXfers == []) = true := by decide +kernel
theorem test_migrate_in : after (.migrateIn .A 5) (incoming (.migrateIn 2) []) (fun t => (seqOf t .A 5).r.state == .migrating && (mir t .A).households.map (·.leader) == [5]) = true := by decide +kernel

theorem witness_MirrorAndPaths_others : (streaming 2).a.rel.streamOut ≠ [] ∧ follows up .B = false ∧ { up with pathUp := false }.pathUp = false ∧ (pair .current id id).a.rel.acksDue = 0 := by decide +kernel
theorem test_fourth_damage_is_path_fault : after (.mirrorMessage .B true) (streaming 3) (fun t => t.a.rel.mirror == .lost && t.b.rel.mirror == .lost) = true := by decide +kernel
/-- B is silent, or not; the mirror reads its twin's word two ticks later. -/
def checking (i : InstId) (m : MirrorState) (word : Nat) : State := modRel i (fun r => { r with livenessRead := some (word, 6) }) { pair m id id with tick := 8 }
theorem witness_TwinsWatchEachOther_checks : [checking .B .current 0, checking .B .syncing 0, checking .B .current 9].all (fun s => running s .B && paired s .B && s.b.rel.livenessRead.isSome && !s.b.rel.active) = true ∧
    (getInst (checking .B .current 0) .A).liveness = 0 ∧ (checking .A .current 9).a.rel.active = true ∧ (getInst (checking .A .current 9) .B).liveness ≠ 9 ∧ (checking .A .current 0).a.rel.livenessRead = some (0, 6) ∧
    { up with pathUp := false }.pathUp = false ∧ running State.reset .A = false ∧ paired up .A = false ∧ { up with tick := 6 }.tick = 6 ∧ (getInst { up with tick := 6 } .A).rel.lastHeartbeat + 6 ≤ 6 ∧ running up .B = false := by decide +kernel
theorem test_silent_active_is_claimed_from : after (.livenessCheck .B) (checking .B .current 0) (fun t => t.b.rel.claiming && t.b.rel.mirror == .current) = true := by decide +kernel
theorem test_living_twin_loses_mirror : after (.livenessCheck .B) (checking .B .current 9) (fun t => !t.b.rel.claiming && t.b.rel.mirror == .lost && t.a.rel.mirror == .lost) = true := by decide +kernel
theorem witness_TwinsWatchEachOther_claims : (getInst up (Machine.other .B)).rel.failSent = false ∧ (let s := pair .syncing (fun r => { r with failSent := true }) id; s.a.rel.failSent = true ∧ s.b.rel.mirror ≠ .current) ∧
    up.b.rel.claiming = false ∧ activeInst up .A = true ∧ (up.outposts.any fun y => y.owner == some (Machine.other .A)) = false ∧ activeInst robbed .A = true ∧ robbed.a.place.split = false ∧ (robbed.outposts.any fun y => y.owner == some (Machine.other .A)) = true := by decide +kernel

/-! ### Clauses of the later statements, each at a state that meets it -/

theorem witness_SplitIsolation_pairs : let s := { modRel .A (fun r => { r with durableStep := 1, flushing := some 1, drive := [{ op := .flush, start := 0 }] }) splitUp with pathUp := true }
    actsFor s (.flushComplete .A) = some .A ∧ (getInst s (Machine.other .A)).place.split = true ∧ after (.flushComplete .A) s (fun t => t.b.rel.digestsIn.length == 1) = true ∧
    actsFor s (.registerWrite .A true 0x100100 5) = some .B ∧ actsFor s (.rcFieldRead .A true 0x428) = some .A := by decide +kernel
theorem witness_SplitIsolation_actsFor : actsFor up (.flushComplete .A) = some .A ∧ actsFor (testing 0 .service) (.laneGroupSelftestDone 0 0) = some .A ∧
    actsFor (rowAt .maxPass) (.lanePassComplete 0 handle1 .ok) = some .A ∧ actsFor (sentDown (.done handle1)) (.doneMsg 0) = some .A ∧
    (let s := { splitUp with outposts := modAt splitUp.outposts 0 fun x => { x with drawsPending := [{ step := 1, rows := [setup1 1] }] } }; goesOn (.drawList 0) s) = true := by decide +kernel
theorem witness_MirrorCarries_stream : streamEnded paired2 .A = false ∧ streamEnded (modRel .A (fun r => { r with failed := true, failSent := true }) paired2) .A = true ∧
    after .tick { modHall .A (fun h => { h with events := [] }) paired2 with tick := 15 } (fun t => !streamEnded t .A) = true := by decide +kernel
theorem witness_MemoryKept_larder : (match step { post0 id up with pending := [Instr.larderGranuleWrite 0 64 (List.replicate 64 0)] } with | .next _ => true | _ => false) = true := by decide +kernel

/-- The Porch's intake queue is full while a command waits. -/
def heldPorch (s : State) : State := full (.cancel none) 1024 s
theorem witness_CommandsStart_held : let s := heldPorch (asked (ask 0x22 8 []) up)
    nextCommand s .A 0 = none ∧ intakeFull 2 (getInst s .A).hall = true ∧ coreCommand s .A 0 ≠ none ∧ nextCommand up .A 0 = none ∧ intakeFull 2 (getInst up .A).hall = false ∧ coreCommand up .A 0 = none ∧
    (nextCommand (asked (ask 0x22 8 []) up) .A 0).map (·.code) = some 0x22 := by decide +kernel

theorem own_verified : compareDigest (restoring false goodDisk [(1, ownDigest, peerAddr up.a)]) .A = .verified := by rw [compared]; simp
theorem other_checked : compareDigest (restoring false goodDisk [(1, ~~~ownDigest, peerAddr up.a)]) .A = .check 3 := by
  rw [compared]
  have h : (~~~ownDigest != ownDigest) = true := by
    rw [bne_iff_ne]; intro e
    have := congrArg (fun v => v.getLsbD 0) e
    simp at this
  rw [h]; rfl
theorem none_unverified : compareDigest (restoring false goodDisk []) .A = .unverified := by
  have l : (getInst (restoring false goodDisk []) (Machine.other .A)).rel.disk.digestLog = [] := rfl
  have q : replicaReached (restoring false goodDisk []) .A = true := rfl
  unfold compareDigest; simp [l, q]
/-- With FORCE a failed comparison rebuilds, without it the restore fails; what is rebuilt of an image without sequences meets no buffer. -/
theorem witness_RestoreEnds_force : (restoring true goodDisk []).a.rel.restoreForce = true ∧ (restoring false goodDisk []).a.rel.restoreForce = false ∧
    restoreClash (rebuild .A { lastStep := 1 } .verified 0 (opDone .A (· == .restore 0) (restoring false blankDisk []))) .A = false := by decide +kernel
/-- An image with a live sequence whose trail lies over the trace region. -/
theorem witness_RestoreEnds_clash : let im : DurImage := { seqs := [{ r := { localId := 5, state := .paused, trailAddr := 0x100000, trailCapacity := 16, promptLen := 4 } }] }
    restoreClash (rebuild .A im .verified 0 (opDone .A (· == .restore 0) (modInst .A (fun x => { x with place := { x.place with regions := [(5, { base := 0x100000, size := 0x10000 })] } }) (restoring false blankDisk [])))) .A = true := by
  decide +kernel

/-- A verified row of one draft token stands in its residual pass. -/
def spec1 : ResidSpec := { kb := 0, tieEnd := 0, draft := none, folds := [] }
theorem witness_ChannelOrders_residual : downHead (getOutpost (sentDown (.resid handle1 spec1)) 0) (fun m => match m with | .cut _ _ _ _ | .resid _ _ => true | _ => false) = some (.A, .resid handle1 spec1) ∧
    after (.cut 0) (sentDown (.resid handle1 spec1)) (fun t => (getOutpost t 0).rows.map (·.stage) == [.residPass]) = true ∧
    (let s := landed1 1 .resid (.residSum handle1 0 [0]);
      upOf (getOutpost s 0) .A = [.residSum handle1 0 [0]] ∧ findLand s .A handle1 = some (landRow1 1 .resid) ∧ strayUp s .A 0 (.residSum handle1 0 [0]) = false ∧ goesOn (.keptSum .A 0) s = true) := by decide +kernel
theorem witness_ForcedRuns_behind : let s := modRel .A (fun r => { r with mirror := .current, acksDue := 1 }) (ev .decoding .forceRun id)
    headKind s .A 5 = some .forceRun ∧ mirrorBehind s .A = true ∧ mirrorBehind (ev .decoding .forceRun id) .A = false ∧ headKind (ev .decoding .forceRun id) .A 5 = some .forceRun := by decide +kernel
/-- A TIMER of a transfer that has closed stands at the head of its flow. -/
def staleTimer (list : Nat) : State := ev .decoding (.timer list 0 7) id
theorem witness_StaleTimers : [1, 3].all (fun l => (findOut (mir (staleTimer l) .A) 5).isNone && (dueTimer (staleTimer l) .A l (.seq (5 % 2 ^ 22))).isSome && decide (5 < 2 ^ 63)) = true ∧
    after (.migrationRetry .A 5) (staleTimer 1) (fun t => (getInst t .A).hall.events == []) = true ∧ after (.migrationTimeout .A 5) (staleTimer 3) (fun t => (getInst t .A).hall.events == []) = true ∧
    dueTimer up .A 1 (.seq 5) = none ∧ (EvKind.timer 2 0 7 = .timer 2 0 7) := by decide +kernel

/-- A header with a reserved bit of the sender's address, and a BOUNCE of such a header. -/
theorem witness_PeerMessages_reserved : (let m := { mkMsg tAccept 0 with src := 2 ^ 14, subject := 1, dstGen := 0 }; let n := { m with check := msgCheck m };
      whole up .A tAccept n = true ∧ headerReserved n = true ∧ stops (.accept .A n) up 12 = true) ∧
    bouncedCase (layout 64 [lf 6 2 (2 ^ 14)]) = some 12 ∧ bouncedCase (layout 64 []) = none ∧ handoverCase up .A (msgTo tHandover 0) = none := by decide +kernel
theorem test_handover_reserved : let b := layout 128 [lf 0 8 5]; bodyCase up .A { msgTo tHandover 0 with payload := b } = handoverCase up .A { msgTo tHandover 0 with payload := b } := by decide +kernel

theorem witness_StudyEvents_graph : (let s := { up with tick := 1000 }
      graphDue s .A = true ∧ onDuty s .A 2 = true ∧ commandWaitsAt s .A 2 false = false ∧ commandWaitsAt (asked { ask 0x22 8 [] with window := 32 } s) .A 2 false = true) ∧ graphDue up .A = false ∧
    onDuty State.reset .A 2 = false ∧ dumping.a.study.dump ≠ none ∧ Machine.Mem.wf dumping.hbm = true := by decide +kernel
/-- Contexts 0 and 1 each hold a latch that the other waits for. -/
def crossed : State := mirUp fun m => { m with
  seqs := [seq5 .decoding, { r := { localId := 6, context := 1, state := .decoding } }]
  latches := [{ enable := true, models := 1, held := true, waiting := true }, { enable := true, models := 1, held := true, waiting := true, owner := 1 }] }
theorem witness_StudyEvents_cycle : (let s := modStudy .A (fun y => { y with graph := waitGraph crossed .A }) crossed
      hasCycle ((waitGraph s .A).filter fun e => s.a.study.graph.any (sameEdge e)) = true) ∧ hasCycle ((waitGraph crossed .A).filter fun e => crossed.a.study.graph.any (sameEdge e)) = false ∧
    crossed.a.study.cause.getLsbD causeCycle = false ∧ tbit (mir (mirUp fun m => { m with causeEnable := 8 }) .A).causeEnable causeCycle = true := by decide +kernel

theorem witness_RegisterWrites_B : 0x100000 ≤ 0x100100 ∧ (InstId.B = .B ∨ 0x100 < 0x100000) ∧ after (.registerWrite .A true 0x100120 5) up (fun t => t.a == up.a) = true := by decide +kernel
/-- Eight bytes that reach a row's register from below. -/
theorem witness_RegisterWrites_below : stops (.stairwellTimingWrite .A true 0xC04 5) up 13 = true ∧ stops (.traceRpWrite .A true 0xD14 5) up 13 = true ∧ stops (.epochRetiredClear .A true 0x21C 5) up 13 = true ∧
    stops (.kitchenLimitWrite .A true 0xFC 5) up 13 = true ∧ stops (.latchConfigWrite .A true 0x1FFC 5) up 13 = true ∧ stops (.rcFieldRead .A true 0x424) up 13 = true := by decide +kernel
theorem test_half_epoch_retired_stays : let s := mirUp fun m => { m with dir := { m.dir with epochRetired := 4 } }
    after (.epochRetiredClear .A false 0x220 4) s (fun t => (mir t .A).dir.epochRetired == 4) = true ∧ after (.epochRetiredClear .A true 0x220 4) s (fun t => (mir t .A).dir.epochRetired == 0) = true := by decide +kernel
theorem witness_ControlWrites_mirror : mirrorIdle (pair .current id id) .B = true ∧ mirrorIdle up .A = false ∧ mirrorTakes up .A = true ∧ mirrorTakes (pair .current id id) .B = false := by decide +kernel
theorem witness_RegisterReads_B : 0x100000 ≤ 0x100428 ∧ after (.rcFieldRead .A false 0x100000) up (fun t => t.busData == 0xB05348) = true ∧ inReset up .A = false := by decide +kernel
theorem witness_FlushesAndDrive_offDuty : onDuty (modHearth .A (fun h => { h with coreUp := 0 }) up) .A 0 = false ∧ onDuty up .A 0 = true := by decide +kernel

/-! ### Values worked out in the spec's examples -/

/-- The first block of SP 800-38A F.5.1 (spec/08 R173, R189), as that standard gives it; the last three bytes of spec/08's own example differ from it (DEDUCED, log 82). -/
theorem test_aes_known_answer : aes128 [0x2B, 0x7E, 0x15, 0x16, 0x28, 0xAE, 0xD2, 0xA6, 0xAB, 0xF7, 0x15, 0x88, 0x09, 0xCF, 0x4F, 0x3C]
    [0xF0, 0xF1, 0xF2, 0xF3, 0xF4, 0xF5, 0xF6, 0xF7, 0xF8, 0xF9, 0xFA, 0xFB, 0xFC, 0xFD, 0xFE, 0xFF] =
    [0xEC, 0x8C, 0xDF, 0x73, 0x98, 0x60, 0x7C, 0xB0, 0xF2, 0xD2, 0x16, 0x75, 0xEA, 0x9E, 0xA1, 0xE4] := by decide +kernel
/-- FIPS 197, appendix C.1 (spec/08 R173). -/
theorem test_aes_fips : aes128 ((List.range 16)) ((List.range 16).map (· * 0x11)) =
    [0x69, 0xC4, 0xE0, 0xD8, 0x6A, 0x7B, 0x04, 0x30, 0xD8, 0xCD, 0xB7, 0x80, 0x70, 0xB4, 0xC5, 0x5A] := by decide +kernel
/-- Spec/08: token 1,000,003 takes block 200,000, element 3, of 24 bits; block 125,000, element 3, of 16 bits. -/
theorem test_race_elements : raceBlock false 1000003 = 200000 ∧ raceElement false 0xEC8CDF7398607CB0F2D21675EA9ADE36 1000003 = 0x98607C ∧
    raceBlock true 1000003 = 125000 ∧ raceElement true 0xEC8CDF7398607CB0F2D21675EA9ADE36 1000003 = 0xF2D2 := by decide +kernel
/-- Spec/08: the same token on eight outposts is at rank 2, lane 488. -/
theorem test_sliver_lane : let su : RowSetup := { setup1 0xFF with vocab := 1048576 }
    outOfSliver su (1000003 / 256) = 2 ∧ laneOf su 1000003 = 488 := by decide +kernel
/-- Spec/07, example of R155: id 2,900 of a vocabulary of 3,000, wave row 5 in half 1. -/
theorem test_larder_offset : let su : RowSetup := { setup1 0x0F with h := { step := 1, wave := 0, row := 5 }, vocab := 3000, firstHalf := 1 }
    outOfSliver su 11 = 3 ∧ laneOf su 2900 = 42 ∧ larderOff su 2900 = 0x2A80A8 := by decide +kernel
/-- Spec/06, example: the masses of differences 0 to -3. -/
theorem test_masses : [0x00000000#32, 0xBF800000#32, 0xC0000000#32, 0xC0400000#32].map massE = [1152921504606846976, 424136118829305330, 156030958375549300, 57400581772641654] := by decide +kernel
/-- Spec/06, example: the behaviour and policy log values of token 4. -/
theorem test_log_values : logValue 156030958375549300 0xC0000000 2157224700641006936 = 0xC02818F5 ∧ logValue 156030958375549300 0xC0000000 3580978327168686520 = 0xC0488897 := by decide +kernel
/-- Spec/06, example: the INVERSE draw of 3/4 over the kept masses in id order chooses the third. -/
theorem test_inverse_draw : (sliverOf 0 (0xC000000000000000 * sumNat [1152921504606846976, 424136118829305330, 156030958375549300, 424136118829305330] / 2 ^ 64)
    [(0, 1152921504606846976, 0), (1, 424136118829305330, 0), (2, 156030958375549300, 0), (3, 424136118829305330, 0)]).map (·.1) = some 2 := by decide +kernel
/-- Spec/03, example of R56: requests A and B. -/
theorem test_charges : (let a := { parseRequest request1 with cls := 1, promptLen := 100, siblings := 4, trailCapacity := 40 }; (pageCharge a 16, tokenCharge a)) = (11, 103) ∧
    (let b := { parseRequest request1 with cls := 2, promptLen := 4001, siblings := 8, trailCapacity := 256 }; (pageCharge b 16, tokenCharge b)) = (258, 4008) := by decide +kernel
/-- Spec/04, example of R84: the chunks of f and g. -/
theorem test_chunks : chunkOf 0 70 32 48 16 = 32 ∧ chunkOf 32 39 32 16 16 = 16 := by decide +kernel
/-- Spec/18, example: the 16 bytes of a WAIT record. -/
theorem test_wait_record_bytes : traceBytes { time := 16000000, kind := 1, reason := 1, waiter := 0x020, holder := 0x032, duration := 1600, object := 0x32C } =
    [0x00, 0x24, 0xF4, 0x00, 0x00, 0x00, 0x11, 0x20, 0x20, 0x03, 0x40, 0x06, 0x00, 0x2C, 0x03, 0x00] := by decide +kernel
/-- Spec/19, example of R420: a 4-byte write of 512 into C0_LOGIT_CAP of instance B. -/
theorem test_clamped_cap : after (.kitchenLimitWrite .B false 0x10C 0x200) up (fun t => regRead t .B 0x108 == 0x0000040000002000#64) = true := by decide +kernel
/-- Spec/14, example: CONTEXT_OPEN's length is 112. -/
theorem test_context_open_length : (cmdSpec 0x20).map (fun c => c.size + 16) = some 0x70 := by decide +kernel

end Sys2Proof.Tests
end

/-! SUPPORT. How a vocabulary's slivers lie over the outposts of a set (spec/07 R152): the set as an ascending list, an outpost's rank as its position there, an outpost's slivers as every d-th one from its rank, and the ids that they hold. -/

namespace Sys2Proof.Slivers

open Sys2Proof Sys2Proof.Machine

/-! ### Ceilings -/

theorem ceilDiv_of_pos {a b : Nat} (hb : 0 < b) : ceilDiv a b = (a + b - 1) / b := by
  rw [ceilDiv, if_neg (Nat.ne_of_gt hb)]

/-- The ceiling is the least number whose product with the divisor reaches the dividend. -/
theorem ceilDiv_le_iff {a b c : Nat} (hb : 0 < b) : ceilDiv a b ≤ c ↔ a ≤ b * c := by
  rw [ceilDiv_of_pos hb, Nat.div_le_iff_le_mul_add_pred hb]
  omega

theorem lt_ceilDiv_iff {a b c : Nat} (hb : 0 < b) : c < ceilDiv a b ↔ b * c < a := by
  rw [← Nat.not_le, ceilDiv_le_iff hb, Nat.not_le]

/-- The sliver of every id below V is one of the vocabulary's. -/
theorem sliver_lt_sliversOf {v vocab : Nat} (hv : v < vocab) : v / 256 < sliversOf vocab :=
  (lt_ceilDiv_iff (by decide)).2 (by omega)

/-! ### Ascending lists -/

/-- A list of numbers in strictly ascending order. -/
def Ascending (l : List Nat) : Prop := l.Pairwise (· < ·)

theorem ascending_range (n : Nat) : Ascending (List.range n) := List.pairwise_lt_range

theorem Ascending.filter {l : List Nat} (hl : Ascending l) (p : Nat → Bool) : Ascending (l.filter p) :=
  List.Pairwise.filter p hl

theorem Ascending.nodup {l : List Nat} (hl : Ascending l) : l.Nodup := hl.imp Nat.ne_of_lt

theorem Ascending.getElem_lt_getElem_iff {l : List Nat} (hl : Ascending l) {j k : Nat} (hj : j < l.length) (hk : k < l.length) :
    l[j] < l[k] ↔ j < k := by
  have hmono := List.pairwise_iff_getElem.1 hl
  refine ⟨fun hlt => ?_, hmono j k hj hk⟩
  rcases Nat.lt_trichotomy j k with h | rfl | h
  · exact h
  · exact absurd hlt (Nat.lt_irrefl _)
  · exact absurd (hmono k j hk hj h) (Nat.lt_asymm hlt)

/-- Ascending lists with the same members are the same list. -/
theorem Ascending.eq_of_mem_iff {l m : List Nat} (hl : Ascending l) (hm : Ascending m) (h : ∀ a, a ∈ l ↔ a ∈ m) : l = m := by
  have hperm : l.Perm m := (List.perm_ext_iff_of_nodup hl.nodup hm.nodup).2 h
  exact hperm.eq_of_pairwise (fun a b _ _ hab hba => absurd hab (Nat.lt_asymm hba)) hl hm

/-! ### The outposts of a set, and their ranks -/

theorem outList_ascending (mask : BitVec 8) : Ascending (outList mask) := (ascending_range 8).filter _

theorem mem_outList {mask : BitVec 8} {o : Nat} : o ∈ outList mask ↔ mask.getLsbD o = true := by
  simp only [outList, maskBits, tbit, BitVec.testBit_toNat, List.mem_filter, List.mem_range]
  exact ⟨And.right, fun hbit => ⟨BitVec.lt_of_getLsbD hbit, hbit⟩⟩

theorem outList_length_pos {mask : BitVec 8} (h : mask ≠ 0) : 0 < (outList mask).length := by
  refine List.length_pos_iff.2 fun hnil => h (BitVec.eq_of_getLsbD_eq fun o _ => ?_)
  have hunset : ¬ mask.getLsbD o = true := by
    rw [← mem_outList, hnil]
    exact List.not_mem_nil
  rw [Bool.eq_false_iff.2 hunset]
  exact BitVec.getLsbD_zero.symm

/-- In an ascending list the entries below the one at a position are those before it. -/
theorem filter_lt_getElem {l : List Nat} (hl : Ascending l) {q : Nat} (hq : q < l.length) :
    l.filter (· < l[q]) = l.take q := by
  have below : ∀ a ∈ l.take q, a < l[q] := by
    intro a ha
    obtain ⟨k, hk, rfl⟩ := List.mem_take_iff_getElem.1 ha
    exact (hl.getElem_lt_getElem_iff _ hq).2 (by omega)
  have above : ∀ a ∈ l.drop q, ¬ a < l[q] := by
    intro a ha
    obtain ⟨k, hk, rfl⟩ := List.mem_drop_iff_getElem.1 ha
    exact fun h => absurd ((hl.getElem_lt_getElem_iff _ hq).1 h) (by omega)
  calc l.filter (· < l[q]) = (l.take q ++ l.drop q).filter (· < l[q]) := by rw [List.take_append_drop]
    _ = l.take q := by
      rw [List.filter_append, List.filter_eq_self.2 fun a ha => decide_eq_true (below a ha),
        List.filter_eq_nil_iff.2 fun a ha h => above a ha (of_decide_eq_true h), List.append_nil]

/-- An outpost's rank is its position in its set. -/
theorem rankOf_getElem {mask : BitVec 8} {q : Nat} (hq : q < (outList mask).length) :
    rankOf mask (outList mask)[q] = q := by
  rw [rankOf, filter_lt_getElem (outList_ascending mask) hq, List.length_take, Nat.min_eq_left (Nat.le_of_lt hq)]

/-- Ranks ascend with the outposts' numbers. -/
theorem lt_iff_rankOf_lt {mask : BitVec 8} {o p : Nat} (ho : o ∈ outList mask) (hp : p ∈ outList mask) :
    p < o ↔ rankOf mask p < rankOf mask o := by
  obtain ⟨q, hq, rfl⟩ := List.mem_iff_getElem.1 ho
  obtain ⟨k, hk, rfl⟩ := List.mem_iff_getElem.1 hp
  rw [rankOf_getElem hq, rankOf_getElem hk, (outList_ascending mask).getElem_lt_getElem_iff hk hq]

theorem eq_of_rankOf_eq {mask : BitVec 8} {o p : Nat} (ho : o ∈ outList mask) (hp : p ∈ outList mask)
    (h : rankOf mask p = rankOf mask o) : p = o := by
  have hpo := lt_iff_rankOf_lt ho hp
  have hop := lt_iff_rankOf_lt hp ho
  omega

theorem rankOf_lt_suD {su : RowSetup} {o : Nat} (ho : o ∈ outList su.outposts) : rankOf su.outposts o < suD su := by
  obtain ⟨q, hq, rfl⟩ := List.mem_iff_getElem.1 ho
  rwa [rankOf_getElem hq]

/-! ### The outpost of a sliver -/

theorem outOfSliver_eq_getElem {su : RowSetup} {g : Nat} (hd : g % suD su < (outList su.outposts).length) :
    outOfSliver su g = (outList su.outposts)[g % suD su] := by
  rw [outOfSliver, List.getD_eq_getElem?_getD, List.getElem?_eq_getElem hd, Option.getD_some]

theorem outOfSliver_mem {su : RowSetup} (hd : 0 < suD su) (g : Nat) : outOfSliver su g ∈ outList su.outposts := by
  have hlt : g % suD su < (outList su.outposts).length := Nat.mod_lt g hd
  rw [outOfSliver_eq_getElem hlt]
  exact List.getElem_mem _

theorem rankOf_outOfSliver {su : RowSetup} (hd : 0 < suD su) (g : Nat) :
    rankOf su.outposts (outOfSliver su g) = g % suD su := by
  have hlt : g % suD su < (outList su.outposts).length := Nat.mod_lt g hd
  rw [outOfSliver_eq_getElem hlt, rankOf_getElem hlt]

/-! ### The slivers and the ids of an outpost -/

/-- Among the first n numbers, those that leave r by d are r, r + d, r + 2d, …: both lists ascend and hold the same. -/
theorem filter_mod_range {d r : Nat} (hr : r < d) (n : Nat) :
    (List.range n).filter (fun g => g % d == r) = (List.range (ceilDiv (n - r) d)).map fun j => d * j + r := by
  have hd : 0 < d := by omega
  have ascending : Ascending ((List.range (ceilDiv (n - r) d)).map fun j => d * j + r) :=
    List.pairwise_lt_range.map (fun j => d * j + r) fun a b hab => Nat.add_lt_add_right (Nat.mul_lt_mul_of_pos_left hab hd) r
  refine ((ascending_range n).filter _).eq_of_mem_iff ascending fun g => ?_
  simp only [List.mem_filter, List.mem_range, List.mem_map, lt_ceilDiv_iff hd, beq_iff_eq]
  constructor
  · rintro ⟨hg, rfl⟩
    exact ⟨g / d, by have := Nat.div_add_mod g d; omega, Nat.div_add_mod g d⟩
  · rintro ⟨j, hj, rfl⟩
    exact ⟨by omega, by rw [Nat.mul_add_mod, Nat.mod_eq_of_lt hr]⟩

theorem outSlivers_eq {su : RowSetup} {o : Nat} (ho : o ∈ outList su.outposts) :
    outSlivers su o = (List.range (ceilDiv (sliversOf su.vocab - rankOf su.outposts o) (suD su))).map
      fun j => suD su * j + rankOf su.outposts o :=
  filter_mod_range (rankOf_lt_suD ho) _

/-- Sliver σ is local sliver floor(σ / D) of the outpost of its rank. -/
theorem outSlivers_getElem? {su : RowSetup} {o g : Nat} (ho : o ∈ outList su.outposts)
    (hrank : rankOf su.outposts o = g % suD su) (hg : g < sliversOf su.vocab) :
    (outSlivers su o)[g / suD su]? = some g := by
  have hdiv := Nat.div_add_mod g (suD su)
  have hd : 0 < suD su := by have := rankOf_lt_suD ho; omega
  have hj : g / suD su < ceilDiv (sliversOf su.vocab - g % suD su) (suD su) := by
    rw [lt_ceilDiv_iff hd]
    omega
  rw [outSlivers_eq ho, hrank, List.getElem?_map, List.getElem?_range hj, Option.map_some, hdiv]

theorem outSlivers_length_le {su : RowSetup} {o : Nat} (ho : o ∈ outList su.outposts) :
    (outSlivers su o).length ≤ localSlivers su.vocab (suD su) := by
  have hd : 0 < suD su := by have := rankOf_lt_suD ho; omega
  rw [outSlivers_eq ho, List.length_map, List.length_range, ceilDiv_le_iff hd]
  calc sliversOf su.vocab - rankOf su.outposts o ≤ sliversOf su.vocab := Nat.sub_le _ _
    _ ≤ suD su * localSlivers su.vocab (suD su) := (ceilDiv_le_iff hd).1 (Nat.le_refl _)

theorem mem_outSlivers {su : RowSetup} {o g : Nat} :
    g ∈ outSlivers su o ↔ g < sliversOf su.vocab ∧ g % suD su = rankOf su.outposts o := by
  simp only [outSlivers, List.mem_filter, List.mem_range, beq_iff_eq]

theorem mem_sliverIds {vocab g v : Nat} : v ∈ sliverIds vocab g ↔ v / 256 = g ∧ v < vocab := by
  simp only [sliverIds, List.mem_filter, List.mem_map, List.mem_range, decide_eq_true_eq, and_congr_left_iff]
  intro _
  constructor
  · rintro ⟨k, hk, rfl⟩
    omega
  · rintro rfl
    exact ⟨v % 256, by omega, by omega⟩

/-- An outpost holds the ids below V whose sliver leaves its rank by D. -/
theorem mem_outIds {su : RowSetup} {o v : Nat} :
    v ∈ outIds su o ↔ v < su.vocab ∧ v / 256 % suD su = rankOf su.outposts o := by
  simp only [outIds, List.mem_flatMap, mem_outSlivers, mem_sliverIds]
  constructor
  · rintro ⟨_, ⟨_, hrank⟩, rfl, hv⟩
    exact ⟨hv, hrank⟩
  · rintro ⟨hv, hrank⟩
    exact ⟨v / 256, ⟨sliver_lt_sliversOf hv, hrank⟩, rfl, hv⟩

/-! ### The number of local slivers -/

theorem localSlivers_eq {vocab d : Nat} (hd : 0 < d) : localSlivers vocab d = ((vocab + 255) / 256 + d - 1) / d := by
  rw [localSlivers, ceilDiv_of_pos hd, sliversOf, ceilDiv_of_pos (by decide)]
  rfl

theorem vocabLimit_eq (su : RowSetup) : vocabLimit su.outposts = 131072 * suD su := rfl

/-- The limit of R16 is 512 slivers of 256 ids for each outpost. -/
theorem localSlivers_le_of_vocab_le {vocab d : Nat} (hd : 0 < d) (hv : vocab ≤ 131072 * d) : localSlivers vocab d ≤ 512 := by
  rw [localSlivers, ceilDiv_le_iff hd, sliversOf, ceilDiv_le_iff (by decide)]
  omega

/-! ### The statement -/

/-- Settles O15: an outpost's rank is its position in the ascending set, so ranks are distinct and ascend, and its slivers are every d-th one from its rank. -/
theorem outpostPartition : Obligations.OutpostPartition := by
  intro su hset
  have hd : 0 < suD su := outList_length_pos hset
  refine ⟨fun q hq => ?_, fun v hv => ?_, localSlivers_eq hd, fun o ho => outSlivers_length_le ho,
    fun hlim => localSlivers_le_of_vocab_le hd (vocabLimit_eq su ▸ hlim)⟩
  · have hmem : (outList su.outposts)[q] ∈ outList su.outposts := List.getElem_mem hq
    have hrank := rankOf_getElem hq
    exact ⟨_, hmem, hrank, fun p hp => by rw [lt_iff_rankOf_lt hmem hp, hrank]⟩
  · have hmem := outOfSliver_mem hd (v / 256)
    have hrank := rankOf_outOfSliver hd (v / 256)
    refine ⟨_, hmem, hrank, rfl, mem_outIds.2 ⟨hv, hrank.symm⟩,
      outSlivers_getElem? hmem hrank (sliver_lt_sliversOf hv), fun p hp hvp => ?_⟩
    obtain ⟨_, hp_rank⟩ := mem_outIds.1 hvp
    exact eq_of_rankOf_eq hmem hp (hp_rank.symm.trans hrank.symm)

end Sys2Proof.Slivers

/-! SUPPORT. What a W1C write to the interrupt status does (spec/14 R313): the 36 bits as one word, a write's way to that word, and the contexts' completion bits one by one. -/

namespace Sys2Proof.Interrupts

open Sys2Proof Sys2Proof.Machine Sys2Proof.Laws

/-! ### The status word -/

/-- The six fields written from a word spell the word. -/
@[simp] theorem irqStatus_irqPut (q : Irq) (v : BitVec 36) : irqStatus (irqPut q v) = v := by
  refine BitVec.eq_of_getLsbD_eq fun k hk => ?_
  obtain hcq | ⟨hmb, hlt⟩ | rfl | rfl | rfl | rfl : k < 16 ∨ (16 ≤ k ∧ k < 32) ∨ k = 32 ∨ k = 33 ∨ k = 34 ∨ k = 35 := by omega
  case inl =>
    simp [irqStatus, irqPut, hcq, hk, show k < 32 by omega, show k < 33 by omega, show k < 34 by omega, show k < 35 by omega]
  case inr.inl =>
    have hpos : 16 + (k - 16) = k := by omega
    simp [irqStatus, irqPut, hlt, hk, hpos, show ¬ k < 16 by omega, show k - 16 < 16 by omega, show k < 33 by omega,
      show k < 34 by omega, show k < 35 by omega]
  all_goals simp [irqStatus, irqPut]

theorem getLsbD_irqRaise {v : BitVec 36} {b k : Nat} (hk : k < 36) : (irqRaise v b).getLsbD k = (v.getLsbD k || decide (k = b)) := by
  simp only [irqRaise, BitVec.getLsbD_or, BitVec.getLsbD_shiftLeft, BitVec.getLsbD_one]
  obtain h | rfl | h := Nat.lt_trichotomy k b
  · simp [h, Nat.ne_of_lt h]
  · simp [hk]
  · simp [show k ≠ b by omega, show k - b ≠ 0 by omega]

theorem getLsbD_irqAck {v w : BitVec 36} {k : Nat} (hk : k < 36) : (irqAck v w).getLsbD k = (v.getLsbD k && !w.getLsbD k) := by
  simp [irqAck, hk]

/-! ### A write's value -/

/-- The lower half of the status register holds all that a 4-byte value has. -/
theorem access_irqStatusOff {wide : Bool} {v : BitVec 36} (hfit : wide = true ∨ v.toNat < 2 ^ 32) :
    (access wide irqStatusOff v.toNat).1 = v.setWidth 64 := by
  rw [← BitVec.ofNat_toNat]
  cases wide with
  | true => rfl
  | false =>
    have hlow : v.toNat < 2 ^ 32 := hfit.resolve_left Bool.false_ne_true
    have haligned : irqStatusOff % 8 = 0 := rfl
    simp only [access, Bool.false_eq_true, if_false, haligned, if_true, Nat.mod_eq_of_lt hlow]

/-- A value of the 36 status bits has no reserved bit. -/
theorem irqCase_setWidth (v : BitVec 36) : irqCase (v.setWidth 64) = none := by
  have hzero : v.setWidth 64 >>> 36 = 0 := by
    refine BitVec.eq_of_getLsbD_eq fun k _ => ?_
    simp
  rw [irqCase, if_pos (beq_iff_eq.2 hzero)]

/-- A write of the status that fits its access clears the bits it writes as 1, where the register file acts at all. -/
theorem exec_irqStatusClear {i : InstId} {s : State} (wide : Bool) (v : BitVec 36) (hears : deaf s i = false)
    (hfit : wide = true ∨ v.toNat < 2 ^ 32) :
    exec (.irqStatusClear i wide irqStatusOff v.toNat) s = .next (settled i s (clearIrq i v s)) := by
  have hreach : reaches wide irqStatusOff irqStatusOff = true := by cases wide <;> rfl
  have haligned : aligned wide irqStatusOff = true := by cases wide <;> rfl
  calc exec (.irqStatusClear i wide irqStatusOff v.toNat) s
      = execIrqStatusClear i wide irqStatusOff v.toNat s := rfl
    _ = guarded i (irqCase (v.setWidth 64)) s (clearIrq i ((v.setWidth 64).setWidth 36) s) := by
      simp only [execIrqStatusClear, hreach, haligned, hears, access_irqStatusOff hfit, Bool.not_true, Bool.not_false,
        Bool.false_eq_true, if_false, if_true]
    _ = .next (settled i s (clearIrq i v s)) := by
      rw [irqCase_setWidth, BitVec.setWidth_setWidth_of_le v (by decide), BitVec.setWidth_eq, guarded, settle]

/-! ### The completion bits -/

/-- Records stand unread in a context's ring. -/
def unread (x : Ctx) : Bool := decide (x.cqTail ≠ x.cqHead)

theorem bne_eq_unread (x : Ctx) : (x.cqTail != x.cqHead) = unread x := by
  rw [unread, decide_not]
  rfl

/-- Bit `k` of the status word. -/
def statusBit (m : Mirrored) (k : Nat) : Bool := (irqStatus m.irq).getLsbD k

theorem mir_raiseIrq (i : InstId) (b : Nat) (s : State) :
    mir (raiseIrq i b s) i = { mir s i with irq := irqPut (mir s i).irq (irqRaise (irqStatus (mir s i).irq) b) } := by
  cases i <;> rfl

theorem statusBit_raiseIrq (i : InstId) {b k : Nat} (s : State) (hk : k < 36) :
    statusBit (mir (raiseIrq i b s) i) k = (statusBit (mir s i) k || decide (k = b)) := by
  rw [mir_raiseIrq, statusBit, irqStatus_irqPut, getLsbD_irqRaise hk, statusBit]

theorem getCtx_raiseIrq (i : InstId) (b k : Nat) (s : State) : getCtx (mir (raiseIrq i b s) i) k = getCtx (mir s i) k := by
  rw [mir_raiseIrq]
  rfl

/-- An update past the end of a list changes nothing. -/
theorem modAt_of_length_le {α : Type} (f : α → α) : ∀ (l : List α) (k : Nat), l.length ≤ k → modAt l k f = l
  | [], _, _ => rfl
  | _ :: _, 0, h => absurd h (Nat.not_succ_le_zero _)
  | x :: xs, k + 1, h => congrArg (x :: ·) (modAt_of_length_le f xs k (Nat.le_of_succ_le_succ h))

/-- What an update of contexts leaves alone reads as before in every context, updated or not, in the list or past its end. -/
theorem getCtx_modCtx_of_kept {α : Type} {g : Ctx → α} {f : Ctx → Ctx} (hkept : ∀ x, g (f x) = g x) (i : InstId) (c k : Nat) (s : State) :
    g (getCtx (mir (modCtx i c f s) i) k) = g (getCtx (mir s i) k) := by
  simp only [getCtx, mir_eq, getInst_modCtx]
  by_cases hne : k = c
  · subst hne
    by_cases hlen : k < (getInst s i).mir.ctxs.length
    · rw [getD_modAt _ _ _ _ hlen, hkept]
    · rw [modAt_of_length_le f _ _ (Nat.le_of_not_lt hlen)]
  · rw [getD_modAt_ne _ _ _ _ _ hne]

/-- Context `c`'s count of records not yet signalled (R312) starts anew. -/
def restartCount (i : InstId) (c : Nat) (s : State) : State := modCtx i c (fun x => { x with unsignalled := 0 }) s

theorem unread_restartCount (i : InstId) (c k : Nat) (s : State) :
    unread (getCtx (mir (restartCount i c s) i) k) = unread (getCtx (mir s i) k) :=
  getCtx_modCtx_of_kept (f := fun x => { x with unsignalled := 0 }) (fun _ => rfl) i c k s

theorem statusBit_restartCount (i : InstId) (c k : Nat) (s : State) :
    statusBit (mir (restartCount i c s) i) k = statusBit (mir s i) k := by
  cases i <;> rfl

/-- Clearing a context's bit starts its count anew, and raises the bit again where records were unread. -/
theorem clearCq_eq (i : InstId) (c : Nat) (s : State) :
    clearCq i c s = if unread (getCtx (mir s i) c) then raiseIrq i c (restartCount i c s) else restartCount i c s := by
  rw [← unread_restartCount i c c s, ← bne_eq_unread]
  rfl

theorem unread_clearCq (i : InstId) (c k : Nat) (s : State) :
    unread (getCtx (mir (clearCq i c s) i) k) = unread (getCtx (mir s i) k) := by
  rw [clearCq_eq]
  split
  · rw [getCtx_raiseIrq, unread_restartCount]
  · exact unread_restartCount i c k s

/-- The only bit that clearing a context's bit can raise is that context's, while records are unread. -/
theorem statusBit_clearCq (i : InstId) (c : Nat) {k : Nat} (s : State) (hk : k < 36) :
    statusBit (mir (clearCq i c s) i) k = (statusBit (mir s i) k || (decide (k = c) && unread (getCtx (mir s i) c))) := by
  rw [clearCq_eq]
  split
  case isTrue hunread => rw [statusBit_raiseIrq i _ hk, statusBit_restartCount, hunread, Bool.and_true]
  case isFalse hread => rw [statusBit_restartCount, Bool.eq_false_iff.2 hread, Bool.and_false, Bool.or_false]

/-- Over a list of contexts: each one's bit rises by its own ring, whatever the order and the repetitions. -/
theorem statusBit_foldl_clearCq (i : InstId) {k : Nat} (hk : k < 36) (l : List Nat) (s : State) :
    statusBit (mir (l.foldl (fun s c => clearCq i c s) s) i) k =
      (statusBit (mir s i) k || (decide (k ∈ l) && unread (getCtx (mir s i) k))) := by
  induction l generalizing s with
  | nil => simp
  | cons c l ih =>
    rw [List.foldl_cons, ih, unread_clearCq, statusBit_clearCq i c s hk]
    by_cases hkc : k = c
    · subst hkc
      cases unread (getCtx (mir s i) k) <;> simp
    · simp [hkc]

theorem mem_maskBits {n v k : Nat} : k ∈ maskBits n v ↔ k < n ∧ v.testBit k = true := by
  simp only [maskBits, tbit, List.mem_filter, List.mem_range]

/-- The bits of the status word that are 1 in `v` are cleared, and none has risen again yet. -/
def ackIrq (i : InstId) (v : BitVec 36) (s : State) : State :=
  modMir i (fun m => { m with irq := irqPut m.irq (irqAck (irqStatus m.irq) v) }) s

theorem clearIrq_eq (i : InstId) (v : BitVec 36) (s : State) :
    clearIrq i v s = (maskBits 16 v.toNat).foldl (fun s c => clearCq i c s) (ackIrq i v s) := rfl

theorem mir_ackIrq (i : InstId) (v : BitVec 36) (s : State) :
    mir (ackIrq i v s) i = { mir s i with irq := irqPut (mir s i).irq (irqAck (irqStatus (mir s i).irq) v) } := by
  cases i <;> rfl

theorem statusBit_ackIrq (i : InstId) (v : BitVec 36) {k : Nat} (hk : k < 36) (s : State) :
    statusBit (mir (ackIrq i v s) i) k = (statusBit (mir s i) k && !v.getLsbD k) := by
  rw [mir_ackIrq, statusBit, irqStatus_irqPut, getLsbD_irqAck hk, statusBit]

theorem getCtx_ackIrq (i : InstId) (v : BitVec 36) (k : Nat) (s : State) : getCtx (mir (ackIrq i v s) i) k = getCtx (mir s i) k := by
  rw [mir_ackIrq]
  rfl

/-- After a W1C write a completion bit written as 1 is set exactly while records are unread, and one not written stays. -/
theorem statusBit_clearIrq (i : InstId) (v : BitVec 36) {k : Nat} (hk : k < 16) (s : State) :
    statusBit (mir (clearIrq i v s) i) k = if v.getLsbD k then unread (getCtx (mir s i) k) else statusBit (mir s i) k := by
  have hk36 : k < 36 := by omega
  have hmem : k ∈ maskBits 16 v.toNat ↔ v.getLsbD k = true := by rw [mem_maskBits, BitVec.testBit_toNat, and_iff_right hk]
  rw [clearIrq_eq, statusBit_foldl_clearCq i hk36, statusBit_ackIrq i v hk36, getCtx_ackIrq]
  by_cases hwritten : v.getLsbD k = true
  · simp [hmem, hwritten]
  · simp [hmem, hwritten]

/-! ### The statement -/

/-- Settles O13: a write of 1 lowers the bit, and the context it names raises it again exactly where its indices differ; clearing moves no index, and one context's bit leaves every other's. -/
theorem completionBit : Obligations.CompletionBit := by
  intro i v k s hears hk left
  have hleft : left (clearIrq i v s) := statusBit_clearIrq i v hk s
  have clears : ∀ wide : Bool, wide = true ∨ v.toNat < 2 ^ 32 → Settles (.irqStatusClear i wide irqStatusOff v.toNat) i s left :=
    fun wide hfit => ⟨_, exec_irqStatusClear wide v hears hfit, hleft⟩
  exact ⟨clears true (.inl rfl), fun hlow => clears false (.inr hlow)⟩

end Sys2Proof.Interrupts

/-! SUPPORT. What an access of the bus writes to the register file (spec/19 R412, R413): the bits that it reaches, the value that a field of the register takes, the bits that belong to no field, and from these a write of the Kitchen's limits (R420). -/

namespace Sys2Proof.Limits

open Sys2Proof Sys2Proof.Machine

/-! ### The bits of a register -/

/-- Bit `k` of the register lies in the field. -/
def Covers (f : RegField) (k : Nat) : Prop := f.lo ≤ k ∧ k < f.lo + f.width

/-- Every bit set in `n` lies in a field of the register. -/
def InFields (fs : List RegField) (n : Nat) : Prop := ∀ k, n.testBit k = true → ∃ f ∈ fs, Covers f k

theorem getLsbD_mask {f : RegField} {k : Nat} (hk : k < 64) : f.mask.getLsbD k = true ↔ Covers f k := by
  simp only [RegField.mask, BitVec.getLsbD_ofNat, Nat.testBit_mul_two_pow, Nat.testBit_two_pow_sub_one, hk, decide_true,
    Bool.true_and, Bool.and_eq_true, decide_eq_true_eq, Covers]
  omega

theorem getLsbD_foldl_mask {fs : List RegField} {m : BitVec 64} {k : Nat} (hk : k < 64) :
    (fs.foldl (fun m f => m ||| f.mask) m).getLsbD k = true ↔ m.getLsbD k = true ∨ ∃ f ∈ fs, Covers f k := by
  induction fs generalizing m with
  | nil => simp
  | cons f fs ih => simp [ih, getLsbD_mask hk, or_assoc]

theorem getLsbD_regReserved {fs : List RegField} {k : Nat} (hk : k < 64) : (regReserved fs).getLsbD k = true ↔ ¬ ∃ f ∈ fs, Covers f k := by
  rw [regReserved, BitVec.getLsbD_not, decide_eq_true hk, Bool.true_and, Bool.not_eq_true', ← Bool.not_eq_true, getLsbD_foldl_mask hk]
  simp

/-- A number whose bits all lie in fields sets no reserved bit. -/
theorem and_regReserved_of_inFields {fs : List RegField} {n : Nat} (h : InFields fs n) :
    BitVec.ofNat 64 n &&& regReserved fs = 0 := by
  refine BitVec.eq_of_getLsbD_eq fun k hk => ?_
  rw [BitVec.getLsbD_and, BitVec.getLsbD_ofNat, decide_eq_true hk, Bool.true_and]
  refine (Bool.eq_false_iff.2 fun hboth => ?_).trans BitVec.getLsbD_zero.symm
  obtain ⟨hbit, hreserved⟩ := Bool.and_eq_true_iff.1 hboth
  exact (getLsbD_regReserved hk).1 hreserved (h k hbit)

/-- A value that fits a field may be set in it, above what lower bits hold. -/
theorem InFields.add {fs : List RegField} {lo width m v : Nat} (hm : InFields fs m) (hlow : m < 2 ^ lo)
    (hfield : (lo, width) ∈ fs.map fun f => (f.lo, f.width)) (hv : v < 2 ^ width) : InFields fs (m + 2 ^ lo * v) := by
  intro k hbit
  rw [Nat.add_comm, Nat.testBit_two_pow_mul_add v hlow] at hbit
  split at hbit
  · exact hm k hbit
  · obtain ⟨f, hf, hpos⟩ := List.mem_map.1 hfield
    obtain ⟨rfl, rfl⟩ := Prod.mk.inj hpos
    have hwidth : k - f.lo < f.width := (Nat.pow_lt_pow_iff_right (by decide)).1 (Nat.lt_of_le_of_lt (Nat.ge_two_pow_of_testBit hbit) hv)
    exact ⟨f, hf, by omega, by omega⟩

/-- A value that fits the field in the lowest bits has no other bit. -/
theorem inFields_of_lt {fs : List RegField} {width v : Nat} (hfield : (0, width) ∈ fs.map fun f => (f.lo, f.width)) (hv : v < 2 ^ width) :
    InFields fs v := by
  have hnone : InFields fs 0 := fun k hbit => absurd hbit (by rw [Nat.zero_testBit]; exact Bool.false_ne_true)
  simpa using hnone.add Nat.one_pos hfield hv

/-! ### What an access reaches -/

/-- The lowest bit of the register that an access reaches. -/
def accessLo (wide : Bool) (off : Nat) : Nat := if wide = true ∨ off % 8 = 0 then 0 else 32

/-- The number of bits that an access reaches. -/
def accessWidth (wide : Bool) : Nat := if wide then 64 else 32

theorem le_accessWidth (wide : Bool) : 32 ≤ accessWidth wide := by
  cases wide <;> decide

theorem accessLo_add_accessWidth_le (wide : Bool) (off : Nat) : accessLo wide off + accessWidth wide ≤ 64 := by
  cases wide
  · by_cases h : off % 8 = 0 <;> simp [accessLo, accessWidth, h]
  · simp [accessLo, accessWidth]

/-- The bits that an access reaches, as one field. -/
def accessField (wide : Bool) (off : Nat) : RegField := { lo := accessLo wide off, width := accessWidth wide, acc := .rw, val := 0 }

/-- An access writes its value at the lowest bit that it reaches. -/
theorem busWrite_eq {wide : Bool} {off v : Nat} (hv : v < 2 ^ accessWidth wide) :
    busWrite wide off v = { val := BitVec.ofNat 64 (v * 2 ^ accessLo wide off), reach := (accessField wide off).mask } := by
  cases wide with
  | true => simp [busWrite, access, accessField, RegField.mask, accessLo, accessWidth]
  | false =>
    have hmod : v % 4294967296 = v := Nat.mod_eq_of_lt hv
    by_cases hlow : off % 8 = 0
    · simp [busWrite, access, accessField, RegField.mask, accessLo, accessWidth, hlow, hmod]
    · simp [busWrite, access, accessField, RegField.mask, accessLo, accessWidth, hlow, hmod]

/-- The bits of one field reach another whole where it lies within it. -/
theorem wholly_mask {f g : RegField} (hwidth : 0 < f.width) (hend : f.lo + f.width ≤ 64) :
    wholly g.mask f = true ↔ g.lo ≤ f.lo ∧ f.lo + f.width ≤ g.lo + g.width := by
  have hbits : wholly g.mask f = true ↔ ∀ k, Covers f k → Covers g k := by
    rw [wholly, beq_iff_eq]
    constructor
    · intro heq k hk
      have hk64 : k < 64 := by obtain ⟨_, _⟩ := hk; omega
      have hbit := (getLsbD_mask hk64).2 hk
      rw [← heq, BitVec.getLsbD_and, Bool.and_eq_true] at hbit
      exact (getLsbD_mask hk64).1 hbit.2
    · intro hsub
      refine BitVec.eq_of_getLsbD_eq fun k hk => ?_
      rw [BitVec.getLsbD_and, Bool.and_eq_left_iff_imp]
      exact fun hbit => (getLsbD_mask hk).2 (hsub k ((getLsbD_mask hk).1 hbit))
  rw [hbits]
  constructor
  · intro hsub
    obtain ⟨hlo, _⟩ := hsub f.lo ⟨Nat.le_refl _, by omega⟩
    obtain ⟨_, hhi⟩ := hsub (f.lo + f.width - 1) ⟨by omega, by omega⟩
    exact ⟨hlo, by omega⟩
  · rintro ⟨hlo, hhi⟩ k ⟨hk, hk'⟩
    exact ⟨by omega, by omega⟩

/-- The access reaches every bit of the field of `width` bits from bit `lo`. -/
abbrev Reached (wide : Bool) (off lo width : Nat) : Prop := accessLo wide off ≤ lo ∧ lo + width ≤ accessLo wide off + accessWidth wide

theorem reached_wide {off lo width : Nat} : Reached true off lo width ↔ lo + width ≤ 64 := by
  simp [Reached, accessLo, accessWidth]

theorem reached_lowHalf {off lo width : Nat} (hoff : off % 8 = 0) : Reached false off lo width ↔ lo + width ≤ 32 := by
  simp [Reached, accessLo, accessWidth, hoff]

theorem reached_highHalf {off lo width : Nat} (hoff : off % 8 ≠ 0) : Reached false off lo width ↔ 32 ≤ lo ∧ lo + width ≤ 64 := by
  simp [Reached, accessLo, accessWidth, hoff]

theorem value_lt {wide : Bool} {off v : Nat} (hv : v < 2 ^ accessWidth wide) : v * 2 ^ accessLo wide off < 2 ^ 64 :=
  calc v * 2 ^ accessLo wide off < 2 ^ accessWidth wide * 2 ^ accessLo wide off := Nat.mul_lt_mul_of_pos_right hv (Nat.two_pow_pos _)
    _ = 2 ^ (accessLo wide off + accessWidth wide) := by rw [Nat.pow_add, Nat.mul_comm]
    _ ≤ 2 ^ 64 := Nat.pow_le_pow_right (by decide) (accessLo_add_accessWidth_le wide off)

/-- A field that an access reaches whole takes its part of the value; no other field does. -/
theorem field_busWrite {wide : Bool} {off v lo width : Nat} (hv : v < 2 ^ accessWidth wide) (hwidth : 0 < width) (hend : lo + width ≤ 64) :
    (busWrite wide off v).field lo width =
      if Reached wide off lo width then some (v * 2 ^ accessLo wide off / 2 ^ lo % 2 ^ width) else none := by
  have hreach : wholly (busWrite wide off v).reach { lo := lo, width := width, acc := .rw, val := 0 } = true ↔ Reached wide off lo width := by
    rw [busWrite_eq hv]
    exact wholly_mask hwidth hend
  simp only [BusWrite.field, hreach]
  rw [busWrite_eq hv, bits, BitVec.toNat_ofNat, Nat.mod_eq_of_lt (value_lt hv), show lo + width - 1 + 1 - lo = width by omega]

/-- A field that the access reaches whole becomes what `f` makes of its part of the value; any other field stays. -/
theorem made_busWrite {wide : Bool} {off v lo width x : Nat} (f : Nat → Nat) (old : Nat) (hv : v < 2 ^ accessWidth wide) (hwidth : 0 < width)
    (hend : lo + width ≤ 64) (hx : v * 2 ^ accessLo wide off / 2 ^ lo % 2 ^ width = x) :
    (busWrite wide off v).made lo width f old = if Reached wide off lo width then f x else old := by
  rw [BusWrite.made, field_busWrite hv hwidth hend, hx]
  split <;> rfl

theorem merged_eq_made (w : BusWrite) (lo width old : Nat) : w.merged lo width old = w.made lo width id old := by
  rw [BusWrite.merged, BusWrite.made, Option.map_id, id]

/-! ### A write of the Kitchen's limits -/

/-- The offsets in the Kitchen block of the registers that hold limits. -/
def limitSlots : List Nat := [0x00, 0x08, 0x10, 0x18]

theorem lt_of_mem_limitSlots {k : Nat} (hk : k ∈ limitSlots) : k < 0x20 := by
  simp only [limitSlots, List.mem_cons, List.not_mem_nil, or_false] at hk
  omega

theorem kitchenRegs_ne_nil {k : Nat} (hk : k ∈ limitSlots) (m : Mirrored) : kitchenRegs m k ≠ [] := by
  simp only [limitSlots, List.mem_cons, List.not_mem_nil, or_false] at hk
  rcases hk with rfl | rfl | rfl | rfl <;> exact List.cons_ne_nil _ _

theorem slotFields_kitchen (s : State) (i : InstId) {k : Nat} (hk : k < 0x20) : slotFields s i (0x100 + k) = kitchenRegs (mir s i) k := by
  rw [slotFields, if_pos (by omega), regFields, if_neg (by omega), if_pos (by omega), Nat.add_sub_cancel_left]
  rfl

theorem blockTakes_kitchen (s : State) (i : InstId) {k : Nat} (hk : k < 0x20) : blockTakes s i (0x100 + k) = limitsTake s i := by
  rw [blockTakes, if_pos (by omega)]

theorem writeAt_kitchen (i : InstId) (w : BusWrite) (s : State) {k : Nat} (hk : k < 0x20) :
    writeAt i (0x100 + k) w s = writeKitchen i k w s := by
  rw [writeAt, if_neg (by omega), if_pos (by omega), Nat.add_sub_cancel_left]

/-- A write to a Kitchen register meets no undefined case but that of a reserved bit. -/
theorem writeCase_kitchen {s : State} {i : InstId} {w : BusWrite} {k : Nat} (hk : k < 0x20)
    (hclear : w.val &&& regReserved (kitchenRegs (mir s i) k) = 0) : writeCase s i (0x100 + k) w = none := by
  rw [writeCase, slotFields_kitchen s i hk, hclear, if_neg (by decide), if_neg (by omega), if_neg (by omega), if_neg (by omega)]

/-- A write of a limit that sets no reserved bit writes its register, and is settled. -/
theorem exec_kitchenLimitWrite {i : InstId} {s : State} {wide : Bool} {off v k : Nat} (htakes : limitsTake s i = true)
    (haligned : aligned wide off = true) (hslot : off / 8 * 8 = 0x100 + k) (hk : k ∈ limitSlots)
    (hclear : (busWrite wide off v).val &&& regReserved (kitchenRegs (mir s i) k) = 0) :
    exec (.kitchenLimitWrite i wide off v) s = .next (settled i s (writeKitchen i k (busWrite wide off v) s)) := by
  have hk20 := lt_of_mem_limitSlots hk
  have hreached : (decide (0x100 ≤ off / 8 * 8) && decide (off / 8 * 8 < 0x120)) = true := by
    rw [Bool.and_eq_true, decide_eq_true_eq, decide_eq_true_eq]
    omega
  have hdefined : (!blockTakes s i (0x100 + k) || (slotFields s i (0x100 + k)).isEmpty) = false := by
    rw [blockTakes_kitchen s i hk20, htakes, slotFields_kitchen s i hk20, List.isEmpty_eq_false_iff.2 (kitchenRegs_ne_nil hk _)]
    rfl
  calc exec (.kitchenLimitWrite i wide off v) s
      = execKitchenLimitWrite i wide off v s := rfl
    _ = writeBus i wide off v s := by rw [execKitchenLimitWrite, rowWrite, hreached, Bool.true_or, if_pos rfl]
    _ = guarded i (writeCase s i (0x100 + k) (busWrite wide off v)) s (writeAt i (0x100 + k) (busWrite wide off v) s) := by
      simp only [writeBus, haligned, hslot, hdefined, Bool.not_true, Bool.false_eq_true, if_false]
      rfl
    _ = .next (settled i s (writeKitchen i k (busWrite wide off v) s)) := by
      rw [writeCase_kitchen hk20 hclear, writeAt_kitchen i _ s hk20, guarded, settle]

theorem onlyMirror_modKit (i : InstId) (f : Kitchen → Kitchen) (s : State) : OnlyMirror i s (modKit i f s) := by
  cases i <;> exact ⟨⟨rfl, rfl⟩, rfl⟩

theorem mir_modKit (i : InstId) (f : Kitchen → Kitchen) (s : State) :
    mir (modKit i f s) i = { mir s i with kitchen := f (mir s i).kitchen } := by
  cases i <;> rfl

/-- The write goes on, and the instance's Kitchen becomes `f` of it: nothing else that the instance mirrors changes. -/
def LimitsBecome (i : InstId) (s : State) (wide : Bool) (off v : Nat) (f : Kitchen → Kitchen) : Prop :=
  Settles (.kitchenLimitWrite i wide off v) i s (fun t => mir t i = { mir s i with kitchen := f (mir s i).kitchen } ∧ OnlyMirror i s t)

/-- What a write that fits its fields makes of the Kitchen is what its register's row of `writeKitchen` says. -/
theorem limitsBecome_of_writeKitchen {i : InstId} {s : State} {wide : Bool} {off v k : Nat} {f : Kitchen → Kitchen} (htakes : limitsTake s i = true)
    (haligned : aligned wide off = true) (hslot : off / 8 * 8 = 0x100 + k) (hk : k ∈ limitSlots) (hv : v < 2 ^ accessWidth wide)
    (hfits : InFields (kitchenRegs (mir s i) k) (v * 2 ^ accessLo wide off))
    (hwrite : writeKitchen i k (busWrite wide off v) s = modKit i f s) : LimitsBecome i s wide off v f := by
  have hclear : (busWrite wide off v).val &&& regReserved (kitchenRegs (mir s i) k) = 0 := by
    rw [busWrite_eq hv]
    exact and_regReserved_of_inFields hfits
  refine ⟨_, exec_kitchenLimitWrite htakes haligned hslot hk hclear, ?_⟩
  rw [hwrite]
  exact ⟨mir_modKit i f s, onlyMirror_modKit i f s⟩

/-! ### A register of two limits -/

/-- The registers that hold one limit in each half: `STEP_LOGIT_LIMIT` and `STEP_PREFILL_LIMIT`, `CHUNK_LIMIT` and `C0_LOGIT_CAP`, `C0_PREFILL_CAP` and `STARVE_STEPS`. -/
inductive Halves where
  | step | chunk | prefill

namespace Halves

/-- The register's offset in the Kitchen block. -/
def slot : Halves → Nat
  | step => 0x00
  | chunk => 0x08
  | prefill => 0x10

def lowWidth : Halves → Nat
  | step => 15
  | chunk | prefill => 19

def highWidth : Halves → Nat
  | step => 19
  | chunk => 15
  | prefill => 16

/-- What the low limit becomes by a write of `v`. -/
def lowBound : Halves → Nat → Nat
  | step, v => clamp 1 16384 v
  | chunk, v => clamp 16 262144 v
  | prefill, v => min 262144 v

/-- What the high limit becomes by a write of `v`; `STARVE_STEPS` has no bounds but its width. -/
def highBound : Halves → Nat → Nat
  | step, v => min 262144 v
  | chunk, v => clamp 1024 16384 v
  | prefill, v => v

def low : Halves → Kitchen → Nat
  | step, k => k.stepLogitLimit
  | chunk, k => k.chunkLimit
  | prefill, k => k.c0PrefillCap

def high : Halves → Kitchen → Nat
  | step, k => k.stepPrefillLimit
  | chunk, k => k.c0LogitCap
  | prefill, k => k.starveSteps

/-- The Kitchen with the two limits set. -/
def put : Halves → Nat → Nat → Kitchen → Kitchen
  | step, a, b, k => { k with stepLogitLimit := a, stepPrefillLimit := b }
  | chunk, a, b, k => { k with chunkLimit := a, c0LogitCap := b }
  | prefill, a, b, k => { k with c0PrefillCap := a, starveSteps := b }

theorem slot_mem_limitSlots (r : Halves) : r.slot ∈ limitSlots := by
  cases r <;> decide

theorem slot_mod_eight (r : Halves) : r.slot % 8 = 0 := by
  cases r <;> rfl

theorem lowWidth_pos (r : Halves) : 0 < r.lowWidth := by
  cases r <;> decide

theorem lowWidth_le (r : Halves) : r.lowWidth ≤ 32 := by
  cases r <;> decide

theorem highWidth_pos (r : Halves) : 0 < r.highWidth := by
  cases r <;> decide

theorem highWidth_le (r : Halves) : r.highWidth ≤ 32 := by
  cases r <;> decide

theorem fields (r : Halves) (m : Mirrored) : (kitchenRegs m r.slot).map (fun f => (f.lo, f.width)) = [(0, r.lowWidth), (32, r.highWidth)] := by
  cases r <;> rfl

/-- A write to the register sets the two limits by their bounds. -/
theorem writeKitchen_slot (r : Halves) (i : InstId) (w : BusWrite) (s : State) : writeKitchen i r.slot w s =
    modKit i (fun k => r.put (w.made 0 r.lowWidth r.lowBound (r.low k)) (w.made 32 r.highWidth r.highBound (r.high k)) k) s := by
  have hzero : clamp 0 262144 = min 262144 := funext fun _ => Nat.zero_max _
  cases r with
  | step => simp only [writeKitchen, slot, hzero]; rfl
  | chunk => rfl
  | prefill => simp only [writeKitchen, slot, hzero, merged_eq_made]; rfl

theorem mem_fields (r : Halves) (m : Mirrored) :
    (0, r.lowWidth) ∈ (kitchenRegs m r.slot).map (fun f => (f.lo, f.width)) ∧ (32, r.highWidth) ∈ (kitchenRegs m r.slot).map (fun f => (f.lo, f.width)) := by
  simp [r.fields]

theorem lt_of_low {r : Halves} {a : Nat} (ha : a < 2 ^ r.lowWidth) : a < 2 ^ 32 :=
  Nat.lt_of_lt_of_le ha (Nat.pow_le_pow_right (by decide) r.lowWidth_le)

theorem lt_of_high {r : Halves} {b : Nat} (hb : b < 2 ^ r.highWidth) : b < 2 ^ 32 :=
  Nat.lt_of_lt_of_le hb (Nat.pow_le_pow_right (by decide) r.highWidth_le)

section
variable (r : Halves) {i : InstId} {s : State} (htakes : limitsTake s i = true)
include htakes

/-- Where an access spells a value for each half, each limit whose field it reaches whole takes its value, within its bounds, and the other stays. -/
theorem limitsBecome {wide : Bool} {off v a b : Nat} (haligned : aligned wide off = true) (hslot : off / 8 * 8 = 0x100 + r.slot)
    (hv : v < 2 ^ accessWidth wide) (hspells : v * 2 ^ accessLo wide off = a + 2 ^ 32 * b) (ha : a < 2 ^ r.lowWidth) (hb : b < 2 ^ r.highWidth) :
    LimitsBecome i s wide off v (fun k => r.put (if Reached wide off 0 r.lowWidth then r.lowBound a else r.low k)
      (if Reached wide off 32 r.highWidth then r.highBound b else r.high k) k) := by
  have hl32 := r.lowWidth_le
  have hh32 := r.highWidth_le
  obtain ⟨hlowField, hhighField⟩ := r.mem_fields (mir s i)
  have ha32 : a < 2 ^ 32 := lt_of_low ha
  have hfits : InFields (kitchenRegs (mir s i) r.slot) (v * 2 ^ accessLo wide off) := by
    rw [hspells]
    exact (inFields_of_lt hlowField ha).add ha32 hhighField hb
  have hlow : v * 2 ^ accessLo wide off / 2 ^ 0 % 2 ^ r.lowWidth = a := by
    rw [hspells, Nat.pow_zero, Nat.div_one, ← Nat.add_sub_cancel' hl32, Nat.pow_add, Nat.mul_assoc, Nat.add_mul_mod_self_left, Nat.mod_eq_of_lt ha]
  have hhigh : v * 2 ^ accessLo wide off / 2 ^ 32 % 2 ^ r.highWidth = b := by
    rw [hspells, Nat.add_mul_div_left _ _ (Nat.two_pow_pos 32), Nat.div_eq_of_lt ha32, Nat.zero_add, Nat.mod_eq_of_lt hb]
  refine limitsBecome_of_writeKitchen htakes haligned hslot r.slot_mem_limitSlots hv hfits ?_
  simp only [writeKitchen_slot, made_busWrite _ _ hv r.lowWidth_pos (by omega) hlow, made_busWrite _ _ hv r.highWidth_pos (by omega) hhigh]

/-- A write of 8 bytes sets both limits. -/
theorem limitsBecome_wide {a b : Nat} (ha : a < 2 ^ r.lowWidth) (hb : b < 2 ^ r.highWidth) :
    LimitsBecome i s true (0x100 + r.slot) (a + 2 ^ 32 * b) (r.put (r.lowBound a) (r.highBound b)) := by
  have hslot := r.slot_mod_eight
  have hl32 := r.lowWidth_le
  have hh32 := r.highWidth_le
  have hv : a + 2 ^ 32 * b < 2 ^ accessWidth true := by
    have ha32 := lt_of_low ha
    have hb32 := lt_of_high hb
    rw [accessWidth, if_pos rfl]
    omega
  have hset := r.limitsBecome htakes (off := 0x100 + r.slot) (by simp [aligned]; omega) (by omega) hv
    (by simp [accessLo]) ha hb
  simpa only [reached_wide, if_pos (show 0 + r.lowWidth ≤ 64 by omega), if_pos (show 32 + r.highWidth ≤ 64 by omega)] using hset

/-- A write of 4 bytes to the low half sets its limit alone. -/
theorem limitsBecome_low {a : Nat} (ha : a < 2 ^ r.lowWidth) :
    LimitsBecome i s false (0x100 + r.slot) a (fun k => r.put (r.lowBound a) (r.high k) k) := by
  have hslot := r.slot_mod_eight
  have hl32 := r.lowWidth_le
  have hhpos := r.highWidth_pos
  have hoff : (0x100 + r.slot) % 8 = 0 := by omega
  have hset := r.limitsBecome htakes (wide := false) (off := 0x100 + r.slot) (b := 0) (by simp [aligned]; omega) (by omega)
    (lt_of_low ha) (by simp [accessLo, hoff]) ha (Nat.two_pow_pos _)
  simpa only [reached_lowHalf hoff, if_pos (show 0 + r.lowWidth ≤ 32 by omega), if_neg (show ¬ 32 + r.highWidth ≤ 32 by omega)] using hset

/-- A write of 4 bytes to the high half sets its limit alone. -/
theorem limitsBecome_high {b : Nat} (hb : b < 2 ^ r.highWidth) :
    LimitsBecome i s false (0x104 + r.slot) b (fun k => r.put (r.low k) (r.highBound b) k) := by
  have hslot := r.slot_mod_eight
  have hh32 := r.highWidth_le
  have hoff : (0x104 + r.slot) % 8 ≠ 0 := by omega
  have hset := r.limitsBecome htakes (wide := false) (off := 0x104 + r.slot) (a := 0) (by simp [aligned]; omega) (by omega)
    (lt_of_high hb) (by simp [accessLo, hoff, Nat.mul_comm]) (Nat.two_pow_pos _) hb
  simpa only [reached_highHalf hoff, if_neg (show ¬ (32 ≤ 0 ∧ 0 + r.lowWidth ≤ 64) by omega),
    if_pos (show 32 ≤ 32 ∧ 32 + r.highWidth ≤ 64 by omega)] using hset

end

end Halves

/-! ### A register of four limits -/

/-- A write of `FUSE_MAX`, `KITCHEN_DEPTH`, `PREEMPT_MASK` and `PREEMPT_SHIELD`: all lie in the low half, so either width of access sets all four. -/
theorem limitsBecome_fuse {i : InstId} {s : State} (htakes : limitsTake s i = true) (wide : Bool) {a b c d : Nat}
    (ha : a < 2 ^ 4) (hb : b < 2 ^ 2) (hc : c < 2 ^ 4) (hd : d < 2 ^ 8) :
    LimitsBecome i s wide 0x118 (a + 2 ^ 4 * b + 2 ^ 8 * c + 2 ^ 16 * d)
      (fun k => { k with fuseMax := clamp 1 8 a, depth := clamp 1 2 b, preemptMask := c, preemptShield := d }) := by
  have hfits : InFields (kitchenRegs (mir s i) 0x18) (a + 2 ^ 4 * b + 2 ^ 8 * c + 2 ^ 16 * d) := by
    have hfields : (kitchenRegs (mir s i) 0x18).map (fun f => (f.lo, f.width)) = [(0, 4), (4, 2), (8, 4), (16, 8)] := rfl
    have hfuse : InFields (kitchenRegs (mir s i) 0x18) a := inFields_of_lt (by rw [hfields]; decide) ha
    have hdepth := hfuse.add (lo := 4) ha (by rw [hfields]; decide) hb
    have hmask := hdepth.add (lo := 8) (by omega) (by rw [hfields]; decide) hc
    exact hmask.add (lo := 16) (by omega) (by rw [hfields]; decide) hd
  generalize hspells : a + 2 ^ 4 * b + 2 ^ 8 * c + 2 ^ 16 * d = v at hfits ⊢
  have hplace : v * 2 ^ accessLo wide 0x118 = v := by simp [accessLo]
  have hv : v < 2 ^ accessWidth wide := Nat.lt_of_lt_of_le (by omega) (Nat.pow_le_pow_right (by decide) (le_accessWidth wide))
  have hmade : ∀ lo width x f old, 0 < width → lo + width ≤ 32 → v / 2 ^ lo % 2 ^ width = x →
      (busWrite wide 0x118 v).made lo width f old = f x := by
    intro lo width x f old hpos hend hx
    have hreached : Reached wide 0x118 lo width := by
      cases wide with
      | true => exact reached_wide.2 (by omega)
      | false => exact (reached_lowHalf rfl).2 hend
    rw [made_busWrite f old hv hpos (by omega) (hplace.symm ▸ hx), if_pos hreached]
  refine limitsBecome_of_writeKitchen htakes (by cases wide <;> rfl) rfl (k := 0x18) (by decide) hv (hplace.symm ▸ hfits) ?_
  simp only [writeKitchen, merged_eq_made, hmade 0 4 a _ _ (by decide) (by decide) (by omega), hmade 4 2 b _ _ (by decide) (by decide) (by omega),
    hmade 8 4 c _ _ (by decide) (by decide) (by omega), hmade 16 8 d _ _ (by decide) (by decide) (by omega), id]

/-! ### The statement -/

/-- Settles O57: each register's write spells its fields, an access reaches those of its half, and each takes the nearest value within its bounds. -/
theorem kitchenLimits : Obligations.KitchenLimits := by
  intro i s a b c d htakes k
  exact ⟨fun ha hb => Halves.step.limitsBecome_wide htakes ha hb,
    fun ha hb => Halves.chunk.limitsBecome_wide htakes ha hb,
    fun ha hb => Halves.prefill.limitsBecome_wide htakes ha hb,
    fun ha hb hc hd => limitsBecome_fuse htakes true ha hb hc hd,
    fun ha => Halves.step.limitsBecome_low htakes ha,
    fun hb => Halves.step.limitsBecome_high htakes hb,
    fun ha => Halves.chunk.limitsBecome_low htakes ha,
    fun hb => Halves.chunk.limitsBecome_high htakes hb,
    fun ha => Halves.prefill.limitsBecome_low htakes ha,
    fun hb => Halves.prefill.limitsBecome_high htakes hb,
    fun ha hb hc hd => limitsBecome_fuse htakes false ha hb hc hd⟩

end Sys2Proof.Limits

/-! SUPPORT. What every command keeps (the frame): one lemma for each row, of the operations that its meaning is made of, and the rule for every command. -/

namespace Sys2Proof.Rows

open Sys2Proof Sys2Proof.Machine Sys2Proof.Laws

/-! ### Rows of Usher -/

theorem execTokenCommit_keptI (i : InstId) (lid : Nat) (s : State) : ResOk (KeptI i s) (execTokenCommit i lid s) := by
  have h := KeptI.refl i s
  unfold execTokenCommit
  repeat' first | (with_reducible first | assumption | apply commitOne_keptI | apply endEvent_keptI | apply evictResumes_keptI | apply releaseEvent_keptI | apply ResOk.next | exact ResOk.fault _) | split | dsimp only

theorem execStopCheck_keptI (i : InstId) (lid : Nat) (s : State) : ResOk (KeptI i s) (execStopCheck i lid s) := by
  have h := KeptI.refl i s
  unfold execStopCheck
  repeat' first | (with_reducible first | assumption | apply endEvent_keptI | apply releaseEvent_keptI | apply ResOk.next) | split

theorem execKill_keptI (i : InstId) (lid : Nat) (s : State) : ResOk (KeptI i s) (execKill i lid s) := by
  have h := KeptI.refl i s
  unfold execKill
  repeat' first | (with_reducible first | assumption | apply applyKill_keptI | apply endEvent_keptI | apply releaseEvent_keptI | apply ResOk.next) | split

theorem execAdmitSeq_keptI (i : InstId) (lid : Nat) (s : State) : ResOk (KeptI i s) (execAdmitSeq i lid s) := by
  have h := KeptI.refl i s
  unfold execAdmitSeq
  repeat' first | (with_reducible first | assumption | apply applyAdmit_keptI | apply endEvent_keptI | apply passAll_keptI | apply releaseEvent_keptI | apply ResOk.next) | split

theorem execWarm_keptI (i : InstId) (lid : Nat) (s : State) : ResOk (KeptI i s) (execWarm i lid s) := by
  have h := KeptI.refl i s
  unfold execWarm
  repeat' first | (with_reducible first | assumption | apply applyWarm_keptI | apply endEvent_keptI | apply releaseEvent_keptI | apply ResOk.next) | split

theorem execCool_keptI (i : InstId) (lid : Nat) (s : State) : ResOk (KeptI i s) (execCool i lid s) := by
  have h := KeptI.refl i s
  unfold execCool
  repeat' first | (with_reducible first | assumption | apply applyCool_keptI | apply endEvent_keptI | apply releaseEvent_keptI | apply ResOk.next) | split

theorem execEvictionPark_keptI (i : InstId) (lid : Nat) (s : State) : ResOk (KeptI i s) (execEvictionPark i lid s) := by
  have h := KeptI.refl i s
  unfold execEvictionPark
  repeat' first | (with_reducible first | assumption | apply applyEvict_keptI | apply endEvent_keptI | apply releaseEvent_keptI | apply ResOk.next) | split

theorem execEvictionResume_keptI (i : InstId) (lid : Nat) (s : State) : ResOk (KeptI i s) (execEvictionResume i lid s) := by
  have h := KeptI.refl i s
  unfold execEvictionResume
  repeat' first | (with_reducible first | assumption | apply applyPrefix_keptI | apply endEvent_keptI | apply releaseEvent_keptI | apply resumeFully_keptI | apply ResOk.next) | split

theorem execKvInvalidation_keptI (i : InstId) (lid : Nat) (s : State) : ResOk (KeptI i s) (execKvInvalidation i lid s) := by
  have h := KeptI.refl i s
  unfold execKvInvalidation
  repeat' first | (with_reducible first | assumption | apply endEvent_keptI | apply invalidateKv_keptI | apply recordDone_keptI | apply releaseEvent_keptI | apply ResOk.next) | split

theorem execSequenceCancel_keptI (i : InstId) (lid : Nat) (s : State) : ResOk (KeptI i s) (execSequenceCancel i lid s) := by
  have h := KeptI.refl i s
  unfold execSequenceCancel
  repeat' first | (with_reducible first | assumption | apply applyCancel_keptI | apply endEvent_keptI | apply releaseEvent_keptI | apply ResOk.next) | split

theorem execSequencePark_keptI (i : InstId) (lid : Nat) (s : State) : ResOk (KeptI i s) (execSequencePark i lid s) := by
  have h := KeptI.refl i s
  unfold execSequencePark
  repeat' first | (with_reducible first | assumption | apply applyPark_keptI | apply endEvent_keptI | apply releaseEvent_keptI | apply ResOk.next) | split

theorem execSequenceResume_keptI (i : InstId) (lid : Nat) (s : State) : ResOk (KeptI i s) (execSequenceResume i lid s) := by
  have h := KeptI.refl i s
  unfold execSequenceResume
  repeat' first | (with_reducible first | assumption | apply applyResume_keptI | apply endEvent_keptI | apply releaseEvent_keptI | apply resolveEvent_keptI | apply ResOk.next) | split

theorem execSequenceExtend_keptI (i : InstId) (lid : Nat) (s : State) : ResOk (KeptI i s) (execSequenceExtend i lid s) := by
  have h := KeptI.refl i s
  unfold execSequenceExtend
  repeat' first | (with_reducible first | assumption | apply applyExtend_keptI | apply endEvent_keptI | apply releaseEvent_keptI | apply ResOk.next) | split

theorem execForceRun_keptI (i : InstId) (lid : Nat) (s : State) : ResOk (KeptI i s) (execForceRun i lid s) := by
  have h := KeptI.refl i s
  unfold execForceRun
  repeat' first | (with_reducible first | assumption | apply applyForce_keptI | apply endEvent_keptI | apply releaseEvent_keptI | apply ResOk.next) | split

theorem execMidnightEvent_keptI (i : InstId) (lid : Nat) (s : State) : ResOk (KeptI i s) (execMidnightEvent i lid s) := by
  have h := KeptI.refl i s
  unfold execMidnightEvent
  repeat' first | (with_reducible first | assumption | apply applyMidnight_keptI | apply endEvent_keptI | apply releaseEvent_keptI | apply ResOk.next) | split

theorem execEpochAbort_keptI (i : InstId) (lid : Nat) (s : State) : ResOk (KeptI i s) (execEpochAbort i lid s) := by
  have h := KeptI.refl i s
  unfold execEpochAbort
  repeat' first | (with_reducible first | assumption | apply endEvent_keptI | apply endOrWait_keptI | apply releaseEvent_keptI | apply ResOk.next) | split

theorem execEveningEvent_keptI (i : InstId) (lid : Nat) (s : State) : ResOk (KeptI i s) (execEveningEvent i lid s) := by
  have h := KeptI.refl i s
  unfold execEveningEvent
  repeat' first | (with_reducible first | assumption | apply applyEvening_keptI | apply endEvent_keptI | apply releaseEvent_keptI | apply ResOk.next) | split

theorem execMorningEvent_keptI (i : InstId) (lid : Nat) (s : State) : ResOk (KeptI i s) (execMorningEvent i lid s) := by
  have h := KeptI.refl i s
  unfold execMorningEvent
  repeat' first | (with_reducible first | assumption | apply applyMorning_keptI | apply endEvent_keptI | apply releaseEvent_keptI | apply ResOk.next) | split

theorem execBroadcastSweep_keptI (i : InstId) (lid : Nat) (s : State) : ResOk (KeptI i s) (execBroadcastSweep i lid s) := by
  have h := KeptI.refl i s
  unfold execBroadcastSweep
  repeat' first | (with_reducible first | assumption | apply done_keptI | apply flushBcast_keptI | apply ResOk.next) | split

theorem execHousehold_keptI (i : InstId) (lid : Nat) (s : State) : ResOk (KeptI i s) (execHousehold i lid s) := by
  have h := KeptI.refl i s
  unfold execHousehold
  repeat' first | (with_reducible first | assumption | apply applyHousehold_keptI | apply endEvent_keptI | apply releaseEvent_keptI | apply ResOk.next) | split

theorem execTeardown_keptI (i : InstId) (lid : Nat) (s : State) : ResOk (KeptI i s) (execTeardown i lid s) := by
  have h := KeptI.refl i s
  unfold execTeardown
  repeat' first | (with_reducible first | assumption | apply applyTeardown_keptI | apply endEvent_keptI | apply releaseEvent_keptI | apply ResOk.next) | split

theorem execPlanReady_keptI (i : InstId) (lid : Nat) (s : State) : ResOk (KeptI i s) (execPlanReady i lid s) := by
  have h := KeptI.refl i s
  unfold execPlanReady
  repeat' first | (with_reducible first | assumption | apply applyPlanReady_keptI | apply endEvent_keptI | apply releaseEvent_keptI | apply ResOk.next) | split

theorem execDeadlineEntry_keptI (i : InstId) (lid : Nat) (s : State) : ResOk (KeptI i s) (execDeadlineEntry i lid s) := by
  have h := KeptI.refl i s
  unfold execDeadlineEntry
  repeat' first | (with_reducible first | assumption | apply applyDeadline_keptI | apply countStale_keptI | apply done_keptI | apply endEvent_keptI | apply fireDue_keptI | apply releaseEvent_keptI | apply spendHandle_keptI | apply ResOk.next) | split | dsimp only

theorem execParkWake_keptI (i : InstId) (lid : Nat) (s : State) : ResOk (KeptI i s) (execParkWake i lid s) := by
  have h := KeptI.refl i s
  unfold execParkWake
  repeat' first | (with_reducible first | assumption | apply applyResume_keptI | apply countStale_keptI | apply done_keptI | apply endEvent_keptI | apply fireDue_keptI | apply modSeq_keptI | apply releaseEvent_keptI | apply spendHandle_keptI | apply ResOk.next) | split | dsimp only

/-! ### Rows of Compose -/

theorem execComposeStep_keptI (i : InstId) (fuse : Bool) (s : State) : ResOk (KeptI i s) (execComposeStep i fuse s) := by
  have h := KeptI.refl i s
  unfold execComposeStep
  repeat' first | (with_reducible first | assumption | apply composeOnce_keptI | apply endEvent_keptI | apply latchWaits_keptI | apply preCompose_keptI | apply ResOk.next) | split

/-! ### Rows of Steps -/

theorem execWaveLandedNotice_keptI (i : InstId) (die step wave : Nat) (s : State) : ResOk (KeptI i s) (execWaveLandedNotice i die step wave s) := by
  have h := KeptI.refl i s
  unfold execWaveLandedNotice
  repeat' first | (with_reducible first | assumption | apply discardNotice_keptI | apply done_keptI | apply modStep_keptI | apply ringPush_keptI | apply sampledCheck_keptI | apply ResOk.next) | split

theorem execCompletionNotice_keptI (i : InstId) (die step : Nat) (s : State) : ResOk (KeptI i s) (execCompletionNotice i die step s) := by
  have h := KeptI.refl i s
  unfold execCompletionNotice
  repeat' first | (with_reducible first | assumption | apply discardNotice_keptI | apply done_keptI | apply modStep_keptI | apply sampledCheck_keptI | apply ResOk.next) | split

theorem execKillAcknowledgement_keptI (i : InstId) (die step : Nat) (s : State) : ResOk (KeptI i s) (execKillAcknowledgement i die step s) := by
  have h := KeptI.refl i s
  unfold execKillAcknowledgement
  repeat' first | (with_reducible first | assumption | apply discardNotice_keptI | apply done_keptI | apply modStep_keptI | apply sweepSteps_keptI | apply ResOk.next) | split

theorem execKernelFault_keptI (i : InstId) (die step : Nat) (s : State) : ResOk (KeptI i s) (execKernelFault i die step s) := by
  have h := KeptI.refl i s
  unfold execKernelFault
  repeat' first | (with_reducible first | assumption | apply askFault_keptI | apply discardNotice_keptI | apply done_keptI | apply endEvent_keptI | apply killStep_keptI | apply logFault_keptI | apply modKit_keptI | apply outpostFault_keptI | apply ResOk.next) | split | dsimp only

theorem execCommitPoint_keptI (i : InstId) (step : Nat) (s : State) : ResOk (KeptI i s) (execCommitPoint i step s) := by
  have h := KeptI.refl i s
  unfold execCommitPoint
  repeat' first | (with_reducible first | assumption | apply done_keptI | apply finishStep_keptI | apply foldl_keptI | apply modStep_keptI | apply postSeq_keptI | apply ringPush_keptI | apply ResOk.next) | split | intro _

theorem execLatchRelease_keptI (i : InstId) (latch : Nat) (s : State) : ResOk (KeptI i s) (execLatchRelease i latch s) := by
  have h := KeptI.refl i s
  unfold execLatchRelease
  repeat' first | (with_reducible first | assumption | apply done_keptI | apply modLatch_keptI | apply ResOk.next) | split

theorem execMidnight_keptI (i : InstId) (m : Nat) (s : State) : ResOk (KeptI i s) (execMidnight i m s) := by
  have h := KeptI.refl i s
  unfold execMidnight
  repeat' first | (with_reducible first | assumption | apply doMidnight_keptI | apply endEvent_keptI | apply ResOk.next) | split

/-! ### Rows of Engine -/

theorem execDrawList_kept (o : Nat) (s : State) : ResOk (Kept s) (execDrawList o s) := by
  have h := Kept.refl s
  unfold execDrawList
  repeat' first | (with_reducible first | assumption | apply modOutpost_kept | apply ResOk.next) | split | intro _

theorem execKeystreamBlock_kept (o : Nat) (h : RowHandle) (lane low : Nat) (s : State) : ResOk (Kept s) (execKeystreamBlock o h lane low s) := by
  have h := Kept.refl s
  unfold execKeystreamBlock
  repeat' first | (with_reducible first | assumption | apply modOutpost_kept | apply ResOk.next) | split | dsimp only | intro _

theorem execClassMapLoaded_kept (o plan lane : Nat) (s : State) : ResOk (Kept s) (execClassMapLoaded o plan lane s) := by
  have h := Kept.refl s
  unfold execClassMapLoaded
  repeat' first | (with_reducible first | assumption | apply modOutpost_kept | apply ResOk.next) | split | dsimp only | intro _

theorem execMaxResult_kept (o : Nat) (s : State) : ResOk (Kept s) (execMaxResult o s) :=
  takeDown_kept _ _ _ (Kept.refl s)

theorem execRoundReq_kept (o : Nat) (s : State) : ResOk (Kept s) (execRoundReq o s) :=
  takeDown_kept _ _ _ (Kept.refl s)

theorem execCut_kept (o : Nat) (s : State) : ResOk (Kept s) (execCut o s) :=
  takeDown_kept _ _ _ (Kept.refl s)

theorem execQuotas_kept (o : Nat) (s : State) : ResOk (Kept s) (execQuotas o s) :=
  takeDown_kept _ _ _ (Kept.refl s)

theorem execLocate_kept (o : Nat) (s : State) : ResOk (Kept s) (execLocate o s) :=
  takeDown_kept _ _ _ (Kept.refl s)

/-! ### Rows of Landing -/

theorem execMaxSum_keptI (i : InstId) (o : Nat) (s : State) : ResOk (KeptI i s) (execMaxSum i o s) :=
  takeSum_keptI _ _ _ _ _ (fun _ _ _ => actMax_keptI _ _ _) (KeptI.refl i s)

theorem execMassSum_keptI (i : InstId) (o : Nat) (s : State) : ResOk (KeptI i s) (execMassSum i o s) :=
  takeSum_keptI _ _ _ _ _ (fun _ _ _ => actMass_keptI _ _ _) (KeptI.refl i s)

theorem execRoundSum_keptI (i : InstId) (o : Nat) (s : State) : ResOk (KeptI i s) (execRoundSum i o s) :=
  takeSum_keptI _ _ _ _ _ (fun _ _ _ => actRound_keptI _ _ _) (KeptI.refl i s)

theorem execKeptSum_keptI (i : InstId) (o : Nat) (s : State) : ResOk (KeptI i s) (execKeptSum i o s) := by
  have h := KeptI.refl i s
  unfold execKeptSum
  repeat' first | (with_reducible first | assumption | apply actKept_keptI | apply actResid_keptI | apply takeSum_keptI) | split | intro _

theorem execRaceSum_keptI (i : InstId) (o : Nat) (s : State) : ResOk (KeptI i s) (execRaceSum i o s) :=
  takeSum_keptI _ _ _ _ _ (fun _ _ _ => actRace_keptI _ _ _) (KeptI.refl i s)

theorem execLocated_keptI (i : InstId) (o : Nat) (s : State) : ResOk (KeptI i s) (execLocated i o s) := by
  have h := KeptI.refl i s
  unfold execLocated
  repeat' first | (with_reducible first | assumption | apply actLocated_keptI | apply discardDown_keptI | apply done_keptI | apply landEnd_keptI | apply popUp_keptI | apply ResOk.next) | split

theorem execParity_keptI (i : InstId) (o : Nat) (s : State) : ResOk (KeptI i s) (execParity i o s) := by
  have h := KeptI.refl i s
  unfold execParity
  repeat' first | (with_reducible first | assumption | apply actParity_keptI | apply discardDown_keptI | apply done_keptI | apply endEvent_keptI | apply popUp_keptI | apply ResOk.next) | split

/-! ### Rows of Mailbox -/

theorem execMailboxGo_keptI (i : InstId) (w : Nat) (s : State) : ResOk (KeptI i s) (execMailboxGo i w s) := by
  have h := KeptI.refl i s
  unfold execMailboxGo
  repeat' first | (with_reducible first | assumption | apply done_keptI | apply modWin_keptI | apply ResOk.next) | split

theorem execResHeadWrite_keptI (i : InstId) (w v : Nat) (s : State) : ResOk (KeptI i s) (execResHeadWrite i w v s) := by
  have h := KeptI.refl i s
  unfold execResHeadWrite
  repeat' first | (with_reducible first | assumption | apply done_keptI | apply modWin_keptI | apply ResOk.next) | split

theorem execMailboxGoTaken_keptI (i : InstId) (w : Nat) (s : State) : ResOk (KeptI i s) (execMailboxGoTaken i w s) := by
  have h := KeptI.refl i s
  unfold execMailboxGoTaken
  repeat' first | (with_reducible first | assumption | apply acceptCmd_keptI | apply answerGo_keptI | apply done_keptI | apply modHearth_keptI | apply modWin_keptI | apply ringPush_keptI | apply ResOk.next | exact ResOk.fault _) | split | dsimp only

/-! ### Rows of Contexts -/

theorem execClass0Reserve_keptI (i : InstId) (w : Nat) (s : State) : ResOk (KeptI i s) (execClass0Reserve i w s) :=
  serve_keptI _ _ _ _ _ (fun _ _ => doClass0Reserve_keptI _ _) (KeptI.refl i s)

theorem execContextOpen_keptI (i : InstId) (w : Nat) (s : State) : ResOk (KeptI i s) (execContextOpen i w s) :=
  serve_keptI _ _ _ _ _ (fun _ _ => doContextOpen_keptI _ _) (KeptI.refl i s)

theorem execContextConfigure_keptI (i : InstId) (w : Nat) (s : State) : ResOk (KeptI i s) (execContextConfigure i w s) :=
  serve_keptI _ _ _ _ _ (fun _ _ => doContextConfigure_keptI _ _) (KeptI.refl i s)

theorem execContextClose_keptI (i : InstId) (w : Nat) (s : State) : ResOk (KeptI i s) (execContextClose i w s) :=
  serve_keptI _ _ _ _ _ (fun _ _ => doContextClose_keptI _ _) (KeptI.refl i s)

theorem execContextCloseDone_keptI (i : InstId) (c : Nat) (s : State) : ResOk (KeptI i s) (execContextCloseDone i c s) := by
  have h := KeptI.refl i s
  unfold execContextCloseDone
  repeat' first | (with_reducible first | assumption | apply done_keptI | apply finishCmd_keptI | apply foldl_keptI | apply journalCtx_keptI | apply modCtx_keptI | apply ResOk.next) | split | dsimp only | intro _

theorem execContextQuery_keptI (i : InstId) (w : Nat) (s : State) : ResOk (KeptI i s) (execContextQuery i w s) :=
  serve_keptI _ _ _ _ _ (fun _ _ => doContextQuery_keptI _ _) (KeptI.refl i s)

/-! ### Rows of Rings -/

theorem execSqTailDoorbell_keptI (i : InstId) (c v : Nat) (s : State) : ResOk (KeptI i s) (execSqTailDoorbell i c v s) := by
  have h := KeptI.refl i s
  unfold execSqTailDoorbell
  repeat' first | (with_reducible first | assumption | apply guarded_keptI | apply setSqTail_keptI | apply ResOk.next) | split

theorem execCqHeadWrite_keptI (i : InstId) (c v : Nat) (s : State) : ResOk (KeptI i s) (execCqHeadWrite i c v s) := by
  have h := KeptI.refl i s
  unfold execCqHeadWrite
  repeat' first | (with_reducible first | assumption | apply guarded_keptI | apply setCqHead_keptI | apply ResOk.next) | split

theorem execIrqModerationTimer_keptI (i : InstId) (c : Nat) (s : State) : ResOk (KeptI i s) (execIrqModerationTimer i c s) := by
  have h := KeptI.refl i s
  unfold execIrqModerationTimer
  repeat' first | (with_reducible first | assumption | apply done_keptI | apply testCq_keptI | apply ResOk.next) | split

theorem execIrqStatusClear_keptI (i : InstId) (wide : Bool) (off v : Nat) (s : State) : ResOk (KeptI i s) (execIrqStatusClear i wide off v s) := by
  have h := KeptI.refl i s
  unfold execIrqStatusClear
  repeat' first | (with_reducible first | assumption | apply clearIrq_keptI | apply guarded_keptI | apply ResOk.next | exact ResOk.fault _) | split

theorem execIrqEnableWrite_keptI (i : InstId) (wide : Bool) (off v : Nat) (s : State) : ResOk (KeptI i s) (execIrqEnableWrite i wide off v s) := by
  have h := KeptI.refl i s
  unfold execIrqEnableWrite
  repeat' first | (with_reducible first | assumption | apply guarded_keptI | apply setEnable_keptI | apply ResOk.next | exact ResOk.fault _) | split

theorem execCqRingWrite_keptI (i : InstId) (c : Nat) (s : State) : ResOk (KeptI i s) (execCqRingWrite i c s) := by
  have h := KeptI.refl i s
  unfold execCqRingWrite
  repeat' first | (with_reducible first | assumption | apply foyerRound_keptI | apply modCtx_keptI | apply ringPush_keptI | apply settle_keptI | apply testCq_keptI | apply writeRing_keptI | apply writeShadow_keptI | apply ResOk.next) | split | dsimp only

theorem execSubmitEntry_keptI (i : InstId) (c : Nat) (entry : List Byte) (prompt : List Nat) (stop : List Byte) (s : State) :
    ResOk (KeptI i s) (execSubmitEntry i c entry prompt stop s) := by
  have h := KeptI.refl i s
  unfold execSubmitEntry
  repeat' first | (with_reducible first | assumption | apply notRead_keptI | apply placeEntry_keptI | apply readSubmit_keptI | apply ResOk.next) | split | dsimp only

theorem execSqNop_keptI (i : InstId) (c : Nat) (entry : List Byte) (s : State) : ResOk (KeptI i s) (execSqNop i c entry s) := by
  have h := KeptI.refl i s
  unfold execSqNop
  repeat' first | (with_reducible first | assumption | apply done_keptI | apply notRead_keptI | apply passEntry_keptI | apply placeEntry_keptI | apply ResOk.next | exact ResOk.fault _) | split | dsimp only

theorem execSqBadKind_keptI (i : InstId) (c : Nat) (entry : List Byte) (s : State) : ResOk (KeptI i s) (execSqBadKind i c entry s) := by
  have h := KeptI.refl i s
  unfold execSqBadKind
  repeat' first | (with_reducible first | assumption | apply done_keptI | apply modCtx_keptI | apply notRead_keptI | apply passEntry_keptI | apply placeEntry_keptI | apply ResOk.next | exact ResOk.fault _) | split | dsimp only

theorem execFoyerReevaluation_keptI (i : InstId) (s : State) : ResOk (KeptI i s) (execFoyerReevaluation i s) := by
  have h := KeptI.refl i s
  unfold execFoyerReevaluation
  repeat' first | (with_reducible first | assumption | apply done_keptI | apply endEvent_keptI | apply fireDue_keptI | apply foyerPeriod_keptI | apply releaseEvent_keptI | apply ResOk.next) | split | dsimp only

theorem execDeferLimitExpiry_keptI (i : InstId) (c : Nat) (s : State) : ResOk (KeptI i s) (execDeferLimitExpiry i c s) := by
  have h := KeptI.refl i s
  unfold execDeferLimitExpiry
  repeat' first | (with_reducible first | assumption | apply done_keptI | apply endEvent_keptI | apply expireDeferred_keptI | apply fireDue_keptI | apply foyerRound_keptI | apply releaseEvent_keptI | apply ResOk.next) | split | dsimp only

theorem execContext_keptI (i : InstId) (c : Nat) (s : State) : ResOk (KeptI i s) (execContext i c s) := by
  have h := KeptI.refl i s
  unfold execContext
  repeat' first | (with_reducible first | assumption | apply endEvent_keptI | apply foyerRound_keptI | apply releaseEvent_keptI | apply ResOk.next) | split

theorem execDmaError_keptI (i : InstId) (c : Nat) (s : State) : ResOk (KeptI i s) (execDmaError i c s) := by
  have h := KeptI.refl i s
  unfold execDmaError
  repeat' first | (with_reducible first | assumption | apply askFault_keptI | apply endEvent_keptI | apply ResOk.next) | split

theorem execTeardownComplete_keptI (i : InstId) (c : Nat) (s : State) : ResOk (KeptI i s) (execTeardownComplete i c s) := by
  have h := KeptI.refl i s
  unfold execTeardownComplete
  repeat' first | (with_reducible first | assumption | apply endEvent_keptI | apply journalCtx_keptI | apply raiseIrq_keptI | apply releaseContext_keptI | apply ResOk.next) | split

/-! ### Rows of Fabric -/

theorem execAnnounce_keptI (i : InstId) (msg : PeerMsg) (s : State) : ResOk (KeptI i s) (execAnnounce i msg s) := by
  have h := KeptI.refl i s
  unfold execAnnounce
  repeat' first | (with_reducible first | assumption | apply noteAnnounce_keptI | apply receiveIf_keptI | apply sendMsg_keptI) | split | intro _

theorem execAnnounceReply_keptI (i : InstId) (msg : PeerMsg) (s : State) : ResOk (KeptI i s) (execAnnounceReply i msg s) := by
  have h := KeptI.refl i s
  unfold execAnnounceReply
  repeat' first | (with_reducible first | assumption | apply noteAnnounce_keptI | apply receiveIf_keptI) | split | intro _

theorem execAccept_keptI (i : InstId) (msg : PeerMsg) (s : State) : ResOk (KeptI i s) (execAccept i msg s) := by
  have h := KeptI.refl i s
  unfold execAccept
  repeat' first | (with_reducible first | assumption | apply atActive_keptI | apply atSource_keptI | apply receiveIf_keptI | apply takeAccept_keptI) | split | intro _

theorem execRefuse_keptI (i : InstId) (msg : PeerMsg) (s : State) : ResOk (KeptI i s) (execRefuse i msg s) := by
  have h := KeptI.refl i s
  unfold execRefuse
  repeat' first | (with_reducible first | assumption | apply atActive_keptI | apply atSource_keptI | apply receive_keptI | apply takeRefuse_keptI) | split | intro _

theorem execDataAck_keptI (i : InstId) (msg : PeerMsg) (s : State) : ResOk (KeptI i s) (execDataAck i msg s) := by
  have h := KeptI.refl i s
  unfold execDataAck
  repeat' first | (with_reducible first | assumption | apply atActive_keptI | apply atSource_keptI | apply receive_keptI | apply takeDataAck_keptI) | split | intro _

theorem execAck_keptI (i : InstId) (msg : PeerMsg) (s : State) : ResOk (KeptI i s) (execAck i msg s) := by
  have h := KeptI.refl i s
  unfold execAck
  repeat' first | (with_reducible first | assumption | apply atActive_keptI | apply atSource_keptI | apply receive_keptI | apply takeAck_keptI) | split | intro _

theorem execNak_keptI (i : InstId) (msg : PeerMsg) (s : State) : ResOk (KeptI i s) (execNak i msg s) := by
  have h := KeptI.refl i s
  unfold execNak
  repeat' first | (with_reducible first | assumption | apply atActive_keptI | apply atSource_keptI | apply receive_keptI | apply takeNak_keptI) | split | intro _

theorem execOffer_keptI (i : InstId) (msg : PeerMsg) (s : State) : ResOk (KeptI i s) (execOffer i msg s) := by
  have h := KeptI.refl i s
  unfold execOffer
  repeat' first | (with_reducible first | assumption | apply receiveIf_keptI | apply takeOffer_keptI) | split | intro _

theorem execDataMsg_keptI (i : InstId) (msg : PeerMsg) (s : State) : ResOk (KeptI i s) (execDataMsg i msg s) := by
  have h := KeptI.refl i s
  unfold execDataMsg
  repeat' first | (with_reducible first | assumption | apply atActive_keptI | apply receiveIf_keptI | apply takeData_keptI) | split | intro _

theorem execHandover_keptI (i : InstId) (msg : PeerMsg) (s : State) : ResOk (KeptI i s) (execHandover i msg s) := by
  have h := KeptI.refl i s
  unfold execHandover
  repeat' first | (with_reducible first | assumption | apply receiveIf_keptI | apply sendNak_keptI | apply takeHandover_keptI) | split | intro _

theorem execAbandon_keptI (i : InstId) (msg : PeerMsg) (s : State) : ResOk (KeptI i s) (execAbandon i msg s) := by
  have h := KeptI.refl i s
  unfold execAbandon
  repeat' first | (with_reducible first | assumption | apply atActive_keptI | apply receive_keptI | apply takeAbandon_keptI) | split | intro _

theorem execBounce_keptI (i : InstId) (msg : PeerMsg) (s : State) : ResOk (KeptI i s) (execBounce i msg s) := by
  have h := KeptI.refl i s
  unfold execBounce
  repeat' first | (with_reducible first | assumption | apply receiveIf_keptI | apply takeBounce_keptI) | split | intro _

theorem execMigrateOut_keptI (i : InstId) (lid : Nat) (s : State) : ResOk (KeptI i s) (execMigrateOut i lid s) := by
  have h := KeptI.refl i s
  unfold execMigrateOut
  repeat' first | (with_reducible first | assumption | apply applyMigrateOut_keptI | apply endEvent_keptI | apply releaseEvent_keptI | apply ResOk.next) | split

theorem execMigrateAck_keptI (i : InstId) (lid : Nat) (s : State) : ResOk (KeptI i s) (execMigrateAck i lid s) := by
  have h := KeptI.refl i s
  unfold execMigrateAck
  repeat' first | (with_reducible first | assumption | apply applyMigrateAck_keptI | apply endEvent_keptI | apply releaseEvent_keptI | apply ResOk.next) | split

theorem execMigrateFail_keptI (i : InstId) (lid : Nat) (s : State) : ResOk (KeptI i s) (execMigrateFail i lid s) := by
  have h := KeptI.refl i s
  unfold execMigrateFail
  repeat' first | (with_reducible first | assumption | apply applyMigrateFail_keptI | apply endEvent_keptI | apply releaseEvent_keptI | apply ResOk.next) | split

theorem execMigrateIn_keptI (i : InstId) (lid : Nat) (s : State) : ResOk (KeptI i s) (execMigrateIn i lid s) := by
  have h := KeptI.refl i s
  unfold execMigrateIn
  repeat' first | (with_reducible first | assumption | apply applyMigrateIn_keptI | apply endEvent_keptI | apply releaseEvent_keptI | apply ResOk.next) | split

theorem execMigrateDone_keptI (i : InstId) (lid : Nat) (s : State) : ResOk (KeptI i s) (execMigrateDone i lid s) := by
  have h := KeptI.refl i s
  unfold execMigrateDone
  repeat' first | (with_reducible first | assumption | apply applyMigrateDone_keptI | apply endEvent_keptI | apply releaseEvent_keptI | apply ResOk.next) | split

theorem execMigrationRetry_keptI (i : InstId) (subject : Nat) (s : State) : ResOk (KeptI i s) (execMigrationRetry i subject s) := by
  have h := KeptI.refl i s
  unfold execMigrationRetry
  repeat' first | (with_reducible first | assumption | apply endEvent_keptI | apply forwardTimer_keptI | apply retryMigration_keptI | apply staleTimer_keptI | apply ResOk.next) | split

theorem execMigrationTimeout_keptI (i : InstId) (subject : Nat) (s : State) : ResOk (KeptI i s) (execMigrationTimeout i subject s) := by
  have h := KeptI.refl i s
  unfold execMigrationTimeout
  repeat' first | (with_reducible first | assumption | apply endEvent_keptI | apply forwardTimer_keptI | apply staleTimer_keptI | apply timeoutMigration_keptI | apply ResOk.next) | split

theorem execArrivalTimeout_keptI (i : InstId) (subject : Nat) (s : State) : ResOk (KeptI i s) (execArrivalTimeout i subject s) := by
  have h := KeptI.refl i s
  unfold execArrivalTimeout
  repeat' first | (with_reducible first | assumption | apply discardIn_keptI | apply endEvent_keptI | apply foyerRound_keptI | apply ResOk.next) | split

theorem execMailboxCommandTimeout_keptI (i : InstId) (core : Nat) (s : State) : ResOk (KeptI i s) (execMailboxCommandTimeout i core s) := by
  have h := KeptI.refl i s
  unfold execMailboxCommandTimeout
  repeat' first | (with_reducible first | assumption | apply countStale_keptI | apply done_keptI | apply fireDue_keptI | apply releaseEvent_keptI | apply ResOk.next) | split | dsimp only

theorem execDuskSpillRefill_keptI (i : InstId) (list : Nat) (s : State) : ResOk (KeptI i s) (execDuskSpillRefill i list s) := by
  have h := KeptI.refl i s
  unfold execDuskSpillRefill
  repeat' first | (with_reducible first | assumption | apply done_keptI | apply modMir_keptI | apply ResOk.next) | split

theorem execReorderRelease_keptI (i : InstId) (s : State) : ResOk (KeptI i s) (execReorderRelease i s) := by
  have h := KeptI.refl i s
  unfold execReorderRelease
  repeat' first | (with_reducible first | assumption | apply done_keptI | apply modStair_keptI | apply ResOk.next) | split | dsimp only

theorem execDirectionsSet_keptI (i : InstId) (w : Nat) (list : List Byte) (s : State) : ResOk (KeptI i s) (execDirectionsSet i w list s) :=
  serve_keptI _ _ _ _ _ (fun _ _ => doDirectionsSet_keptI _ _ _) (KeptI.refl i s)

/-! ### Rows of Objects -/

theorem execRecipeDefine_keptI (i : InstId) (w : Nat) (img : List Byte) (s : State) : ResOk (KeptI i s) (execRecipeDefine i w img s) :=
  serve_keptI _ _ _ _ _ (fun _ _ => doRecipeDefine_keptI _ _ _) (KeptI.refl i s)

theorem execRecipeUndefine_keptI (i : InstId) (w : Nat) (s : State) : ResOk (KeptI i s) (execRecipeUndefine i w s) :=
  serve_keptI _ _ _ _ _ (fun _ _ => doRecipeUndefine_keptI _ _) (KeptI.refl i s)

theorem execPlanRegister_keptI (i : InstId) (w : Nat) (s : State) : ResOk (KeptI i s) (execPlanRegister i w s) :=
  serve_keptI _ _ _ _ _ (fun _ _ => doPlanRegister_keptI _ _) (KeptI.refl i s)

theorem execPlanUnregister_keptI (i : InstId) (w : Nat) (s : State) : ResOk (KeptI i s) (execPlanUnregister i w s) :=
  serve_keptI _ _ _ _ _ (fun _ _ => doPlanUnregister_keptI _ _) (KeptI.refl i s)

theorem execPlanQuery_keptI (i : InstId) (w : Nat) (s : State) : ResOk (KeptI i s) (execPlanQuery i w s) :=
  serve_keptI _ _ _ _ _ (fun _ _ => doPlanQuery_keptI _ _) (KeptI.refl i s)

theorem execPlanFetchDone_keptI (i : InstId) (plan : Nat) (img : List Byte) (s : State) : ResOk (KeptI i s) (execPlanFetchDone i plan img s) := by
  have h := KeptI.refl i s
  unfold execPlanFetchDone
  repeat' first | (with_reducible first | assumption | apply endEvent_keptI | apply fetchFail_keptI | apply fetchPass_keptI | apply hbmPut_keptI | apply ResOk.next | exact ResOk.fault _) | split | dsimp only

/-! ### Rows of Orders -/

theorem execCancel_keptI (i : InstId) (w : Nat) (s : State) : ResOk (KeptI i s) (execCancel i w s) :=
  serve_keptI _ _ _ _ _ (fun _ _ => doCancel_keptI _ _) (KeptI.refl i s)

theorem execPark_keptI (i : InstId) (w : Nat) (s : State) : ResOk (KeptI i s) (execPark i w s) := by
  have h := KeptI.refl i s
  unfold execPark
  repeat' first | (with_reducible first | assumption | apply doOrder_keptI | apply serve_keptI) | split | intro _

theorem execResume_keptI (i : InstId) (w : Nat) (s : State) : ResOk (KeptI i s) (execResume i w s) :=
  serve_keptI _ _ _ _ _ (fun _ _ => doResume_keptI _ _) (KeptI.refl i s)

theorem execExtend_keptI (i : InstId) (w : Nat) (toks : List Nat) (s : State) : ResOk (KeptI i s) (execExtend i w toks s) :=
  serve_keptI _ _ _ _ _ (fun _ _ => doExtendCmd_keptI _ _ _) (KeptI.refl i s)

theorem execQuerySequence_keptI (i : InstId) (w : Nat) (s : State) : ResOk (KeptI i s) (execQuerySequence i w s) :=
  serve_keptI _ _ _ _ _ (fun _ _ => doQuerySequence_keptI _ _) (KeptI.refl i s)

theorem execMigrate_keptI (i : InstId) (w : Nat) (s : State) : ResOk (KeptI i s) (execMigrate i w s) :=
  serve_keptI _ _ _ _ _ (fun _ _ => doMigrate_keptI _ _) (KeptI.refl i s)

/-! ### Rows of Models -/

theorem execModelDescribe_keptI (i : InstId) (w : Nat) (desc : List Byte) (s : State) : ResOk (KeptI i s) (execModelDescribe i w desc s) :=
  serve_keptI _ _ _ _ _ (fun _ _ => doModelDescribe_keptI _ _ _) (KeptI.refl i s)

theorem execModelQuery_keptI (i : InstId) (w : Nat) (s : State) : ResOk (KeptI i s) (execModelQuery i w s) :=
  serve_keptI _ _ _ _ _ (fun _ _ => doModelQuery_keptI _ _) (KeptI.refl i s)

theorem execModelForget_keptI (i : InstId) (w : Nat) (s : State) : ResOk (KeptI i s) (execModelForget i w s) :=
  serve_keptI _ _ _ _ _ (fun _ _ => doModelForget_keptI _ _) (KeptI.refl i s)

theorem execModelLoaded_keptI (i : InstId) (w : Nat) (s : State) : ResOk (KeptI i s) (execModelLoaded i w s) :=
  serve_keptI _ _ _ _ _ (fun _ _ => doModelLoaded_keptI _ _) (KeptI.refl i s)

theorem execModelLoadDeclined_keptI (i : InstId) (w : Nat) (s : State) : ResOk (KeptI i s) (execModelLoadDeclined i w s) :=
  serve_keptI _ _ _ _ _ (fun _ _ => doModelLoadDeclined_keptI _ _) (KeptI.refl i s)

theorem execModelUnloaded_keptI (i : InstId) (w : Nat) (s : State) : ResOk (KeptI i s) (execModelUnloaded i w s) :=
  serve_keptI _ _ _ _ _ (fun _ _ => doModelUnloaded_keptI _ _) (KeptI.refl i s)

theorem execModelPin_keptI (i : InstId) (w : Nat) (s : State) : ResOk (KeptI i s) (execModelPin i w s) :=
  serve_keptI _ _ _ _ _ (fun _ _ => doModelPin_keptI _ _) (KeptI.refl i s)

theorem execEpochStage_keptI (i : InstId) (w : Nat) (desc : List Byte) (s : State) : ResOk (KeptI i s) (execEpochStage i w desc s) :=
  serve_keptI _ _ _ _ _ (fun _ _ => doEpochStage_keptI _ _ _) (KeptI.refl i s)

theorem execEpochReady_keptI (i : InstId) (w : Nat) (s : State) : ResOk (KeptI i s) (execEpochReady i w s) :=
  serve_keptI _ _ _ _ _ (fun _ _ => doEpochReady_keptI _ _) (KeptI.refl i s)

theorem execEpochCommit_keptI (i : InstId) (w : Nat) (s : State) : ResOk (KeptI i s) (execEpochCommit i w s) :=
  serve_keptI _ _ _ _ _ (fun _ _ => doEpochCommit_keptI _ _) (KeptI.refl i s)

theorem execEpochUnstage_keptI (i : InstId) (w : Nat) (s : State) : ResOk (KeptI i s) (execEpochUnstage i w s) :=
  serve_keptI _ _ _ _ _ (fun _ _ => doEpochUnstage_keptI _ _) (KeptI.refl i s)

theorem execEpochRetire_keptI (i : InstId) (w : Nat) (s : State) : ResOk (KeptI i s) (execEpochRetire i w s) :=
  serve_keptI _ _ _ _ _ (fun _ _ => doEpochRetire_keptI _ _) (KeptI.refl i s)

/-! ### Rows of Turns -/

theorem execEvening_keptI (i : InstId) (w : Nat) (s : State) : ResOk (KeptI i s) (execEvening i w s) :=
  serve_keptI _ _ _ _ _ (fun _ _ => doEvening_keptI _ _) (KeptI.refl i s)

theorem execEveningComplete_keptI (i : InstId) (s : State) : ResOk (KeptI i s) (execEveningComplete i s) := by
  have h := KeptI.refl i s
  unfold execEveningComplete
  repeat' first | (with_reducible first | assumption | apply done_keptI | apply finishCode_keptI | apply journalObj_keptI | apply modKit_keptI | apply setRole_keptI | apply ResOk.next) | split | dsimp only

theorem execMorning_kept (i : InstId) (w : Nat) (s : State) : ResOk (Kept s) (execMorning i w s) := by
  have h := Kept.refl s
  unfold execMorning
  repeat' first | (with_reducible first | assumption | apply doMorning_kept | apply serve_kept | apply ResOk.next) | split | intro _

theorem execTurnCost_keptI (i : InstId) (w : Nat) (s : State) : ResOk (KeptI i s) (execTurnCost i w s) := by
  have h := KeptI.refl i s
  unfold execTurnCost
  repeat' first | (with_reducible first | assumption | apply doTurnCost_keptI | apply serve_keptI) | split | intro _

theorem execPoolLend_keptI (i : InstId) (w : Nat) (s : State) : ResOk (KeptI i s) (execPoolLend i w s) := by
  have h := KeptI.refl i s
  unfold execPoolLend
  repeat' first | (with_reducible first | assumption | apply doPoolLend_keptI | apply serve_keptI) | split | intro _

theorem execPoolReturn_keptI (i : InstId) (w : Nat) (s : State) : ResOk (KeptI i s) (execPoolReturn i w s) :=
  serve_keptI _ _ _ _ _ (fun _ _ => doPoolReturn_keptI _ _) (KeptI.refl i s)

/-! ### Rows of Drive -/

theorem execDigestPair_keptI (i : InstId) (s : State) : ResOk (KeptI i s) (execDigestPair i s) := by
  have h := KeptI.refl i s
  unfold execDigestPair
  repeat' first | (with_reducible first | assumption | apply done_keptI | apply driveIssue_keptI | apply modRel_keptI | apply ResOk.next) | split

theorem execJournalFlush_keptI (i : InstId) (s : State) : ResOk (KeptI i s) (execJournalFlush i s) := by
  have h := KeptI.refl i s
  unfold execJournalFlush
  repeat' first | (with_reducible first | assumption | apply done_keptI | apply modRel_keptI | apply startFlush_keptI | apply ResOk.next) | split | dsimp only

theorem execFlushDeferExpiry_keptI (i : InstId) (s : State) : ResOk (KeptI i s) (execFlushDeferExpiry i s) := by
  have h := KeptI.refl i s
  unfold execFlushDeferExpiry
  repeat' first | (with_reducible first | assumption | apply done_keptI | apply startFlush_keptI | apply ResOk.next) | split | dsimp only

theorem execFlushComplete_kept (i : InstId) (s : State) : ResOk (Kept s) (execFlushComplete i s) := by
  have h := Kept.refl s
  unfold execFlushComplete
  repeat' first | (with_reducible first | assumption | apply done_kept | apply flushDone_kept | apply ResOk.next) | split

theorem execBulkImageDurable_kept (i : InstId) (s : State) : ResOk (Kept s) (execBulkImageDurable i s) := by
  have h := Kept.refl s
  unfold execBulkImageDurable
  repeat' first | (with_reducible first | assumption | apply bulkDone_kept | apply done_kept | apply ResOk.next) | split

theorem execBulkImageStart_keptI (i : InstId) (s : State) : ResOk (KeptI i s) (execBulkImageStart i s) := by
  have h := KeptI.refl i s
  unfold execBulkImageStart
  repeat' first | (with_reducible first | assumption | apply done_keptI | apply modRel_keptI | apply startBulk_keptI | apply ResOk.next) | split | dsimp only

theorem execDriveTimeout_keptI (i : InstId) (s : State) : ResOk (KeptI i s) (execDriveTimeout i s) := by
  have h := KeptI.refl i s
  unfold execDriveTimeout
  repeat' first | (with_reducible first | assumption | apply done_keptI | apply driveError_keptI | apply fireCores_keptI | apply releaseEvent_keptI | apply ResOk.next) | split | dsimp only

theorem execSnapshot_keptI (i : InstId) (w : Nat) (s : State) : ResOk (KeptI i s) (execSnapshot i w s) :=
  serve_keptI _ _ _ _ _ (fun _ _ => doSnapshot_keptI _ _) (KeptI.refl i s)

theorem execLossBound_keptI (i : InstId) (w : Nat) (s : State) : ResOk (KeptI i s) (execLossBound i w s) :=
  serve_keptI _ _ _ _ _ (fun _ _ => doLossBound_keptI _ _) (KeptI.refl i s)

theorem execDriveRetry_keptI (i : InstId) (w : Nat) (s : State) : ResOk (KeptI i s) (execDriveRetry i w s) :=
  serve_keptI _ _ _ _ _ (fun _ _ => doDriveRetry_keptI _ _) (KeptI.refl i s)

/-! ### Rows of Twin -/

theorem execMirrorAck_keptI (i : InstId) (s : State) : ResOk (KeptI i s) (execMirrorAck i s) := by
  have h := KeptI.refl i s
  unfold execMirrorAck
  repeat' first | (with_reducible first | assumption | apply modRel_keptI | apply ResOk.next) | split | dsimp only

theorem execHeartbeat_kept (s : State) : ResOk (Kept s) (execHeartbeat s) := by
  have h := Kept.refl s
  unfold execHeartbeat
  repeat' first | (with_reducible first | assumption | apply heartbeatOf_kept | apply ResOk.next) | split

theorem execHeartbeatLost_keptI (i : InstId) (s : State) : ResOk (KeptI i s) (execHeartbeatLost i s) := by
  have h := KeptI.refl i s
  unfold execHeartbeatLost
  repeat' first | (with_reducible first | assumption | apply done_keptI | apply modRel_keptI | apply ResOk.next) | split | dsimp only

theorem execLivenessCheck_kept (i : InstId) (s : State) : ResOk (Kept s) (execLivenessCheck i s) := by
  have h := Kept.refl s
  unfold execLivenessCheck
  repeat' first | (with_reducible first | assumption | apply judge_kept | apply ResOk.next) | split

theorem execClaim_keptI (i : InstId) (o : Nat) (s : State) : ResOk (KeptI i s) (execClaim i o s) := by
  have h := KeptI.refl i s
  unfold execClaim
  repeat' first | (with_reducible first | assumption | apply modOutpost_keptI | apply modRel_keptI | apply ResOk.next) | split | dsimp only | intro _

theorem execTakeover_kept (i : InstId) (s : State) : ResOk (Kept s) (execTakeover i s) := by
  have h := Kept.refl s
  unfold execTakeover
  repeat' first | (with_reducible first | assumption | apply endEvent_kept | apply foyerRound_kept | apply takeOver_kept | apply ResOk.next) | split | dsimp only

theorem execClaimRefused_keptI (i : InstId) (s : State) : ResOk (KeptI i s) (execClaimRefused i s) := by
  have h := KeptI.refl i s
  unfold execClaimRefused
  repeat' first | (with_reducible first | assumption | apply endEvent_keptI | apply failInstance_keptI | apply logFault_keptI | apply modRel_keptI | apply ResOk.next) | split | dsimp only

theorem execLinkCreditsReturned_keptI (i : InstId) (n : Nat) (s : State) : ResOk (KeptI i s) (execLinkCreditsReturned i n s) := by
  have h := KeptI.refl i s
  unfold execLinkCreditsReturned
  exact done_keptI _ _ (modStair_keptI _ _ h)

/-! ### Rows of Dawn -/

theorem execSignatureVerified_keptI (i : InstId) (s : State) : ResOk (KeptI i s) (execSignatureVerified i s) := by
  have h := KeptI.refl i s
  unfold execSignatureVerified
  repeat' first | (with_reducible first | assumption | apply nextSlot_keptI | apply startImage_keptI | apply ResOk.next | exact ResOk.fault _) | split | dsimp only

theorem execCoresReady_keptI (i : InstId) (s : State) : ResOk (KeptI i s) (execCoresReady i s) := by
  have h := KeptI.refl i s
  unfold execCoresReady
  repeat' first | (with_reducible first | assumption | apply modHearth_keptI | apply setStage_keptI | apply ResOk.next) | split | dsimp only

theorem execPlaceRegion_keptI (i : InstId) (w : Nat) (s : State) : ResOk (KeptI i s) (execPlaceRegion i w s) :=
  serve_keptI _ _ _ _ _ (fun _ _ => doPlaceRegion_keptI _ _) (KeptI.refl i s)

theorem execDriveRange_keptI (i : InstId) (w : Nat) (s : State) : ResOk (KeptI i s) (execDriveRange i w s) :=
  serve_keptI _ _ _ _ _ (fun _ _ => doDriveRange_keptI _ _) (KeptI.refl i s)

theorem execIdentity_keptI (i : InstId) (w : Nat) (s : State) : ResOk (KeptI i s) (execIdentity i w s) :=
  serve_keptI _ _ _ _ _ (fun _ _ => doIdentity_keptI _ _) (KeptI.refl i s)

theorem execPairing_keptI (i : InstId) (w : Nat) (s : State) : ResOk (KeptI i s) (execPairing i w s) :=
  serve_keptI _ _ _ _ _ (fun _ _ => doPairing_keptI _ _) (KeptI.refl i s)

theorem execHostTrims_keptI (i : InstId) (w : Nat) (table : List Byte) (s : State) : ResOk (KeptI i s) (execHostTrims i w table s) :=
  serve_keptI _ _ _ _ _ (fun _ _ => doHostTrims_keptI _ _ _) (KeptI.refl i s)

theorem execDawnComplete_keptI (i : InstId) (w : Nat) (s : State) : ResOk (KeptI i s) (execDawnComplete i w s) :=
  serve_keptI _ _ _ _ _ (fun _ _ => doDawnComplete_keptI _ _) (KeptI.refl i s)

theorem execDiscoveryComplete_keptI (i : InstId) (s : State) : ResOk (KeptI i s) (execDiscoveryComplete i s) := by
  have h := KeptI.refl i s
  unfold execDiscoveryComplete
  repeat' first | (with_reducible first | assumption | apply afterDiscovery_keptI | apply endEvent_keptI | apply ResOk.next) | split

theorem execDiscoveryTimeout_keptI (i : InstId) (s : State) : ResOk (KeptI i s) (execDiscoveryTimeout i s) := by
  have h := KeptI.refl i s
  unfold execDiscoveryTimeout
  repeat' first | (with_reducible first | assumption | apply afterDiscovery_keptI | apply endEvent_keptI | apply modStair_keptI | apply ResOk.next) | split | dsimp only

theorem execWatchdogExpiry_keptI (i : InstId) (loss : CoreLoss) (s : State) : ResOk (KeptI i s) (execWatchdogExpiry i loss s) := by
  have h := KeptI.refl i s
  unfold execWatchdogExpiry
  repeat' first | (with_reducible first | assumption | apply done_keptI | apply endEvent_keptI | apply fenceCore_keptI | apply modHearth_keptI | apply raiseIrq_keptI | apply ringPush_keptI | apply setStage_keptI | apply ResOk.next) | split | dsimp only

theorem execCoreRestartDone_keptI (i : InstId) (core : Nat) (s : State) : ResOk (KeptI i s) (execCoreRestartDone i core s) := by
  have h := KeptI.refl i s
  unfold execCoreRestartDone
  repeat' first | (with_reducible first | assumption | apply done_keptI | apply modHearth_keptI | apply ResOk.next) | split | dsimp only

theorem execUncorrectableEcc_keptI (i : InstId) (site : EccSite) (s : State) : ResOk (KeptI i s) (execUncorrectableEcc i site s) := by
  have h := KeptI.refl i s
  unfold execUncorrectableEcc
  repeat' first | (with_reducible first | assumption | apply eccFatal_keptI | apply eccHbm_keptI | apply eccSeq_keptI | apply endEvent_keptI | apply killStep_keptI | apply readAddr_keptI | apply ResOk.next) | split

theorem execImageWrite_keptI (i : InstId) (w : Nat) (img : List Byte) (s : State) : ResOk (KeptI i s) (execImageWrite i w img s) :=
  serve_keptI _ _ _ _ _ (fun _ _ => doImageWrite_keptI _ _ _) (KeptI.refl i s)

theorem execFirmwareConfirm_kept (i : InstId) (w : Nat) (s : State) : ResOk (Kept s) (execFirmwareConfirm i w s) := by
  have h := Kept.refl s
  unfold execFirmwareConfirm
  repeat' first | (with_reducible first | assumption | apply doFirmwareConfirm_kept | apply serve_kept | apply ResOk.next) | split | intro _

/-! ### Rows of Restore -/

theorem execRestore_keptI (i : InstId) (w : Nat) (s : State) : ResOk (KeptI i s) (execRestore i w s) :=
  serve_keptI _ _ _ _ _ (fun _ _ => doRestore_keptI _ _) (KeptI.refl i s)

theorem execRestoreComplete_keptI (i : InstId) (s : State) : ResOk (KeptI i s) (execRestoreComplete i s) := by
  have h := KeptI.refl i s
  unfold execRestoreComplete
  repeat' first | (with_reducible first | assumption | apply done_keptI | apply endEvent_keptI | apply finishCmd_keptI | apply opDone_keptI | apply rebuild_keptI | apply restoreFails_keptI | apply ResOk.next | exact ResOk.fault _) | split | dsimp only

/-! ### Rows of Study -/

theorem execTrace_keptI (i : InstId) (w : Nat) (s : State) : ResOk (KeptI i s) (execTrace i w s) :=
  serve_keptI _ _ _ _ _ (fun _ _ => doTrace_keptI _ _) (KeptI.refl i s)

theorem execTraceDrained_keptI (i : InstId) (s : State) : ResOk (KeptI i s) (execTraceDrained i s) := by
  have h := KeptI.refl i s
  unfold execTraceDrained
  exact done_keptI _ _ (drainTrace_keptI _ h)

theorem execTraceSync_keptI (i : InstId) (s : State) : ResOk (KeptI i s) (execTraceSync i s) := by
  have h := KeptI.refl i s
  unfold execTraceSync
  repeat' first | (with_reducible first | assumption | apply done_keptI | apply traceAdd_keptI | apply ResOk.next) | split

theorem execCounters_keptI (i : InstId) (w : Nat) (s : State) : ResOk (KeptI i s) (execCounters i w s) := by
  have h := KeptI.refl i s
  unfold execCounters
  repeat' first | (with_reducible first | assumption | apply doCounters_keptI | apply serve_keptI) | split | intro _

theorem execWatch_keptI (i : InstId) (w : Nat) (s : State) : ResOk (KeptI i s) (execWatch i w s) :=
  serve_keptI _ _ _ _ _ (fun _ _ => doWatch_keptI _ _) (KeptI.refl i s)

theorem execGraphBuild_keptI (i : InstId) (s : State) : ResOk (KeptI i s) (execGraphBuild i s) := by
  have h := KeptI.refl i s
  unfold execGraphBuild
  repeat' first | (with_reducible first | assumption | apply buildGraph_keptI | apply done_keptI | apply ResOk.next) | split

/-! ### Rows of Clock -/

theorem execLivenessAdvance_keptI (i : InstId) (s : State) : ResOk (KeptI i s) (execLivenessAdvance i s) := by
  have h := KeptI.refl i s
  unfold execLivenessAdvance
  repeat' first | (with_reducible first | assumption | apply modInst_keptI | apply ResOk.next) | split

/-! ### Rows of Registers -/

theorem execKitchenLimitWrite_keptI (i : InstId) (wide : Bool) (off v : Nat) (s : State) : ResOk (KeptI i s) (execKitchenLimitWrite i wide off v s) :=
  rowWrite_keptI _ _ _ _ _ (KeptI.refl i s)

theorem execPageHeadroomWrite_keptI (i : InstId) (wide : Bool) (v : Nat) (s : State) : ResOk (KeptI i s) (execPageHeadroomWrite i wide v s) :=
  writeBus_keptI _ _ _ _ (KeptI.refl i s)

theorem execCoolMarkWrite_keptI (i : InstId) (wide : Bool) (v : Nat) (s : State) : ResOk (KeptI i s) (execCoolMarkWrite i wide v s) :=
  writeBus_keptI _ _ _ _ (KeptI.refl i s)

theorem execEpochRetiredClear_keptI (i : InstId) (wide : Bool) (off v : Nat) (s : State) : ResOk (KeptI i s) (execEpochRetiredClear i wide off v s) :=
  rowWrite_keptI _ _ _ _ _ (KeptI.refl i s)

theorem execFenceMaskWrite_keptI (i : InstId) (o : Nat) (wide : Bool) (v : Nat) (s : State) : ResOk (KeptI i s) (execFenceMaskWrite i o wide v s) :=
  writeBus_keptI _ _ _ _ (KeptI.refl i s)

theorem execFenceRefusedClear_keptI (i : InstId) (o : Nat) (wide : Bool) (v : Nat) (s : State) :
    ResOk (KeptI i s) (execFenceRefusedClear i o wide v s) :=
  writeBus_keptI _ _ _ _ (KeptI.refl i s)

theorem execWdogExpiredClear_keptI (i : InstId) (wide : Bool) (v : Nat) (s : State) : ResOk (KeptI i s) (execWdogExpiredClear i wide v s) :=
  writeBus_keptI _ _ _ _ (KeptI.refl i s)

theorem execLatchConfigWrite_keptI (i : InstId) (wide : Bool) (off v : Nat) (s : State) : ResOk (KeptI i s) (execLatchConfigWrite i wide off v s) :=
  rowWrite_keptI _ _ _ _ _ (KeptI.refl i s)

theorem execStairwellTimingWrite_keptI (i : InstId) (wide : Bool) (off v : Nat) (s : State) :
    ResOk (KeptI i s) (execStairwellTimingWrite i wide off v s) :=
  rowWrite_keptI _ _ _ _ _ (KeptI.refl i s)

theorem execInjectionSeedWrite_keptI (i : InstId) (wide : Bool) (v : Nat) (s : State) : ResOk (KeptI i s) (execInjectionSeedWrite i wide v s) :=
  writeBus_keptI _ _ _ _ (KeptI.refl i s)

theorem execTraceRpWrite_keptI (i : InstId) (wide : Bool) (off v : Nat) (s : State) : ResOk (KeptI i s) (execTraceRpWrite i wide off v s) :=
  rowWrite_keptI _ _ _ _ _ (KeptI.refl i s)

theorem execDumpRequest_keptI (i : InstId) (wide : Bool) (v : Nat) (s : State) : ResOk (KeptI i s) (execDumpRequest i wide v s) :=
  writeBus_keptI _ _ _ _ (KeptI.refl i s)

theorem execDumpAck_keptI (i : InstId) (wide : Bool) (v : Nat) (s : State) : ResOk (KeptI i s) (execDumpAck i wide v s) :=
  writeBus_keptI _ _ _ _ (KeptI.refl i s)

theorem execStudyCauseClear_keptI (i : InstId) (wide : Bool) (v : Nat) (s : State) : ResOk (KeptI i s) (execStudyCauseClear i wide v s) :=
  writeBus_keptI _ _ _ _ (KeptI.refl i s)

/-! ### Rows of Dumps -/

theorem execDumpComplete_keptI (i : InstId) (incomplete : Bool) (s : State) : ResOk (KeptI i s) (execDumpComplete i incomplete s) := by
  have h := KeptI.refl i s
  unfold execDumpComplete
  repeat' first | (with_reducible first | assumption | apply buildGraph_keptI | apply done_keptI | apply modStudy_keptI | apply setCause_keptI | apply writeDump_keptI | apply ResOk.next) | split | dsimp only

/-! ### Rows of the outposts -/

/-- What a change of one outpost leaves alone reads as before in every outpost. -/
theorem getOutpost_modOutpost_of_kept {α : Type} {g : Outpost → α} {f : Outpost → Outpost} (hkept : ∀ x, g (f x) = g x) (o p : Nat) (s : State) :
    g (getOutpost (modOutpost o f s) p) = g (getOutpost s p) := by
  by_cases hne : p = o
  · subst hne
    by_cases hlen : p < s.outposts.length
    · rw [getOutpost, outposts_modOutpost, getD_modAt _ _ _ _ hlen, hkept, getOutpost]
    · rw [getOutpost, outposts_modOutpost, Interrupts.modAt_of_length_le _ _ _ (Nat.le_of_not_lt hlen), getOutpost]
  · rw [getOutpost, outposts_modOutpost, getD_modAt_ne _ _ _ _ _ hne, getOutpost]

theorem owner_modOutpost {f : Outpost → Outpost} {o : Nat} {s : State} {j : Option InstId} (hkept : ∀ x, (f x).owner = x.owner)
    (howner : (getOutpost s o).owner = j) : (getOutpost (modOutpost o f s) o).owner = j :=
  (getOutpost_modOutpost_of_kept (g := Outpost.owner) hkept o o s).trans howner

@[simp] theorem setHalf_owner (h : Nat) (v : Bool) (x : Outpost) : (setHalf h v x).owner = x.owner := by
  unfold setHalf
  split <;> rfl

@[simp] theorem beginWave_owner (n w : Nat) (x : Outpost) : (beginWave n w x).owner = x.owner := by
  unfold beginWave
  dsimp only
  split <;> rfl

@[simp] theorem takeMarker_owner (n w : Nat) (x : Outpost) : (takeMarker n w x).owner = x.owner := by
  unfold takeMarker
  split
  · rfl
  · split
    · rfl
    · split
      · rfl
      · rw [beginWave_owner, setHalf_owner]

theorem drainItems_owner (l : List PortItem) (x : Outpost) : (drainItems l x).owner = x.owner := by
  induction l generalizing x with
  | nil => rfl
  | cons p l ih =>
    cases p with
    | granule off data =>
      unfold drainItems
      split
      · exact ih _
      · rfl
    | marker n w => exact (ih _).trans (takeMarker_owner n w x)

@[simp] theorem upPut_owner (i : InstId) (l : List UpMsg) (x : Outpost) : (upPut i l x).owner = x.owner := by
  cases i <;> rfl

@[simp] theorem getOutpost_outRing (o event step wave group p : Nat) (s : State) :
    getOutpost (outRing o event step wave group s) p = getOutpost s p := by
  unfold outRing
  split
  · simp [outRingOf, ringPush, ringEnter, getOutpost]
  · rfl

/-- An entry in the ring of an outpost's owner is that instance's own. -/
theorem outRing_keptI {i : InstId} {s t : State} {o : Nat} (event step wave group : Nat) (howner : (getOutpost t o).owner = some i) (h : KeptI i s t) :
    KeptI i s (outRing o event step wave group t) := by
  rw [outRing, howner]
  exact outRingOf_keptI _ _ _ _ _ _ h

theorem execDrawList_keptI (i : InstId) (o : Nat) (s : State) : ResOk (KeptI i s) (execDrawList o s) := by
  unfold execDrawList
  split
  · exact .next (.refl i s)
  · exact .next (modOutpost_keptI i _ _ (fun _ w => w) (.refl i s))

theorem execKeystreamBlock_keptI (i : InstId) (o : Nat) (r : RowHandle) (lane low : Nat) (s : State) :
    ResOk (KeptI i s) (execKeystreamBlock o r lane low s) := by
  unfold execKeystreamBlock
  dsimp only
  split
  · exact .next (.refl i s)
  · split
    · exact .next (.refl i s)
    · split
      · exact .next (.refl i s)
      · exact .next (modOutpost_keptI i _ _ (fun _ w => w) (.refl i s))

theorem execClassMapLoaded_keptI (i : InstId) (o plan lane : Nat) (s : State) : ResOk (KeptI i s) (execClassMapLoaded o plan lane s) := by
  unfold execClassMapLoaded
  dsimp only
  split
  · split
    · exact .next (modOutpost_keptI i _ _ (fun _ w => w) (.refl i s))
    · exact .next (.refl i s)
  · exact .next (.refl i s)

theorem execLarderGranuleWrite_keptI (i : InstId) (o off : Nat) (data : List Byte) (s : State) :
    ResOk (KeptI i s) (execLarderGranuleWrite o off data s) := by
  unfold execLarderGranuleWrite
  dsimp only
  split
  · exact .next (.refl i s)
  · split
    · exact .fault _
    · exact .next (modOutpost_keptI i _ _ (fun _ w => drainPort_wf w) (.refl i s))

/-- The marker's entry goes to the owner's ring; without an owner there is none. -/
theorem execWaveDoneMarker_keptI {i : InstId} {o : Nat} {s : State} (step wave : Nat) (howner : (getOutpost s o).owner = some i) :
    ResOk (KeptI i s) (execWaveDoneMarker o step wave s) := by
  unfold execWaveDoneMarker
  split
  · refine .next (outRing_keptI _ _ _ _ ?_ (modOutpost_keptI i _ _ (fun _ w => drainPort_wf w) (.refl i s)))
    exact owner_modOutpost (fun _ => drainItems_owner _ _) howner
  · exact .next (.refl i s)

theorem execWaveDoneMarker_kept (o step wave : Nat) (s : State) : ResOk (Kept s) (execWaveDoneMarker o step wave s) := by
  unfold execWaveDoneMarker
  split
  · exact .next (outRing_kept _ _ _ _ _ (modOutpost_kept _ _ (fun _ w => drainPort_wf w) (.refl s)))
  · exact .next (.refl s)

theorem modOutpost_downPut_keptI (i j : InstId) (o : Nat) (s : State) :
    KeptI i s (modOutpost o (fun x => downPut j ((downOf x j).drop 1) x) s) :=
  modOutpost_keptI i _ _ (fun _ w => by rwa [downPut_larder]) (.refl i s)

/-- What an outpost makes of a message from instance `j`'s channel is its own; a discarded one is counted in that instance. -/
theorem takeDown_keptI {o : Nat} {p : DownMsg → Bool} {f : DownMsg → OutRow → OutRow} {s : State} {i : InstId} (hfrom : sentBy s o p = some i) :
    ResOk (KeptI i s) (takeDown o p f s) := by
  unfold takeDown
  split
  case h_1 => exact .next (.refl i s)
  case h_2 j m hhead =>
    obtain rfl : j = i := by rw [sentBy, hhead] at hfrom; exact Option.some.inj hfrom
    have h := modOutpost_downPut_keptI j j o s
    dsimp only
    split
    · exact .next (modOutpost_keptI _ _ _ (fun _ w => by rwa [modRow_larder]) h)
    · exact .next (discardDown_keptI _ h)

theorem execRowSetup_keptI {o : Nat} {s : State} {i : InstId} (hfrom : actsFor s (.rowSetup o) = some i) : ResOk (KeptI i s) (execRowSetup o s) := by
  unfold execRowSetup
  split
  case h_1 j su hhead =>
    obtain rfl : j = i := by rw [actsFor, sentBy] at hfrom; exact (Option.some.inj ((congrArg (Option.map _) hhead).symm.trans hfrom))
    have h := modOutpost_downPut_keptI j j o s
    dsimp only
    split
    · exact .next (modOutpost_keptI _ _ _ (fun _ w => by rwa [enterSetup_larder]) h)
    · exact .next (discardDown_keptI _ h)
  case h_2 => exact .next (.refl i s)

theorem execDoneMsg_keptI {o : Nat} {s : State} {i : InstId} (hfrom : actsFor s (.doneMsg o) = some i) : ResOk (KeptI i s) (execDoneMsg o s) := by
  unfold execDoneMsg
  split
  case h_1 j r hhead =>
    obtain rfl : j = i := by rw [actsFor, sentBy] at hfrom; exact (Option.some.inj ((congrArg (Option.map _) hhead).symm.trans hfrom))
    have h := modOutpost_downPut_keptI j j o s
    dsimp only
    split
    · exact .next (modOutpost_keptI _ _ _ (fun _ w => finishRow_wf _ w) h)
    · exact .next (discardDown_keptI _ h)
  case h_2 => exact .next (.refl i s)

theorem resOk_mono {p q : State → Prop} {r : Result} (hpq : ∀ t, p t → q t) (h : ResOk p r) : ResOk q r := by
  cases r with
  | next t => exact hpq t h
  | fault f => exact True.intro
  | refused f => exact True.intro

theorem resOk_kept {i : InstId} {s : State} {r : Result} (h : ResOk (KeptI i s) r) : ResOk (Kept s) r :=
  resOk_mono (fun _ k => k.toKept) h

theorem execRowSetup_kept (o : Nat) (s : State) : ResOk (Kept s) (execRowSetup o s) := by
  cases hfrom : actsFor s (.rowSetup o) with
  | some i => exact resOk_kept (execRowSetup_keptI hfrom)
  | none =>
    unfold execRowSetup
    split
    case h_1 j su hhead => rw [actsFor, sentBy] at hfrom; exact nomatch (congrArg (Option.map _) hhead).symm.trans hfrom
    case h_2 => exact .next (.refl s)

theorem execDoneMsg_kept (o : Nat) (s : State) : ResOk (Kept s) (execDoneMsg o s) := by
  cases hfrom : actsFor s (.doneMsg o) with
  | some i => exact resOk_kept (execDoneMsg_keptI hfrom)
  | none =>
    unfold execDoneMsg
    split
    case h_1 j su hhead => rw [actsFor, sentBy] at hfrom; exact nomatch (congrArg (Option.map _) hhead).symm.trans hfrom
    case h_2 => exact .next (.refl s)

/-- A pass that ends writes its own row's instance's watches and counts, and its outpost. -/
theorem passDone_keptI (o : Nat) (r : OutRow) (delta : Nat) (s : State) : ResOk (KeptI r.inst s) (passDone o r delta s) := by
  unfold passDone
  dsimp only
  split
  · exact .fault _
  · split
    · exact .next (.refl _ s)
    · refine .next (modOutpost_keptI _ _ _ (fun x w => ?_) (countFixed_keptI _ _ (watchPass_keptI _ _ _ _ (.refl _ s))))
      rw [apply_ite Outpost.larder, upPut_larder, ite_self]
      exact w

/-- A parity error is entered in the ring of the outpost's owner. -/
theorem passParity_keptI {o : Nat} {i : InstId} {s : State} (lane : Nat) (r : OutRow) (howner : (getOutpost s o).owner = some i) :
    ResOk (KeptI i s) (passParity o lane r s) := by
  unfold passParity
  split
  · exact .next (.refl i s)
  · refine .next (outRing_keptI _ _ _ _ ?_ (modOutpost_keptI i _ _ (fun _ w => by rwa [upPut_larder]) (.refl i s)))
    exact owner_modOutpost (fun _ => upPut_owner _ _ _) howner

theorem execLanePassComplete_keptI {o : Nat} {h : RowHandle} {ev : PassEvent} {s : State} {i : InstId}
    (hacts : actsFor s (.lanePassComplete o h ev) = some i) : ResOk (KeptI i s) (execLanePassComplete o h ev s) := by
  unfold execLanePassComplete
  dsimp only
  split
  case h_1 => exact .next (.refl i s)
  case h_2 r hrow =>
    obtain ⟨hinst, howner⟩ : r.inst = i ∧ (getOutpost s o).owner = some i := by
      simpa [actsFor, hrow, Option.filter_eq_some_iff] using hacts
    subst hinst
    split
    · exact .next (modOutpost_keptI _ _ _ (fun _ w => finishRow_wf _ w) (.refl _ s))
    · split
      · exact .next (.refl _ s)
      · split
        · exact passDone_keptI _ _ _ _
        · exact passDone_keptI _ _ _ _
        · exact passParity_keptI _ _ howner

theorem execLanePassComplete_kept (o : Nat) (h : RowHandle) (ev : PassEvent) (s : State) : ResOk (Kept s) (execLanePassComplete o h ev s) := by
  unfold execLanePassComplete
  dsimp only
  split
  · exact .next (.refl s)
  · split
    · exact .next (modOutpost_kept _ _ (fun _ w => finishRow_wf _ w) (.refl s))
    · split
      · exact .next (.refl s)
      · split
        · exact passDone_kept _ _ _ (.refl s)
        · exact passDone_kept _ _ _ (.refl s)
        · exact passParity_kept _ _ _ (.refl s)

/-- The entries of a self-test go to the owner's ring, its fault to the owner. -/
theorem execLaneGroupSelftestDone_keptI {o : Nat} {i : InstId} {s : State} (failed : BitVec 32) (howner : (getOutpost s o).owner = some i) :
    ResOk (KeptI i s) (execLaneGroupSelftestDone o failed s) := by
  unfold execLaneGroupSelftestDone
  simp only [howner]
  split
  · exact .next (.refl i s)
  · have hended : KeptI i s (modOutpost o (fun x => { x with selftest := false }) s) := modOutpost_keptI i _ _ (fun _ w => w) (.refl i s)
    have hownerEnded : (getOutpost (modOutpost o (fun x => { x with selftest := false }) s) o).owner = some i :=
      owner_modOutpost (fun _ => rfl) howner
    have hring := outRing_keptI 4 0 0 failed.toNat hownerEnded hended
    split
    · split
      · exact endEvent_keptI _ _ hring
      · exact endEvent_keptI _ _ (outpostFault_keptI _ _ _ _ hring)
    · split
      · exact endEvent_keptI _ _ (outpostFault_keptI _ _ _ _ hring)
      · refine endEvent_keptI _ _ (logFences_keptI _ _ _ (outRing_keptI _ _ _ _ ?_ (modOutpost_keptI i _ _ (fun _ w => by rwa [fenceGroups_larder]) hring)))
        exact owner_modOutpost (fun _ => rfl) ((congrArg Outpost.owner (getOutpost_outRing _ _ _ _ _ _ _)).trans hownerEnded)

theorem execLaneGroupSelftestDone_kept (o : Nat) (failed : BitVec 32) (s : State) : ResOk (Kept s) (execLaneGroupSelftestDone o failed s) := by
  cases howner : (getOutpost s o).owner with
  | some i => exact resOk_kept (execLaneGroupSelftestDone_keptI failed howner)
  | none => unfold execLaneGroupSelftestDone; simp only [howner]; exact .next (.refl s)

/-! ### Rows by which an instance meets the package -/

theorem execLatchAcquire_keptI (i : InstId) (latch step : Nat) (s : State) : ResOk (KeptI i s) (execLatchAcquire i latch step s) := by
  have answered (t : State) (n : BitVec 64) (h : KeptI i s t) : KeptI i s { t with busData := n } := h.raw
  unfold execLatchAcquire
  dsimp only
  split
  · split
    · exact done_keptI _ _ (answered _ _ (modLatch_keptI _ _ _ (.refl i s)))
    · exact .next (answered _ _ (.refl i s))
  · exact .next (answered _ _ (.refl i s))

theorem execImageReadComplete_keptI (i : InstId) (img : List Byte) (s : State) : ResOk (KeptI i s) (execImageReadComplete i img s) := by
  have written (f : Flash) : KeptI i s (dropGrant i { s with flash := f }) := dropGrant_keptI _ (KeptI.refl i s).raw
  unfold execImageReadComplete
  dsimp only
  split
  · exact .next (.refl i s)
  · refine .next ?_
    split
    · exact nextSlot_keptI _ (written _)
    · exact setStage_keptI _ _ (modHearth_keptI _ _ (written _))

theorem execImageProgramDone_keptI (i : InstId) (ok : Bool) (s : State) : ResOk (KeptI i s) (execImageProgramDone i ok s) := by
  unfold execImageProgramDone
  split
  · exact .next (.refl i s)
  · dsimp only
    split
    · exact .next (.refl i s)
    · have written (f : Flash) : KeptI i s (modHearth i (fun h => { h with imgWrite := none }) { s with flash := f }) :=
        modHearth_keptI _ _ (KeptI.refl i s).raw
      have granted {t : State} (c : Bool) (f : Flash) (h : KeptI i s t) : KeptI i s (dropGrant i (if c then { t with flash := f } else t)) :=
        dropGrant_keptI _ (ite_keptI h.raw h)
      split
      · exact done_keptI _ _ (finishCmd_keptI _ _ _ _ _ (granted _ _ (written _)))
      · split <;> exact done_keptI _ _ (finishCmd_keptI _ _ _ _ _ (granted _ _ (written _)))

theorem execFirmwareConfirm_keptI (i : InstId) (w : Nat) (s : State) : ResOk (KeptI i s) (execFirmwareConfirm i w s) :=
  serve_keptI _ _ _ _ _ (fun _ _ => askGrant_keptI _ _) (.refl i s)

theorem execFlashGrant_kept (s : State) : ResOk (Kept s) (execFlashGrant s) := by
  unfold execFlashGrant
  split
  case h_1 i u rest _ _ =>
    have h : Kept s { s with flash := { s.flash with holder := some (i, u), waiting := rest } } := (Kept.refl s).raw
    dsimp only
    split
    · exact .next (h.trans (dawnGrant_keptI _ (.refl _ _)).toKept)
    · exact .next (modHearth_kept _ _ h)
    · exact done_kept _ _ (confirmBoot_kept _ _ h)
  case h_2 => exact .next (.refl s)

theorem execPathRestored_kept (s : State) : ResOk (Kept s) (execPathRestored s) := by
  have h : Kept s { s with pathUp := true } := (Kept.refl s).raw
  unfold execPathRestored
  dsimp only
  split
  · exact .next (.refl s)
  · split
    · exact .next (resync_kept h)
    · exact .next h

/-- In split mode no twin is judged. -/
theorem execLivenessCheck_keptI (i : InstId) (s : State) : ResOk (KeptI i s) (execLivenessCheck i s) := by
  unfold execLivenessCheck
  split
  · exact .next (.refl i s)
  · split
    case isTrue => exact .next (.refl i s)
    case isFalse hpaired =>
      have hjoined : (getInst s (Machine.other i)).place.split = false := by
        cases hsplit : (getInst s (Machine.other i)).place.split with
        | false => rfl
        | true => exact absurd (by simp [paired, hsplit]) hpaired
      exact .next ((KeptI.refl i s).cross (judge_kept _ _ (.refl s)) hjoined)

theorem execMirrorMessage_kept (i : InstId) (bad : Bool) (s : State) : ResOk (Kept s) (execMirrorMessage i bad s) := by
  unfold execMirrorMessage
  dsimp only
  split
  · exact .next (.refl s)
  · split
    · exact .next (.refl s)
    · split
      · split
        · exact .next (modRel_kept _ _ (.refl s))
        · exact .next (pathFault_kept _ (.refl s))
      · exact .next ((countFixed_kept _ _ (modRel_kept _ _ (.refl s))).trans (applyMirror_keptI _ _ (.refl _ _)).toKept)

theorem execMirrorSyncComplete_kept (i : InstId) (s : State) : ResOk (Kept s) (execMirrorSyncComplete i s) := by
  unfold execMirrorSyncComplete
  dsimp only
  split
  · exact .next (.refl s)
  · exact .next (modRel_kept _ _ (modRel_kept _ _ (applyMirror_keptI i _ (.refl i s)).toKept))

theorem execFailMsg_kept (i : InstId) (s : State) : ResOk (Kept s) (execFailMsg i s) := by
  unfold execFailMsg
  dsimp only
  split
  · exact .next (.refl s)
  · split
    · exact .next (startClaim_kept _ (modRel_kept _ _ (.refl s)))
    · exact .next (modRel_kept _ _ (.refl s))

theorem execTraceBurstTimeout_keptI {i : InstId} {s t : State} (hnext : execTraceBurstTimeout i s = .next t) : KeptI i s t := by
  unfold execTraceBurstTimeout at hnext
  dsimp only at hnext
  generalize (getInst s i).study.lastRec + 4096 = lim at hnext
  split at hnext
  · cases hnext
    exact .refl i s
  · cases hnext
    exact mirrorOut_keptI _ _ (traceBurst_keptI _ _ (.refl i s))

theorem execTraceWaitLimit_keptI (i : InstId) (waiter holder reason object : Nat) (s : State) :
    ResOk (KeptI i s) (execTraceWaitLimit i waiter holder reason object s) := by
  unfold execTraceWaitLimit
  dsimp only
  generalize 0xFFFFFF = lim
  split
  · split
    · exact .next (.refl i s)
    · exact done_keptI _ _ (ite_keptI (traceAdd_keptI _ _ (modStudy_keptI _ _ (.refl i s))) (modStudy_keptI _ _ (.refl i s)))
  · split
    · exact .next (.refl i s)
    · exact done_keptI _ _ (ite_keptI (traceAdd_keptI _ _ (.refl i s)) (.refl i s))

theorem execRcFieldRead_keptI (i : InstId) (wide : Bool) (off : Nat) (s : State) :
    ResOk (KeptI (bar2 i off).1 s) (execRcFieldRead i wide off s) := by
  unfold execRcFieldRead
  dsimp only
  split
  · exact done_keptI _ _ (readBus_keptI _ _ _ (.refl _ s))
  · exact .fault _

theorem execRegisterWrite_keptI (i : InstId) (wide : Bool) (off v : Nat) (s : State) :
    ResOk (KeptI (bar2 i off).1 s) (execRegisterWrite i wide off v s) :=
  writeBus_keptI _ _ _ _ (.refl _ s)

theorem execDriveCompletion_kept (i : InstId) (ok : Bool) (s : State) : ResOk (Kept s) (execDriveCompletion i ok s) := by
  have hends := (driveEnds_keptI i (.refl i s)).toKept
  unfold execDriveCompletion
  dsimp only
  split
  · exact .next (.refl s)
  · split
    · exact .next (.refl s)
    · refine done_kept _ _ ?_
      split
      · exact driveDone_kept _ _ hends
      · exact hends.trans (driveError_keptI i _ (.refl i _)).toKept


theorem execFunctionLevelReset_kept (s : State) : ResOk (Kept s) (execFunctionLevelReset s) :=
  .next ((blockReset_keptI _ _ (.refl _ _)).toKept.trans (blockReset_keptI _ _ (.refl _ _)).toKept)

theorem execResetControlWrite_kept (a b : Bool) (s : State) : ResOk (Kept s) (execResetControlWrite a b s) := by
  have hreset (c : Bool) (i : InstId) (t : State) : Kept t (if c then blockReset i 1 t else t) :=
    (ite_keptI (blockReset_keptI i _ (.refl i t)) (.refl i t)).toKept
  exact (hreset a .A s).trans (hreset b .B _)

/-! ### Every row -/

theorem next_of_resOk {p : State → Prop} {r : Result} (h : ResOk p r) {t : State} (hnext : r = .next t) : p t := by
  subst hnext
  exact h

/-- A command that acts for one instance keeps what every command keeps, and the other instance where the two are split, but for the drive commands' ends, which send digest pairs. -/
theorem exec_keptI {c : Instr} {i : InstId} {s : State} (hacts : actsFor s c = some i) (hflush : c ≠ .flushComplete i)
    (hbulk : c ≠ .bulkImageDurable i) (hdrive : ∀ ok, c ≠ .driveCompletion i ok) : ∀ {t : State}, exec c s = .next t → KeptI i s t := by
  cases c with
  | powerOnReset => cases hacts
  | blockReset _ => cases hacts; exact next_of_resOk (.next (blockReset_keptI _ _ (.refl _ _)))
  | functionLevelReset => cases hacts
  | resetControlWrite _ _ => cases hacts
  | tick => cases hacts
  | livenessAdvance _ => cases hacts; exact next_of_resOk (execLivenessAdvance_keptI _ _)
  | flashGrant => cases hacts
  | imageReadComplete _ _ => cases hacts; exact next_of_resOk (execImageReadComplete_keptI _ _ _)
  | signatureVerified _ => cases hacts; exact next_of_resOk (execSignatureVerified_keptI _ _)
  | coresReady _ => cases hacts; exact next_of_resOk (execCoresReady_keptI _ _)
  | discoveryComplete _ => cases hacts; exact next_of_resOk (execDiscoveryComplete_keptI _ _)
  | discoveryTimeout _ => cases hacts; exact next_of_resOk (execDiscoveryTimeout_keptI _ _)
  | watchdogExpiry _ _ => cases hacts; exact next_of_resOk (execWatchdogExpiry_keptI _ _ _)
  | coreRestartDone _ _ => cases hacts; exact next_of_resOk (execCoreRestartDone_keptI _ _ _)
  | uncorrectableEcc _ _ => cases hacts; exact next_of_resOk (execUncorrectableEcc_keptI _ _ _)
  | mailboxGo _ _ => cases hacts; exact next_of_resOk (execMailboxGo_keptI _ _ _)
  | mailboxGoTaken _ _ => cases hacts; exact next_of_resOk (execMailboxGoTaken_keptI _ _ _)
  | resHeadWrite _ _ _ => cases hacts; exact next_of_resOk (execResHeadWrite_keptI _ _ _ _)
  | placeRegion _ _ => cases hacts; exact next_of_resOk (execPlaceRegion_keptI _ _ _)
  | driveRange _ _ => cases hacts; exact next_of_resOk (execDriveRange_keptI _ _ _)
  | identity _ _ => cases hacts; exact next_of_resOk (execIdentity_keptI _ _ _)
  | pairing _ _ => cases hacts; exact next_of_resOk (execPairing_keptI _ _ _)
  | hostTrims _ _ _ => cases hacts; exact next_of_resOk (execHostTrims_keptI _ _ _ _)
  | dawnComplete _ _ => cases hacts; exact next_of_resOk (execDawnComplete_keptI _ _ _)
  | class0Reserve _ _ => cases hacts; exact next_of_resOk (execClass0Reserve_keptI _ _ _)
  | contextOpen _ _ => cases hacts; exact next_of_resOk (execContextOpen_keptI _ _ _)
  | contextConfigure _ _ => cases hacts; exact next_of_resOk (execContextConfigure_keptI _ _ _)
  | contextClose _ _ => cases hacts; exact next_of_resOk (execContextClose_keptI _ _ _)
  | contextCloseDone _ _ => cases hacts; exact next_of_resOk (execContextCloseDone_keptI _ _ _)
  | contextQuery _ _ => cases hacts; exact next_of_resOk (execContextQuery_keptI _ _ _)
  | recipeDefine _ _ _ => cases hacts; exact next_of_resOk (execRecipeDefine_keptI _ _ _ _)
  | recipeUndefine _ _ => cases hacts; exact next_of_resOk (execRecipeUndefine_keptI _ _ _)
  | planRegister _ _ => cases hacts; exact next_of_resOk (execPlanRegister_keptI _ _ _)
  | planUnregister _ _ => cases hacts; exact next_of_resOk (execPlanUnregister_keptI _ _ _)
  | planQuery _ _ => cases hacts; exact next_of_resOk (execPlanQuery_keptI _ _ _)
  | cancel _ _ => cases hacts; exact next_of_resOk (execCancel_keptI _ _ _)
  | park _ _ => cases hacts; exact next_of_resOk (execPark_keptI _ _ _)
  | resume _ _ => cases hacts; exact next_of_resOk (execResume_keptI _ _ _)
  | extend _ _ _ => cases hacts; exact next_of_resOk (execExtend_keptI _ _ _ _)
  | querySequence _ _ => cases hacts; exact next_of_resOk (execQuerySequence_keptI _ _ _)
  | modelDescribe _ _ _ => cases hacts; exact next_of_resOk (execModelDescribe_keptI _ _ _ _)
  | modelQuery _ _ => cases hacts; exact next_of_resOk (execModelQuery_keptI _ _ _)
  | modelForget _ _ => cases hacts; exact next_of_resOk (execModelForget_keptI _ _ _)
  | modelLoaded _ _ => cases hacts; exact next_of_resOk (execModelLoaded_keptI _ _ _)
  | modelLoadDeclined _ _ => cases hacts; exact next_of_resOk (execModelLoadDeclined_keptI _ _ _)
  | modelUnloaded _ _ => cases hacts; exact next_of_resOk (execModelUnloaded_keptI _ _ _)
  | modelPin _ _ => cases hacts; exact next_of_resOk (execModelPin_keptI _ _ _)
  | epochStage _ _ _ => cases hacts; exact next_of_resOk (execEpochStage_keptI _ _ _ _)
  | epochReady _ _ => cases hacts; exact next_of_resOk (execEpochReady_keptI _ _ _)
  | epochCommit _ _ => cases hacts; exact next_of_resOk (execEpochCommit_keptI _ _ _)
  | epochUnstage _ _ => cases hacts; exact next_of_resOk (execEpochUnstage_keptI _ _ _)
  | epochRetire _ _ => cases hacts; exact next_of_resOk (execEpochRetire_keptI _ _ _)
  | evening _ _ => cases hacts; exact next_of_resOk (execEvening_keptI _ _ _)
  | eveningComplete _ => cases hacts; exact next_of_resOk (execEveningComplete_keptI _ _)
  | morning _ _ => cases hacts
  | turnCost _ _ => cases hacts; exact next_of_resOk (execTurnCost_keptI _ _ _)
  | poolLend _ _ => cases hacts; exact next_of_resOk (execPoolLend_keptI _ _ _)
  | poolReturn _ _ => cases hacts; exact next_of_resOk (execPoolReturn_keptI _ _ _)
  | snapshot _ _ => cases hacts; exact next_of_resOk (execSnapshot_keptI _ _ _)
  | restore _ _ => cases hacts; exact next_of_resOk (execRestore_keptI _ _ _)
  | restoreComplete _ => cases hacts; exact next_of_resOk (execRestoreComplete_keptI _ _)
  | lossBound _ _ => cases hacts; exact next_of_resOk (execLossBound_keptI _ _ _)
  | driveRetry _ _ => cases hacts; exact next_of_resOk (execDriveRetry_keptI _ _ _)
  | migrate _ _ => cases hacts; exact next_of_resOk (execMigrate_keptI _ _ _)
  | directionsSet _ _ _ => cases hacts; exact next_of_resOk (execDirectionsSet_keptI _ _ _ _)
  | watch _ _ => cases hacts; exact next_of_resOk (execWatch_keptI _ _ _)
  | trace _ _ => cases hacts; exact next_of_resOk (execTrace_keptI _ _ _)
  | traceDrained _ => cases hacts; exact next_of_resOk (execTraceDrained_keptI _ _)
  | counters _ _ => cases hacts; exact next_of_resOk (execCounters_keptI _ _ _)
  | imageWrite _ _ _ => cases hacts; exact next_of_resOk (execImageWrite_keptI _ _ _ _)
  | imageProgramDone _ _ => cases hacts; exact next_of_resOk (execImageProgramDone_keptI _ _ _)
  | firmwareConfirm _ _ => cases hacts; exact next_of_resOk (execFirmwareConfirm_keptI _ _ _)
  | sqTailDoorbell _ _ _ => cases hacts; exact next_of_resOk (execSqTailDoorbell_keptI _ _ _ _)
  | submitEntry _ _ _ _ _ => cases hacts; exact next_of_resOk (execSubmitEntry_keptI _ _ _ _ _ _)
  | sqNop _ _ _ => cases hacts; exact next_of_resOk (execSqNop_keptI _ _ _ _)
  | sqBadKind _ _ _ => cases hacts; exact next_of_resOk (execSqBadKind_keptI _ _ _ _)
  | foyerReevaluation _ => cases hacts; exact next_of_resOk (execFoyerReevaluation_keptI _ _)
  | deferLimitExpiry _ _ => cases hacts; exact next_of_resOk (execDeferLimitExpiry_keptI _ _ _)
  | cqHeadWrite _ _ _ => cases hacts; exact next_of_resOk (execCqHeadWrite_keptI _ _ _ _)
  | cqRingWrite _ _ => cases hacts; exact next_of_resOk (execCqRingWrite_keptI _ _ _)
  | irqModerationTimer _ _ => cases hacts; exact next_of_resOk (execIrqModerationTimer_keptI _ _ _)
  | irqStatusClear _ _ _ _ => cases hacts; exact next_of_resOk (execIrqStatusClear_keptI _ _ _ _ _)
  | irqEnableWrite _ _ _ _ => cases hacts; exact next_of_resOk (execIrqEnableWrite_keptI _ _ _ _ _)
  | dmaError _ _ => cases hacts; exact next_of_resOk (execDmaError_keptI _ _ _)
  | teardownComplete _ _ => cases hacts; exact next_of_resOk (execTeardownComplete_keptI _ _ _)
  | composeStep _ _ => cases hacts; exact next_of_resOk (execComposeStep_keptI _ _ _)
  | drawList _ => cases hacts
  | keystreamBlock _ _ _ _ => cases hacts
  | classMapLoaded _ _ _ => cases hacts
  | larderGranuleWrite _ _ _ => cases hacts
  | waveDoneMarker _ _ _ => exact next_of_resOk (execWaveDoneMarker_keptI _ _ hacts)
  | waveLandedNotice _ _ _ _ => cases hacts; exact next_of_resOk (execWaveLandedNotice_keptI _ _ _ _ _)
  | completionNotice _ _ _ => cases hacts; exact next_of_resOk (execCompletionNotice_keptI _ _ _ _)
  | killAcknowledgement _ _ _ => cases hacts; exact next_of_resOk (execKillAcknowledgement_keptI _ _ _ _)
  | kernelFault _ _ _ => cases hacts; exact next_of_resOk (execKernelFault_keptI _ _ _ _)
  | lanePassComplete _ _ _ => exact next_of_resOk (execLanePassComplete_keptI hacts)
  | rowSetup _ => exact next_of_resOk (execRowSetup_keptI hacts)
  | maxResult _ => exact next_of_resOk (takeDown_keptI hacts)
  | roundReq _ => exact next_of_resOk (takeDown_keptI hacts)
  | cut _ => exact next_of_resOk (takeDown_keptI hacts)
  | quotas _ => exact next_of_resOk (takeDown_keptI hacts)
  | locate _ => exact next_of_resOk (takeDown_keptI hacts)
  | doneMsg _ => exact next_of_resOk (execDoneMsg_keptI hacts)
  | maxSum _ _ => cases hacts; exact next_of_resOk (execMaxSum_keptI _ _ _)
  | massSum _ _ => cases hacts; exact next_of_resOk (execMassSum_keptI _ _ _)
  | roundSum _ _ => cases hacts; exact next_of_resOk (execRoundSum_keptI _ _ _)
  | keptSum _ _ => cases hacts; exact next_of_resOk (execKeptSum_keptI _ _ _)
  | raceSum _ _ => cases hacts; exact next_of_resOk (execRaceSum_keptI _ _ _)
  | located _ _ => cases hacts; exact next_of_resOk (execLocated_keptI _ _ _)
  | parity _ _ => cases hacts; exact next_of_resOk (execParity_keptI _ _ _)
  | laneGroupSelftestDone _ _ => exact next_of_resOk (execLaneGroupSelftestDone_keptI _ hacts)
  | fenceMaskWrite _ _ _ _ => cases hacts; exact next_of_resOk (execFenceMaskWrite_keptI _ _ _ _ _)
  | commitPoint _ _ => cases hacts; exact next_of_resOk (execCommitPoint_keptI _ _ _)
  | tokenCommit _ _ => cases hacts; exact next_of_resOk (execTokenCommit_keptI _ _ _)
  | stopCheck _ _ => cases hacts; exact next_of_resOk (execStopCheck_keptI _ _ _)
  | kill _ _ => cases hacts; exact next_of_resOk (execKill_keptI _ _ _)
  | admitSeq _ _ => cases hacts; exact next_of_resOk (execAdmitSeq_keptI _ _ _)
  | warm _ _ => cases hacts; exact next_of_resOk (execWarm_keptI _ _ _)
  | cool _ _ => cases hacts; exact next_of_resOk (execCool_keptI _ _ _)
  | coolMarkWrite _ _ _ => cases hacts; exact next_of_resOk (execCoolMarkWrite_keptI _ _ _ _)
  | pageHeadroomWrite _ _ _ => cases hacts; exact next_of_resOk (execPageHeadroomWrite_keptI _ _ _ _)
  | evictionPark _ _ => cases hacts; exact next_of_resOk (execEvictionPark_keptI _ _ _)
  | evictionResume _ _ => cases hacts; exact next_of_resOk (execEvictionResume_keptI _ _ _)
  | kvInvalidation _ _ => cases hacts; exact next_of_resOk (execKvInvalidation_keptI _ _ _)
  | sequenceCancel _ _ => cases hacts; exact next_of_resOk (execSequenceCancel_keptI _ _ _)
  | sequencePark _ _ => cases hacts; exact next_of_resOk (execSequencePark_keptI _ _ _)
  | sequenceResume _ _ => cases hacts; exact next_of_resOk (execSequenceResume_keptI _ _ _)
  | sequenceExtend _ _ => cases hacts; exact next_of_resOk (execSequenceExtend_keptI _ _ _)
  | forceRun _ _ => cases hacts; exact next_of_resOk (execForceRun_keptI _ _ _)
  | midnight _ _ => cases hacts; exact next_of_resOk (execMidnight_keptI _ _ _)
  | midnightEvent _ _ => cases hacts; exact next_of_resOk (execMidnightEvent_keptI _ _ _)
  | epochAbort _ _ => cases hacts; exact next_of_resOk (execEpochAbort_keptI _ _ _)
  | eveningEvent _ _ => cases hacts; exact next_of_resOk (execEveningEvent_keptI _ _ _)
  | morningEvent _ _ => cases hacts; exact next_of_resOk (execMorningEvent_keptI _ _ _)
  | broadcastSweep _ _ => cases hacts; exact next_of_resOk (execBroadcastSweep_keptI _ _ _)
  | migrateOut _ _ => cases hacts; exact next_of_resOk (execMigrateOut_keptI _ _ _)
  | migrateAck _ _ => cases hacts; exact next_of_resOk (execMigrateAck_keptI _ _ _)
  | migrateFail _ _ => cases hacts; exact next_of_resOk (execMigrateFail_keptI _ _ _)
  | migrateIn _ _ => cases hacts; exact next_of_resOk (execMigrateIn_keptI _ _ _)
  | migrateDone _ _ => cases hacts; exact next_of_resOk (execMigrateDone_keptI _ _ _)
  | household _ _ => cases hacts; exact next_of_resOk (execHousehold_keptI _ _ _)
  | teardown _ _ => cases hacts; exact next_of_resOk (execTeardown_keptI _ _ _)
  | planReady _ _ => cases hacts; exact next_of_resOk (execPlanReady_keptI _ _ _)
  | context _ _ => cases hacts; exact next_of_resOk (execContext_keptI _ _ _)
  | deadlineEntry _ _ => cases hacts; exact next_of_resOk (execDeadlineEntry_keptI _ _ _)
  | parkWake _ _ => cases hacts; exact next_of_resOk (execParkWake_keptI _ _ _)
  | migrationRetry _ _ => cases hacts; exact next_of_resOk (execMigrationRetry_keptI _ _ _)
  | migrationTimeout _ _ => cases hacts; exact next_of_resOk (execMigrationTimeout_keptI _ _ _)
  | arrivalTimeout _ _ => cases hacts; exact next_of_resOk (execArrivalTimeout_keptI _ _ _)
  | mailboxCommandTimeout _ _ => cases hacts; exact next_of_resOk (execMailboxCommandTimeout_keptI _ _ _)
  | duskSpillRefill _ _ => cases hacts; exact next_of_resOk (execDuskSpillRefill_keptI _ _ _)
  | planFetchDone _ _ _ => cases hacts; exact next_of_resOk (execPlanFetchDone_keptI _ _ _ _)
  | latchAcquire _ _ _ => cases hacts; exact next_of_resOk (execLatchAcquire_keptI _ _ _ _)
  | latchRelease _ _ => cases hacts; exact next_of_resOk (execLatchRelease_keptI _ _ _)
  | latchConfigWrite _ _ _ _ => cases hacts; exact next_of_resOk (execLatchConfigWrite_keptI _ _ _ _ _)
  | announce _ _ => cases hacts; exact next_of_resOk (execAnnounce_keptI _ _ _)
  | announceReply _ _ => cases hacts; exact next_of_resOk (execAnnounceReply_keptI _ _ _)
  | offer _ _ => cases hacts; exact next_of_resOk (execOffer_keptI _ _ _)
  | accept _ _ => cases hacts; exact next_of_resOk (execAccept_keptI _ _ _)
  | refuse _ _ => cases hacts; exact next_of_resOk (execRefuse_keptI _ _ _)
  | dataMsg _ _ => cases hacts; exact next_of_resOk (execDataMsg_keptI _ _ _)
  | dataAck _ _ => cases hacts; exact next_of_resOk (execDataAck_keptI _ _ _)
  | handover _ _ => cases hacts; exact next_of_resOk (execHandover_keptI _ _ _)
  | ack _ _ => cases hacts; exact next_of_resOk (execAck_keptI _ _ _)
  | nak _ _ => cases hacts; exact next_of_resOk (execNak_keptI _ _ _)
  | abandon _ _ => cases hacts; exact next_of_resOk (execAbandon_keptI _ _ _)
  | bounce _ _ => cases hacts; exact next_of_resOk (execBounce_keptI _ _ _)
  | reorderRelease _ => cases hacts; exact next_of_resOk (execReorderRelease_keptI _ _)
  | injectionSeedWrite _ _ _ => cases hacts; exact next_of_resOk (execInjectionSeedWrite_keptI _ _ _ _)
  | stairwellTimingWrite _ _ _ _ => cases hacts; exact next_of_resOk (execStairwellTimingWrite_keptI _ _ _ _ _)
  | mirrorMessage _ _ => cases hacts
  | mirrorAck _ => cases hacts; exact next_of_resOk (execMirrorAck_keptI _ _)
  | mirrorSyncComplete _ => cases hacts
  | heartbeat => cases hacts
  | heartbeatLost _ => cases hacts; exact next_of_resOk (execHeartbeatLost_keptI _ _)
  | livenessCheck _ => cases hacts; exact next_of_resOk (execLivenessCheck_keptI _ _)
  | failMsg _ => cases hacts
  | claim _ _ => cases hacts; exact next_of_resOk (execClaim_keptI _ _ _)
  | takeover _ => cases hacts
  | claimRefused _ => cases hacts; exact next_of_resOk (execClaimRefused_keptI _ _)
  | digestPair _ => cases hacts; exact next_of_resOk (execDigestPair_keptI _ _)
  | driveCompletion _ ok => cases hacts; exact absurd rfl (hdrive ok)
  | driveTimeout _ => cases hacts; exact next_of_resOk (execDriveTimeout_keptI _ _)
  | journalFlush _ => cases hacts; exact next_of_resOk (execJournalFlush_keptI _ _)
  | flushDeferExpiry _ => cases hacts; exact next_of_resOk (execFlushDeferExpiry_keptI _ _)
  | flushComplete _ => cases hacts; exact absurd rfl hflush
  | bulkImageStart _ => cases hacts; exact next_of_resOk (execBulkImageStart_keptI _ _)
  | bulkImageDurable _ => cases hacts; exact absurd rfl hbulk
  | graphBuild _ => cases hacts; exact next_of_resOk (execGraphBuild_keptI _ _)
  | traceWaitLimit _ _ _ _ _ => cases hacts; exact next_of_resOk (execTraceWaitLimit_keptI _ _ _ _ _ _)
  | traceBurstTimeout _ => cases hacts; intro t hnext; exact execTraceBurstTimeout_keptI (i := i) (s := s) hnext
  | traceSync _ => cases hacts; exact next_of_resOk (execTraceSync_keptI _ _)
  | traceRpWrite _ _ _ _ => cases hacts; exact next_of_resOk (execTraceRpWrite_keptI _ _ _ _ _)
  | dumpRequest _ _ _ => cases hacts; exact next_of_resOk (execDumpRequest_keptI _ _ _ _)
  | dumpComplete _ _ => cases hacts; exact next_of_resOk (execDumpComplete_keptI _ _ _)
  | dumpAck _ _ _ => cases hacts; exact next_of_resOk (execDumpAck_keptI _ _ _ _)
  | studyCauseClear _ _ _ => cases hacts; exact next_of_resOk (execStudyCauseClear_keptI _ _ _ _)
  | epochRetiredClear _ _ _ _ => cases hacts; exact next_of_resOk (execEpochRetiredClear_keptI _ _ _ _ _)
  | wdogExpiredClear _ _ _ => cases hacts; exact next_of_resOk (execWdogExpiredClear_keptI _ _ _ _)
  | fenceRefusedClear _ _ _ _ => cases hacts; exact next_of_resOk (execFenceRefusedClear_keptI _ _ _ _ _)
  | kitchenLimitWrite _ _ _ _ => cases hacts; exact next_of_resOk (execKitchenLimitWrite_keptI _ _ _ _ _)
  | rcFieldRead _ _ _ => cases hacts; exact next_of_resOk (execRcFieldRead_keptI _ _ _ _)
  | registerWrite _ _ _ _ => cases hacts; exact next_of_resOk (execRegisterWrite_keptI _ _ _ _ _)
  | powerLoss => cases hacts
  | linkCreditsReturned _ _ => cases hacts; exact next_of_resOk (execLinkCreditsReturned_keptI _ _ _)
  | pathRestored => cases hacts

/-- What every command keeps, but for TICK and the changes of power. -/
theorem exec_kept {c : Instr} {s : State} (htick : c ≠ .tick) (hon : c ≠ .powerOnReset) (hoff : c ≠ .powerLoss) :
    ∀ {t : State}, exec c s = .next t → Kept s t := by
  cases hacts : actsFor s c with
  | some i =>
    by_cases hflush : c = .flushComplete i
    · exact hflush ▸ next_of_resOk (execFlushComplete_kept _ _)
    by_cases hbulk : c = .bulkImageDurable i
    · exact hbulk ▸ next_of_resOk (execBulkImageDurable_kept _ _)
    by_cases hdrive : ∃ ok, c = .driveCompletion i ok
    · obtain ⟨ok, rfl⟩ := hdrive
      exact next_of_resOk (execDriveCompletion_kept _ _ _)
    exact fun h => (exec_keptI hacts hflush hbulk (fun ok h => hdrive ⟨ok, h⟩) h).toKept
  | none =>
    cases c with
    | tick => exact absurd rfl htick
    | powerOnReset => exact absurd rfl hon
    | powerLoss => exact absurd rfl hoff
    | blockReset _ => cases hacts
    | functionLevelReset => exact next_of_resOk (execFunctionLevelReset_kept _)
    | resetControlWrite _ _ => exact next_of_resOk (execResetControlWrite_kept _ _ _)
    | livenessAdvance _ => cases hacts
    | flashGrant => exact next_of_resOk (execFlashGrant_kept _)
    | imageReadComplete _ _ => cases hacts
    | signatureVerified _ => cases hacts
    | coresReady _ => cases hacts
    | discoveryComplete _ => cases hacts
    | discoveryTimeout _ => cases hacts
    | watchdogExpiry _ _ => cases hacts
    | coreRestartDone _ _ => cases hacts
    | uncorrectableEcc _ _ => cases hacts
    | mailboxGo _ _ => cases hacts
    | mailboxGoTaken _ _ => cases hacts
    | resHeadWrite _ _ _ => cases hacts
    | placeRegion _ _ => cases hacts
    | driveRange _ _ => cases hacts
    | identity _ _ => cases hacts
    | pairing _ _ => cases hacts
    | hostTrims _ _ _ => cases hacts
    | dawnComplete _ _ => cases hacts
    | class0Reserve _ _ => cases hacts
    | contextOpen _ _ => cases hacts
    | contextConfigure _ _ => cases hacts
    | contextClose _ _ => cases hacts
    | contextCloseDone _ _ => cases hacts
    | contextQuery _ _ => cases hacts
    | recipeDefine _ _ _ => cases hacts
    | recipeUndefine _ _ => cases hacts
    | planRegister _ _ => cases hacts
    | planUnregister _ _ => cases hacts
    | planQuery _ _ => cases hacts
    | cancel _ _ => cases hacts
    | park _ _ => cases hacts
    | resume _ _ => cases hacts
    | extend _ _ _ => cases hacts
    | querySequence _ _ => cases hacts
    | modelDescribe _ _ _ => cases hacts
    | modelQuery _ _ => cases hacts
    | modelForget _ _ => cases hacts
    | modelLoaded _ _ => cases hacts
    | modelLoadDeclined _ _ => cases hacts
    | modelUnloaded _ _ => cases hacts
    | modelPin _ _ => cases hacts
    | epochStage _ _ _ => cases hacts
    | epochReady _ _ => cases hacts
    | epochCommit _ _ => cases hacts
    | epochUnstage _ _ => cases hacts
    | epochRetire _ _ => cases hacts
    | evening _ _ => cases hacts
    | eveningComplete _ => cases hacts
    | morning _ _ => exact next_of_resOk (execMorning_kept _ _ _)
    | turnCost _ _ => cases hacts
    | poolLend _ _ => cases hacts
    | poolReturn _ _ => cases hacts
    | snapshot _ _ => cases hacts
    | restore _ _ => cases hacts
    | restoreComplete _ => cases hacts
    | lossBound _ _ => cases hacts
    | driveRetry _ _ => cases hacts
    | migrate _ _ => cases hacts
    | directionsSet _ _ _ => cases hacts
    | watch _ _ => cases hacts
    | trace _ _ => cases hacts
    | traceDrained _ => cases hacts
    | counters _ _ => cases hacts
    | imageWrite _ _ _ => cases hacts
    | imageProgramDone _ _ => cases hacts
    | firmwareConfirm _ _ => cases hacts
    | sqTailDoorbell _ _ _ => cases hacts
    | submitEntry _ _ _ _ _ => cases hacts
    | sqNop _ _ _ => cases hacts
    | sqBadKind _ _ _ => cases hacts
    | foyerReevaluation _ => cases hacts
    | deferLimitExpiry _ _ => cases hacts
    | cqHeadWrite _ _ _ => cases hacts
    | cqRingWrite _ _ => cases hacts
    | irqModerationTimer _ _ => cases hacts
    | irqStatusClear _ _ _ _ => cases hacts
    | irqEnableWrite _ _ _ _ => cases hacts
    | dmaError _ _ => cases hacts
    | teardownComplete _ _ => cases hacts
    | composeStep _ _ => cases hacts
    | drawList _ => exact next_of_resOk (execDrawList_kept _ _)
    | keystreamBlock _ _ _ _ => exact next_of_resOk (execKeystreamBlock_kept _ _ _ _ _)
    | classMapLoaded _ _ _ => exact next_of_resOk (execClassMapLoaded_kept _ _ _ _)
    | larderGranuleWrite _ _ _ => exact next_of_resOk (resOk_kept (execLarderGranuleWrite_keptI .A _ _ _ _))
    | waveDoneMarker _ _ _ => exact next_of_resOk (execWaveDoneMarker_kept _ _ _ _)
    | waveLandedNotice _ _ _ _ => cases hacts
    | completionNotice _ _ _ => cases hacts
    | killAcknowledgement _ _ _ => cases hacts
    | kernelFault _ _ _ => cases hacts
    | lanePassComplete _ _ _ => exact next_of_resOk (execLanePassComplete_kept _ _ _ _)
    | rowSetup _ => exact next_of_resOk (execRowSetup_kept _ _)
    | maxResult _ => exact next_of_resOk (execMaxResult_kept _ _)
    | roundReq _ => exact next_of_resOk (execRoundReq_kept _ _)
    | cut _ => exact next_of_resOk (execCut_kept _ _)
    | quotas _ => exact next_of_resOk (execQuotas_kept _ _)
    | locate _ => exact next_of_resOk (execLocate_kept _ _)
    | doneMsg _ => exact next_of_resOk (execDoneMsg_kept _ _)
    | maxSum _ _ => cases hacts
    | massSum _ _ => cases hacts
    | roundSum _ _ => cases hacts
    | keptSum _ _ => cases hacts
    | raceSum _ _ => cases hacts
    | located _ _ => cases hacts
    | parity _ _ => cases hacts
    | laneGroupSelftestDone _ _ => exact next_of_resOk (execLaneGroupSelftestDone_kept _ _ _)
    | fenceMaskWrite _ _ _ _ => cases hacts
    | commitPoint _ _ => cases hacts
    | tokenCommit _ _ => cases hacts
    | stopCheck _ _ => cases hacts
    | kill _ _ => cases hacts
    | admitSeq _ _ => cases hacts
    | warm _ _ => cases hacts
    | cool _ _ => cases hacts
    | coolMarkWrite _ _ _ => cases hacts
    | pageHeadroomWrite _ _ _ => cases hacts
    | evictionPark _ _ => cases hacts
    | evictionResume _ _ => cases hacts
    | kvInvalidation _ _ => cases hacts
    | sequenceCancel _ _ => cases hacts
    | sequencePark _ _ => cases hacts
    | sequenceResume _ _ => cases hacts
    | sequenceExtend _ _ => cases hacts
    | forceRun _ _ => cases hacts
    | midnight _ _ => cases hacts
    | midnightEvent _ _ => cases hacts
    | epochAbort _ _ => cases hacts
    | eveningEvent _ _ => cases hacts
    | morningEvent _ _ => cases hacts
    | broadcastSweep _ _ => cases hacts
    | migrateOut _ _ => cases hacts
    | migrateAck _ _ => cases hacts
    | migrateFail _ _ => cases hacts
    | migrateIn _ _ => cases hacts
    | migrateDone _ _ => cases hacts
    | household _ _ => cases hacts
    | teardown _ _ => cases hacts
    | planReady _ _ => cases hacts
    | context _ _ => cases hacts
    | deadlineEntry _ _ => cases hacts
    | parkWake _ _ => cases hacts
    | migrationRetry _ _ => cases hacts
    | migrationTimeout _ _ => cases hacts
    | arrivalTimeout _ _ => cases hacts
    | mailboxCommandTimeout _ _ => cases hacts
    | duskSpillRefill _ _ => cases hacts
    | planFetchDone _ _ _ => cases hacts
    | latchAcquire _ _ _ => cases hacts
    | latchRelease _ _ => cases hacts
    | latchConfigWrite _ _ _ _ => cases hacts
    | announce _ _ => cases hacts
    | announceReply _ _ => cases hacts
    | offer _ _ => cases hacts
    | accept _ _ => cases hacts
    | refuse _ _ => cases hacts
    | dataMsg _ _ => cases hacts
    | dataAck _ _ => cases hacts
    | handover _ _ => cases hacts
    | ack _ _ => cases hacts
    | nak _ _ => cases hacts
    | abandon _ _ => cases hacts
    | bounce _ _ => cases hacts
    | reorderRelease _ => cases hacts
    | injectionSeedWrite _ _ _ => cases hacts
    | stairwellTimingWrite _ _ _ _ => cases hacts
    | mirrorMessage _ _ => exact next_of_resOk (execMirrorMessage_kept _ _ _)
    | mirrorAck _ => cases hacts
    | mirrorSyncComplete _ => exact next_of_resOk (execMirrorSyncComplete_kept _ _)
    | heartbeat => exact next_of_resOk (execHeartbeat_kept _)
    | heartbeatLost _ => cases hacts
    | livenessCheck _ => cases hacts
    | failMsg _ => exact next_of_resOk (execFailMsg_kept _ _)
    | claim _ _ => cases hacts
    | takeover _ => exact next_of_resOk (execTakeover_kept _ _)
    | claimRefused _ => cases hacts
    | digestPair _ => cases hacts
    | driveCompletion _ _ => cases hacts
    | driveTimeout _ => cases hacts
    | journalFlush _ => cases hacts
    | flushDeferExpiry _ => cases hacts
    | flushComplete _ => cases hacts
    | bulkImageStart _ => cases hacts
    | bulkImageDurable _ => cases hacts
    | graphBuild _ => cases hacts
    | traceWaitLimit _ _ _ _ _ => cases hacts
    | traceBurstTimeout _ => cases hacts
    | traceSync _ => cases hacts
    | traceRpWrite _ _ _ _ => cases hacts
    | dumpRequest _ _ _ => cases hacts
    | dumpComplete _ _ => cases hacts
    | dumpAck _ _ _ => cases hacts
    | studyCauseClear _ _ _ => cases hacts
    | epochRetiredClear _ _ _ _ => cases hacts
    | wdogExpiredClear _ _ _ => cases hacts
    | fenceRefusedClear _ _ _ _ => cases hacts
    | kitchenLimitWrite _ _ _ _ => cases hacts
    | rcFieldRead _ _ _ => cases hacts
    | registerWrite _ _ _ _ => cases hacts
    | linkCreditsReturned _ _ => cases hacts
    | pathRestored => exact next_of_resOk (execPathRestored_kept _)

end Sys2Proof.Rows

/-! SUPPORT. What TICK and the changes of power keep, and what follows of every step: the memories' form, the queue, the tick. -/

namespace Sys2Proof.Rows

open Sys2Proof Sys2Proof.Machine Sys2Proof.Laws

/-! ### TICK and the changes of power -/

/-- What TICK and the changes of power keep too: the queue, the form of the memories, the free values taken. -/
structure Stands (s t : State) : Prop where
  pending : t.pending = s.pending
  mem : MemOk s → MemOk t
  free : s.free ≤ t.free

theorem Stands.of_kept {s t : State} (h : Kept s t) : Stands s t := ⟨h.pending, h.mem, h.free⟩

theorem Stands.trans {s t u : State} (h : Stands s t) (k : Stands t u) : Stands s u :=
  ⟨k.pending.trans h.pending, fun m => k.mem (h.mem m), Nat.le_trans h.free k.free⟩

/-- A reset package's memories list nothing but what the host's holds. -/
theorem memOk_of_emptied {s t : State} (hhbm : t.hbm = []) (hhost : t.host = s.host) (houts : t.outposts = List.replicate 8 {})
    (hmem : MemOk s) : MemOk t := by
  obtain ⟨_, hostOk, _⟩ := hmem
  refine ⟨by rw [hhbm]; rfl, by rwa [hhost], fun o ho => ?_⟩
  rw [houts] at ho
  rw [List.eq_of_mem_replicate ho]
  rfl

@[simp] theorem tickOutpost_larder (x : Outpost) : (tickOutpost x).larder = x.larder := by
  unfold tickOutpost
  split <;> rfl

/-- The tick's count leaves the queue, the memories and the free values. -/
theorem countTick_stands (s : State) : Stands s { s with tick := wrapTo 48 (s.tick + 1), outposts := s.outposts.map tickOutpost } := by
  refine ⟨rfl, fun ⟨hbmOk, hostOk, outsOk⟩ => ⟨hbmOk, hostOk, fun o ho => ?_⟩, Nat.le_refl _⟩
  obtain ⟨p, hp, rfl⟩ := List.mem_map.mp ho
  rw [tickOutpost_larder]
  exact outsOk p hp

/-- Both instances fire what is due before the tick counts. -/
theorem closeTicks_kept (s : State) : Kept s (closeTick .B (closeTick .A s)) :=
  (closeTick_keptI .A (.refl .A s)).toKept.trans (closeTick_keptI .B (.refl .B _)).toKept

/-- After the count the resets that are over end, and each instance is charged. -/
theorem chargeTicks_kept (t : State) : Kept t (tickInst .B (tickInst .A (releaseReset .B (releaseReset .A t)))) :=
  (((releaseReset_keptI .A (.refl .A t)).toKept.trans (releaseReset_keptI .B (.refl .B _)).toKept).trans
    (tickInst_keptI .A (.refl .A _)).toKept).trans (tickInst_keptI .B (.refl .B _)).toKept

theorem execTick_stands (s : State) : ResOk (Stands s) (execTick s) := by
  unfold execTick
  split
  · exact .next (.of_kept (.refl s))
  · exact .next ((Stands.of_kept (closeTicks_kept s)).trans ((countTick_stands _).trans (.of_kept (chargeTicks_kept _))))

theorem exec_stands {c : Instr} {s t : State} (hnext : exec c s = .next t) : Stands s t := by
  by_cases htick : c = .tick
  · rw [htick] at hnext
    exact next_of_resOk (execTick_stands s) hnext
  by_cases hon : c = .powerOnReset
  · rw [hon] at hnext
    cases hnext
    exact ⟨rfl, memOk_of_emptied rfl rfl rfl, Nat.le_refl _⟩
  by_cases hoff : c = .powerLoss
  · rw [hoff] at hnext
    cases hnext
    exact ⟨rfl, memOk_of_emptied rfl rfl rfl, Nat.le_refl _⟩
  exact .of_kept (exec_kept htick hon hoff hnext)

/-- Settles O3: every row keeps the form of the memories, by the frame lemmas of its operations. -/
theorem memoryKept : Obligations.MemoryKept := by
  unfold Obligations.MemoryKept
  intro s t hmem hstep
  cases hqueue : s.pending with
  | nil =>
    rw [step, hqueue] at hstep
    cases hstep
    exact hmem
  | cons c rest =>
    rw [step, hqueue] at hstep
    exact (exec_stands hstep).mem hmem

/-- Settles O4, by the frame lemmas of the rows' operations. -/
theorem queueKept : Obligations.QueueKept := by
  unfold Obligations.QueueKept
  exact fun c s t hnext => ⟨(exec_stands hnext).pending, (exec_stands hnext).free⟩

/-- Settles O6, by the frame lemmas of the rows' operations. -/
theorem tickKept : Obligations.TickKept := by
  unfold Obligations.TickKept
  exact fun c s t htick hon hoff hnext => (exec_kept htick hon hoff hnext).tick

end Sys2Proof.Rows

/-! SUPPORT. Isolation in split mode: what the ends of the drive's commands send the other instance is a list of digest pairs, and nothing else of it changes. -/

namespace Sys2Proof.Isolation

open Sys2Proof Sys2Proof.Machine Sys2Proof.Laws Sys2Proof.Rows

/-- An instance that has been sent digest pairs. -/
def withDigests (ps : List (Nat × BitVec 384 × Nat)) (x : Inst) : Inst := { x with rel := { x.rel with digestsIn := x.rel.digestsIn ++ ps } }

@[simp] theorem withDigests_nil (x : Inst) : withDigests [] x = x := by simp [withDigests]

theorem withDigests_append (ps qs : List (Nat × BitVec 384 × Nat)) (x : Inst) :
    withDigests qs (withDigests ps x) = withDigests (ps ++ qs) x := by simp [withDigests]

/-- In split mode instance `i` leaves the other as it is, but for digest pairs sent to it. -/
def SendsDigests (i : InstId) (s t : State) : Prop :=
  (getInst s (Machine.other i)).place.split = true → ∃ ps, getInst t (Machine.other i) = withDigests ps (getInst s (Machine.other i))

theorem SendsDigests.of_keptI {i : InstId} {s t : State} (h : KeptI i s t) : SendsDigests i s t :=
  fun hsplit => ⟨[], by rw [h.other hsplit, withDigests_nil]⟩

theorem SendsDigests.trans {i : InstId} {s t u : State} (h : SendsDigests i s t) (k : SendsDigests i t u) : SendsDigests i s u := by
  intro hsplit
  obtain ⟨ps, hps⟩ := h hsplit
  obtain ⟨qs, hqs⟩ := k (by rw [hps]; exact hsplit)
  exact ⟨ps ++ qs, by rw [hqs, hps, withDigests_append]⟩

theorem sendDigest_sends (i : InstId) (s : State) : SendsDigests i s (sendDigest i s) := by
  unfold sendDigest
  dsimp only
  split
  · exact .of_keptI (.refl i s)
  · exact fun _ => ⟨_, by rw [modRel, getInst_modInst]; rfl⟩

theorem flushDone_sends (i : InstId) (s : State) : SendsDigests i s (flushDone i s) := by
  unfold flushDone
  split
  · exact .of_keptI (.refl i s)
  · refine SendsDigests.trans (.of_keptI ?_) (sendDigest_sends i _)
    split
    · exact ackArrivals_keptI _ _ (opDone_keptI _ _ (modRel_keptI _ _ (.refl i s)))
    · exact opDone_keptI _ _ (modRel_keptI _ _ (.refl i s))

/-- What follows the digest that a bulk image's end sends: its command's answer and the next image. -/
theorem bulkDone_sends (i : InstId) (s : State) : SendsDigests i s (bulkDone i s) := by
  unfold bulkDone
  dsimp only
  split
  · exact .of_keptI (.refl i s)
  · case h_2 run _ =>
    have hdone := opDone_keptI i (· == .bulk) (modRel_keptI i
      (fun r => { r with disk := bulkWritten (getInst s i) run r.disk, bulkSeqno := run.seqno, bulk := none }) (.refl i s))
    have hmark := ite_keptI (c := (getInst s i).rel.active = true) (journal_keptI i [.bulkMark run.seqno] hdone) hdone
    refine ((SendsDigests.of_keptI hmark).trans (sendDigest_sends i _)).trans (.of_keptI ?_)
    generalize sendDigest i _ = u
    cases run.cmd with
    | none =>
      dsimp only
      split
      · exact ite_keptI (startBulk_keptI _ _ _ (.refl i _)) (.refl i _)
      · exact .refl i _
    | some k =>
      have hanswer := finishCmd_keptI i k rOk 0 [] (.refl i u)
      dsimp only
      split
      · exact ite_keptI (startBulk_keptI _ _ _ hanswer) hanswer
      · exact hanswer

theorem driveDone_sends (i : InstId) (d : DriveCmd) (s : State) : SendsDigests i s (driveDone i d s) := by
  have hcount := countFixed_keptI i (bit d.retried) (.refl i s)
  unfold driveDone
  dsimp only
  split
  · exact (SendsDigests.of_keptI hcount).trans (flushDone_sends i _)
  · exact (SendsDigests.of_keptI hcount).trans (bulkDone_sends i _)
  · exact .of_keptI (pathBack_keptI _ _ hcount)
  · exact .of_keptI (driveOver_keptI _ _ hcount)
  · exact .of_keptI (driveOver_keptI _ _ (digestLogged_keptI _ _ hcount))

theorem done_sends {i : InstId} {s t : State} (h : SendsDigests i s t) : ResOk (SendsDigests i s) (done i s t) :=
  .next (h.trans (.of_keptI (mirrorOut_keptI _ _ (.refl i t))))

theorem execFlushComplete_sends (i : InstId) (s : State) : ResOk (SendsDigests i s) (execFlushComplete i s) := by
  unfold execFlushComplete
  split
  · exact done_sends (flushDone_sends i s)
  · exact .next (.of_keptI (.refl i s))

theorem execBulkImageDurable_sends (i : InstId) (s : State) : ResOk (SendsDigests i s) (execBulkImageDurable i s) := by
  unfold execBulkImageDurable
  split
  · exact done_sends (bulkDone_sends i s)
  · exact .next (.of_keptI (.refl i s))

theorem execDriveCompletion_sends (i : InstId) (ok : Bool) (s : State) : ResOk (SendsDigests i s) (execDriveCompletion i ok s) := by
  have hends := driveEnds_keptI i (.refl i s)
  unfold execDriveCompletion
  dsimp only
  split
  · exact .next (.of_keptI (.refl i s))
  · split
    · exact .next (.of_keptI (.refl i s))
    · refine done_sends ?_
      split
      · exact (SendsDigests.of_keptI hends).trans (driveDone_sends i _ _)
      · exact .of_keptI (driveError_keptI _ _ hends)

theorem exec_sends {c : Instr} {i : InstId} {s t : State} (hacts : actsFor s c = some i) (hnext : exec c s = .next t) : SendsDigests i s t := by
  by_cases hflush : c = .flushComplete i
  · rw [hflush] at hnext
    exact next_of_resOk (execFlushComplete_sends i s) hnext
  by_cases hbulk : c = .bulkImageDurable i
  · rw [hbulk] at hnext
    exact next_of_resOk (execBulkImageDurable_sends i s) hnext
  by_cases hdrive : ∃ ok, c = .driveCompletion i ok
  · obtain ⟨ok, rfl⟩ := hdrive
    exact next_of_resOk (execDriveCompletion_sends i ok s) hnext
  exact .of_keptI (exec_keptI hacts hflush hbulk (fun ok h => hdrive ⟨ok, h⟩) hnext)

/-- The instances are as they were. -/
def InstsKept (s t : State) : Prop := ∀ i, getInst t i = getInst s i

theorem InstsKept.refl (s : State) : InstsKept s s := fun _ => rfl

theorem modOutpost_instsKept (o : Nat) (f : Outpost → Outpost) (s : State) : InstsKept s (modOutpost o f s) := fun i => getInst_modOutpost o f s i

theorem execDrawList_instsKept (o : Nat) (s : State) : ResOk (InstsKept s) (execDrawList o s) := by
  unfold execDrawList
  split
  · exact .next (.refl s)
  · exact .next (modOutpost_instsKept _ _ s)

theorem execKeystreamBlock_instsKept (o : Nat) (h : RowHandle) (lane low : Nat) (s : State) :
    ResOk (InstsKept s) (execKeystreamBlock o h lane low s) := by
  unfold execKeystreamBlock
  dsimp only
  split
  · exact .next (.refl s)
  · split
    · exact .next (.refl s)
    · split
      · exact .next (.refl s)
      · exact .next (modOutpost_instsKept _ _ s)

theorem execClassMapLoaded_instsKept (o plan lane : Nat) (s : State) : ResOk (InstsKept s) (execClassMapLoaded o plan lane s) := by
  unfold execClassMapLoaded
  dsimp only
  split
  · split
    · exact .next (modOutpost_instsKept _ _ s)
    · exact .next (.refl s)
  · exact .next (.refl s)

theorem execLarderGranuleWrite_instsKept (o off : Nat) (data : List Byte) (s : State) :
    ResOk (InstsKept s) (execLarderGranuleWrite o off data s) := by
  unfold execLarderGranuleWrite
  dsimp only
  split
  · exact .next (.refl s)
  · split
    · exact .fault _
    · exact .next (modOutpost_instsKept _ _ s)

/-- Settles O7, by the frame of each command: all but the drive's ends keep the other instance whole, and these send it digest pairs. -/
theorem splitIsolation : Obligations.SplitIsolation := by
  unfold Obligations.SplitIsolation
  refine ⟨fun c i s t hacts hsplit hnext => ⟨exec_sends hacts hnext hsplit, fun hflush hbulk hdrive =>
    (exec_keptI hacts hflush hbulk hdrive hnext).other hsplit⟩, fun o h lane low plan off data s t c hc hnext => ?_⟩
  simp only [List.mem_cons, List.not_mem_nil, or_false] at hc
  obtain rfl | rfl | rfl | rfl := hc
  · exact next_of_resOk (execDrawList_instsKept o s) hnext
  · exact next_of_resOk (execKeystreamBlock_instsKept o h lane low s) hnext
  · exact next_of_resOk (execClassMapLoaded_instsKept o plan lane s) hnext
  · exact next_of_resOk (execLarderGranuleWrite_instsKept o off data s) hnext

end Sys2Proof.Isolation

/-! SUPPORT. The byte memories: what a write of several bytes leaves to read, and that a memory in canonical form is told by what it reads. -/

namespace Sys2Proof.Memories

open Sys2Proof Sys2Proof.Machine Sys2Proof.Laws

/-! ### A write of several bytes -/

/-- Bytes outside the run that is written stay. -/
theorem memGet_memPuts_outside (bs : List Byte) : ∀ {m : Mem} {a b : Nat}, Machine.Mem.wf m = true → b < a ∨ a + bs.length ≤ b →
    memGet (memPuts m a bs) b = memGet m b := by
  induction bs with
  | nil => exact fun _ _ => rfl
  | cons x bs ih =>
    intro m a b hm hout
    rw [List.length_cons] at hout
    rw [memPuts, ih (memSet_wf a x hm) (by omega), memGet_set hm, if_neg (by omega)]

/-- Bytes in the run that is written read as written. -/
theorem memGet_memPuts_inside (bs : List Byte) : ∀ {m : Mem} {a k : Nat}, Machine.Mem.wf m = true → (hk : k < bs.length) →
    memGet (memPuts m a bs) (a + k) = bs[k] := by
  induction bs with
  | nil => exact fun _ hk => absurd hk (Nat.not_lt_zero _)
  | cons x bs ih =>
    intro m a k hm hk
    cases k with
    | zero => rw [memPuts, memGet_memPuts_outside bs (memSet_wf a x hm) (by omega), memGet_set hm, if_pos (Nat.add_zero a)]; rfl
    | succ k =>
      have h := ih (m := memSet m a x) (a := a + 1) (memSet_wf a x hm) (Nat.lt_of_succ_lt_succ hk)
      rw [memPuts, show a + (k + 1) = a + 1 + k by omega, h]
      rfl

theorem memGets_memPuts (m : Mem) (a : Nat) (bs : List Byte) (hm : Machine.Mem.wf m = true) : memGets (memPuts m a bs) a bs.length = bs := by
  refine List.ext_getElem (by simp [memGets]) fun k hk hk' => ?_
  simp only [memGets, List.getElem_map, List.getElem_range, memGet_memPuts_inside bs hm hk']

/-! ### The canonical form -/

theorem memWfFrom_cons {lo k : Nat} {v : Byte} {m : Mem} : memWfFrom lo ((k, v) :: m) = true ↔ lo ≤ k ∧ v ≠ 0 ∧ memWfFrom (k + 1) m = true := by
  simp [memWfFrom, and_assoc]

/-- Below the first listed address every byte reads 0. -/
theorem memGet_eq_zero_of_lt {m : Mem} : ∀ {lo a : Nat}, memWfFrom lo m = true → a < lo → memGet m a = 0 := by
  induction m with
  | nil => exact fun _ _ => rfl
  | cons c m ih =>
    intro lo a hm ha
    obtain ⟨hk, _, hrest⟩ := memWfFrom_cons.mp hm
    rw [memGet, if_neg (by omega)]
    exact ih hrest (by omega)

theorem memGet_head {k : Nat} {v : Byte} {m : Mem} : memGet ((k, v) :: m) k = v := if_pos rfl

/-- A canonical memory whose first address lies below another's reads otherwise there. -/
theorem le_head_of_reads_alike {k j : Nat} {v w : Byte} {m n : Mem} (hv : v ≠ 0) (hn : memWfFrom (j + 1) n = true)
    (halike : memGet ((k, v) :: m) k = memGet ((j, w) :: n) k) : j ≤ k := by
  refine Classical.byContradiction fun hlt => ?_
  rw [memGet_head, memGet, if_neg (by omega), memGet_eq_zero_of_lt hn (by omega)] at halike
  exact hv halike

theorem eq_of_memGet_eq {m : Mem} : ∀ {n : Mem} {lo : Nat}, memWfFrom lo m = true → memWfFrom lo n = true →
    (∀ a, memGet m a = memGet n a) → m = n := by
  induction m with
  | nil =>
    intro n lo _ hn halike
    cases n with
    | nil => rfl
    | cons d n =>
      obtain ⟨_, hw, _⟩ := memWfFrom_cons.mp hn
      exact absurd ((memGet_head).symm.trans (halike d.1).symm) hw
  | cons c m ih =>
    intro n lo hm hn halike
    obtain ⟨k, v⟩ := c
    obtain ⟨_, hv, hmrest⟩ := memWfFrom_cons.mp hm
    cases n with
    | nil => exact absurd ((memGet_head).symm.trans (halike k)) hv
    | cons d n =>
      obtain ⟨j, w⟩ := d
      obtain ⟨_, hw, hnrest⟩ := memWfFrom_cons.mp hn
      obtain rfl : k = j := Nat.le_antisymm (le_head_of_reads_alike hw hmrest (halike j).symm) (le_head_of_reads_alike hv hnrest (halike k))
      obtain rfl : v = w := memGet_head.symm.trans ((halike k).trans memGet_head)
      refine congrArg _ (ih hmrest hnrest fun a => ?_)
      by_cases ha : k = a
      · subst ha
        rw [memGet_eq_zero_of_lt hmrest (Nat.lt_succ_self k), memGet_eq_zero_of_lt hnrest (Nat.lt_succ_self k)]
      · simpa only [memGet, if_neg ha] using halike a

/-- Settles O10, by induction on the bytes written, and on the list of a canonical memory. -/
theorem memoryWrites : Obligations.MemoryWrites := by
  unfold Obligations.MemoryWrites
  exact ⟨fun m a bs hm => ⟨memPuts_wf bs a hm, memGets_memPuts m a bs hm, fun b hb => memGet_memPuts_outside bs hm hb⟩,
    fun m n hm hn halike => eq_of_memGet_eq hm hn halike⟩

end Sys2Proof.Memories

/-! SUPPORT. A register's fields stand in ascending order and do not overlap, so its value has no bit outside of them (spec/00 R9). -/

namespace Sys2Proof.Registers

open Sys2Proof Sys2Proof.Machine Sys2Proof.Limits

/-- The fields stand one above the other from bit `lo` on, within 64 bits. -/
def ascend : Nat → List RegField → Bool
  | _, [] => true
  | lo, f :: fs => decide (lo ≤ f.lo) && decide (f.lo + f.width ≤ 64) && ascend (f.lo + f.width) fs

theorem ascend_cons {lo : Nat} {f : RegField} {fs : List RegField} :
    ascend lo (f :: fs) = true ↔ lo ≤ f.lo ∧ f.lo + f.width ≤ 64 ∧ ascend (f.lo + f.width) fs = true := by
  simp [ascend, and_assoc]

/-! ### The sum of fields that ascend -/

theorem foldl_add_start (l : List Nat) (n : Nat) : l.foldl (· + ·) n = n + sumNat l := by
  induction l generalizing n with
  | nil => rfl
  | cons x l ih => rw [sumNat, List.foldl_cons, List.foldl_cons, ih, ih (0 + x)]; omega

theorem sumNat_cons (x : Nat) (l : List Nat) : sumNat (x :: l) = x + sumNat l := by
  rw [sumNat, List.foldl_cons, foldl_add_start, Nat.zero_add]

/-- A field's value in its place. -/
def placed (f : RegField) : Nat := wrapTo f.width f.val * 2 ^ f.lo

theorem placed_lt (f : RegField) : placed f < 2 ^ (f.lo + f.width) := by
  rw [placed, Nat.add_comm, Nat.pow_add]
  exact Nat.mul_lt_mul_of_pos_right (Nat.mod_lt _ (Nat.two_pow_pos _)) (Nat.two_pow_pos _)

theorem two_pow_dvd_sumNat_placed {fs : List RegField} : ∀ {lo : Nat}, ascend lo fs = true → 2 ^ lo ∣ sumNat (fs.map placed) := by
  induction fs with
  | nil => exact fun _ => Nat.dvd_zero _
  | cons f fs ih =>
    intro lo hfs
    obtain ⟨hlo, _, hrest⟩ := ascend_cons.mp hfs
    rw [List.map_cons, sumNat_cons]
    exact Nat.dvd_add (Nat.dvd_mul_left_of_dvd (Nat.pow_dvd_pow 2 hlo) _) (Nat.dvd_trans (Nat.pow_dvd_pow 2 (by omega)) (ih hrest))

/-- A bit of the value lies in one of the fields. -/
theorem inField_of_testBit {fs : List RegField} {j : Nat} : ∀ {lo : Nat}, ascend lo fs = true → (sumNat (fs.map placed)).testBit j = true →
    ∃ f ∈ fs, Covers f j := by
  induction fs with
  | nil => exact fun _ hbit => absurd hbit (by simp [sumNat])
  | cons f fs ih =>
    intro lo hfs hbit
    obtain ⟨_, _, hrest⟩ := ascend_cons.mp hfs
    obtain ⟨q, hq⟩ := two_pow_dvd_sumNat_placed hrest
    rw [List.map_cons, sumNat_cons, hq, Nat.add_comm, Nat.testBit_two_pow_mul_add _ (placed_lt f)] at hbit
    split at hbit
    · rename_i hlt
      refine ⟨f, List.mem_cons_self, ?_, hlt⟩
      rw [placed, Nat.testBit_mul_two_pow] at hbit
      simpa using (Bool.and_eq_true_iff.mp hbit).1
    · rename_i hge
      obtain ⟨g, hg, hin⟩ := ih hrest (by rw [hq, Nat.testBit_two_pow_mul]; simp [hbit]; omega)
      exact ⟨g, List.mem_cons_of_mem _ hg, hin⟩

theorem regValue_and_regReserved {fs : List RegField} (hfs : ascend 0 fs = true) : regValue fs &&& regReserved fs = 0 :=
  and_regReserved_of_inFields fun _ hbit => inField_of_testBit hfs hbit

/-! ### Every register's fields ascend -/

theorem identityRegs_ascend (s : State) (x : Inst) (k : Nat) : ascend 0 (identityRegs s x k) = true := by
  unfold identityRegs
  split <;> rfl

theorem kitchenRegs_ascend (m : Mirrored) (k : Nat) : ascend 0 (kitchenRegs m k) = true := by
  unfold kitchenRegs
  dsimp only
  split <;> rfl

theorem foyerRegs_ascend (x : Inst) (k : Nat) : ascend 0 (foyerRegs x k) = true := by
  unfold foyerRegs
  dsimp only
  split <;> rfl

theorem outpostRegs_ascend (x : Inst) (n : Nat) (o : Outpost) (k : Nat) : ascend 0 (outpostRegs x n o k) = true := by
  unfold outpostRegs
  split <;> rfl

theorem hearthRegs_ascend (s : State) (x : Inst) (k : Nat) : ascend 0 (hearthRegs s x k) = true := by
  unfold hearthRegs
  dsimp only
  split <;> rfl

theorem contextRegs_ascend (x : Ctx) (k : Nat) : ascend 0 (contextRegs x k) = true := by
  unfold contextRegs
  split <;> rfl

theorem porchRegs_ascend (q : Irq) (k : Nat) : ascend 0 (porchRegs q k) = true := by
  unfold porchRegs
  split <;> rfl

theorem stairRegs_ascend (x : Inst) (k : Nat) : ascend 0 (stairRegs x k) = true := by
  unfold stairRegs
  dsimp only
  split
  case h_12 =>
    split
    · split <;> rfl
    · rfl
  all_goals rfl

theorem studyRegs_ascend (x : Inst) (k : Nat) : ascend 0 (studyRegs x k) = true := by
  unfold studyRegs
  dsimp only
  split <;> rfl

theorem regulatorRegs_ascend (m : Mirrored) (c k : Nat) : ascend 0 (regulatorRegs m c k) = true := by
  unfold regulatorRegs
  dsimp only
  split <;> rfl

theorem hallRegs_ascend (x : Inst) (k : Nat) : ascend 0 (hallRegs x k) = true := by
  unfold hallRegs
  dsimp only
  split
  · split <;> rfl
  · split
    · split <;> rfl
    · split
      · split <;> rfl
      · rfl

theorem latchRegs_ascend (l : Latch) (k : Nat) : ascend 0 (latchRegs l k) = true := by
  unfold latchRegs
  split <;> rfl

theorem relRegs_ascend (x : Inst) (k : Nat) : ascend 0 (relRegs x k) = true := by
  unfold relRegs
  dsimp only
  split
  case h_10 =>
    split
    · split <;> rfl
    · rfl
  all_goals rfl

theorem bankRegs_ascend (y : Study) (k : Nat) : ascend 0 (bankRegs y k) = true := by
  unfold bankRegs
  dsimp only
  repeat' split
  all_goals rfl

theorem regFields_ascend (s : State) (i : InstId) (a : Nat) : ascend 0 (regFields s i a) = true := by
  have hite {c : Prop} [Decidable c] {f g : List RegField} (hf : ascend 0 f = true) (hg : ascend 0 g = true) : ascend 0 (if c then f else g) = true := by
    split
    · exact hf
    · exact hg
  unfold regFields
  exact hite (identityRegs_ascend _ _ _) <| hite (kitchenRegs_ascend _ _) <| hite (foyerRegs_ascend _ _) <| hite (outpostRegs_ascend _ _ _ _) <|
    hite (hearthRegs_ascend _ _ _) <| hite rfl <| hite (contextRegs_ascend _ _) <| hite (porchRegs_ascend _ _) <| hite (stairRegs_ascend _ _) <|
    hite (studyRegs_ascend _ _) <| hite (regulatorRegs_ascend _ _ _) <| hite (hallRegs_ascend _ _) <| hite rfl <| hite (latchRegs_ascend _ _) <|
    hite (relRegs_ascend _ _) <| hite (bankRegs_ascend _ _) rfl

theorem windowFields_ascend (x : Inst) (w o : Nat) : ascend 0 (windowFields x w o) = true := by
  unfold windowFields
  dsimp only
  repeat' split
  all_goals rfl

theorem slotFields_ascend (s : State) (i : InstId) (a : Nat) : ascend 0 (slotFields s i a) = true := by
  unfold slotFields
  split
  · exact regFields_ascend s i a
  · split
    · split
      · exact windowFields_ascend _ _ _
      · rfl
    · rfl

/-- Settles O11: a register's fields do not overlap, so the sum of their values has no bit outside of them. -/
theorem reservedReadZero : Obligations.ReservedReadZero := by
  unfold Obligations.ReservedReadZero
  intro s i off
  unfold regRead
  split
  · exact ⟨BitVec.zero_and, fun _ => rfl⟩
  · exact ⟨regValue_and_regReserved (slotFields_ascend s i off), fun hnone => by rw [hnone]; rfl⟩

end Sys2Proof.Registers

/-! SUPPORT. The interrupt status word read back into its fields (spec/14 R311), and the two orders of the firmware, of composition and of commands, as lexicographic orders of their keys (spec/04 R82, spec/13 R284). -/

namespace Sys2Proof.Orders

open Sys2Proof Sys2Proof.Machine

/-! ### The status word's fields -/

/-- The word that the fields spell gives the fields back. -/
theorem irqPut_irqStatus (q : Irq) : irqPut q (irqStatus q) = q := by
  have hcq : (irqStatus q).extractLsb' 0 16 = q.cq := by
    refine BitVec.eq_of_getLsbD_eq fun k hk => ?_
    simp [irqStatus, hk, show k < 32 by omega, show k < 33 by omega, show k < 34 by omega, show k < 35 by omega, show k < 36 by omega]
  have hmb : (irqStatus q).extractLsb' 16 16 = q.mb := by
    refine BitVec.eq_of_getLsbD_eq fun k hk => ?_
    simp [irqStatus, hk, show 16 + k < 32 by omega, show 16 + k < 33 by omega, show 16 + k < 34 by omega, show 16 + k < 35 by omega,
      show 16 + k < 36 by omega]
  have hdir : (irqStatus q).getLsbD 32 = q.dir := by simp [irqStatus]
  have hfault : (irqStatus q).getLsbD 33 = q.fault := by simp [irqStatus]
  have hstudy : (irqStatus q).getLsbD 34 = q.study := by simp [irqStatus]
  have hhearth : (irqStatus q).getLsbD 35 = q.hearth := by simp [irqStatus]
  rw [irqPut, hcq, hmb, hdir, hfault, hstudy, hhearth]

/-- Settles O12: the fields partition the 36 bits, so each of the two maps undoes the other. -/
theorem statusRoundTrip : Obligations.StatusRoundTrip := by
  unfold Obligations.StatusRoundTrip
  exact fun q v => ⟨Interrupts.irqStatus_irqPut q v, irqPut_irqStatus q, rfl⟩

/-! ### The orders -/

/-- The keys of a sequence in the order of composition (R82), the first the most significant. -/
def rowKey (m : Mirrored) (tick : Nat) (houses : List Nat) (q : Machine.Seq) : List Nat :=
  [rankClass m q, effDeadline m tick q, bit (!houses.contains q.r.household), q.r.lastStep, q.r.localId]

/-- The keys of a command in the order of commands (spec/13 R284). -/
def cmdKey (m : Mirrored) (c : MboxCmd) : List Nat :=
  [bit (!c0Cmd m c), c.acceptTick, c.window, c.id]

theorem lt_or_gt_of_keys_ne {k l : List Nat} (hne : k ≠ l) : k < l ∨ l < k := by
  by_cases hlt : k < l
  · exact .inl hlt
  · exact .inr (Decidable.byContradiction fun hgt => hne (List.le_antisymm hgt hlt))

/-- The first key that differs decides. -/
theorem decide_first_iff {a b : Nat} {k l : List Nat} {d : Bool} (hd : d = true ↔ k < l) : (if a ≠ b then decide (a < b) else d) = true ↔ a :: k < b :: l := by
  rw [List.cons_lt_cons_iff, ← hd]
  split
  · rw [decide_eq_true_eq]
    omega
  · next h =>
    have heq : a = b := Decidable.byContradiction h
    simp only [heq, Nat.lt_irrefl, true_and, false_or]

theorem decide_last_iff {a b : Nat} : decide (a < b) = true ↔ [a] < [b] := by
  rw [List.cons_lt_cons_iff, decide_eq_true_eq]
  simp only [List.not_lt_nil, and_false, or_false]

theorem before_iff (m : Mirrored) (tick : Nat) (houses : List Nat) (a b : Machine.Seq) :
    before m tick houses a b = true ↔ rowKey m tick houses a < rowKey m tick houses b :=
  decide_first_iff (decide_first_iff (decide_first_iff (decide_first_iff decide_last_iff)))

theorem cmdBefore_iff (m : Mirrored) (a b : MboxCmd) : cmdBefore m a b = true ↔ cmdKey m a < cmdKey m b :=
  decide_first_iff (decide_first_iff (decide_first_iff decide_last_iff))

theorem localId_eq_of_rowKey_eq {m : Mirrored} {tick : Nat} {houses : List Nat} {a b : Machine.Seq}
    (h : rowKey m tick houses a = rowKey m tick houses b) : a.r.localId = b.r.localId := by
  simp only [rowKey, List.cons.injEq] at h
  obtain ⟨-, -, -, -, hid, -⟩ := h
  exact hid

theorem id_eq_of_cmdKey_eq {m : Mirrored} {a b : MboxCmd} (h : cmdKey m a = cmdKey m b) : a.id = b.id := by
  simp only [cmdKey, List.cons.injEq] at h
  obtain ⟨-, -, -, hid, -⟩ := h
  exact hid

/-- Settles O14: both orders compare keys lexicographically, and the last key is the id. -/
theorem orderStrict : Obligations.OrderStrict := by
  unfold Obligations.OrderStrict
  refine ⟨fun m tick houses a b c => ?_, fun m a b c => ?_⟩
  · rw [← Bool.not_eq_true, before_iff, before_iff, before_iff, before_iff]
    exact ⟨List.lt_asymm, List.lt_trans, fun hid => lt_or_gt_of_keys_ne fun heq => hid (localId_eq_of_rowKey_eq heq)⟩
  · rw [← Bool.not_eq_true, cmdBefore_iff, cmdBefore_iff, cmdBefore_iff, cmdBefore_iff]
    exact ⟨List.lt_asymm, List.lt_trans, fun hid => lt_or_gt_of_keys_ne fun heq => hid (id_eq_of_cmdKey_eq heq)⟩

end Sys2Proof.Orders

/-! SUPPORT. Writes of the interrupt status and enable registers (spec/14 R311-R313), the step (spec/95), and the passing of time (spec/19 R418, R419). -/

namespace Sys2Proof.Writes

open Sys2Proof Sys2Proof.Machine Sys2Proof.Laws Sys2Proof.Interrupts Sys2Proof.Rows

/-! ### The interrupt registers -/

/-- Without a completion bit written as 1, a clearing write clears its bits and no more. -/
theorem clearIrq_of_no_completion {i : InstId} {v : BitVec 36} {s : State} (hnone : v &&& 0xFFFF#36 = 0) : clearIrq i v s = ackIrq i v s := by
  have hempty : maskBits 16 v.toNat = [] := by
    refine List.filter_eq_nil_iff.mpr fun k hk hbit => ?_
    have hk16 : k < 16 := List.mem_range.mp hk
    have hlow : ∀ n, n < 16 → (0xFFFF#36).getLsbD n = true := by decide
    have hmask : (0xFFFF#36).getLsbD k = true := hlow k hk16
    have hboth : (v &&& 0xFFFF#36).getLsbD k = true := by
      rw [BitVec.getLsbD_and, hmask, Bool.and_true]
      exact hbit
    rw [hnone] at hboth
    exact absurd hboth (by simp)
  rw [clearIrq_eq, hempty, List.foldl_nil]

theorem access_wide (off : Nat) (v : BitVec 36) : (access true off v.toNat).1 = v.setWidth 64 := BitVec.ofNat_toNat 64 v

theorem irqCase_of_reserved {v : BitVec 64} (hres : v >>> 36 ≠ 0) : irqCase v = some 12 := if_neg (by simpa using hres)

theorem mir_sendIrq (i : InstId) (before after : BitVec 36) (s : State) : mir (sendIrq i before after s) i = mir s i := by
  cases i <;> rfl

theorem hbm_sendIrq (i : InstId) (before after : BitVec 36) (s : State) : (sendIrq i before after s).hbm = s.hbm := rfl

theorem mir_setEnable (i : InstId) (v : BitVec 36) (s : State) : mir (setEnable i v s) i = { mir s i with irq := { (mir s i).irq with enable := v } } := by
  rw [setEnable, mir_sendIrq, mir_eq, getInst_modMir, mir_eq]

/-- An 8-byte write of the enable register sets it. -/
theorem exec_irqEnableWrite_wide {i : InstId} {s : State} (v : BitVec 36) (hears : deaf s i = false) :
    exec (.irqEnableWrite i true irqEnableOff v.toNat) s = .next (settled i s (setEnable i v s)) := by
  show execIrqEnableWrite i true irqEnableOff v.toNat s = _
  have hreach : reaches true irqEnableOff irqEnableOff = true := rfl
  have haligned : aligned true irqEnableOff = true := rfl
  simp [execIrqEnableWrite, hreach, haligned, hears, access_wide, irqCase_setWidth, guarded, settle]

/-- One of 4 bytes leaves it. -/
theorem exec_irqEnableWrite_narrow {i : InstId} {s : State} (v : BitVec 36) (hears : deaf s i = false) :
    exec (.irqEnableWrite i false irqEnableOff v.toNat) s = .next (settled i s s) := by
  show execIrqEnableWrite i false irqEnableOff v.toNat s = _
  have hreach : reaches false irqEnableOff irqEnableOff = true := rfl
  have haligned : aligned false irqEnableOff = true := rfl
  have hcase : irqCase (access false irqEnableOff v.toNat).1 = none := by
    have hsmall : (BitVec.ofNat 64 (v.toNat % 2 ^ 32)) >>> 36 = 0 := by
      refine BitVec.eq_of_toNat_eq ?_
      simp [Nat.shiftRight_eq_div_pow]
      omega
    have hlow : (access false irqEnableOff v.toNat).1 = BitVec.ofNat 64 (v.toNat % 2 ^ 32) := rfl
    rw [irqCase, hlow, hsmall]
    rfl
  simp [execIrqEnableWrite, hreach, haligned, hears, hcase, guarded, settle]

theorem stops_misaligned_status {i : InstId} {wide : Bool} {off v : Nat} {s : State} (hreach : reaches wide off irqStatusOff = true)
    (hodd : aligned wide off = false) : StopsAt (.irqStatusClear i wide off v) s 13 := by
  show execIrqStatusClear i wide off v s = _
  simp [execIrqStatusClear, hreach, hodd]

theorem stops_misaligned_enable {i : InstId} {wide : Bool} {off v : Nat} {s : State} (hreach : reaches wide off irqEnableOff = true)
    (hodd : aligned wide off = false) : StopsAt (.irqEnableWrite i wide off v) s 13 := by
  show execIrqEnableWrite i wide off v s = _
  simp [execIrqEnableWrite, hreach, hodd]

/-- A register that takes no access answers nothing. -/
theorem exec_irq_of_deaf {i : InstId} {wide : Bool} {off v : Nat} {s : State} (hdeaf : deaf s i = true) (haligned : aligned wide off = true) :
    exec (.irqStatusClear i wide off v) s = .next s ∧ exec (.irqEnableWrite i wide off v) s = .next s := by
  refine ⟨?_, ?_⟩
  · show execIrqStatusClear i wide off v s = _
    simp [execIrqStatusClear, hdeaf, haligned]
  · show execIrqEnableWrite i wide off v s = _
    simp [execIrqEnableWrite, hdeaf, haligned]

theorem stops_reserved_irq {i : InstId} {v : Nat} {s : State} (hears : deaf s i = false) (hres : (BitVec.ofNat 64 v) >>> 36 ≠ 0) :
    StopsAt (.irqStatusClear i true irqStatusOff v) s 12 ∧ StopsAt (.irqEnableWrite i true irqEnableOff v) s 12 := by
  have hcase := irqCase_of_reserved hres
  refine ⟨?_, ?_⟩
  · show execIrqStatusClear i true irqStatusOff v s = _
    have hreach : reaches true irqStatusOff irqStatusOff = true := rfl
    have haligned : aligned true irqStatusOff = true := rfl
    simp [execIrqStatusClear, hreach, haligned, hears, access, hcase, guarded]
  · show execIrqEnableWrite i true irqEnableOff v s = _
    have hreach : reaches true irqEnableOff irqEnableOff = true := rfl
    have haligned : aligned true irqEnableOff = true := rfl
    simp [execIrqEnableWrite, hreach, haligned, hears, access, hcase, guarded]

/-- Settles O35: a clearing write without a completion bit raises nothing again, and a 4-byte write holds no bit of the enable register's field that spans both halves. -/
theorem interruptWrites : Obligations.InterruptWrites := by
  unfold Obligations.InterruptWrites
  refine ⟨fun i v s hears => ⟨⟨_, exec_irqStatusClear true v hears (.inl rfl), rfl⟩, fun hnone => ⟨_, exec_irqStatusClear true v hears (.inl rfl), ?_⟩,
    ⟨_, exec_irqEnableWrite_wide v hears, ?_⟩, ⟨_, exec_irqEnableWrite_narrow v hears, rfl⟩⟩,
    fun i wide off v s => ⟨stops_misaligned_status, stops_misaligned_enable, exec_irq_of_deaf, stops_reserved_irq⟩⟩
  · rw [clearIrq_of_no_completion hnone]
    dsimp only
    rw [mir_ackIrq]
    exact ⟨irqStatus_irqPut _ _, rfl, rfl, modMir_host _ _ _⟩
  · dsimp only
    rw [mir_setEnable]
    exact ⟨rfl, rfl, by rw [setEnable, hbm_sendIrq, modMir_hbm]⟩

/-! ### The step, and the passing of time -/

/-- Settles O1: the queue's two cases. -/
theorem stepRunsFront : Obligations.StepRunsFront := by
  unfold Obligations.StepRunsFront
  exact ⟨fun c rest s hqueue => by rw [step, hqueue], fun s hqueue => by rw [step, hqueue]⟩

/-- A powered package's tick counts one, between the lists' firing and what the tick charges, which keep it. -/
theorem goes_tick {s : State} (hpower : s.powered = true) :
    Goes .tick s fun t => t.tick = (s.tick + 1) % 2 ^ 48 ∧ t.powered = true ∧ t.pending = s.pending := by
  have hclose := closeTicks_kept s
  have hexec : exec .tick s = execTick s := rfl
  rw [execTick, if_neg (by simp [hpower])] at hexec
  have hcharge := chargeTicks_kept { closeTick .B (closeTick .A s) with
    tick := wrapTo 48 ((closeTick .B (closeTick .A s)).tick + 1), outposts := (closeTick .B (closeTick .A s)).outposts.map tickOutpost }
  refine ⟨_, hexec, hcharge.tick.trans ?_, hcharge.powered.trans (hclose.powered.trans hpower), hcharge.pending.trans hclose.pending⟩
  dsimp only
  rw [hclose.tick]
  rfl

/-- Settles O18: what fires before a tick's count and what is charged after it keep the count, and the liveness word is one field of its instance. -/
theorem timePasses : Obligations.TimePasses := by
  unfold Obligations.TimePasses
  refine ⟨fun s hpower => goes_tick hpower, fun i s hup => ⟨_, if_neg (by simp [hup]), ⟨?_, getInst_modInst_other i _ s⟩, getInst_modInst i _ s⟩⟩
  cases i <;> rfl

end Sys2Proof.Writes

/-! SUPPORT. Resets and power (spec/20 R433-R440): what a block reset of an instance leaves of the package, and what power-on and power loss leave. -/

namespace Sys2Proof.Resets

open Sys2Proof Sys2Proof.Machine Sys2Proof.Laws Sys2Proof.Rows

/-! ### A block reset -/

@[simp] theorem blockReset_hbm (i : InstId) (cause : Nat) (s : State) : (blockReset i cause s).hbm = s.hbm := by
  unfold blockReset
  split
  · rfl
  · cases i <;> rfl

@[simp] theorem blockReset_host (i : InstId) (cause : Nat) (s : State) : (blockReset i cause s).host = s.host := by
  unfold blockReset
  split
  · rfl
  · cases i <;> rfl

theorem blockReset_kept (i : InstId) (cause : Nat) (s : State) : Kept s (blockReset i cause s) := (blockReset_keptI i cause (.refl i s)).toKept

theorem getInst_blockReset_other (i : InstId) (cause : Nat) (s : State) :
    getInst (blockReset i cause s) (Machine.other i) = getInst s (Machine.other i) := by
  unfold blockReset
  split
  · rfl
  · cases i <;> rfl

theorem inReset_blockReset_other (i : InstId) (cause : Nat) (s : State) :
    inReset (blockReset i cause s) (Machine.other i) = inReset s (Machine.other i) := by
  unfold blockReset
  split
  · rfl
  · cases i <;> rfl

/-- After a block reset of a powered package the instance is held. -/
theorem inReset_blockReset (i : InstId) (cause : Nat) {s : State} (hpower : s.powered = true) : inReset (blockReset i cause s) i = true := by
  unfold blockReset
  split
  case isTrue hheld => simpa [hpower] using hheld
  case isFalse => cases i <;> rfl

@[simp] theorem boot_cutProgram (x : Inst) (f : Flash) : (cutProgram x f).boot = f.boot := by
  unfold cutProgram
  split
  · split
    · unfold putSlot
      split <;> rfl
    · rfl
  · rfl

theorem owner_resetOutpost_ne (i : InstId) (x : Outpost) : (resetOutpost i x).owner ≠ some i := by
  unfold resetOutpost
  dsimp only
  split
  case isTrue => exact fun hnone => nomatch hnone
  case isFalse hother => cases i <;> simpa using hother

theorem resetOutpost_of_not_owned {i : InstId} {x : Outpost} (hother : x.owner ≠ some i) :
    (resetOutpost i x).larder = x.larder ∧ (resetOutpost i x).rows = x.rows ∧ (resetOutpost i x).owner = x.owner := by
  unfold resetOutpost
  dsimp only
  rw [if_neg (by simpa using hother)]
  cases i <;> exact ⟨rfl, rfl, rfl⟩

theorem resetOutpost_default (i : InstId) : resetOutpost i {} = {} := by cases i <;> rfl

/-- The package after the reset of an instance that is not held. -/
theorem blockReset_eq {i : InstId} {s : State} (cause : Nat) (hpower : s.powered = true) (hup : inReset s i = false) :
    blockReset i cause s = { modInst i (fun x => { coldInst x with rel := { disk := x.rel.disk, bulkBegan := s.tick } }) s with
      flash := flashReset i (cutProgram (getInst s i) s.flash), calib := calibKept i s, outposts := s.outposts.map (resetOutpost i),
      cap := capReset i cause s.tick s.cap } := by
  rw [blockReset, if_neg (by simp [hpower, hup])]
  cases i <;> rfl

theorem getOutpost_blockReset {i : InstId} {s : State} (cause o : Nat) (hpower : s.powered = true) (hup : inReset s i = false) :
    getOutpost (blockReset i cause s) o = resetOutpost i (getOutpost s o) := by
  rw [blockReset_eq cause hpower hup, getOutpost, getOutpost, List.getD_eq_getElem?_getD, List.getElem?_map, List.getD_eq_getElem?_getD]
  cases s.outposts[o]? with
  | none => exact (resetOutpost_default i).symm
  | some x => rfl

/-- The instance that is reset starts anew, but for its range of the board drive. -/
theorem getInst_blockReset {i : InstId} {s : State} (cause : Nat) (hpower : s.powered = true) (hup : inReset s i = false) :
    getInst (blockReset i cause s) i = { coldInst (getInst s i) with rel := { disk := (getInst s i).rel.disk, bulkBegan := s.tick } } := by
  rw [blockReset_eq cause hpower hup]
  cases i <;> rfl

theorem inReset_resetIf (c : Bool) (i : InstId) {s : State} (hpower : s.powered = true) :
    inReset (if c then blockReset i 1 s else s) i = (c || inReset s i) := by
  cases c with
  | true => exact inReset_blockReset i 1 hpower
  | false => rfl

theorem inReset_resetIf_other (c : Bool) (i : InstId) (s : State) :
    inReset (if c then blockReset i 1 s else s) (Machine.other i) = inReset s (Machine.other i) := by
  cases c with
  | true => exact inReset_blockReset_other i 1 s
  | false => rfl

theorem getInst_resetIf_other (c : Bool) (i : InstId) (s : State) :
    getInst (if c then blockReset i 1 s else s) (Machine.other i) = getInst s (Machine.other i) := by
  cases c with
  | true => exact getInst_blockReset_other i 1 s
  | false => rfl

theorem resetIf_kept (c : Bool) (i : InstId) (s : State) : Kept s (if c then blockReset i 1 s else s) := by
  cases c with
  | true => exact blockReset_kept i 1 s
  | false => exact .refl s

theorem resetIf_hbm (c : Bool) (i : InstId) (s : State) : (if c then blockReset i 1 s else s).hbm = s.hbm := by
  cases c with
  | true => exact blockReset_hbm i 1 s
  | false => rfl

/-! ### Resets of both instances, and power -/

theorem boot_flashKept (s : State) : (flashKept s).boot = s.flash.boot := (boot_cutProgram _ _).trans (boot_cutProgram _ _)

/-- A Function Level Reset holds both instances and writes neither the tick nor HBM. -/
theorem goes_functionLevelReset {s : State} (hpower : s.powered = true) :
    Goes .functionLevelReset s fun t => inReset t .A = true ∧ inReset t .B = true ∧ t.tick = s.tick ∧ t.hbm = s.hbm := by
  have hfirst := blockReset_kept .A 2 s
  refine ⟨_, rfl, ?_, inReset_blockReset .B 2 (hfirst.powered.trans hpower), (blockReset_kept .B 2 _).tick.trans hfirst.tick, ?_⟩
  · exact (inReset_blockReset_other .B 2 _).trans (inReset_blockReset .A 2 hpower)
  · rw [blockReset_hbm, blockReset_hbm]

theorem goes_resetControlWrite (a b : Bool) {s : State} (hpower : s.powered = true) :
    Goes (.resetControlWrite a b) s fun t => inReset t .A = (a || inReset s .A) ∧ inReset t .B = (b || inReset s .B) ∧
      t.tick = s.tick ∧ t.hbm = s.hbm ∧ (a = false → t.a = s.a) ∧ (b = false → t.b = s.b) := by
  have hfirst := resetIf_kept a .A s
  refine ⟨_, rfl, ?_, ?_, (resetIf_kept b .B _).tick.trans hfirst.tick, ?_, fun ha => ?_, fun hb => ?_⟩
  · exact (inReset_resetIf_other b .B _).trans (inReset_resetIf a .A hpower)
  · exact (inReset_resetIf b .B (hfirst.powered.trans hpower)).trans (congrArg (b || ·) (inReset_resetIf_other a .A s))
  · rw [resetIf_hbm, resetIf_hbm]
  · subst ha
    exact getInst_resetIf_other b .B s
  · subst hb
    exact getInst_resetIf_other a .A s

/-- Settles O17: a block reset's package written out field by field, and power's two changes as they are written. -/
theorem resetsAndPower : Obligations.ResetsAndPower := by
  unfold Obligations.ResetsAndPower
  refine ⟨fun s => ⟨?_, ?_⟩, fun i s hpower hup => ?_, fun s hpower => ⟨goes_functionLevelReset hpower, fun a b => goes_resetControlWrite a b hpower⟩⟩
  · exact ⟨_, rfl, rfl, rfl, rfl, rfl, boot_flashKept s, rfl, fun i => by cases i <;> exact ⟨rfl, rfl, rfl, rfl⟩⟩
  · exact ⟨_, rfl, rfl, rfl, boot_flashKept s, rfl, rfl, fun i => by cases i <;> exact ⟨rfl, rfl, rfl⟩⟩
  · have hinst := getInst_blockReset 1 hpower hup
    refine ⟨_, rfl, inReset_blockReset i 1 hpower, inReset_blockReset_other i 1 s, (blockReset_kept i 1 s).tick, blockReset_hbm i 1 s,
      blockReset_host i 1 s, getInst_blockReset_other i 1 s, congrArg (·.rel.disk) hinst, congrArg Inst.mir hinst, congrArg Inst.liveness hinst, ?_, ?_,
      fun o => ?_, fun o hother => ?_⟩
    · rw [blockReset_eq 1 hpower hup]
      exact boot_cutProgram _ _
    · rw [blockReset_eq 1 hpower hup]
    · rw [getOutpost_blockReset 1 o hpower hup]
      exact owner_resetOutpost_ne _ _
    · rw [getOutpost_blockReset 1 o hpower hup]
      exact resetOutpost_of_not_owned hother

end Sys2Proof.Resets

/-! SUPPORT. A mailbox command that its core starts (spec/14 R295-R297): how the serving ends, and what starting the command leaves of the instance. -/

namespace Sys2Proof.Serving

open Sys2Proof Sys2Proof.Machine Sys2Proof.Laws

variable {i : InstId} {w code : Nat} {bad : MboxCmd → Option Nat} {f : MboxCmd → State → Answer × State} {s : State} {c : MboxCmd}

/-! ### How the serving ends -/

theorem ite_of_iff {α : Type} {p q : Prop} [Decidable p] [Decidable q] {a b c d : α} (h : p ↔ q) (ha : a = c) (hb : b = d) :
    (if p then a else b) = if q then c else d := by
  rw [ha, hb]
  by_cases hp : p
  · rw [if_pos hp, if_pos (h.mp hp)]
  · rw [if_neg hp, if_neg (mt h.mpr hp)]

/-- What may be started: the core's next command, of the window and the code, which its scope and its reserved bytes admit. -/
theorem starts_iff : starts i w code bad s c = true ↔ nextCommand s i w = some c ∧ c.window = w ∧ c.code = code ∧
    (∃ sp, cmdSpec code = some sp ∧ scopeRefusal s i sp w = none ∧ reservedZero sp.fields c.params = true) ∧ bad c = none := by
  unfold starts
  cases cmdSpec code with
  | none => simp
  | some sp => simp [and_assoc]

theorem window_of_starts (h : starts i w code bad s c = true) : c.window = w := (starts_iff.mp h).2.1

theorem window_of_mayRefuse (h : mayRefuse i w code bad s c = true) : c.window = w :=
  window_of_starts (Bool.and_eq_true_iff.mp h).1

/-- A command that may start is answered where it meets no undefined case. -/
theorem serve_of_caseMet_none (h : starts i w code noCase s c = true) (hmet : caseMet (bad c) (f c (startCmd i c s)).1 = none) :
    serve i w code bad f s = .next (closed i s (answerCmd i c (f c (startCmd i c s)).1 (f c (startCmd i c s)).2)) := by
  obtain ⟨hnext, rfl, rfl, ⟨sp, hspec, hscope, hres⟩, _⟩ := starts_iff.mp h
  simp [serve, hnext, hspec, hscope, hres, hmet, endEvent]

theorem serve_of_caseMet_some {n : Nat} (h : starts i w code noCase s c = true) (hmet : caseMet (bad c) (f c (startCmd i c s)).1 = some n) :
    serve i w code bad f s = .fault (.undefinedCase n) := by
  obtain ⟨hnext, rfl, rfl, ⟨sp, hspec, hscope, hres⟩, _⟩ := starts_iff.mp h
  simp [serve, hnext, hspec, hscope, hres, hmet]

theorem starts_noCase (h : starts i w code bad s c = true) : starts i w code noCase s c = true := by
  obtain ⟨hnext, hwin, hcode, hspec, _⟩ := starts_iff.mp h
  exact starts_iff.mpr ⟨hnext, hwin, hcode, hspec, rfl⟩

theorem serve_of_starts (h : starts i w code bad s c = true) :
    serve i w code bad f s = .next (closed i s (answerCmd i c (f c (startCmd i c s)).1 (f c (startCmd i c s)).2)) := by
  obtain ⟨_, _, _, _, hbad⟩ := starts_iff.mp h
  exact serve_of_caseMet_none (starts_noCase h) (by rw [hbad]; rfl)

/-- An overlap is spared a command that its row refuses. -/
theorem serve_of_mayRefuse (h : mayRefuse i w code bad s c = true) (href : (f c (startCmd i c s)).1.refuses = true) :
    serve i w code bad f s = .next (closed i s (answerCmd i c (f c (startCmd i c s)).1 (f c (startCmd i c s)).2)) := by
  obtain ⟨hstarts, hcase⟩ := Bool.and_eq_true_iff.mp h
  have hnone : caseMet (bad c) (f c (startCmd i c s)).1 = none := by
    obtain hbad | hbad := Bool.or_eq_true_iff.mp hcase
    · rw [caseMet, eq_of_beq hbad]
      rfl
    · rw [caseMet, hbad, href]
      rfl
  exact serve_of_caseMet_none hstarts hnone

theorem serve_stops {n : Nat} (h : starts i w code noCase s c = true) (hbad : bad c = some n)
    (hacts : n ≠ 2 ∨ (f c (startCmd i c s)).1.refuses = false) : serve i w code bad f s = .fault (.undefinedCase n) := by
  have hmet : caseMet (bad c) (f c (startCmd i c s)).1 = some n := by
    rw [caseMet, hbad, if_neg]
    rw [Bool.and_eq_true_iff, Classical.not_and_iff_not_or_not]
    obtain hn | hr := hacts
    · exact .inl (by simpa using hn)
    · exact .inr (by simp [hr])
  exact serve_of_caseMet_some h hmet

/-- The answer of a row that serves the command. -/
theorem answers_of_starts {cmd : Instr} {a : Answer} {after : State → State} {p : State → Prop} {v : State} (hrow : exec cmd s = serve i w code bad f s)
    (h : starts i w code bad s c = true) (hf : f c (startCmd i c s) = (a, after v)) (hp : p v) : Answers cmd i c s a after p :=
  ⟨v, by rw [hrow, serve_of_starts h, hf], hp⟩

theorem refuses_of_mayRefuse {cmd : Instr} {a : Answer} (hrow : exec cmd s = serve i w code bad f s) (h : mayRefuse i w code bad s c = true)
    (hf : f c (startCmd i c s) = (a, startCmd i c s)) (ha : a.refuses = true) : Refuses cmd i c s a :=
  ⟨_, by rw [hrow, serve_of_mayRefuse h (by rw [hf]; exact ha), hf], rfl⟩

theorem refuses_of_starts {cmd : Instr} {a : Answer} (hrow : exec cmd s = serve i w code bad f s) (h : starts i w code bad s c = true)
    (hf : f c (startCmd i c s) = (a, startCmd i c s)) : Refuses cmd i c s a :=
  ⟨_, by rw [hrow, serve_of_starts h, hf], rfl⟩

/-! ### What starting a command leaves -/

/-- The commands, with the one that is started issued. -/
def issued (c : MboxCmd) (s : State) (l : List MboxCmd) : List MboxCmd :=
  l.map fun x => if x.id == c.id then { x with phase := .issued, startTick := s.tick } else x

/-- The contexts, with the command's wait accounted to its own. -/
def waited (c : MboxCmd) (s : State) (l : List Ctx) : List Ctx :=
  modAt l (winCtx c.window) fun x => { x with acct := { x.acct with cmdWaitTicks := x.acct.cmdWaitTicks + (s.tick - c.acceptTick) } }

/-- Starting a command changes its entry of the journal, its context's account and the Study's ring. -/
theorem getInst_startCmd (i : InstId) (c : MboxCmd) (s : State) :
    getInst (startCmd i c s) i = { getInst s i with
      mir := { mir s i with mbox := issued c s (mir s i).mbox, ctxs := waited c s (mir s i).ctxs }
      study := (getInst (startCmd i c s) i).study } := by
  cases i <;> rfl

@[simp] theorem getInst_startCmd_other (i : InstId) (c : MboxCmd) (s : State) :
    getInst (startCmd i c s) (Machine.other i) = getInst s (Machine.other i) := by cases i <;> rfl

@[simp] theorem startCmd_hbm (i : InstId) (c : MboxCmd) (s : State) : (startCmd i c s).hbm = s.hbm := by cases i <;> rfl
@[simp] theorem startCmd_host (i : InstId) (c : MboxCmd) (s : State) : (startCmd i c s).host = s.host := by cases i <;> rfl
@[simp] theorem startCmd_tick (i : InstId) (c : MboxCmd) (s : State) : (startCmd i c s).tick = s.tick := by cases i <;> rfl
@[simp] theorem startCmd_flash (i : InstId) (c : MboxCmd) (s : State) : (startCmd i c s).flash = s.flash := by cases i <;> rfl
@[simp] theorem startCmd_outposts (i : InstId) (c : MboxCmd) (s : State) : (startCmd i c s).outposts = s.outposts := by cases i <;> rfl

theorem mir_startCmd (i : InstId) (c : MboxCmd) (s : State) :
    mir (startCmd i c s) i = { mir s i with mbox := issued c s (mir s i).mbox, ctxs := waited c s (mir s i).ctxs } := by
  cases i <;> rfl

/-- All of a context but its account is as it was. -/
theorem getCtx_startCmd {α : Type} {g : Ctx → α} (hacct : ∀ x a, g { x with acct := a } = g x) (i : InstId) (c : MboxCmd) (k : Nat) (s : State) :
    g (getCtx (mir (startCmd i c s) i) k) = g (getCtx (mir s i) k) := by
  have h := Interrupts.getCtx_modCtx_of_kept (g := g) (f := fun x => { x with acct := { x.acct with cmdWaitTicks := x.acct.cmdWaitTicks + (s.tick - c.acceptTick) } })
    (fun x => hacct x _) i (winCtx c.window) k s
  rw [mir_startCmd]
  cases i <;> exact h

/-- Another context is as it was. -/
theorem getCtx_startCmd_ne {c : MboxCmd} {k : Nat} (hne : k ≠ winCtx c.window) (i : InstId) (s : State) :
    getCtx (mir (startCmd i c s) i) k = getCtx (mir s i) k := by
  rw [mir_startCmd]
  exact getD_modAt_ne _ _ _ _ _ hne

end Sys2Proof.Serving

/-! SUPPORT. A context reset (spec/20 R437): what CONTEXT_OPEN leaves of its context, of the others and of the windows. -/

namespace Sys2Proof.ContextOpen

open Sys2Proof Sys2Proof.Machine Sys2Proof.Laws Sys2Proof.Serving

/-- The arrival blocks that the old ring still held return. -/
def freeArrivals (i : InstId) (l : List (Nat × Nat)) (s : State) : State := l.foldl (fun s p => freeArrival i p.2 s) s

/-- The state that CONTEXT_OPEN leaves before its journal entry. -/
def opened (i : InstId) (c : MboxCmd) (s : State) : State :=
  clearCtxIrq i (winCtx c.window) (modCtx i (winCtx c.window) (fun _ => openedCtx c)
    (freeArrivals i (getCtx (mir s i) (winCtx c.window)).arrivalDue s))

theorem freeArrivals_kept (i : InstId) (l : List (Nat × Nat)) (s : State) :
    (mir (freeArrivals i l s) i).ctxs = (mir s i).ctxs ∧ (mir (freeArrivals i l s) i).windows = (mir s i).windows ∧
      (mir (freeArrivals i l s) i).irq = (mir s i).irq := by
  induction l generalizing s with
  | nil => exact ⟨rfl, rfl, rfl⟩
  | cons p l ih =>
    obtain ⟨hctxs, hwindows, hirq⟩ := ih (freeArrival i p.2 s)
    have hfreed : mir (freeArrival i p.2 s) i = { mir s i with arrivals := (mir s i).arrivals.filter (·.1 != p.2) } := by cases i <;> rfl
    rw [hfreed] at hctxs hwindows hirq
    exact ⟨hctxs, hwindows, hirq⟩

theorem mir_opened (i : InstId) (c : MboxCmd) (s : State) :
    (mir (opened i c s) i).ctxs = modAt (mir s i).ctxs (winCtx c.window) (fun _ => openedCtx c) ∧ (mir (opened i c s) i).windows = (mir s i).windows ∧
      (mir (opened i c s) i).irq.cq = (mir s i).irq.cq &&& ~~~(1#16 <<< winCtx c.window) ∧
      (mir (opened i c s) i).irq.mb = (mir s i).irq.mb &&& ~~~(1#16 <<< winCtx c.window) := by
  obtain ⟨hctxs, hwindows, hirq⟩ := freeArrivals_kept i (getCtx (mir s i) (winCtx c.window)).arrivalDue s
  simp only [mir_eq] at hctxs hwindows hirq
  simp [opened, clearCtxIrq, hctxs, hwindows, hirq]

/-- A bit that a mask clears reads 0. -/
theorem getLsbD_clear {v : BitVec 16} (k : Nat) : (v &&& ~~~(1#16 <<< k)).getLsbD k = false := by
  by_cases hk : k < 16
  · simp [hk]
  · simp [BitVec.getLsbD_of_ge _ k (Nat.le_of_not_lt hk)]

theorem doContextOpen_eq {i : InstId} {c : MboxCmd} {s : State} (hvalid : openInvalid c = false) (hshut : (getCtx (mir s i) (winCtx c.window)).isOpen = false) :
    doContextOpen i c s = (aOk, foyerRound i (journalCtx i (winCtx c.window) (opened i c s))) := by
  rw [doContextOpen, hvalid, hshut]
  rfl

/-- Settles O16: the context's record is replaced by the one that the command's block gives. -/
theorem contextReset : Obligations.ContextReset := by
  unfold Obligations.ContextReset
  intro i w c s hstarts hvalid hshut
  obtain rfl := window_of_starts hstarts
  obtain ⟨hctxs, hwindows, hcq, hmb⟩ := mir_opened i c (startCmd i c s)
  have hshut' : (getCtx (mir (startCmd i c s) i) (winCtx c.window)).isOpen = false := by
    rw [getCtx_startCmd (g := Ctx.isOpen) (fun _ _ => rfl), hshut]
  refine ⟨opened i c (startCmd i c s), ?_, fun hw hlen => ?_, fun k hk => ?_, ?_⟩
  · show execContextOpen i c.window s = _
    rw [execContextOpen, serve_of_starts hstarts, doContextOpen_eq hvalid hshut']
  · have hctx : getCtx (mir (opened i c (startCmd i c s)) i) (winCtx c.window) = openedCtx c := by
      rw [getCtx, hctxs, getD_modAt]
      rw [mir_startCmd]
      simpa [waited, modAt_length] using hlen
    rw [hctx, hcq, hmb, getLsbD_clear, getLsbD_clear]
    exact ⟨rfl, rfl, rfl, rfl, rfl, rfl, rfl, rfl, rfl, rfl, rfl, rfl, rfl, rfl, rfl, rfl, rfl, rfl, rfl⟩
  · rw [← getCtx_startCmd_ne hk i s, getCtx, hctxs, getD_modAt_ne _ _ _ _ _ hk, getCtx]
  · rw [hwindows, mir_startCmd]

end Sys2Proof.ContextOpen

/-! SUPPORT. What a power-on reset leaves in the register file (spec/19, spec/20 R435): block by block, every register but those with a reset value of their own has fields that are all 0. -/

namespace Sys2Proof.ResetValues

open Sys2Proof Sys2Proof.Machine Sys2Proof.Laws

/-- Every field of the register is 0. -/
def allZero (fs : List RegField) : Bool := fs.all fun f => f.val == 0

theorem regValue_of_allZero {fs : List RegField} (h : allZero fs = true) : regValue fs = 0 := by
  have hsum : sumNat (fs.map Registers.placed) = 0 := by
    induction fs with
    | nil => rfl
    | cons f fs ih =>
      obtain ⟨hf, hfs⟩ := Bool.and_eq_true_iff.mp ((List.all_cons).symm.trans h)
      rw [List.map_cons, Registers.sumNat_cons, ih hfs, Registers.placed, eq_of_beq hf, wrapTo, Nat.zero_mod, Nat.zero_mul]
  exact congrArg (BitVec.ofNat 64) hsum

theorem allZero_ite {c : Prop} [Decidable c] {f g : List RegField} (hf : c → allZero f = true) (hg : ¬ c → allZero g = true) :
    allZero (if c then f else g) = true := by
  split
  case isTrue hc => exact hf hc
  case isFalse hc => exact hg hc

/-- An instance after a power-on reset. -/
def fresh (i : InstId) : Inst := { id := i }

theorem getInst_reset (i : InstId) : getInst State.reset i = fresh i := by cases i <;> rfl

theorem getD_replicate_default {α : Type} (n k : Nat) (x : α) : (List.replicate n x).getD k x = x := by
  by_cases hk : k < n
  · simp [List.getD_eq_getElem?_getD, hk]
  · simp [List.getD_eq_getElem?_getD, hk]

theorem getOutpost_reset (o : Nat) : getOutpost State.reset o = {} := getD_replicate_default 8 o ({} : Outpost)
theorem getCtx_default (c : Nat) : getCtx {} c = {} := getD_replicate_default 16 c ({} : Ctx)
theorem getLatch_default (l : Nat) : getLatch {} l = {} := getD_replicate_default 256 l ({} : Latch)

/-! ### Block by block -/

theorem identityRegs_reset (i : InstId) {k : Nat} (hk : k ≠ 0x00) : allZero (identityRegs State.reset (fresh i) k) = true := by
  unfold identityRegs
  split
  case h_1 => exact absurd rfl hk
  all_goals rfl

theorem kitchenRegs_reset {k : Nat} (hk : k ∉ [0x00, 0x08, 0x10, 0x18, 0x38]) : allZero (kitchenRegs {} k) = true := by
  unfold kitchenRegs
  dsimp only
  split
  case h_1 => simp at hk
  case h_2 => simp at hk
  case h_3 => simp at hk
  case h_4 => simp at hk
  case h_8 => simp at hk
  all_goals rfl

theorem foyerRegs_reset (i : InstId) {k : Nat} (hk : k ∉ [0x00, 0x08]) : allZero (foyerRegs (fresh i) k) = true := by
  unfold foyerRegs
  dsimp only
  split
  case h_1 => simp at hk
  case h_2 => simp at hk
  all_goals rfl

theorem outpostRegs_reset (i : InstId) (n k : Nat) : allZero (outpostRegs (fresh i) n {} k) = true := by
  unfold outpostRegs
  split
  case h_2 =>
    have hset : (fresh i).place.outposts.getLsbD n = false := BitVec.getLsbD_zero
    rw [hset]
    cases i <;> rfl
  all_goals rfl

theorem hearthRegs_reset (i : InstId) (k : Nat) : allZero (hearthRegs State.reset (fresh i) k) = true := by
  unfold hearthRegs
  dsimp only
  split
  case h_4 => cases i <;> rfl
  case h_5 => cases i <;> decide +kernel
  all_goals rfl

theorem contextRegs_reset (k : Nat) : allZero (contextRegs {} k) = true := by
  unfold contextRegs
  split <;> rfl

theorem porchRegs_reset (k : Nat) : allZero (porchRegs {} k) = true := by
  unfold porchRegs
  split <;> rfl

theorem stairRegs_reset (i : InstId) {k : Nat} (hk : k ≠ 0x08) : allZero (stairRegs (fresh i) k) = true := by
  unfold stairRegs
  dsimp only
  split
  case h_2 => exact absurd rfl hk
  case h_12 =>
    rw [show (fresh i).stair.classes = List.replicate 4 {} from rfl, getD_replicate_default]
    split
    · split <;> rfl
    · rfl
  all_goals rfl

theorem studyRegs_reset (i : InstId) {k : Nat} (hk : k ≠ 0x28) : allZero (studyRegs (fresh i) k) = true := by
  unfold studyRegs
  dsimp only
  split
  case h_6 => exact absurd rfl hk
  case h_8 => cases i <;> decide +kernel
  all_goals rfl

theorem regulatorRegs_reset (c k : Nat) : allZero (regulatorRegs {} c k) = true := by
  unfold regulatorRegs
  rw [getCtx_default]
  dsimp only
  split <;> rfl

theorem hallRegs_reset (i : InstId) {k : Nat} (hk : k ∉ [0x488, 0x4A8, 0x4C8, 0x4E8]) : allZero (hallRegs (fresh i) k) = true := by
  have husher : (fresh i).hall.ushers.getD (k / 32) {} = {} := getD_replicate_default 32 _ _
  have hintake : (fresh i).hall.intakes.getD ((k - 0x400) / 16) {} = {} := getD_replicate_default 5 _ _
  have hcount : (fresh i).hall.counts.getD ((k - 0x480) / 32) {} = {} := getD_replicate_default 4 _ _
  have hempty (n : Nat) : inIntake n (fresh i).hall = [] := List.take_nil
  unfold hallRegs
  dsimp only
  rw [husher, hintake, hcount, hempty]
  split
  · split <;> rfl
  · split
    · split <;> rfl
    · split
      case isTrue hlist =>
        split
        case h_2 h8 =>
          have hdue : k ∈ [0x488, 0x4A8, 0x4C8, 0x4E8] := by
            simp only [List.mem_cons, List.not_mem_nil, or_false]
            omega
          exact absurd hdue hk
        all_goals rfl
      case isFalse => rfl

theorem latchRegs_reset (k : Nat) : allZero (latchRegs {} k) = true := by
  unfold latchRegs
  split <;> rfl

theorem relRegs_reset (i : InstId) (k : Nat) : allZero (relRegs (fresh i) k) = true := by
  unfold relRegs
  dsimp only
  split
  case h_5 => cases i <;> decide +kernel
  case h_10 => split <;> rfl
  all_goals rfl

theorem bankRegs_reset (i : InstId) (k : Nat) : allZero (bankRegs (fresh i).study k) = true := by
  have hbank : (fresh i).study.banks.getD (k / 256) {} = {} := getD_replicate_default 21 _ _
  have hstall : ({} : Bank).stall.getD ((k % 256 - 0x20) / 8) 0 = 0 := getD_replicate_default 16 _ _
  unfold bankRegs
  dsimp only
  rw [hbank, hstall]
  repeat' split
  all_goals rfl

/-! ### The register file -/

theorem regRead_reset (i : InstId) (a : Nat) (hlow : a < 0x10000) : regRead State.reset i a = regValue (regFields State.reset i a) := by
  have hup : inReset State.reset i = false := by cases i <;> rfl
  rw [regRead, hup, slotFields, if_pos hlow]
  rfl

/-- The registers with a reset value that is not 0. -/
def named : List Nat := [0x000, 0x100, 0x108, 0x110, 0x118, 0x138, 0x200, 0x208, 0xC08, 0xD28, 0x1488, 0x14A8, 0x14C8, 0x14E8]

theorem regFields_reset {i : InstId} {a : Nat} (hnamed : a ∉ named) : allZero (regFields State.reset i a) = true := by
  simp only [named, List.mem_cons, List.not_mem_nil, or_false, not_or] at hnamed
  unfold regFields
  have hmir : (fresh i).mir = {} := rfl
  rw [getInst_reset, getOutpost_reset]
  dsimp only
  rw [hmir, getCtx_default, getLatch_default]
  refine allZero_ite (fun _ => identityRegs_reset i (by omega)) fun _ => ?_
  refine allZero_ite (fun _ => kitchenRegs_reset (by simp only [List.mem_cons, List.not_mem_nil, or_false]; omega)) fun _ => ?_
  refine allZero_ite (fun _ => foyerRegs_reset i (by simp only [List.mem_cons, List.not_mem_nil, or_false]; omega)) fun _ => ?_
  refine allZero_ite (fun _ => outpostRegs_reset i _ _) fun _ => ?_
  refine allZero_ite (fun _ => hearthRegs_reset i _) fun _ => ?_
  refine allZero_ite (fun _ => rfl) fun _ => ?_
  refine allZero_ite (fun _ => contextRegs_reset _) fun _ => ?_
  refine allZero_ite (fun _ => porchRegs_reset _) fun _ => ?_
  refine allZero_ite (fun _ => stairRegs_reset i (by omega)) fun _ => ?_
  refine allZero_ite (fun _ => studyRegs_reset i (by omega)) fun _ => ?_
  refine allZero_ite (fun _ => regulatorRegs_reset _ _) fun _ => ?_
  refine allZero_ite (fun _ => hallRegs_reset i (by simp only [List.mem_cons, List.not_mem_nil, or_false]; omega)) fun _ => ?_
  refine allZero_ite (fun _ => rfl) fun _ => ?_
  refine allZero_ite (fun _ => latchRegs_reset _) fun _ => ?_
  exact allZero_ite (fun _ => relRegs_reset i _) fun _ => allZero_ite (fun _ => bankRegs_reset i _) fun _ => rfl

/-- The earliest tick of each Dusk list is all ones. -/
theorem regRead_reset_nextDue (i : InstId) {l : Nat} (hl : l < 4) : regRead State.reset i (0x1488 + 32 * l) = BitVec.ofNat 64 (2 ^ 48 - 1) := by
  obtain rfl | rfl | rfl | rfl : l = 0 ∨ l = 1 ∨ l = 2 ∨ l = 3 := by omega
  all_goals cases i <;> decide +kernel

/-- Settles O2: block by block, the registers that are not named are 0 field by field. -/
theorem resetLeaves : Obligations.ResetLeaves := by
  unfold Obligations.ResetLeaves
  refine ⟨Rows.memOk_of_emptied (s := State.reset) rfl rfl rfl ⟨rfl, rfl, fun o ho => by rw [List.eq_of_mem_replicate ho]; rfl⟩,
    rfl, rfl, rfl, rfl, rfl, rfl, fun i => ⟨by cases i <;> rfl, by cases i <;> rfl, by cases i <;> rfl, by cases i <;> rfl,
      by cases i <;> decide +kernel, by cases i <;> decide +kernel, by cases i <;> decide +kernel, by cases i <;> decide +kernel,
      by cases i <;> decide +kernel, by cases i <;> decide +kernel, by cases i <;> decide +kernel, by cases i <;> decide +kernel,
      by cases i <;> decide +kernel, by cases i <;> decide +kernel, fun l hl => regRead_reset_nextDue i hl, fun off hlow _ hnamed => ?_⟩⟩
  rw [regRead_reset i off hlow, regValue_of_allZero (regFields_reset hnamed)]

end Sys2Proof.ResetValues

/-! SUPPORT. The stages of Dawn (spec/13 R271-R276): what the flash grant, a stage and the other slot leave of the instance and of the flash die. -/

namespace Sys2Proof.DawnRules

open Sys2Proof Sys2Proof.Machine Sys2Proof.Laws

/-! ### Stages and slots -/

@[simp] theorem hearth_setStage (i : InstId) (st : DawnStage) (s : State) :
    (getInst (setStage i st s) i).hearth = { (getInst s i).hearth with stage := st } := by cases i <;> rfl
@[simp] theorem flash_setStage (i : InstId) (st : DawnStage) (s : State) : (setStage i st s).flash = s.flash := by cases i <;> rfl
@[simp] theorem tick_setStage (i : InstId) (st : DawnStage) (s : State) : (setStage i st s).tick = s.tick := by cases i <;> rfl
@[simp] theorem hbm_setStage (i : InstId) (st : DawnStage) (s : State) : (setStage i st s).hbm = s.hbm := by cases i <;> rfl

@[simp] theorem getInst_askGrant (i j : InstId) (u : FlashUse) (s : State) : getInst (askGrant i u s) j = getInst s j := by cases j <;> rfl

/-- What the ROM leaves when it turns to the slot `k`: the stage is READ, and it waits for the grant again. -/
theorem nextSlot_of_left {i : InstId} {k : Bool} {rest : List Bool} {s : State} (hleft : (getInst s i).hearth.left = k :: rest) :
    (getInst (nextSlot i s) i).hearth = { (getInst s i).hearth with trying := k, left := rest, stage := .read } ∧
      (nextSlot i s).flash = { s.flash with waiting := s.flash.waiting ++ [(i, .dawn)] } ∧ (nextSlot i s).tick = s.tick ∧ (nextSlot i s).hbm = s.hbm := by
  rw [nextSlot, hleft]
  dsimp only
  split
  case isTrue hread =>
    have hstage : (getInst s i).hearth.stage = .read := by simpa using hread
    refine ⟨?_, by simp [askGrant], by simp [askGrant], by simp [askGrant]⟩
    rw [getInst_askGrant, getInst_modHearth, hstage]
  case isFalse => exact ⟨by simp, by simp [askGrant], by simp [askGrant], by simp [askGrant]⟩

/-- No slot is left: Dawn has failed. -/
theorem nextSlot_of_none {i : InstId} {s : State} (hleft : (getInst s i).hearth.left = []) : nextSlot i s = setStage i .failed s := by
  rw [nextSlot, hleft]

/-- What the ROM leaves where an image fails its checks (R274). -/
theorem nextSlot_spec (i : InstId) (s : State) :
    (∀ k rest, (getInst s i).hearth.left = k :: rest → (getInst (nextSlot i s) i).hearth.trying = k ∧ (getInst (nextSlot i s) i).hearth.left = rest ∧
      (getInst (nextSlot i s) i).hearth.stage = .read ∧ (nextSlot i s).flash.waiting = s.flash.waiting ++ [(i, .dawn)]) ∧
    ((getInst s i).hearth.left = [] → (getInst (nextSlot i s) i).hearth.stage = .failed) := by
  refine ⟨fun k rest hleft => ?_, fun hleft => ?_⟩
  · obtain ⟨hhearth, hflash, _, _⟩ := nextSlot_of_left hleft
    rw [hhearth, hflash]
    exact ⟨rfl, rfl, rfl, rfl⟩
  · rw [nextSlot_of_none hleft, hearth_setStage]

theorem nextSlot_kept (i : InstId) (s : State) : (nextSlot i s).tick = s.tick ∧ (nextSlot i s).hbm = s.hbm ∧
    (nextSlot i s).flash.holder = s.flash.holder ∧ (∀ k, slotOf (nextSlot i s).flash k = slotOf s.flash k) := by
  cases hleft : (getInst s i).hearth.left with
  | nil =>
    rw [nextSlot_of_none hleft, tick_setStage, hbm_setStage, flash_setStage]
    exact ⟨rfl, rfl, rfl, fun _ => rfl⟩
  | cons k rest =>
    obtain ⟨_, hflash, htick, hhbm⟩ := nextSlot_of_left hleft
    rw [hflash]
    exact ⟨htick, hhbm, rfl, fun _ => rfl⟩

/-! ### The flash grant -/

theorem dropGrant_of_holder {i : InstId} {u : FlashUse} {s : State} (hholds : s.flash.holder = some (i, u)) :
    dropGrant i s = { s with flash := { s.flash with holder := none } } := by
  rw [dropGrant, hholds]
  exact if_pos (beq_self_eq_true i)

@[simp] theorem holder_putSlot (k : Bool) (b : List Byte) (f : Flash) : (putSlot k b f).holder = f.holder := by cases k <;> rfl
@[simp] theorem waiting_putSlot (k : Bool) (b : List Byte) (f : Flash) : (putSlot k b f).waiting = f.waiting := by cases k <;> rfl
@[simp] theorem slotOf_putSlot (k : Bool) (b : List Byte) (f : Flash) : slotOf (putSlot k b f) k = some b := by cases k <;> rfl

/-- The grant for Dawn begins the read of the first slot, and programs the trial's mark where the trial's image is tried (R274). -/
theorem dawnGrant_flash (i : InstId) (s : State) : (dawnGrant i s).flash.holder = s.flash.holder ∧ (dawnGrant i s).flash.waiting = s.flash.waiting := by
  unfold dawnGrant
  dsimp only
  split
  · rw [flash_setStage, modHearth_flash]
    split <;> exact ⟨rfl, rfl⟩
  · exact ⟨rfl, rfl⟩

theorem dawnGrant_of_rom {i : InstId} {s : State} (hrom : (getInst s i).hearth.stage = .rom) :
    let b := s.flash.boot
    let other := bootTrial b && bootMark b i == 0
    (getInst (dawnGrant i s) i).hearth.stage = .read ∧ (getInst (dawnGrant i s) i).hearth.trying = (bootPreferred b != other) ∧
      (getInst (dawnGrant i s) i).hearth.left = [!(bootPreferred b != other)] ∧
      (dawnGrant i s).flash.boot = if bootTrial b && bootMark b i != 0 then setMark i b else b := by
  have hfirst (p t : Bool) : (if t = true then !p else p) = (p != t) := by cases p <;> cases t <;> rfl
  rw [dawnGrant, hrom]
  simp only [beq_self_eq_true, if_true, hearth_setStage, getInst_modHearth, flash_setStage, modHearth_flash, hfirst, apply_ite State.flash,
    apply_ite Flash.boot, true_and]

/-- The package once the grant is the first waiting die's. -/
def granted (i : InstId) (u : FlashUse) (rest : List (InstId × FlashUse)) (s : State) : State :=
  { s with flash := { s.flash with holder := some (i, u), waiting := rest } }

theorem getInst_granted (i j : InstId) (u : FlashUse) (rest : List (InstId × FlashUse)) (s : State) : getInst (granted i u rest s) j = getInst s j := by
  cases j <;> rfl

theorem exec_flashGrant_dawn {i : InstId} {rest : List (InstId × FlashUse)} {s : State} (hfree : s.flash.holder = none)
    (hwaits : s.flash.waiting = (i, .dawn) :: rest) : exec .flashGrant s = .next (dawnGrant i (granted i .dawn rest s)) := by
  show execFlashGrant s = _
  rw [execFlashGrant, hfree, hwaits]
  rfl

theorem exec_flashGrant_program {i : InstId} {rest : List (InstId × FlashUse)} {s : State} (hfree : s.flash.holder = none)
    (hwaits : s.flash.waiting = (i, .program) :: rest) :
    exec .flashGrant s = .next (modHearth i (fun h => { h with imgWrite := h.imgWrite.map fun g => { g with programming := true } })
      (granted i .program rest s)) := by
  show execFlashGrant s = _
  rw [execFlashGrant, hfree, hwaits]
  rfl

/-! ### The checks -/

/-- The package once the slot being tried has been read: the slot's bytes stand, and the grant is given up. -/
def slotRead (i : InstId) (b : List Byte) (s : State) : State :=
  { s with flash := { putSlot (getInst s i).hearth.trying b s.flash with holder := none } }

theorem getInst_slotRead (i : InstId) (b : List Byte) (s : State) : getInst (slotRead i b s) i = getInst s i := by cases i <;> rfl

theorem slotOf_slotRead (i : InstId) (b : List Byte) (s : State) : slotOf (slotRead i b s).flash (getInst s i).hearth.trying = some b :=
  slotOf_putSlot _ _ _

theorem waiting_slotRead (i : InstId) (b : List Byte) (s : State) : (slotRead i b s).flash.waiting = s.flash.waiting := waiting_putSlot _ _ _

/-- What a slot's read leaves: the image that passes its checks, or the way to the other slot. -/
theorem exec_imageReadComplete {i : InstId} {img b : List Byte} {s : State} (hholds : s.flash.holder = some (i, .dawn))
    (hread : (getInst s i).hearth.stage = .read) (hb : b = (slotOf s.flash (getInst s i).hearth.trying).getD img) :
    exec (.imageReadComplete i img) s = .next (if imageFails b = none then
      setStage i .verify (modHearth i (fun h => { h with image := parseImage b, sram := (List.range 5).map (sectionsOf b (parseSections b)) }) (slotRead i b s))
      else nextSlot i (slotRead i b s)) := by
  show execImageReadComplete i img s = _
  have hdrop : dropGrant i { s with flash := putSlot (getInst s i).hearth.trying b s.flash } = slotRead i b s :=
    dropGrant_of_holder ((holder_putSlot _ _ _).trans hholds)
  rw [execImageReadComplete, hholds, hread]
  simp only [bne_self_eq_false, Bool.or_self, Bool.false_eq_true, if_false, ← hb, hdrop]
  cases imageFails b with
  | none => rfl
  | some n => rfl

/-- The state in which START ends: the image's identity stands, and its trims are applied. -/
theorem startImage_spec (i : InstId) (s : State) : (startImage i s).tick = s.tick ∧ (startImage i s).hbm = s.hbm ∧
    (getInst (startImage i s) i).hearth.stage = .start ∧ (getInst (startImage i s) i).hearth.fwBuild = (getInst s i).hearth.image.fwBuild ∧
      (getInst (startImage i s) i).hearth.slot = (getInst s i).hearth.trying := by
  cases i <;> exact ⟨rfl, rfl, rfl, rfl, rfl⟩

theorem execSignatureVerified_passes {i : InstId} {s : State} (hverify : (getInst s i).hearth.stage = .verify)
    (hsigned : signatureOk (getInst s i).hearth.image = true) (hzero : (getInst s i).hearth.image.reservedZero = true) :
    exec (.signatureVerified i) s =
      if trimReserved (getInst s i).hearth.image.trims then .fault (.undefinedCase 12) else .next (startImage i s) := by
  show execSignatureVerified i s = _
  simp [execSignatureVerified, hverify, hsigned, hzero]

theorem execSignatureVerified_fails {i : InstId} {s : State} (hverify : (getInst s i).hearth.stage = .verify)
    (hfails : signatureOk (getInst s i).hearth.image = false ∨ (getInst s i).hearth.image.reservedZero = false) :
    exec (.signatureVerified i) s = .next (nextSlot i s) := by
  show execSignatureVerified i s = _
  have hnot : (signatureOk (getInst s i).hearth.image && (getInst s i).hearth.image.reservedZero) = false := by
    obtain h | h := hfails <;> simp [h]
  simp [execSignatureVerified, hverify, hnot]

/-- Settles O19: each stage's end is one step of the ROM's, to the next stage, to the other slot or to FAILED. -/
theorem dawnStages : Obligations.DawnStages := by
  unfold Obligations.DawnStages
  refine ⟨fun i u rest s hfree hwaits hu => ?_, fun i img s hholds hread => ?_, fun i s hverify => ⟨fun hsigned hzero => ⟨fun hres => ?_, fun hres => ?_⟩,
    fun hfails => ?_⟩, fun i s hstart => ?_⟩
  · cases u with
    | dawn =>
      obtain ⟨hholder, hwaiting⟩ := dawnGrant_flash i (granted i .dawn rest s)
      refine ⟨_, exec_flashGrant_dawn hfree hwaits, hholder, hwaiting, fun _ hrom => ?_⟩
      exact dawnGrant_of_rom (s := granted i .dawn rest s) (by rw [getInst_granted, hrom])
    | program => exact ⟨_, exec_flashGrant_program hfree hwaits, by rw [modHearth_flash]; rfl, by rw [modHearth_flash]; rfl, fun hne => nomatch hne⟩
    | confirm cmd => exact absurd rfl (hu cmd)
  · intro b
    refine ⟨_, exec_imageReadComplete hholds hread rfl, ?_⟩
    cases hfails : imageFails b with
    | none =>
      rw [if_pos rfl]
      refine ⟨?_, ?_, ?_, ?_, fun _ => ⟨?_, ?_, ?_⟩, fun hne => absurd rfl hne⟩
      · rw [flash_setStage, modHearth_flash]; rfl
      · rw [tick_setStage, modHearth_tick]; rfl
      · rw [hbm_setStage, modHearth_hbm]; rfl
      · rw [flash_setStage, modHearth_flash]; exact slotOf_slotRead i b s
      · rw [hearth_setStage]
      · rw [hearth_setStage, getInst_modHearth]
      · rw [flash_setStage, modHearth_flash]; exact waiting_slotRead i b s
    | some n =>
      rw [if_neg (Option.some_ne_none n)]
      obtain ⟨htick, hhbm, hholder, hslot⟩ := nextSlot_kept i (slotRead i b s)
      have hspec := nextSlot_spec i (slotRead i b s)
      rw [getInst_slotRead, waiting_slotRead] at hspec
      exact ⟨hholder, htick, hhbm, (hslot _).trans (slotOf_slotRead i b s), fun hnone => absurd hnone (Option.some_ne_none n), fun _ => hspec⟩
  · rw [StopsAt, execSignatureVerified_passes hverify hsigned hzero, if_pos hres]
  · exact ⟨_, (execSignatureVerified_passes hverify hsigned hzero).trans (if_neg (by simp [hres])), startImage_spec i s⟩
  · obtain ⟨htick, hhbm, _, _⟩ := nextSlot_kept i s
    exact ⟨_, execSignatureVerified_fails hverify hfails, htick, hhbm, nextSlot_spec i s⟩
  · have hexec : exec (.coresReady i) s = execCoresReady i s := rfl
    rw [execCoresReady, hstart] at hexec
    exact ⟨_, hexec, by simp, by simp, by simp⟩

end Sys2Proof.DawnRules

/-! SUPPORT. The end of discovery (spec/16 R343): what makes the instance READY leaves its stage so. -/

namespace Sys2Proof.Discovery

open Sys2Proof Sys2Proof.Machine Sys2Proof.Laws

/-- What each step of a fold leaves alone, the fold leaves alone. -/
theorem foldl_keeps {α β : Type} {g : State → β} {f : State → α → State} (hf : ∀ t x, g (f t x) = g t) (l : List α) (s : State) :
    g (l.foldl f s) = g s := by
  induction l generalizing s with
  | nil => rfl
  | cons x l ih => rw [List.foldl_cons, ih, hf]

/-! ### The Hearth stands through what pairs and announces -/

theorem hearth_sendMsg (i j : InstId) (m : PeerMsg) (s : State) : (getInst (sendMsg i m s) j).hearth = (getInst s j).hearth := by
  cases i <;> cases j <;> rfl

theorem hearth_modStair (i j : InstId) (f : Stairwell → Stairwell) (s : State) : (getInst (modStair i f s) j).hearth = (getInst s j).hearth := by
  cases i <;> cases j <;> rfl

theorem hearth_modRel (i j : InstId) (f : Reliability → Reliability) (s : State) : (getInst (modRel i f s) j).hearth = (getInst s j).hearth := by
  cases i <;> cases j <;> rfl

theorem hearth_announceAll (i j : InstId) (s : State) : (getInst (announceAll i s) j).hearth = (getInst s j).hearth := by
  rw [announceAll, hearth_modStair]
  exact foldl_keeps (g := fun s => (getInst s j).hearth) (fun t _ => hearth_sendMsg i j _ t) _ s

theorem hearth_setRole (i j : InstId) (role : Nat) (s : State) : (getInst (setRole i role s) j).hearth = (getInst s j).hearth := by
  unfold setRole
  split
  · rfl
  · rw [hearth_announceAll, hearth_modStair]

theorem hearth_mirrorLost (i j : InstId) (s : State) : (getInst (mirrorLost i s) j).hearth = (getInst s j).hearth := by
  rw [mirrorLost, markLost, hearth_modRel]
  split
  · rfl
  · cases i <;> cases j <;> rfl

theorem hearth_pairUp (i j : InstId) (s : State) : (getInst (pairUp i s) j).hearth = (getInst s j).hearth := by
  unfold pairUp
  dsimp only
  split
  · rfl
  · split
    · rw [hearth_modRel, hearth_modRel]
    · rw [hearth_modRel, hearth_mirrorLost]

/-- Dawn's end makes the instance READY. -/
theorem stage_openDawn (i : InstId) (cmd : Nat) (s : State) : (getInst (openDawn i cmd s) i).hearth.stage = .ready := by
  unfold openDawn
  dsimp only
  rw [hearth_pairUp]
  split
  · rw [hearth_setRole, hearth_modRel, DawnRules.hearth_setStage]
  · rw [hearth_modRel, DawnRules.hearth_setStage]

/-! ### The two ends -/

/-- The state in which nothing is discovered. -/
def found (i : InstId) (s : State) : State := modStair i (fun t => { t with discovery := .none }) s

theorem exec_discoveryComplete {i : InstId} {s : State} (hduty : onDuty s i 3 = true) (hdone : discoveryDone s i = true) :
    exec (.discoveryComplete i) s = .next (closed i s (afterDiscovery i s)) := by
  show execDiscoveryComplete i s = _
  rw [execDiscoveryComplete, hduty, hdone]
  rfl

/-- The silent peers are given up as not reachable. -/
def givenUp (i : InstId) (s : State) : State :=
  modStair i (fun t => { t with peers := t.peers.map fun p => if p.asked then { p with asked := false, reachable := false } else p }) s

theorem exec_discoveryTimeout {i : InstId} {s : State} (hduty : onDuty s i 3 = true) (hon : (getInst s i).stair.discovery ≠ .none)
    (htime : (getInst s i).stair.discoveryTick + 2000 ≤ s.tick) :
    exec (.discoveryTimeout i) s = .next (closed i s (if discoveryDone (givenUp i s) i then afterDiscovery i (givenUp i s) else givenUp i s)) := by
  show execDiscoveryTimeout i s = _
  have hruns : ((getInst s i).stair.discovery == .none || decide (s.tick < (getInst s i).stair.discoveryTick + 2000) || !onDuty s i 3) = false := by
    simp [hon, hduty, Nat.not_lt.mpr htime]
  unfold execDiscoveryTimeout
  dsimp only
  rw [if_neg (by simpa using hruns)]
  rfl

theorem givenUp_peers (i : InstId) (s : State) : ((getInst (givenUp i s) i).stair.peers.all fun p => !p.asked) = true ∧
    (getInst (givenUp i s) i).stair.peers.map (·.addr) = (getInst s i).stair.peers.map (·.addr) := by
  rw [givenUp, getInst_modStair]
  refine ⟨?_, ?_⟩
  · rw [List.all_map, List.all_eq_true]
    intro p _
    cases hasked : p.asked <;> simp [hasked]
  · rw [List.map_map]
    refine List.map_congr_left fun p _ => ?_
    cases hasked : p.asked <;> simp [hasked]

/-- Settles O20: what discovery was for decides its end, and the stage READY stands through the pairing that follows. -/
theorem discoveryEnds : Obligations.DiscoveryEnds := by
  unfold Obligations.DiscoveryEnds
  refine ⟨fun i s hduty hdone => ⟨fun cmd hdawn => ⟨⟨_, ?_, rfl⟩, stage_openDawn i cmd _⟩, fun set hmorning => ⟨_, ?_, rfl⟩⟩,
    fun i s hduty hon htime => ⟨givenUp i s, exec_discoveryTimeout hduty hon htime, modStair_tick _ _ _, ?_⟩⟩
  · rw [exec_discoveryComplete hduty hdone, afterDiscovery, hdawn]
  · rw [exec_discoveryComplete hduty hdone, afterDiscovery, hmorning]
  · obtain ⟨hall, haddr⟩ := givenUp_peers i s
    exact ⟨hall, haddr, by rw [givenUp, getInst_modStair]⟩

end Sys2Proof.Discovery

/-! SUPPORT. The mirror stream's step that ends a meaning (spec/17 R361) writes the stream and nothing else. -/

namespace Sys2Proof.Closers

open Sys2Proof Sys2Proof.Machine Sys2Proof.Laws

/-- The stream alone is written. -/
theorem getInst_mirrorOut (i : InstId) (s t : State) :
    getInst (mirrorOut i s t) i = { getInst t i with rel := { (getInst t i).rel with streamOut := (getInst (mirrorOut i s t) i).rel.streamOut } } := by
  unfold mirrorOut
  dsimp only
  split
  · cases i <;> rfl
  · rfl

@[simp] theorem mirrorOut_mir (i : InstId) (s t : State) : (getInst (mirrorOut i s t) i).mir = (getInst t i).mir := by rw [getInst_mirrorOut]
@[simp] theorem mirrorOut_hearth (i : InstId) (s t : State) : (getInst (mirrorOut i s t) i).hearth = (getInst t i).hearth := by rw [getInst_mirrorOut]
@[simp] theorem mirrorOut_hall (i : InstId) (s t : State) : (getInst (mirrorOut i s t) i).hall = (getInst t i).hall := by rw [getInst_mirrorOut]
@[simp] theorem mirrorOut_stair (i : InstId) (s t : State) : (getInst (mirrorOut i s t) i).stair = (getInst t i).stair := by rw [getInst_mirrorOut]
@[simp] theorem mirrorOut_study (i : InstId) (s t : State) : (getInst (mirrorOut i s t) i).study = (getInst t i).study := by rw [getInst_mirrorOut]

@[simp] theorem mirrorOut_other (i : InstId) (s t : State) : getInst (mirrorOut i s t) (Machine.other i) = getInst t (Machine.other i) := by
  unfold mirrorOut
  dsimp only
  split
  · cases i <;> rfl
  · rfl

/-- The package's other parts stand. -/
theorem mirrorOut_rest (i : InstId) (s t : State) :
    mirrorOut i s t = { t with a := (mirrorOut i s t).a, b := (mirrorOut i s t).b } := by
  unfold mirrorOut
  dsimp only
  split
  · cases i <;> rfl
  · rfl

@[simp] theorem mirrorOut_tick (i : InstId) (s t : State) : (mirrorOut i s t).tick = t.tick := by rw [mirrorOut_rest]
@[simp] theorem mirrorOut_hbm (i : InstId) (s t : State) : (mirrorOut i s t).hbm = t.hbm := by rw [mirrorOut_rest]
@[simp] theorem mirrorOut_host (i : InstId) (s t : State) : (mirrorOut i s t).host = t.host := by rw [mirrorOut_rest]
@[simp] theorem mirrorOut_flash (i : InstId) (s t : State) : (mirrorOut i s t).flash = t.flash := by rw [mirrorOut_rest]
@[simp] theorem mirrorOut_outposts (i : InstId) (s t : State) : (mirrorOut i s t).outposts = t.outposts := by rw [mirrorOut_rest]
@[simp] theorem mirrorOut_free (i : InstId) (s t : State) : (mirrorOut i s t).free = t.free := by rw [mirrorOut_rest]

/-- A meaning that ends so goes on. -/
theorem goes_done {c : Instr} {i : InstId} {s v : State} {p : State → Prop} (hexec : exec c s = done i s v) (hp : p (mirrorOut i s v)) : Goes c s p :=
  ⟨_, hexec, hp⟩

/-- An interrupt bit that is raised changes the interrupt status and nothing else of the instance. -/
theorem getInst_raiseIrq (i : InstId) (b : Nat) (s : State) :
    getInst (raiseIrq i b s) i = { getInst s i with mir := { mir s i with irq := irqPut (mir s i).irq (irqRaise (irqStatus (mir s i).irq) b) } } := by
  cases i <;> rfl

@[simp] theorem getInst_raiseIrq_other (i : InstId) (b : Nat) (s : State) : getInst (raiseIrq i b s) (Machine.other i) = getInst s (Machine.other i) := by
  cases i <;> rfl

/-- A ring's entry is the Study's. -/
theorem getInst_ringPush (i : InstId) (ring unit event object : Nat) (payload : List Nat) (s : State) :
    getInst (ringPush i ring unit event object payload s) i =
      { getInst s i with study := (getInst (ringPush i ring unit event object payload s) i).study } := by
  cases i <;> rfl

theorem irqHearth_raised (q : Irq) : (irqPut q (irqRaise (irqStatus q) irqHearth)).hearth = true := by
  show (irqRaise (irqStatus q) irqHearth).getLsbD 35 = true
  rw [Interrupts.getLsbD_irqRaise (by decide)]
  simp [irqHearth]

end Sys2Proof.Closers

/-! SUPPORT. Watchdogs, core restarts and uncorrectable errors (spec/13 R280-R283, spec/17 R359, R360). -/

namespace Sys2Proof.Watchdogs

open Sys2Proof Sys2Proof.Machine Sys2Proof.Laws Sys2Proof.Closers

/-! ### A core that falls out of service -/

/-- The Hearth when a core has fallen. -/
def fallen (core tick : Nat) (h : Hearth) : Hearth :=
  { h with wdogExpired := h.wdogExpired ||| (1#4 <<< core), coreUp := h.coreUp &&& ~~~(1#4 <<< core), expiries := h.expiries ++ [(core, tick)],
           wdog := h.wdog.set core 0, sram := h.sram.set core [] }

/-- The state when a core has fallen, its ring's entry made and the interrupt raised. -/
def coreFell (i : InstId) (core : Nat) (s : State) : State :=
  raiseIrq i irqHearth (ringPush i (8 + core) (0x028 + core) 3 0 [] (modHearth i (fallen core s.tick) s))

theorem hearth_coreFell (i : InstId) (core : Nat) (s : State) : (getInst (coreFell i core s) i).hearth = fallen core s.tick (getInst s i).hearth := by
  rw [coreFell, getInst_raiseIrq, getInst_ringPush, getInst_modHearth]

theorem mir_coreFell (i : InstId) (core : Nat) (s : State) :
    (mir (coreFell i core s) i).irq.hearth = true ∧ (mir (coreFell i core s) i).seqs = (mir s i).seqs := by
  rw [coreFell, mir_eq, getInst_raiseIrq]
  refine ⟨irqHearth_raised _, ?_⟩
  rw [mir_eq, getInst_ringPush, getInst_modHearth, mir_eq]

/-- The expiry that is noted is recent. -/
theorem recentExpiries_fallen (core tick : Nat) (h : Hearth) : recentExpiries (fallen core tick h) tick core = recentExpiries h tick core + 1 := by
  simp [recentExpiries, fallen]

/-- An expiry of a core that runs: Dawn fails without the Cellar's copy; with it the third in the window fences the core, and one before restarts it. -/
theorem exec_watchdogExpiry {i : InstId} {core : Nat} {sram : Bool} {s : State} (hup : inReset s i = false)
    (hruns : coreRuns (getInst s i).hearth core = true) (hout : (sram || wdogRunsOut (getInst s i).hearth core) = true) :
    exec (.watchdogExpiry i ⟨core, sram⟩) s =
      if (getInst s i).hearth.cellarCopy = false then done i s (setStage i .failed (coreFell i core s))
      else if 2 ≤ recentExpiries (getInst s i).hearth s.tick core then endEvent i s (fenceCore i core (coreFell i core s))
      else done i s (modHearth i (fun h => { h with restarts := satTo 32 (h.restarts + 1) }) (coreFell i core s)) := by
  show execWatchdogExpiry i ⟨core, sram⟩ s = _
  have hrecent : recentExpiries (getInst (coreFell i core s) i).hearth s.tick core = recentExpiries (getInst s i).hearth s.tick core + 1 := by
    rw [hearth_coreFell, recentExpiries_fallen]
  unfold execWatchdogExpiry
  dsimp only
  rw [if_neg (by simp [hup, hruns, hout])]
  change (if (!(getInst s i).hearth.cellarCopy) = true then done i s (setStage i .failed (coreFell i core s))
    else if 3 ≤ recentExpiries (getInst (coreFell i core s) i).hearth s.tick core then endEvent i s (fenceCore i core (coreFell i core s))
    else done i s (modHearth i (fun h => { h with restarts := satTo 32 (h.restarts + 1) }) (coreFell i core s))) = _
  rw [hrecent]
  simp only [Bool.not_eq_true', Nat.reduceLeDiff]

/-! ### Errors -/

/-- A fault's first cause and address are noted in an open context that has none yet. -/
def noteFault (cause addr : Nat) (x : Ctx) : Ctx :=
  if x.isOpen && x.faultCause == 0 then { x with faultCause := cause, faultAddr := addr } else x

theorem modAt_modAt {α : Type} (f g : α → α) : ∀ (l : List α) (k : Nat), modAt (modAt l k f) k g = modAt l k fun x => g (f x)
  | [], _ => rfl
  | _ :: _, 0 => rfl
  | x :: xs, k + 1 => congrArg (x :: ·) (modAt_modAt f g xs k)

/-- The address is noted before the cause, which bars a second fault. -/
theorem askFault_faultAt (i : InstId) (c cause addr : Nat) (s : State) :
    mir (askFault i c cause (faultAt i c addr s)) i = { mir s i with ctxs := modAt (mir s i).ctxs c (noteFault cause addr) } := by
  have hnote : (fun x : Ctx => (fun y : Ctx => if y.isOpen && y.faultCause == 0 then { y with faultCause := cause } else y)
      (if x.isOpen && x.faultCause == 0 then { x with faultAddr := addr } else x)) = noteFault cause addr := by
    funext x
    unfold noteFault
    by_cases hopen : (x.isOpen && x.faultCause == 0) = true
    · simp only [hopen, if_true]
    · simp only [hopen, Bool.false_eq_true, if_false]
  simp only [askFault, faultAt, mir_eq, getInst_modCtx, modAt_modAt, hnote]

theorem eccHbm_eq {i : InstId} {lid : Nat} {q : Machine.Seq} {s : State} (hseq : findSeq (mir s i) lid = some q) :
    mir (eccHbm i lid s) i = { mir s i with ctxs := modAt (mir s i).ctxs q.r.context (noteFault 3 (readAddr s).1) } := by
  have hstays : findSeq (mir (faultAt i q.r.context (readAddr s).1 (readAddr s).2) i) lid = some q := by
    rw [← hseq]
    cases i <;> rfl
  rw [eccHbm, hseq]
  dsimp only
  rw [eccSeq, hstays]
  dsimp only
  rw [askFault_faultAt]
  cases i <;> rfl

theorem eccSeq_eq {i : InstId} {lid : Nat} {q : Machine.Seq} {s : State} (hseq : findSeq (mir s i) lid = some q) :
    mir (eccSeq i lid s) i =
      { mir s i with ctxs := modAt (mir s i).ctxs q.r.context fun x => if x.isOpen && x.faultCause == 0 then { x with faultCause := 3 } else x } := by
  rw [eccSeq, hseq]
  dsimp only
  rw [askFault, mir_eq, getInst_modCtx]
  rfl

theorem exec_ecc_fatal {i : InstId} {s : State} (hup : inReset s i = false) (hsound : (getInst s i).rel.failed = false)
    (hstage : (getInst s i).hearth.stage ≠ .failed) (code unit addr : Nat) {t : State} (ht : t = s ∨ t = (readAddr s).2) :
    eccFatal i code unit addr t = instFault i code unit 0 0 addr true t := by
  have hsame : inReset t i = inReset s i ∧ getInst t i = getInst s i := by
    obtain rfl | rfl := ht
    · exact ⟨rfl, rfl⟩
    · cases i <;> exact ⟨rfl, rfl⟩
  rw [eccFatal, hsame.1, hsame.2]
  exact if_neg (by simp [hup, hsound, hstage])

theorem exec_ecc_running {i : InstId} {s : State} (hrun : running s i = true) (lid n : Nat) :
    exec (.uncorrectableEcc i (.hbmOfSequence lid)) s = .next (closed i s (eccHbm i lid s)) ∧
      exec (.uncorrectableEcc i (.parlour lid)) s = .next (closed i s (if (seqOf s i lid).r.hot then eccSeq i lid s else s)) ∧
      exec (.uncorrectableEcc i (.hbmStepBuffer n)) s = .next (closed i s (killStep i n false s)) := by
  have hstays : ¬ (!running s i) = true := by rw [hrun]; exact Bool.false_ne_true
  exact ⟨if_neg hstays, if_neg hstays, if_neg hstays⟩

/-- Settles O21: an expiry's three ends, a restart's two, and an error's way to what it struck. -/
theorem watchdogsAndErrors : Obligations.WatchdogsAndErrors := by
  unfold Obligations.WatchdogsAndErrors
  refine ⟨⟨fun i core sram s hup hruns hout => ?_, fun i core s hcopied hstage hdown hfenced => ?_⟩,
    fun i s hrun => ⟨fun lid q hseq => ⟨_, (exec_ecc_running hrun lid 0).1, ?_⟩, fun lid q hseq hhot => ⟨eccSeq i lid s, ?_, eccSeq_eq hseq⟩,
      fun lid hcold => ⟨s, ?_, rfl⟩, fun n => ⟨s, (exec_ecc_running hrun 0 n).2.2, rfl⟩⟩,
    fun i s hup hsound hstage => ⟨⟨_, ?_, rfl⟩, ⟨_, ?_, rfl⟩, ⟨_, ?_, rfl⟩⟩⟩
  · have hexec := exec_watchdogExpiry hup hruns hout
    refine ⟨fun hcopy => ?_, fun hcopied hfew => ?_, fun hcopied hthird => ?_⟩
    · rw [if_pos hcopy] at hexec
      refine goes_done hexec ⟨?_, ?_, ?_⟩
      · rw [mirrorOut_hearth, DawnRules.hearth_setStage, hearth_coreFell]
        rfl
      · rw [mir_eq, mirrorOut_mir, setStage, getInst_raiseIrq]
        exact irqHearth_raised _
      · rw [mir_eq, mirrorOut_mir, setStage, getInst_raiseIrq, mir_eq, getInst_modHearth]
        exact (mir_coreFell i core s).2
    · rw [if_neg (by simp [hcopied]), if_neg (Nat.not_le.mpr hfew)] at hexec
      refine goes_done hexec ⟨?_, ?_, ?_⟩
      · rw [mirrorOut_hearth, getInst_modHearth, hearth_coreFell]
        rfl
      · rw [mir_eq, mirrorOut_mir, getInst_modHearth]
        exact (mir_coreFell i core s).1
      · rw [mir_eq, mirrorOut_mir, getInst_modHearth]
        exact (mir_coreFell i core s).2
    · rw [if_neg (by simp [hcopied]), if_pos hthird] at hexec
      exact ⟨_, hexec, hearth_coreFell i core s, mir_coreFell i core s⟩
  · intro h copy
    have hexec : exec (.coreRestartDone i core) s = execCoreRestartDone i core s := rfl
    refine ⟨fun hall => ?_, fun hnot => ?_⟩
    · rw [execCoreRestartDone, if_pos (by simp [hcopied, hstage, hdown, hfenced, copy, hall])] at hexec
      exact goes_done hexec ⟨by rw [mirrorOut_hearth, getInst_modHearth], by simp, by simp, by simp, by simp⟩
    · rw [hexec, execCoreRestartDone, if_neg (by simp [copy, hnot])]
  · dsimp only
    rw [eccHbm_eq hseq]
    exact ⟨rfl, rfl⟩
  · have hhot' : (seqOf s i lid).r.hot = true := by rw [seqOf, getSeq, hseq]; exact hhot
    rw [(exec_ecc_running hrun lid 0).2.1, if_pos hhot']
  · rw [(exec_ecc_running hrun lid 0).2.1, hcold]
    rfl
  · exact congrArg (fun t => Host.Outcome.next (closed i s t)) (exec_ecc_fatal hup hsound hstage 0x08 0 _ (.inr rfl))
  · exact congrArg (fun t => Host.Outcome.next (closed i s t)) (exec_ecc_fatal hup hsound hstage 0x07 0 0 (.inl rfl))
  · exact congrArg (fun t => Host.Outcome.next (closed i s t)) (exec_ecc_fatal hup hsound hstage 0x06 9 0 (.inl rfl))

end Sys2Proof.Watchdogs

/-! SUPPORT. What the Study's traces leave of what an instance mirrors (spec/18 R392-R396): all but the interrupt status, which a cause may raise. -/

namespace Sys2Proof.Tracing

open Sys2Proof Sys2Proof.Machine Sys2Proof.Laws Sys2Proof.Closers

variable {i : InstId} {s t : State}

/-- Of what the instance mirrors the interrupt registers alone may differ. -/
def IrqOnly (i : InstId) (s t : State) : Prop := mir t i = { mir s i with irq := (mir t i).irq }

theorem IrqOnly.refl (i : InstId) (s : State) : IrqOnly i s s := rfl

theorem IrqOnly.trans {u : State} (h : IrqOnly i s t) (k : IrqOnly i t u) : IrqOnly i s u := by
  unfold IrqOnly at h k ⊢
  rw [k, h]

theorem modStudy_irqOnly (f : Study → Study) (h : IrqOnly i s t) : IrqOnly i s (modStudy i f t) := by cases i <;> exact h

theorem hbmPut_irqOnly (a : Nat) (bs : List Byte) (h : IrqOnly i s t) : IrqOnly i s (hbmPut a bs t) := by cases i <;> exact h

theorem raiseIrq_irqOnly (b : Nat) (h : IrqOnly i s t) : IrqOnly i s (raiseIrq i b t) :=
  h.trans (by rw [IrqOnly, mir_eq, getInst_raiseIrq])

theorem setCause_irqOnly (k : Nat) (h : IrqOnly i s t) : IrqOnly i s (setCause i k t) := by
  unfold setCause
  dsimp only
  split
  · exact h
  · split
    · exact raiseIrq_irqOnly _ (modStudy_irqOnly _ h)
    · exact modStudy_irqOnly _ h

theorem traceStore_irqOnly (r : TraceRec) (h : IrqOnly i s t) : IrqOnly i s (traceStore i r t).1 := by
  unfold traceStore
  dsimp only
  split
  · exact h
  · split
    · exact h
    · dsimp only
      split
      · exact setCause_irqOnly _ (modStudy_irqOnly _ (hbmPut_irqOnly _ _ h))
      · exact modStudy_irqOnly _ (hbmPut_irqOnly _ _ h)

theorem traceGap_irqOnly (h : IrqOnly i s t) : IrqOnly i s (traceGap i t) := by
  unfold traceGap
  dsimp only
  split
  · exact h
  · split
    · exact traceStore_irqOnly _ (setCause_irqOnly _ (modStudy_irqOnly _ (traceStore_irqOnly _ h)))
    · exact traceStore_irqOnly _ h

theorem traceDrop_irqOnly (r : TraceRec) (h : IrqOnly i s t) : IrqOnly i s (traceDrop i r t) := by
  unfold traceDrop
  split
  · exact h
  · exact modStudy_irqOnly _ h

theorem traceWrite_irqOnly (r : TraceRec) (h : IrqOnly i s t) : IrqOnly i s (traceWrite i r t) := by
  unfold traceWrite
  dsimp only
  split
  · exact traceStore_irqOnly _ (traceGap_irqOnly h)
  · exact traceDrop_irqOnly _ (traceStore_irqOnly _ (traceGap_irqOnly h))

theorem foldl_irqOnly {α : Type} {f : State → α → State} (hf : ∀ u x, IrqOnly i s u → IrqOnly i s (f u x)) :
    ∀ (l : List α) {t : State}, IrqOnly i s t → IrqOnly i s (l.foldl f t)
  | [], _, h => h
  | x :: l, _, h => foldl_irqOnly hf l (hf _ x h)

theorem traceBurst_irqOnly (n : Nat) (h : IrqOnly i s t) : IrqOnly i s (traceBurst i n t) :=
  foldl_irqOnly (fun _ _ k => traceWrite_irqOnly _ k) _ (modStudy_irqOnly _ h)

theorem traceAdd_irqOnly (r : TraceRec) (h : IrqOnly i s t) : IrqOnly i s (traceAdd i r t) := by
  unfold traceAdd
  dsimp only
  split
  · exact h
  · split
    · exact traceDrop_irqOnly _ h
    · split
      · exact traceBurst_irqOnly _ (modStudy_irqOnly _ h)
      · exact modStudy_irqOnly _ h

theorem traceMark_irqOnly (side w code : Nat) (h : IrqOnly i s t) : IrqOnly i s (traceMark i side w code t) := by
  unfold traceMark
  split
  · exact traceAdd_irqOnly _ h
  · exact h

theorem commandLatch_irqOnly (side w code cookie : Nat) (h : IrqOnly i s t) : IrqOnly i s (commandLatch i side w code cookie t) := by
  unfold commandLatch
  dsimp only
  split
  · exact traceMark_irqOnly _ _ _ h
  · exact hbmPut_irqOnly _ _ (traceMark_irqOnly _ _ _ h)

end Sys2Proof.Tracing

/-! SUPPORT. The mailbox windows (spec/14 R288-R297): the host's writes of a window, the taking of a staged command, and what keeps a row from its command. -/

namespace Sys2Proof.Mailboxes

open Sys2Proof Sys2Proof.Machine Sys2Proof.Laws Sys2Proof.Closers Sys2Proof.Serving Sys2Proof.Tracing

/-! ### The host's writes -/

/-- A meaning that changes what the instance mirrors, and ends so, changes nothing else but the stream. -/
theorem onlyMirror_modMir (i : InstId) (f : Mirrored → Mirrored) (s : State) : OnlyMirror i s (mirrorOut i s (modMir i f s)) := by
  refine ⟨⟨?_, ?_⟩, ?_⟩
  · rw [mirrorOut_rest]
    cases i <;> rfl
  · rw [mirrorOut_other, getInst_modMir_other]
  · rw [mir_eq, mirrorOut_mir, getInst_mirrorOut, getInst_modMir]

theorem mir_modMir (i : InstId) (f : Mirrored → Mirrored) (s : State) : mir (modMir i f s) i = f (mir s i) := by cases i <;> rfl

theorem mir_mirrorOut_modMir (i : InstId) (f : Mirrored → Mirrored) (s : State) : mir (mirrorOut i s (modMir i f s)) i = f (mir s i) := by
  rw [mir_eq, mirrorOut_mir, ← mir_eq, mir_modMir]

/-- A write of a window that is served goes on. -/
theorem goes_modWin {c : Instr} {i : InstId} {w : Nat} {f : Window → Window} {s : State} (hexec : exec c s = done i s (modWin i w f s)) :
    Goes c s (fun t => mir t i = { mir s i with windows := modAt (mir s i).windows w f } ∧ OnlyMirror i s t) :=
  ⟨_, hexec, mir_mirrorOut_modMir i _ s, onlyMirror_modMir i _ s⟩

theorem exec_window_of_unserved {i : InstId} {w : Nat} {s : State} (hshut : winServes s i w = false) :
    exec (.mailboxGo i w) s = .next s ∧ ∀ v, exec (.resHeadWrite i w v) s = .next s := by
  have hnot : ¬ winServes s i w = true := by rw [hshut]; exact Bool.false_ne_true
  exact ⟨if_neg hnot, fun v => if_neg hnot⟩

/-! ### A staged command is taken -/

/-- The windows, with the command of window `w` copied: `go` is clear and the window has counted it. -/
def takenFrom (w : Nat) (l : List Window) : List Window := modAt l w fun y => { y with pending := false, accepted := (y.accepted + 1) % 2 ^ 32 }

/-- The state in which a window's command has been copied. -/
def copied (i : InstId) (w : Nat) (s : State) : State :=
  ringPush i 5 0x025 1 0 [w, (getWin (mir s i) w).resHead, (getWin (mir s i) w).resTail]
    (modWin i w (fun y => { y with pending := false, accepted := wrapTo 32 (y.accepted + 1) }) s)

theorem mir_copied (i : InstId) (w : Nat) (s : State) : mir (copied i w s) i = { mir s i with windows := takenFrom w (mir s i).windows } := by
  cases i <;> rfl

theorem tick_copied (i : InstId) (w : Nat) (s : State) : (copied i w s).tick = s.tick := by cases i <;> rfl

theorem mir_pushResult (i : InstId) (w : Nat) (irq : Bool) (e : ResultEntry) (s : State) :
    (mir (pushResult i w irq e s) i).windows =
        modAt (mir s i).windows w (fun x => { x with results := put (x.resTail % 32) e x.results, resTail := (x.resTail + 1) % 2 ^ 32 }) ∧
      (mir (pushResult i w irq e s) i).mbox = (mir s i).mbox := by
  cases irq <;> cases i <;> exact ⟨rfl, rfl⟩

/-- The window may be taken from: it is served, `go` is set, a core serves it and its result queue has room. -/
def mayTake (s : State) (i : InstId) (w : Nat) : Bool :=
  winServes s i w && (getWin (mir s i) w).pending && (servingCore (getInst s i).hearth (winCtx w)).isSome && resultRoom (mir s i) w

/-- The header of the command that is staged. -/
def header (s : State) (i : InstId) (w : Nat) : CmdHeader := parseCmd (memGets (getWin (mir s i) w).cmd 0 16)

theorem mayTake_iff {s : State} {i : InstId} {w : Nat} : mayTake s i w = true ↔ winServes s i w = true ∧ (getWin (mir s i) w).pending = true ∧
    (servingCore (getInst s i).hearth (winCtx w)).isSome = true ∧ resultRoom (mir s i) w = true := by
  simp [mayTake, and_assoc]

/-- A window that may be taken from passes on to its header. -/
theorem execMailboxGoTaken_guard {i : InstId} {w : Nat} {s : State} (hmay : mayTake s i w = true) :
    ¬ (!winServes s i w || !(getWin (mir s i) w).pending || (servingCore (getInst s i).hearth (winCtx w)).isNone || !resultRoom (mir s i) w) = true := by
  obtain ⟨hserved, hgo, hcore, hroom⟩ := mayTake_iff.mp hmay
  rw [hserved, hgo, hroom, Option.isNone_eq_false_iff.mpr hcore]
  exact Bool.false_ne_true

theorem exec_mailboxGoTaken_busy {i : InstId} {w : Nat} {s : State} (hmay : mayTake s i w = true) (hfull : 64 ≤ queuedOf (mir s i) (winCtx w)) :
    exec (.mailboxGoTaken i w) s =
      done i s (answerGo i w (header s i w) rBusy (modHearth i (fun y => { y with busyReplies := satTo 32 (y.busyReplies + 1) }) (copied i w s))) :=
  (if_neg (execMailboxGoTaken_guard hmay)).trans (if_pos hfull)

theorem exec_mailboxGoTaken_reserved {i : InstId} {w : Nat} {s : State} (hmay : mayTake s i w = true) (hroom : queuedOf (mir s i) (winCtx w) < 64)
    (hres : (header s i w).reserved = true) : exec (.mailboxGoTaken i w) s = .fault (.undefinedCase 12) :=
  (if_neg (execMailboxGoTaken_guard hmay)).trans ((if_neg (Nat.not_le.mpr hroom)).trans (if_pos hres))

/-- A header without a reserved bit, and the code's row. -/
theorem exec_mailboxGoTaken_unknown {i : InstId} {w : Nat} {s : State} (hmay : mayTake s i w = true) (hroom : queuedOf (mir s i) (winCtx w) < 64)
    (hres : (header s i w).reserved = false) (hcode : cmdSpec (header s i w).code = none) :
    exec (.mailboxGoTaken i w) s = done i s (answerGo i w (header s i w) rUnknown (copied i w s)) := by
  have hgo : ¬ (header s i w).reserved = true := by rw [hres]; exact Bool.false_ne_true
  refine (if_neg (execMailboxGoTaken_guard hmay)).trans ((if_neg (Nat.not_le.mpr hroom)).trans ((if_neg hgo).trans ?_))
  change (match cmdSpec (header s i w).code with | none => _ | some sp => _) = _
  rw [hcode]
  rfl

theorem exec_mailboxGoTaken_known {i : InstId} {w : Nat} {sp : CmdSpec} {s : State} (hmay : mayTake s i w = true) (hroom : queuedOf (mir s i) (winCtx w) < 64)
    (hres : (header s i w).reserved = false) (hcode : cmdSpec (header s i w).code = some sp) :
    exec (.mailboxGoTaken i w) s = if (header s i w).length = 16 + sp.size then
      done i s (acceptCmd i w (header s i w) (memGets (getWin (mir s i) w).cmd 16 sp.size) (copied i w s))
      else done i s (answerGo i w (header s i w) rInvalid (copied i w s)) := by
  have hgo : ¬ (header s i w).reserved = true := by rw [hres]; exact Bool.false_ne_true
  refine (if_neg (execMailboxGoTaken_guard hmay)).trans ((if_neg (Nat.not_le.mpr hroom)).trans ((if_neg hgo).trans ?_))
  change (match cmdSpec (header s i w).code with | none => _ | some sp => _) = _
  rw [hcode]
  rfl

/-- A command that is not accepted: its result entry stands in the window's queue. -/
theorem goes_answerGo {i : InstId} {w r : Nat} {h : CmdHeader} {s t : State} (ht : mir t i = mir (copied i w s) i) (htick : t.tick = s.tick) :
    let taken := modAt (mir s i).windows w (fun y => { y with pending := false, accepted := (y.accepted + 1) % 2 ^ 32 })
    let u := mirrorOut i s (answerGo i w h r t)
    ∃ e : ResultEntry, e.cookie = h.cookie ∧ e.code = h.code ∧ e.result = r ∧ e.doneTick = s.tick ∧
      (mir u i).windows = modAt taken w (fun x => { x with results := put (x.resTail % 32) e x.results, resTail := (x.resTail + 1) % 2 ^ 32 }) ∧
      (mir u i).mbox = (mir s i).mbox := by
  intro taken u
  obtain ⟨hwindows, hmbox⟩ := mir_pushResult i w (tbit h.flags 0) { cookie := h.cookie, code := h.code, result := r, doneTick := t.tick } t
  rw [ht, mir_copied] at hwindows hmbox
  have hu : mir u i = mir (answerGo i w h r t) i := mirrorOut_mir i s _
  exact ⟨{ cookie := h.cookie, code := h.code, result := r, doneTick := t.tick }, rfl, rfl, rfl, htick, by rw [hu]; exact hwindows, by rw [hu]; exact hmbox⟩

/-- The command that is accepted. -/
def accepted (i : InstId) (w size : Nat) (s : State) : MboxCmd :=
  { id := (mir s i).nextCmd, window := w, code := (header s i w).code, irq := tbit (header s i w).flags 0, cookie := (header s i w).cookie,
    params := memGets (getWin (mir s i) w).cmd 16 size, acceptTick := s.tick }

theorem mir_acceptCmd (i : InstId) (w size : Nat) (s : State) :
    let u := mirrorOut i s (acceptCmd i w (header s i w) (memGets (getWin (mir s i) w).cmd 16 size) (copied i w s))
    (mir u i).windows = takenFrom w (mir s i).windows ∧ (mir u i).nextCmd = (mir s i).nextCmd + 1 ∧ (mir u i).mbox = (mir s i).mbox ++ [accepted i w size s] := by
  intro u
  have hirq := commandLatch_irqOnly 0 w (header s i w).code (header s i w).cookie (.refl i (modMir i (fun m => { m with
    mbox := m.mbox ++ [{ id := m.nextCmd, window := w, code := (header s i w).code, irq := tbit (header s i w).flags 0, cookie := (header s i w).cookie,
                         params := memGets (getWin (mir s i) w).cmd 16 size, acceptTick := (copied i w s).tick }]
    nextCmd := m.nextCmd + 1 }) (copied i w s)))
  have hu : mir u i = mir (acceptCmd i w (header s i w) (memGets (getWin (mir s i) w).cmd 16 size) (copied i w s)) i := mirrorOut_mir i s _
  rw [hu, acceptCmd, hirq, mir_modMir, mir_copied, tick_copied]
  exact ⟨rfl, rfl, rfl⟩

/-! ### What keeps a row from its command -/

/-- Every row of a mailbox command serves it, with its own undefined cases. -/
theorem exec_of_mailboxRow {cmd : Instr} {i : InstId} {w code : Nat} (hrow : mailboxRow cmd = some (i, w, code)) (s : State) :
    ∃ f, exec cmd s = serve i w code (rowCase s cmd) f s := by
  cases cmd <;> cases hrow <;> exact ⟨_, rfl⟩

section

variable {i : InstId} {w code : Nat} {bad : MboxCmd → Option Nat} {f : MboxCmd → State → Answer × State} {s : State} {c : MboxCmd} {sp : CmdSpec}

theorem serve_of_held (hnone : nextCommand s i w = none) (hheld : intakeFull 2 (getInst s i).hall = true) (hcmd : coreCommand s i w ≠ none) :
    serve i w code bad f s = .next (mirrorOut i s (modHall i (holdSource 2 s.tick) s)) := by
  simp [serve, hnone, notTaken, hheld, Option.isSome_iff_ne_none.mpr hcmd, done]

theorem serve_of_idle (hnone : nextCommand s i w = none) (hidle : intakeFull 2 (getInst s i).hall = false ∨ coreCommand s i w = none) :
    serve i w code bad f s = .next s := by
  simp only [serve, hnone, notTaken]
  obtain hfree | hcmd := hidle
  · simp [hfree]
  · simp [hcmd]

theorem serve_of_otherCommand (hnext : nextCommand s i w = some c) (hother : c.window ≠ w ∨ c.code ≠ code) :
    serve i w code bad f s = .next s := by
  simp [serve, hnext, hother]

theorem serve_of_scopeRefusal {r : Nat} (hnext : nextCommand s i w = some c) (hwindow : c.window = w) (hcode : c.code = code)
    (hspec : cmdSpec code = some sp) (hscope : scopeRefusal s i sp w = some r) :
    serve i w code bad f s = .next (closed i s (finishCmd i c.id r 0 [] (startCmd i c s))) := by
  simp [serve, hnext, hwindow, hcode, hspec, hscope, endEvent]

theorem serve_of_reserved (hnext : nextCommand s i w = some c) (hwindow : c.window = w) (hcode : c.code = code)
    (hspec : cmdSpec code = some sp) (hscope : scopeRefusal s i sp w = none) (hres : reservedZero sp.fields c.params = false) :
    serve i w code bad f s = .fault (.undefinedCase 12) := by
  simp [serve, hnext, hwindow, hcode, hspec, hscope, hres]

end

/-- Settles O22: each window's write and each staged command's end is one branch of its row, and every command row is a serving. -/
theorem mailboxTransport : Obligations.MailboxTransport := by
  unfold Obligations.MailboxTransport
  refine ⟨fun i w s => ⟨fun hserved => ⟨goes_modWin (if_pos hserved), fun v => goes_modWin (if_pos hserved)⟩, exec_window_of_unserved⟩,
    fun i w s hserved hgo hcore hresults => ?_, fun cmd i w code sp s hrow hspec => ?_⟩
  · have hmay : mayTake s i w = true := mayTake_iff.mpr ⟨hserved, hgo, hcore, hresults⟩
    intro h taken answered
    have hbusy : mir (modHearth i (fun y => { y with busyReplies := satTo 32 (y.busyReplies + 1) }) (copied i w s)) i = mir (copied i w s) i := by
      rw [mir_eq, getInst_modHearth]
      rfl
    refine ⟨exec_mailboxGoTaken_reserved hmay, fun hroom hres => ⟨fun hcode => ?_, fun sp hcode => ⟨fun hlen => ?_, fun hlen => ?_⟩⟩, fun hfull => ?_⟩
    · exact ⟨_, exec_mailboxGoTaken_unknown hmay hroom hres hcode, goes_answerGo rfl (tick_copied i w s)⟩
    · exact ⟨_, (exec_mailboxGoTaken_known hmay hroom hres hcode).trans (if_neg hlen), goes_answerGo rfl (tick_copied i w s)⟩
    · obtain ⟨hwindows, hnext, hmbox⟩ := mir_acceptCmd i w sp.size s
      exact ⟨_, (exec_mailboxGoTaken_known hmay hroom hres hcode).trans (if_pos hlen), hwindows, hnext, accepted i w sp.size s, rfl, rfl, rfl, rfl, rfl, rfl, hmbox⟩
    · exact ⟨_, exec_mailboxGoTaken_busy hmay hfull, goes_answerGo hbusy ((modHearth_tick _ _ _).trans (tick_copied i w s))⟩
  · obtain ⟨f, hexec⟩ := exec_of_mailboxRow hrow s
    simp only [Mirrors, Ends, StopsAt, hexec]
    refine ⟨fun hnone => ⟨fun hheld hcmd => ⟨_, serve_of_held hnone hheld hcmd, rfl⟩, serve_of_idle hnone⟩, fun c => serve_of_otherCommand,
      fun c hnext hwindow hcode => ⟨fun r hscope => ?_, fun hscope hres => ?_, fun hscope hres n hcase hn => ?_⟩⟩
    · exact ⟨_, serve_of_scopeRefusal hnext hwindow hcode hspec hscope, rfl⟩
    · exact serve_of_reserved hnext hwindow hcode hspec hscope hres
    · exact serve_stops (starts_iff.mpr ⟨hnext, hwindow, hcode, ⟨sp, hspec, hscope, hres⟩, rfl⟩) hcase (.inl hn)

end Sys2Proof.Mailboxes

/-! SUPPORT. Dawn's commands (spec/14 R298, R299, spec/01 R15, R26, spec/13 R276): what each sets. -/

namespace Sys2Proof.DawnSet

open Sys2Proof Sys2Proof.Machine Sys2Proof.Laws Sys2Proof.Serving Sys2Proof.Closers

/-! ### What starting a command leaves of the instance -/

theorem place_startCmd (i : InstId) (c : MboxCmd) (s : State) : (getInst (startCmd i c s) i).place = (getInst s i).place := by cases i <;> rfl
theorem hearth_startCmd (i : InstId) (c : MboxCmd) (s : State) : (getInst (startCmd i c s) i).hearth = (getInst s i).hearth := by cases i <;> rfl
theorem rel_startCmd (i : InstId) (c : MboxCmd) (s : State) : (getInst (startCmd i c s) i).rel = (getInst s i).rel := by cases i <;> rfl
theorem traceOn_startCmd (i : InstId) (c : MboxCmd) (s : State) : (getInst (startCmd i c s) i).study.traceOn = (getInst s i).study.traceOn := by
  cases i <;> rfl
theorem kitchen_startCmd (i : InstId) (c : MboxCmd) (s : State) : (mir (startCmd i c s) i).kitchen = (mir s i).kitchen := by rw [mir_startCmd]
theorem board_startCmd (i : InstId) (c : MboxCmd) (s : State) : (startCmd i c s).board = s.board := by cases i <;> rfl
theorem calib_startCmd (i : InstId) (c : MboxCmd) (s : State) : (startCmd i c s).calib = s.calib := by cases i <;> rfl

/-! ### PLACE_REGION -/

/-- The placement comes when none may: after Dawn but in training, or of the trace buffer while it is written. -/
def placeWrong (x : Inst) (k : Nat) : Prop :=
  x.hearth.stage = .ready ∧ ¬(x.mir.kitchen.turn = .training ∧ (k = 2 ∨ k = 3 ∨ k = 5 ∨ k = 6)) ∨ (k = 5 ∧ x.study.traceOn = true)

theorem doPlaceRegion_invalid {i : InstId} {c : MboxCmd} {s : State}
    (hbad : placeInvalid (prm c 0 1) (prm c 1 1) (prm c 8 8) (prm c 16 8) (prm c 24 8) = true) : doPlaceRegion i c s = (aInvalid, s) := by
  unfold doPlaceRegion regionOf
  dsimp only
  rw [if_pos hbad]

theorem doPlaceRegion_valid {i : InstId} {c : MboxCmd} {s : State}
    (hbad : placeInvalid (prm c 0 1) (prm c 1 1) (prm c 8 8) (prm c 16 8) (prm c 24 8) = false) :
    (placeWrong (getInst s i) (prm c 0 1) → doPlaceRegion i c s = (aWrong, s)) ∧
      (¬placeWrong (getInst s i) (prm c 0 1) → doPlaceRegion i c s =
        (aOk, modInst i (fun x => { x with place := { x.place with regions := put (prm c 0 1) (regionOf c) x.place.regions } }) s)) := by
  unfold doPlaceRegion regionOf placeWrong
  dsimp only
  rw [if_neg (by rw [hbad]; exact Bool.false_ne_true)]
  generalize prm c 0 1 = k
  refine ⟨fun hwrong => ?_, fun hright => ?_⟩
  · split
    · rfl
    · rename_i hfirst
      rw [if_pos]
      obtain ⟨hready, hnot⟩ | ⟨rfl, hon⟩ := hwrong
      · exact absurd (by simpa [hready, ← Decidable.imp_iff_not_or, and_assoc] using hnot) hfirst
      · simp [hon]
  · obtain ⟨hstage, htrace⟩ := not_or.mp hright
    rw [if_neg, if_neg]
    · simpa using htrace
    · simpa [or_assoc] using hstage

/-- A placement meets no undefined case but an overlap. -/
theorem placeCase_eq (s : State) (i : InstId) (c : MboxCmd) : placeCase s i c = none ∨ placeCase s i c = some 2 := by
  unfold placeCase
  dsimp only
  split
  · exact .inl rfl
  · split
    · exact .inr rfl
    · split
      · exact .inr rfl
      · exact .inl rfl

theorem placeWrong_startCmd (i : InstId) (c : MboxCmd) (k : Nat) (s : State) :
    placeWrong (getInst (startCmd i c s) i) k = placeWrong (getInst s i) k := by
  unfold placeWrong
  rw [hearth_startCmd, traceOn_startCmd, ← mir_eq, kitchen_startCmd]
  rfl

/-! ### DRIVE_RANGE -/

/-- What the board drive holds of a range that the instance takes up. -/
theorem useRange_eq (i : InstId) (r : Nat × Nat × Nat) (s : State) :
    (getInst (useRange i r s) i).place = (getInst s i).place ∧ mir (useRange i r s) i = mir s i ∧
      ((getInst s i).rel.disk.range = some r → useRange i r s = s) ∧
      ((getInst s i).rel.disk.range ≠ some r →
        (getInst (useRange i r s) i).rel.disk = ((s.board.find? (·.1 == r)).map (·.2)).getD { range := some r }) ∧
      (∀ q, (getInst s i).rel.disk.range = some q → q ≠ r → (q, (getInst s i).rel.disk) ∈ (useRange i r s).board) := by
  unfold useRange
  dsimp only
  by_cases hsame : ((getInst s i).rel.disk.range == some r) = true
  · rw [if_pos hsame]
    have hr := eq_of_beq hsame
    exact ⟨rfl, rfl, fun _ => rfl, fun hne => absurd hr hne, fun q hq hne => absurd (Option.some.inj (hq.symm.trans hr)) hne⟩
  · rw [if_neg hsame]
    have hne : (getInst s i).rel.disk.range ≠ some r := fun h => hsame (by rw [h]; exact beq_self_eq_true _)
    refine ⟨by cases i <;> rfl, by cases i <;> rfl, fun h => absurd h hne, fun _ => ?_, fun q hq hqr => ?_⟩
    · rw [getInst_modRel]
      dsimp only
      cases hold : (getInst s i).rel.disk.range with
      | none => rfl
      | some q =>
        have hqr : (q == r) = false := by
          rw [beq_eq_false_iff_ne]
          rintro rfl
          exact hne hold
        dsimp only
        rw [List.find?_cons_of_neg (by rw [hqr]; exact Bool.false_ne_true), List.find?_filter]
        congr 3
        funext p
        by_cases hp : p.1 == r
        · have : p.1 ≠ q := fun h => by rw [h, hqr] at hp; exact Bool.false_ne_true hp
          simp [hp, this]
        · simp [hp]
    · rw [hq]
      have : (q, (getInst s i).rel.disk) ∈ ((q, (getInst s i).rel.disk) :: s.board.filter (·.1 != q)).filter (·.1 != r) := by
        simp [hqr]
      cases i <;> exact this

/-! ### PAIRING -/

/-- Each outpost below `n` becomes what its function makes of it. -/
theorem getOutpost_foldl_modOutpost (g : Nat → Outpost → Outpost) (s : State) {p : Nat} (hp : p < s.outposts.length) (n : Nat) :
    ((List.range n).foldl (fun s o => modOutpost o (g o) s) s).outposts.length = s.outposts.length ∧
      getOutpost ((List.range n).foldl (fun s o => modOutpost o (g o) s) s) p = if p < n then g p (getOutpost s p) else getOutpost s p := by
  induction n with
  | zero => exact ⟨rfl, rfl⟩
  | succ n ih =>
    rw [List.range_succ, List.foldl_append, List.foldl_cons, List.foldl_nil]
    generalize (List.range n).foldl (fun s o => modOutpost o (g o) s) s = u at ih
    obtain ⟨hlen, hval⟩ := ih
    refine ⟨(modAt_length _ _ _).trans hlen, ?_⟩
    by_cases hpn : p = n
    · subst hpn
      rw [if_neg (Nat.lt_irrefl p)] at hval
      rw [if_pos (Nat.lt_succ_self p), ← hval]
      exact getD_modAt _ _ _ _ (by omega)
    · have hne : getOutpost (modOutpost n (g n) u) p = getOutpost u p := getD_modAt_ne _ _ _ _ _ hpn
      rw [hne, hval]
      exact Serving.ite_of_iff (by omega) rfl rfl

/-- What PAIRING makes of outpost `o`'s owner. -/
def pairOwner (i : InstId) (owns : Bool) (mask : BitVec 8) (o : Nat) (x : Outpost) : Outpost :=
  if owns && mask.getLsbD o then (if x.owner.isNone then { x with owner := some i } else x)
  else if x.owner == some i then { x with owner := none } else x

theorem owner_pairOwner (i : InstId) (owns : Bool) (mask : BitVec 8) (o : Nat) (x : Outpost) :
    (pairOwner i owns mask o x).owner = some i ↔ (owns && mask.getLsbD o) = true ∧ (x.owner = none ∨ x.owner = some i) := by
  unfold pairOwner
  by_cases htakes : (owns && mask.getLsbD o) = true
  · rw [if_pos htakes]
    cases hx : x.owner <;> simp [hx, htakes]
  · rw [if_neg htakes]
    simp only [htakes]
    split
    · simp
    · rename_i hnot
      simpa using hnot

/-- The outposts' owners after PAIRING. -/
def pairUps (i : InstId) (owns : Bool) (mask : BitVec 8) (s : State) : State :=
  (List.range 8).foldl (fun s o => modOutpost o (pairOwner i owns mask o) s) s

theorem pairUps_kept {α : Type} {g : State → α} (hg : ∀ (s : State) o f, g (modOutpost o f s) = g s) (i : InstId) (owns : Bool) (mask : BitVec 8) (s : State) :
    g (pairUps i owns mask s) = g s := Discovery.foldl_keeps (fun t o => hg t o _) _ s

/-- The state that PAIRING leaves. -/
def paired (i : InstId) (split : Bool) (mask : BitVec 8) (s : State) : State :=
  modInst i (fun x => { x with place := { x.place with pairingGiven := true, split := split, outposts := mask } }) (pairUps i (dawnActive s i split) mask s)

theorem doPairing_eq {i : InstId} {c : MboxCmd} {s : State} (hmode : prm c 0 1 ≤ 1)
    (hset : setOk (prm c 0 1 == 1) (BitVec.ofNat 8 (prm c 1 1))
      (if (getInst s (Machine.other i)).place.pairingGiven then (getInst s (Machine.other i)).place.outposts else 0) = true) :
    doPairing i c s = (aOk, paired i (prm c 0 1 == 1) (BitVec.ofNat 8 (prm c 1 1)) s) := by
  unfold doPairing
  dsimp only
  rw [if_neg (by rw [hset]; simp [hmode])]
  rfl

theorem getInst_pairUps (i j : InstId) (owns : Bool) (mask : BitVec 8) (s : State) : getInst (pairUps i owns mask s) j = getInst s j :=
  pairUps_kept (g := fun s => getInst s j) (fun _ _ _ => rfl) i owns mask s

theorem paired_kept (i : InstId) (split : Bool) (mask : BitVec 8) (s : State) :
    (getInst (paired i split mask s) i).place = { (getInst s i).place with pairingGiven := true, split := split, outposts := mask } ∧
      (paired i split mask s).tick = s.tick ∧ (paired i split mask s).host = s.host ∧ (paired i split mask s).hbm = s.hbm ∧
      getInst (paired i split mask s) (Machine.other i) = getInst s (Machine.other i) := by
  refine ⟨?_, ?_, ?_, ?_, ?_⟩
  · rw [paired, getInst_modInst, getInst_pairUps]
  · rw [paired, modInst_tick]
    exact pairUps_kept (fun _ _ _ => rfl) i _ mask s
  · rw [paired, modInst_host]
    exact pairUps_kept (fun _ _ _ => rfl) i _ mask s
  · rw [paired, modInst_hbm]
    exact pairUps_kept (fun _ _ _ => rfl) i _ mask s
  · rw [paired, getInst_modInst_other, getInst_pairUps]

theorem owner_paired (i : InstId) (split : Bool) (n : Nat) (s : State) {o : Nat} (ho : o < 8) (hlen : o < s.outposts.length) :
    (getOutpost (paired i split (BitVec.ofNat 8 n) s) o).owner = some i ↔ dawnActive s i split = true ∧ n.testBit o = true ∧
      ((getOutpost s o).owner = none ∨ (getOutpost s o).owner = some i) := by
  have hval := (getOutpost_foldl_modOutpost (pairOwner i (dawnActive s i split) (BitVec.ofNat 8 n)) s hlen 8).2
  have hout : getOutpost (paired i split (BitVec.ofNat 8 n) s) o = getOutpost (pairUps i (dawnActive s i split) (BitVec.ofNat 8 n) s) o := by
    cases i <;> rfl
  rw [hout, pairUps, hval, if_pos ho, owner_pairOwner, Bool.and_eq_true_iff, BitVec.getLsbD_ofNat]
  simp [ho, and_assoc]

/-! ### HOST_TRIMS and DAWN_COMPLETE -/

theorem applyTrims_eq (i : InstId) (es : List (Nat × Nat × Nat × Nat)) (s : State) :
    (applyTrims i es s).calib = (es.filter trimKnown).foldl (fun l e => trimOne (trimPart i e.1, e.2) l) s.calib ∧
      mir (applyTrims i es s) i = mir s i ∧ (applyTrims i es s).tick = s.tick := by
  cases i <;> exact ⟨rfl, rfl, rfl⟩

/-- An outpost of the instance is to run its self-test. -/
def selftested (i : InstId) (t : State) (o : Nat) : State := modOutpost o (fun y => if y.owner == some i then { y with selftest := true } else y) t

/-- The state in which DISCOVERY begins: the firmware's copy written, the self-tests of the instance's outposts asked for. -/
def dawned (i : InstId) (s : State) : State :=
  let t := setStage i .discovery (copyFirmware i s)
  (outpostSet t i).foldl (selftested i) t

theorem doDawnComplete_eq {i : InstId} {c : MboxCmd} {s : State} (hplaced : placed (getInst s i).place = true)
    (hroom : 0x1000000 ≤ arrivalBytes (getInst s i)) : doDawnComplete i c s = (.later, startDiscovery i (.dawn c.id) (dawned i s)) := by
  unfold doDawnComplete
  dsimp only
  rw [if_neg (by simp [hplaced]), if_neg (Nat.not_lt.mpr hroom)]
  rfl

theorem dawned_eq (i : InstId) (s : State) :
    let b := (slotOf s.flash (getInst s i).hearth.slot).getD []
    (getInst (dawned i s) i).hearth = { (getInst s i).hearth with stage := .discovery, cellarCopy := true } ∧
      mir (dawned i s) i = { mir s i with irq := (mir (dawned i s) i).irq } ∧ (mir (dawned i s) i).irq.hearth = true ∧
      (dawned i s).hbm = memPuts s.hbm (copyBase (getInst s i)) (slice b 0 (fld b 8 4)) := by
  intro b
  let t := setStage i .discovery (copyFirmware i s)
  have hinst : getInst (dawned i s) i = getInst t i := Discovery.foldl_keeps (g := fun u => getInst u i) (f := selftested i) (fun _ _ => rfl) _ t
  have hhbm : (dawned i s).hbm = t.hbm := Discovery.foldl_keeps (g := State.hbm) (f := selftested i) (fun _ _ => rfl) _ t
  refine ⟨by rw [hinst]; cases i <;> rfl, ?_, ?_, by rw [hhbm]; cases i <;> rfl⟩
  · rw [mir_eq, hinst]
    cases i <;> rfl
  · rw [mir_eq, hinst]
    show (getInst (raiseIrq i irqHearth _) i).mir.irq.hearth = true
    rw [getInst_raiseIrq]
    exact irqHearth_raised _

/-- Settles O23: each command's own function, on the state in which the command has been started. -/
theorem dawnCommands : Obligations.DawnCommands := by
  unfold Obligations.DawnCommands
  refine ⟨fun i w s c => ⟨fun h => ?_, fun h => ?_, fun h => ?_⟩, fun i w s c => ⟨fun h hmode hset => ?_, fun table h hfew => ?_, fun h hplaced hroom => ?_⟩⟩
  · intro k bad wrong
    have hrow : exec (.placeRegion i w) s = serve i w 0x01 (placeCase s i) (doPlaceRegion i) s := rfl
    have hwrong : placeWrong (getInst (startCmd i c s) i) k = wrong := placeWrong_startCmd i c k s
    have hmay : mayRefuse i w 0x01 (placeCase s i) s c = true := by
      rw [mayRefuse, h]
      obtain hc | hc := placeCase_eq s i c <;> rw [hc] <;> rfl
    refine ⟨fun hbad => refuses_of_mayRefuse hrow hmay (doPlaceRegion_invalid hbad) rfl,
      fun hbad hw => refuses_of_mayRefuse hrow hmay ((doPlaceRegion_valid hbad).1 (by rw [hwrong]; exact hw)) rfl, fun hbad hr => ?_⟩
    have hok := (doPlaceRegion_valid (s := startCmd i c s) hbad).2 (by rw [hwrong]; exact hr)
    refine ⟨fun n hn => hrow.trans (serve_stops h hn (.inr (by rw [hok]; rfl))), fun hn => ?_⟩
    exact ⟨_, by rw [hrow, serve_of_caseMet_none h (by rw [hn]; rfl), hok], rfl⟩
  · intro r
    let t := modInst i (fun x => { x with place := { x.place with drive := some r } }) (startCmd i c s)
    have hrel : (getInst t i).rel = (getInst s i).rel := by cases i <;> rfl
    have hboard : t.board = s.board := by cases i <;> rfl
    obtain ⟨hplace, hmir, hsame, hnew, hold⟩ := useRange_eq i r t
    rw [hrel] at hsame hnew hold
    rw [hboard] at hnew
    refine answers_of_starts (f := doDriveRange i) (after := fun v => v) (v := useRange i r t) rfl h rfl ⟨?_, ?_, fun hr => ?_, hnew, hold⟩
    · rw [hplace]
      cases i <;> rfl
    · rw [hmir]
      cases i <;> rfl
    · rw [hsame hr, hrel, hboard]
      exact ⟨rfl, rfl⟩
  · exact answers_of_starts rfl h rfl rfl
  · have hother : getInst (startCmd i c s) (Machine.other i) = getInst s (Machine.other i) := getInst_startCmd_other i c s
    obtain ⟨hplace, htick, hhost, hhbm, hout⟩ := paired_kept i (prm c 0 1 == 1) (BitVec.ofNat 8 (prm c 1 1)) (startCmd i c s)
    refine answers_of_starts rfl h (doPairing_eq hmode (by rw [hother]; exact hset)) ⟨?_, ?_, ?_, hhbm, ?_, fun o ho hlen => ?_⟩
    · rw [hplace, place_startCmd]
    · rw [htick, startCmd_tick]
    · rw [hhost, startCmd_host]
    · rw [hout, hother]
    · rw [owner_paired i _ _ _ ho (by rw [startCmd_outposts]; exact hlen), getOutpost, startCmd_outposts]
      cases i <;> exact Iff.rfl
  · intro es known
    have hdo : doHostTrims i table c (startCmd i c s) = (.now rOk 0 (leBytes 4 known ++ leBytes 4 (es.length - known)), applyTrims i es (startCmd i c s)) := by
      unfold doHostTrims
      dsimp only
      rw [if_neg (Nat.not_lt.mpr hfew)]
    obtain ⟨hcalib, hmir, htick⟩ := applyTrims_eq i es (startCmd i c s)
    exact answers_of_starts rfl h hdo ⟨by rw [hcalib, calib_startCmd], hmir, by rw [htick, startCmd_tick]⟩
  · intro b
    have hplaced' : placed (getInst (startCmd i c s) i).place = true := by rw [place_startCmd]; exact hplaced
    have hroom' : 0x1000000 ≤ arrivalBytes (getInst (startCmd i c s) i) := by cases i <;> exact hroom
    have hdawned := dawned_eq i (startCmd i c s)
    rw [startCmd_flash, hearth_startCmd, startCmd_hbm] at hdawned
    obtain ⟨hhearth, hmir, hirq, hhbm⟩ := hdawned
    refine ⟨dawned i (startCmd i c s), ?_, hhearth, hmir, hirq, ?_⟩
    · show serve i w 0x06 noCase (doDawnComplete i) s = _
      rw [serve_of_starts h, doDawnComplete_eq hplaced' hroom']
    · rw [hhbm, copyBase, place_startCmd]
      rfl

end Sys2Proof.DawnSet

/-! SUPPORT. The life of a context (spec/14 R300-R302, R331, spec/03 R66, R67). -/

namespace Sys2Proof.ContextLifes

open Sys2Proof Sys2Proof.Machine Sys2Proof.Laws Sys2Proof.Serving Sys2Proof.Closers Sys2Proof.Tracing

/-! ### A command's result -/

/-- A result entry is written into the mailbox's own state: the journal of commands, the windows, the interrupts, the command's Dusk entry. -/
def ResultOnly (i : InstId) (s t : State) : Prop :=
  mir t i = { mir s i with mbox := (mir t i).mbox, windows := (mir t i).windows, irq := (mir t i).irq, dusk := (mir t i).dusk }

theorem ResultOnly.refl (i : InstId) (s : State) : ResultOnly i s s := rfl

theorem ResultOnly.trans {i : InstId} {s t u : State} (h : ResultOnly i s t) (k : ResultOnly i t u) : ResultOnly i s u := by
  unfold ResultOnly at h k ⊢
  rw [k, h]

theorem resultOnly_of_irqOnly {i : InstId} {s t : State} (h : IrqOnly i s t) : ResultOnly i s t := by
  unfold ResultOnly
  rw [h]

theorem pushResult_resultOnly (i : InstId) (w : Nat) (irq : Bool) (e : ResultEntry) (s : State) : ResultOnly i s (pushResult i w irq e s) := by
  cases irq <;> cases i <;> rfl

theorem duskDrop_resultOnly (i : InstId) (list handle : Nat) (s : State) : ResultOnly i s (duskDrop i list handle s) := by cases i <;> rfl

theorem ringPush_resultOnly (i : InstId) (ring unit event object : Nat) (payload : List Nat) (s : State) :
    ResultOnly i s (ringPush i ring unit event object payload s) := by cases i <;> rfl

theorem takenOut_resultOnly (i : InstId) (id : Nat) (s : State) : ResultOnly i s (modMir i (fun m => { m with mbox := m.mbox.filter (·.id != id) }) s) := by
  cases i <;> rfl

theorem finishCmd_resultOnly (i : InstId) (id result detail : Nat) (data : List Byte) (s : State) :
    ResultOnly i s (finishCmd i id result detail data s) := by
  unfold finishCmd
  split
  · exact .refl i s
  · rename_i c _
    have hlatched := (resultOnly_of_irqOnly (commandLatch_irqOnly 1 c.window c.code c.cookie (IrqOnly.refl i s))).trans (takenOut_resultOnly i id _)
    cases c.timer with
    | none => exact hlatched.trans ((ringPush_resultOnly i _ _ _ _ _ _).trans (pushResult_resultOnly i _ _ _ _))
    | some h => exact (hlatched.trans (duskDrop_resultOnly i 3 h _)).trans ((ringPush_resultOnly i _ _ _ _ _ _).trans (pushResult_resultOnly i _ _ _ _))

theorem foldl_resultOnly {α : Type} {i : InstId} {f : State → α → State} (hf : ∀ u x, ResultOnly i u (f u x)) :
    ∀ (l : List α) (t : State), ResultOnly i t (l.foldl f t)
  | [], t => .refl i t
  | x :: l, t => (hf t x).trans (foldl_resultOnly hf l (f t x))

/-! ### Class-0 reservation -/

/-- The state with the class-0 reservation changed. -/
def reserved (i : InstId) (seqs pages : Nat) (s : State) : State :=
  journalObj i (.class0 seqs pages) (modFoyer i (fun f => { f with c0Sequences := seqs, c0Pages := pages }) s)

theorem doClass0Reserve_invalid {i : InstId} {c : MboxCmd} {s : State} (hmany : 1024 < prm c 0 2) : doClass0Reserve i c s = (aInvalid, s) :=
  if_pos hmany

theorem doClass0Reserve_eq {i : InstId} {c : MboxCmd} {s : State} (hfew : prm c 0 2 ≤ 1024) : doClass0Reserve i c s =
    if reserveOk (getInst s i) (prm c 0 2) (prm c 4 4) = false then (aWrong, s)
    else (aOk, foyerRound i (coolExcess i (hotCount (mir (reserved i (prm c 0 2) (prm c 4 4) s) i)) (reserved i (prm c 0 2) (prm c 4 4) s))) := by
  unfold doClass0Reserve
  dsimp only
  rw [if_neg (Nat.not_lt.mpr hfew)]
  simp only [Bool.not_eq_true']
  rfl

theorem reserveOk_startCmd (i : InstId) (c : MboxCmd) (seqs pages : Nat) (s : State) :
    reserveOk (getInst (startCmd i c s) i) seqs pages = reserveOk (getInst s i) seqs pages := by cases i <;> rfl

/-! ### Opening and configuring -/

theorem freeArrivals_seqs (i : InstId) (l : List (Nat × Nat)) (s : State) : (mir (ContextOpen.freeArrivals i l s) i).seqs = (mir s i).seqs :=
  Discovery.foldl_keeps (g := fun t => (mir t i).seqs) (f := fun t (p : Nat × Nat) => freeArrival i p.2 t) (fun t p => by cases i <;> rfl) l s

theorem doContextConfigure_eq {i : InstId} {c : MboxCmd} {s : State} (hvalid : configureInvalid c = false) : doContextConfigure i c s =
    if (mir s i).kitchen.turn = .evening ∨ (mir s i).dir.models.any (·.stage == .armed) = true then (aWrong, s)
    else (aOk, foyerRound i (deferTimer i (winCtx c.window) (journalCtx i (winCtx c.window) (modCtx i (winCtx c.window) (configured c) s)))) := by
  unfold doContextConfigure
  dsimp only
  rw [if_neg (by rw [hvalid]; exact Bool.false_ne_true)]
  simp only [Bool.or_eq_true, beq_iff_eq]

/-! ### Closing and querying -/

/-- What follows on a close that has begun: the cancels of `qs`, if all are to end, and the defer queue's rejection. -/
def closeAfter (i : InstId) (k : Nat) (all : Bool) (qs : List Machine.Seq) (v : State) : State :=
  postUnit i k (.context 2) (deferTimer i k (rejectDeferred i k 32 (fun _ => true)
    (if all then qs.foldl (fun v q => postSeq i q.r.localId (.cancel none) v) v else v)))

theorem doContextClose_eq (i : InstId) (c : MboxCmd) (s : State) : doContextClose i c s =
    if tbit (prm c 0 4) 0 = false ∧ seqsOfCtx (mir s i) (winCtx c.window) ≠ [] then (aWrong, s)
    else (.later, closeAfter i (winCtx c.window) (tbit (prm c 0 4) 0) ((seqsOfCtx (mir s i) (winCtx c.window)).filter cancellable)
      (modCtx i (winCtx c.window) (fun x => { x with closing := true }) s)) := by
  unfold doContextClose
  dsimp only
  refine Serving.ite_of_iff ?_ rfl rfl
  simp

/-- A context that is closed holds its place and nothing more. -/
theorem exec_contextCloseDone {i : InstId} {k : Nat} {s : State} (hact : activeInst s i = true) (hready : closeReady (mir s i) k = true)
    (hcloses : closesOf (mir s i) k ≠ []) :
    exec (.contextCloseDone i k) s = done i s (journalCtx i k (modCtx i k (fun x => { x with isOpen := false, closing := false, cqHold := false })
      ((closesOf (mir s i) k).foldl (fun t x => finishCmd i x.id rOk 0 [] t) s))) := by
  show execContextCloseDone i k s = _
  unfold execContextCloseDone
  dsimp only
  rw [if_neg (by simp only [hact, hready]; simpa using hcloses)]

theorem doContextQuery_eq (i : InstId) (c : MboxCmd) (s : State) : doContextQuery i c s =
    if prm c 0 8 % 64 ≠ 0 then (aInvalid, s) else (aOk, hbmPut (prm c 0 8) (acctBytes (mir s i) (winCtx c.window)) s) := by
  unfold doContextQuery outputOk
  dsimp only
  refine Serving.ite_of_iff ?_ rfl rfl
  simp

/-- Settles O24: each command's own function, with its refusals in order. -/
theorem contextLife : Obligations.ContextLife := by
  unfold Obligations.ContextLife
  intro i w s c
  refine ⟨fun h => ⟨fun hmany => refuses_of_starts rfl h (doClass0Reserve_invalid hmany), fun hfew hno => ?_, fun hfew hok => ?_⟩,
    fun h => ?_, fun h => ?_, fun h => ?_, fun k hact hready hcloses => goes_done (exec_contextCloseDone hact hready hcloses) ?_,
    fun h halign => ?_, fun h halign hcase => ?_, fun h halign => ?_⟩
  · exact refuses_of_starts rfl h ((doClass0Reserve_eq hfew).trans (if_pos (by rw [reserveOk_startCmd, hno])))
  · refine answers_of_starts (after := fun v => foyerRound i (coolExcess i (hotCount (mir v i)) v)) rfl h
      ((doClass0Reserve_eq hfew).trans (if_neg (by rw [reserveOk_startCmd, hok]; exact Bool.noConfusion))) ?_
    cases i <;> rfl
  · obtain rfl := window_of_starts h
    have hopen' : (getCtx (mir (startCmd i c s) i) (winCtx c.window)).isOpen = (getCtx (mir s i) (winCtx c.window)).isOpen :=
      getCtx_startCmd (g := Ctx.isOpen) (fun _ _ => rfl) i c _ s
    refine ⟨fun hbad => refuses_of_starts rfl h (if_pos hbad), fun hvalid hopen => refuses_of_starts rfl h ?_, fun hvalid hshut => ?_⟩
    · exact (if_neg (by rw [hvalid]; exact Bool.false_ne_true)).trans (if_pos (hopen'.trans hopen))
    · obtain ⟨hctxs, hwindows, hcq, hmb⟩ := ContextOpen.mir_opened i c (startCmd i c s)
      have hseqs : (mir (ContextOpen.opened i c (startCmd i c s)) i).seqs = (mir (startCmd i c s) i).seqs := by
        rw [← freeArrivals_seqs i (getCtx (mir (startCmd i c s) i) (winCtx c.window)).arrivalDue (startCmd i c s)]
        cases i <;> rfl
      refine answers_of_starts (after := fun v => foyerRound i (journalCtx i (winCtx c.window) v)) rfl h
        (ContextOpen.doContextOpen_eq hvalid (hopen'.trans hshut)) ⟨hctxs, ?_, ?_, ?_, ?_⟩
      · rw [hcq, mir_startCmd]
      · rw [hmb, mir_startCmd]
      · rw [hseqs, mir_startCmd]
      · rw [hwindows, mir_startCmd]
  · obtain rfl := window_of_starts h
    intro late
    refine ⟨fun hbad => refuses_of_starts rfl h (if_pos hbad), fun hvalid hlate => ?_, fun hvalid hearly => ?_⟩
    · exact refuses_of_starts rfl h ((doContextConfigure_eq hvalid).trans (if_pos (by rw [mir_startCmd]; exact hlate)))
    · refine answers_of_starts (after := fun v => foyerRound i (deferTimer i (winCtx c.window) (journalCtx i (winCtx c.window) v))) rfl h
        ((doContextConfigure_eq hvalid).trans (if_neg (by rw [mir_startCmd]; exact hearly))) ?_
      rw [mir_eq, getInst_modCtx]
      rfl
  · obtain rfl := window_of_starts h
    intro all qs
    have hseqs : seqsOfCtx (mir (startCmd i c s) i) (winCtx c.window) = seqsOfCtx (mir s i) (winCtx c.window) := by rw [mir_startCmd]; rfl
    have hdo := doContextClose_eq i c (startCmd i c s)
    rw [hseqs] at hdo
    refine ⟨fun hall hsome => refuses_of_starts rfl h (hdo.trans (if_pos ⟨hall, hsome⟩)), fun hmay => ?_⟩
    refine answers_of_starts (after := closeAfter i (winCtx c.window) all qs) rfl h (hdo.trans (if_neg ?_)) rfl
    rintro ⟨hall, hsome⟩
    obtain htrue | hnone := hmay
    · exact absurd (htrue.symm.trans hall) Bool.noConfusion
    · exact hsome hnone
  · have hkept := foldl_resultOnly (i := i) (fun u x => finishCmd_resultOnly i x.id rOk 0 [] u) (closesOf (mir s i) k) s
    rw [mir_eq, mirrorOut_mir, journalCtx, journalObj, journal, getInst_modRel, getInst_modCtx, ← mir_eq]
    dsimp only
    rw [hkept]
    exact ⟨rfl, rfl⟩
  · exact refuses_of_mayRefuse rfl h ((doContextQuery_eq i c _).trans (if_pos halign)) rfl
  · obtain hnone | htwo : outCase s 0 128 c = none ∨ outCase s 0 128 c = some 2 := by
      unfold outCase
      split
      · exact .inr rfl
      · exact .inl rfl
    · exact absurd hnone hcase
    · exact serve_stops h htwo (.inr (by rw [doContextQuery_eq, if_neg (by simpa using halign)]; rfl))
  · obtain rfl := window_of_starts h
    exact answers_of_starts (after := fun v => v) rfl h ((doContextQuery_eq i c _).trans (if_neg (by simpa using halign))) rfl

end Sys2Proof.ContextLifes

/-! SUPPORT. The numbers of the undefined cases (spec/00 R12) that each case function can answer. -/

namespace Sys2Proof.Cases

open Sys2Proof Sys2Proof.Machine Sys2Proof.Laws

/-- A case, if there is one, is among `l`. -/
def Among (l : List Nat) (o : Option Nat) : Prop := ∀ n, o = some n → n ∈ l

variable {l : List Nat} {o p : Option Nat}

theorem among_none : Among l none := fun _ h => nomatch h

theorem among_some {n : Nat} (h : n ∈ l) : Among l (some n) := fun _ hn => Option.some.inj hn ▸ h

theorem among_ite {q : Prop} [Decidable q] (ho : Among l o) (hp : Among l p) : Among l (if q then o else p) := by
  split
  · exact ho
  · exact hp

theorem among_or (ho : Among l o) (hp : Among l p) : Among l (o.or p) := by
  cases o with
  | none => exact hp
  | some n => exact ho

theorem among_bind {α : Type} {o : Option α} {f : α → Option Nat} (hf : ∀ x, Among l (f x)) : Among l (o.bind f) := by
  cases o with
  | none => exact among_none
  | some x => exact hf x

theorem among_findSome {α : Type} {f : α → Option Nat} (hf : ∀ x, Among l (f x)) (xs : List α) : Among l (xs.findSome? f) := by
  induction xs with
  | nil => exact among_none
  | cons x xs ih =>
    rw [List.findSome?_cons]
    split
    · rename_i n hn
      exact among_some (hf x n hn)
    · exact ih

theorem Among.mono {k : List Nat} (h : Among l o) (hsub : ∀ n ∈ l, n ∈ k) : Among k o := fun n hn => hsub n (h n hn)

/-! ### Parameters and payloads -/

theorem tooWide_among (v n : Nat) : Among [12] (tooWide v n) := among_ite among_none (among_some (by decide))
theorem overId_among (v n : Nat) : Among [13] (overId v n) := among_ite among_none (among_some (by decide))
theorem reservedCase_among (bad : Bool) : Among [12] (reservedCase bad) := among_ite (among_some (by decide)) among_none

theorem tokenCase_among (vocab : Nat) (ts : List Nat) : Among [12, 13] (tokenCase vocab ts) :=
  among_ite (among_some (by decide)) (among_ite (among_some (by decide)) among_none)

/-! ### Buffers -/

theorem regionCase_among (x : Inst) (k : Nat) : Among [4, 6] (regionCase x k) :=
  among_ite (among_some (by decide)) (among_ite (among_ite among_none (among_some (by decide))) (among_ite (among_some (by decide)) among_none))

theorem hostWriteCase_among (s : State) (a : Nat) (bs : List Byte) : Among [4, 5, 6, 7] (hostWriteCase s a bs) := by
  unfold hostWriteCase
  dsimp only
  split
  · rename_i n hn
    refine among_some ?_
    refine Among.mono (l := [4, 6]) (among_findSome (fun x => among_findSome (fun p => ?_) _) _) (by decide) n hn
    exact among_ite (regionCase_among x p.1) among_none
  · exact among_ite (among_some (by decide)) (among_ite among_none (among_ite (among_some (by decide)) (among_ite (among_some (by decide)) among_none)))

theorem outCase_among (s : State) (off n : Nat) (c : MboxCmd) : Among [2] (outCase s off n c) := among_ite (among_some (by decide)) among_none

/-! ### The mailbox commands -/

/-- Every number that a command can stop at. -/
def stops : List Nat := [2, 3, 4, 5, 6, 7, 8, 10, 11, 12, 13]

/-- A case that may be any. -/
abbrev Stops (o : Option Nat) : Prop := Among stops o

theorem hostWriteCase_stops (s : State) (a : Nat) (bs : List Byte) : Stops (hostWriteCase s a bs) := (hostWriteCase_among s a bs).mono (by decide)
theorem tooWide_stops (v n : Nat) : Stops (tooWide v n) := (tooWide_among v n).mono (by decide)
theorem overId_stops (v n : Nat) : Stops (overId v n) := (overId_among v n).mono (by decide)
theorem tokenCase_stops (vocab : Nat) (ts : List Nat) : Stops (tokenCase vocab ts) := (tokenCase_among vocab ts).mono (by decide)
theorem reservedCase_stops (bad : Bool) : Stops (reservedCase bad) := (reservedCase_among bad).mono (by decide)
theorem outCase_stops (s : State) (off n : Nat) (c : MboxCmd) : Stops (outCase s off n c) := (outCase_among s off n c).mono (by decide)
theorem stop_if {q : Prop} [Decidable q] {n : Nat} (h : n ∈ stops) (ho : Stops o) : Stops (if q then some n else o) := among_ite (among_some h) ho
theorem stop_unless {q : Prop} [Decidable q] {n : Nat} (h : n ∈ stops) (ho : Stops o) : Stops (if q then o else some n) := among_ite ho (among_some h)

/-- A recipe's image: no overlap, since it is not given to Shapa. -/
theorem recipeCase_among (s : State) (i : InstId) (img : List Byte) (c : MboxCmd) : Among [3, 4, 5, 6, 7, 12, 13] (recipeCase s i img c) := by
  unfold recipeCase
  dsimp only
  exact among_ite (among_some (by decide)) (among_ite among_none (among_ite ((hostWriteCase_among s _ _).mono (by decide))
    (among_ite (among_some (by decide)) (among_ite (among_some (by decide)) among_none))))

theorem undefineCase_among (x : Inst) (c : MboxCmd) : Among [3, 13] (undefineCase x c) :=
  among_ite (among_some (by decide)) (among_ite (among_some (by decide)) among_none)

theorem planCase_among (s : State) (c : MboxCmd) : Among [2] (planCase s c) := among_ite (among_some (by decide)) among_none

theorem cancelCase_among (c : MboxCmd) : Among [13] (cancelCase c) := by
  unfold cancelCase
  split
  · exact overId_among _ _
  · exact overId_among _ _
  · exact among_none

theorem orderCase_among (wake : Bool) (c : MboxCmd) : Among [12] (orderCase wake c) :=
  among_or (tooWide_among _ _) (among_or (tooWide_among _ _) (among_ite (tooWide_among _ _) among_none))

theorem extendCase_among (s : State) (i : InstId) (toks : List Nat) (c : MboxCmd) : Among [4, 5, 6, 7, 12, 13] (extendCase s i toks c) := by
  unfold extendCase
  refine among_or ((tooWide_among _ _).mono (by decide)) ?_
  split
  · exact among_ite among_none (among_or ((hostWriteCase_among _ _ _).mono (by decide)) ((tokenCase_among _ _).mono (by decide)))
  · exact among_none

theorem queryCase_among (s : State) (c : MboxCmd) : Among [2, 12] (queryCase s c) :=
  among_or ((tooWide_among _ _).mono (by decide)) ((outCase_among s _ _ _).mono (by decide))

theorem describeCase_among (s : State) (desc : List Byte) (c : MboxCmd) : Among [4, 5, 6, 7, 12] (describeCase s desc c) :=
  among_or ((hostWriteCase_among _ _ _).mono (by decide)) (among_or ((tooWide_among _ _).mono (by decide))
    (among_or ((tooWide_among _ _).mono (by decide)) (among_ite among_none (among_some (by decide)))))

theorem stageCase_among (s : State) (desc : List Byte) (c : MboxCmd) : Among [4, 5, 6, 7, 12] (stageCase s desc c) :=
  among_or ((hostWriteCase_among _ _ _).mono (by decide)) (among_or ((tooWide_among _ _).mono (by decide)) (among_ite among_none (among_some (by decide))))

theorem trimsCase_among (s : State) (table : List Byte) (c : MboxCmd) : Among [4, 5, 6, 7, 12] (trimsCase s table c) :=
  among_ite among_none (among_or ((hostWriteCase_among _ _ _).mono (by decide)) (among_ite (among_some (by decide)) among_none))

theorem imageCase_among (s : State) (img : List Byte) (c : MboxCmd) : Among [4, 5, 6, 7, 12] (imageCase s img c) :=
  among_or ((tooWide_among _ _).mono (by decide)) (among_ite among_none ((hostWriteCase_among _ _ _).mono (by decide)))

theorem directionsCase_among (s : State) (list : List Byte) (c : MboxCmd) : Among [4, 5, 6, 7, 12, 13] (directionsCase s list c) :=
  among_or ((overId_among _ _).mono (by decide)) (among_or (among_ite among_none ((hostWriteCase_among _ _ _).mono (by decide)))
    (among_ite (among_some (by decide)) among_none))

theorem watchCase_among (s : State) (c : MboxCmd) : Among [2, 12] (watchCase s c) :=
  among_or ((tooWide_among _ _).mono (by decide)) ((outCase_among s _ _ _).mono (by decide))

theorem migrateCase_among (c : MboxCmd) : Among [12] (migrateCase c) := among_or (tooWide_among _ _) (among_or (tooWide_among _ _) (tooWide_among _ _))

/-! ### Starting a command whose case is known -/

variable {i : InstId} {w code : Nat} {bad : MboxCmd → Option Nat} {f : MboxCmd → State → Answer × State} {s : State} {c : MboxCmd}

/-- No case is met. -/
theorem starts_of_noCase (h : starts i w code noCase s c = true) (hbad : bad c = none) : starts i w code bad s c = true := by
  obtain ⟨hnext, hwin, hcode, hspec, _⟩ := Serving.starts_iff.mp h
  exact Serving.starts_iff.mpr ⟨hnext, hwin, hcode, hspec, hbad⟩

theorem mayRefuse_of_noCase (h : starts i w code noCase s c = true) (hbad : Among [2] (bad c)) : mayRefuse i w code bad s c = true := by
  rw [mayRefuse, h, Bool.true_and, Bool.or_eq_true_iff]
  cases hc : bad c with
  | none => exact .inl rfl
  | some n =>
    have hn : n = 2 := by simpa using hbad n hc
    exact .inr (by rw [hn]; rfl)

/-- A case other than an overlap stops the command. -/
theorem stopsAt_of_case {cmd : Instr} {n : Nat} (hrow : exec cmd s = serve i w code bad f s) (h : starts i w code noCase s c = true)
    (hbad : bad c = some n) (hn : n ≠ 2) : StopsAt cmd s n := hrow.trans (Serving.serve_stops h hbad (.inl hn))

/-- An overlap stops the command that acts. -/
theorem stopsAt_of_overlap {cmd : Instr} {n : Nat} (hrow : exec cmd s = serve i w code bad f s) (h : starts i w code noCase s c = true)
    (hbad : bad c = some n) (hacts : (f c (startCmd i c s)).1.refuses = false) : StopsAt cmd s n :=
  hrow.trans (Serving.serve_stops h hbad (.inr hacts))

end Sys2Proof.Cases

/-! SUPPORT. Recipes and plans (spec/14 R303, spec/10 R215, R216): each command's function, case by case, and the end of a fetch. -/

namespace Sys2Proof.RecipesPlans

open Sys2Proof Sys2Proof.Machine Sys2Proof.Laws Sys2Proof.Serving Sys2Proof.Cases

variable {i : InstId} {c : MboxCmd} {s : State}

/-! ### Recipes -/

/-- The image is one that the command may define. -/
def recipeFits (c : MboxCmd) (img : List Byte) : Prop := prm c 8 8 % 64 = 0 ∧ recipeOk (prm c 0 2) (slice img 0 recipeBytes) = true

theorem doRecipeDefine_unfit {img : List Byte} (h : ¬recipeFits c img) : doRecipeDefine i img c s = (aInvalid, s) := by
  refine if_pos ?_
  rw [Bool.or_eq_true_iff, bne_iff_ne]
  by_cases halign : prm c 8 8 % 64 = 0
  · exact .inr (by simpa using fun hok => h ⟨halign, hok⟩)
  · exact .inl halign

theorem doRecipeDefine_fit {img : List Byte} (h : recipeFits c img) : doRecipeDefine i img c s =
    (aOk, foyerRound i (journalObj i (.recipe (prm c 0 2) (some (parseRecipe (prm c 0 2) (slice img 0 recipeBytes))))
      (modMir i (fun m => { m with recipes := recipePut (parseRecipe (prm c 0 2) (slice img 0 recipeBytes)) m.recipes }) s))) := by
  obtain ⟨halign, hok⟩ := h
  refine if_neg ?_
  rw [hok, halign]
  exact Bool.false_ne_true

theorem doRecipeUndefine_eq : doRecipeUndefine i c s =
    if findRecipe (mir s i) (prm c 0 2) = none then (aNotFound, s)
    else if recipeNamed (mir s i) (prm c 0 2) = true then (aWrong, s)
    else (aOk, journalObj i (.recipe (prm c 0 2) none) (modMir i (fun m => { m with recipes := m.recipes.filter (·.id != prm c 0 2) }) s)) := by
  unfold doRecipeUndefine
  dsimp only
  exact Serving.ite_of_iff Option.isNone_iff_eq_none rfl rfl

theorem any_modAt {α : Type} {p : α → Bool} {f : α → α} (hp : ∀ x, p (f x) = p x) : ∀ (l : List α) (k : Nat), (modAt l k f).any p = l.any p
  | [], _ => rfl
  | x :: xs, 0 => congrArg (· || xs.any p) (hp x)
  | x :: xs, k + 1 => congrArg (p x || ·) (any_modAt hp xs k)

/-- A command's start changes of a context its account alone. -/
theorem any_waited {p : Ctx → Bool} (hp : ∀ x a, p { x with acct := a } = p x) (c : MboxCmd) (s : State) (l : List Ctx) :
    (waited c s l).any p = l.any p := any_modAt (fun x => hp x _) l _

theorem named_startCmd (i : InstId) (c : MboxCmd) (s : State) (id : Nat) :
    findRecipe (mir (startCmd i c s) i) id = findRecipe (mir s i) id ∧ recipeNamed (mir (startCmd i c s) i) id = recipeNamed (mir s i) id := by
  refine ⟨by rw [mir_startCmd]; rfl, ?_⟩
  rw [mir_startCmd]
  exact congrArg (_ || ·) (any_waited (fun _ _ => rfl) c s _)

theorem planNamed_startCmd (i : InstId) (c : MboxCmd) (s : State) (id : Nat) : planNamed (mir (startCmd i c s) i) id = planNamed (mir s i) id := by
  rw [mir_startCmd]
  exact congrArg (_ || ·) (any_waited (fun _ _ => rfl) c s _)

/-! ### Plans -/

theorem doPlanRegister_refused {a : Answer} (h : planRefusal (mir s i) (prm c 0 2) (prm c 8 8) (prm c 4 4) = some a) :
    doPlanRegister i c s = (a, s) := by
  unfold doPlanRegister
  dsimp only
  rw [h]

theorem planRefusal_refuses {m : Mirrored} {id addr size : Nat} {a : Answer} (h : planRefusal m id addr size = some a) : a.refuses = true := by
  unfold planRefusal at h
  repeat' split at h
  all_goals cases h <;> rfl

/-- The registry entry that PLAN_REGISTER gives. -/
def planEntry (c : MboxCmd) : PlanReg := { id := prm c 0 2, addr := prm c 8 8, size := prm c 4 4 }

theorem doPlanRegister_taken (h : planRefusal (mir s i) (prm c 0 2) (prm c 8 8) (prm c 4 4) = none) : doPlanRegister i c s =
    (aOk, journalObj i (.plan (prm c 0 2) (some (planEntry c)))
      (modLib i (fun l => { l with registry := l.registry ++ [planEntry c], failed := del (prm c 0 2) l.failed }) s)) := by
  unfold doPlanRegister
  dsimp only
  rw [h]
  rfl

/-- The Library without plan `id`. -/
def withoutPlan (id : Nat) (l : Library) : Library :=
  { l with registry := l.registry.filter (·.id != id), slots := l.slots.filter (·.planId != id), demand := l.demand.filter (·.1 != id), used := del id l.used }

theorem doPlanUnregister_eq : doPlanUnregister i c s =
    if look (prm c 0 2) (mir s i).lib.failed ≠ none then (aOk, modLib i (fun l => { l with failed := del (prm c 0 2) l.failed }) s)
    else if registered (mir s i) (prm c 0 2) = false then (aNotFound, s)
    else if planNamed (mir s i) (prm c 0 2) = true then (aWrong, s)
    else (aOk, libAssign i 256 (journalObj i (.plan (prm c 0 2) none) (modLib i (withoutPlan (prm c 0 2)) s))) := by
  unfold doPlanUnregister
  dsimp only
  refine Serving.ite_of_iff (by simp [Option.isSome_iff_ne_none]) rfl (Serving.ite_of_iff (by simp) rfl rfl)

/-! ### The end of a fetch -/

theorem execPlanFetchDone_eq {img : List Byte} {r : PlanReg} {sl : LibSlot} (hreg : (mir s i).lib.registry.find? (·.id == r.id) = some r)
    (hslot : findPlan (mir s i) r.id = some sl) : exec (.planFetchDone i r.id img) s =
    if activeInst s i = false ∨ onDuty s i 1 = false ∨ sl.plan ≠ none then .next s
    else match hostWriteCase s r.addr (slice img 0 r.size) with
      | some n => .fault (.undefinedCase n)
      | none => endEvent i s (if planFails r.id r.size (slice img 0 r.size) = 0
          then fetchPass i r.id (parsePlan (slice img 0 r.size)) (hbmPut r.addr (slice img 0 r.size) s)
          else fetchFail i r.id (planFails r.id r.size (slice img 0 r.size)) (hbmPut r.addr (slice img 0 r.size) s)) := by
  show execPlanFetchDone i r.id img s = _
  unfold execPlanFetchDone
  rw [hreg, hslot]
  dsimp only
  refine Serving.ite_of_iff ?_ rfl rfl
  simp [Option.isSome_iff_ne_none, or_assoc, or_comm (a := ¬sl.plan = none)]

/-- Settles O25: each command's function on the started state, and the three ends of a fetch. -/
theorem recipesAndPlans : Obligations.RecipesAndPlans := by
  unfold Obligations.RecipesAndPlans
  refine ⟨fun i w s c => ⟨fun img h => ?_, fun h => ?_, fun h => ?_, fun h => ?_, fun h => ?_⟩, fun i img s r sl hreg hslot => ?_⟩
  · intro ok r
    have hrow : exec (.recipeDefine i w img) s = serve i w 0x30 (recipeCase s i img) (doRecipeDefine i img) s := rfl
    refine ⟨fun n hn => stopsAt_of_case hrow h hn ?_, fun hnone hno => refuses_of_starts hrow (starts_of_noCase h hnone) (doRecipeDefine_unfit hno),
      fun hnone hok => answers_of_starts (after := fun v => foyerRound i (journalObj i (.recipe (prm c 0 2) (some r)) v)) hrow (starts_of_noCase h hnone)
        (doRecipeDefine_fit hok) rfl⟩
    rintro rfl
    exact absurd (recipeCase_among s i img c 2 hn) (by decide)
  · have hrow : exec (.recipeUndefine i w) s = serve i w 0x31 (undefineCase (getInst s i)) (doRecipeUndefine i) s := rfl
    obtain ⟨hfind, hnamed⟩ := named_startCmd i c s (prm c 0 2)
    have hdo := doRecipeUndefine_eq (i := i) (c := c) (s := startCmd i c s)
    rw [hfind, hnamed] at hdo
    refine ⟨fun n hn => stopsAt_of_case hrow h hn ?_, fun hnone => ?_⟩
    · rintro rfl
      exact absurd (undefineCase_among _ c 2 hn) (by decide)
    · have hst := starts_of_noCase h hnone
      exact ⟨fun hno => refuses_of_starts hrow hst (hdo.trans (if_pos hno)),
        fun hsome hin => refuses_of_starts hrow hst (hdo.trans ((if_neg hsome).trans (if_pos hin))),
        fun hsome hout => answers_of_starts hrow hst (hdo.trans ((if_neg hsome).trans (if_neg (by rw [hout]; exact Bool.false_ne_true)))) rfl⟩
  · intro p
    have hrow : exec (.planRegister i w) s = serve i w 0x40 (planCase s) (doPlanRegister i) s := rfl
    have hmir : planRefusal (mir (startCmd i c s) i) = planRefusal (mir s i) := by rw [mir_startCmd]; rfl
    refine ⟨fun a ha => ?_, fun hnone => ⟨fun hcase => ?_, fun hcase => ?_⟩⟩
    · refine refuses_of_mayRefuse hrow (mayRefuse_of_noCase h (planCase_among s c)) (doPlanRegister_refused (by rw [hmir, ha])) (planRefusal_refuses ha)
    · obtain ⟨n, hn⟩ := Option.ne_none_iff_exists'.mp hcase
      obtain rfl : n = 2 := by simpa using planCase_among s c n hn
      exact stopsAt_of_overlap hrow h hn (by rw [doPlanRegister_taken (by rw [hmir, hnone])]; rfl)
    · exact answers_of_starts (after := journalObj i (.plan p.id (some p))) hrow (starts_of_noCase h hcase) (doPlanRegister_taken (by rw [hmir, hnone])) rfl
  · intro id
    have hrow : exec (.planUnregister i w) s = serve i w 0x41 noCase (doPlanUnregister i) s := rfl
    have hlib : (mir (startCmd i c s) i).lib = (mir s i).lib := by rw [mir_startCmd]
    have hreg : registered (mir (startCmd i c s) i) id = registered (mir s i) id := by rw [mir_startCmd]; rfl
    have hdo := doPlanUnregister_eq (i := i) (c := c) (s := startCmd i c s)
    rw [hlib, hreg, planNamed_startCmd] at hdo
    refine ⟨fun hfailed => answers_of_starts (after := fun v => v) hrow h (hdo.trans (if_pos hfailed)) rfl, fun hf hr => ?_, fun hf hr hn => ?_, fun hf hr hn => ?_⟩
    · exact refuses_of_starts hrow h (hdo.trans ((if_neg (Classical.not_not.mpr hf)).trans (if_pos hr)))
    · exact refuses_of_starts hrow h (hdo.trans ((if_neg (Classical.not_not.mpr hf)).trans ((if_neg (by rw [hr]; exact Bool.noConfusion)).trans (if_pos hn))))
    · exact answers_of_starts (after := fun v => libAssign i 256 (journalObj i (.plan id none) v)) hrow h
        (hdo.trans ((if_neg (Classical.not_not.mpr hf)).trans ((if_neg (by rw [hr]; exact Bool.noConfusion)).trans (if_neg (by rw [hn]; exact Bool.noConfusion))))) rfl
  · have hrow : exec (.planQuery i w) s = serve i w 0x42 noCase (doPlanQuery i) s := rfl
    have hmir : planReport (mir (startCmd i c s) i) = planReport (mir s i) := by rw [mir_startCmd]; rfl
    refine ⟨fun hnone => refuses_of_starts hrow h ?_, fun st slot k hsome => refuses_of_starts hrow h ?_⟩
    · rw [doPlanQuery, hmir, hnone]
    · rw [doPlanQuery, hmir, hsome]
  · intro b
    have hexec := execPlanFetchDone_eq (s := s) (i := i) (img := img) hreg hslot
    refine ⟨fun hnot => hexec.trans (if_pos hnot), fun hact hduty hplan => ?_⟩
    rw [if_neg (by rw [hact, hduty, hplan]; simp)] at hexec
    refine ⟨fun n hn => ?_, fun hnone => ?_⟩
    · rw [StopsAt, hexec, hn]
    · rw [hnone] at hexec
      refine ⟨fun hpass => ⟨_, hexec.trans ?_, rfl⟩, fun hfail => ⟨_, hexec.trans ?_, rfl⟩⟩
      · dsimp only
        rw [if_pos hpass]
        rfl
      · dsimp only
        rw [if_neg hfail]
        rfl

end Sys2Proof.RecipesPlans

/-! SUPPORT. The mailbox commands on sequences (spec/14 R304-R306, R441, spec/16 R352): what each finds in the started state, and what it does with it. -/

namespace Sys2Proof.OrdersPost

open Sys2Proof Sys2Proof.Machine Sys2Proof.Laws Sys2Proof.Serving Sys2Proof.Cases

variable {i : InstId} {c : MboxCmd} {s : State}

/-! ### What the started state shows of the sequences -/

theorem seqs_startCmd (i : InstId) (c : MboxCmd) (s : State) : (mir (startCmd i c s) i).seqs = (mir s i).seqs := by rw [mir_startCmd]

theorem namedSeq_startCmd (i : InstId) (c : MboxCmd) (s : State) : namedSeq (mir (startCmd i c s) i) = namedSeq (mir s i) := by
  rw [mir_startCmd]
  rfl

theorem orderTargets_startCmd (i : InstId) (c : MboxCmd) (s : State) : orderTargets (mir (startCmd i c s) i) = orderTargets (mir s i) := by
  rw [mir_startCmd]
  rfl

theorem findSeq_namedSeq {m : Mirrored} {k lid : Nat} {q : Machine.Seq} (h : namedSeq m k lid = some q) : findSeq m lid = some q := by
  unfold namedSeq at h
  obtain ⟨x, hx, hq⟩ := Option.bind_eq_some_iff.mp h
  split at hq
  · rw [hx, Option.some.inj hq]
  · exact nomatch hq

/-- A sequence that is named is the one of its own local id. -/
theorem getSeq_namedSeq {m : Mirrored} {k lid : Nat} {q : Machine.Seq} (h : namedSeq m k lid = some q) : getSeq m q.r.localId = q := by
  have hfind := findSeq_namedSeq h
  have hid : q.r.localId = lid := eq_of_beq (List.find?_some (p := fun x : Machine.Seq => x.r.localId == lid) hfind)
  rw [getSeq, hid, hfind]
  rfl

/-! ### CANCEL -/

/-- Deferred requests that the command's tag withdraws. -/
def tagged (c : MboxCmd) (d : Deferred) : Bool := prm c 0 1 == 2 && d.req.hostTag == prm c 8 8

/-- The cancels are posted and the command awaits them. -/
def cancelAfter (i : InstId) (c : MboxCmd) (lids : List Nat) (n : Nat) (v : State) : State :=
  closeCmd i c.id (postEach i lids (.cancel (some c.id)) (awaitEvents i c.id lids.length n v))

/-- The sequences that CANCEL names, in a state. -/
def cancelled (s : State) (i : InstId) (c : MboxCmd) : List Nat := cancelTargets (mir s i) (winCtx c.window) (prm c 0 1) (prm c 8 8)

/-- The deferred requests that CANCEL withdraws at once. -/
def withdrawn (s : State) (i : InstId) (c : MboxCmd) : Nat :=
  ((getCtx (mir s i) (winCtx c.window)).defer.filter fun d => d.fwd.isNone && tagged c d).length

theorem doCancel_eq : doCancel i c s =
    if 2 < prm c 0 1 then (aInvalid, s)
    else if cancelled s i c = [] ∧ withdrawn s i c = 0 then (aNotFound, s)
    else if prm c 0 1 = 0 ∧ ((cancelled s i c).all fun l => (getSeq (mir s i) l).r.state.live) = false then (aWrong, s)
    else (.later, cancelAfter i c (cancelled s i c) (withdrawn s i c)
      (deferTimer i (winCtx c.window) (rejectDeferred i (winCtx c.window) 42 (tagged c) s))) := by
  unfold doCancel
  dsimp only
  refine Serving.ite_of_iff Iff.rfl rfl (Serving.ite_of_iff ?_ rfl (Serving.ite_of_iff ?_ rfl rfl))
  · rw [Bool.and_eq_true_iff, List.isEmpty_iff, decide_eq_true_eq]
    rfl
  · rw [Bool.and_eq_true_iff, decide_eq_true_eq, Bool.not_eq_true']
    rfl

theorem cancelled_startCmd : cancelled (startCmd i c s) i c = cancelled s i c := by
  unfold cancelled
  rw [mir_startCmd]
  rfl

theorem withdrawn_startCmd : withdrawn (startCmd i c s) i c = withdrawn s i c := by
  unfold withdrawn
  rw [getCtx_startCmd (g := Ctx.defer) (fun _ _ => rfl)]

theorem cancelled_of_named (hmode : prm c 0 1 = 0) : cancelled s i c =
    ((namedSeq (mir s i) (winCtx c.window) (prm c 8 8)).map fun q => [q.r.localId]).getD [] := by
  rw [cancelled, hmode]
  rfl

/-- In mode 0 the one sequence named decides whether all are live. -/
theorem cancelled_live {q : Machine.Seq} (hmode : prm c 0 1 = 0) (hq : namedSeq (mir s i) (winCtx c.window) (prm c 8 8) = some q) :
    ((cancelled s i c).all fun l => (getSeq (mir s i) l).r.state.live) = q.r.state.live := by
  rw [cancelled_of_named hmode, hq]
  simpa using congrArg (·.r.state.live) (getSeq_namedSeq hq)

theorem getSeq_startCmd (i : InstId) (c : MboxCmd) (s : State) : getSeq (mir (startCmd i c s) i) = getSeq (mir s i) := by
  rw [mir_startCmd]
  rfl

/-! ### PARK and RESUME -/

/-- The orders' events are posted to each. -/
def orderAfter (i : InstId) (c : MboxCmd) (k : EvKind) (lids : List Nat) (v : State) : State := closeCmd i c.id (postEach i lids k v)

theorem doOrder_none {k : EvKind} (h : namedSeq (mir s i) (winCtx c.window) (prm c 0 4) = none) : doOrder i c k s = (aNotFound, s) := by
  rw [doOrder, h]

theorem doOrder_some {k : EvKind} {q : Machine.Seq} (h : namedSeq (mir s i) (winCtx c.window) (prm c 0 4) = some q) :
    doOrder i c k s = (.later, orderAfter i c k (orderTargets (mir s i) q (tbit (prm c 4 4) 0))
      (awaitEvents i c.id (orderTargets (mir s i) q (tbit (prm c 4 4) 0)).length 0 s)) := by
  rw [doOrder, h]
  rfl

/-- The records of the sequences are the same in two states. -/
def SameRecords (i : InstId) (s t : State) : Prop := (mir t i).seqs.map (·.r) = (mir s i).seqs.map (·.r)

theorem SameRecords.trans {t u : State} (h : SameRecords i s t) (k : SameRecords i t u) : SameRecords i s u := Eq.trans k h

theorem postTo_sameRecords (f : Flow) (k : EvKind) (b : Bool) (tick : Nat) (s : State) : SameRecords i s (postTo i f k b tick s) := by
  cases i <;> rfl

theorem foldl_sameRecords {α : Type} {f : State → α → State} (hf : ∀ u x, SameRecords i u (f u x)) : ∀ (l : List α) (t : State), SameRecords i t (l.foldl f t)
  | [], _ => rfl
  | x :: l, t => (hf t x).trans (foldl_sameRecords hf l (f t x))

/-- The broadcasts that wait for a sequence are not of its record. -/
theorem flushBcast_sameRecords (lid : Nat) (s : State) : SameRecords i s (flushBcast i lid s) := by
  have hclear : SameRecords i s (modSeq i lid (fun q => { q with bcast := [] }) s) := by
    rw [SameRecords, mir_eq, modSeq, getInst_modMir, mapSeq, List.map_map, mir_eq]
    refine List.map_congr_left fun q _ => ?_
    simp only [Function.comp_apply]
    split <;> rfl
  exact hclear.trans (foldl_sameRecords (fun u b => postTo_sameRecords _ _ _ _ u) _ _)

theorem postSeq_sameRecords (lid : Nat) (k : EvKind) (s : State) : SameRecords i s (postSeq i lid k s) :=
  (flushBcast_sameRecords lid s).trans (postTo_sameRecords _ _ _ _ _)

theorem warmFirst_sameRecords (lids : List Nat) (s : State) : SameRecords i s (warmFirst i lids s) := by
  refine foldl_sameRecords (fun u l => ?_) lids s
  dsimp only
  split
  · exact postSeq_sameRecords _ _ _
  · rfl

/-- The sequence that is found has the record that the records show. -/
theorem record_findSeq {m : Mirrored} {lid : Nat} : (findSeq m lid).map (·.r) = (m.seqs.map (·.r)).find? (·.localId == lid) := by
  rw [List.find?_map]
  rfl

theorem record_namedSeq {m : Mirrored} {k lid : Nat} : (namedSeq m k lid).map (·.r) =
    ((m.seqs.map (·.r)).find? (·.localId == lid)).bind fun r => if r.context == k && r.state != .free then some r else none := by
  rw [← record_findSeq, namedSeq]
  cases findSeq m lid with
  | none => rfl
  | some q =>
    simp only [Option.bind_some, Option.map_some]
    split <;> rfl

theorem orderTargets_records {m m' : Mirrored} {q q' : Machine.Seq} (house : Bool) (hq : q'.r = q.r) (hm : m'.seqs.map (·.r) = m.seqs.map (·.r)) :
    orderTargets m' q' house = orderTargets m q house := by
  have htargets : ∀ (x : Mirrored) (r : Record), (((x.seqs.filter (·.r.household == r.household)).filter fun y => y.r.context == r.context && y.r.state.live).map (·.r.localId)) =
      (((x.seqs.map (·.r)).filter (·.household == r.household)).filter fun y => y.context == r.context && y.state.live).map (·.localId) := by
    intro x r
    rw [List.filter_map, List.filter_map, List.map_map]
    rfl
  unfold orderTargets members
  rw [hq, htargets, htargets, hm]

/-- What a warmed state shows of the sequence that RESUME names. -/
theorem namedSeq_warmFirst {lids : List Nat} {k lid : Nat} {q : Machine.Seq} (h : namedSeq (mir s i) k lid = some q) :
    ∃ q', namedSeq (mir (warmFirst i lids s) i) k lid = some q' ∧ q'.r = q.r := by
  have hsame : (namedSeq (mir (warmFirst i lids s) i) k lid).map (·.r) = some q.r := by
    rw [record_namedSeq, warmFirst_sameRecords lids s, ← record_namedSeq, h]
    rfl
  obtain ⟨q', hq', hr⟩ := Option.map_eq_some_iff.mp hsame
  exact ⟨q', hq', hr⟩

theorem doResume_turn (h : (mir s i).kitchen.turn ≠ .service) : doResume i c s = (aWrong, s) := if_pos (bne_iff_ne.mpr h)

theorem doResume_none (hturn : (mir s i).kitchen.turn = .service) (h : namedSeq (mir s i) (winCtx c.window) (prm c 0 4) = none) :
    doResume i c s = (aNotFound, s) := by
  unfold doResume
  rw [if_neg (by rw [hturn]; exact Bool.false_ne_true), h]
  exact doOrder_none h

theorem doResume_some {q : Machine.Seq} (hturn : (mir s i).kitchen.turn = .service) (h : namedSeq (mir s i) (winCtx c.window) (prm c 0 4) = some q) :
    doResume i c s = (.later, orderAfter i c (.resume (some c.id)) (orderTargets (mir s i) q (tbit (prm c 4 4) 0))
      (awaitEvents i c.id (orderTargets (mir s i) q (tbit (prm c 4 4) 0)).length 0
        (warmFirst i (orderTargets (mir s i) q (tbit (prm c 4 4) 0)) s))) := by
  unfold doResume
  rw [if_neg (by rw [hturn]; exact Bool.false_ne_true), h]
  dsimp only
  obtain ⟨q', hq', hr⟩ := namedSeq_warmFirst (lids := orderTargets (mir s i) q (tbit (prm c 4 4) 0)) h
  rw [doOrder_some hq', orderTargets_records _ hr (warmFirst_sameRecords _ s)]

/-! ### EXTEND, QUERY_SEQUENCE and MIGRATE -/

theorem doExtendCmd_none {toks : List Nat} (h : namedSeq (mir s i) (winCtx c.window) (prm c 0 4) = none) : doExtendCmd i toks c s = (aNotFound, s) := by
  unfold doExtendCmd
  dsimp only
  rw [h]

theorem doExtendCmd_some {toks : List Nat} {q : Machine.Seq} (h : namedSeq (mir s i) (winCtx c.window) (prm c 0 4) = some q) : doExtendCmd i toks c s =
    if q.r.state ≠ .paused then (aWrong, s)
    else if extendInvalid (mir s i) q.r (prm c 4 4) (prm c 8 8) (prm c 16 1) = true then (aInvalid, s)
    else (.later, postSeq i q.r.localId (.extend (extendTokens (prm c 4 4) toks) (prm c 16 1) (prm c 17 1) (prm c 18 2) c.id)
      (hbmPut (prm c 8 8) (words 4 (extendTokens (prm c 4 4) toks)) s)) := by
  unfold doExtendCmd
  dsimp only
  rw [h]
  exact Serving.ite_of_iff bne_iff_ne rfl rfl

theorem doQuerySequence_eq : doQuerySequence i c s =
    if prm c 8 8 % 64 ≠ 0 then (aInvalid, s)
    else ((namedSeq (mir s i) (winCtx c.window) (prm c 0 4)).map fun q =>
      (aOk, hbmPut (prm c 8 8) (if q.r.hot then recordBytes q.r else memGets s.hbm (atticAddr (getInst s i) q.r.localId) 512) s)).getD (aNotFound, s) := by
  unfold doQuerySequence outputOk
  dsimp only
  refine Serving.ite_of_iff (by simp) rfl ?_
  cases namedSeq (mir s i) (winCtx c.window) (prm c 0 4) <;> rfl

theorem doMigrate_none (h : namedSeq (mir s i) (winCtx c.window) (prm c 0 4) = none) : doMigrate i c s = (aNotFound, s) := by
  unfold doMigrate
  dsimp only
  rw [← mir_eq, h]

theorem doMigrate_some {q : Machine.Seq} (h : namedSeq (mir s i) (winCtx c.window) (prm c 0 4) = some q) : doMigrate i c s =
    if migrateWrong (getInst s i) q.r (prm c 8 4) = true then (aWrong, s)
    else if 64 ≤ (mir s i).outXfers.length then (.now rFull 1 [], s)
    else (.later, postSeq i q.r.localId (.migrateOut c.id (tbit (prm c 4 4) 0) (prm c 8 4)) s) := by
  unfold doMigrate
  dsimp only
  rw [← mir_eq, h]

/-- Settles O26: each command's function, on the sequences that the started state still shows. -/
theorem ordersPostEvents : Obligations.OrdersPostEvents := by
  unfold Obligations.OrdersPostEvents
  intro i w s c k named house
  refine ⟨fun h => ?_, fun h => ?_, fun h => ?_, fun toks h => ?_, fun h => ?_, fun h => ?_⟩
  · obtain rfl := window_of_starts h
    intro mode lids tag n
    have hrow : exec (.cancel i c.window) s = serve i c.window 0x50 cancelCase (doCancel i) s := rfl
    have hdo := doCancel_eq (i := i) (c := c) (s := startCmd i c s)
    rw [cancelled_startCmd, withdrawn_startCmd, getSeq_startCmd] at hdo
    have hlids : cancelled s i c = lids := rfl
    have hn : withdrawn s i c = n := rfl
    rw [hlids, hn] at hdo
    refine ⟨fun hmany => refuses_of_starts hrow h (hdo.trans (if_pos hmany)),
      fun hmode hnil hzero => refuses_of_starts hrow h (hdo.trans ((if_neg (Nat.not_lt.mpr hmode)).trans (if_pos ⟨hnil, hzero⟩))),
      fun q hmode hq hdead => ?_, fun hmode hsome hlive => ?_⟩
    · have hlive : (lids.all fun l => (getSeq (mir s i) l).r.state.live) = false := (cancelled_live hmode hq).trans hdead
      have hone : lids ≠ [] := by
        rw [← hlids, cancelled_of_named hmode, hq]
        simp
      exact refuses_of_starts hrow h (hdo.trans ((if_neg (show ¬2 < prm c 0 1 from fun hlt => absurd (hmode ▸ hlt : 2 < 0) (by decide))).trans ((if_neg fun hx => hone hx.1).trans (if_pos ⟨hmode, hlive⟩))))
    · refine answers_of_starts (after := cancelAfter i c lids n) hrow h (hdo.trans ((if_neg (Nat.not_lt.mpr hmode)).trans
        ((if_neg ?_).trans (if_neg ?_)))) rfl
      · rintro ⟨hnil, hzero⟩
        obtain hx | hx := hsome
        · exact hx hnil
        · exact hx hzero
      · rintro ⟨hzero, hdead⟩
        cases hq : namedSeq (mir s i) (winCtx c.window) (prm c 8 8) with
        | none =>
          rw [← hlids, cancelled_of_named hzero, hq] at hdead
          exact Bool.noConfusion hdead
        | some q =>
          rw [← hlids, cancelled_live hzero hq, hlive hzero q hq] at hdead
          exact Bool.noConfusion hdead
  · obtain rfl := window_of_starts h
    have hrow : exec (.park i c.window) s = serve i c.window 0x51 (orderCase true) (fun c s => doOrder i c (.park (prm c 8 8) (some c.id)) s) s := rfl
    refine ⟨fun hnone => refuses_of_starts hrow h (doOrder_none (by rw [namedSeq_startCmd]; exact hnone)), fun q hq => ?_⟩
    intro lids
    have hdo := doOrder_some (i := i) (c := c) (s := startCmd i c s) (k := .park (prm c 8 8) (some c.id)) (by rw [namedSeq_startCmd]; exact hq)
    rw [orderTargets_startCmd] at hdo
    exact answers_of_starts (after := orderAfter i c (.park (prm c 8 8) (some c.id)) lids) hrow h hdo rfl
  · obtain rfl := window_of_starts h
    have hrow : exec (.resume i c.window) s = serve i c.window 0x52 (orderCase false) (doResume i) s := rfl
    have hturn' : (mir (startCmd i c s) i).kitchen.turn = (mir s i).kitchen.turn := by rw [mir_startCmd]
    refine ⟨fun hturn => refuses_of_starts hrow h (doResume_turn (by rw [hturn']; exact hturn)),
      fun hturn hnone => refuses_of_starts hrow h (doResume_none (hturn'.trans hturn) (by rw [namedSeq_startCmd]; exact hnone)), fun q hturn hq => ?_⟩
    intro lids
    have hdo := doResume_some (i := i) (c := c) (s := startCmd i c s) (hturn'.trans hturn) (by rw [namedSeq_startCmd]; exact hq)
    rw [orderTargets_startCmd] at hdo
    exact answers_of_starts (after := orderAfter i c (.resume (some c.id)) lids) hrow h hdo rfl
  · obtain rfl := window_of_starts h
    intro ts
    have hrow : exec (.extend i c.window toks) s = serve i c.window 0x53 (extendCase s i toks) (doExtendCmd i toks) s := rfl
    refine ⟨fun n hn => stopsAt_of_case hrow h hn ?_, fun hcase => ?_⟩
    · rintro rfl
      exact absurd (extendCase_among s i toks c 2 hn) (by decide)
    have hst := starts_of_noCase h hcase
    refine ⟨fun hnone => refuses_of_starts hrow hst (doExtendCmd_none (by rw [namedSeq_startCmd]; exact hnone)), fun q hq => ?_⟩
    have hdo := doExtendCmd_some (i := i) (c := c) (s := startCmd i c s) (toks := toks) (by rw [namedSeq_startCmd]; exact hq)
    have hinv : extendInvalid (mir (startCmd i c s) i) = extendInvalid (mir s i) := by rw [mir_startCmd]; rfl
    rw [hinv] at hdo
    exact ⟨fun hnot => refuses_of_starts hrow hst (hdo.trans (if_pos hnot)),
      fun hpaused hbad => refuses_of_starts hrow hst (hdo.trans ((if_neg (Classical.not_not.mpr hpaused)).trans (if_pos hbad))),
      fun hpaused hgood => answers_of_starts (after := postSeq i q.r.localId (.extend ts (prm c 16 1) (prm c 17 1) (prm c 18 2) c.id)) hrow hst
        (hdo.trans ((if_neg (Classical.not_not.mpr hpaused)).trans (if_neg (by rw [hgood]; exact Bool.noConfusion)))) rfl⟩
  · obtain rfl := window_of_mayRefuse h
    have hrow : exec (.querySequence i c.window) s = serve i c.window 0x54 (queryCase s) (doQuerySequence i) s := rfl
    have hdo := doQuerySequence_eq (i := i) (c := c) (s := startCmd i c s)
    rw [namedSeq_startCmd, startCmd_hbm] at hdo
    have hst : starts i c.window 0x54 noCase s c = true := (Bool.and_eq_true_iff.mp h).1
    refine ⟨fun hoff => refuses_of_mayRefuse hrow h (hdo.trans (if_pos hoff)) rfl, fun halign hnone => refuses_of_mayRefuse hrow h ?_ rfl,
      fun q halign hq hcase => ?_, fun q halign hq hcase => ?_⟩
    · have hnone' : namedSeq (mir s i) (winCtx c.window) (prm c 0 4) = none := hnone
      rw [hdo, if_neg (Classical.not_not.mpr halign), hnone']
      rfl
    · refine stopsAt_of_overlap hrow hst hcase ?_
      have hq' : namedSeq (mir s i) (winCtx c.window) (prm c 0 4) = some q := hq
      rw [hdo, if_neg (Classical.not_not.mpr halign), hq']
      rfl
    · refine answers_of_starts (after := fun v => v) hrow (starts_of_noCase hst hcase) ?_ rfl
      have hq' : namedSeq (mir s i) (winCtx c.window) (prm c 0 4) = some q := hq
      rw [hdo, if_neg (Classical.not_not.mpr halign), hq']
      cases i <;> rfl
  · obtain rfl := window_of_starts h
    have hrow : exec (.migrate i c.window) s = serve i c.window 0xA0 migrateCase (doMigrate i) s := rfl
    refine ⟨fun hnone => refuses_of_starts hrow h (doMigrate_none (by rw [namedSeq_startCmd]; exact hnone)), fun q hq => ?_⟩
    have hdo := doMigrate_some (i := i) (c := c) (s := startCmd i c s) (by rw [namedSeq_startCmd]; exact hq)
    have hwrong : migrateWrong (getInst (startCmd i c s) i) = migrateWrong (getInst s i) := by cases i <;> rfl
    have hxfers : (mir (startCmd i c s) i).outXfers = (mir s i).outXfers := by rw [mir_startCmd]
    rw [hwrong, hxfers] at hdo
    exact ⟨fun hw => refuses_of_starts hrow h (hdo.trans (if_pos hw)),
      fun hw hfull => refuses_of_starts hrow h (hdo.trans ((if_neg (by rw [hw]; exact Bool.noConfusion)).trans (if_pos hfull))),
      fun hw hroom => answers_of_starts (after := postSeq i q.r.localId (.migrateOut c.id house (prm c 8 4))) hrow h
        (hdo.trans ((if_neg (by rw [hw]; exact Bool.noConfusion)).trans (if_neg (Nat.not_le.mpr hroom)))) rfl⟩

end Sys2Proof.OrdersPost

/-! SUPPORT. The directory's models and their epochs (spec/03 R68-R72, spec/11 R231-R243): each command on the entry that the started state still shows. -/

namespace Sys2Proof.Models

open Sys2Proof Sys2Proof.Machine Sys2Proof.Laws Sys2Proof.Serving Sys2Proof.Cases

variable {i : InstId} {c : MboxCmd} {s : State}

theorem getModel_startCmd (i : InstId) (c : MboxCmd) (s : State) : getModel (mir (startCmd i c s) i) = getModel (mir s i) := by
  rw [mir_startCmd]
  rfl

theorem liveOfModel_startCmd (i : InstId) (c : MboxCmd) (s : State) : liveOfModel (mir (startCmd i c s) i) = liveOfModel (mir s i) := by
  rw [mir_startCmd]
  rfl

/-- A command on an EMPTY entry finds nothing. -/
theorem onModel_empty {f : Nat → Model → State → Answer × State} (h : (getModel (mir s i) (prm c 0 1)).state = .empty) :
    onModel i f c (startCmd i c s) = (aNotFound, startCmd i c s) := by
  unfold onModel
  dsimp only
  rw [getModel_startCmd, if_pos (by rw [h]; rfl)]

/-- A command on an entry that is not EMPTY serves it. -/
theorem onModel_entry {f : Nat → Model → State → Answer × State} (h : (getModel (mir s i) (prm c 0 1)).state ≠ .empty) :
    onModel i f c (startCmd i c s) = f (prm c 0 1) (getModel (mir s i) (prm c 0 1)) (startCmd i c s) := by
  unfold onModel
  dsimp only
  rw [getModel_startCmd, if_neg (by simpa using h)]

/-! ### Descriptors -/

/-- The entry that a descriptor makes. -/
def described (s : State) (i : InstId) (md : Model) : Model :=
  { md with state := if instVocabLimit s i < md.vocabMax then .refused else .described }

theorem doModelDescribe_eq (desc : List Byte) : doModelDescribe i desc c (startCmd i c s) =
    if (getModel (mir s i) (fld (slice desc 0 64) 0 1 % 64)).state ≠ .empty then (.now rExists 0 [], startCmd i c s)
    else if ¬(4 ≤ (parseModel (slice desc 0 64)).pageSizeLog2 ∧ (parseModel (slice desc 0 64)).pageSizeLog2 ≤ 8 ∧ (parseModel (slice desc 0 64)).vocabMax ≠ 0) then (aInvalid, startCmd i c s)
    else (aOk, journalModel i (fld (slice desc 0 64) 0 1 % 64) (modModel i (fld (slice desc 0 64) 0 1 % 64) (fun _ => described s i (parseModel (slice desc 0 64)))
      (startCmd i c s))) := by
  have hlimit : instVocabLimit (startCmd i c s) i = instVocabLimit s i := by cases i <;> rfl
  unfold doModelDescribe
  dsimp only
  rw [getModel_startCmd, hlimit]
  refine Serving.ite_of_iff bne_iff_ne rfl (Serving.ite_of_iff ?_ rfl rfl)
  omega

theorem doModelQuery_eq : doModelQuery i c s =
    if prm c 8 8 % 64 ≠ 0 then (aInvalid, s) else (aOk, hbmPut (prm c 8 8) (modelBytes (mir s i) (prm c 0 1)) s) := by
  unfold doModelQuery outputOk
  dsimp only
  exact Serving.ite_of_iff (by simp) rfl rfl

/-- An id in range leaves the buffer alone to decide. -/
theorem queryCase_inRange (hid : prm c 0 1 < 64) : ((modelCase c).or (outCase s 8 64 c)) = outCase s 8 64 c := by
  rw [modelCase, overId, if_pos hid]
  rfl

/-! ### The life of a model -/

theorem ne_empty_of_eq {st : ModelState} {md : Model} (h : md.state = st) (hne : st ≠ .empty) : md.state ≠ .empty := h ▸ hne

/-- Settles O27: each command's function on the entry that it names. -/
theorem modelLife : Obligations.ModelLife := by
  unfold Obligations.ModelLife
  rintro i w s c n rfl md
  refine ⟨fun desc h => ?_, fun h hid => ?_, fun p hp h hempty => ?_, fun h => ⟨fun hsome hnot => ?_, fun hst hlive => ?_⟩, fun h => ⟨fun hsome hnot => ?_, fun hst => ?_⟩,
    fun h => ⟨fun hsome hnot => ?_, fun hst => ?_⟩, fun h => ⟨fun hsome hnot => ?_, fun hst => ?_⟩, fun h hsome => ⟨fun hmany => ?_, fun hfew => ?_⟩⟩
  · intro b k ok
    have hrow : exec (.modelDescribe i w desc) s = serve i w 0x60 (describeCase s desc) (doModelDescribe i desc) s := rfl
    have hdo := doModelDescribe_eq (i := i) (c := c) (s := s) desc
    exact ⟨fun hsome => refuses_of_starts hrow h (hdo.trans (if_pos hsome)),
      fun hempty hbad => refuses_of_starts hrow h (hdo.trans ((if_neg (Classical.not_not.mpr hempty)).trans (if_pos hbad))),
      fun hempty hok => answers_of_starts (after := journalModel i k) hrow h
        (hdo.trans ((if_neg (Classical.not_not.mpr hempty)).trans (if_neg (Classical.not_not.mpr hok)))) rfl⟩
  · have hrow : exec (.modelQuery i w) s = serve i w 0x61 (fun c => (modelCase c).or (outCase s 8 64 c)) (doModelQuery i) s := rfl
    have hcase := queryCase_inRange (s := s) hid
    have hdo := doModelQuery_eq (i := i) (c := c) (s := startCmd i c s)
    refine ⟨fun hoff => refuses_of_mayRefuse hrow (mayRefuse_of_noCase h ?_) (hdo.trans (if_pos hoff)) rfl, fun halign hmet => ?_, fun halign hnone => ?_⟩
    · rw [hcase]
      exact outCase_among s 8 64 c
    · obtain ⟨m, hm⟩ := Option.ne_none_iff_exists'.mp hmet
      obtain rfl : m = 2 := by simpa using outCase_among s 8 64 c m hm
      exact stopsAt_of_overlap hrow h (hcase.trans hm) (by rw [hdo, if_neg (Classical.not_not.mpr halign)]; rfl)
    · exact answers_of_starts (after := fun v => v) hrow (starts_of_noCase h (hcase.trans hnone)) (hdo.trans (if_neg (Classical.not_not.mpr halign))) rfl
  · simp only [List.mem_cons, List.not_mem_nil, or_false] at hp
    obtain rfl | rfl | rfl | rfl | rfl := hp <;> exact refuses_of_starts rfl h (onModel_empty hempty)
  · refine refuses_of_starts rfl h ((onModel_entry hsome).trans (if_pos ?_))
    rw [liveOfModel_startCmd, Bool.or_eq_true_iff, decide_eq_true_eq, Bool.not_eq_true', Bool.or_eq_false_iff]
    exact hnot.imp (fun hx => ⟨by simpa [md] using hx.1, by simpa [md] using hx.2⟩) id
  · have hsome : md.state ≠ .empty := by
      obtain hst | hst := hst <;> rw [hst] <;> decide
    refine answers_of_starts (after := fun v => foyerRound i (grantSlots i 64 (journalModel i (prm c 0 1) v))) rfl h ((onModel_entry hsome).trans (if_neg ?_)) rfl
    rw [liveOfModel_startCmd, Bool.or_eq_true_iff, not_or, decide_eq_true_eq, Classical.not_not]
    exact ⟨by simpa [md, Decidable.or_iff_not_imp_left] using hst, hlive⟩
  · exact refuses_of_starts rfl h ((onModel_entry hsome).trans (if_pos (bne_iff_ne.mpr hnot)))
  · refine answers_of_starts (after := fun v => dirEdge i (startCmd i c s) (foyerRound i (journalModel i (prm c 0 1) v))) rfl h
      ((onModel_entry (ne_empty_of_eq hst (by decide))).trans (if_neg (by rw [show (getModel (mir s i) (prm c 0 1)).state = _ from hst]; decide))) ?_
    rw [mir_startCmd]
  · exact refuses_of_starts rfl h ((onModel_entry hsome).trans (if_pos (bne_iff_ne.mpr hnot)))
  · exact answers_of_starts (after := fun v => grantSlots i 64 (journalModel i (prm c 0 1) (rejectOfModel i (prm c 0 1) 43 v))) rfl h
      ((onModel_entry (ne_empty_of_eq hst (by decide))).trans (if_neg (by rw [show (getModel (mir s i) (prm c 0 1)).state = _ from hst]; decide))) rfl
  · exact refuses_of_starts rfl h ((onModel_entry hsome).trans (if_pos (bne_iff_ne.mpr hnot)))
  · exact answers_of_starts (after := fun v => foyerRound i (wantAgain i (prm c 0 1) (grantSlots i 64 (journalModel i (prm c 0 1) v)))) rfl h
      ((onModel_entry (ne_empty_of_eq hst (by decide))).trans (if_neg (by rw [show (getModel (mir s i) (prm c 0 1)).state = _ from hst]; decide))) rfl
  · exact refuses_of_starts rfl h ((onModel_entry hsome).trans (if_pos hmany))
  · exact answers_of_starts (after := fun v => dirEdge i (startCmd i c s) (journalModel i (prm c 0 1) v)) rfl h ((onModel_entry hsome).trans (if_neg (Nat.not_lt.mpr hfew))) rfl

/-! ### Epochs -/

theorem doEpochStage_some {desc : List Byte} {a : Answer}
    (h : stageRefusal (instVocabLimit s i) (getModel (mir s i) (fld (slice desc 0 64) 0 1 % 64)) (parseEpoch (slice desc 0 64)) = some a) :
    doEpochStage i desc c (startCmd i c s) = (a, startCmd i c s) := by
  have hlimit : instVocabLimit (startCmd i c s) i = instVocabLimit s i := by cases i <;> rfl
  unfold doEpochStage
  dsimp only
  rw [hlimit, getModel_startCmd, h]

theorem doEpochStage_none {desc : List Byte}
    (h : stageRefusal (instVocabLimit s i) (getModel (mir s i) (fld (slice desc 0 64) 0 1 % 64)) (parseEpoch (slice desc 0 64)) = none) :
    doEpochStage i desc c (startCmd i c s) = (aOk, grantSlots i 64 (journalModel i (fld (slice desc 0 64) 0 1 % 64)
      (modModel i (fld (slice desc 0 64) 0 1 % 64) (fun x => { x with stage := .staged, staged := parseEpoch (slice desc 0 64), noSlotClaim := false })
        (startCmd i c s)))) := by
  have hlimit : instVocabLimit (startCmd i c s) i = instVocabLimit s i := by cases i <;> rfl
  unfold doEpochStage
  dsimp only
  rw [hlimit, getModel_startCmd, h]

/-- An epoch is ARMED, and the fused runs of its model end. -/
def armed (i : InstId) (k : Nat) (s : State) : State := modKit i (endRuns k) (modModel i k (fun x => { x with stage := .armed }) s)

theorem mir_armed (i : InstId) (k : Nat) (s : State) :
    mir (armed i k s) i = { mir s i with
      dir := { (mir s i).dir with models := modAt (mir s i).dir.models k fun x => { x with stage := .armed } }
      kitchen := endRuns k (mir s i).kitchen } := by
  cases i <;> rfl

/-- Settles O28: each command's function on the entry that it names. -/
theorem epochLife : Obligations.EpochLife := by
  unfold Obligations.EpochLife
  rintro i w s c n rfl md
  have hslots : slotsFree (mir (startCmd i c s) i) = slotsFree (mir s i) := by rw [mir_startCmd]; rfl
  have hallowed : commitAllowed (mir (startCmd i c s) i) = commitAllowed (mir s i) := by rw [mir_startCmd]; rfl
  refine ⟨fun desc h => ?_, fun p hp h hempty => ?_, fun h hsome => ⟨fun hnot => ?_, fun hst hfree => ?_, fun hst hfull => ?_⟩,
    fun h hsome => ⟨fun hnot => ?_, fun hmay => ?_⟩, fun h hsome => ⟨fun hnot => ?_, fun hst => ?_⟩, fun h hsome => ⟨fun hnone => ?_, fun o hold => ?_⟩⟩
  · intro b k
    exact ⟨fun a ha => refuses_of_starts rfl h (doEpochStage_some ha),
      fun hnone => answers_of_starts (after := fun v => grantSlots i 64 (journalModel i k v)) rfl h (doEpochStage_none hnone) rfl⟩
  · simp only [List.mem_cons, List.not_mem_nil, or_false] at hp
    obtain rfl | rfl | rfl | rfl := hp <;> exact refuses_of_starts rfl h (onModel_empty hempty)
  · exact refuses_of_starts rfl h ((onModel_entry hsome).trans (if_pos (bne_iff_ne.mpr hnot)))
  · exact answers_of_starts (after := journalModel i (prm c 0 1)) rfl h ((onModel_entry hsome).trans ((if_neg (by simpa [md] using hst)).trans
      (if_neg (by rw [hslots]; exact hfree)))) rfl
  · exact answers_of_starts (after := dirCheck i) rfl h ((onModel_entry hsome).trans ((if_neg (by simpa [md] using hst)).trans
      (if_pos (by rw [hslots]; exact hfull)))) rfl
  · exact refuses_of_starts rfl h ((onModel_entry hsome).trans (if_pos (by rw [hallowed, hnot]; rfl)))
  · refine answers_of_starts (after := journalModel i (prm c 0 1)) (v := armed i (prm c 0 1) (startCmd i c s)) rfl h
      ((onModel_entry hsome).trans (if_neg (by rw [hallowed, hmay]; exact Bool.noConfusion))) ?_
    rw [mir_armed, mir_startCmd]
    exact ⟨rfl, rfl⟩
  · refine refuses_of_starts rfl h ((onModel_entry hsome).trans (if_pos ?_))
    rw [Bool.or_eq_true_iff]
    exact hnot.imp beq_iff_eq.mpr beq_iff_eq.mpr
  · refine answers_of_starts (after := fun v => dirEdge i (startCmd i c s) (grantSlots i 64 (journalModel i (prm c 0 1) v))) rfl h
      ((onModel_entry hsome).trans (if_neg ?_)) rfl
    obtain hst | hst := hst <;> rw [show (getModel (mir s i) (prm c 0 1)).stage = _ from hst] <;> decide
  · refine refuses_of_starts rfl h ((onModel_entry hsome).trans ?_)
    rw [show (getModel (mir s i) (prm c 0 1)).old = none from hnone]
  · refine answers_of_starts (after := retireCheck i (prm c 0 1)) rfl h ((onModel_entry hsome).trans ?_) rfl
    rw [show (getModel (mir s i) (prm c 0 1)).old = some o from hold]

end Sys2Proof.Models

/-! SUPPORT. Snapshots, the drive's commands and restores (spec/17 R377-R384, spec/01 R27). -/

namespace Sys2Proof.Durability

open Sys2Proof Sys2Proof.Machine Sys2Proof.Laws Sys2Proof.Serving Sys2Proof.Cases

variable {i : InstId} {c : MboxCmd} {s : State}

/-! ### SNAPSHOT and DRIVE_RETRY -/

theorem doSnapshot_eq : doSnapshot i c s =
    if (getInst s i).rel.driveFailed then (.now rIoError 0 [], s)
    else (.later, if (getInst s i).rel.bulk.isSome then s else startBulk i (some c.id) (prm c 0 4) s) := rfl

theorem doDriveRetry_eq : doDriveRetry i c s =
    if (getInst s i).rel.driveFailed = false ∨ (getInst s i).rel.drive ≠ [] then (aWrong, s)
    else (.later, driveIssue i (.probe c.id) false s) := by
  unfold doDriveRetry
  dsimp only
  refine Serving.ite_of_iff ?_ rfl rfl
  rw [Bool.or_eq_true_iff, Bool.not_eq_true', Bool.not_eq_true', List.isEmpty_eq_false_iff]

/-! ### RESTORE -/

theorem all_modAt {α : Type} {p : α → Bool} {f : α → α} (hp : ∀ x, p (f x) = p x) : ∀ (l : List α) (k : Nat), (modAt l k f).all p = l.all p
  | [], _ => rfl
  | x :: xs, 0 => congrArg (· && xs.all p) (hp x)
  | x :: xs, k + 1 => congrArg (p x && ·) (all_modAt hp xs k)

theorem all_waited {p : Ctx → Bool} (hp : ∀ x a, p { x with acct := a } = p x) (c : MboxCmd) (s : State) (l : List Ctx) :
    (waited c s l).all p = l.all p := all_modAt (fun x => hp x _) l _

/-- Starting a command opens no context. -/
theorem restoreOpen_startCmd (i : InstId) (c : MboxCmd) (s : State) : restoreOpen (startCmd i c s) i = restoreOpen s i := by
  have hctxs : (mir (startCmd i c s) i).ctxs.all (!·.isOpen) = (mir s i).ctxs.all (!·.isOpen) := by
    rw [mir_startCmd]
    exact all_waited (fun _ _ => rfl) c s _
  unfold restoreOpen
  dsimp only
  rw [← mir_eq, hctxs]
  cases i <;> rfl

/-- The image on the drive is of another pairing mode, or too wide for the outposts. -/
def unfit (s : State) (i : InstId) : Prop :=
  ((curSuper (getInst s i).rel.disk).any fun b => b.split != (getInst s i).place.split) = true ∨
    (curSuper (getInst s i).rel.disk ≠ none ∧ imageTooWide s i (replayed (getInst s i).rel.disk) = true)

theorem unfit_startCmd (i : InstId) (c : MboxCmd) (s : State) : unfit (startCmd i c s) i = unfit s i := by cases i <;> rfl

/-- The state in which the restore's reads are asked for. -/
def restoring (i : InstId) (c : MboxCmd) (s : State) : State :=
  modRel i (fun r => { r with restore := .running, restoreCheck := 0, restoreCmd := some c.id, restoreForce := (prm c 0 4).testBit 0 }) s

theorem doRestore_shut (h : restoreOpen s i = false) : doRestore i c s = (aWrong, s) := if_pos (by rw [h]; rfl)

theorem doRestore_failed (h : restoreOpen s i = true) (hfailed : (getInst s i).rel.driveFailed = true) :
    doRestore i c s = (.now rIoError 0 [], s) :=
  (if_neg (by rw [h]; exact Bool.false_ne_true)).trans (if_pos hfailed)

theorem doRestore_unfit (h : restoreOpen s i = true) (hsound : (getInst s i).rel.driveFailed = false) (hunfit : unfit s i) :
    doRestore i c s = (aInvalid, s) := by
  refine (if_neg (by rw [h]; exact Bool.false_ne_true)).trans ((if_neg (by rw [hsound]; exact Bool.false_ne_true)).trans (if_pos ?_))
  rw [Bool.or_eq_true_iff, Bool.and_eq_true_iff, Option.isSome_iff_ne_none]
  exact hunfit

theorem doRestore_fit (h : restoreOpen s i = true) (hsound : (getInst s i).rel.driveFailed = false) (hfit : ¬unfit s i) :
    doRestore i c s = (.later, driveIssue i (.restore c.id) false (restoring i c s)) := by
  refine (if_neg (by rw [h]; exact Bool.false_ne_true)).trans ((if_neg (by rw [hsound]; exact Bool.false_ne_true)).trans (if_neg ?_))
  rw [Bool.or_eq_true_iff, Bool.and_eq_true_iff, Option.isSome_iff_ne_none]
  exact hfit

/-! ### The end of a restore -/

/-- The restore has read and rebuilt: it stops at an overlap, or answers. -/
def rebuiltResult (i : InstId) (cmd : Nat) (im : DurImage) (o : RestoreState) (n : Nat) (u s : State) : Result :=
  if restoreClash (rebuild i im o n u) i then .fault (.undefinedCase 2)
  else endEvent i s (finishCmd i cmd rOk 0 (cursorData im) (rebuild i im o n u))

/-- What the findings of the digests lead to. -/
def foundResult (i : InstId) (cmd : Nat) (force : Bool) (im : DurImage) (u s : State) : Finding → Result
  | .verified => rebuiltResult i cmd im .verified 0 u s
  | .unverified => rebuiltResult i cmd im .unverified 0 u s
  | .check n => if force then rebuiltResult i cmd im .forced n u s else done i s (restoreFails i cmd n u)

theorem exec_restoreComplete {cmd : Nat} (hrun : running s i = true) (hon : (getInst s i).rel.restore = .running)
    (hcmd : (getInst s i).rel.restoreCmd = some cmd) : exec (.restoreComplete i) s =
    if curSuper (getInst s i).rel.disk = none then done i s (restoreFails i cmd 1 (opDone i (· == .restore cmd) s))
    else if digestRight (getInst s i).rel.disk = false then done i s (restoreFails i cmd 2 (opDone i (· == .restore cmd) s))
    else foundResult i cmd (getInst s i).rel.restoreForce (replayed (getInst s i).rel.disk) (opDone i (· == .restore cmd) s) s (compareDigest s i) := by
  show execRestoreComplete i s = _
  unfold execRestoreComplete
  dsimp only
  rw [hcmd]
  dsimp only
  rw [if_neg (by rw [hrun, hon]; decide)]
  refine Serving.ite_of_iff Option.isNone_iff_eq_none rfl (Serving.ite_of_iff (Bool.not_eq_true' _ ▸ Iff.rfl) rfl ?_)
  cases compareDigest s i <;> rfl

/-- A restore that rebuilds: an overlap stops it. -/
theorem rebuilt_ends {cmd n : Nat} {o : RestoreState} {im : DurImage} {u : State} (hexec : exec (.restoreComplete i) s = rebuiltResult i cmd im o n u s) :
    (restoreClash (rebuild i im o n u) i = true → StopsAt (.restoreComplete i) s 2) ∧
      (restoreClash (rebuild i im o n u) i = false →
        Ends (.restoreComplete i) i s (finishCmd i cmd rOk 0 (cursorData im)) (fun v => v = rebuild i im o n u)) :=
  ⟨fun hclash => hexec.trans (if_pos hclash), fun hclear => ⟨_, hexec.trans (if_neg (by rw [hclear]; exact Bool.false_ne_true)), rfl⟩⟩

/-- Settles O30: each command's function, and the findings that end a restore. -/
theorem durabilityCommands : Obligations.DurabilityCommands := by
  unfold Obligations.DurabilityCommands
  refine ⟨fun i w s c => ?_, fun i s cmd hrun hon hcmd => ?_⟩
  · intro r
    have hrel := DawnSet.rel_startCmd i c s
    refine ⟨fun h => ⟨fun hsound hnone => ?_, fun hsound hsome => ?_, fun hfailed => ?_⟩, fun h => answers_of_starts (after := fun v => v) rfl h rfl rfl,
      fun h => ⟨fun hnot => ?_, fun hfailed hidle => ?_⟩, fun h => ?_⟩
    · refine answers_of_starts (after := startBulk i (some c.id) (prm c 0 4)) rfl h ?_ rfl
      rw [doSnapshot_eq, hrel, if_neg (by rw [hsound]; exact Bool.false_ne_true), if_neg (by simp [r, hnone])]
    · refine answers_of_starts (after := fun v => v) rfl h ?_ rfl
      rw [doSnapshot_eq, hrel, if_neg (by rw [hsound]; exact Bool.false_ne_true), if_pos (Option.isSome_iff_ne_none.mpr hsome)]
    · refine refuses_of_starts rfl h ?_
      rw [doSnapshot_eq, hrel, if_pos hfailed]
    · refine refuses_of_starts rfl h ?_
      rw [doDriveRetry_eq, hrel, if_pos hnot]
    · refine answers_of_starts (after := driveIssue i (.probe c.id) false) rfl h ?_ rfl
      rw [doDriveRetry_eq, hrel, if_neg]
      rintro (hsound | hbusy)
      · exact absurd (hfailed.symm.trans hsound) Bool.noConfusion
      · exact hbusy hidle
    · intro bad
      have hrow : exec (.restore i w) s = serve i w 0x91 (fun c => tooWide (prm c 0 4) 1) (doRestore i) s := rfl
      have hopen := restoreOpen_startCmd i c s
      have hunfit : unfit (startCmd i c s) i = bad := unfit_startCmd i c s
      refine ⟨fun hshut => refuses_of_starts hrow h (doRestore_shut (hopen.trans hshut)),
        fun ho hfailed => refuses_of_starts hrow h (doRestore_failed (hopen.trans ho) (by rw [hrel]; exact hfailed)),
        fun ho hsound hbad => refuses_of_starts hrow h (doRestore_unfit (hopen.trans ho) (by rw [hrel]; exact hsound) (hunfit ▸ hbad)),
        fun ho hsound hfit => answers_of_starts (after := driveIssue i (.restore c.id) false) (v := restoring i c (startCmd i c s)) hrow h
          (doRestore_fit (hopen.trans ho) (by rw [hrel]; exact hsound) (hunfit ▸ hfit)) rfl⟩
  · intro d u failed rebuilt
    have hexec := exec_restoreComplete hrun hon hcmd
    refine ⟨fun hnone => ⟨_, hexec.trans (if_pos hnone), rfl⟩, fun hsome hwrong => ⟨_, hexec.trans ((if_neg hsome).trans (if_pos hwrong)), rfl⟩, fun hsome hright => ?_⟩
    replace hexec := hexec.trans ((if_neg hsome).trans (if_neg (by rw [hright]; exact Bool.noConfusion)))
    refine ⟨fun hfound => rebuilt_ends ?_, fun hfound => rebuilt_ends ?_, fun n hfound => ⟨fun hforce => rebuilt_ends ?_, fun hforce => ⟨_, ?_, rfl⟩⟩⟩
    · rw [hexec, hfound]
      rfl
    · rw [hexec, hfound]
      rfl
    · rw [hexec, hfound]
      exact if_pos hforce
    · rw [hexec, hfound]
      exact if_neg (by rw [hforce]; exact Bool.false_ne_true)

end Sys2Proof.Durability

/-! SUPPORT. TRACE, COUNTERS and WATCH (spec/18 R396, R405, R407): each command's function, case by case. -/

namespace Sys2Proof.StudySet

open Sys2Proof Sys2Proof.Machine Sys2Proof.Laws Sys2Proof.Serving Sys2Proof.Cases

variable {i : InstId} {c : MboxCmd} {s : State}

/-! ### TRACE -/

theorem doTrace_invalid (h : 1 < prm c 0 1 ∨ 1024 ≤ prm c 4 4) : doTrace i c s = (aInvalid, s) := if_pos (by simpa using h)

theorem doTrace_begin (hmask : prm c 4 4 < 1024) (hon : prm c 0 1 = 1) : doTrace i c s =
    if (getInst s i).study.traceOn then (aOk, modStudy i (fun y => { y with traceMask := prm c 4 4 }) s)
    else if traceCap (getInst s i) = 0 then (aWrong, s)
    else (aOk, startTrace i (prm c 4 4) s) :=
  (if_neg (by simpa [hon] using hmask)).trans (if_pos hon)

theorem doTrace_end (hmask : prm c 4 4 < 1024) (hoff : prm c 0 1 = 0) : doTrace i c s =
    if (getInst s i).study.traceOn then (.later, modStudy i (fun y => { y with traceOn := false, draining := some c.id }) (drainTrace i s)) else (aOk, s) :=
  (if_neg (by simpa [hoff] using hmask)).trans (if_neg (by rw [hoff]; decide))

/-! ### COUNTERS -/

theorem doCounters_invalid (h : prm c 0 4 = 0 ∨ prm c 8 8 % 64 ≠ 0) : doCounters i c s = (aInvalid, s) :=
  if_pos (by simpa [outputOk] using h)

theorem doCounters_eq (hmask : prm c 0 4 ≠ 0) (halign : prm c 8 8 % 64 = 0) : doCounters i c s =
    (.now rOk 0 (leBytes 4 (counterBytes (getInst s i).study (prm c 0 4)).length), hbmPut (prm c 8 8) (counterBytes (getInst s i).study (prm c 0 4)) s) :=
  if_neg (by simp [outputOk, hmask, halign])

/-- The undefined case of COUNTERS: its buffer, where it selects a bank. -/
def countersCase (s : State) (c : MboxCmd) : Option Nat := if prm c 0 4 = 0 then none else outCase s 8 (256 * popCount 32 (prm c 0 4)) c

theorem countersCase_among (s : State) (c : MboxCmd) : Among [2] (countersCase s c) := among_ite among_none (outCase_among s _ _ c)

/-! ### WATCH -/

/-- A watch may be armed on a sequence. -/
def watchMay (x : Inst) (c : MboxCmd) (q : Machine.Seq) : Prop :=
  seqT q.r ≤ prm c 4 4 ∧ (x.study.watches.filter (·.context == winCtx c.window)).length < 4 ∧ q.r.state.live = true

/-- The watch that the command arms. -/
def watchOf (c : MboxCmd) (q : Machine.Seq) : Watch :=
  { cmd := c.id, context := winCtx c.window, lid := q.r.localId, position := prm c 4 4, tensor := prm c 8 1, addr := prm c 0x10 8, size := prm c 0x18 4 }

/-- The tensor is one of the five and the buffer is aligned. -/
def watchOk (c : MboxCmd) : Prop := prm c 8 1 < 5 ∧ prm c 0x10 8 % 64 = 0

theorem doWatch_invalid (h : ¬watchOk c) : doWatch i c s = (aInvalid, s) := by
  refine if_pos ?_
  rw [watchOk, Classical.not_and_iff_not_or_not] at h
  simpa [outputOk] using h

theorem doWatch_none (h : watchOk c) (hnone : namedSeq (mir s i) (winCtx c.window) (prm c 0 4) = none) : doWatch i c s = (aNotFound, s) := by
  obtain ⟨htensor, halign⟩ := h
  refine (if_neg (by simp [outputOk, htensor, halign])).trans ?_
  rw [← mir_eq, hnone]

/-- A sequence that is named is not FREE. -/
theorem named_not_free {m : Mirrored} {k lid : Nat} {q : Machine.Seq} (h : namedSeq m k lid = some q) : q.r.state ≠ .free := by
  unfold namedSeq at h
  obtain ⟨x, _, hq⟩ := Option.bind_eq_some_iff.mp h
  split at hq
  · rename_i hx
    rw [← Option.some.inj hq]
    simpa using (Bool.and_eq_true_iff.mp hx).2
  · exact nomatch hq

theorem doWatch_some {q : Machine.Seq} (h : watchOk c) (hq : namedSeq (mir s i) (winCtx c.window) (prm c 0 4) = some q) :
    (¬watchMay (getInst s i) c q → doWatch i c s = (aWrong, s)) ∧
      (watchMay (getInst s i) c q → doWatch i c s =
        if prm c 0x18 4 < watchSize (mir s i) q.r (prm c 8 1) then (.now rFull (watchSize (mir s i) q.r (prm c 8 1)) [], s)
        else (.later, modStudy i (fun y => { y with watches := y.watches ++ [watchOf c q] }) s)) := by
  obtain ⟨htensor, halign⟩ := h
  have hfree := named_not_free hq
  have hcond : (decide (prm c 4 4 < seqT q.r) || decide (4 ≤ ((getInst s i).study.watches.filter (·.context == winCtx c.window)).length)
      || !(q.r.state.live || q.r.state == .free)) = true ↔ ¬watchMay (getInst s i) c q := by
    unfold watchMay
    rw [Bool.or_eq_true_iff, Bool.or_eq_true_iff, decide_eq_true_eq, decide_eq_true_eq, beq_false_of_ne hfree, Bool.or_false, Bool.not_eq_true']
    rw [Classical.not_and_iff_not_or_not, Classical.not_and_iff_not_or_not, Nat.not_le, Nat.not_lt, Bool.not_eq_true, or_assoc]
  have hdo : doWatch i c s = if (decide (prm c 4 4 < seqT q.r) || decide (4 ≤ ((getInst s i).study.watches.filter (·.context == winCtx c.window)).length)
      || !(q.r.state.live || q.r.state == .free)) = true then (aWrong, s)
      else if prm c 0x18 4 < watchSize (mir s i) q.r (prm c 8 1) then (.now rFull (watchSize (mir s i) q.r (prm c 8 1)) [], s)
      else (.later, modStudy i (fun y => { y with watches := y.watches ++ [watchOf c q] }) s) := by
    refine (if_neg (by simp [outputOk, htensor, halign])).trans ?_
    rw [← mir_eq, hq]
    rfl
  exact ⟨fun hnot => hdo.trans (if_pos (hcond.mpr hnot)), fun hmay => hdo.trans (if_neg fun hx => hcond.mp hx hmay)⟩

theorem watchMay_startCmd (i : InstId) (c : MboxCmd) (q : Machine.Seq) (s : State) : watchMay (getInst (startCmd i c s) i) c q = watchMay (getInst s i) c q := by
  cases i <;> rfl

/-- Settles O31: each command's function on the started state. -/
theorem studyCommands : Obligations.StudyCommands := by
  unfold Obligations.StudyCommands
  intro i w s c
  refine ⟨fun h => ?_, fun h => ?_, fun h => ?_⟩
  · intro on
    have htrace := DawnSet.traceOn_startCmd i c s
    have hcap : traceCap (getInst (startCmd i c s) i) = traceCap (getInst s i) := by cases i <;> rfl
    refine ⟨fun hbad => refuses_of_starts rfl h (doTrace_invalid hbad), fun hmask => ⟨fun hen hon => ?_, fun hen hoff hzero => ?_, fun hen hoff hroom => ?_,
      fun hen hon => ?_, fun hen hoff => ?_⟩⟩
    · exact answers_of_starts (after := fun v => v) rfl h ((doTrace_begin hmask hen).trans (if_pos (htrace.trans hon))) rfl
    · refine refuses_of_starts rfl h ((doTrace_begin hmask hen).trans ((if_neg ?_).trans (if_pos (hcap.trans hzero))))
      rw [htrace]
      exact (Bool.not_eq_true _).mpr hoff
    · refine answers_of_starts (after := startTrace i (prm c 4 4)) rfl h ((doTrace_begin hmask hen).trans ((if_neg ?_).trans (if_neg (by rw [hcap]; exact hroom)))) rfl
      rw [htrace]
      exact (Bool.not_eq_true _).mpr hoff
    · exact answers_of_starts (after := modStudy i (fun y => { y with traceOn := false, draining := some c.id })) rfl h
        ((doTrace_end hmask hen).trans (if_pos (htrace.trans hon))) rfl
    · refine refuses_of_starts rfl h ((doTrace_end hmask hen).trans (if_neg ?_))
      rw [htrace]
      exact (Bool.not_eq_true _).mpr hoff
  · intro bs
    have hrow : exec (.counters i w) s = serve i w 0xB2 (countersCase s) (doCounters i) s := rfl
    refine ⟨fun hbad => refuses_of_mayRefuse hrow (mayRefuse_of_noCase h (countersCase_among s c)) (doCounters_invalid hbad) rfl,
      fun hmask halign => ⟨fun hmet => ?_, fun hnone => ?_⟩⟩
    · obtain ⟨m, hm⟩ := Option.ne_none_iff_exists'.mp hmet
      obtain rfl : m = 2 := by simpa using outCase_among s _ _ c m hm
      exact stopsAt_of_overlap hrow h ((if_neg hmask).trans hm) (by rw [doCounters_eq hmask halign]; rfl)
    · exact answers_of_starts (after := fun v => v) hrow (starts_of_noCase h ((if_neg hmask).trans hnone)) (doCounters_eq hmask halign) rfl
  · obtain rfl := window_of_mayRefuse h
    intro ok named
    have hrow : exec (.watch i c.window) s = serve i c.window 0xB0 (watchCase s) (doWatch i) s := rfl
    have hst : starts i c.window 0xB0 noCase s c = true := (Bool.and_eq_true_iff.mp h).1
    have hnamed := OrdersPost.namedSeq_startCmd i c s
    refine ⟨fun hbad => refuses_of_mayRefuse hrow h (doWatch_invalid hbad) rfl,
      fun hok hnone => refuses_of_mayRefuse hrow h (doWatch_none hok (by rw [hnamed]; exact hnone)) rfl, fun q hok hq => ?_⟩
    intro may need
    obtain ⟨hwrong, hright⟩ := doWatch_some (s := startCmd i c s) (i := i) hok (by rw [hnamed]; exact hq)
    have hsize : watchSize (mir (startCmd i c s) i) q.r (prm c 8 1) = need := by rw [mir_startCmd]; rfl
    have hmay : watchMay (getInst (startCmd i c s) i) c q = may := watchMay_startCmd i c q s
    rw [hsize] at hright
    rw [hmay] at hright hwrong
    refine ⟨fun hnot => refuses_of_mayRefuse hrow h (hwrong hnot) rfl, fun hm hsmall => refuses_of_mayRefuse hrow h ((hright hm).trans (if_pos hsmall)) rfl,
      fun hm hroom hcase => stopsAt_of_overlap hrow hst hcase ?_, fun hm hroom hcase => ?_⟩
    · rw [hright hm, if_neg (Nat.not_lt.mpr hroom)]
      rfl
    · exact answers_of_starts (after := fun v => v) hrow (starts_of_noCase hst hcase) ((hright hm).trans (if_neg (Nat.not_lt.mpr hroom))) rfl

end Sys2Proof.StudySet

/-! SUPPORT. What a command's result and the Study's notes leave of the package: all but HBM, the messages to the host, and of their instance the mirrored state and the Study. -/

namespace Sys2Proof.Noting

open Sys2Proof Sys2Proof.Machine Sys2Proof.Laws Sys2Proof.Closers

variable {i : InstId} {s t : State}

/-- The two states differ in HBM, in the messages sent to the host, and in instance `i`'s mirrored state and Study, alone. -/
structure Noted (i : InstId) (s t : State) : Prop where
  package : t = { s with hbm := t.hbm, msix := t.msix, a := t.a, b := t.b }
  other : getInst t (Machine.other i) = getInst s (Machine.other i)
  inst : getInst t i = { getInst s i with mir := mir t i, study := (getInst t i).study }

theorem Noted.refl (i : InstId) (s : State) : Noted i s s := ⟨rfl, rfl, rfl⟩

theorem Noted.trans {u : State} (h : Noted i s t) (k : Noted i t u) : Noted i s u := by
  refine ⟨?_, k.other.trans h.other, ?_⟩
  · rw [k.package, h.package]
  · rw [k.inst, h.inst]

theorem Noted.tick (h : Noted i s t) : t.tick = s.tick := by rw [h.package]
theorem Noted.flash (h : Noted i s t) : t.flash = s.flash := by rw [h.package]
theorem Noted.host (h : Noted i s t) : t.host = s.host := by rw [h.package]
theorem Noted.outposts (h : Noted i s t) : t.outposts = s.outposts := by rw [h.package]
theorem Noted.hearth (h : Noted i s t) : (getInst t i).hearth = (getInst s i).hearth := by rw [h.inst]
theorem Noted.hall (h : Noted i s t) : (getInst t i).hall = (getInst s i).hall := by rw [h.inst]
theorem Noted.stair (h : Noted i s t) : (getInst t i).stair = (getInst s i).stair := by rw [h.inst]
theorem Noted.rel (h : Noted i s t) : (getInst t i).rel = (getInst s i).rel := by rw [h.inst]
theorem Noted.place (h : Noted i s t) : (getInst t i).place = (getInst s i).place := by rw [h.inst]

/-- Of both instances the Hearth stands. -/
theorem Noted.hearths (h : Noted i s t) (j : InstId) : (getInst t j).hearth = (getInst s j).hearth := by
  by_cases hj : j = i
  · rw [hj, h.hearth]
  · have : j = Machine.other i := by cases i <;> cases j <;> first | rfl | exact absurd rfl hj
    rw [this, h.other]

theorem modMir_noted (f : Mirrored → Mirrored) (h : Noted i s t) : Noted i s (modMir i f t) :=
  h.trans (by cases i <;> exact ⟨rfl, rfl, rfl⟩)

theorem modStudy_noted (f : Study → Study) (h : Noted i s t) : Noted i s (modStudy i f t) :=
  h.trans (by cases i <;> exact ⟨rfl, rfl, rfl⟩)

theorem hbmPut_noted (a : Nat) (bs : List Byte) (h : Noted i s t) : Noted i s (hbmPut a bs t) :=
  h.trans (by cases i <;> exact ⟨rfl, rfl, rfl⟩)

theorem raiseIrq_noted (b : Nat) (h : Noted i s t) : Noted i s (raiseIrq i b t) :=
  h.trans (by cases i <;> exact ⟨rfl, rfl, rfl⟩)

theorem setCause_noted (k : Nat) (h : Noted i s t) : Noted i s (setCause i k t) := by
  unfold setCause
  dsimp only
  split
  · exact h
  · split
    · exact raiseIrq_noted _ (modStudy_noted _ h)
    · exact modStudy_noted _ h

theorem traceStore_noted (r : TraceRec) (h : Noted i s t) : Noted i s (traceStore i r t).1 := by
  unfold traceStore
  dsimp only
  split
  · exact h
  · split
    · exact h
    · dsimp only
      split
      · exact setCause_noted _ (modStudy_noted _ (hbmPut_noted _ _ h))
      · exact modStudy_noted _ (hbmPut_noted _ _ h)

theorem traceGap_noted (h : Noted i s t) : Noted i s (traceGap i t) := by
  unfold traceGap
  dsimp only
  split
  · exact h
  · split
    · exact traceStore_noted _ (setCause_noted _ (modStudy_noted _ (traceStore_noted _ h)))
    · exact traceStore_noted _ h

theorem traceDrop_noted (r : TraceRec) (h : Noted i s t) : Noted i s (traceDrop i r t) := by
  unfold traceDrop
  split
  · exact h
  · exact modStudy_noted _ h

theorem traceWrite_noted (r : TraceRec) (h : Noted i s t) : Noted i s (traceWrite i r t) := by
  unfold traceWrite
  dsimp only
  split
  · exact traceStore_noted _ (traceGap_noted h)
  · exact traceDrop_noted _ (traceStore_noted _ (traceGap_noted h))

theorem foldl_noted {α : Type} {f : State → α → State} (hf : ∀ u x, Noted i s u → Noted i s (f u x)) :
    ∀ (l : List α) {t : State}, Noted i s t → Noted i s (l.foldl f t)
  | [], _, h => h
  | x :: l, _, h => foldl_noted hf l (hf _ x h)

theorem traceBurst_noted (n : Nat) (h : Noted i s t) : Noted i s (traceBurst i n t) :=
  foldl_noted (fun _ _ k => traceWrite_noted _ k) _ (modStudy_noted _ h)

theorem traceAdd_noted (r : TraceRec) (h : Noted i s t) : Noted i s (traceAdd i r t) := by
  unfold traceAdd
  dsimp only
  split
  · exact h
  · split
    · exact traceDrop_noted _ h
    · split
      · exact traceBurst_noted _ (modStudy_noted _ h)
      · exact modStudy_noted _ h

theorem traceMark_noted (side w code : Nat) (h : Noted i s t) : Noted i s (traceMark i side w code t) := by
  unfold traceMark
  split
  · exact traceAdd_noted _ h
  · exact h

theorem commandLatch_noted (side w code cookie : Nat) (h : Noted i s t) : Noted i s (commandLatch i side w code cookie t) := by
  unfold commandLatch
  dsimp only
  split
  · exact traceMark_noted _ _ _ h
  · exact hbmPut_noted _ _ (traceMark_noted _ _ _ h)

theorem ringPush_noted (ring unit event object : Nat) (payload : List Nat) (h : Noted i s t) : Noted i s (ringPush i ring unit event object payload t) := by
  unfold ringPush ringEnter
  exact modStudy_noted _ h

theorem pushResult_noted (w : Nat) (irq : Bool) (e : ResultEntry) (h : Noted i s t) : Noted i s (pushResult i w irq e t) := by
  unfold pushResult
  dsimp only
  split
  · exact raiseIrq_noted _ (modMir_noted _ h)
  · exact modMir_noted _ h

/-- A command's result, written. -/
theorem finishCmd_noted (id result detail : Nat) (data : List Byte) (h : Noted i s t) : Noted i s (finishCmd i id result detail data t) := by
  unfold finishCmd
  split
  · exact h
  · rename_i c _
    have htaken := modMir_noted (fun m => { m with mbox := m.mbox.filter (·.id != id) }) (commandLatch_noted 1 c.window c.code c.cookie h)
    cases c.timer with
    | none => exact pushResult_noted _ _ _ (ringPush_noted _ _ _ _ _ htaken)
    | some n => exact pushResult_noted _ _ _ (ringPush_noted _ _ _ _ _ (modMir_noted _ htaken))

theorem startCmd_noted (c : MboxCmd) (h : Noted i s t) : Noted i s (startCmd i c t) := by
  unfold startCmd modCmd modAcct modCtx
  exact ringPush_noted _ _ _ _ _ (modMir_noted _ (modMir_noted _ h))

/-- A command that has its result is out of the mailbox journal. -/
theorem mbox_finishCmd (id result detail : Nat) (data : List Byte) (s : State) :
    (mir (finishCmd i id result detail data s) i).mbox = (mir s i).mbox.filter (·.id != id) := by
  unfold finishCmd
  cases hfind : findCmd (mir s i) id with
  | none =>
    refine (List.filter_eq_self.mpr fun x hx => ?_).symm
    simpa using List.find?_eq_none.mp hfind x hx
  | some c =>
    have hlatched := Tracing.commandLatch_irqOnly 1 c.window c.code c.cookie (Tracing.IrqOnly.refl i s)
    have hmbox : (mir (commandLatch i 1 c.window c.code c.cookie s) i).mbox = (mir s i).mbox := by rw [hlatched]
    rw [← hmbox]
    dsimp only
    rw [(Mailboxes.mir_pushResult i _ _ _ _).2]
    cases c.timer <;> cases i <;> rfl

end Sys2Proof.Noting

/-! SUPPORT. Directions of a model, and firmware images (spec/16 R344, spec/13 R279, spec/01 R25). -/

namespace Sys2Proof.ImageUpdates

open Sys2Proof Sys2Proof.Machine Sys2Proof.Laws Sys2Proof.Serving Sys2Proof.Cases Sys2Proof.Closers Sys2Proof.Noting

variable {i : InstId} {c : MboxCmd} {s : State}

/-! ### Directions -/

/-- The candidates that the peer table does not know. -/
def freshPeers (s : State) (i : InstId) (as : List Nat) : List Nat := as.eraseDups.filter fun a => !((getInst s i).stair.peers.any (·.addr == a))

/-- Each new candidate enters the peer table and is told of the instance. -/
def tellPeers (i : InstId) (fresh : List Nat) (v : State) : State :=
  fresh.foldl (fun v a => sendMsg i { mkMsg tAnnounce a with payload := announcePayload (getInst v i) }
    (modStair i (fun t => { t with peers := addPeer (mir v i) { addr := a } t.peers }) v)) v

/-- The candidates of model `k` become `as`. -/
def directedTo (i : InstId) (k n : Nat) (as : List Nat) (s : State) : State :=
  modMir i (fun m => { m with directions := if n = 0 then del k m.directions else put k as m.directions }) s

theorem doDirectionsSet_eq {list : List Byte} (hfew : prm c 4 4 ≤ 16) : doDirectionsSet i list c s =
    (aOk, foyerRound i (tellPeers i (freshPeers s i (directionEntries (prm c 4 4) list))
      (journalObj i (.directions (prm c 0 1) (directionEntries (prm c 4 4) list)) (directedTo i (prm c 0 1) (prm c 4 4) (directionEntries (prm c 4 4) list) s)))) := by
  have hpeers : ∀ as, freshPeers (journalObj i (.directions (prm c 0 1) as) (directedTo i (prm c 0 1) (prm c 4 4) as s)) i as = freshPeers s i as :=
    fun as => by cases i <;> rfl
  rw [← hpeers]
  exact if_neg (Nat.not_lt.mpr hfew)

/-! ### Images -/

/-- An image is being written, or is on trial. -/
def imageBusy (s : State) : Prop := bootTrial s.flash.boot = true ∨ s.a.hearth.imgWrite ≠ none ∨ s.b.hearth.imgWrite ≠ none

/-- The image that IMAGE_WRITE asks to write. -/
def imageOf (h : Hearth) (img : List Byte) (c : MboxCmd) : ImgWrite :=
  { cmd := c.id, slot := !h.slot, prefer := (prm c 12 4).testBit 0, img := slice img 0 (prm c 8 4) }

/-- The operation waits for the grant. -/
def imageAsked (i : InstId) (img : List Byte) (c : MboxCmd) (s : State) : State :=
  askGrant i .program (modHearth i (fun h => { h with imgWrite := some (imageOf (getInst s i).hearth img c) }) s)

theorem doImageWrite_eq {img : List Byte} (hfit : prm c 8 4 ≤ 16777216) :
    (imageBusy s → doImageWrite i img c s = (aWrong, s)) ∧ (¬imageBusy s → doImageWrite i img c s = (.later, imageAsked i img c s)) := by
  have hbusy : (bootTrial s.flash.boot || s.a.hearth.imgWrite.isSome || s.b.hearth.imgWrite.isSome) = true ↔ imageBusy s := by
    rw [Bool.or_eq_true_iff, Bool.or_eq_true_iff, Option.isSome_iff_ne_none, Option.isSome_iff_ne_none, or_assoc]
    rfl
  exact ⟨fun h => (if_neg (Nat.not_lt.mpr hfit)).trans (if_pos (hbusy.mpr h)), fun h => (if_neg (Nat.not_lt.mpr hfit)).trans (if_neg fun hx => h (hbusy.mp hx))⟩

theorem imageBusy_startCmd (i : InstId) (c : MboxCmd) (s : State) : imageBusy (startCmd i c s) = imageBusy s := by cases i <;> rfl

/-- A slot is written, and the operation is over. -/
def slotWritten (i : InstId) (slot : Bool) (b : List Byte) (s : State) : State :=
  modHearth i (fun h => { h with imgWrite := none }) { s with flash := putSlot slot b s.flash }

/-- The slot's image goes on trial. -/
def onTrial (slot trial : Bool) (s : State) : State :=
  if trial then { s with flash := { s.flash with boot := rewriteBoot (bit slot) 0x5A s.flash.boot } } else s

/-- The flash die and the Hearth when the die has ended its operation. -/
def programmed (i : InstId) (g : ImgWrite) (ok : Bool) (s : State) : State :=
  dropGrant i (onTrial g.slot (ok && g.prefer && (checksFail g.img).isNone) (slotWritten i g.slot (if ok then g.img else []) s))

/-- The result that the image's checks give. -/
def programResult (ok : Bool) (g : ImgWrite) : Nat × Nat :=
  if ok then ((checksFail g.img).map fun k => (rCheckFailed, k)).getD (rOk, 0) else (rIoError, 0)

theorem exec_imageProgramDone {g : ImgWrite} {ok : Bool} (hg : (getInst s i).hearth.imgWrite = some g) (hruns : g.programming = true) :
    exec (.imageProgramDone i ok) s = done i s (finishCmd i g.cmd (programResult ok g).1 (programResult ok g).2 [] (programmed i g ok s)) := by
  show execImageProgramDone i ok s = _
  unfold execImageProgramDone
  rw [hg]
  dsimp only
  rw [if_neg (by rw [hruns]; exact Bool.false_ne_true)]
  cases ok
  · rfl
  · unfold programResult programmed onTrial slotWritten
    cases checksFail g.img <;> rfl

theorem dropGrant_boot (i : InstId) (s : State) : (dropGrant i s).flash.boot = s.flash.boot ∧ (∀ k, slotOf (dropGrant i s).flash k = slotOf s.flash k) ∧
    ∀ j, (getInst (dropGrant i s) j).hearth = (getInst s j).hearth := by
  unfold dropGrant
  split
  · split
    · exact ⟨rfl, fun k => by cases k <;> rfl, fun j => by cases j <;> rfl⟩
    · exact ⟨rfl, fun _ => rfl, fun _ => rfl⟩
  · exact ⟨rfl, fun _ => rfl, fun _ => rfl⟩

theorem programmed_eq (i : InstId) (g : ImgWrite) (ok : Bool) (s : State) :
    slotOf (programmed i g ok s).flash g.slot = some (if ok then g.img else []) ∧ (getInst (programmed i g ok s) i).hearth.imgWrite = none ∧
      (programmed i g ok s).flash.boot = if ok && g.prefer && (checksFail g.img).isNone then rewriteBoot (bit g.slot) 0x5A s.flash.boot else s.flash.boot := by
  have hwritten : ∀ slot b, (slotWritten i slot b s).flash = putSlot slot b s.flash ∧ (getInst (slotWritten i slot b s) i).hearth.imgWrite = none :=
    fun slot b => by cases i <;> exact ⟨rfl, rfl⟩
  have hput : ∀ slot b, (putSlot slot b s.flash).boot = s.flash.boot := fun slot b => by cases slot <;> rfl
  have htrial : ∀ trial u, slotOf (onTrial g.slot trial u).flash g.slot = slotOf u.flash g.slot ∧ (getInst (onTrial g.slot trial u) i).hearth = (getInst u i).hearth ∧
      (onTrial g.slot trial u).flash.boot = if trial then rewriteBoot (bit g.slot) 0x5A u.flash.boot else u.flash.boot := by
    intro trial u
    cases trial
    · exact ⟨rfl, rfl, rfl⟩
    · exact ⟨by cases g.slot <;> rfl, by cases i <;> rfl, rfl⟩
  unfold programmed
  obtain ⟨hboot, hslot, hhearth⟩ := dropGrant_boot i (onTrial g.slot (ok && g.prefer && (checksFail g.img).isNone) (slotWritten i g.slot (if ok then g.img else []) s))
  obtain ⟨htslot, hthearth, htboot⟩ := htrial (ok && g.prefer && (checksFail g.img).isNone) (slotWritten i g.slot (if ok then g.img else []) s)
  obtain ⟨hflash, hnone⟩ := hwritten g.slot (if ok then g.img else [])
  rw [hslot, hhearth, hboot, htslot, hthearth, htboot, hflash, hput, DawnRules.slotOf_putSlot]
  exact ⟨rfl, hnone, rfl⟩

/-- The die's end of the operation. -/
theorem goes_imageProgramDone {g : ImgWrite} {ok : Bool} (hg : (getInst s i).hearth.imgWrite = some g) (hruns : g.programming = true) :
    Goes (.imageProgramDone i ok) s (fun t => slotOf t.flash g.slot = some (if ok then g.img else []) ∧ (getInst t i).hearth.imgWrite = none ∧
      t.flash.boot = if ok && g.prefer && (checksFail g.img).isNone then rewriteBoot (bit g.slot) 0x5A s.flash.boot else s.flash.boot) := by
  refine goes_done (exec_imageProgramDone hg hruns) ?_
  have hkept := finishCmd_noted g.cmd (programResult ok g).1 (programResult ok g).2 [] (Noted.refl i (programmed i g ok s))
  rw [mirrorOut_flash, mirrorOut_hearth, hkept.flash, hkept.hearth]
  exact programmed_eq i g ok s

/-! ### The end of a trial -/

/-- The boot record is rewritten, and neither instance runs an image on trial. -/
def confirmed (rest : List (InstId × FlashUse)) (s : State) : State :=
  modHearth .A (fun h => { h with trial := false }) (modHearth .B (fun h => { h with trial := false })
    { s with flash := { s.flash with holder := none, waiting := rest, boot := rewriteBoot (bit (bootPreferred s.flash.boot)) 0 s.flash.boot } })

theorem exec_flashGrant_confirm {cmd : Nat} {rest : List (InstId × FlashUse)} (hfree : s.flash.holder = none) (hwaits : s.flash.waiting = (i, .confirm cmd) :: rest) :
    exec .flashGrant s = done i s (finishCmd i cmd rOk 0 [] (confirmed rest s)) := by
  show execFlashGrant s = _
  rw [execFlashGrant, hfree, hwaits]
  dsimp only
  rw [confirmBoot, DawnRules.dropGrant_of_holder rfl]
  rfl

theorem hearths_mirrorOut (i j : InstId) (s t : State) : (getInst (mirrorOut i s t) j).hearth = (getInst t j).hearth := by
  by_cases hj : j = i
  · rw [hj, mirrorOut_hearth]
  · have : j = Machine.other i := by cases i <;> cases j <;> first | rfl | exact absurd rfl hj
    rw [this, mirrorOut_other]

/-- Settles O32: each command's function, the die's two ends of an operation, and the grant that confirms. -/
theorem directionsAndImages : Obligations.DirectionsAndImages := by
  unfold Obligations.DirectionsAndImages
  intro i w s
  refine ⟨fun list c h => ?_, fun img c h => ?_, fun g hg hruns => ⟨?_, ?_⟩, fun c h => answers_of_starts (after := fun v => v) rfl h rfl rfl,
    fun cmd rest hfree hwaits => ?_⟩
  · intro k n as fresh tell
    have hpeers : freshPeers (startCmd i c s) i as = fresh := by cases i <;> rfl
    refine ⟨fun hmany => refuses_of_starts rfl h (if_pos hmany), fun hfew => ?_⟩
    have hdo := doDirectionsSet_eq (i := i) (c := c) (s := startCmd i c s) (list := list) hfew
    rw [hpeers] at hdo
    exact answers_of_starts (after := fun v => foyerRound i (tellPeers i fresh (journalObj i (.directions k as) v))) rfl h hdo rfl
  · intro busy
    have hbusy : imageBusy (startCmd i c s) = busy := imageBusy_startCmd i c s
    refine ⟨fun hbig => refuses_of_starts rfl h (if_pos hbig), fun hfit hb => ?_, fun hfit hidle => ?_⟩
    · exact refuses_of_starts rfl h ((doImageWrite_eq hfit).1 (by rw [hbusy]; exact hb))
    · refine answers_of_starts (after := fun v => v) rfl h ((doImageWrite_eq hfit).2 (by rw [hbusy]; exact hidle)) ?_
      cases i <;> exact ⟨rfl, rfl, rfl⟩
  · obtain ⟨t, hexec, hslot, hnone, hboot⟩ := goes_imageProgramDone (ok := false) hg hruns
    exact ⟨t, hexec, hslot, hboot, hnone⟩
  · obtain ⟨t, hexec, hslot, hnone, hboot⟩ := goes_imageProgramDone (ok := true) hg hruns
    refine ⟨t, hexec, hslot, hnone, ?_⟩
    rw [hboot, Bool.true_and, Bool.and_comm]
  · refine goes_done (exec_flashGrant_confirm hfree hwaits) ?_
    have hkept := finishCmd_noted cmd rOk 0 [] (Noted.refl i (confirmed rest s))
    have hhearth : ∀ j, (getInst (mirrorOut i s (finishCmd i cmd rOk 0 [] (confirmed rest s))) j).hearth = (getInst (confirmed rest s) j).hearth :=
      fun j => by rw [hearths_mirrorOut, hkept.hearths]
    refine ⟨?_, hhearth .A, hhearth .B, ?_⟩
    · rw [mirrorOut_flash, hkept.flash]
      show { s.flash with holder := none, waiting := rest, boot := rewriteBoot (bit (bootPreferred s.flash.boot)) 0 s.flash.boot } = _
      rw [← hfree]
    · rw [mir_eq, mirrorOut_mir, ← mir_eq, mbox_finishCmd]
      cases i <;> rfl

end Sys2Proof.ImageUpdates

/-! SUPPORT. The doorbells, the completion ring and the moderation of its interrupt (spec/14 R307-R312). -/

namespace Sys2Proof.RingRules

open Sys2Proof Sys2Proof.Machine Sys2Proof.Laws Sys2Proof.Closers

variable {i : InstId} {k v : Nat} {s : State}

/-! ### The doorbells -/

theorem guarded_none {n : Option Nat} {t : State} (h : n = none) : guarded i n s t = settle i s t := by rw [h]; rfl

theorem guarded_some {n : Option Nat} {m : Nat} {t : State} (h : n = some m) : guarded i n s t = .fault (.undefinedCase m) := by rw [h]; rfl

theorem getD_of_length_le {α : Type} {l : List α} {n : Nat} (d : α) (h : l.length ≤ n) : l.getD n d = d := by
  rw [List.getD_eq_getElem?_getD, List.getElem?_eq_none h, Option.getD_none]

/-- A context that is open is one of the instance's. -/
theorem lt_of_isOpen {m : Mirrored} (h : (getCtx m k).isOpen = true) : k < m.ctxs.length := by
  refine Classical.byContradiction fun hge => ?_
  rw [getCtx, getD_of_length_le _ (Nat.le_of_not_lt hge)] at h
  exact Bool.noConfusion h

theorem setSqTail_eq (hopen : (getCtx (mir s i) k).isOpen = true) :
    mir (setSqTail i k v s) i = { mir s i with ctxs := modAt (mir s i).ctxs k fun x => { x with sqTail := v } } ∧
      (setSqTail i k v s).host = s.host ∧ (setSqTail i k v s).hbm = s.hbm := by
  rw [setSqTail, if_pos hopen]
  cases i <;> exact ⟨rfl, rfl, rfl⟩

theorem setSqTail_shut (hshut : (getCtx (mir s i) k).isOpen = false) : setSqTail i k v s = s := if_neg (by rw [hshut]; exact Bool.false_ne_true)

theorem setCqHead_shut (hshut : (getCtx (mir s i) k).isOpen = false) : setCqHead i k v s = s := if_pos (by rw [hshut]; rfl)

theorem freeArrivals_memories (i : InstId) (l : List (Nat × Nat)) (s : State) :
    (ContextOpen.freeArrivals i l s).host = s.host ∧ (ContextOpen.freeArrivals i l s).hbm = s.hbm :=
  ⟨Discovery.foldl_keeps (g := State.host) (f := fun t (p : Nat × Nat) => freeArrival i p.2 t) (fun t p => by cases i <;> rfl) l s,
    Discovery.foldl_keeps (g := State.hbm) (f := fun t (p : Nat × Nat) => freeArrival i p.2 t) (fun t p => by cases i <;> rfl) l s⟩

/-- The arrivals whose releasing record the host has passed. -/
def passedBy (x : Ctx) (v : Nat) (p : Nat × Nat) : Bool := decide (ringDiff p.1 x.cqHead < ringDiff v x.cqHead)

theorem setCqHead_open (hopen : (getCtx (mir s i) k).isOpen = true) : setCqHead i k v s =
    let x := getCtx (mir s i) k
    journalRing i k (modCtx i k (fun y => { y with cqHead := v, arrivalDue := y.arrivalDue.filter fun p => !passedBy x v p })
      (ContextOpen.freeArrivals i (x.arrivalDue.filter (passedBy x v)) s)) := by
  unfold setCqHead
  dsimp only
  rw [if_neg (by rw [hopen]; exact Bool.false_ne_true)]
  rfl

theorem journalRing_kept (i : InstId) (k : Nat) (s : State) :
    mir (journalRing i k s) i = mir s i ∧ (journalRing i k s).host = s.host ∧ (journalRing i k s).hbm = s.hbm := by
  cases i <;> exact ⟨rfl, rfl, rfl⟩

/-- What a write of `cq_head` leaves of its context, of the others and of the rest. -/
theorem setCqHead_eq (hopen : (getCtx (mir s i) k).isOpen = true) :
    let t := setCqHead i k v s
    (getCtx (mir t i) k).cqHead = v ∧ (getCtx (mir t i) k).cqTail = (getCtx (mir s i) k).cqTail ∧ (getCtx (mir t i) k).stream = (getCtx (mir s i) k).stream ∧
      (∀ n, n ≠ k → getCtx (mir t i) n = getCtx (mir s i) n) ∧ (mir t i).seqs = (mir s i).seqs ∧ t.host = s.host ∧ t.hbm = s.hbm := by
  intro t
  have ht : t = _ := setCqHead_open hopen
  let x := getCtx (mir s i) k
  let freed := ContextOpen.freeArrivals i (x.arrivalDue.filter (passedBy x v)) s
  obtain ⟨hctxs, _, _⟩ := ContextOpen.freeArrivals_kept i (x.arrivalDue.filter (passedBy x v)) s
  obtain ⟨hhost, hhbm⟩ := freeArrivals_memories i (x.arrivalDue.filter (passedBy x v)) s
  have hseqs := ContextLifes.freeArrivals_seqs i (x.arrivalDue.filter (passedBy x v)) s
  obtain ⟨hmir, hhost', hhbm'⟩ := journalRing_kept i k
    (modCtx i k (fun y => { y with cqHead := v, arrivalDue := y.arrivalDue.filter fun p => !passedBy x v p }) freed)
  have hall : mir t i = { mir freed i with ctxs := modAt (mir freed i).ctxs k fun y => { y with cqHead := v, arrivalDue := y.arrivalDue.filter fun p => !passedBy x v p } } := by
    rw [ht]
    dsimp only
    rw [hmir, mir_eq, getInst_modCtx]
    rfl
  have hget : getCtx (mir t i) k = { x with cqHead := v, arrivalDue := x.arrivalDue.filter fun p => !passedBy x v p } := by
    rw [getCtx, hall]
    dsimp only
    rw [hctxs, getD_modAt _ _ _ _ (lt_of_isOpen hopen)]
    rfl
  refine ⟨by rw [hget], by rw [hget], by rw [hget], fun n hn => ?_, ?_, ?_, ?_⟩
  · rw [getCtx, hall]
    dsimp only
    rw [hctxs, getD_modAt_ne _ _ _ _ _ hn, getCtx]
  · rw [hall]
    exact hseqs
  · rw [ht]
    dsimp only
    rw [hhost', modCtx_host]
    exact hhost
  · rw [ht]
    dsimp only
    rw [hhbm', modCtx_hbm]
    exact hhbm

/-! ### The completion ring -/

theorem writeRing_kept (cfg : CtxCfg) (i : InstId) : ∀ (l : List Completion) (n : Nat) (s : State),
    getInst (writeRing cfg n l s) i = getInst s i ∧ (writeRing cfg n l s).hbm = s.hbm
  | [], _, _ => ⟨rfl, rfl⟩
  | r :: l, n, s => by
    rw [writeRing]
    obtain ⟨hinst, hhbm⟩ := writeRing_kept cfg i l (wrapTo 32 (n + 1)) (hostPut (cfg.cqBase + 32 * (n % cfg.cqEntries)) (completionBytes r) s)
    rw [hinst, hhbm, getInst_hostPut, hostPut_hbm]
    exact ⟨rfl, rfl⟩

/-- The records in the ring, before the shadow is written. -/
def ringed (i : InstId) (k : Nat) (s : State) : State :=
  modCtx i k (ringWritten s.tick (cqWrites s i k))
    (writeRing (getCtx (mir s i) k).cfg (getCtx (mir s i) k).cqTail ((getCtx (mir s i) k).stream.take (cqWrites s i k)) s)

theorem testCq_kept (i : InstId) (k : Nat) (s : State) : (testCq i k s).host = s.host ∧ (testCq i k s).hbm = s.hbm ∧
    (mir (testCq i k s) i).ctxs = (mir s i).ctxs ∧ (mir (testCq i k s) i).seqs = (mir s i).seqs := by
  unfold testCq
  split
  · cases i <;> exact ⟨rfl, rfl, rfl, rfl⟩
  · exact ⟨rfl, rfl, rfl, rfl⟩

theorem exec_cqRingWrite (hsome : cqWrites s i k ≠ 0) : exec (.cqRingWrite i k) s =
    let t := testCq i k (writeShadow i k (ringed i k s))
    settle i s (if (getCtx (mir s i) k).cqHold && !(getCtx (mir t i) k).cqHold then foyerRound i (ringPush i 5 0x025 3 0 [k] t) else t) :=
  if_neg hsome

theorem mir_ringed (i : InstId) (k : Nat) (s : State) :
    (mir (ringed i k s) i).ctxs = modAt (mir s i).ctxs k (ringWritten s.tick (cqWrites s i k)) ∧ (mir (ringed i k s) i).seqs = (mir s i).seqs ∧
      (ringed i k s).hbm = s.hbm := by
  unfold ringed
  obtain ⟨hinst, hhbm⟩ := writeRing_kept (getCtx (mir s i) k).cfg i ((getCtx (mir s i) k).stream.take (cqWrites s i k)) (getCtx (mir s i) k).cqTail s
  rw [mir_eq, getInst_modCtx, hinst, modCtx_hbm, hhbm]
  exact ⟨rfl, rfl, rfl⟩

theorem writeShadow_kept (i : InstId) (k : Nat) (s : State) : mir (writeShadow i k s) i = mir s i ∧ (writeShadow i k s).hbm = s.hbm := by
  cases i <;> exact ⟨rfl, rfl⟩

theorem cqDue_iff (x : Ctx) (tick : Nat) : cqDue x tick = true ↔
    x.unsignalled ≠ 0 ∧ (max x.irqCount 1 ≤ x.unsignalled ∨ (x.irqTicks ≠ 0 ∧ x.oldestTick + x.irqTicks ≤ tick)) := by
  simp [cqDue]

/-- Settles O33: each doorbell's three cases, the ring's write, and the moderation's test. -/
theorem rings : Obligations.Rings := by
  unfold Obligations.Rings
  refine ⟨fun i k v s => ⟨fun hshut => ?_, fun htakes => ?_⟩, fun i k s => ?_, fun i k s => ?_⟩
  · have hnot : ¬porchTakes s i = true := by rw [hshut]; exact Bool.false_ne_true
    exact ⟨if_neg hnot, if_neg hnot⟩
  · intro x
    have hsq : exec (.sqTailDoorbell i k v) s = guarded i (sqTailCase x v) s (setSqTail i k v s) := if_pos htakes
    have hcq : exec (.cqHeadWrite i k v) s = guarded i (cqHeadCase x v) s (setCqHead i k v s) := if_pos htakes
    refine ⟨fun hopen hin => ⟨_, hsq.trans (guarded_none (if_neg ?_)), setSqTail_eq hopen⟩, fun hopen hout => hsq.trans (guarded_some (if_pos ?_)),
      fun hopen hin => ⟨_, hcq.trans (guarded_none (if_neg ?_)), setCqHead_eq hopen⟩, fun hopen hout => hcq.trans (guarded_some (if_pos ?_)),
      fun hshut => ⟨⟨_, hsq.trans (guarded_none (if_neg ?_)), setSqTail_shut hshut⟩, ⟨_, hcq.trans (guarded_none (if_neg ?_)), setCqHead_shut hshut⟩⟩⟩
    · simpa [hopen] using hin
    · simpa [hopen] using hout
    · simpa [hopen] using hin
    · simpa [hopen] using hout
    · rw [hshut]
      exact Bool.false_ne_true
    · rw [hshut]
      exact Bool.false_ne_true
  · intro x n
    refine ⟨fun hnone => if_pos hnone, fun hsome => ⟨_, exec_cqRingWrite hsome, ?_⟩⟩
    obtain ⟨hhost, hhbm, hctxs, hseqs⟩ := testCq_kept i k (writeShadow i k (ringed i k s))
    obtain ⟨hmir', hhbm'⟩ := writeShadow_kept i k (ringed i k s)
    obtain ⟨hctxs', hseqs', hhbm''⟩ := mir_ringed i k s
    rw [hhost, hctxs, hhbm, hseqs, hmir', hhbm']
    exact ⟨rfl, hctxs', hhbm'', hseqs'⟩
  · intro x due
    have hdue := cqDue_iff x s.tick
    refine ⟨fun hact hd => ⟨_, if_pos hact, if_pos (hdue.mpr hd)⟩, fun hact hd => ⟨_, if_pos hact, if_neg fun hx => hd (hdue.mp hx)⟩, fun hidle => if_neg ?_⟩
    rw [hidle]
    exact Bool.false_ne_true

end Sys2Proof.RingRules

/-! SUPPORT. The Foyer's timers, context faults and teardowns (spec/03 R63, R64, spec/12 R251, R261, spec/15 R332, R333). -/

namespace Sys2Proof.FoyerRules

open Sys2Proof Sys2Proof.Machine Sys2Proof.Laws Sys2Proof.Mailboxes

/-- Spilling marks entries and leaves their list, flow and due tick. -/
theorem duskSpill_map (list : Nat) (ds : List Dusk) :
    ∃ g : Dusk → Dusk, duskSpill list ds = ds.map g ∧ ∀ d, (g d).list = d.list ∧ (g d).flow = d.flow ∧ (g d).due = d.due := by
  unfold duskSpill
  dsimp only
  split
  · exact ⟨id, (List.map_id ds).symm, fun _ => ⟨rfl, rfl, rfl⟩⟩
  · refine ⟨_, rfl, fun d => ?_⟩
    split <;> exact ⟨rfl, rfl, rfl⟩

/-- A unit's entry is the only one of its list and flow. -/
theorem duskUnit_dues (i : InstId) (list n due : Nat) (s : State) :
    ((mir (duskUnit i list n due s) i).dusk.filter fun d => d.list == list && d.flow == .unit n).map (·.due) = [due] := by
  obtain ⟨g, hg, hkeep⟩ := duskSpill_map list (duskDel list (.unit n) (mir s i).dusk ++
    [{ list := list, flow := .unit n, due := due, handle := (mir s i).nextHandle,
       spilled := (duskDel list (.unit n) (mir s i).dusk).any fun d => d.list == list && d.spilled && d.due ≤ due }])
  have hdusk : (mir (duskUnit i list n due s) i).dusk = _ := (congrArg Mirrored.dusk (mir_modMir i _ s)).trans hg
  have hone : (fun d : Dusk => (d.list == list && d.flow == .unit n)) ∘ g = fun d => d.list == list && d.flow == .unit n := by
    funext d
    rw [Function.comp_apply, (hkeep d).1, (hkeep d).2.1]
  have hdel : (duskDel list (.unit n) (mir s i).dusk).filter (fun d => d.list == list && d.flow == .unit n) = [] := by
    rw [duskDel, List.filter_filter, List.filter_eq_nil_iff]
    intro d _
    cases d.list == list && d.flow == .unit n <;> decide
  rw [hdusk, List.filter_map, hone, List.filter_append, hdel, List.nil_append, List.map_map]
  have hnew : (list == list && (Flow.unit n == Flow.unit n)) = true := by simp
  simp [List.filter, hkeep]

theorem foyerTimers (i : InstId) (s : State) :
    (activeInst s i = true → foyerTimed (getInst s i) = false →
      Ends (.foyerReevaluation i) i s (foyerRound i) (fun v => v = duskUnit i 1 foyerUnit (s.tick + 16) s)) ∧
    (activeInst s i = false ∨ foyerTimed (getInst s i) = true →
      let u := fireDue i 1 (.unit foyerUnit) s
      (dueTimer u i 1 (.unit foyerUnit) = none → Mirrors (.foyerReevaluation i) i s (fun t => t = u)) ∧
      ∀ h due, dueTimer u i 1 (.unit foyerUnit) = some (h, due) →
        Ends (.foyerReevaluation i) i s (foyerRound i) (fun v => v = duskUnit i 1 foyerUnit (max (due + 16) (s.tick + 1)) (releaseEvent i (.unit foyerUnit) u))) := by
  refine ⟨fun hact hnone => ⟨_, if_pos (by rw [hact, hnone]; rfl), rfl⟩, fun hor => ?_⟩
  have hnot : ¬ (activeInst s i && !foyerTimed (getInst s i)) = true := by
    rcases hor with h | h <;> rw [h] <;> simp
  have hrow : exec (.foyerReevaluation i) s = _ := if_neg hnot
  refine ⟨fun hdue => ⟨_, hrow.trans ?_, rfl⟩, fun h due hdue => ⟨_, hrow.trans ?_, rfl⟩⟩
  · rw [hdue]; rfl
  · rw [hdue]; rfl

theorem deferLimit (i : InstId) (k : Nat) (s : State) :
    let u := fireDue i 2 (.unit k) s
    (dueTimer u i 2 (.unit k) = none → Mirrors (.deferLimitExpiry i k) i s (fun t => t = u)) ∧
    ∀ p, dueTimer u i 2 (.unit k) = some p →
      Ends (.deferLimitExpiry i k) i s (foyerRound i) (fun v => v = expireDeferred i k (releaseEvent i (.unit k) u)) := by
  have hrow : exec (.deferLimitExpiry i k) s = execDeferLimitExpiry i k s := rfl
  refine ⟨fun hdue => ⟨_, hrow.trans ?_, rfl⟩, fun p hdue => ⟨_, hrow.trans ?_, rfl⟩⟩
  · unfold execDeferLimitExpiry; dsimp only; rw [hdue]; rfl
  · unfold execDeferLimitExpiry; dsimp only; rw [hdue]; rfl

theorem modMir_onlyMirror (i : InstId) (f : Mirrored → Mirrored) (s : State) : OnlyMirror i s (modMir i f s) := by
  cases i <;> exact ⟨⟨rfl, rfl⟩, rfl⟩

/-- Settles O36. -/
theorem foyerTimersAndFaults : Obligations.FoyerTimersAndFaults := by
  refine ⟨fun i s => ⟨(foyerTimers i s).1, (foyerTimers i s).2, fun due => ⟨?_, duskUnit_dues i 1 foyerUnit due s⟩, fun k => deferLimit i k s⟩,
    fun i k s => ⟨fun hrun hact hopen => ⟨askFault i k 2 s, ?_, mir_modMir i _ s, modMir_onlyMirror i _ s⟩,
      fun src hkind => ⟨_, ?_, rfl⟩, fun hact hdone => ⟨_, if_pos (by rw [hact, hdone]; rfl), rfl⟩⟩⟩
  · unfold duskUnit
    rw [mir_modMir]
  · exact if_pos (by rw [hrun, hact, hopen]; rfl)
  · show execContext i k s = _
    unfold execContext
    rw [hkind]
    rfl

end Sys2Proof.FoyerRules

/-! SUPPORT. When a step is composed, and when one preempts (spec/04 R75, R82, spec/15 R322). -/

namespace Sys2Proof.ComposeRules

open Sys2Proof Sys2Proof.Machine Sys2Proof.Laws

variable {i : InstId} {fuse : Bool} {s v : State}

/-- With the Kitchen open a composition ends as `composeOnce` leaves it. -/
theorem ends_of_open {all : List Seq} {after : State → State} {t : State} (hopen : kitchenOpen s i = true)
    (hall : candidatesOf (preCompose i s) i = all) (hv : latchWaits i all (preCompose i s) = v) (ht : composeOnce i fuse all v = after t) :
    Ends (.composeStep i fuse) i s after (fun w => w = t) := by
  refine ⟨t, ?_, rfl⟩
  have hrow : exec (.composeStep i fuse) s = _ := if_neg (by rw [hopen]; exact Bool.false_ne_true)
  subst hall
  subst hv
  exact hrow.trans (congrArg (fun u => Host.Outcome.next (closed i s u)) ht)

theorem composeOnce_room (all : List Seq) (hroom : inFlightSteps (mir v i) < (mir v i).kitchen.depth) :
    composeOnce i fuse all v = match firstBy (fun a b => before (mir v i) v.tick [] a b) (unlatched (mir v i) all) with
      | some first => composeNow i fuse first all v
      | none => v := if_pos hroom

theorem composeOnce_beyond (all : List Seq) (hmore : (mir v i).kitchen.depth < inFlightSteps (mir v i)) : composeOnce i fuse all v = v :=
  (if_neg (by omega)).trans (if_neg (by omega))

theorem composeOnce_full (all : List Seq) (hfull : inFlightSteps (mir v i) = (mir v i).kitchen.depth) :
    composeOnce i fuse all v = match firstBy (fun a b => before (mir v i) v.tick [] a b) all with
      | some top => preemptFor i fuse top v
      | none => v := (if_neg (by omega)).trans (if_pos hfull)

/-- What a preemption would leave. -/
def preempted (i : InstId) (fuse : Bool) (top : Machine.Seq) (y : Step) (v : State) : State :=
  let k := modAcct i top.r.context (fun a => { a with preempting := satTo 32 (a.preempting + 1) }) (killStep i y.num true v)
  composeNow i fuse top (candidatesOf k i) k

theorem preemptFor_eq (top : Machine.Seq) :
    preemptFor i fuse top v =
      if (!tbit (mir v i).kitchen.preemptMask (rankClass (mir v i) top) || (unlatched (mir v i) [top]).isEmpty) = true then v
      else match preemptable (mir v i) (rankClass (mir v i) top) with
        | none => v
        | some y => if composedFor v (preempted i fuse top y v) i top.r.localId then preempted i fuse top y v else v := rfl

/-- A candidate that may not preempt, waits on a latch or finds no step to preempt leaves the state. -/
theorem preemptFor_barred {top : Seq} (hbar : (mir v i).kitchen.preemptMask.testBit (rankClass (mir v i) top) = false ∨ unlatched (mir v i) [top] = [] ∨
    preemptable (mir v i) (rankClass (mir v i) top) = none) : preemptFor i fuse top v = v := by
  rw [preemptFor_eq]
  rcases hbar with h | h | h
  · exact if_pos (by rw [tbit, h]; rfl)
  · exact if_pos (by rw [h, List.isEmpty_nil, Bool.or_true])
  · rw [h, ite_self]

/-- A candidate that may preempt a step does so if its own step is then composed. -/
theorem preemptFor_step {top : Seq} {y : Step} (hmask : (mir v i).kitchen.preemptMask.testBit (rankClass (mir v i) top) = true)
    (hfree : unlatched (mir v i) [top] ≠ []) (hstep : preemptable (mir v i) (rankClass (mir v i) top) = some y) :
    preemptFor i fuse top v =
      if composedFor v (preempted i fuse top y v) i top.r.localId then preempted i fuse top y v else v := by
  rw [preemptFor_eq, hstep]
  refine if_neg ?_
  rw [tbit, hmask, Bool.not_true, Bool.false_or, List.isEmpty_iff]
  exact hfree

/-- Settles O37. -/
theorem composition : Obligations.Composition := by
  refine fun i fuse s => ⟨fun hshut => if_pos (by rw [hshut]; rfl), fun hopen => ?_⟩
  intro u all v m most idle
  have hidle (h : composeOnce i fuse all v = v) : idle := ends_of_open (after := fun w => w) hopen rfl rfl h
  refine ⟨fun hroom => ⟨fun hnone => hidle ?_, fun first hfirst => ends_of_open hopen rfl rfl ?_⟩, fun hmore => hidle (composeOnce_beyond all hmore),
    fun hfull => ⟨fun hnone => hidle ?_, fun top htop => ?_⟩⟩
  · have h : firstBy (fun a b => before (mir v i) v.tick [] a b) (unlatched (mir v i) all) = none := hnone
    rw [composeOnce_room all hroom, h]
  · have h : firstBy (fun a b => before (mir v i) v.tick [] a b) (unlatched (mir v i) all) = some first := hfirst
    rw [composeOnce_room all hroom, h]
  · have h : firstBy (fun a b => before (mir v i) v.tick [] a b) all = none := hnone
    rw [composeOnce_full all hfull, h]
  · have h : firstBy (fun a b => before (mir v i) v.tick [] a b) all = some top := htop
    have hrun : composeOnce i fuse all v = preemptFor i fuse top v := by rw [composeOnce_full all hfull, h]
    refine ⟨fun hbar => hidle (hrun.trans (preemptFor_barred hbar)), fun y hmask hfree hstep => ?_⟩
    have hpre := hrun.trans (preemptFor_step hmask hfree hstep)
    exact ⟨fun hfor => ends_of_open (after := fun w => w) hopen rfl rfl (hpre.trans (if_pos hfor)),
      fun hnot => hidle (hpre.trans (if_neg (Bool.eq_false_iff.mp hnot)))⟩

end Sys2Proof.ComposeRules

/-! SUPPORT. What an outpost's own rows write of it: what arrives from outside, the passes, the orders of the Landing (spec/07 R155-R172). -/

namespace Sys2Proof.OutpostRules

open Sys2Proof Sys2Proof.Machine Sys2Proof.Laws Sys2Proof.Rows Sys2Proof.Watchdogs

/-- An outpost that is not blank is one of the package's. -/
theorem lt_of_ne_blank {s : State} {o : Nat} (hne : getOutpost s o ≠ {}) : o < s.outposts.length := by
  refine Classical.byContradiction fun hge => ?_
  exact hne (RingRules.getD_of_length_le _ (Nat.le_of_not_lt hge))

theorem getOutpost_modOutpost {s : State} {o : Nat} (f : Outpost → Outpost) (ho : o < s.outposts.length) :
    getOutpost (modOutpost o f s) o = f (getOutpost s o) := getD_modAt f {} _ _ ho

theorem getOutpost_modOutpost_ne {o p : Nat} (f : Outpost → Outpost) (s : State) (hne : p ≠ o) : getOutpost (modOutpost o f s) p = getOutpost s p :=
  getD_modAt_ne f {} _ _ _ hne

theorem onlyOutpost_modOutpost (o : Nat) (f : Outpost → Outpost) (s : State) : OnlyOutpost o s (modOutpost o f s) :=
  ⟨rfl, fun _ hne => getOutpost_modOutpost_ne f s hne⟩

theorem modOutpost_modOutpost (o : Nat) (f g : Outpost → Outpost) (s : State) : modOutpost o g (modOutpost o f s) = modOutpost o (fun x => g (f x)) s := by
  unfold modOutpost
  rw [modAt_modAt]

/-- A row of an outpost's that changes it alone. -/
theorem goes_modOutpost {c : Instr} {o : Nat} {f : Outpost → Outpost} {s : State} (hrow : exec c s = .next (modOutpost o f s)) (hne : getOutpost s o ≠ {}) :
    Goes c s (fun t => OnlyOutpost o s t ∧ getOutpost t o = f (getOutpost s o)) :=
  ⟨_, hrow, onlyOutpost_modOutpost o f s, getOutpost_modOutpost f (lt_of_ne_blank hne)⟩

/-- An entry of an outpost's ring is the Study's of its owner. -/
theorem outRing_mir (o event step wave group : Nat) (s : State) (j : InstId) : (getInst (outRing o event step wave group s) j).mir = (getInst s j).mir := by
  unfold outRing
  split
  next i _ => cases i <;> cases j <;> rfl
  · rfl

theorem outRing_hbm (o event step wave group : Nat) (s : State) : (outRing o event step wave group s).hbm = s.hbm := by
  unfold outRing
  split
  next i _ => cases i <;> rfl
  · rfl

section Arrivals

variable {o : Nat} {s : State}

theorem exec_keystreamBlock_wanted {su : RowSetup} {lane low : Nat} {d : RowDraw}
    (hrow : coreRow (getOutpost s o) o (coreOf (getOutpost s o) su.h lane) = some su)
    (hd : (blocksWanted (getOutpost s o) o su lane).find? (·.low == low) = some d) :
    exec (.keystreamBlock o su.h lane low) s =
      if !(coreNeeds (getOutpost s o) o su (coreOf (getOutpost s o) su.h lane)).all (fifoRoom (getOutpost s o) · su.h) then .next s
      else .next (modOutpost o (fun x => { x with
        fifo := x.fifo ++ [{ h := su.h, kind := d.kind, lane := lane, low := low, value := BitVec.ofNat 128 (blockValue su d.kind d.position low) }] }) s) := by
  show execKeystreamBlock o su.h lane low s = _
  have hsome : (coreRow (getOutpost s o) o (coreOf (getOutpost s o) su.h lane)).filter (·.h == su.h) = some su := by
    rw [hrow, Option.filter_some, if_pos (beq_self_eq_true su.h)]
  unfold execKeystreamBlock
  dsimp only
  rw [hsome]
  dsimp only
  rw [hd]

theorem exec_keystreamBlock_otherRow {h : RowHandle} {lane low : Nat}
    (hother : ∀ su, coreRow (getOutpost s o) o (coreOf (getOutpost s o) h lane) = some su → su.h ≠ h) : exec (.keystreamBlock o h lane low) s = .next s := by
  show execKeystreamBlock o h lane low s = _
  have hnone : (coreRow (getOutpost s o) o (coreOf (getOutpost s o) h lane)).filter (·.h == h) = none := by
    rw [Option.filter_eq_none_iff]
    intro su hsu heq
    exact hother su hsu (eq_of_beq heq)
  unfold execKeystreamBlock
  dsimp only
  rw [hnone]

theorem owner_of_dieSteps (h : dieSteps s o ≠ []) : getOutpost s o ≠ {} := by
  intro hblank
  exact h (by unfold dieSteps; rw [hblank])

theorem exec_granule {off : Nat} {data : List Byte} (hsteps : dieSteps s o ≠ []) :
    exec (.larderGranuleWrite o off data) s = if !((dieSteps s o).any fun st => stepLane st o (off / 0x10000)) then .fault (.undefinedCase 8)
      else .next (modOutpost o (fun x => drainPort { x with port := x.port ++ [.granule off data] }) s) :=
  if_neg (by rw [List.isEmpty_iff]; exact hsteps)

theorem dieSteps_ne_of_any {p : Machine.Step → Bool} (h : (dieSteps s o).any p = true) : dieSteps s o ≠ [] := by
  intro hnil
  rw [hnil] at h
  cases h

end Arrivals

theorem keystreamBlocks (o : Nat) (s : State) (su : RowSetup) (lane low : Nat) (d : RowDraw)
    (hrow : coreRow (getOutpost s o) o (coreOf (getOutpost s o) su.h lane) = some su)
    (hd : (blocksWanted (getOutpost s o) o su lane).find? (·.low == low) = some d) :
    ((coreNeeds (getOutpost s o) o su (coreOf (getOutpost s o) su.h lane)).all (fifoRoom (getOutpost s o) · su.h) = true →
      Goes (.keystreamBlock o su.h lane low) s (fun t => OnlyOutpost o s t ∧
        getOutpost t o = { getOutpost s o with fifo := (getOutpost s o).fifo ++
          [{ h := su.h, kind := d.kind, lane := lane, low := low, value := BitVec.ofNat 128 (blockValue su d.kind d.position low) }] })) ∧
    ((coreNeeds (getOutpost s o) o su (coreOf (getOutpost s o) su.h lane)).all (fifoRoom (getOutpost s o) · su.h) = false →
      exec (.keystreamBlock o su.h lane low) s = .next s) := by
  have hexec := exec_keystreamBlock_wanted hrow hd
  have hne : getOutpost s o ≠ {} := fun hblank => by
    rw [hblank] at hrow
    cases hrow
  refine ⟨fun hroom => ?_, fun hfull => ?_⟩
  · rw [hroom] at hexec
    exact goes_modOutpost hexec hne
  · rw [hfull] at hexec
    exact hexec

/-- The first set-up at an outpost that names a plan. -/
def planned (x : Outpost) (plan : Nat) : Option RowSetup := (heldSetups x).find? fun y => y.plan.map (·.1) == some plan

theorem classMaps (o : Nat) (s : State) (plan lane : Nat) :
    (planned (getOutpost s o) plan = none → exec (.classMapLoaded o plan lane) s = .next s) ∧
    (∀ su, planned (getOutpost s o) plan = some su → lane < 512 →
      let plans := ((heldSetups (getOutpost s o)).filterMap fun y => if y.h.step == su.h.step then y.plan.map (·.1) else none).eraseDups
      Goes (.classMapLoaded o plan lane) s (fun t => OnlyOutpost o s t ∧ getOutpost t o =
        { getOutpost s o with maps := mapSlice plan lane (if (getOutpost s o).maps.any (·.plan == plan) then (getOutpost s o).maps
            else assignMaps s.tick (plan :: plans.erase plan) (getOutpost s o).maps) })) := by
  have hrow : exec (.classMapLoaded o plan lane) s = execClassMapLoaded o plan lane s := rfl
  refine ⟨fun hnone => hrow.trans ?_, fun su hsu hlane => ?_⟩
  · unfold execClassMapLoaded
    dsimp only
    rw [show (heldSetups (getOutpost s o)).find? _ = _ from hnone]
  · intro plans
    refine goes_modOutpost (f := fun x => { x with
      maps := mapSlice plan lane (if x.maps.any (·.plan == plan) then x.maps else assignMaps s.tick (plan :: plans.erase plan) x.maps) })
      (hrow.trans ?_) fun hblank => ?_
    · unfold execClassMapLoaded
      dsimp only
      rw [show (heldSetups (getOutpost s o)).find? _ = _ from hsu]
      exact if_pos hlane
    · rw [hblank] at hsu
      cases hsu

theorem granules (o : Nat) (s : State) (off : Nat) (data : List Byte) :
    (dieSteps s o = [] → exec (.larderGranuleWrite o off data) s = .next s) ∧
    ((dieSteps s o).any (fun st => stepLane st o (off / 0x10000)) = true →
      Goes (.larderGranuleWrite o off data) s (fun t => OnlyOutpost o s t ∧
        getOutpost t o = drainPort { getOutpost s o with port := (getOutpost s o).port ++ [.granule off data] })) ∧
    (dieSteps s o ≠ [] → (dieSteps s o).any (fun st => stepLane st o (off / 0x10000)) = false → StopsAt (.larderGranuleWrite o off data) s 8) := by
  refine ⟨fun hnil => if_pos (by rw [hnil]; rfl), fun hany => ?_, fun hne hnone => (exec_granule hne).trans (if_pos (by rw [hnone]; rfl))⟩
  have hne := dieSteps_ne_of_any hany
  exact goes_modOutpost ((exec_granule hne).trans (if_neg (by rw [hany]; exact Bool.false_ne_true))) (owner_of_dieSteps hne)

/-- Settles O38. -/
theorem outpostArrivals : Obligations.OutpostArrivals := by
  intro o s
  refine ⟨fun hnil => ?_, fun d rest hd => goes_modOutpost (f := fun x => { x with drawsPending := rest, draws := x.draws ++ [d] }) ?_ fun hblank => ?_,
    fun su lane low d hrow hd => keystreamBlocks o s su lane low d hrow hd, fun h lane low hother => exec_keystreamBlock_otherRow hother,
    classMaps o s, granules o s, fun step wave => ⟨fun hnone => if_neg (by rw [hnone]; exact Bool.false_ne_true), fun hany => ?_⟩⟩
  · show execDrawList o s = _
    unfold execDrawList
    rw [hnil]
  · show execDrawList o s = _
    unfold execDrawList
    rw [hd]
  · rw [hblank] at hd
    cases hd
  · refine ⟨_, if_pos hany, fun p hp => ?_, ?_, fun i => outRing_mir _ _ _ _ _ _ i⟩
    · rw [getOutpost_outRing, getOutpost_modOutpost_ne _ _ hp]
    · rw [getOutpost_outRing, getOutpost_modOutpost _ (lt_of_ne_blank (owner_of_dieSteps (dieSteps_ne_of_any hany)))]

end Sys2Proof.OutpostRules

/-! SUPPORT. Lane passes and the self-test of lane groups (spec/07 R158-R171, spec/18 R405). -/

namespace Sys2Proof.LanePasses

open Sys2Proof Sys2Proof.Machine Sys2Proof.Laws Sys2Proof.Rows Sys2Proof.OutpostRules

/-! ### Up and down channels -/

@[simp] theorem upOf_upPut (i : InstId) (l : List UpMsg) (x : Outpost) : upOf (upPut i l x) i = l := by cases i <;> rfl
@[simp] theorem upOf_upPut_other (i : InstId) (l : List UpMsg) (x : Outpost) : upOf (upPut i l x) (Machine.other i) = upOf x (Machine.other i) := by cases i <;> rfl

/-- The channel alone is written. -/
theorem upPut_eq (i : InstId) (l : List UpMsg) (x : Outpost) : upPut i l x = { x with upA := (upPut i l x).upA, upB := (upPut i l x).upB } := by
  cases i <;> rfl

/-! ### A pass that writes HBM alone -/

/-- Two states differ in HBM alone. -/
def OnlyHbm (s t : State) : Prop := t = { s with hbm := t.hbm }

theorem foldl_onlyHbm {α : Type} {f : State → α → State} {s : State} (hf : ∀ u x, OnlyHbm s u → OnlyHbm s (f u x)) :
    ∀ (l : List α) (t : State), OnlyHbm s t → OnlyHbm s (l.foldl f t)
  | [], _, h => h
  | x :: l, t, h => foldl_onlyHbm hf l (f t x) (hf t x h)

theorem hbmPut_onlyHbm {s t : State} (a : Nat) (bs : List Byte) (h : OnlyHbm s t) : OnlyHbm s (hbmPut a bs t) := by
  unfold OnlyHbm at h ⊢
  unfold hbmPut
  rw [h]

theorem watchPass_onlyHbm (o : Nat) (r : OutRow) (l : List TokVal) (s : State) : OnlyHbm s (watchPass o r l s) :=
  foldl_onlyHbm (fun _ _ hu => foldl_onlyHbm (fun _ _ hw => hbmPut_onlyHbm _ _ hw) _ _ hu) _ _ rfl

theorem watchPass_idle {o : Nat} {r : OutRow} {l : List TokVal} {s : State} (hnone : (getInst s r.inst).study.watches = []) : watchPass o r l s = s := by
  unfold watchPass
  dsimp only
  rw [hnone]
  rfl

theorem getInst_watchPass (o : Nat) (r : OutRow) (l : List TokVal) (s : State) (j : InstId) : getInst (watchPass o r l s) j = getInst s j := by
  rw [watchPass_onlyHbm o r l s]
  cases j <;> rfl

theorem countFixed_rest (i : InstId) (n : Nat) (s : State) : countFixed i n s = { s with a := (countFixed i n s).a, b := (countFixed i n s).b } := by
  unfold countFixed
  split
  · rfl
  · cases i <;> rfl

/-- What is counted depends on the instance alone. -/
theorem getInst_countFixed_congr {s t : State} (h : ∀ j, getInst t j = getInst s j) (i : InstId) (n : Nat) (j : InstId) :
    getInst (countFixed i n t) j = getInst (countFixed i n s) j := by
  have hA : t.a = s.a := h .A
  have hB : t.b = s.b := h .B
  unfold countFixed
  split
  · exact h j
  · cases i <;> cases j <;> simp [modRel, modInst, getInst, hA, hB]

/-! ### The rows -/

variable {o : Nat} {r : OutRow} {s : State}

/-- What an outpost becomes as a pass of a row ends with a summary. -/
def passed (r : OutRow) (tick : Nat) (m : UpMsg) (stage : OutStagePass) (x : Outpost) : Outpost :=
  let x := modRow r.su.h (fun q => { q with stage := stage, reread := if r.stage == .maxPass then [] else q.reread })
    { x with fifo := x.fifo.filter fun b => !usedBlock r b, maps := touchMap tick r.su x.maps }
  if restarting x r then x else upPut r.inst (upOf x r.inst ++ [m]) x

theorem exec_lanePass (ev : PassEvent) (hrow : (getOutpost s o).rows.find? (·.su.h == r.su.h) = some r) :
    exec (.lanePassComplete o r.su.h ev) s =
      if r.killed then .next (modOutpost o (finishRow r.su.h) s)
      else if !passReady (getOutpost s o) r o then .next s
      else match ev with
        | .ok => passDone o r 0 s
        | .upset delta => passDone o r delta s
        | .parity lane => passParity o lane r s := by
  show execLanePassComplete o r.su.h ev s = _
  unfold execLanePassComplete
  dsimp only
  rw [hrow] <;> rfl

theorem exec_lanePass_ready (ev : PassEvent) (hrow : (getOutpost s o).rows.find? (·.su.h == r.su.h) = some r) (hlive : r.killed = false)
    (hready : passReady (getOutpost s o) r o = true) :
    exec (.lanePassComplete o r.su.h ev) s = match ev with
        | .ok => passDone o r 0 s
        | .upset delta => passDone o r delta s
        | .parity lane => passParity o lane r s := by
  rw [exec_lanePass ev hrow, hlive, hready]
  rfl

theorem ne_blank_of_row (hrow : (getOutpost s o).rows.find? (·.su.h == r.su.h) = some r) : getOutpost s o ≠ {} := by
  intro hblank
  rw [hblank] at hrow
  cases hrow

theorem passDone_nan (delta : Nat) (hstage : r.stage = .maxPass) (hnan : (outTokens s r.inst r.su o).any (fun t => !fFinite t.l) = true) :
    passDone o r delta s = .fault (.undefinedCase 8) := if_pos (by rw [hstage, hnan]; rfl)

theorem passDone_summary {delta : Nat} {m : UpMsg} {stage : OutStagePass}
    (hfinite : ¬ (r.stage = .maxPass ∧ (outTokens s r.inst r.su o).any (fun t => !fFinite t.l) = true))
    (hsum : passSummary (getOutpost s o) o r delta (outTokens s r.inst r.su o) ((r.resid.bind (·.draft)).elim [] fun p => outTokens s r.inst p.1 o) = some (m, stage)) :
    passDone o r delta s =
      .next (modOutpost o (passed r s.tick m stage) (countFixed r.inst (rereadOk r).length (watchPass o r (outTokens s r.inst r.su o) s))) := by
  refine (if_neg ?_).trans ?_
  · rw [Bool.and_eq_true, beq_iff_eq]
    exact hfinite
  · cases hd : r.resid.bind (·.draft) <;>
    · rw [hd] at hsum
      dsimp only [Option.elim_none, Option.elim_some] at hsum ⊢
      rw [hsum]
      rfl

theorem passed_restarting (tick : Nat) (stage : OutStagePass) (x : Outpost) :
    restarting (modRow r.su.h (fun q => { q with stage := stage, reread := if r.stage == .maxPass then [] else q.reread })
      { x with fifo := x.fifo.filter fun b => !usedBlock r b, maps := touchMap tick r.su x.maps }) r = restarting x r := by
  unfold restarting
  cases r.inst <;> rfl

/-- What the end of a pass writes of its outpost. -/
theorem passed_writes (r : OutRow) (tick : Nat) (m : UpMsg) (stage : OutStagePass) (x : Outpost) :
    upOf (passed r tick m stage x) r.inst = (if restarting x r then upOf x r.inst else upOf x r.inst ++ [m]) ∧
    upOf (passed r tick m stage x) (Machine.other r.inst) = upOf x (Machine.other r.inst) ∧
    (passed r tick m stage x).rows = x.rows.map (fun q => if q.su.h == r.su.h then { q with stage := stage, reread := if r.stage = .maxPass then [] else q.reread } else q) ∧
    (passed r tick m stage x).maps = touchMap tick r.su x.maps ∧
    (passed r tick m stage x).fifo = x.fifo.filter (fun b => !usedBlock r b) ∧ (passed r tick m stage x).larder = x.larder := by
  unfold passed
  dsimp only
  rw [passed_restarting]
  cases restarting x r <;> cases r.inst <;> simp [modRow, upPut, upOf, Machine.other]

/-- A pass that ends with a summary. -/
theorem passEnds {delta : Nat} {m : UpMsg} {stage : OutStagePass} (hrow : (getOutpost s o).rows.find? (·.su.h == r.su.h) = some r) (hlive : r.killed = false)
    (hready : passReady (getOutpost s o) r o = true)
    (hfinite : ¬ (r.stage = .maxPass ∧ (outTokens s r.inst r.su o).any (fun t => !fFinite t.l) = true))
    (hsum : passSummary (getOutpost s o) o r delta (outTokens s r.inst r.su o) ((r.resid.bind (·.draft)).elim [] fun p => outTokens s r.inst p.1 o) = some (m, stage)) :
    Goes (.lanePassComplete o r.su.h (.upset delta)) s (fun t => (∀ p, p ≠ o → getOutpost t p = getOutpost s p) ∧
      upOf (getOutpost t o) r.inst = (if restarting (getOutpost s o) r then upOf (getOutpost s o) r.inst else upOf (getOutpost s o) r.inst ++ [m]) ∧
      upOf (getOutpost t o) (Machine.other r.inst) = upOf (getOutpost s o) (Machine.other r.inst) ∧
      (getOutpost t o).rows = (getOutpost s o).rows.map (fun q => if q.su.h == r.su.h then { q with stage := stage, reread := if r.stage = .maxPass then [] else q.reread } else q) ∧
      (∀ i, getInst t i = getInst (countFixed r.inst (rereadOk r).length s) i) ∧ t.hbm = (watchPass o r (outTokens s r.inst r.su o) s).hbm ∧ t.host = s.host ∧ t.tick = s.tick ∧
      ((getInst s r.inst).study.watches = [] → t.hbm = s.hbm) ∧ (getOutpost t o).maps = touchMap s.tick r.su (getOutpost s o).maps ∧
      (getOutpost t o).fifo = (getOutpost s o).fifo.filter (fun b => !usedBlock r b) ∧ (getOutpost t o).larder = (getOutpost s o).larder) := by
  have hexec := (exec_lanePass_ready (.upset delta) hrow hlive hready).trans (passDone_summary hfinite hsum)
  have hwatch : ∀ p, getOutpost (countFixed r.inst (rereadOk r).length (watchPass o r (outTokens s r.inst r.su o) s)) p = getOutpost s p := by
    intro p
    rw [countFixed_rest, watchPass_onlyHbm]
    rfl
  have hlt : o < (countFixed r.inst (rereadOk r).length (watchPass o r (outTokens s r.inst r.su o) s)).outposts.length := by
    refine lt_of_ne_blank ?_
    rw [hwatch]
    exact ne_blank_of_row hrow
  have hhbm : (countFixed r.inst (rereadOk r).length (watchPass o r (outTokens s r.inst r.su o) s)).hbm = (watchPass o r (outTokens s r.inst r.su o) s).hbm := by
    rw [countFixed_rest]
  obtain ⟨hup, hother, hrows, hmaps, hfifo, hlarder⟩ := passed_writes r s.tick m stage (getOutpost s o)
  refine ⟨_, hexec, fun p hp => ?_, ?_, ?_, ?_, fun i => ?_, hhbm, ?_, ?_, fun hidle => ?_, ?_, ?_, ?_⟩
  · rw [getOutpost_modOutpost_ne _ _ hp, hwatch]
  all_goals try rw [getOutpost_modOutpost _ hlt, hwatch]
  · exact hup
  · exact hother
  · exact hrows
  · exact getInst_countFixed_congr (getInst_watchPass o r _ s) _ _ i
  · show (countFixed _ _ _).host = _
    rw [countFixed_rest, watchPass_onlyHbm]
  · show (countFixed _ _ _).tick = _
    rw [countFixed_rest, watchPass_onlyHbm]
  · exact hhbm.trans (congrArg State.hbm (watchPass_idle hidle))
  · exact hmaps
  · exact hfifo
  · exact hlarder

/-- A pass that meets a parity error. -/
theorem passMeetsParity {lane : Nat} (hrow : (getOutpost s o).rows.find? (·.su.h == r.su.h) = some r) (hlive : r.killed = false)
    (hready : passReady (getOutpost s o) r o = true) (hlane : (rowLanes r.su o).contains lane = true) :
    Goes (.lanePassComplete o r.su.h (.parity lane)) s (fun t => (∀ p, p ≠ o → getOutpost t p = getOutpost s p) ∧
      upOf (getOutpost t o) r.inst = upOf (getOutpost s o) r.inst ++ [.parity r.su.h lane] ∧
      (getOutpost t o).rows = (getOutpost s o).rows.map (fun q => if q.su.h == r.su.h then { q with stage := .setup, rereq := some lane, rewritten := false, reread := q.reread.erase lane } else q) ∧
      (getOutpost t o).parityEvents = satTo 32 ((getOutpost s o).parityEvents + 1) ∧ t.hbm = s.hbm ∧ ∀ i, (getInst t i).mir = (getInst s i).mir) := by
  have hexec := (exec_lanePass_ready (.parity lane) hrow hlive hready).trans (if_neg (by rw [hlane]; exact Bool.false_ne_true))
  have hlt := lt_of_ne_blank (ne_blank_of_row hrow)
  refine ⟨_, hexec, fun p hp => ?_, ?_, ?_, ?_, outRing_hbm _ _ _ _ _ _, fun i => outRing_mir _ _ _ _ _ _ i⟩
  · rw [getOutpost_outRing, getOutpost_modOutpost_ne _ _ hp]
  all_goals rw [getOutpost_outRing, getOutpost_modOutpost _ hlt]
  · cases r.inst <;> rfl
  · cases r.inst <;> rfl
  · cases r.inst <;> rfl

/-! ### Self-tests -/

/-- The outpost's self-test has ended, and its ring says so. -/
def tested (o : Nat) (failed : BitVec 32) (s : State) : State := outRing o 4 0 0 failed.toNat (modOutpost o (fun x => { x with selftest := false }) s)

theorem exec_selftestDone {i : InstId} {failed : BitVec 32} (howner : (getOutpost s o).owner = some i) (htest : (getOutpost s o).selftest = true) :
    exec (.laneGroupSelftestDone o failed) s =
      if failed = 0 then endEvent i s (if knownAnswerTest s i then tested o failed s else outpostFault i o 0 0 (tested o failed s))
      else if 8 < fencedCount (fencedOf (getOutpost s o) ||| failed) then endEvent i s (outpostFault i o failed.toNat 0 (tested o failed s))
      else endEvent i s (logFences i o failed (outRing o 2 0 0 failed.toNat (modOutpost o (fenceGroups o failed) (tested o failed s)))) := by
  show execLaneGroupSelftestDone o failed s = _
  unfold execLaneGroupSelftestDone
  dsimp only
  rw [howner]
  exact if_neg (by rw [htest]; exact Bool.false_ne_true)

theorem exec_selftestDone_idle {failed : BitVec 32} (htest : (getOutpost s o).selftest = false) : exec (.laneGroupSelftestDone o failed) s = .next s := by
  show execLaneGroupSelftestDone o failed s = _
  unfold execLaneGroupSelftestDone
  dsimp only
  split
  · rfl
  · exact if_pos (by rw [htest]; rfl)

theorem tested_mir (o : Nat) (failed : BitVec 32) (s : State) (i : InstId) : mir (tested o failed s) i = mir s i := outRing_mir _ _ _ _ _ _ i

theorem tested_length (o : Nat) (failed : BitVec 32) (s : State) : (tested o failed s).outposts.length = s.outposts.length := by
  unfold tested outRing
  split
  next i _ => cases i <;> exact modAt_length _ _ _
  · exact modAt_length _ _ _

theorem getOutpost_tested {failed : BitVec 32} (ho : o < s.outposts.length) : getOutpost (tested o failed s) o = { getOutpost s o with selftest := false } := by
  rw [tested, getOutpost_outRing, getOutpost_modOutpost _ ho]

theorem selftests (o : Nat) (i : InstId) (failed : BitVec 32) (s : State) (howner : (getOutpost s o).owner = some i) (htest : (getOutpost s o).selftest = true) :
    let ends (after : State → State) : Prop := Ends (.laneGroupSelftestDone o failed) i s after (fun v => getOutpost v o = { getOutpost s o with selftest := false } ∧
      mir v i = mir s i ∧ v.hbm = s.hbm)
    (failed = 0 → knownAnswerTest s i = true → ends (fun v => v)) ∧
    (failed = 0 → knownAnswerTest s i = false → ends (outpostFault i o 0 0)) ∧
    (failed ≠ 0 → 8 < fencedCount (fencedOf (getOutpost s o) ||| failed) → ends (outpostFault i o failed.toNat 0)) ∧
    (failed ≠ 0 → fencedCount (fencedOf (getOutpost s o) ||| failed) ≤ 8 →
      Ends (.laneGroupSelftestDone o failed) i s (logFences i o failed) (fun v =>
        (getOutpost v o).testFence = (getOutpost s o).testFence ||| failed ∧ (getOutpost v o).selftest = false ∧
        (getOutpost v o).selftestFences = satTo 32 ((getOutpost s o).selftestFences + fencedCount (failed &&& ~~~(getOutpost s o).testFence)) ∧
        (getOutpost v o).larder = (getOutpost s o).larder ∧ (getOutpost v o).rows = (getOutpost s o).rows ∧ mir v i = mir s i)) := by
  intro ends
  have hexec := exec_selftestDone (failed := failed) howner htest
  have hlt : o < s.outposts.length := lt_of_ne_blank fun hblank => by
    rw [hblank] at howner
    cases howner
  have hends {after : State → State} (h : exec (.laneGroupSelftestDone o failed) s = endEvent i s (after (tested o failed s))) : ends after :=
    ⟨tested o failed s, h, getOutpost_tested hlt, tested_mir o failed s i, outRing_hbm _ _ _ _ _ _⟩
  refine ⟨fun hzero hknown => hends (after := fun v => v) ?_, fun hzero hknown => hends ?_, fun hsome hmany => hends ?_, fun hsome hfew =>
    ⟨outRing o 2 0 0 failed.toNat (modOutpost o (fenceGroups o failed) (tested o failed s)), ?_, ?_⟩⟩
  · rw [hexec, if_pos hzero, hknown]
    rfl
  · rw [hexec, if_pos hzero, hknown]
    rfl
  · rw [hexec, if_neg hsome, if_pos hmany]
  · rw [hexec, if_neg hsome, if_neg (Nat.not_lt.mpr hfew)]
    rfl
  · dsimp only
    rw [getOutpost_outRing, getOutpost_modOutpost _ ((tested_length o failed s).symm ▸ hlt), getOutpost_tested hlt]
    exact ⟨rfl, rfl, rfl, rfl, rfl, (outRing_mir _ _ _ _ _ _ i).trans (tested_mir o failed s i)⟩

/-- Settles O39. -/
theorem lanePassesAndTests : Obligations.LanePassesAndTests := by
  refine ⟨fun o r s hrow => ⟨fun ev hkilled => goes_modOutpost ?_ (ne_blank_of_row hrow), fun ev hlive hwait => ?_, fun hlive hready =>
    ⟨fun delta hnan => ?_, fun delta m stage hfinite hsum => passEnds hrow hlive hready hfinite hsum, ?_, fun lane hlane => passMeetsParity hrow hlive hready hlane⟩⟩,
    fun o i failed s => ⟨exec_selftestDone_idle, selftests o i failed s⟩⟩
  · rw [exec_lanePass ev hrow, if_pos hkilled]
  · rw [exec_lanePass ev hrow, hlive, hwait]
    rfl
  · exact (exec_lanePass_ready _ hrow hlive hready).trans (passDone_nan delta hnan.1 hnan.2)
  · rw [exec_lanePass_ready .ok hrow hlive hready, exec_lanePass_ready (.upset 0) hrow hlive hready]

end Sys2Proof.LanePasses

/-! SUPPORT. What the Landing sends down a channel moves the row it names (spec/07 R159-R167). -/

namespace Sys2Proof.ChannelRules

open Sys2Proof Sys2Proof.Machine Sys2Proof.Laws Sys2Proof.OutpostRules

@[simp] theorem downOf_downPut (i : InstId) (l : List DownMsg) (x : Outpost) : downOf (downPut i l x) i = l := by cases i <;> rfl
@[simp] theorem downOf_downPut_other (i : InstId) (l : List DownMsg) (x : Outpost) : downOf (downPut i l x) (Machine.other i) = downOf x (Machine.other i) := by
  cases i <;> rfl

/-- The message at the front has left the channel. -/
def popDown (i : InstId) (x : Outpost) : Outpost := downPut i ((downOf x i).drop 1) x

variable {c : Instr} {o : Nat} {i : InstId} {s : State} {p : DownMsg → Bool} {m : DownMsg}

theorem ne_blank_of_downHead (hhead : downHead (getOutpost s o) p = some (i, m)) : getOutpost s o ≠ {} := by
  intro hblank
  rw [hblank] at hhead
  cases hhead

/-- A row of an outpost that it holds takes the message. -/
theorem rowTakes {h : RowHandle} {f g : OutRow → OutRow} (hfg : ∀ r, g r = f r) (hne : getOutpost s o ≠ {})
    (hrow : exec c s = .next (modOutpost o (modRow h f) (modOutpost o (popDown i) s))) : RowTakes c o i h g s := by
  rw [modOutpost_modOutpost] at hrow
  obtain rfl : g = f := funext hfg
  refine ⟨_, hrow, onlyOutpost_modOutpost _ _ _, ?_⟩
  rw [getOutpost_modOutpost _ (lt_of_ne_blank hne)]
  cases i <;> exact ⟨rfl, rfl, rfl, rfl, rfl⟩

/-- The row of a message in a channel, and what becomes of it. -/
theorem takes_or_drops {f : DownMsg → OutRow → OutRow} {g : OutRow → OutRow} {h : RowHandle} (hrow : exec c s = takeDown o p f s)
    (hhead : downHead (getOutpost s o) p = some (i, m)) (hm : m.h = h) (hg : ∀ r, g r = f m r) :
    (holdsRow (getOutpost s o) h = true → RowTakes c o i h g s) ∧ (¬ holdsRow (getOutpost s o) h = true → RowDropped c o i s) := by
  have hexec : exec c s = if holdsRow (getOutpost s o) m.h then .next (modOutpost o (modRow m.h (f m)) (modOutpost o (popDown i) s))
      else .next (discardDown i (modOutpost o (popDown i) s)) := by
    rw [hrow]
    unfold takeDown
    rw [hhead]
    rfl
  subst hm
  exact ⟨fun hheld => rowTakes hg (ne_blank_of_downHead hhead) (hexec.trans (if_pos hheld)), fun hnot => ⟨_, hexec.trans (if_neg hnot), rfl⟩⟩

/-- A set-up enters a row of the draw lists. -/
theorem setups (su : RowSetup) (hhead : downHead (getOutpost s o) (fun m => match m with | .rowSetup _ => true | _ => false) = some (i, .rowSetup su)) :
    ((knownSetups (getOutpost s o)).any (·.h == su.h) = true → Goes (.rowSetup o) s (fun t => OnlyOutpost o s t ∧ getOutpost t o = enterSetup i su (popDown i (getOutpost s o)))) ∧
    ((knownSetups (getOutpost s o)).any (·.h == su.h) = false → RowDropped (.rowSetup o) o i s) := by
  have hexec : exec (.rowSetup o) s = if (knownSetups (getOutpost s o)).any (·.h == su.h) then .next (modOutpost o (enterSetup i su) (modOutpost o (popDown i) s))
      else .next (discardDown i (modOutpost o (popDown i) s)) := by
    show execRowSetup o s = _
    unfold execRowSetup
    split
    next hsome =>
      cases hsome.symm.trans hhead
      rfl
    next hno => exact absurd hhead (hno i su)
  refine ⟨fun hknown => goes_modOutpost (f := fun x => enterSetup i su (popDown i x)) (hexec.trans ((if_pos hknown).trans ?_)) (ne_blank_of_downHead hhead),
    fun hnot => ⟨_, hexec.trans (if_neg (Bool.eq_false_iff.mp hnot)), rfl⟩⟩
  rw [modOutpost_modOutpost]

/-- DONE ends a row. -/
theorem dones (h : RowHandle) (hhead : downHead (getOutpost s o) (fun m => match m with | .done _ => true | _ => false) = some (i, .done h)) :
    (holdsRow (getOutpost s o) h = true → Goes (.doneMsg o) s (fun t => OnlyOutpost o s t ∧ getOutpost t o = finishRow h (popDown i (getOutpost s o)))) ∧
    (¬ holdsRow (getOutpost s o) h = true → RowDropped (.doneMsg o) o i s) := by
  have hexec : exec (.doneMsg o) s = if holdsRow (getOutpost s o) h then .next (modOutpost o (finishRow h) (modOutpost o (popDown i) s))
      else .next (discardDown i (modOutpost o (popDown i) s)) := by
    show execDoneMsg o s = _
    unfold execDoneMsg
    split
    next hsome =>
      cases hsome.symm.trans hhead
      rfl
    next hno => exact absurd hhead (hno i h)
  refine ⟨fun hheld => goes_modOutpost (f := fun x => finishRow h (popDown i x)) (hexec.trans ((if_pos hheld).trans ?_)) (ne_blank_of_downHead hhead),
    fun hnot => ⟨_, hexec.trans (if_neg hnot), rfl⟩⟩
  rw [modOutpost_modOutpost]

/-- Settles O40. -/
theorem channelOrders : Obligations.ChannelOrders := by
  intro o i h s
  exact ⟨fun su hhead => setups su hhead, fun hhead => dones h hhead, fun a b hhead => takes_or_drops rfl hhead rfl fun _ => rfl,
    fun a b hhead => takes_or_drops rfl hhead rfl fun _ => rfl, fun kb q hhead => takes_or_drops rfl hhead rfl fun _ => rfl,
    fun kb q hhead => takes_or_drops rfl hhead rfl fun _ => rfl, fun sp hhead => takes_or_drops rfl hhead rfl fun _ => rfl,
    fun q hhead => takes_or_drops rfl hhead rfl fun _ => rfl, fun g t kb q u hhead => takes_or_drops rfl hhead rfl fun _ => rfl⟩

end Sys2Proof.ChannelRules

/-! SUPPORT. The Landing takes the summaries of a pass from the outposts' channels (spec/07 R166, R167, spec/12 R259). -/

namespace Sys2Proof.LandingRules

open Sys2Proof Sys2Proof.Machine Sys2Proof.Laws Sys2Proof.OutpostRules Sys2Proof.LanePasses

variable {i : InstId} {o : Nat} {s : State} {m : UpMsg} {rest : List UpMsg}

theorem upHead_front {p : UpMsg → Bool} (hfront : upOf (getOutpost s o) i = m :: rest) (hp : p m = true) : upHead s i o p = some m := by
  unfold upHead
  rw [hfront]
  exact if_pos hp

theorem upHead_front_not {p : UpMsg → Bool} (hfront : upOf (getOutpost s o) i = m :: rest) (hp : p m = false) : upHead s i o p = none := by
  unfold upHead
  rw [hfront]
  exact if_neg (Bool.eq_false_iff.mp hp)

theorem landEnd_free {u : State} (hfree : landingHeld (getInst s i).hall (getInst u i).hall = false) : landEnd i s u = endEvent i s u :=
  if_neg (Bool.eq_false_iff.mp hfree)

theorem landEnd_held {u : State} (hheld : landingHeld (getInst s i).hall (getInst u i).hall = true) :
    landEnd i s u = done i s (modHall i (holdSource 1 s.tick) s) := if_pos hheld

/-- A summary of a pass, taken from the front of its channel. -/
theorem takeSum_front {p : UpMsg → Bool} {stage : LandStage} {act : LandRow → List (Nat × UpMsg) → State → State}
    (hfront : upOf (getOutpost s o) i = m :: rest) (hp : p m = true) : takeSum i o stage p act s =
      if strayUp s i o m then done i s (discardDown i (popUp i o s))
      else match findLand s i m.h with
        | none => .next s
        | some r =>
          if r.stage != stage then done i s (discardDown i (popUp i o s))
          else if (landOuts r).all fun k => (r.sums ++ [(o, m)]).any (·.1 == k) then
            landEnd i s (act { r with sums := r.sums ++ [(o, m)] } (r.sums ++ [(o, m)]) (modLand i m.h (fun y => { y with sums := r.sums ++ [(o, m)] }) (popUp i o s)))
          else done i s (modLand i m.h (fun y => { y with sums := r.sums ++ [(o, m)] }) (popUp i o s)) := by
  unfold takeSum
  rw [upHead_front hfront hp] <;> rfl

/-- What becomes of a summary of a pass. -/
theorem summaries {cmd : Instr} {p : UpMsg → Bool} {st : LandStage} {act : LandRow → List (Nat × UpMsg) → State → State}
    (hfront : upOf (getOutpost s o) i = m :: rest) (hrow : exec cmd s = takeSum i o st p act s) (hp : p m = true) :
    (strayUp s i o m = true → Mirrors cmd i s (fun t => t = discardDown i (popUp i o s))) ∧
    ∀ r, strayUp s i o m = false → findLand s i m.h = some r →
      let sums := r.sums ++ [(o, m)]
      let v := modLand i m.h (fun y => { y with sums := sums }) (popUp i o s)
      let all := (landOuts r).all (fun k => sums.any (·.1 == k))
      let u := act { r with sums := sums } sums v
      (r.stage ≠ st → Mirrors cmd i s (fun t => t = discardDown i (popUp i o s))) ∧
      (r.stage = st → all = false → Mirrors cmd i s (fun t => t = v)) ∧
      (r.stage = st → all = true → landingHeld (getInst s i).hall (getInst u i).hall = false → Ends cmd i s (fun t => t) (fun t => t = u)) ∧
      (r.stage = st → all = true → landingHeld (getInst s i).hall (getInst u i).hall = true → Mirrors cmd i s (fun t => t = modHall i (holdSource 1 s.tick) s)) := by
  have hexec := hrow.trans (takeSum_front (stage := st) (act := act) hfront hp)
  refine ⟨fun hstray => ⟨_, hexec.trans (if_pos hstray), rfl⟩, fun r hsound hfind => ?_⟩
  intro sums v all u
  have hrowed := hexec.trans (if_neg (Bool.eq_false_iff.mp hsound))
  rw [hfind] at hrowed
  have hstage (h : r.stage = st) : ¬ (r.stage != st) = true := by rw [h, bne_self_eq_false]; exact Bool.false_ne_true
  refine ⟨fun hother => ⟨_, hrowed.trans (if_pos (bne_iff_ne.mpr hother)), rfl⟩, fun h hmore => ⟨_, hrowed.trans ((if_neg (hstage h)).trans (if_neg ?_)), rfl⟩,
    fun h hall hfree => ⟨_, hrowed.trans ((if_neg (hstage h)).trans ((if_pos hall).trans (landEnd_free hfree))), rfl⟩,
    fun h hall hheld => ⟨_, hrowed.trans ((if_neg (hstage h)).trans ((if_pos hall).trans (landEnd_held hheld))), rfl⟩⟩
  exact Bool.eq_false_iff.mp hmore

theorem exec_located {h : RowHandle} {x : LocInfo} (hfront : upOf (getOutpost s o) i = .located h x :: rest) :
    exec (.located i o) s = match (if strayUp s i o (.located h x) then none else findLand s i h) with
      | some r => if r.stage == .locate then landEnd i s (actLocated i r o x (popUp i o s)) else done i s (discardDown i (popUp i o s))
      | none => done i s (discardDown i (popUp i o s)) := by
  show execLocated i o s = _
  unfold execLocated
  rw [upHead_front hfront rfl] <;> rfl

theorem exec_parity {h : RowHandle} {lane : Nat} (hfront : upOf (getOutpost s o) i = .parity h lane :: rest) :
    exec (.parity i o) s = match (if strayUp s i o (.parity h lane) then none else findLand s i h) with
      | some r => endEvent i s (actParity i r o lane (popUp i o s))
      | none => done i s (discardDown i (popUp i o s)) := by
  show execParity i o s = _
  unfold execParity
  rw [upHead_front hfront rfl] <;> rfl

theorem locates (h : RowHandle) (x : LocInfo) (hfront : upOf (getOutpost s o) i = .located h x :: rest) :
    (strayUp s i o (.located h x) = true → Mirrors (.located i o) i s (fun t => t = discardDown i (popUp i o s))) ∧
    ∀ r, strayUp s i o (.located h x) = false → findLand s i h = some r →
      let u := actLocated i r o x (popUp i o s)
      (r.stage ≠ .locate → Mirrors (.located i o) i s (fun t => t = discardDown i (popUp i o s))) ∧
      (r.stage = .locate → landingHeld (getInst s i).hall (getInst u i).hall = false → Ends (.located i o) i s (fun t => t) (fun t => t = u)) ∧
      (r.stage = .locate → landingHeld (getInst s i).hall (getInst u i).hall = true → Mirrors (.located i o) i s (fun t => t = modHall i (holdSource 1 s.tick) s)) := by
  have hexec := exec_located hfront
  refine ⟨fun hstray => ⟨_, ?_, rfl⟩, fun r hsound hfind => ?_⟩
  · rw [hexec, if_pos hstray]
    rfl
  · intro u
    rw [hsound, hfind] at hexec
    refine ⟨fun hother => ⟨_, hexec.trans (if_neg ?_), rfl⟩, fun hst hfree => ⟨_, hexec.trans ((if_pos ?_).trans (landEnd_free hfree)), rfl⟩,
      fun hst hheld => ⟨_, hexec.trans ((if_pos ?_).trans (landEnd_held hheld)), rfl⟩⟩
    · rwa [beq_iff_eq]
    · rw [hst, beq_self_eq_true]
    · rw [hst, beq_self_eq_true]

theorem parities (h : RowHandle) (lane : Nat) (hfront : upOf (getOutpost s o) i = .parity h lane :: rest) :
    (strayUp s i o (.parity h lane) = true → Mirrors (.parity i o) i s (fun t => t = discardDown i (popUp i o s))) ∧
    ∀ r, strayUp s i o (.parity h lane) = false → findLand s i h = some r →
      Ends (.parity i o) i s (fun t => t) (fun t => t = actParity i r o lane (popUp i o s)) := by
  have hexec := exec_parity hfront
  refine ⟨fun hstray => ⟨_, ?_, rfl⟩, fun r hsound hfind => ⟨_, ?_, rfl⟩⟩
  · rw [hexec, if_pos hstray]
    rfl
  · rw [hexec, hsound, if_neg Bool.false_ne_true, hfind]
    rfl

theorem exec_keptSum_kept {h : RowHandle} {x : List (Nat × Nat)} (hfront : upOf (getOutpost s o) i = .keptSum h x :: rest) :
    exec (.keptSum i o) s = takeSum i o .kept (fun m => match m with | .keptSum _ _ => true | _ => false) (actKept i) s :=
  if_neg (by rw [upHead_front_not hfront rfl]; exact Bool.false_ne_true)

theorem exec_keptSum_resid {h : RowHandle} {x : Nat} {l : List Nat} (hfront : upOf (getOutpost s o) i = .residSum h x l :: rest) :
    exec (.keptSum i o) s = takeSum i o .resid (fun _ => true) (actResid i) s := if_pos (by rw [upHead_front hfront rfl]; rfl)

/-- Taking a message changes the channel and the Study alone. -/
theorem popUp_writes (hfront : upOf (getOutpost s o) i = m :: rest) :
    upOf (getOutpost (popUp i o s) o) i = rest ∧ mir (popUp i o s) i = mir s i ∧
      (getInst (popUp i o s) i).landing = (getInst s i).landing ∧ (popUp i o s).hbm = s.hbm ∧ (popUp i o s).host = s.host := by
  have hne : getOutpost s o ≠ {} := fun hblank => by
    rw [hblank] at hfront
    cases i <;> cases hfront
  have hpop : popUp i o s = ringMessage i 2 m.h.step (.up m) (modOutpost o (fun x => upPut i ((upOf x i).drop 1) x) s) := by
    unfold popUp
    rw [hfront]
    rfl
  have hout : getOutpost (popUp i o s) o = getOutpost (modOutpost o (fun x => upPut i ((upOf x i).drop 1) x) s) o := by
    rw [hpop]
    cases i <;> rfl
  refine ⟨?_, ?_⟩
  · rw [hout, getOutpost_modOutpost _ (lt_of_ne_blank hne), upOf_upPut, hfront]
    rfl
  · rw [hpop]
    cases i <;> exact ⟨rfl, rfl, rfl, rfl⟩

/-- Settles O41. -/
theorem landing : Obligations.Landing := by
  refine ⟨fun i o m rest s hfront => ?_, fun i o m rest s hfront => popUp_writes hfront⟩
  intro dropped taken
  refine ⟨?_, ?_, ?_, ?_, ?_, ?_, ?_, ?_⟩
  · rintro h a b c d rfl
    exact summaries hfront rfl rfl
  · rintro h x rfl
    exact summaries hfront rfl rfl
  · rintro h x rfl
    exact summaries hfront rfl rfl
  · rintro h x rfl
    exact summaries hfront (exec_keptSum_kept hfront) rfl
  · rintro h x l rfl
    exact summaries hfront (exec_keptSum_resid hfront) rfl
  · rintro h x rfl
    exact summaries hfront rfl rfl
  · rintro h x rfl
    exact locates h x hfront
  · rintro h lane rfl
    exact parities h lane hfront

end Sys2Proof.LandingRules

/-! SUPPORT. Notices, kernel faults, the commit point, Midnight and latches (spec/04 R74-R97, spec/11 R235, spec/15 R324, R332, spec/17 R360). -/

namespace Sys2Proof.StepRules

open Sys2Proof Sys2Proof.Machine Sys2Proof.Laws Sys2Proof.Mailboxes Sys2Proof.FoyerRules

variable {i : InstId} {die n wave : Nat} {s : State} {st : Machine.Step}

/-! ### Notices -/

theorem notices_unheeded (hidle : activeInst s i = false) : exec (.waveLandedNotice i die n wave) s = .next s ∧
    exec (.completionNotice i die n) s = .next s ∧ exec (.kernelFault i die n) s = .next s ∧ exec (.killAcknowledgement i die n) s = .next s := by
  have hnot : (!activeInst s i) = true := by rw [hidle]; rfl
  exact ⟨if_pos hnot, if_pos hnot, if_pos hnot, if_pos hnot⟩

/-- A notice that names no step of the die's. -/
def Unmatched (i : InstId) (die n : Nat) (s : State) : Prop :=
  stepBy24 (mir s i) n = none ∨ ∃ st, stepBy24 (mir s i) n = some st ∧ st.outposts.getLsbD die = false

theorem not_idle (hact : activeInst s i = true) : ¬ (!activeInst s i) = true := by rw [hact]; exact Bool.false_ne_true

theorem exec_waveLanded (hact : activeInst s i = true) : exec (.waveLandedNotice i die n wave) s = match stepBy24 (mir s i) n with
    | none => done i s (discardNotice i s)
    | some st =>
      if !st.outposts.getLsbD die then done i s (discardNotice i s)
      else done i s (sampledCheck i st.num (if st.phase == .issued then
        ringPush i 0 0x020 1 (step24 st.num) [st.num, 2, st.model, st.epoch, st.slot] (modStep i st.num (fun y => { y with phase := if y.phase == .issued then .landing else y.phase, landed := if y.landed.contains wave then y.landed else y.landed ++ [wave] }) s)
        else modStep i st.num (fun y => { y with phase := if y.phase == .issued then .landing else y.phase, landed := if y.landed.contains wave then y.landed else y.landed ++ [wave] }) s)) :=
  if_neg (not_idle hact)

theorem exec_completion (hact : activeInst s i = true) : exec (.completionNotice i die n) s = match stepBy24 (mir s i) n with
    | none => done i s (discardNotice i s)
    | some st =>
      if !st.outposts.getLsbD die then done i s (discardNotice i s)
      else done i s (sampledCheck i st.num (modStep i st.num (fun y => { y with completed := if y.completed.contains die then y.completed else y.completed ++ [die] }) s)) :=
  if_neg (not_idle hact)

/-- The step is killed and logged for a kernel's fault. -/
def faultStep (i : InstId) (die : Nat) (st : Machine.Step) (s : State) : State :=
  killStep i st.num false (modKit i (fun k => { k with kernelFaultRows := (stepSeqs st ++ k.kernelFaultRows).eraseDups }) (logFault i 0x0C (1 + die) none 0 st.num 0 s))

theorem exec_kernelFault (hact : activeInst s i = true) : exec (.kernelFault i die n) s = match stepBy24 (mir s i) n with
    | none => done i s (discardNotice i s)
    | some st =>
      if !st.outposts.getLsbD die then done i s (discardNotice i s)
      else if latched (mir s i) st.model then endEvent i s (askFault i ((st.rows.map (·.context)).headD 0) 4 s)
      else endEvent i s (if (st.rows.any fun r => (mir s i).kitchen.kernelFaultRows.contains r.lid) then outpostFault i die 0 st.num (faultStep i die st s) else faultStep i die st s) :=
  if_neg (not_idle hact)

theorem exec_killAck (hact : activeInst s i = true) : exec (.killAcknowledgement i die n) s =
    match (mir s i).kitchen.steps.find? (fun y => y.phase == .killed && step24 y.num == n && y.outposts.getLsbD die) with
    | none => done i s (discardNotice i s)
    | some st => done i s (sweepSteps i (modStep i st.num (fun y => { y with killAcked := if y.killAcked.contains die then y.killAcked else y.killAcked ++ [die] }) s)) :=
  if_neg (not_idle hact)

theorem notices_unmatched (hact : activeInst s i = true) (hun : Unmatched i die n s) :
    Mirrors (.waveLandedNotice i die n wave) i s (fun t => t = discardNotice i s) ∧ Mirrors (.completionNotice i die n) i s (fun t => t = discardNotice i s) ∧
      Mirrors (.kernelFault i die n) i s (fun t => t = discardNotice i s) := by
  have hwave := exec_waveLanded (die := die) (n := n) (wave := wave) hact
  have hcomp := exec_completion (die := die) (n := n) hact
  have hkern := exec_kernelFault (die := die) (n := n) hact
  rcases hun with hnone | ⟨st, hst, hdie⟩
  · rw [hnone] at hwave hcomp hkern
    exact ⟨⟨_, hwave, rfl⟩, ⟨_, hcomp, rfl⟩, ⟨_, hkern, rfl⟩⟩
  · rw [hst] at hwave hcomp hkern
    have hnot : (!st.outposts.getLsbD die) = true := by rw [hdie]; rfl
    exact ⟨⟨_, hwave.trans (if_pos hnot), rfl⟩, ⟨_, hcomp.trans (if_pos hnot), rfl⟩, ⟨_, hkern.trans (if_pos hnot), rfl⟩⟩

section Matched

variable (hact : activeInst s i = true) (hst : stepBy24 (mir s i) n = some st) (hdie : st.outposts.getLsbD die = true)
include hact hst hdie

theorem waveLanded_matched : exec (.waveLandedNotice i die n wave) s = done i s (sampledCheck i st.num (if st.phase == .issued then
    ringPush i 0 0x020 1 (step24 st.num) [st.num, 2, st.model, st.epoch, st.slot] (modStep i st.num (fun y => { y with phase := if y.phase == .issued then .landing else y.phase, landed := if y.landed.contains wave then y.landed else y.landed ++ [wave] }) s)
    else modStep i st.num (fun y => { y with phase := if y.phase == .issued then .landing else y.phase, landed := if y.landed.contains wave then y.landed else y.landed ++ [wave] }) s)) := by
  rw [exec_waveLanded hact, hst]
  exact if_neg (by rw [hdie]; exact Bool.false_ne_true)

theorem completion_matched : exec (.completionNotice i die n) s =
    done i s (sampledCheck i st.num (modStep i st.num (fun y => { y with completed := if y.completed.contains die then y.completed else y.completed ++ [die] }) s)) := by
  rw [exec_completion hact, hst]
  exact if_neg (by rw [hdie]; exact Bool.false_ne_true)

theorem kernelFault_matched : exec (.kernelFault i die n) s =
    if latched (mir s i) st.model then endEvent i s (askFault i ((st.rows.map (·.context)).headD 0) 4 s)
    else endEvent i s (if (st.rows.any fun r => (mir s i).kitchen.kernelFaultRows.contains r.lid) then outpostFault i die 0 st.num (faultStep i die st s) else faultStep i die st s) := by
  rw [exec_kernelFault hact, hst]
  exact if_neg (by rw [hdie]; exact Bool.false_ne_true)

end Matched

/-- Settles O42. -/
theorem noticesAndKernelFaults : Obligations.NoticesAndKernelFaults := by
  refine ⟨fun i die n wave s => ⟨notices_unheeded, fun hact => ⟨notices_unmatched hact, fun st hst hdie => ?_, fun st hst => ⟨_, ?_, rfl⟩, fun hnone => ⟨_, ?_, rfl⟩⟩⟩,
    fun i die n st s hact hst hdie => ⟨fun hl => ⟨_, ?_, rfl⟩, fun hl => ?_⟩⟩
  · have hexec := waveLanded_matched (wave := wave) hact hst hdie
    refine ⟨fun hphase => ⟨_, hexec, ?_⟩, fun hphase => ⟨_, hexec, _, congrArg _ (if_pos ?_), ?_⟩, ⟨_, completion_matched hact hst hdie, rfl⟩⟩
    · rw [if_neg (by rwa [beq_iff_eq])]
    · rw [hphase, beq_self_eq_true]
    · cases i <;> exact ⟨rfl, rfl, rfl⟩
  · rw [exec_killAck hact, hst]
    rfl
  · rw [exec_killAck hact, hnone]
    rfl
  · rw [kernelFault_matched hact hst hdie, if_pos hl]
    rfl
  · intro again
    refine ⟨faultStep i die st s, ?_, rfl⟩
    rw [kernelFault_matched hact hst hdie, hl]
    rfl

/-! ### The commit point and Midnight -/

theorem exec_commitPoint (hst : getStep (mir s i) n = some st) : exec (.commitPoint i n) s =
    if !activeInst s i || st.phase != .sampled || commitHeld (getInst s i) then .next s
    else done i s (finishStep i n ((commitRows st).foldl (fun t k => match st.rows[k]? with
      | some r => postSeq i r.lid (.tokenCommit n k) t
      | none => t) (ringPush i 0 0x020 1 (step24 n) [n, 4, st.model, st.epoch, st.slot] (modStep i n (fun y => { y with phase := .committing }) s)))) := by
  show execCommitPoint i n s = _
  unfold execCommitPoint
  rw [hst] <;> rfl

theorem midnightDue_iff {m : Mirrored} {k : Nat} : midnightDue m k = true ↔ (getModel m k).stage = .armed ∧ drained m k = true ∧ m.kitchen.turn = .service := by
  unfold midnightDue
  rw [Bool.and_eq_true, Bool.and_eq_true, beq_iff_eq, beq_iff_eq, and_assoc]

/-- Settles O43. -/
theorem commitPointsAndMidnight : Obligations.CommitPointsAndMidnight := by
  refine ⟨fun i n st s hst => ⟨fun hact hphase hfree => ⟨_, (exec_commitPoint hst).trans (if_neg ?_), _, ?_, ?_, ?_, rfl⟩, fun hor => (exec_commitPoint hst).trans (if_pos ?_)⟩,
    fun i k s => ⟨fun hact hstage hdrained hturn => ⟨_, if_pos ?_, rfl⟩, fun hor => if_neg ?_⟩⟩
  · rw [hact, hphase, hfree]
    decide
  · cases i <;> rfl
  · cases i <;> rfl
  · cases i <;> rfl
  · rw [Bool.or_eq_true, Bool.or_eq_true, bne_iff_ne]
    rcases hor with h | h | h
    · exact .inl (.inl (by rw [h]; rfl))
    · exact .inl (.inr h)
    · exact .inr h
  · rw [hact, midnightDue_iff.mpr ⟨hstage, hdrained, hturn⟩]
    rfl
  · rw [Bool.and_eq_true, midnightDue_iff]
    rintro ⟨-, hstage, hdrained, hturn⟩
    rcases hor with h | h | h
    · exact h hstage
    · exact Bool.false_ne_true (h.symm.trans hdrained)
    · exact h hturn

/-! ### Latches -/

theorem exec_latchAcquire {k : Nat} (hst : stepBy24 (mir s i) n = some st) : exec (.latchAcquire i k n) s =
    if running s i && (getLatch (mir s i) k).models.getLsbD st.model && (!(getLatch (mir s i) k).held || (getLatch (mir s i) k).owner == (st.rows.map (·.context)).headD 0) then
      done i s { modLatch i k (fun l => { l with
        held := true
        owner := (st.rows.map (·.context)).headD 0
        holder := step24 st.num
        across := l.held && l.across
        heldSteps := if l.held then l.heldSteps else 0
        acquires := satTo 32 (l.acquires + 1) }) s with busData := 1 }
    else .next { s with busData := 0 } := by
  show execLatchAcquire i k n s = _
  unfold execLatchAcquire
  dsimp only
  rw [hst]

theorem exec_latchAcquire_noStep {k : Nat} (hnone : stepBy24 (mir s i) n = none) : exec (.latchAcquire i k n) s = .next { s with busData := 0 } := by
  show execLatchAcquire i k n s = _
  unfold execLatchAcquire
  dsimp only
  rw [hnone]

/-- Settles O44. -/
theorem latches : Obligations.Latches := by
  intro i k n s l
  have hgrant (st : Machine.Step) : (running s i && l.models.getLsbD st.model && (!l.held || l.owner == (st.rows.map (·.context)).headD 0)) = true ↔
      running s i = true ∧ l.models.getLsbD st.model = true ∧ (l.held = false ∨ l.owner = (st.rows.map (·.context)).headD 0) := by
    rw [Bool.and_eq_true, Bool.and_eq_true, Bool.or_eq_true, beq_iff_eq, Bool.not_eq_true', and_assoc]
  refine ⟨fun st hst => ⟨fun hg => ⟨_, (exec_latchAcquire hst).trans (if_pos ((hgrant st).mpr hg)), rfl, ?_, ?_, ?_⟩,
    fun hg => ⟨_, (exec_latchAcquire hst).trans (if_neg fun h => hg ((hgrant st).mp h)), rfl⟩⟩, fun hnone => ⟨_, exec_latchAcquire_noStep hnone, rfl⟩,
    fun hrun => ⟨_, if_pos hrun, mir_modMir i _ s, modMir_onlyMirror i _ s⟩, fun hrun => if_neg (Bool.eq_false_iff.mp hrun)⟩
  · cases i <;> rfl
  · cases i <;> rfl
  · cases i <;> rfl

end Sys2Proof.StepRules

/-! SUPPORT. Admission, the Parlour and the Pantry's events, as an usher applies them (spec/02 R40, R46, spec/05 R119-R127). -/

namespace Sys2Proof.AdmissionRules

open Sys2Proof Sys2Proof.Machine Sys2Proof.Laws

variable {i : InstId} {lid : Nat} {s t : State} {q : Machine.Seq}

/-! ### An event that its usher applies -/

theorem released_mir (i : InstId) (lid : Nat) (s : State) : mir (releaseEvent i (.seq lid) s) i = mir s i := (releaseEvent_keeps i (.seq lid) s).1

theorem released_live (i : InstId) (lid : Nat) (s : State) : liveLid (releaseEvent i (.seq lid) s) i lid = liveLid s i lid := by
  unfold liveLid
  rw [releaseEvent_seqOf]

theorem seqOf_of_findSeq (hq : findSeq (mir s i) lid = some q) : seqOf s i lid = q := by
  show (findSeq (mir s i) lid).getD {} = q
  rw [hq]
  rfl

/-- The row of an event whose meaning ends at `u`. -/
theorem ends_of_event {c : Instr} {after : State → State} {p : State → Prop} {u : State} (v : State) (hrow : exec c s = endEvent i s u) (hu : u = after v) (hp : p v) :
    Ends c i s after p := ⟨v, hrow.trans (congrArg (endEvent i s) hu), hp⟩

/-! ### Admission -/

theorem exec_admitSeq (hkind : headKind s i lid = some .admission) :
    exec (.admitSeq i lid) s = endEvent i s (passAll i (applyAdmit i lid (releaseEvent i (.seq lid) s))) := by
  show execAdmitSeq i lid s = _
  unfold execAdmitSeq
  rw [hkind]

theorem applyAdmit_free (hq : findSeq (mir t i) lid = some q) (hfree : q.r.state = .free) : applyAdmit i lid t =
    ackPoint i q.r.promptAddr (recordDone i lid (if q.r.notifyAdmit then postSeqRecord i lid 0 0 false (enterState i lid .admitted t) else enterState i lid .admitted t)) := by
  unfold applyAdmit
  rw [hq]
  exact if_neg (by rw [hfree]; decide)

theorem applyAdmit_other (hq : findSeq (mir t i) lid = some q) (hother : q.r.state ≠ .free) : applyAdmit i lid t = t := by
  unfold applyAdmit
  rw [hq]
  exact if_pos (bne_iff_ne.mpr hother)

/-! ### The Parlour -/

theorem exec_warm {src : Nat} (hkind : headKind s i lid = some (.warm src)) :
    exec (.warm i lid) s = endEvent i s (applyWarm i lid (releaseEvent i (.seq lid) s)) := by
  show execWarm i lid s = _
  unfold execWarm
  rw [hkind]

theorem exec_cool (hkind : headKind s i lid = some .cool) : exec (.cool i lid) s = endEvent i s (applyCool i lid (releaseEvent i (.seq lid) s)) := by
  show execCool i lid s = _
  unfold execCool
  rw [hkind]

theorem applyCool_eq (hq : findSeq (mir t i) lid = some q) :
    applyCool i lid t = if q.r.hot && !mustBeHot (mir t i) q then libAssign i 256 (coolRecord i lid t) else t := by
  unfold applyCool
  rw [hq]

/-! ### The Pantry's events -/

theorem exec_evictionPark (hkind : headKind s i lid = some .evictPark) :
    exec (.evictionPark i lid) s = endEvent i s (applyEvict i lid (releaseEvent i (.seq lid) s)) := by
  show execEvictionPark i lid s = _
  unfold execEvictionPark
  rw [hkind]

theorem applyEvict_composed (hstate : (seqOf t i lid).r.state.composed = true) (hflight : inFlight (mir t i) lid = false) :
    applyEvict i lid t = parkSeq i lid true noDeadline t := by
  refine (if_neg ?_).trans (if_pos (by rw [hstate, hflight]; rfl))
  revert hstate
  cases (seqOf t i lid).r.state <;> decide

theorem applyEvict_parked (hstate : (seqOf t i lid).r.state = .parked ∨ (seqOf t i lid).r.state = .paused) :
    applyEvict i lid t = recordDone i lid (modRec i lid (fun r => { r with kvState := .released, kvLen := 0 }) (releasePages i lid t)) :=
  if_pos (by rcases hstate with h | h <;> rw [h] <;> rfl)

theorem applyEvict_other (hno : (seqOf t i lid).r.state.composed = false ∨ inFlight (mir t i) lid = true) (hparked : (seqOf t i lid).r.state ≠ .parked)
    (hpaused : (seqOf t i lid).r.state ≠ .paused) : applyEvict i lid t = t := by
  refine (if_neg ?_).trans (if_neg ?_)
  · rw [Bool.or_eq_true, beq_iff_eq, beq_iff_eq]
    exact fun h => h.elim hparked hpaused
  · rcases hno with h | h <;> rw [h] <;> simp

theorem exec_evictionResume (hkind : headKind s i lid = some .evictResume) : exec (.evictionResume i lid) s =
    endEvent i s (if (seqOf s i lid).r.state == .parked && (seqOf s i lid).evicted && (mir s i).kitchen.turn == .service
      then resumeFully i lid (releaseEvent i (.seq lid) s) else releaseEvent i (.seq lid) s) := by
  show execEvictionResume i lid s = _
  unfold execEvictionResume
  rw [hkind]

theorem exec_prefixTake {n : Nat} (hkind : headKind s i lid = some (.prefixTake n)) :
    exec (.evictionResume i lid) s = endEvent i s (applyPrefix i lid (releaseEvent i (.seq lid) s)) := by
  show execEvictionResume i lid s = _
  unfold execEvictionResume
  rw [hkind]

theorem exec_kvInvalidation (hkind : headKind s i lid = some .invalidate) : exec (.kvInvalidation i lid) s =
    endEvent i s (if liveLid s i lid then recordDone i lid (invalidateKv i lid (releaseEvent i (.seq lid) s)) else releaseEvent i (.seq lid) s) := by
  show execKvInvalidation i lid s = _
  unfold execKvInvalidation
  rw [hkind]

theorem admissions (i : InstId) (lid : Nat) (q : Machine.Seq) (s : State) (hq : findSeq (mir s i) lid = some q) :
    let t := releaseEvent i (.seq lid) s
    (headKind s i lid = some .admission →
      (q.r.state = .free → q.r.notifyAdmit = false → Ends (.admitSeq i lid) i s (passAll i) (fun v => v = ackPoint i q.r.promptAddr (recordDone i lid (enterState i lid .admitted t)))) ∧
      (q.r.state = .free → q.r.notifyAdmit = true →
        Ends (.admitSeq i lid) i s (passAll i) (fun v => v = ackPoint i q.r.promptAddr (recordDone i lid (postSeqRecord i lid 0 0 false (enterState i lid .admitted t))))) ∧
      (q.r.state ≠ .free → Ends (.admitSeq i lid) i s (passAll i) (fun v => v = t))) ∧
    (∀ src, headKind s i lid = some (.warm src) →
      (q.r.state.live = true → Ends (.warm i lid) i s (fun v => forceStart i lid (claimPlan i lid v)) (fun v => v = warmRecord i lid t)) ∧
      (q.r.state.live = false → Ends (.warm i lid) i s (fun v => v) (fun v => v = t))) ∧
    (headKind s i lid = some .cool →
      (q.r.hot = true → mustBeHot (mir s i) q = false → Ends (.cool i lid) i s (libAssign i 256) (fun v => v = coolRecord i lid t)) ∧
      (q.r.hot = false ∨ mustBeHot (mir s i) q = true → Ends (.cool i lid) i s (fun v => v) (fun v => v = t))) := by
  intro t
  have hmir : mir t i = mir s i := released_mir i lid s
  have hqt : findSeq (mir t i) lid = some q := hmir.symm ▸ hq
  have hlive : liveLid t i lid = q.r.state.live := by
    rw [released_live]
    unfold liveLid
    rw [seqOf_of_findSeq hq]
  refine ⟨fun hkind => ⟨fun hfree hnotify => ends_of_event _ (exec_admitSeq hkind) (congrArg (passAll i) (applyAdmit_free hqt hfree)) ?_,
    fun hfree hnotify => ends_of_event _ (exec_admitSeq hkind) (congrArg (passAll i) (applyAdmit_free hqt hfree)) ?_,
    fun hother => ends_of_event _ (exec_admitSeq hkind) (congrArg (passAll i) (applyAdmit_other hqt hother)) rfl⟩,
    fun src hkind => ⟨fun h => ends_of_event _ (exec_warm hkind) (if_pos (hlive.trans h)) rfl,
      fun h => ends_of_event _ (exec_warm hkind) (if_neg (Bool.eq_false_iff.mp (hlive.trans h))) rfl⟩,
    fun hkind => ⟨fun hhot hmay => ends_of_event _ (exec_cool hkind) ((applyCool_eq hqt).trans (if_pos ?_)) rfl,
      fun hno => ends_of_event _ (exec_cool hkind) ((applyCool_eq hqt).trans (if_neg ?_)) rfl⟩⟩
  · rw [hnotify]
    rfl
  · rw [hnotify]
    rfl
  · rw [hmir, hhot, hmay]
    rfl
  · rw [hmir]
    rcases hno with h | h <;> rw [h] <;> simp

/-- Settles O46. -/
theorem admissionAndPages : Obligations.AdmissionAndPages := by
  refine ⟨admissions, fun i lid s => ?_⟩
  intro t q
  have hmir : mir t i = mir s i := released_mir i lid s
  have hseq : seqOf t i lid = q := releaseEvent_seqOf i (.seq lid) lid s
  refine ⟨fun hkind => ⟨fun hstate hflight => ends_of_event _ (exec_evictionPark hkind) (applyEvict_composed ?_ ?_) rfl,
      fun hstate => ends_of_event (after := fun v => recordDone i lid (modRec i lid (fun r => { r with kvState := .released, kvLen := 0 }) v)) _
        (exec_evictionPark hkind) (applyEvict_parked ?_) rfl,
      fun hno hparked hpaused => ends_of_event _ (exec_evictionPark hkind) (applyEvict_other ?_ ?_ ?_) rfl⟩,
    fun hkind => ⟨fun hparked hevicted hturn => ends_of_event _ (exec_evictionResume hkind) (if_pos ?_) rfl,
      fun hno => ends_of_event _ (exec_evictionResume hkind) (if_neg ?_) rfl⟩,
    fun n hkind => ⟨fun hstate hlen => ends_of_event (after := fun v => recordDone i lid (settlePrefill i lid (takePrefix i lid v))) _
        (exec_prefixTake hkind) (if_pos ?_) rfl,
      fun hno => ends_of_event _ (exec_prefixTake hkind) (if_neg ?_) rfl⟩,
    fun hkind => ⟨fun h => ends_of_event _ (exec_kvInvalidation hkind) (if_pos h) rfl,
      fun h => ends_of_event _ (exec_kvInvalidation hkind) (if_neg (Bool.eq_false_iff.mp h)) rfl⟩⟩
  · rwa [hseq]
  · rwa [hmir]
  · rwa [hseq]
  · rwa [hseq, hmir]
  · rwa [hseq]
  · rwa [hseq]
  · rw [Bool.and_eq_true, Bool.and_eq_true, beq_iff_eq, beq_iff_eq]
    exact ⟨⟨hparked, hevicted⟩, hturn⟩
  · rw [Bool.and_eq_true, Bool.and_eq_true, beq_iff_eq, beq_iff_eq]
    rintro ⟨⟨hparked, hevicted⟩, hturn⟩
    rcases hno with h | h | h
    · exact h hparked
    · exact Bool.false_ne_true (h.symm.trans hevicted)
    · exact h hturn
  · rw [hseq, Bool.and_eq_true, beq_iff_eq, decide_eq_true_eq]
    exact ⟨hstate, hlen⟩
  · rw [hseq, Bool.and_eq_true, beq_iff_eq, decide_eq_true_eq]
    rintro ⟨hstate, hlen⟩
    exact hno.elim (fun h => h hstate) fun h => absurd hlen (Nat.not_lt.mpr h)

end Sys2Proof.AdmissionRules

/-! SUPPORT. The orders' events on a sequence (spec/02 R39-R42, spec/10 R228, spec/14 R304-R306, R441). -/

namespace Sys2Proof.OrderRules

open Sys2Proof Sys2Proof.Machine Sys2Proof.Laws Sys2Proof.AdmissionRules

variable {i : InstId} {lid : Nat} {s t : State} {q : Machine.Seq} {cmd : Option Nat}

/-! ### The end of a sequence -/

theorem endAlive_own {st : SeqState} {reason : Nat} (hown : arrivalOf (mir t i) lid = none) :
    endAlive i lid st reason t = endSeq i lid st reason (abandonFor i lid t) := by
  unfold endAlive
  rw [hown]

theorem endAlive_arrival {st : SeqState} {reason : Nat} {x : InXfer} (harrival : arrivalOf (mir t i) lid = some x) :
    endAlive i lid st reason t = discardIn i x t := by
  unfold endAlive
  rw [harrival]

theorem endOrWait_waits {st : SeqState} {reason : Nat} {w : WaitEvent} (hflight : inFlight (mir t i) lid = true) :
    endOrWait i lid st reason w t = modSeq i lid (fun q => { q with waiting := q.waiting ++ [w] }) t := if_pos hflight

theorem endOrWait_ends {st : SeqState} {reason : Nat} {w : WaitEvent} (hflight : inFlight (mir t i) lid = false) :
    endOrWait i lid st reason w t = endAlive i lid st reason t := if_neg (Bool.eq_false_iff.mp hflight)

/-- A change of the sequence's work that waits, after its event's release. -/
theorem waiting_writes (w : WaitEvent) :
    mir (modSeq i lid (fun x => { x with waiting := x.waiting ++ [w] }) (releaseEvent i (.seq lid) s)) i =
        mapSeq lid (fun x => { x with waiting := x.waiting ++ [w] }) (mir s i) ∧
      (modSeq i lid (fun x => { x with waiting := x.waiting ++ [w] }) (releaseEvent i (.seq lid) s)).hbm = s.hbm := by
  obtain ⟨hmir, hhbm, -⟩ := modSeq_keeps i lid (fun x => { x with waiting := x.waiting ++ [w] }) (releaseEvent i (.seq lid) s)
  exact ⟨hmir.trans (congrArg _ (released_mir i lid s)), hhbm.trans (releaseEvent_hbm i _ s)⟩

/-! ### Cancel, park and resume -/

theorem exec_sequenceCancel (hkind : headKind s i lid = some (.cancel cmd)) :
    exec (.sequenceCancel i lid) s = endEvent i s (applyCancel i lid cmd (releaseEvent i (.seq lid) s)) := by
  show execSequenceCancel i lid s = _
  unfold execSequenceCancel
  rw [hkind]

theorem exec_sequencePark {wake : Nat} (hkind : headKind s i lid = some (.park wake cmd)) :
    exec (.sequencePark i lid) s = endEvent i s (applyPark i lid wake cmd (releaseEvent i (.seq lid) s)) := by
  show execSequencePark i lid s = _
  unfold execSequencePark
  rw [hkind]

theorem exec_sequenceResume (hkind : headKind s i lid = some (.resume cmd)) : exec (.sequenceResume i lid) s =
    endEvent i s (resolveEvent i cmd (applyResume i lid (releaseEvent i (.seq lid) s)).2 (applyResume i lid (releaseEvent i (.seq lid) s)).1) := by
  show execSequenceResume i lid s = _
  unfold execSequenceResume
  rw [hkind]

theorem exec_sequenceExtend {toks : List Nat} {mode nest st c : Nat} (hkind : headKind s i lid = some (.extend toks mode nest st c)) :
    exec (.sequenceExtend i lid) s = endEvent i s (applyExtend i lid toks mode nest st c (releaseEvent i (.seq lid) s)) := by
  show execSequenceExtend i lid s = _
  unfold execSequenceExtend
  rw [hkind]

theorem applyResume_acts (hturn : (mir t i).kitchen.turn = .service)
    (hstate : (seqOf t i lid).r.state = .parked ∨ ((seqOf t i lid).r.state = .paused ∧ (seqOf t i lid).r.committedLen < (seqOf t i lid).r.trailCapacity)) :
    applyResume i lid t = (resumeFully i lid (duskClear i 2 lid t), true) := by
  refine (if_neg (by rw [hturn]; decide)).trans ((if_pos ?_).trans (if_neg ?_))
  · rcases hstate with h | ⟨h, -⟩ <;> rw [h] <;> rfl
  · rcases hstate with h | ⟨h, hroom⟩
    · rw [h]
      simp
    · rw [h, decide_eq_false (Nat.not_le.mpr hroom)]
      simp

theorem applyResume_full (hturn : (mir t i).kitchen.turn = .service) (hstate : (seqOf t i lid).r.state = .paused)
    (hfull : (seqOf t i lid).r.trailCapacity ≤ (seqOf t i lid).r.committedLen) :
    applyResume i lid t = (endSeq i lid .finished reasonTrailFull (duskClear i 2 lid t), true) := by
  refine (if_neg (by rw [hturn]; decide)).trans ((if_pos ?_).trans (if_pos ?_))
  · rw [hstate]
    rfl
  · rw [hstate, decide_eq_true hfull]
    rfl

theorem applyResume_idle (hno : (mir t i).kitchen.turn ≠ .service ∨ ((seqOf t i lid).r.state ≠ .parked ∧ (seqOf t i lid).r.state ≠ .paused)) :
    applyResume i lid t = (t, false) := by
  by_cases hturn : (mir t i).kitchen.turn = .service
  · obtain ⟨hparked, hpaused⟩ := hno.resolve_left (not_not_intro hturn)
    refine (if_neg (by rw [hturn]; decide)).trans (if_neg ?_)
    rw [Bool.or_eq_true, beq_iff_eq, beq_iff_eq]
    exact fun h => h.elim hparked hpaused
  · exact if_pos (bne_iff_ne.mpr hturn)

theorem cancels (hkind : headKind s i lid = some (.cancel cmd)) :
    ((seqOf s i lid).r.state.live = true → inFlight (mir s i) lid = false → arrivalOf (mir s i) lid = none →
      Ends (.sequenceCancel i lid) i s (fun v => resolveEvent i cmd true (endSeq i lid .aborted reasonCancel v)) (fun v => v = abandonFor i lid (releaseEvent i (.seq lid) s))) ∧
    (∀ x, (seqOf s i lid).r.state.live = true → inFlight (mir s i) lid = false → arrivalOf (mir s i) lid = some x →
      Ends (.sequenceCancel i lid) i s (fun v => resolveEvent i cmd true (discardIn i x v)) (fun v => v = releaseEvent i (.seq lid) s)) ∧
    ((seqOf s i lid).r.state.live = true → inFlight (mir s i) lid = true → Ends (.sequenceCancel i lid) i s (resolveEvent i cmd true) (fun v =>
      mir v i = mapSeq lid (fun x => { x with waiting := x.waiting ++ [.cancel cmd] }) (mir s i) ∧ v.hbm = s.hbm)) ∧
    ((seqOf s i lid).r.state.live = false → Ends (.sequenceCancel i lid) i s (resolveEvent i cmd false) (fun v => v = releaseEvent i (.seq lid) s)) := by
  have hmir := released_mir i lid s
  have hrow := exec_sequenceCancel hkind
  have hlive := released_live i lid s
  refine ⟨fun hl hf ha => ends_of_event (after := fun v => resolveEvent i cmd true (endSeq i lid .aborted reasonCancel v)) _ hrow ((if_pos (hlive.trans hl)).trans
      (congrArg (resolveEvent i cmd true) ((endOrWait_ends (hmir.symm ▸ hf)).trans (endAlive_own (hmir.symm ▸ ha))))) rfl,
    fun x hl hf ha => ends_of_event (after := fun v => resolveEvent i cmd true (discardIn i x v)) _ hrow ((if_pos (hlive.trans hl)).trans
      (congrArg (resolveEvent i cmd true) ((endOrWait_ends (hmir.symm ▸ hf)).trans (endAlive_arrival (hmir.symm ▸ ha))))) rfl,
    fun hl hf => ends_of_event _ hrow ((if_pos (hlive.trans hl)).trans (congrArg (resolveEvent i cmd true) (endOrWait_waits (hmir.symm ▸ hf)))) (waiting_writes _),
    fun hl => ends_of_event _ hrow (if_neg (Bool.eq_false_iff.mp (hlive.trans hl))) rfl⟩

theorem parks {wake : Nat} (hkind : headKind s i lid = some (.park wake cmd)) :
    ((seqOf s i lid).r.state.composed = true → inFlight (mir s i) lid = false →
      Ends (.sequencePark i lid) i s (fun v => resolveEvent i cmd true (parkSeq i lid false wake v)) (fun v => v = releaseEvent i (.seq lid) s)) ∧
    ((seqOf s i lid).r.state.composed = true → inFlight (mir s i) lid = true → Ends (.sequencePark i lid) i s (resolveEvent i cmd true) (fun v =>
      mir v i = mapSeq lid (fun x => { x with waiting := x.waiting ++ [.park wake cmd] }) (mir s i) ∧ v.hbm = s.hbm)) ∧
    ((seqOf s i lid).r.state.composed = false → Ends (.sequencePark i lid) i s (resolveEvent i cmd false) (fun v => v = releaseEvent i (.seq lid) s)) := by
  have hmir := released_mir i lid s
  have hrow := exec_sequencePark hkind
  have hseq := releaseEvent_seqOf i (.seq lid) lid s
  refine ⟨fun hc hf => ends_of_event (after := fun v => resolveEvent i cmd true (parkSeq i lid false wake v)) _ hrow ((if_pos (hseq.symm ▸ hc)).trans
      (congrArg (resolveEvent i cmd true) (if_neg (Bool.eq_false_iff.mp (hmir.symm ▸ hf))))) rfl,
    fun hc hf => ends_of_event _ hrow ((if_pos (hseq.symm ▸ hc)).trans (congrArg (resolveEvent i cmd true) (if_pos (hmir.symm ▸ hf)))) (waiting_writes _),
    fun hc => ends_of_event _ hrow (if_neg (Bool.eq_false_iff.mp (hseq.symm ▸ hc))) rfl⟩

theorem resumes (hkind : headKind s i lid = some (.resume cmd)) :
    ((mir s i).kitchen.turn = .service → (seqOf s i lid).r.state = .parked ∨ ((seqOf s i lid).r.state = .paused ∧ (seqOf s i lid).r.committedLen < (seqOf s i lid).r.trailCapacity) →
      Ends (.sequenceResume i lid) i s (fun v => resolveEvent i cmd true (resumeFully i lid v)) (fun v => v = duskClear i 2 lid (releaseEvent i (.seq lid) s))) ∧
    ((mir s i).kitchen.turn = .service → (seqOf s i lid).r.state = .paused → (seqOf s i lid).r.trailCapacity ≤ (seqOf s i lid).r.committedLen →
      Ends (.sequenceResume i lid) i s (fun v => resolveEvent i cmd true (endSeq i lid .finished reasonTrailFull v)) (fun v => v = duskClear i 2 lid (releaseEvent i (.seq lid) s))) ∧
    ((mir s i).kitchen.turn ≠ .service ∨ ((seqOf s i lid).r.state ≠ .parked ∧ (seqOf s i lid).r.state ≠ .paused) →
      Ends (.sequenceResume i lid) i s (resolveEvent i cmd false) (fun v => v = releaseEvent i (.seq lid) s)) := by
  have hmir := released_mir i lid s
  have hrow := exec_sequenceResume hkind
  have hseq := releaseEvent_seqOf i (.seq lid) lid s
  refine ⟨fun hturn hstate => ends_of_event (after := fun v => resolveEvent i cmd true (resumeFully i lid v)) _ hrow ?_ rfl,
    fun hturn hstate hfull => ends_of_event (after := fun v => resolveEvent i cmd true (endSeq i lid .finished reasonTrailFull v)) _ hrow ?_ rfl,
    fun hno => ends_of_event _ hrow ?_ rfl⟩
  · rw [applyResume_acts (hmir.symm ▸ hturn) (hseq.symm ▸ hstate)]
  · rw [applyResume_full (hmir.symm ▸ hturn) (hseq.symm ▸ hstate) (hseq.symm ▸ hfull)]
  · rw [applyResume_idle (t := releaseEvent i (.seq lid) s) (by rw [hseq, hmir]; exact hno)]

/-! ### Extend -/

section Extend

variable {toks : List Nat} {mode nest st c : Nat}

/-- The trail and the positions have room for the tokens. -/
def ExtendFits (m : Mirrored) (r : Record) (toks : List Nat) : Prop :=
  r.committedLen + toks.length ≤ r.trailCapacity ∧ r.promptLen + r.committedLen + toks.length ≤ (getModel m r.model).maxPositions

/-- The extension waits for its plan. -/
def extendWaits (m : Mirrored) (r : Record) (mode : Nat) : Bool :=
  (mode == 1 || mode == 2) && r.planValid && (residentPlan m r.planId).isNone && registered m r.planId

theorem applyExtend_paused (hstate : (seqOf t i lid).r.state = .paused) : applyExtend i lid toks mode nest st c t =
    if (seqOf t i lid).r.trailCapacity < (seqOf t i lid).r.committedLen + toks.length ||
        (getModel (mir t i) (seqOf t i lid).r.model).maxPositions < (seqOf t i lid).r.promptLen + (seqOf t i lid).r.committedLen + toks.length then
      finishCmd i c rInvalid 0 [] t
    else if extendWaits (mir t i) (seqOf t i lid).r mode then
      demandPlan i (seqOf t i lid).r.planId ((seqOf t i lid).r.cls == 0) (modSeq i lid (fun q => { q with waiting := q.waiting ++ [.extend toks mode nest st c] }) t)
    else match extendPlan (mir t i) (seqOf t i lid).r toks mode nest st with
      | none => finishCmd i c rInvalid 0 [] t
      | some x => doExtend i lid toks x c t := if_neg (by rw [hstate]; decide)

theorem applyExtend_noRoom (hstate : (seqOf t i lid).r.state = .paused) (hroom : ¬ ExtendFits (mir t i) (seqOf t i lid).r toks) :
    applyExtend i lid toks mode nest st c t = finishCmd i c rInvalid 0 [] t := by
  refine (applyExtend_paused hstate).trans (if_pos ?_)
  rw [Bool.or_eq_true, decide_eq_true_eq, decide_eq_true_eq]
  unfold ExtendFits at hroom
  omega

theorem applyExtend_room (hstate : (seqOf t i lid).r.state = .paused) (hroom : ExtendFits (mir t i) (seqOf t i lid).r toks) :
    applyExtend i lid toks mode nest st c t = if extendWaits (mir t i) (seqOf t i lid).r mode then
      demandPlan i (seqOf t i lid).r.planId ((seqOf t i lid).r.cls == 0) (modSeq i lid (fun q => { q with waiting := q.waiting ++ [.extend toks mode nest st c] }) t)
    else match extendPlan (mir t i) (seqOf t i lid).r toks mode nest st with
      | none => finishCmd i c rInvalid 0 [] t
      | some x => doExtend i lid toks x c t := by
  refine (applyExtend_paused hstate).trans (if_neg ?_)
  rw [Bool.or_eq_true, decide_eq_true_eq, decide_eq_true_eq]
  unfold ExtendFits at hroom
  omega

theorem extensions (hkind : headKind s i lid = some (.extend toks mode nest st c)) :
    ((seqOf s i lid).r.state ≠ .paused → Ends (.sequenceExtend i lid) i s (finishCmd i c rWrongState 0 []) (fun v => v = releaseEvent i (.seq lid) s)) ∧
    ((seqOf s i lid).r.state = .paused → ¬ ExtendFits (mir s i) (seqOf s i lid).r toks →
      Ends (.sequenceExtend i lid) i s (finishCmd i c rInvalid 0 []) (fun v => v = releaseEvent i (.seq lid) s)) ∧
    ((seqOf s i lid).r.state = .paused → ExtendFits (mir s i) (seqOf s i lid).r toks → extendWaits (mir s i) (seqOf s i lid).r mode = true →
      Ends (.sequenceExtend i lid) i s (demandPlan i (seqOf s i lid).r.planId ((seqOf s i lid).r.cls == 0)) (fun v =>
        mir v i = mapSeq lid (fun x => { x with waiting := x.waiting ++ [.extend toks mode nest st c] }) (mir s i) ∧ v.hbm = s.hbm)) ∧
    ((seqOf s i lid).r.state = .paused → ExtendFits (mir s i) (seqOf s i lid).r toks → extendWaits (mir s i) (seqOf s i lid).r mode = false →
      extendPlan (mir s i) (seqOf s i lid).r toks mode nest st = none →
      Ends (.sequenceExtend i lid) i s (finishCmd i c rInvalid 0 []) (fun v => v = releaseEvent i (.seq lid) s)) ∧
    (∀ x, (seqOf s i lid).r.state = .paused → ExtendFits (mir s i) (seqOf s i lid).r toks → extendWaits (mir s i) (seqOf s i lid).r mode = false →
      extendPlan (mir s i) (seqOf s i lid).r toks mode nest st = some x →
      Ends (.sequenceExtend i lid) i s (doExtend i lid toks x c) (fun v => v = releaseEvent i (.seq lid) s)) := by
  have hrow := exec_sequenceExtend hkind
  have hmir := released_mir i lid s
  have hseq := releaseEvent_seqOf i (.seq lid) lid s
  rw [← hmir, ← hseq]
  refine ⟨fun hstate => ends_of_event _ hrow (if_pos (bne_iff_ne.mpr hstate)) rfl,
    fun hstate hroom => ends_of_event _ hrow (applyExtend_noRoom hstate hroom) rfl,
    fun hstate hroom hwaits => ends_of_event _ hrow ((applyExtend_room hstate hroom).trans (if_pos hwaits)) ?_,
    fun hstate hroom hwaits hplan => ends_of_event _ hrow ((applyExtend_room hstate hroom).trans ((if_neg (Bool.eq_false_iff.mp hwaits)).trans ?_)) rfl,
    fun x hstate hroom hwaits hplan => ends_of_event _ hrow ((applyExtend_room hstate hroom).trans ((if_neg (Bool.eq_false_iff.mp hwaits)).trans ?_)) rfl⟩
  · rw [hmir]
    exact waiting_writes _
  · rw [hplan]
  · rw [hplan]

end Extend

/-- Settles O47. -/
theorem orderEvents : Obligations.OrderEvents := by
  intro i lid s t q
  exact ⟨fun cmd hkind => cancels hkind, fun wake cmd hkind => parks hkind, fun cmd hkind => resumes hkind, fun toks mode nest st cmd hkind => extensions hkind⟩

end Sys2Proof.OrderRules

/-! SUPPORT. Forced runs and Midnight events, as an usher applies them (spec/10 R227, spec/02 R43, spec/11 R240, R241, R248). -/

namespace Sys2Proof.ForcedRuns

open Sys2Proof Sys2Proof.Machine Sys2Proof.Laws Sys2Proof.AdmissionRules

variable {i : InstId} {lid : Nat} {s t : State}

/-! ### Appends -/

/-- The sequence of an id after a change of it that keeps that id. -/
theorem findSeq_mapSeq_own {l : Nat} {f : Machine.Seq → Machine.Seq} {m : Mirrored} (h : ∀ q, q.r.localId = l → (f q).r.localId = l) :
    findSeq (mapSeq l f m) l = (findSeq m l).map f :=
  find_map_if (p := fun q => q.r.localId == l) (fun q hq => beq_iff_eq.mpr (h q (beq_iff_eq.mp hq))) m.seqs

theorem localId_of_findSeq {m : Mirrored} {q : Machine.Seq} (h : findSeq m lid = some q) : q.r.localId = lid :=
  eq_of_beq (List.find?_some (p := fun x : Machine.Seq => x.r.localId == lid) h)

theorem localId_pushRecent (t : Nat) (r : Record) : (pushRecent t r).localId = r.localId := by
  unfold pushRecent
  split <;> rfl

/-- An append in progress: `n` tokens stand behind the `c` that stood before. -/
def Appended (i : InstId) (lid c : Nat) (a : Appending) : Prop := ∃ q, findSeq (mir a.s i) lid = some q ∧ q.r.committedLen = c + a.n

theorem mir_hbmPut (i : InstId) (a : Nat) (bs : List Byte) (s : State) : mir (hbmPut a bs s) i = mir s i := by cases i <;> rfl

/-- One token more stands, or the append has ended. -/
theorem appendOne_appended {c : Nat} {p : Option Plan} {masked ent : Bool} {topN : Nat} {a : Appending} {tok : Tok} (h : Appended i lid c a) :
    Appended i lid c (appendOne i lid p masked ent topN a tok) ∧ (appendOne i lid p masked ent topN a tok).n ≤ a.n + 1 := by
  obtain ⟨q, hq, hlen⟩ := h
  have hseq : seqOf a.s i lid = q := seqOf_of_findSeq hq
  have hid := localId_of_findSeq hq
  unfold appendOne
  split
  · dsimp only
    refine ⟨?_, Nat.le_refl _⟩
    have hmir : ∀ u (b : Prop) [Decidable b] (x y : Nat) (bs : List Byte), mir (if b then u else hbmPut x bs u) i = mir u i := by
      intro u b _ x y bs
      split
      · rfl
      · exact mir_hbmPut i x bs u
    unfold Appended
    simp only [hseq]
    rw [hmir _ _ _ 0, mir_hbmPut, (modSeq_keeps i lid _ a.s).1, findSeq_mapSeq_own, hq]
    · refine ⟨_, rfl, ?_⟩
      show q.r.committedLen + 1 = _
      omega
    · intro x _
      exact (localId_pushRecent _ _).trans hid
  · exact ⟨⟨q, hq, hlen⟩, Nat.le_succ _⟩

theorem foldl_appendOne {c : Nat} {p : Option Plan} {masked ent : Bool} {topN : Nat} : ∀ (toks : List Tok) (a : Appending), Appended i lid c a →
    Appended i lid c (toks.foldl (appendOne i lid p masked ent topN) a) ∧ (toks.foldl (appendOne i lid p masked ent topN) a).n ≤ a.n + toks.length
  | [], a, h => ⟨h, Nat.le_refl _⟩
  | tok :: toks, a, h => by
    obtain ⟨hone, hn⟩ := appendOne_appended (p := p) (masked := masked) (ent := ent) (topN := topN) (tok := tok) h
    obtain ⟨hall, hm⟩ := foldl_appendOne (p := p) (masked := masked) (ent := ent) (topN := topN) toks _ hone
    refine ⟨hall, ?_⟩
    rw [List.length_cons]
    exact Nat.le_trans hm (by omega)

/-- A commit appends at most its tokens, and the trail grows by as many as it appends. -/
theorem appendAll_appended {toks : List Tok} {q : Machine.Seq} (hq : findSeq (mir t i) lid = some q) :
    (appendAll i lid toks t).n ≤ toks.length ∧ (seqOf (appendAll i lid toks t).s i lid).r.committedLen = q.r.committedLen + (appendAll i lid toks t).n := by
  have hstart : Appended i lid q.r.committedLen { s := t } := ⟨q, hq, rfl⟩
  obtain ⟨⟨x, hx, hlen⟩, hn⟩ := foldl_appendOne (p := if (seqOf t i lid).r.planValid then residentPlan (mir t i) (seqOf t i lid).r.planId else none)
    (masked := ((findRecipe (mir t i) (seqOf t i lid).r.recipe).getD {}).policyPlanMask && (seqOf t i lid).r.planValid)
    (ent := ((findRecipe (mir t i) (seqOf t i lid).r.recipe).getD {}).entropy) (topN := ((findRecipe (mir t i) (seqOf t i lid).r.recipe).getD {}).topN) toks _ hstart
  refine ⟨Nat.le_trans hn (Nat.le_of_eq (Nat.zero_add _)), ?_⟩
  exact (congrArg (fun y : Machine.Seq => y.r.committedLen) (seqOf_of_findSeq hx)).trans hlen

theorem length_forcedRun (p : Plan) : ∀ n st nest, (forcedRun p n st nest).length ≤ n
  | 0, _, _ => Nat.le_refl _
  | n + 1, st, nest => by
    unfold forcedRun
    split
    · exact Nat.zero_le _
    · split
      · exact Nat.zero_le _
      · split
        · exact Nat.zero_le _
        next x _ => exact Nat.succ_le_succ (length_forcedRun p n x.1 x.2)

/-! ### Forced runs -/

theorem exec_forceRun (hkind : headKind s i lid = some .forceRun) :
    exec (.forceRun i lid) s = if mirrorBehind s i then .next s else endEvent i s (applyForce i lid (releaseEvent i (.seq lid) s)) := by
  show execForceRun i lid s = _
  unfold execForceRun
  rw [hkind]

/-- What lets a forced run append (spec/10 R227). -/
def ForcesNow (i : InstId) (lid : Nat) (t : State) : Prop :=
  (seqOf t i lid).r.state = .decoding ∧ (stepOfSeq (mir t i) lid).isNone ∧ t.tick ≤ (seqOf t i lid).r.deadlineTick ∧
    flowHas (getInst t i).hall (.seq lid) endsSeq = false ∧ (seqOf t i lid).r.planValid = true

/-- The condition under which `applyForce` leaves the state. -/
theorem not_forcesNow_iff : ((seqOf t i lid).r.state != .decoding || (stepOfSeq (mir t i) lid).isSome || decide ((seqOf t i lid).r.deadlineTick < t.tick)
    || flowHas (getInst t i).hall (.seq lid) endsSeq || !(seqOf t i lid).r.planValid) = true ↔ ¬ ForcesNow i lid t := by
  unfold ForcesNow
  rw [← Bool.not_eq_false]
  refine not_congr ?_
  rw [Bool.or_eq_false_iff, Bool.or_eq_false_iff, Bool.or_eq_false_iff, Bool.or_eq_false_iff, bne_eq_false_iff_eq,
    Option.isSome_eq_false_iff, decide_eq_false_iff_not, Nat.not_lt, Bool.not_eq_false', and_assoc, and_assoc, and_assoc]

theorem applyForce_idle (h : ¬ ForcesNow i lid t ∨ residentPlan (mir t i) (seqOf t i lid).r.planId = none) : applyForce i lid t = t := by
  by_cases hforces : ForcesNow i lid t
  · refine (if_neg (mt not_forcesNow_iff.mp (not_not_intro hforces))).trans ?_
    have hplan : residentPlan (mir t i) (getSeq (mir t i) lid).r.planId = none := h.resolve_left (not_not_intro hforces)
    rw [hplan]
  · exact if_pos (not_forcesNow_iff.mpr hforces)

/-- The state behind a forced run's appends, its journal entries written. -/
def forcedTrail (i : InstId) (lid : Nat) (q : Machine.Seq) (a : Appending) : State :=
  let u := modAcct i q.r.context (fun x => { x with entriesCommitted := x.entriesCommitted + a.n }) (modSeq i lid chargeSeq (watchAppended i lid (advancePenalty i lid a.s)))
  journal i (rowEntries (seqOf u i lid) 0 q.r.committedLen (finState a.fin) a.bytes a.aux []) u

theorem applyForce_runs {p : Plan} (h : ForcesNow i lid t) (hplan : residentPlan (mir t i) (seqOf t i lid).r.planId = some p) :
    applyForce i lid t =
      let a := appendAll i lid (forcedRun p 256 (seqOf t i lid).r.planState (seqOf t i lid).r.nest) t
      endAppend i lid a.fin (if a.fin = .none then forcedTrail i lid (seqOf t i lid) a else dropDraft i lid (forcedTrail i lid (seqOf t i lid) a)) := by
  refine (if_neg (mt not_forcesNow_iff.mp (not_not_intro h))).trans ?_
  have hplan' : residentPlan (mir t i) (getSeq (mir t i) lid).r.planId = some p := hplan
  rw [hplan']
  dsimp only
  refine congrArg (endAppend i lid _) (Serving.ite_of_iff beq_iff_eq rfl rfl)

/-- A sequence that is not FREE has a record. -/
theorem findSeq_of_state (hstate : (seqOf t i lid).r.state ≠ .free) : findSeq (mir t i) lid = some (seqOf t i lid) := by
  cases hfind : findSeq (mir t i) lid with
  | some q => rw [seqOf_of_findSeq hfind]
  | none =>
    refine absurd ?_ hstate
    show ((findSeq (mir t i) lid).getD {}).r.state = .free
    rw [hfind]
    rfl

/-- A forced run's appends are at most 256, and the trail grows by them. -/
theorem forced_appended (p : Plan) (st nest : Nat) (hstate : (seqOf t i lid).r.state = .decoding) :
    (appendAll i lid (forcedRun p 256 st nest) t).n ≤ 256 ∧ (seqOf (appendAll i lid (forcedRun p 256 st nest) t).s i lid).r.committedLen =
      (seqOf t i lid).r.committedLen + (appendAll i lid (forcedRun p 256 st nest) t).n := by
  obtain ⟨hn, hlen⟩ := appendAll_appended (toks := forcedRun p 256 st nest) (findSeq_of_state (t := t) (i := i) (lid := lid) (by rw [hstate]; decide))
  exact ⟨Nat.le_trans hn (length_forcedRun p 256 st nest), hlen⟩

theorem forcedRuns (hkind : headKind s i lid = some .forceRun) (hahead : mirrorBehind s i = false) :
    let t := releaseEvent i (.seq lid) s
    let q := seqOf s i lid
    let runs := q.r.state = .decoding ∧ (stepOfSeq (mir s i) lid).isNone ∧ s.tick ≤ q.r.deadlineTick ∧ flowHas (getInst t i).hall (.seq lid) endsSeq = false ∧ q.r.planValid = true
    (∀ p, runs → residentPlan (mir s i) q.r.planId = some p →
      let a := appendAll i lid (forcedRun p 256 q.r.planState q.r.nest) t
      let w := forcedTrail i lid q a
      a.n ≤ 256 ∧ (seqOf a.s i lid).r.committedLen = q.r.committedLen + a.n ∧
        Ends (.forceRun i lid) i s (endAppend i lid a.fin) (fun v => v = if a.fin = .none then w else dropDraft i lid w)) ∧
    (¬runs ∨ residentPlan (mir s i) q.r.planId = none → Ends (.forceRun i lid) i s (fun v => v) (fun v => v = t)) := by
  intro t q runs
  have hrow := (exec_forceRun hkind).trans (if_neg (Bool.eq_false_iff.mp hahead))
  have hmir : mir t i = mir s i := released_mir i lid s
  have hseq : seqOf t i lid = q := releaseEvent_seqOf i (.seq lid) lid s
  have htick : t.tick = s.tick := releaseEvent_tick i _ s
  have hruns : runs ↔ ForcesNow i lid t := by
    unfold ForcesNow
    rw [hseq, hmir, htick]
  refine ⟨fun p hr hplan => ?_, fun hno => ends_of_event _ hrow (applyForce_idle ?_) rfl⟩
  · intro a w
    obtain ⟨hn, hlen⟩ := forced_appended (t := t) (i := i) (lid := lid) p q.r.planState q.r.nest (by rw [hseq]; exact hr.1)
    refine ⟨hn, by rw [← hseq]; exact hlen, ends_of_event _ hrow ((applyForce_runs (p := p) (hruns.mp hr) (by rw [hmir, hseq]; exact hplan)).trans ?_) rfl⟩
    rw [hseq]
  · rw [hmir, hseq]
    exact hno.imp_left fun h => mt hruns.mpr h

/-! ### Midnight events -/

theorem exec_midnightEvent {info : MidnightInfo} (hkind : headKind s i lid = some (.midnight info)) :
    exec (.midnightEvent i lid) s = endEvent i s (applyMidnight i lid info (releaseEvent i (.seq lid) s)) := by
  show execMidnightEvent i lid s = _
  unfold execMidnightEvent
  rw [hkind]

section Midnight

variable {info : MidnightInfo}

/-- The event meets a live sequence of the model's old epoch. -/
def MidnightMeets (q : Machine.Seq) (info : MidnightInfo) : Prop := q.r.state.live = true ∧ q.r.model = info.model ∧ q.r.epoch = info.old

/-- The sequence keeps its KV. -/
def MidnightKeeps (m : Mirrored) (q : Machine.Seq) (info : MidnightInfo) : Prop :=
  (midnightPolicy m q info).2 = false ∧ (info.newTag = info.oldTag ∨ q.r.state = .shuttered)

/-- What CROSS makes of the KV. -/
def crossKv (i : InstId) (lid : Nat) (q : Machine.Seq) (policy : Nat × Bool) (info : MidnightInfo) (s : State) : State :=
  if !policy.2 && (info.newTag == info.oldTag || q.r.state == .shuttered) then s
  else if q.r.state.composed then resumeSeq i lid (invalidateKv i lid s)
  else invalidateKv i lid s

theorem applyMidnight_eq : applyMidnight i lid info t =
    if !(seqOf t i lid).r.state.live || (seqOf t i lid).r.epoch != info.old || (seqOf t i lid).r.model != info.model || (midnightPolicy (mir t i) (seqOf t i lid) info).1 = 0 then t
    else if (seqOf t i lid).r.state == .migrating then modSeq i lid (fun q => { q with migMidnight := q.migMidnight ++ [info] }) t
    else if (midnightPolicy (mir t i) (seqOf t i lid) info).1 = 2 then endSeq i lid .aborted reasonEpochAbort t
    else retireCheck i (seqOf t i lid).r.model (recordDone i lid (crossKv i lid (seqOf t i lid) (midnightPolicy (mir t i) (seqOf t i lid) info) info (crossTo i lid info t))) := rfl

theorem applyMidnight_none (h : ¬ MidnightMeets (seqOf t i lid) info ∨ (midnightPolicy (mir t i) (seqOf t i lid) info).1 = 0) : applyMidnight i lid info t = t := by
  rw [applyMidnight_eq]
  refine if_pos ?_
  rw [Bool.or_eq_true, Bool.or_eq_true, Bool.or_eq_true, Bool.not_eq_true', bne_iff_ne, bne_iff_ne, decide_eq_true_eq]
  rcases h with h | h
  · refine .inl ?_
    refine Classical.byContradiction fun hno => ?_
    rw [not_or, not_or, Bool.not_eq_false, Classical.not_not, Classical.not_not] at hno
    exact h ⟨hno.1.1, hno.2, hno.1.2⟩
  · exact .inr h

theorem applyMidnight_meets (h : MidnightMeets (seqOf t i lid) info) (hpolicy : (midnightPolicy (mir t i) (seqOf t i lid) info).1 ≠ 0) : applyMidnight i lid info t =
    if (seqOf t i lid).r.state == .migrating then modSeq i lid (fun q => { q with migMidnight := q.migMidnight ++ [info] }) t
    else if (midnightPolicy (mir t i) (seqOf t i lid) info).1 = 2 then endSeq i lid .aborted reasonEpochAbort t
    else retireCheck i (seqOf t i lid).r.model (recordDone i lid (crossKv i lid (seqOf t i lid) (midnightPolicy (mir t i) (seqOf t i lid) info) info (crossTo i lid info t))) := by
  obtain ⟨hlive, hmodel, hepoch⟩ := h
  rw [applyMidnight_eq]
  refine if_neg ?_
  rw [hlive, hmodel, hepoch, bne_self_eq_false, bne_self_eq_false, decide_eq_false hpolicy]
  decide

/-- A sequence crosses. -/
theorem applyMidnight_cross (h : MidnightMeets (seqOf t i lid) info) (hpolicy : (midnightPolicy (mir t i) (seqOf t i lid) info).1 ≠ 0)
    (hcross : (midnightPolicy (mir t i) (seqOf t i lid) info).1 ≠ 2) (hhere : (seqOf t i lid).r.state ≠ .migrating) : applyMidnight i lid info t =
    retireCheck i (seqOf t i lid).r.model (recordDone i lid (crossKv i lid (seqOf t i lid) (midnightPolicy (mir t i) (seqOf t i lid) info) info (crossTo i lid info t))) :=
  (applyMidnight_meets h hpolicy).trans ((if_neg (by rwa [beq_iff_eq])).trans (if_neg hcross))

theorem keeps_iff {m : Mirrored} {q : Machine.Seq} : (!(midnightPolicy m q info).2 && (info.newTag == info.oldTag || q.r.state == .shuttered)) = true ↔ MidnightKeeps m q info := by
  unfold MidnightKeeps
  rw [Bool.and_eq_true, Bool.or_eq_true, beq_iff_eq, beq_iff_eq, Bool.not_eq_true']

theorem midnights (hkind : headKind s i lid = some (.midnight info)) :
    let t := releaseEvent i (.seq lid) s
    let q := seqOf s i lid
    let policy := midnightPolicy (mir s i) q info
    let after (v : State) : State := retireCheck i q.r.model (recordDone i lid v)
    (¬ MidnightMeets q info ∨ policy.1 = 0 → Ends (.midnightEvent i lid) i s (fun v => v) (fun v => v = t)) ∧
    (MidnightMeets q info → policy.1 ≠ 0 → q.r.state = .migrating → Ends (.midnightEvent i lid) i s (fun v => v) (fun v =>
      mir v i = mapSeq lid (fun x => { x with migMidnight := x.migMidnight ++ [info] }) (mir s i) ∧ v.hbm = s.hbm)) ∧
    (MidnightMeets q info → policy.1 = 2 → q.r.state ≠ .migrating → Ends (.midnightEvent i lid) i s (endSeq i lid .aborted reasonEpochAbort) (fun v => v = t)) ∧
    (MidnightMeets q info → policy.1 ≠ 0 → policy.1 ≠ 2 → q.r.state ≠ .migrating →
      (MidnightKeeps (mir s i) q info → Ends (.midnightEvent i lid) i s after (fun v => v = crossTo i lid info t)) ∧
      (¬ MidnightKeeps (mir s i) q info → q.r.state.composed = true → Ends (.midnightEvent i lid) i s after (fun v => v = resumeSeq i lid (invalidateKv i lid (crossTo i lid info t)))) ∧
      (¬ MidnightKeeps (mir s i) q info → q.r.state.composed = false → Ends (.midnightEvent i lid) i s after (fun v => v = invalidateKv i lid (crossTo i lid info t)))) := by
  have hrow := exec_midnightEvent hkind
  have hmir := released_mir i lid s
  have hseq := releaseEvent_seqOf i (.seq lid) lid s
  have hhbm := releaseEvent_hbm i (.seq lid) s
  rw [← hmir, ← hseq]
  intro t q policy after
  refine ⟨fun hno => ends_of_event _ hrow (applyMidnight_none hno) rfl, fun hmeets hpolicy hmig => ends_of_event _ hrow ((applyMidnight_meets hmeets hpolicy).trans (if_pos ?_)) ?_,
    fun hmeets hpolicy hhere => ends_of_event _ hrow ((applyMidnight_meets hmeets ?_).trans ((if_neg ?_).trans (if_pos hpolicy))) rfl,
    fun hmeets hpolicy hcross hhere => ?_⟩
  · rw [beq_iff_eq]
    exact hmig
  · obtain ⟨h, k, -⟩ := modSeq_keeps i lid (fun x => { x with migMidnight := x.migMidnight ++ [info] }) t
    exact ⟨h, k.trans hhbm⟩
  · exact fun h => absurd (hpolicy.symm.trans h) (by decide)
  · rw [beq_iff_eq]
    exact hhere
  · have hcrossed := applyMidnight_cross hmeets hpolicy hcross hhere
    refine ⟨fun hkeeps => ends_of_event _ hrow (hcrossed.trans (congrArg after (if_pos (keeps_iff.mpr hkeeps)))) rfl,
      fun hlost hcomposed => ends_of_event _ hrow (hcrossed.trans (congrArg after ((if_neg (mt keeps_iff.mp hlost)).trans (if_pos hcomposed)))) rfl,
      fun hlost hother => ends_of_event _ hrow (hcrossed.trans (congrArg after ((if_neg (mt keeps_iff.mp hlost)).trans (if_neg (Bool.eq_false_iff.mp hother))))) rfl⟩

end Midnight

end Sys2Proof.ForcedRuns

/-! SUPPORT. Epoch aborts, Evening and Morning, the sweep, teardowns, households and plans, as an usher applies them (spec/02 R40, R47, spec/05 R120, spec/10 R216, R228, spec/11 R243-R247, spec/12 R256). -/

namespace Sys2Proof.TurnRules

open Sys2Proof Sys2Proof.Machine Sys2Proof.Laws Sys2Proof.AdmissionRules Sys2Proof.OrderRules Sys2Proof.ForcedRuns Sys2Proof.OrdersPost

variable {i : InstId} {lid : Nat} {s t : State}

/-! ### Aborts and teardowns -/

theorem exec_epochAbort {e : Option Nat} (hkind : headKind s i lid = some (.epochAbort e)) : exec (.epochAbort i lid) s =
    endEvent i s (if liveLid s i lid then endOrWait i lid .aborted reasonEpochAbort .epochAbort (releaseEvent i (.seq lid) s) else releaseEvent i (.seq lid) s) := by
  show execEpochAbort i lid s = _
  unfold execEpochAbort
  rw [hkind]

theorem epochAborts {e : Option Nat} (hkind : headKind s i lid = some (.epochAbort e)) :
    ((seqOf s i lid).r.state.live = true → inFlight (mir s i) lid = false → arrivalOf (mir s i) lid = none →
      Ends (.epochAbort i lid) i s (endSeq i lid .aborted reasonEpochAbort) (fun v => v = abandonFor i lid (releaseEvent i (.seq lid) s))) ∧
    (∀ x, (seqOf s i lid).r.state.live = true → inFlight (mir s i) lid = false → arrivalOf (mir s i) lid = some x →
      Ends (.epochAbort i lid) i s (discardIn i x) (fun v => v = releaseEvent i (.seq lid) s)) ∧
    ((seqOf s i lid).r.state.live = true → inFlight (mir s i) lid = true → Ends (.epochAbort i lid) i s (fun v => v) (fun v =>
      mir v i = mapSeq lid (fun x => { x with waiting := x.waiting ++ [.epochAbort] }) (mir s i) ∧ v.hbm = s.hbm)) ∧
    ((seqOf s i lid).r.state.live = false → Ends (.epochAbort i lid) i s (fun v => v) (fun v => v = releaseEvent i (.seq lid) s)) := by
  have hrow := exec_epochAbort hkind
  have hmir := released_mir i lid s
  exact ⟨fun hl hf ha => ends_of_event _ hrow ((if_pos hl).trans ((endOrWait_ends (hmir.symm ▸ hf)).trans (endAlive_own (hmir.symm ▸ ha)))) rfl,
    fun x hl hf ha => ends_of_event _ hrow ((if_pos hl).trans ((endOrWait_ends (hmir.symm ▸ hf)).trans (endAlive_arrival (hmir.symm ▸ ha)))) rfl,
    fun hl hf => ends_of_event _ hrow ((if_pos hl).trans (endOrWait_waits (hmir.symm ▸ hf))) (waiting_writes _),
    fun hl => ends_of_event _ hrow (if_neg (Bool.eq_false_iff.mp hl)) rfl⟩

theorem exec_teardown (hkind : headKind s i lid = some .teardown) : exec (.teardown i lid) s = endEvent i s (applyTeardown i lid (releaseEvent i (.seq lid) s)) := by
  show execTeardown i lid s = _
  unfold execTeardown
  rw [hkind]

theorem teardowns (hkind : headKind s i lid = some .teardown) :
    ((seqOf s i lid).r.state.live = true → arrivalOf (mir s i) lid = none →
      Ends (.teardown i lid) i s (endSeq i lid .aborted reasonContextFault) (fun v => v = abandonFor i lid (releaseEvent i (.seq lid) s))) ∧
    (∀ x, (seqOf s i lid).r.state.live = true → arrivalOf (mir s i) lid = some x → Ends (.teardown i lid) i s (discardIn i x) (fun v => v = releaseEvent i (.seq lid) s)) ∧
    ((seqOf s i lid).r.state.live = false → Ends (.teardown i lid) i s (fun v => v) (fun v => v = releaseEvent i (.seq lid) s)) := by
  have hrow := exec_teardown hkind
  have hmir := released_mir i lid s
  have hlive := released_live i lid s
  exact ⟨fun hl ha => ends_of_event _ hrow ((if_pos (hlive.trans hl)).trans (endAlive_own (hmir.symm ▸ ha))) rfl,
    fun x hl ha => ends_of_event _ hrow ((if_pos (hlive.trans hl)).trans (endAlive_arrival (hmir.symm ▸ ha))) rfl,
    fun hl => ends_of_event _ hrow (if_neg (Bool.eq_false_iff.mp (hlive.trans hl))) rfl⟩

/-! ### Evening -/

theorem exec_eveningEvent (hkind : headKind s i lid = some .evening) :
    exec (.eveningEvent i lid) s = endEvent i s (applyEvening i lid (releaseEvent i (.seq lid) s)) := by
  show execEveningEvent i lid s = _
  unfold execEveningEvent
  rw [hkind]

/-- Evening takes the sequence. -/
def EveningTakes (q : Machine.Seq) : Prop := q.r.state.live = true ∧ q.r.state ≠ .migrating ∧ q.r.state ≠ .shuttered

/-- The sequence keeps its pages over the turn. -/
def EveningKeeps (m : Mirrored) (q : Machine.Seq) : Prop := (q.pages ≠ [] ∨ q.draftPages ≠ [] ∨ q.ahead ≠ []) ∧ (getCtx m q.r.context).cfg.kvTurnRelease = false

/-- The sequence notes the state to which it returns. -/
def eveningBack (i : InstId) (lid : Nat) (s : State) : State :=
  modSeq i lid (fun q => { emptyDraft q with r := { (emptyDraft q).r with returnState := q.r.state } }) s

theorem applyEvening_none (h : ¬ EveningTakes (seqOf t i lid)) : applyEvening i lid t = t := by
  refine if_pos ?_
  rw [Bool.or_eq_true, Bool.or_eq_true, Bool.not_eq_true', beq_iff_eq, beq_iff_eq]
  refine Classical.byContradiction fun hno => ?_
  rw [not_or, not_or, Bool.not_eq_false] at hno
  exact h ⟨hno.1.1, hno.1.2, hno.2⟩

theorem keepsPages_iff {m : Mirrored} {q : Machine.Seq} :
    (!(q.pages.isEmpty && q.draftPages.isEmpty && q.ahead.isEmpty) && !(getCtx m q.r.context).cfg.kvTurnRelease) = true ↔ EveningKeeps m q := by
  unfold EveningKeeps
  rw [Bool.and_eq_true, Bool.not_eq_true', Bool.not_eq_true', Bool.and_eq_false_iff, Bool.and_eq_false_iff, List.isEmpty_eq_false_iff, List.isEmpty_eq_false_iff,
    List.isEmpty_eq_false_iff, or_assoc]

theorem applyEvening_takes (h : EveningTakes (seqOf t i lid)) : applyEvening i lid t =
    if !((seqOf t i lid).pages.isEmpty && (seqOf t i lid).draftPages.isEmpty && (seqOf t i lid).ahead.isEmpty) && !(getCtx (mir t i) (seqOf t i lid).r.context).cfg.kvTurnRelease then
      recordDone i lid (enterState i lid .shuttered (modRec i lid (fun r => { r with kvState := .shuttered }) (writeList i lid (freeAhead i lid (fun _ => true)
        (modSeq i lid (fun q => { emptyDraft q with r := { (emptyDraft q).r with returnState := q.r.state } }) t)))))
    else recordDone i lid (enterState i lid (eveningState (seqOf t i lid).r.state) (modRec i lid (fun r => { r with kvState := .released, kvLen := 0 }) (releasePages i lid
        (modSeq i lid (fun q => { emptyDraft q with r := { (emptyDraft q).r with returnState := q.r.state } }) t)))) := by
  obtain ⟨hlive, hhere, hopen⟩ := h
  refine if_neg ?_
  rw [Bool.or_eq_true, Bool.or_eq_true, Bool.not_eq_true', beq_iff_eq, beq_iff_eq, hlive]
  rintro ((h | h) | h)
  · exact Bool.false_ne_true h.symm
  · exact hhere h
  · exact hopen h

theorem evenings (hkind : headKind s i lid = some .evening) :
    let t := releaseEvent i (.seq lid) s
    let q := seqOf s i lid
    let back (v : State) : Prop := mir v i = mapSeq lid (fun x => { emptyDraft x with r := { (emptyDraft x).r with returnState := x.r.state } }) (mir s i) ∧ v.hbm = s.hbm
    (¬ EveningTakes q → Ends (.eveningEvent i lid) i s (fun v => v) (fun v => v = t)) ∧
    (EveningTakes q → EveningKeeps (mir s i) q → Ends (.eveningEvent i lid) i s
      (fun v => recordDone i lid (enterState i lid .shuttered (modRec i lid (fun r => { r with kvState := .shuttered }) (writeList i lid (freeAhead i lid (fun _ => true) v))))) back) ∧
    (EveningTakes q → ¬ EveningKeeps (mir s i) q → Ends (.eveningEvent i lid) i s
      (fun v => recordDone i lid (enterState i lid (if q.r.state.composed then .parked else q.r.state)
        (modRec i lid (fun r => { r with kvState := .released, kvLen := 0 }) (releasePages i lid v)))) back) := by
  have hrow := exec_eveningEvent hkind
  have hmir := released_mir i lid s
  have hseq := releaseEvent_seqOf i (.seq lid) lid s
  have hhbm := releaseEvent_hbm i (.seq lid) s
  rw [← hmir, ← hseq]
  intro t q back
  have hback : back (modSeq i lid (fun q => { emptyDraft q with r := { (emptyDraft q).r with returnState := q.r.state } }) t) := by
    obtain ⟨h, k, -⟩ := modSeq_keeps i lid (fun q => { emptyDraft q with r := { (emptyDraft q).r with returnState := q.r.state } }) t
    exact ⟨h, k.trans hhbm⟩
  refine ⟨fun hno => ends_of_event _ hrow (applyEvening_none hno) rfl,
    fun htakes hkeeps => ends_of_event _ hrow ((applyEvening_takes htakes).trans (if_pos (keepsPages_iff.mpr hkeeps))) hback,
    fun htakes hkeeps => ends_of_event _ hrow ((applyEvening_takes htakes).trans (if_neg (mt keepsPages_iff.mp hkeeps))) hback⟩

/-! ### Morning -/

theorem exec_morningEvent (hkind : headKind s i lid = some .morning ∨ headKind s i lid = some .morningResume) :
    exec (.morningEvent i lid) s = endEvent i s (applyMorning i lid (releaseEvent i (.seq lid) s)) := by
  show execMorningEvent i lid s = _
  unfold execMorningEvent
  rcases hkind with h | h <;> rw [h]

/-- The sequence was at rest before Evening. -/
def RestedBefore (q : Machine.Seq) : Prop := q.r.returnState = .paused ∨ q.r.returnState = .parked ∨ q.r.returnState = .admitted

theorem rested_iff {q : Machine.Seq} : (q.r.returnState == .paused || q.r.returnState == .parked || q.r.returnState == .admitted) = true ↔ RestedBefore q := by
  unfold RestedBefore
  rw [Bool.or_eq_true, Bool.or_eq_true, beq_iff_eq, beq_iff_eq, beq_iff_eq, or_assoc]

theorem applyMorning_shuttered (hstate : (seqOf t i lid).r.state = .shuttered) : applyMorning i lid t =
    if (seqOf t i lid).r.returnState == .paused || (seqOf t i lid).r.returnState == .parked || (seqOf t i lid).r.returnState == .admitted then
      recordDone i lid (claimPlan i lid (warmRecord i lid (enterState i lid (seqOf t i lid).r.returnState (if (seqOf t i lid).r.layoutTag == tagOf (mir t i) (seqOf t i lid).r
        then modRec i lid (fun r => { r with kvState := if r.kvState == .shuttered then .valid else r.kvState }) t else invalidateKv i lid t))))
    else resumeFully i lid t := if_pos (by rw [hstate]; rfl)

theorem applyMorning_other (hstate : (seqOf t i lid).r.state ≠ .shuttered) : applyMorning i lid t =
    if (seqOf t i lid).r.state == .parked && (seqOf t i lid).r.returnState.composed then resumeFully i lid t else t := if_neg (by rwa [beq_iff_eq])

theorem mornings (hkind : headKind s i lid = some .morning ∨ headKind s i lid = some .morningResume) :
    let t := releaseEvent i (.seq lid) s
    let q := seqOf s i lid
    (q.r.state = .shuttered → RestedBefore q → q.r.layoutTag ≠ tagOf (mir s i) q.r →
      Ends (.morningEvent i lid) i s (fun v => recordDone i lid (claimPlan i lid (warmRecord i lid (enterState i lid q.r.returnState v)))) (fun v => v = invalidateKv i lid t)) ∧
    (q.r.state = .shuttered → RestedBefore q → q.r.layoutTag = tagOf (mir s i) q.r →
      Ends (.morningEvent i lid) i s (fun v => recordDone i lid (claimPlan i lid (warmRecord i lid (enterState i lid q.r.returnState v))))
        (fun v => v = modRec i lid (fun r => { r with kvState := if r.kvState == .shuttered then .valid else r.kvState }) t)) ∧
    (q.r.state = .shuttered → ¬ RestedBefore q → Ends (.morningEvent i lid) i s (resumeFully i lid) (fun v => v = t)) ∧
    (q.r.state = .parked → q.r.returnState.composed = true → Ends (.morningEvent i lid) i s (resumeFully i lid) (fun v => v = t)) ∧
    (q.r.state ≠ .shuttered → (q.r.state ≠ .parked ∨ q.r.returnState.composed = false) → Ends (.morningEvent i lid) i s (fun v => v) (fun v => v = t)) := by
  have hrow := exec_morningEvent hkind
  have hmir := released_mir i lid s
  have hseq := releaseEvent_seqOf i (.seq lid) lid s
  rw [← hmir, ← hseq]
  intro t q
  have htag (v : State) : (fun v => recordDone i lid (claimPlan i lid (warmRecord i lid (enterState i lid q.r.returnState v)))) v =
      recordDone i lid (claimPlan i lid (warmRecord i lid (enterState i lid q.r.returnState v))) := rfl
  refine ⟨fun hstate hrest hnew => ends_of_event _ hrow ((applyMorning_shuttered hstate).trans ((if_pos (rested_iff.mpr hrest)).trans ?_)) rfl,
    fun hstate hrest hsame => ends_of_event _ hrow ((applyMorning_shuttered hstate).trans ((if_pos (rested_iff.mpr hrest)).trans ?_)) rfl,
    fun hstate hrest => ends_of_event _ hrow ((applyMorning_shuttered hstate).trans (if_neg (mt rested_iff.mp hrest))) rfl,
    fun hstate hback => ends_of_event _ hrow ((applyMorning_other ?_).trans (if_pos ?_)) rfl,
    fun hstate hno => ends_of_event _ hrow ((applyMorning_other hstate).trans (if_neg ?_)) rfl⟩
  · rw [if_neg (by rw [beq_iff_eq]; exact hnew)]
  · rw [if_pos (by rw [beq_iff_eq]; exact hsame)]
  · exact fun h => absurd (hstate.symm.trans h) (by decide)
  · rw [Bool.and_eq_true, beq_iff_eq]
    exact ⟨hstate, hback⟩
  · rw [Bool.and_eq_true, beq_iff_eq]
    rintro ⟨hparked, hback⟩
    exact hno.elim (fun h => h hparked) fun h => Bool.false_ne_true (h.symm.trans hback)

/-! ### The sweep -/

theorem mir_foldl_postTo {α : Type} (f : α → Flow) (k : α → EvKind) (b : α → Nat) : ∀ (l : List α) (s : State),
    mir (l.foldl (fun s x => postTo i (f x) (k x) true (b x) s) s) i = mir s i
  | [], _ => rfl
  | x :: l, s => (mir_foldl_postTo f k b l _).trans (by cases i <;> rfl)

theorem mir_flushBcast (i : InstId) (lid : Nat) (s : State) : mir (flushBcast i lid s) i = mapSeq lid (fun q => { q with bcast := [] }) (mir s i) :=
  (mir_foldl_postTo (fun _ => .seq lid) (fun b : Bcast × Nat => bcastKind b.1) (fun b => b.2) _ _).trans (modSeq_keeps i lid _ s).1

theorem sweeps (hact : activeInst s i = true) (hnext : sweepNext (mir s i) lid = true) :
    Mirrors (.broadcastSweep i lid) i s (fun v => v = flushBcast i lid s ∧ (seqOf v i lid).bcast = [] ∧ (seqOf v i lid).r = (seqOf s i lid).r) := by
  refine ⟨_, if_pos (by rw [hact, hnext]; rfl), rfl, ?_⟩
  have hfind : findSeq (mir (flushBcast i lid s) i) lid = (findSeq (mir s i) lid).map fun q => { q with bcast := [] } := by
    rw [mir_flushBcast]
    exact findSeq_mapSeq_own fun _ h => h
  show ((findSeq (mir (flushBcast i lid s) i) lid).getD {}).bcast = [] ∧ ((findSeq (mir (flushBcast i lid s) i) lid).getD {}).r = ((findSeq (mir s i) lid).getD {}).r
  rw [hfind]
  cases findSeq (mir s i) lid <;> exact ⟨rfl, rfl⟩

/-! ### Households and plans -/

theorem exec_household (hkind : headKind s i lid = some .household) :
    exec (.household i lid) s = endEvent i s (applyHousehold i lid (releaseEvent i (.seq lid) s)) := by
  show execHousehold i lid s = _
  unfold execHousehold
  rw [hkind]

theorem applyHousehold_eq {q : Machine.Seq} (hq : findSeq (mir t i) lid = some q) : applyHousehold i lid t =
    if q.r.holdHousehold && decide (q.r.liveMembers ≤ 1) then freeHouse i q.r.household (freeSeq i lid (modRec i lid (fun r => { r with liveMembers := r.liveMembers - 1 }) t))
    else recordDone i lid (modRec i lid (fun r => { r with liveMembers := r.liveMembers - 1 }) t) := by
  unfold applyHousehold
  rw [hq]

theorem households {q : Machine.Seq} (hq : findSeq (mir s i) lid = some q) (hkind : headKind s i lid = some .household) :
    let lost := modRec i lid (fun r => { r with liveMembers := r.liveMembers - 1 }) (releaseEvent i (.seq lid) s)
    (q.r.holdHousehold = false ∨ 1 < q.r.liveMembers → Ends (.household i lid) i s (recordDone i lid) (fun v => v = lost)) ∧
    (q.r.holdHousehold = true → q.r.liveMembers ≤ 1 → Ends (.household i lid) i s (fun v => freeHouse i q.r.household (freeSeq i lid v)) (fun v => v = lost)) := by
  intro lost
  have hrow := exec_household hkind
  have happly := applyHousehold_eq (t := releaseEvent i (.seq lid) s) (i := i) (lid := lid) (q := q) ((released_mir i lid s).symm ▸ hq)
  refine ⟨fun hno => ends_of_event _ hrow (happly.trans (if_neg ?_)) rfl,
    fun hold hfew => ends_of_event (after := fun v => freeHouse i q.r.household (freeSeq i lid v)) _ hrow (happly.trans (if_pos ?_)) rfl⟩
  · rw [Bool.and_eq_true, decide_eq_true_eq]
    rintro ⟨hold, hfew⟩
    exact hno.elim (fun h => Bool.false_ne_true (h.symm.trans hold)) fun h => absurd h (Nat.not_lt.mpr hfew)
  · rw [hold, decide_eq_true hfew]
    rfl

theorem exec_planReady (hkind : headKind s i lid = some .planReady) :
    exec (.planReady i lid) s = endEvent i s (applyPlanReady i lid (releaseEvent i (.seq lid) s)) := by
  show execPlanReady i lid s = _
  unfold execPlanReady
  rw [hkind]

/-- Work that waits for something other than its plan. -/
def isOther : WaitEvent → Bool
  | .extend .. => false
  | _ => true

/-- The slot that a record whose plan is ready takes. -/
def readySlot (m : Mirrored) (q : Machine.Seq) : Nat := if q.r.hot && q.r.planValid then ((findPlan m q.r.planId).map (·.slot)).getD 0xFF else q.r.planSlot

/-- The record has its plan's slot, and its extensions wait no more. -/
def planSlotted (i : InstId) (lid : Nat) (t : State) : State :=
  modSeq i lid (fun q => { q with waiting := q.waiting.filter isOther, r := { q.r with planSlot := readySlot (mir t i) q } }) t

/-- The extensions that waited go on. -/
def extendWaiting (i : InstId) (lid : Nat) (s : State) (w : WaitEvent) : State :=
  match w with
  | .extend toks mode nest st cmd => applyExtend i lid toks mode nest st cmd s
  | _ => s

/-- What follows on a record's slot. -/
def started (i : InstId) (lid : Nat) (v : State) : State := if liveLid v i lid then forceStart i lid v else v

theorem applyPlanReady_eq : applyPlanReady i lid t = started i lid ((seqOf t i lid).waiting.foldl (extendWaiting i lid) (planSlotted i lid t)) := rfl

theorem foldl_extendWaiting_other : ∀ (l : List WaitEvent) (v : State), (∀ w ∈ l, isOther w = true) → l.foldl (extendWaiting i lid) v = v
  | [], _, _ => rfl
  | w :: l, v, h => by
    rw [List.foldl_cons, show extendWaiting i lid v w = v from by
      have hw := h w (List.mem_cons_self ..)
      cases w with
      | extend toks mode nest st cmd => exact nomatch hw
      | _ => rfl]
    exact foldl_extendWaiting_other l v fun x hx => h x (List.mem_cons_of_mem _ hx)

theorem find_map_if_ne {l k : Nat} {f : Machine.Seq → Machine.Seq} (hf : ∀ q, (f q).r.localId = q.r.localId) (hne : k ≠ l) : ∀ qs : List Machine.Seq,
    (qs.map fun q => if q.r.localId == l then f q else q).find? (·.r.localId == k) = qs.find? (·.r.localId == k)
  | [] => rfl
  | q :: qs => by
    rw [List.map_cons, List.find?_cons, List.find?_cons, find_map_if_ne hf hne qs]
    by_cases hl : q.r.localId = l
    · rw [if_pos (by rw [hl]; exact beq_self_eq_true l), hf]
      have hk : (q.r.localId == k) = false := beq_eq_false_iff_ne.mpr (by rw [hl]; exact hne.symm)
      rw [hk]
    · rw [if_neg (by rwa [beq_iff_eq])]

/-- What a ready plan writes of the record. -/
theorem planSlotted_writes {q : Machine.Seq} {ws : List WaitEvent} (hq : findSeq (mir t i) lid = some q) (hws : q.waiting.filter isOther = ws) :
    seqOf (planSlotted i lid t) i lid = { q with waiting := ws, r := { q.r with planSlot := readySlot (mir t i) q } } ∧
      (∀ l, l ≠ lid → findSeq (mir (planSlotted i lid t) i) l = findSeq (mir t i) l) ∧ (mir (planSlotted i lid t) i).households = (mir t i).households ∧
      (mir (planSlotted i lid t) i).ctxs = (mir t i).ctxs ∧ (planSlotted i lid t).hbm = t.hbm := by
  obtain ⟨hmir, hhbm, -⟩ := modSeq_keeps i lid (fun q => { q with waiting := q.waiting.filter isOther, r := { q.r with planSlot := readySlot (mir t i) q } }) t
  have hmir : mir (planSlotted i lid t) i = _ := hmir
  refine ⟨seqOf_of_findSeq ?_, fun l hl => ?_, ?_, ?_, hhbm⟩
  · have hfind : findSeq (mir (planSlotted i lid t) i) lid =
        (findSeq (mir t i) lid).map fun q => { q with waiting := q.waiting.filter isOther, r := { q.r with planSlot := readySlot (mir t i) q } } := by
      rw [hmir]
      exact findSeq_mapSeq_own fun _ h => h
    rw [hfind, hq, Option.map_some, hws]
  · rw [hmir]
    exact find_map_if_ne (f := fun q => { q with waiting := q.waiting.filter isOther, r := { q.r with planSlot := readySlot (mir t i) q } }) (fun _ => rfl) hl (mir t i).seqs
  · rw [hmir]
    rfl
  · rw [hmir]
    rfl

theorem plansReady {q : Machine.Seq} (hq : findSeq (mir s i) lid = some q) (hkind : headKind s i lid = some .planReady) :
    let slotted (ws : List WaitEvent) (v : State) : Prop := seqOf v i lid = { q with waiting := ws, r := { q.r with planSlot := readySlot (mir s i) q } } ∧
      (∀ l, l ≠ lid → findSeq (mir v i) l = findSeq (mir s i) l) ∧ (mir v i).households = (mir s i).households ∧ (mir v i).ctxs = (mir s i).ctxs ∧ v.hbm = s.hbm
    ((∀ toks mode nest st cmd, WaitEvent.extend toks mode nest st cmd ∉ q.waiting) → Ends (.planReady i lid) i s (started i lid) (slotted q.waiting)) ∧
    (∀ toks mode nest st cmd, q.waiting = [.extend toks mode nest st cmd] →
      Ends (.planReady i lid) i s (fun v => started i lid (applyExtend i lid toks mode nest st cmd v)) (slotted [])) := by
  intro slotted
  have hrow := exec_planReady hkind
  have hmir := released_mir i lid s
  have hqt : findSeq (mir (releaseEvent i (.seq lid) s) i) lid = some q := hmir.symm ▸ hq
  have hseq := seqOf_of_findSeq hqt
  have hwrites {ws : List WaitEvent} (hws : q.waiting.filter isOther = ws) : slotted ws (planSlotted i lid (releaseEvent i (.seq lid) s)) := by
    have h := planSlotted_writes hqt hws
    rw [hmir, releaseEvent_hbm] at h
    exact h
  refine ⟨fun hno => ?_, fun toks mode nest st cmd hone => ?_⟩
  · have hother : ∀ w ∈ q.waiting, isOther w = true := by
      intro w hw
      cases w with
      | extend toks mode nest st cmd => exact absurd hw (hno toks mode nest st cmd)
      | _ => rfl
    refine ends_of_event (planSlotted i lid (releaseEvent i (.seq lid) s)) hrow ?_ (hwrites (List.filter_eq_self.mpr hother))
    rw [applyPlanReady_eq, hseq, foldl_extendWaiting_other _ _ hother]
  · refine ends_of_event (planSlotted i lid (releaseEvent i (.seq lid) s)) hrow ?_ (hwrites (by rw [hone]; rfl))
    rw [applyPlanReady_eq, hseq, hone]
    rfl

/-- Settles O48. -/
theorem turnAndHouseholdEvents : Obligations.TurnAndHouseholdEvents := by
  refine ⟨fun i lid s => ⟨fun hkind hbehind => (exec_forceRun hkind).trans (if_pos hbehind), fun hkind hahead => forcedRuns hkind hahead, fun info hkind => midnights hkind,
    fun e hkind => epochAborts hkind, fun hkind => evenings hkind, fun hkind => mornings hkind, fun hact hnext => sweeps hact hnext, fun hno => if_neg ?_,
    fun hkind => teardowns hkind⟩, fun i lid q s hq => ⟨fun hkind => households hq hkind, fun hkind => plansReady hq hkind⟩⟩
  rw [Bool.and_eq_true]
  rintro ⟨hact, hnext⟩
  exact hno.elim (fun h => Bool.false_ne_true (h.symm.trans hact)) fun h => Bool.false_ne_true (h.symm.trans hnext)

end Sys2Proof.TurnRules

/-! SUPPORT. The Dusk lists: entries that fire, and the TIMERs of deadlines, wakes, commands and transfers as they are applied (spec/12 R250, R261-R266, spec/16 R350). -/

namespace Sys2Proof.DuskRules

open Sys2Proof Sys2Proof.Machine Sys2Proof.Laws Sys2Proof.Discovery Sys2Proof.Mailboxes Sys2Proof.FoyerRules Sys2Proof.AdmissionRules Sys2Proof.OrderRules Sys2Proof.TurnRules

variable {i : InstId} {lid : Nat} {s t : State}

/-! ### An entry that fires -/

theorem map_modAt {α β : Type} {f : α → α} {g : α → β} (h : ∀ x, g (f x) = g x) : ∀ (l : List α) (k : Nat), (modAt l k f).map g = l.map g
  | [], _ => rfl
  | x :: l, 0 => by rw [modAt, List.map_cons, List.map_cons, h]
  | x :: l, k + 1 => by rw [modAt, List.map_cons, List.map_cons, map_modAt h l k]

/-- The entries of each list that have fired. -/
def firedCounts (h : Hallway) : List Nat := h.counts.map (·.fired)

theorem countLate_fired (e : Event) (cs : List DuskCount) : (countLate e cs).map (·.fired) = cs.map (·.fired) := by
  unfold countLate
  split
  · exact map_modAt (f := fun c : DuskCount => { c with late := satTo 32 (c.late + bit e.late) }) (fun _ => rfl) cs _
  · rfl

theorem dispatch_fired (tick : Nat) : ∀ (n : Nat) (h : Hallway), firedCounts (dispatch tick n h) = firedCounts h
  | 0, _ => rfl
  | n + 1, h => by
    unfold dispatch
    split
    · rfl
    · split
      · rfl
      · exact (dispatch_fired tick n _).trans (countLate_fired _ _)

theorem enterIntake_fired (tick : Nat) (e : Event) (h : Hallway) : firedCounts (enterIntake tick e h) = firedCounts h :=
  dispatch_fired tick _ _

theorem postTo_keeps (i : InstId) (f : Flow) (k : EvKind) (b : Bool) (tick : Nat) (s : State) :
    mir (postTo i f k b tick s) i = mir s i ∧ (postTo i f k b tick s).hbm = s.hbm ∧ (postTo i f k b tick s).host = s.host ∧
      firedCounts (getInst (postTo i f k b tick s) i).hall = firedCounts (getInst s i).hall := by
  cases i <;> exact ⟨rfl, rfl, rfl, enterIntake_fired _ _ _⟩

theorem flushBcast_keeps (i : InstId) (lid : Nat) (s : State) : (flushBcast i lid s).hbm = s.hbm ∧ (flushBcast i lid s).host = s.host ∧
    firedCounts (getInst (flushBcast i lid s) i).hall = firedCounts (getInst s i).hall := by
  obtain ⟨-, hhbm, hhost, -, hhall, -⟩ := modSeq_keeps i lid (fun q => { q with bcast := [] }) s
  refine ⟨?_, ?_, ?_⟩
  · exact (foldl_keeps (g := State.hbm) (fun u x => (postTo_keeps i _ _ _ _ u).2.1) _ _).trans hhbm
  · exact (foldl_keeps (g := State.host) (fun u x => (postTo_keeps i _ _ _ _ u).2.2.1) _ _).trans hhost
  · exact (foldl_keeps (g := fun u => firedCounts (getInst u i).hall) (fun u x => (postTo_keeps i _ _ _ _ u).2.2.2) _ _).trans (congrArg firedCounts hhall)

/-- The entry has left its list and is counted. -/
def fired (i : InstId) (d : Dusk) (s : State) : State :=
  modHall i (fun h => { h with
    counts := modAt h.counts d.list fun c => { c with fired := wrapTo 64 (c.fired + 1) }
    firedNow := modAt h.firedNow d.list (· + 1) }) (modMir i (fun m => { m with dusk := m.dusk.filter (· != d) }) s)

theorem kitchen_fired (i : InstId) (d : Dusk) (s : State) : (mir (fired i d s) i).kitchen = (mir s i).kitchen := by cases i <;> rfl

/-- What an entry that fires leaves of lists, memories and counters. -/
theorem fireEntry_writes (i : InstId) (d : Dusk) (s : State) :
    (mir (fireEntry i d s) i).dusk = (mir s i).dusk.filter (· != d) ∧ (fireEntry i d s).hbm = s.hbm ∧ (fireEntry i d s).host = s.host ∧
      firedCounts (getInst (fireEntry i d s) i).hall =
        (modAt (getInst s i).hall.counts d.list (fun c => { c with fired := (c.fired + 1) % 2 ^ 64 })).map (·.fired) := by
  have hstart : (mir (fired i d s) i).dusk = (mir s i).dusk.filter (· != d) ∧ (fired i d s).hbm = s.hbm ∧ (fired i d s).host = s.host ∧
      firedCounts (getInst (fired i d s) i).hall = (modAt (getInst s i).hall.counts d.list (fun c => { c with fired := (c.fired + 1) % 2 ^ 64 })).map (·.fired) := by
    cases i <;> exact ⟨rfl, rfl, rfl, rfl⟩
  obtain ⟨hdusk, hhbm, hhost, hfired⟩ := hstart
  have hrow : fireEntry i d s = postTo i d.flow (.timer d.list d.handle d.due) false d.due (match d.flow with | .seq l => flushBcast i l (fired i d s) | .unit _ => fired i d s) := rfl
  rw [hrow]
  obtain ⟨pmir, phbm, phost, pfired⟩ := postTo_keeps i d.flow (.timer d.list d.handle d.due) false d.due
    (match d.flow with | .seq l => flushBcast i l (fired i d s) | .unit _ => fired i d s)
  rw [pmir, phbm, phost, pfired]
  split
  next l _ =>
    obtain ⟨fhbm, fhost, ffired⟩ := flushBcast_keeps i l (fired i d s)
    exact ⟨by rw [mir_flushBcast]; exact hdusk, fhbm.trans hhbm, fhost.trans hhost, ffired.trans hfired⟩
  · exact ⟨hdusk, hhbm, hhost, hfired⟩

theorem acceptEvent_counts {tick list handle due : Nat} {e : Event} (h : Hallway) (hkind : e.kind = .timer list handle due) :
    (acceptEvent tick e h).counts = modAt h.counts list (fun c => { c with late := satTo 32 (c.late + bit (decide (due < tick))) }) := by
  unfold acceptEvent acceptedAt countLate
  simp only [hkind]

/-! ### The Kitchen stands while a flow's entries fire -/

theorem kitchen_fireEntry (i : InstId) (d : Dusk) (s : State) : (mir (fireEntry i d s) i).kitchen = (mir s i).kitchen := by
  have hrow : fireEntry i d s = postTo i d.flow (.timer d.list d.handle d.due) false d.due (match d.flow with | .seq l => flushBcast i l (fired i d s) | .unit _ => fired i d s) := rfl
  rw [hrow, (postTo_keeps i _ _ _ _ _).1]
  split
  · rw [mir_flushBcast]
    exact kitchen_fired i d s
  · exact kitchen_fired i d s

theorem kitchen_fireDue (i : InstId) (list : Nat) (f : Flow) (s : State) : (mir (fireDue i list f s) i).kitchen = (mir s i).kitchen := by
  unfold fireDue
  split
  · refine foldl_keeps (g := fun u => (mir u i).kitchen) (fun u l => ?_) [0, 1, 2, 3] s
    refine foldl_keeps (g := fun u => (mir u i).kitchen) (fun v d => ?_) _ u
    split
    · cases i <;> rfl
    · exact kitchen_fireEntry i d v
  · rfl

theorem kitchen_spendHandle (i : InstId) (list lid : Nat) (s : State) : (mir (spendHandle i list lid s) i).kitchen = (mir s i).kitchen := by
  unfold spendHandle writeAttic
  dsimp only
  split <;> cases i <;> rfl

/-! ### Deadlines and wakes -/

/-- The state in which a sequence's TIMER is applied, and its record when the handle is spent. -/
theorem exec_deadlineEntry_none (hdue : dueTimer (fireDue i 0 (.seq lid) s) i 0 (.seq lid) = none) :
    exec (.deadlineEntry i lid) s = done i s (fireDue i 0 (.seq lid) s) := by
  show execDeadlineEntry i lid s = _
  unfold execDeadlineEntry
  dsimp only
  rw [hdue]

theorem exec_deadlineEntry_some {h due : Nat} (hdue : dueTimer (fireDue i 0 (.seq lid) s) i 0 (.seq lid) = some (h, due)) :
    exec (.deadlineEntry i lid) s = if handleOf (releaseEvent i (.seq lid) (fireDue i 0 (.seq lid) s)) i lid 0 != h then
        done i s (countStale i 0 (releaseEvent i (.seq lid) (fireDue i 0 (.seq lid) s)))
      else endEvent i s (applyDeadline i lid due (spendHandle i 0 lid (releaseEvent i (.seq lid) (fireDue i 0 (.seq lid) s)))) := by
  show execDeadlineEntry i lid s = _
  unfold execDeadlineEntry
  dsimp only
  rw [hdue]

theorem applyDeadline_past {due : Nat} (hlive : (seqOf t i lid).r.state.live = true) (hpast : (seqOf t i lid).r.deadlineTick < due) :
    applyDeadline i lid due t = endAlive i lid .aborted reasonDeadline t :=
  (if_neg (by rw [hlive]; exact Bool.false_ne_true)).trans (if_pos hpast)

theorem applyDeadline_wall {due : Nat} (hlive : (seqOf t i lid).r.state.live = true) (hdue : due ≤ (seqOf t i lid).r.deadlineTick)
    (hwall : (seqOf t i lid).r.maxWallTicks ≠ 0 ∧ (seqOf t i lid).r.maxWallTicks ≤ wallSpent (seqOf t i lid)) :
    applyDeadline i lid due t = endOrWait i lid .finished reasonWall .wall t :=
  (if_neg (by rw [hlive]; exact Bool.false_ne_true)).trans ((if_neg (Nat.not_lt.mpr hdue)).trans (if_pos hwall))

theorem applyDeadline_again {due : Nat} (hlive : (seqOf t i lid).r.state.live = true) (hdue : due ≤ (seqOf t i lid).r.deadlineTick)
    (hwall : ¬ ((seqOf t i lid).r.maxWallTicks ≠ 0 ∧ (seqOf t i lid).r.maxWallTicks ≤ wallSpent (seqOf t i lid))) :
    applyDeadline i lid due t = writeAttic i lid (retime i lid t) :=
  (if_neg (by rw [hlive]; exact Bool.false_ne_true)).trans ((if_neg (Nat.not_lt.mpr hdue)).trans (if_neg hwall))

theorem deadlines (i : InstId) (lid : Nat) (s : State) :
    let u := fireDue i 0 (.seq lid) s
    let t := releaseEvent i (.seq lid) u
    let w := spendHandle i 0 lid t
    let q := seqOf w i lid
    (dueTimer u i 0 (.seq lid) = none → Mirrors (.deadlineEntry i lid) i s (fun v => v = u)) ∧
    (∀ h due, dueTimer u i 0 (.seq lid) = some (h, due) →
      let wallOut := q.r.maxWallTicks ≠ 0 ∧ q.r.maxWallTicks ≤ wallSpent q
      (handleOf t i lid 0 ≠ h → Mirrors (.deadlineEntry i lid) i s (fun v => v = countStale i 0 t)) ∧
      (handleOf t i lid 0 = h →
        (q.r.state.live = false → Ends (.deadlineEntry i lid) i s (fun v => v) (fun v => v = w)) ∧
        (q.r.state.live = true → q.r.deadlineTick < due →
          (arrivalOf (mir w i) lid = none → Ends (.deadlineEntry i lid) i s (endSeq i lid .aborted reasonDeadline) (fun v => v = abandonFor i lid w)) ∧
          (∀ x, arrivalOf (mir w i) lid = some x → Ends (.deadlineEntry i lid) i s (discardIn i x) (fun v => v = w))) ∧
        (q.r.state.live = true → due ≤ q.r.deadlineTick → wallOut →
          (inFlight (mir w i) lid = false → arrivalOf (mir w i) lid = none →
            Ends (.deadlineEntry i lid) i s (endSeq i lid .finished reasonWall) (fun v => v = abandonFor i lid w)) ∧
          (∀ x, inFlight (mir w i) lid = false → arrivalOf (mir w i) lid = some x → Ends (.deadlineEntry i lid) i s (discardIn i x) (fun v => v = w)) ∧
          (inFlight (mir w i) lid = true → Ends (.deadlineEntry i lid) i s (fun v => v) (fun v =>
            mir v i = mapSeq lid (fun x => { x with waiting := x.waiting ++ [.wall] }) (mir w i) ∧ v.hbm = w.hbm))) ∧
        (q.r.state.live = true → due ≤ q.r.deadlineTick → ¬wallOut → Ends (.deadlineEntry i lid) i s (fun v => writeAttic i lid (retime i lid v)) (fun v => v = w)))) := by
  intro u t w q
  refine ⟨fun hdue => ⟨_, exec_deadlineEntry_none hdue, rfl⟩, fun h due hdue => ?_⟩
  intro wallOut
  have hrow := exec_deadlineEntry_some hdue
  refine ⟨fun hother => ⟨_, hrow.trans (if_pos (bne_iff_ne.mpr hother)), rfl⟩, fun hsame => ?_⟩
  have happly : exec (.deadlineEntry i lid) s = endEvent i s (applyDeadline i lid due w) :=
    hrow.trans (if_neg (fun hne => bne_iff_ne.mp hne hsame))
  refine ⟨fun hdead => ends_of_event _ happly (if_pos (by rw [hdead]; rfl)) rfl,
    fun hlive hpast => ⟨fun ha => ends_of_event _ happly ((applyDeadline_past hlive hpast).trans (endAlive_own ha)) rfl,
      fun x ha => ends_of_event _ happly ((applyDeadline_past hlive hpast).trans (endAlive_arrival ha)) rfl⟩,
    fun hlive hnot hwall => ⟨fun hf ha => ends_of_event _ happly ((applyDeadline_wall hlive hnot hwall).trans ((endOrWait_ends hf).trans (endAlive_own ha))) rfl,
      fun x hf ha => ends_of_event _ happly ((applyDeadline_wall hlive hnot hwall).trans ((endOrWait_ends hf).trans (endAlive_arrival ha))) rfl,
      fun hf => ends_of_event _ happly ((applyDeadline_wall hlive hnot hwall).trans (endOrWait_waits hf)) ?_⟩,
    fun hlive hnot hwall => ends_of_event (after := fun v => writeAttic i lid (retime i lid v)) _ happly (applyDeadline_again hlive hnot hwall) rfl⟩
  obtain ⟨hmir, hhbm, -⟩ := modSeq_keeps i lid (fun x => { x with waiting := x.waiting ++ [.wall] }) w
  exact ⟨hmir, hhbm⟩

theorem exec_parkWake_none (hdue : dueTimer (fireDue i 2 (.seq lid) s) i 2 (.seq lid) = none) :
    exec (.parkWake i lid) s = done i s (fireDue i 2 (.seq lid) s) := by
  show execParkWake i lid s = _
  unfold execParkWake
  dsimp only
  rw [hdue]

theorem exec_parkWake_some {h due : Nat} (hdue : dueTimer (fireDue i 2 (.seq lid) s) i 2 (.seq lid) = some (h, due)) :
    exec (.parkWake i lid) s =
      let t := releaseEvent i (.seq lid) (fireDue i 2 (.seq lid) s)
      let w := spendHandle i 2 lid t
      if handleOf t i lid 2 != h then done i s (countStale i 2 t)
      else if (mir s i).kitchen.turn != .service then done i s (modSeq i lid (fun q => { q with heldWake := some due }) w)
      else endEvent i s (if (seqOf w i lid).r.state == .parked then (applyResume i lid w).1 else w) := by
  show execParkWake i lid s = _
  unfold execParkWake
  dsimp only
  rw [hdue]

theorem wakes (i : InstId) (lid : Nat) (s : State) :
    let u := fireDue i 2 (.seq lid) s
    let t := releaseEvent i (.seq lid) u
    let w := spendHandle i 2 lid t
    (dueTimer u i 2 (.seq lid) = none → Mirrors (.parkWake i lid) i s (fun v => v = u)) ∧
    (∀ h due, dueTimer u i 2 (.seq lid) = some (h, due) →
      (handleOf t i lid 2 ≠ h → Mirrors (.parkWake i lid) i s (fun v => v = countStale i 2 t)) ∧
      (handleOf t i lid 2 = h → (mir s i).kitchen.turn ≠ .service → Mirrors (.parkWake i lid) i s (fun v => v = modSeq i lid (fun x => { x with heldWake := some due }) w)) ∧
      (handleOf t i lid 2 = h → (mir s i).kitchen.turn = .service → (seqOf w i lid).r.state = .parked →
        Ends (.parkWake i lid) i s (resumeFully i lid) (fun v => v = duskClear i 2 lid w)) ∧
      (handleOf t i lid 2 = h → (mir s i).kitchen.turn = .service → (seqOf w i lid).r.state ≠ .parked →
        Ends (.parkWake i lid) i s (fun v => v) (fun v => v = w))) := by
  intro u t w
  refine ⟨fun hdue => ⟨_, exec_parkWake_none hdue, rfl⟩, fun h due hdue => ?_⟩
  have hrow := exec_parkWake_some hdue
  have hkitchen : (mir w i).kitchen = (mir s i).kitchen :=
    (kitchen_spendHandle i 2 lid t).trans ((congrArg Mirrored.kitchen (released_mir i lid u)).trans (kitchen_fireDue i 2 (.seq lid) s))
  have hown (hsame : handleOf t i lid 2 = h) : ¬ (handleOf t i lid 2 != h) = true := fun hne => bne_iff_ne.mp hne hsame
  have hserves (hturn : (mir s i).kitchen.turn = .service) : ¬ ((mir s i).kitchen.turn != .service) = true := fun hne => bne_iff_ne.mp hne hturn
  refine ⟨fun hother => ⟨_, hrow.trans (if_pos (bne_iff_ne.mpr hother)), rfl⟩,
    fun hsame hturn => ⟨_, hrow.trans ((if_neg (hown hsame)).trans (if_pos (bne_iff_ne.mpr hturn))), rfl⟩,
    fun hsame hturn hparked => ends_of_event _ (hrow.trans ((if_neg (hown hsame)).trans (if_neg (hserves hturn)))) ((if_pos ?_).trans ?_) rfl,
    fun hsame hturn hparked => ends_of_event _ (hrow.trans ((if_neg (hown hsame)).trans (if_neg (hserves hturn)))) (if_neg ?_) rfl⟩
  · exact beq_iff_eq.mpr hparked
  · exact congrArg Prod.fst (applyResume_acts (t := w) (by rw [hkitchen]; exact hturn) (.inl hparked))
  · exact fun h => hparked (beq_iff_eq.mp h)

/-! ### Commands' timeouts -/

theorem commandTimeouts (i : InstId) (core : Nat) (s : State) :
    let u := fireDue i 3 (.unit (20 + core)) s
    let t := releaseEvent i (.unit (20 + core)) u
    (dueTimer u i 3 (.unit (20 + core)) = none → Mirrors (.mailboxCommandTimeout i core) i s (fun v => v = u)) ∧
    (∀ h due, dueTimer u i 3 (.unit (20 + core)) = some (h, due) →
      (driveHandle (getInst u i) h = true → Mirrors (.mailboxCommandTimeout i core) i s (fun v => v = u)) ∧
      (driveHandle (getInst u i) h = false → (mir t i).mbox.any (·.timer == some h) = true → Mirrors (.mailboxCommandTimeout i core) i s (fun v => v = t)) ∧
      (driveHandle (getInst u i) h = false → (mir t i).mbox.any (·.timer == some h) = false → Mirrors (.mailboxCommandTimeout i core) i s (fun v => v = countStale i 3 t))) := by
  intro u t
  have hsome {h due : Nat} (hdue : dueTimer u i 3 (.unit (20 + core)) = some (h, due)) : exec (.mailboxCommandTimeout i core) s =
      if driveHandle (getInst u i) h then done i s u else done i s (if (mir t i).mbox.any (·.timer == some h) then t else countStale i 3 t) := by
    show execMailboxCommandTimeout i core s = _
    unfold execMailboxCommandTimeout
    dsimp only
    rw [hdue]
  refine ⟨fun hdue => ⟨_, ?_, rfl⟩, fun h due hdue => ⟨fun hdrive => ⟨_, (hsome hdue).trans (if_pos hdrive), rfl⟩,
    fun hdrive hwaits => ⟨_, (hsome hdue).trans ((if_neg (Bool.eq_false_iff.mp hdrive)).trans (congrArg (done i s) (if_pos hwaits))), rfl⟩,
    fun hdrive hgone => ⟨_, (hsome hdue).trans ((if_neg (Bool.eq_false_iff.mp hdrive)).trans (congrArg (done i s) (if_neg (Bool.eq_false_iff.mp hgone)))), rfl⟩⟩⟩
  show execMailboxCommandTimeout i core s = _
  unfold execMailboxCommandTimeout
  dsimp only
  rw [hdue]
  rfl

/-! ### Transfers -/

section Transfers

variable {subject : Nat} {x : OutXfer}

theorem exec_migrationRetry_closed (hnone : findOut (mir s i) subject = none) : exec (.migrationRetry i subject) s = staleTimer i 1 subject s := by
  show execMigrationRetry i subject s = _
  unfold execMigrationRetry
  rw [hnone]

theorem exec_migrationTimeout_closed (hnone : findOut (mir s i) subject = none) : exec (.migrationTimeout i subject) s = staleTimer i 3 subject s := by
  show execMigrationTimeout i subject s = _
  unfold execMigrationTimeout
  rw [hnone]

theorem exec_migrationRetry_open (hx : findOut (mir s i) subject = some x) : exec (.migrationRetry i subject) s =
    if !x.forward then retryMigration i x s else if activeInst s i then endEvent i s (forwardTimer i x s) else .next s := by
  show execMigrationRetry i subject s = _
  unfold execMigrationRetry
  rw [hx]

theorem exec_migrationTimeout_open (hx : findOut (mir s i) subject = some x) : exec (.migrationTimeout i subject) s =
    if !x.forward then timeoutMigration i x s else if activeInst s i then endEvent i s (forwardTimer i x s) else .next s := by
  show execMigrationTimeout i subject s = _
  unfold execMigrationTimeout
  rw [hx]

/-- A closed transfer's TIMER, of either list. -/
theorem staleTimers {c : Instr} {list : Nat} (hrow : exec c s = staleTimer i list subject s) :
    (subject < 2 ^ 63 ∧ dueTimer s i list (.seq (subject % 2 ^ 22)) ≠ none →
      Mirrors c i s (fun v => v = countStale i list (releaseEvent i (.seq (subject % 2 ^ 22)) s))) ∧
    (¬ (subject < 2 ^ 63 ∧ dueTimer s i list (.seq (subject % 2 ^ 22)) ≠ none) → exec c s = .next s) := by
  have hiff : (decide (subject < 2 ^ 63) && (dueTimer s i list (.seq (subject % 2 ^ 22))).isSome) = true ↔ subject < 2 ^ 63 ∧ dueTimer s i list (.seq (subject % 2 ^ 22)) ≠ none := by
    rw [Bool.and_eq_true, decide_eq_true_eq, Option.isSome_iff_ne_none]
  exact ⟨fun h => ⟨_, hrow.trans (if_pos (hiff.mpr h)), rfl⟩, fun h => hrow.trans (if_neg (mt hiff.mp h))⟩

theorem retries (hx : findOut (mir s i) subject = some x) (hown : x.forward = false) :
    let u := fireDue i 1 (.seq x.lid) s
    let t := releaseEvent i (.seq x.lid) u
    (dueTimer u i 1 (.seq x.lid) = none → Mirrors (.migrationRetry i subject) i s (fun v => v = u)) ∧
    (∀ h due, dueTimer u i 1 (.seq x.lid) = some (h, due) →
      (handleOf t i x.lid 1 ≠ h → Mirrors (.migrationRetry i subject) i s (fun v => v = countStale i 1 t)) ∧
      (handleOf t i x.lid 1 = h → Mirrors (.migrationRetry i subject) i s (fun v =>
        v = duskSet i 1 x.lid (s.tick + (getInst s i).stair.retryTicks) (resend i x t)))) := by
  intro u t
  have hrow : exec (.migrationRetry i subject) s = retryMigration i x s := (exec_migrationRetry_open hx).trans (if_pos (by rw [hown]; rfl))
  have hsome {h due : Nat} (hdue : dueTimer u i 1 (.seq x.lid) = some (h, due)) : retryMigration i x s =
      if handleOf t i x.lid 1 != h then done i s (countStale i 1 t) else done i s (duskSet i 1 x.lid (s.tick + (getInst s i).stair.retryTicks) (resend i x t)) := by
    unfold retryMigration
    dsimp only
    rw [hdue]
  refine ⟨fun hdue => ⟨_, hrow.trans ?_, rfl⟩, fun h due hdue => ⟨fun hother => ⟨_, hrow.trans ((hsome hdue).trans (if_pos (bne_iff_ne.mpr hother))), rfl⟩,
    fun hsame => ⟨_, hrow.trans ((hsome hdue).trans (if_neg fun hne => bne_iff_ne.mp hne hsame)), rfl⟩⟩⟩
  unfold retryMigration
  dsimp only
  rw [hdue]
  rfl

theorem timeouts (hx : findOut (mir s i) subject = some x) (hown : x.forward = false) :
    let u := fireDue i 3 (.seq x.lid) s
    let t := releaseEvent i (.seq x.lid) u
    let w := spendHandle i 3 x.lid t
    (dueTimer u i 3 (.seq x.lid) = none → Mirrors (.migrationTimeout i subject) i s (fun v => v = u)) ∧
    (∀ h due, dueTimer u i 3 (.seq x.lid) = some (h, due) →
      (handleOf t i x.lid 3 ≠ h → Mirrors (.migrationTimeout i subject) i s (fun v => v = countStale i 3 t)) ∧
      (handleOf t i x.lid 3 = h → x.stage = .handover ∨ x.stage = .failed → Mirrors (.migrationTimeout i subject) i s (fun v => v = w)) ∧
      (handleOf t i x.lid 3 = h → x.stage ≠ .handover → x.stage ≠ .failed →
        Ends (.migrationTimeout i subject) i s (failTransfer i x 12) (fun v => v = sendMsg i (xferMsg x tAbandon) w))) := by
  intro u t w
  have hrow : exec (.migrationTimeout i subject) s = timeoutMigration i x s := (exec_migrationTimeout_open hx).trans (if_pos (by rw [hown]; rfl))
  have hsome {h due : Nat} (hdue : dueTimer u i 3 (.seq x.lid) = some (h, due)) : timeoutMigration i x s =
      if handleOf t i x.lid 3 != h then done i s (countStale i 3 t)
      else if x.stage == .handover || x.stage == .failed then done i s w
      else endEvent i s (failTransfer i x 12 (sendMsg i (xferMsg x tAbandon) w)) := by
    unfold timeoutMigration
    dsimp only
    rw [hdue]
  have hstage : (x.stage == .handover || x.stage == .failed) = true ↔ x.stage = .handover ∨ x.stage = .failed := by
    rw [Bool.or_eq_true, beq_iff_eq, beq_iff_eq]
  have hsame' {h : Nat} (hsame : handleOf t i x.lid 3 = h) : ¬ (handleOf t i x.lid 3 != h) = true := fun hne => bne_iff_ne.mp hne hsame
  refine ⟨fun hdue => ⟨_, hrow.trans ?_, rfl⟩, fun h due hdue => ⟨fun hother => ⟨_, hrow.trans ((hsome hdue).trans (if_pos (bne_iff_ne.mpr hother))), rfl⟩,
    fun hsame hlate => ⟨_, hrow.trans ((hsome hdue).trans ((if_neg (hsame' hsame)).trans (if_pos (hstage.mpr hlate)))), rfl⟩,
    fun hsame hearly hlive => ⟨_, hrow.trans ((hsome hdue).trans ((if_neg (hsame' hsame)).trans (if_neg fun hb => (hstage.mp hb).elim hearly hlive))), rfl⟩⟩⟩
  unfold timeoutMigration
  dsimp only
  rw [hdue]
  rfl

theorem forwards (hx : findOut (mir s i) subject = some x) (hfwd : x.forward = true) :
    (activeInst s i = true → Ends (.migrationRetry i subject) i s (fun v => v) (fun v => v = forwardTimer i x s) ∧
      Ends (.migrationTimeout i subject) i s (fun v => v) (fun v => v = forwardTimer i x s)) ∧
    (activeInst s i = false → exec (.migrationRetry i subject) s = .next s ∧ exec (.migrationTimeout i subject) s = .next s) := by
  have hnot : ¬ (!x.forward) = true := by rw [hfwd]; exact Bool.false_ne_true
  have hretry := (exec_migrationRetry_open hx).trans (if_neg hnot)
  have htimeout := (exec_migrationTimeout_open hx).trans (if_neg hnot)
  exact ⟨fun hact => ⟨⟨_, hretry.trans (if_pos hact), rfl⟩, ⟨_, htimeout.trans (if_pos hact), rfl⟩⟩,
    fun hidle => ⟨hretry.trans (if_neg (Bool.eq_false_iff.mp hidle)), htimeout.trans (if_neg (Bool.eq_false_iff.mp hidle))⟩⟩

/-- The arrival of a transfer that has waited too long. -/
def expiredArrival (s : State) (i : InstId) (subject : Nat) : Option InXfer := (mir s i).inXfers.find? (fun t => t.subject == subject && arrivalExpired s i t)

theorem arrivalTimeouts (i : InstId) (subject : Nat) (s : State) :
    (∀ x, expiredArrival s i subject = some x → activeInst s i = true → onDuty s i 3 = true → Ends (.arrivalTimeout i subject) i s (foyerRound i) (fun v => v = discardIn i x s)) ∧
    (expiredArrival s i subject = none ∨ activeInst s i = false ∨ onDuty s i 3 = false → exec (.arrivalTimeout i subject) s = .next s) := by
  have hsome {x : InXfer} (hx : expiredArrival s i subject = some x) : exec (.arrivalTimeout i subject) s =
      if activeInst s i && onDuty s i 3 then endEvent i s (foyerRound i (discardIn i x s)) else .next s := by
    show execArrivalTimeout i subject s = _
    unfold execArrivalTimeout
    rw [show (mir s i).inXfers.find? _ = _ from hx]
  refine ⟨fun x hx hact hduty => ⟨_, (hsome hx).trans (if_pos (by rw [hact, hduty]; rfl)), rfl⟩, fun hno => ?_⟩
  cases hx : expiredArrival s i subject with
  | none =>
    show execArrivalTimeout i subject s = _
    unfold execArrivalTimeout
    rw [show (mir s i).inXfers.find? _ = _ from hx]
  | some x =>
    refine (hsome hx).trans (if_neg ?_)
    rw [Bool.and_eq_true]
    rintro ⟨hact, hduty⟩
    rcases hno with h | h | h
    · exact nomatch h.symm.trans hx
    · exact Bool.false_ne_true (h.symm.trans hact)
    · exact Bool.false_ne_true (h.symm.trans hduty)

end Transfers

theorem refills (i : InstId) (list : Nat) (s : State) :
    (activeInst s i = true → Mirrors (.duskSpillRefill i list) i s (fun t => mir t i = { mir s i with
      dusk := (mir s i).dusk.map fun d => if (refillBatch list (mir s i).dusk).contains d then { d with spilled := false } else d } ∧ OnlyMirror i s t)) ∧
    (activeInst s i = false → exec (.duskSpillRefill i list) s = .next s) :=
  ⟨fun hact => ⟨_, if_neg (by rw [hact]; exact Bool.false_ne_true), mir_modMir i _ s, modMir_onlyMirror i _ s⟩, fun hidle => if_pos (by rw [hidle]; rfl)⟩

/-- Settles O49. -/
theorem duskLists : Obligations.DuskLists := by
  refine ⟨fireEntry_writes, fun tick list handle due e h hkind => acceptEvent_counts h hkind, deadlines, wakes, fun i s => ⟨fun list => refills i list s, fun core => commandTimeouts i core s,
    fun subject hnone => ?_, fun subject x hx hfwd => forwards hx hfwd, fun subject x hx hown => retries hx hown, fun subject x hx hown => timeouts hx hown,
    fun subject => arrivalTimeouts i subject s⟩⟩
  intro f closed
  obtain ⟨hretry, hretry'⟩ := staleTimers (exec_migrationRetry_closed hnone)
  obtain ⟨htimeout, htimeout'⟩ := staleTimers (exec_migrationTimeout_closed hnone)
  exact ⟨hretry, hretry', htimeout, htimeout'⟩

end Sys2Proof.DuskRules

/-! SUPPORT. A peer message is checked, counted and acted on (spec/16 R336-R358, spec/12 R259). -/

namespace Sys2Proof.PeerRules

open Sys2Proof Sys2Proof.Machine Sys2Proof.Laws

variable {i : InstId} {ty : Nat} {m : PeerMsg} {s : State} {c : Instr} {bad : State → Option Nat} {f : State → State}

/-- A message has been received and counted. -/
def heard (i : InstId) (m : PeerMsg) (s : State) : State :=
  ringPush i 6 0x026 m.type m.subject (unwords (headerBytes m) 0 8 8) (modStair i (fun t => { t with received := t.received + 1 }) s)

theorem heard_heard (i : InstId) (m : PeerMsg) (s : State) : Heard i s (heard i m s) := by
  cases i <;> exact ⟨rfl, rfl, rfl, rfl, rfl, rfl⟩

theorem mir_heard (i : InstId) (m : PeerMsg) (s : State) : mir (heard i m s) i = mir s i := (heard_heard i m s).2.1

theorem activeInst_heard (i : InstId) (m : PeerMsg) (s : State) : activeInst (heard i m s) i = activeInst s i := by cases i <;> rfl

theorem bodyCase_heard (i : InstId) (m : PeerMsg) (s : State) : bodyCase (heard i m s) i m = bodyCase s i m := by cases i <;> rfl

theorem handoverCase_heard (i : InstId) (m : PeerMsg) (s : State) : handoverCase (heard i m s) i m = handoverCase s i m := by cases i <;> rfl

/-! ### What keeps a message from its row's work -/

theorem receiveIf_off (h : fabricOn s i = false ∨ m.dst ≠ peerAddr (getInst s i)) : receiveIf i ty m bad f s = .next s := by
  refine if_pos ?_
  rw [Bool.or_eq_true, Bool.not_eq_true', bne_iff_ne]
  exact h

section Here

variable (hon : fabricOn s i = true) (hdst : m.dst = peerAddr (getInst s i))
include hon hdst

theorem not_off : ¬ (!fabricOn s i || m.dst != peerAddr (getInst s i)) = true := by
  rw [hon, hdst, bne_self_eq_false]
  exact Bool.false_ne_true

theorem receiveIf_held (hfull : intakeFull 3 (getInst s i).hall = true) : receiveIf i ty m bad f s = done i s (modHall i (holdSource 3 s.tick) s) :=
  (if_neg (not_off hon hdst)).trans (if_pos hfull)

theorem receiveIf_damaged (hfree : intakeFull 3 (getInst s i).hall = false) (hcheck : msgCheck m ≠ m.check) : receiveIf i ty m bad f s =
    done i s (modStair i (fun t => { t with received := t.received + 1, crcDiscards := satTo 32 (t.crcDiscards + 1) }) s) :=
  (if_neg (not_off hon hdst)).trans ((if_neg (Bool.eq_false_iff.mp hfree)).trans (if_pos (by rw [Bool.or_eq_true, bne_iff_ne]; exact .inl hcheck)))

/-- A message of the row's type that is whole but for its generation. -/
theorem receiveIf_sound (hfree : intakeFull 3 (getInst s i).hall = false) (hcheck : msgCheck m = m.check) (htype : m.type = ty) (hlisted : listedTypes.contains ty = true) :
    receiveIf i ty m bad f s = if hasGen ty && m.dstGen != (getInst s i).stair.roleGen then done i s (sendBounce i m (heard i m s))
      else match (reservedCase (headerReserved m)).or (bad (heard i m s)) with
        | some n => .fault (.undefinedCase n)
        | none => endEvent i s (f (heard i m s)) := by
  refine (if_neg (not_off hon hdst)).trans ((if_neg (Bool.eq_false_iff.mp hfree)).trans ((if_neg ?_).trans (if_neg ?_)))
  · rw [htype, hlisted, hcheck, bne_self_eq_false]
    exact Bool.false_ne_true
  · rw [htype, bne_self_eq_false]
    exact Bool.false_ne_true

end Here

/-! ### A message that arrives -/

theorem whole_iff : whole s i ty m = true ↔ fabricOn s i = true ∧ m.dst = peerAddr (getInst s i) ∧ msgCheck m = m.check ∧ m.type = ty ∧
    (hasGen ty = false ∨ m.dstGen = (getInst s i).stair.roleGen) ∧ intakeFull 3 (getInst s i).hall = false := by
  unfold whole
  rw [Bool.and_eq_true, Bool.and_eq_true, Bool.and_eq_true, Bool.and_eq_true, Bool.and_eq_true, Bool.or_eq_true, Bool.not_eq_true', Bool.not_eq_true', beq_iff_eq, beq_iff_eq,
    beq_iff_eq, beq_iff_eq, and_assoc, and_assoc, and_assoc, and_assoc]

theorem receiveIf_whole (hlisted : listedTypes.contains ty = true) (h : whole s i ty m = true) : receiveIf i ty m bad f s =
    match (reservedCase (headerReserved m)).or (bad (heard i m s)) with
      | some n => .fault (.undefinedCase n)
      | none => endEvent i s (f (heard i m s)) := by
  obtain ⟨hon, hdst, hcheck, htype, hgen, hfree⟩ := whole_iff.mp h
  refine (receiveIf_sound hon hdst hfree hcheck htype hlisted).trans (if_neg ?_)
  rw [Bool.and_eq_true, bne_iff_ne]
  rintro ⟨hhas, hother⟩
  exact hgen.elim (fun hno => Bool.false_ne_true (hno.symm.trans hhas)) fun hsame => hother hsame

theorem receiveIf_reserved (hlisted : listedTypes.contains ty = true) (h : whole s i ty m = true) (hres : headerReserved m = true) :
    receiveIf i ty m bad f s = .fault (.undefinedCase 12) := by
  rw [receiveIf_whole hlisted h, hres]
  rfl

theorem receiveIf_arrives (hlisted : listedTypes.contains ty = true) (h : arrives s i ty m = true) : receiveIf i ty m bad f s =
    match bad (heard i m s) with
      | some n => .fault (.undefinedCase n)
      | none => endEvent i s (f (heard i m s)) := by
  obtain ⟨hwhole, hclear⟩ := Bool.and_eq_true_iff.mp h
  rw [Bool.not_eq_true'] at hclear
  rw [receiveIf_whole hlisted hwhole, hclear]
  rfl

/-- A message that meets no case is acted on. -/
theorem receives {g : State → State} (hrow : exec c s = receiveIf i ty m bad f s) (hlisted : listedTypes.contains ty = true) (h : arrives s i ty m = true)
    (hbad : bad (heard i m s) = none) (hg : f (heard i m s) = g (heard i m s)) : Receives c i g s := by
  refine ⟨heard i m s, ?_, heard_heard i m s⟩
  rw [hrow, receiveIf_arrives hlisted h, hbad, ← hg]
  rfl

theorem stopsAt_of_bad {n : Nat} (hrow : exec c s = receiveIf i ty m bad f s) (hlisted : listedTypes.contains ty = true) (h : arrives s i ty m = true)
    (hbad : bad (heard i m s) = some n) : StopsAt c s n := by
  unfold StopsAt
  rw [hrow, receiveIf_arrives hlisted h, hbad]

/-- Both, for a case that the message alone, or the state before it, shows. -/
theorem receives_or_stops {g : State → State} {o : Option Nat} (hrow : exec c s = receiveIf i ty m bad f s) (hlisted : listedTypes.contains ty = true) (h : arrives s i ty m = true)
    (hbad : bad (heard i m s) = o) (hg : f (heard i m s) = g (heard i m s)) : (o = none → Receives c i g s) ∧ ∀ n, o = some n → StopsAt c s n :=
  ⟨fun hnone => receives hrow hlisted h (hbad.trans hnone) hg, fun _ hsome => stopsAt_of_bad hrow hlisted h (hbad.trans hsome)⟩

/-! ### The active instance, and the transfer that a message names -/

theorem atActive_active (h : activeInst s i = true) : atActive i f (heard i m s) = f (heard i m s) := if_pos ((activeInst_heard i m s).trans h)

theorem atActive_idle (h : activeInst s i = false) : atActive i f (heard i m s) = staleDiscard i (heard i m s) :=
  if_neg (Bool.eq_false_iff.mp ((activeInst_heard i m s).trans h))

theorem atSource_named {g : OutXfer → State → State} {x : OutXfer} (hx : outFor (mir s i) m = some x) : atSource i m g (heard i m s) = g x (heard i m s) := by
  unfold atSource
  rw [mir_heard, hx]

theorem atSource_none {g : OutXfer → State → State} (hx : outFor (mir s i) m = none) : atSource i m g (heard i m s) = staleDiscard i (heard i m s) := by
  unfold atSource
  rw [mir_heard, hx]

theorem atSource_active {g : OutXfer → State → State} {x : OutXfer} (hact : activeInst s i = true) (hx : outFor (mir s i) m = some x) :
    atActive i (atSource i m g) (heard i m s) = g x (heard i m s) := (atActive_active hact).trans (atSource_named hx)

theorem atSource_stale {g : OutXfer → State → State} (hno : activeInst s i = false ∨ outFor (mir s i) m = none) :
    atActive i (atSource i m g) (heard i m s) = staleDiscard i (heard i m s) := by
  cases hact : activeInst s i with
  | true => exact (atActive_active hact).trans (atSource_none (hno.resolve_left fun h => Bool.false_ne_true (h.symm.trans hact)))
  | false => exact atActive_idle hact

theorem reservedCase_clear {n : Nat} (h : n = 0) : reservedCase (n != 0) = none := by rw [h]; rfl

theorem reservedCase_set {n : Nat} (h : n ≠ 0) : reservedCase (n != 0) = some 12 := if_pos (bne_iff_ne.mpr h)

/-! ### The twelve rows -/

theorem exec_announce : exec (.announce i m) s = receiveIf i tAnnounce m (fun _ => announceCase m)
    (fun s => sendMsg i { mkMsg tAnnounceReply m.src with payload := announcePayload (getInst s i) } (noteAnnounce i false m s)) s := rfl

theorem exec_announceReply : exec (.announceReply i m) s = receiveIf i tAnnounceReply m (fun _ => announceCase m)
    (noteAnnounce i true m) s := rfl

theorem exec_offer : exec (.offer i m) s = receiveIf i tOffer m (fun _ => offerCase m.payload)
    (takeOffer i m) s := rfl

theorem exec_accept : exec (.accept i m) s = receiveIf i tAccept m (fun _ => reservedCase (fld m.payload 0 8 / 2 != 0))
    (atActive i (atSource i m (takeAccept i m))) s := rfl

theorem exec_refuse : exec (.refuse i m) s = receiveIf i tRefuse m (fun _ => none)
    (atActive i (atSource i m (takeRefuse i m))) s := rfl

theorem exec_dataMsg : exec (.dataMsg i m) s = receiveIf i tData m (fun s => if m.reason = 0 then bodyCase s i m else none)
    (atActive i (takeData i m)) s := rfl

theorem exec_dataAck : exec (.dataAck i m) s = receiveIf i tDataAck m (fun _ => none)
    (atActive i (atSource i m (takeDataAck i m))) s := rfl

theorem exec_handover : exec (.handover i m) s = receiveIf i tHandover m (fun s => handoverCase s i m)
    (fun s => if activeInst s i then takeHandover i m s else sendNak i m s) s := rfl

theorem exec_ack : exec (.ack i m) s = receiveIf i tAck m (fun _ => none)
    (atActive i (atSource i m (takeAck i))) s := rfl

theorem exec_nak : exec (.nak i m) s = receiveIf i tNak m (fun _ => none)
    (atActive i (atSource i m (takeNak i m))) s := rfl

theorem exec_abandon : exec (.abandon i m) s = receiveIf i tAbandon m (fun _ => none)
    (atActive i (takeAbandon i m)) s := rfl

theorem exec_bounce : exec (.bounce i m) s = receiveIf i tBounce m (fun _ => bouncedCase m.payload)
    (takeBounce i m) s := rfl

/-- What keeps any row's message from its work. -/
theorem kept_from_work (hrow : exec c s = receiveIf i ty m bad f s) (hlisted : listedTypes.contains ty = true) :
    (fabricOn s i = false ∨ m.dst ≠ peerAddr (getInst s i) → exec c s = .next s) ∧
    (fabricOn s i = true → m.dst = peerAddr (getInst s i) →
      (intakeFull 3 (getInst s i).hall = true → Mirrors c i s (fun t => t = modHall i (holdSource 3 s.tick) s)) ∧
      (intakeFull 3 (getInst s i).hall = false →
        (msgCheck m ≠ m.check → Mirrors c i s (fun t =>
          t = modStair i (fun t => { t with received := t.received + 1, crcDiscards := satTo 32 (t.crcDiscards + 1) }) s)) ∧
        (msgCheck m = m.check → m.type = ty → hasGen ty = true → m.dstGen ≠ (getInst s i).stair.roleGen →
          Mirrors c i s (fun t => ∃ v, Heard i s v ∧ t = sendBounce i m v)) ∧
        (whole s i ty m = true → headerReserved m = true → StopsAt c s 12))) := by
  refine ⟨fun hoff => hrow.trans (receiveIf_off hoff), fun hon hdst => ⟨fun hfull => ⟨_, hrow.trans (receiveIf_held hon hdst hfull), rfl⟩, fun hfree =>
    ⟨fun hcheck => ⟨_, hrow.trans (receiveIf_damaged hon hdst hfree hcheck), rfl⟩, fun hcheck htype hgen hother =>
      ⟨_, hrow.trans ((receiveIf_sound hon hdst hfree hcheck htype hlisted).trans (if_pos ?_)), _, heard_heard i m s, rfl⟩,
      fun hwhole hres => hrow.trans (receiveIf_reserved hlisted hwhole hres)⟩⟩⟩
  rw [hgen, bne_iff_ne.mpr hother]
  rfl

/-- The rows of peer messages, by their types. -/
def peerRows (i : InstId) (m : PeerMsg) : List (Instr × Nat) :=
  [(.announce i m, tAnnounce), (.announceReply i m, tAnnounceReply), (.offer i m, tOffer), (.accept i m, tAccept), (.refuse i m, tRefuse), (.dataMsg i m, tData),
    (.dataAck i m, tDataAck), (.handover i m, tHandover), (.ack i m, tAck), (.nak i m, tNak), (.abandon i m, tAbandon), (.bounce i m, tBounce)]

theorem peerRows_receive (s : State) : ∀ p ∈ peerRows i m, (∃ bad f, exec p.1 s = receiveIf i p.2 m bad f s) ∧ listedTypes.contains p.2 = true := by
  simp only [peerRows, List.forall_mem_cons]
  exact ⟨⟨⟨_, _, exec_announce⟩, rfl⟩, ⟨⟨_, _, exec_announceReply⟩, rfl⟩, ⟨⟨_, _, exec_offer⟩, rfl⟩, ⟨⟨_, _, exec_accept⟩, rfl⟩, ⟨⟨_, _, exec_refuse⟩, rfl⟩,
    ⟨⟨_, _, exec_dataMsg⟩, rfl⟩, ⟨⟨_, _, exec_dataAck⟩, rfl⟩, ⟨⟨_, _, exec_handover⟩, rfl⟩, ⟨⟨_, _, exec_ack⟩, rfl⟩, ⟨⟨_, _, exec_nak⟩, rfl⟩,
    ⟨⟨_, _, exec_abandon⟩, rfl⟩, ⟨⟨_, _, exec_bounce⟩, rfl⟩, fun _ h => nomatch h⟩

/-- Messages of transfers that are whole, at the active instance. -/
theorem transfers_act (hact : activeInst s i = true) :
    (∀ x, outFor (mir s i) m = some x →
      (arrives s i tAccept m = true → fld m.payload 0 8 / 2 = 0 → Receives (.accept i m) i (takeAccept i m x) s) ∧
      (arrives s i tRefuse m = true → Receives (.refuse i m) i (takeRefuse i m x) s) ∧
      (arrives s i tDataAck m = true → Receives (.dataAck i m) i (takeDataAck i m x) s) ∧ (arrives s i tAck m = true → Receives (.ack i m) i (takeAck i x) s) ∧
      (arrives s i tNak m = true → Receives (.nak i m) i (takeNak i m x) s)) ∧
    (arrives s i tData m = true → m.reason ≠ 0 ∨ bodyCase s i m = none → Receives (.dataMsg i m) i (takeData i m) s) ∧
    (arrives s i tHandover m = true → handoverCase s i m = none → Receives (.handover i m) i (takeHandover i m) s) ∧
    (arrives s i tAbandon m = true → Receives (.abandon i m) i (takeAbandon i m) s) := by
  refine ⟨fun x hx => ⟨fun h hclear => receives exec_accept rfl h (reservedCase_clear hclear) (atSource_active hact hx), fun h => receives exec_refuse rfl h rfl (atSource_active hact hx),
      fun h => receives exec_dataAck rfl h rfl (atSource_active hact hx), fun h => receives exec_ack rfl h rfl (atSource_active hact hx),
      fun h => receives exec_nak rfl h rfl (atSource_active hact hx)⟩,
    fun h hno => receives exec_dataMsg rfl h ?_ (atActive_active hact),
    fun h hno => receives exec_handover rfl h ((handoverCase_heard i m s).trans hno) (if_pos ((activeInst_heard i m s).trans hact)), fun h => receives exec_abandon rfl h rfl (atActive_active hact)⟩
  rcases hno with hpart | hnone
  · exact if_neg hpart
  · rw [bodyCase_heard, hnone, ite_self]

/-- Messages of transfers that match none. -/
theorem transfers_stale (hno : activeInst s i = false ∨ outFor (mir s i) m = none) :
    (arrives s i tAccept m = true → fld m.payload 0 8 / 2 = 0 → Receives (.accept i m) i (staleDiscard i) s) ∧ (arrives s i tRefuse m = true → Receives (.refuse i m) i (staleDiscard i) s) ∧
    (arrives s i tDataAck m = true → Receives (.dataAck i m) i (staleDiscard i) s) ∧ (arrives s i tAck m = true → Receives (.ack i m) i (staleDiscard i) s) ∧
    (arrives s i tNak m = true → Receives (.nak i m) i (staleDiscard i) s) :=
  ⟨fun h hclear => receives exec_accept rfl h (reservedCase_clear hclear) (atSource_stale hno), fun h => receives exec_refuse rfl h rfl (atSource_stale hno),
    fun h => receives exec_dataAck rfl h rfl (atSource_stale hno), fun h => receives exec_ack rfl h rfl (atSource_stale hno), fun h => receives exec_nak rfl h rfl (atSource_stale hno)⟩

/-- An instance that is not active discards what comes for transfers. -/
theorem transfers_idle (hidle : activeInst s i = false) :
    (arrives s i tData m = true → Receives (.dataMsg i m) i (staleDiscard i) s) ∧ (arrives s i tAbandon m = true → Receives (.abandon i m) i (staleDiscard i) s) ∧
    (arrives s i tHandover m = true → Receives (.handover i m) i (sendNak i m) s) := by
  have hfilter (p : InXfer → Bool) (o : Option InXfer) : o.filter (fun t => activeInst s i && p t) = none := by
    rw [Option.filter_eq_none_iff]
    intro x _
    rw [hidle, Bool.false_and]
    exact Bool.false_ne_true
  have hbody : bodyCase s i m = none := by
    unfold bodyCase
    rw [hfilter fun t => !t.handedOver]
  have hhandover : handoverCase s i m = none := by
    unfold handoverCase
    simp only [Bool.and_assoc]
    rw [hbody, hfilter fun t => !t.handedOver && (t.placed && t.final.isEmpty)]
    rfl
  refine ⟨fun h => receives exec_dataMsg rfl h ?_ (atActive_idle hidle), fun h => receives exec_abandon rfl h rfl (atActive_idle hidle),
    fun h => receives exec_handover rfl h ((handoverCase_heard i m s).trans hhandover) (if_neg (Bool.eq_false_iff.mp ((activeInst_heard i m s).trans hidle)))⟩
  rw [bodyCase_heard, hbody, ite_self]

/-- Settles O50. -/
theorem peerMessages : Obligations.PeerMessages := by
  refine ⟨fun i m s p hp => ?_, fun i m s => ⟨fun h => receives_or_stops exec_announce rfl h rfl rfl, fun h => receives_or_stops exec_announceReply rfl h rfl rfl,
    fun h => receives_or_stops exec_offer rfl h rfl rfl, fun h => receives_or_stops exec_bounce rfl h rfl rfl, fun h hset => stopsAt_of_bad exec_accept rfl h (reservedCase_set hset),
    fun n hn h => stopsAt_of_bad exec_handover rfl h ((handoverCase_heard i m s).trans hn), fun n hn h hpart => stopsAt_of_bad exec_dataMsg rfl h ?_,
    fun hact => transfers_act hact, fun hno => transfers_stale hno, fun hidle => transfers_idle hidle⟩⟩
  · obtain ⟨⟨bad, f, hrow⟩, hlisted⟩ := peerRows_receive s p hp
    exact kept_from_work hrow hlisted
  · rw [if_pos hpart, bodyCase_heard, hn]

end Sys2Proof.PeerRules

/-! SUPPORT. The mirror stream at the mirror, the path between the hub dies, and the credits of the peer channels (spec/17 R359, R361-R363, spec/15 R323). -/

namespace Sys2Proof.PathRules

open Sys2Proof Sys2Proof.Machine Sys2Proof.Laws

variable {i : InstId} {s : State}

/-! ### What the mirror makes of a message -/

/-- The cold records are written to HBM alone. -/
theorem copyAttic_onlyHbm (i : InstId) (old new : Mirrored) (s : State) : LanePasses.OnlyHbm s (copyAttic i old new s) := by
  refine LanePasses.foldl_onlyHbm (fun u q hu => ?_) _ _ (LanePasses.foldl_onlyHbm (fun u q hu => ?_) _ _ rfl)
  all_goals split
  · exact LanePasses.hbmPut_onlyHbm _ _ hu
  · exact hu
  · exact hu
  · exact LanePasses.hbmPut_onlyHbm _ _ hu

theorem getInst_copyAttic (i j : InstId) (old new : Mirrored) (s : State) : getInst (copyAttic i old new s) j = getInst s j := by
  rw [copyAttic_onlyHbm]; cases j <;> rfl

theorem copyAttic_tick (i : InstId) (old new : Mirrored) (s : State) : (copyAttic i old new s).tick = s.tick := by rw [copyAttic_onlyHbm]

/-- The mirror takes the message's image, its events and its entries. -/
theorem getInst_applyMirror (i : InstId) (msg : MirrorMsg) (s : State) :
    getInst (applyMirror i msg s) i = { getInst s i with
      mir := { msg.img with irq := irqFollow (getInst s i).rel.streamIrq msg.img.irq (mir s i).irq }
      hall := { (getInst s i).hall with events := msg.events, waiting := msg.waiting, nextArrival := msg.nextArrival }
      rel := { (getInst s i).rel with streamIrq := msg.img.irq, staged := (getInst s i).rel.staged ++ msg.entries, twinRole := msg.role, twinGen := msg.roleGen, twinSet := msg.outposts } } := by
  unfold applyMirror
  dsimp only
  rw [getInst_copyAttic, getInst_modInst]
  rfl

theorem getInst_applyMirror_other (i : InstId) (msg : MirrorMsg) (s : State) :
    getInst (applyMirror i msg s) (Machine.other i) = getInst s (Machine.other i) := by
  unfold applyMirror
  dsimp only
  rw [getInst_copyAttic, getInst_modInst_other]

theorem applyMirror_tick (i : InstId) (msg : MirrorMsg) (s : State) : (applyMirror i msg s).tick = s.tick := by
  unfold applyMirror
  dsimp only
  rw [copyAttic_tick, modInst_tick]

/-- A corrected error is counted in the instance's own registers. -/
theorem getInst_countFixed (i : InstId) (n : Nat) (s : State) :
    getInst (countFixed i n s) i = { getInst s i with rel := { (getInst s i).rel with
      eccCorrected := if n = 0 then (getInst s i).rel.eccCorrected else satTo 32 ((getInst s i).rel.eccCorrected + n) } } := by
  unfold countFixed
  split <;> cases i <;> rfl

theorem getInst_countFixed_other (i : InstId) (n : Nat) (s : State) :
    getInst (countFixed i n s) (Machine.other i) = getInst s (Machine.other i) := by
  unfold countFixed
  split <;> cases i <;> rfl

theorem countFixed_tick (i : InstId) (n : Nat) (s : State) : (countFixed i n s).tick = s.tick := by
  unfold countFixed
  split <;> cases i <;> rfl

/-! ### MIRROR_MESSAGE -/

/-- Nothing is sent, or nothing follows, or the path is down. -/
theorem exec_mirrorMessage_idle (bad : Bool)
    (h : (getInst s (Machine.other i)).rel.streamOut = [] ∨ follows s i = false ∨ s.pathUp = false) :
    exec (.mirrorMessage i bad) s = .next s := by
  show execMirrorMessage i bad s = _
  unfold execMirrorMessage
  dsimp only
  split
  · rfl
  next msg rest hout =>
    refine if_pos ?_
    rcases h with h | h | h
    · rw [h] at hout; cases hout
    · rw [h]; rfl
    · rw [h]; simp

section Heard

variable {msg : MirrorMsg} {rest : List MirrorMsg} (hup : s.pathUp = true)
  (hout : (getInst s (Machine.other i)).rel.streamOut = msg :: rest) (hf : follows s i = true)
include hup hout hf

theorem exec_mirrorMessage_damaged : exec (.mirrorMessage i true) s =
    if (getInst s (Machine.other i)).rel.resends < 3 then .next (modRel (Machine.other i) (fun r => { r with resends := r.resends + 1 }) s)
    else .next (pathFault i s) := by
  show execMirrorMessage i true s = _
  unfold execMirrorMessage
  dsimp only
  rw [hout, hup, hf]
  rfl

/-- The state a whole message is applied in: its sender has it off the stream and one acknowledgement due. -/
def taken (i : InstId) (rest : List MirrorMsg) (s : State) : State :=
  countFixed i (min 1 (getInst s (Machine.other i)).rel.resends)
    (modRel (Machine.other i) (fun r => { r with streamOut := rest, acksDue := r.acksDue + 1, resends := 0 }) s)

theorem exec_mirrorMessage_whole : exec (.mirrorMessage i false) s = .next (applyMirror i msg (taken i rest s)) := by
  show execMirrorMessage i false s = _
  unfold execMirrorMessage
  dsimp only
  rw [hout, hup, hf]
  rfl

end Heard

theorem getInst_taken (i : InstId) (rest : List MirrorMsg) (s : State) :
    getInst (taken i rest s) i = { getInst s i with rel := { (getInst s i).rel with
      eccCorrected := if (getInst s (Machine.other i)).rel.resends = 0 then (getInst s i).rel.eccCorrected
        else satTo 32 ((getInst s i).rel.eccCorrected + 1) } } := by
  have hsame : getInst (modRel (Machine.other i) (fun r => { r with streamOut := rest, acksDue := r.acksDue + 1, resends := 0 }) s) i = getInst s i := by
    cases i <;> rfl
  unfold taken
  rw [getInst_countFixed, hsame]
  by_cases hz : (getInst s (Machine.other i)).rel.resends = 0
  · simp [hz]
  · have hone : min 1 (getInst s (Machine.other i)).rel.resends = 1 := by omega
    rw [hone, if_neg hz]
    rfl

theorem getInst_taken_other (i : InstId) (rest : List MirrorMsg) (s : State) :
    getInst (taken i rest s) (Machine.other i) = { getInst s (Machine.other i) with
      rel := { (getInst s (Machine.other i)).rel with streamOut := rest, acksDue := (getInst s (Machine.other i)).rel.acksDue + 1, resends := 0 } } := by
  unfold taken
  rw [getInst_countFixed_other, getInst_modRel]

theorem taken_tick (i : InstId) (rest : List MirrorMsg) (s : State) : (taken i rest s).tick = s.tick := by
  unfold taken
  rw [countFixed_tick, modRel_tick]

/-- What a message leaves at the mirror and at its sender. -/
theorem mirrorMessage_applied (i : InstId) (msg : MirrorMsg) (rest : List MirrorMsg) (s : State) :
    let r := (getInst s (Machine.other i)).rel
    let t := applyMirror i msg (taken i rest s)
    mir t i = { msg.img with irq := irqFollow (getInst s i).rel.streamIrq msg.img.irq (mir s i).irq } ∧
      (getInst t i).hall = { (getInst s i).hall with events := msg.events, waiting := msg.waiting, nextArrival := msg.nextArrival } ∧
      (getInst t i).rel = { (getInst s i).rel with streamIrq := msg.img.irq, staged := (getInst s i).rel.staged ++ msg.entries, twinRole := msg.role, twinGen := msg.roleGen, twinSet := msg.outposts,
                                                   eccCorrected := if r.resends = 0 then (getInst s i).rel.eccCorrected else satTo 32 ((getInst s i).rel.eccCorrected + 1) } ∧
      (getInst t (Machine.other i)).rel = { r with streamOut := rest, acksDue := r.acksDue + 1, resends := 0 } ∧
      mir t (Machine.other i) = mir s (Machine.other i) ∧ t.tick = s.tick := by
  intro r t
  have hi : getInst t i = _ := (getInst_applyMirror i msg (taken i rest s)).trans (by rw [mir_eq, getInst_taken])
  have ho : getInst t (Machine.other i) = _ := (getInst_applyMirror_other i msg (taken i rest s)).trans (getInst_taken_other i rest s)
  refine ⟨?_, ?_, ?_, ?_, ?_, (applyMirror_tick i msg _).trans (taken_tick i rest s)⟩
  · rw [mir_eq, hi]; rfl
  · rw [hi]
  · rw [hi]
  · rw [ho]
  · rw [mir_eq, ho]; rfl

/-! ### MIRROR_ACK -/

theorem exec_mirrorAck : exec (.mirrorAck i) s =
    if (!s.pathUp || !(getInst s i).rel.active || decide ((getInst s i).rel.acksDue = 0)) = true then .next s
    else .next (modRel i (fun r => { r with acksDue := r.acksDue - 1, lastHeartbeat := s.tick, livenessRead := none }) s) := rfl

theorem exec_mirrorAck_counted (hup : s.pathUp = true) (ha : (getInst s i).rel.active = true) (hd : (getInst s i).rel.acksDue ≠ 0) :
    exec (.mirrorAck i) s = .next (modRel i (fun r => { r with acksDue := r.acksDue - 1, lastHeartbeat := s.tick, livenessRead := none }) s) := by
  rw [exec_mirrorAck, if_neg]
  simp [hup, ha, hd]

theorem exec_mirrorAck_idle (h : s.pathUp = false ∨ (getInst s i).rel.active = false ∨ (getInst s i).rel.acksDue = 0) :
    exec (.mirrorAck i) s = .next s := by
  rw [exec_mirrorAck, if_pos]
  rcases h with h | h | h <;> simp [h]

/-! ### MIRROR_SYNC_COMPLETE -/

/-- The pair synchronises: both sides SYNCING, the path up, nothing of the stream outstanding. -/
def Syncs (s : State) (i : InstId) : Prop :=
  s.pathUp = true ∧ follows s i = true ∧ (getInst s i).rel.mirror = .syncing ∧ activeInst s (Machine.other i) = true ∧
    (getInst s (Machine.other i)).rel.mirror = .syncing ∧ (getInst s (Machine.other i)).rel.streamOut = []

/-- The message that the active instance's state makes. -/
def wholeMsg (y : Inst) : MirrorMsg :=
  { img := y.mir, events := y.hall.events, waiting := y.hall.waiting, nextArrival := y.hall.nextArrival, role := y.stair.role, roleGen := y.stair.roleGen, outposts := y.place.outposts }

/-- The pair is CURRENT, the mirror with the active instance's state. -/
def synced (i : InstId) (s : State) : State :=
  modRel (Machine.other i) (fun r => { r with mirror := .current })
    (modRel i (fun r => { r with mirror := .current }) (applyMirror i (wholeMsg (getInst s (Machine.other i))) s))

theorem exec_mirrorSyncComplete (h : Syncs s i) : exec (.mirrorSyncComplete i) s = .next (synced i s) := by
  obtain ⟨hup, hf, hm, ha, hmo, hout⟩ := h
  refine if_neg ?_
  simp [hup, hf, hm, ha, hmo, hout]

theorem exec_mirrorSyncComplete_idle (h : ¬ Syncs s i) : exec (.mirrorSyncComplete i) s = .next s := by
  refine if_pos ?_
  refine Classical.byContradiction fun hn => ?_
  simp only [Bool.or_eq_true, Bool.not_eq_true', bne_iff_ne, not_or, ne_eq, Classical.not_not, Bool.not_eq_false, List.isEmpty_iff] at hn
  obtain ⟨⟨⟨⟨⟨hf, hm⟩, ha⟩, hmo⟩, hup⟩, hout⟩ := hn
  exact h ⟨hup, hf, hm, ha, hmo, hout⟩

theorem synced_pair (i : InstId) (s : State) :
    (getInst (synced i s) i).rel.mirror = .current ∧ (getInst (synced i s) (Machine.other i)).rel.mirror = .current ∧
      mir (synced i s) i = { mir s (Machine.other i) with irq := irqFollow (getInst s i).rel.streamIrq (mir s (Machine.other i)).irq (mir s i).irq } ∧
      mir (synced i s) (Machine.other i) = mir s (Machine.other i) := by
  let u := applyMirror i (wholeMsg (getInst s (Machine.other i))) s
  have hi : getInst (synced i s) i = { getInst u i with rel := { (getInst u i).rel with mirror := .current } } := by cases i <;> rfl
  have ho : getInst (synced i s) (Machine.other i) = { getInst u (Machine.other i) with rel := { (getInst u (Machine.other i)).rel with mirror := .current } } := by
    cases i <;> rfl
  refine ⟨by rw [hi], by rw [ho], ?_, ?_⟩
  · rw [mir_eq, hi, getInst_applyMirror]; rfl
  · rw [mir_eq, ho, getInst_applyMirror_other]; rfl

/-! ### The path comes back -/

theorem exec_pathRestored : exec .pathRestored s = if s.pathUp = true then .next s
    else .next (if mayResync { s with pathUp := true } = true then resync { s with pathUp := true } else { s with pathUp := true }) := rfl

theorem resync_pair (s : State) :
    (resync s).pathUp = s.pathUp ∧ (resync s).a.rel.mirror = .syncing ∧ (resync s).b.rel.mirror = .syncing ∧
      mir (resync s) .A = mir s .A ∧ mir (resync s) .B = mir s .B := ⟨rfl, rfl, rfl, rfl, rfl⟩

/-! ### Credits -/

/-- Credits come back: as many of those that are out as were returned. -/
def creditsReturned (i : InstId) (n : Nat) (s : State) : State :=
  modStair i (fun t => { t with credits := t.credits + min n t.creditsOut, creditsOut := t.creditsOut - min n t.creditsOut }) s

theorem creditsReturned_stair (i : InstId) (n : Nat) (s : State) :
    let t := creditsReturned i n s
    (getInst t i).stair.credits = (getInst s i).stair.credits + min n (getInst s i).stair.creditsOut ∧
      (getInst t i).stair.creditsOut = (getInst s i).stair.creditsOut - n ∧ mir t i = mir s i ∧ (getInst t i).hall = (getInst s i).hall := by
  intro t
  have hi : getInst t i = _ := getInst_modStair i _ s
  rw [mir_eq, hi]
  refine ⟨rfl, ?_, rfl, rfl⟩
  show _ - min n _ = _
  omega

/-- Settles O52: the mirror applies, acknowledges and synchronises; the path and the credits come back (the interrupt registers of a mirror: log 41; credits: log 20). -/
theorem mirrorAndPaths : Obligations.MirrorAndPaths := by
  unfold Obligations.MirrorAndPaths
  refine ⟨fun i s => ⟨fun msg rest hup hout hf => ⟨?_, ?_, ?_⟩, fun bad h => exec_mirrorMessage_idle bad h, fun hup ha hd => ?_, exec_mirrorAck_idle, ?_, ?_⟩,
    fun s => ⟨fun h => ?_, fun hd hno => ?_, fun hd hyes => ?_⟩, fun i n s => ?_⟩
  · exact ⟨_, exec_mirrorMessage_whole hup hout hf, mirrorMessage_applied i msg rest s⟩
  · exact fun h => ⟨_, (exec_mirrorMessage_damaged hup hout hf).trans (if_pos h), rfl⟩
  · exact fun h => ⟨_, (exec_mirrorMessage_damaged hup hout hf).trans (if_neg (Nat.not_lt.mpr h)), rfl⟩
  · exact ⟨_, exec_mirrorAck_counted hup ha hd, rfl⟩
  · exact fun h => ⟨_, exec_mirrorSyncComplete h, synced_pair i s⟩
  · exact fun h => exec_mirrorSyncComplete_idle h
  · exact exec_pathRestored.trans (if_pos h)
  · refine ⟨_, exec_pathRestored.trans (if_neg ?_), ?_⟩
    · rw [hd]; exact Bool.false_ne_true
    · rw [hno]; rfl
  · refine ⟨_, exec_pathRestored.trans (if_neg ?_), ?_⟩
    · rw [hd]; exact Bool.false_ne_true
    · rw [if_pos hyes]; exact resync_pair _
  · exact ⟨creditsReturned i n s, rfl, creditsReturned_stair i n s⟩

end Sys2Proof.PathRules

/-! SUPPORT. The twins watch each other: heartbeats, the liveness word, claims and the takeover (spec/17 R361, R364-R368). -/

namespace Sys2Proof.TwinRules

open Sys2Proof Sys2Proof.Machine Sys2Proof.Laws Sys2Proof.OutpostRules

variable {i : InstId} {s : State}

/-! ### Heartbeats -/

/-- Instance `i` hears its twin: the twin runs and neither is in reset. -/
def hears (s : State) (i : InstId) : Bool := running s (Machine.other i) && !inReset s (Machine.other i) && !inReset s i

/-- The twin's heartbeat is noted. -/
def noteBeat (tick : Nat) (x : Inst) : Inst := { x with rel := { x.rel with lastHeartbeat := tick, livenessRead := none, pathUp := true } }

theorem heartbeat_getInst (i : InstId) (s : State) :
    getInst (heartbeatOf .B (heartbeatOf .A s)) i = if hears s i = true then noteBeat s.tick (getInst s i) else getInst s i := by
  have hA (t : State) : heartbeatOf .A t = if hears t .B = true then modInst .B (noteBeat t.tick) t else t := rfl
  have hB (t : State) : heartbeatOf .B t = if hears t .A = true then modInst .A (noteBeat t.tick) t else t := rfl
  rw [hA s]
  by_cases hb : hears s .B = true
  · rw [if_pos hb, hB, show hears (modInst .B (noteBeat s.tick) s) .A = hears s .A from rfl]
    by_cases ha : hears s .A = true
    · rw [if_pos ha]; cases i
      · exact (if_pos ha).symm
      · exact (if_pos hb).symm
    · rw [if_neg ha]; cases i
      · exact (if_neg ha).symm
      · exact (if_pos hb).symm
  · rw [if_neg hb, hB]
    by_cases ha : hears s .A = true
    · rw [if_pos ha]; cases i
      · exact (if_pos ha).symm
      · exact (if_neg hb).symm
    · rw [if_neg ha]; cases i
      · exact (if_neg ha).symm
      · exact (if_neg hb).symm

theorem hears_iff : hears s i = true ↔ running s (Machine.other i) = true ∧ inReset s i = false ∧ inReset s (Machine.other i) = false := by
  unfold hears
  rw [Bool.and_eq_true, Bool.and_eq_true, Bool.not_eq_true', Bool.not_eq_true', and_assoc, and_comm (a := inReset s (Machine.other i) = false)]

theorem exec_heartbeat (h : s.pathUp = true) : exec .heartbeat s = .next (heartbeatOf .B (heartbeatOf .A s)) := if_pos h

/-! ### Six ticks of silence -/

theorem exec_heartbeatLost_idle (h : running s i = false ∨ s.tick < (getInst s i).rel.lastHeartbeat + 6) : exec (.heartbeatLost i) s = .next s := by
  refine if_pos ?_
  rcases h with h | h
  · rw [h]; rfl
  · rw [Bool.or_eq_true]; exact .inr (decide_eq_true h)

/-- The path is down, and `read` is what is known of the twin's liveness word. -/
def silence (i : InstId) (read : Option (Nat × Nat)) (s : State) : State := modRel i (fun r => { r with pathUp := false, livenessRead := read }) s

section Silent

variable (hr : running s i = true) (hl : (getInst s i).rel.lastHeartbeat + 6 ≤ s.tick)
include hr hl

theorem exec_heartbeatLost : exec (.heartbeatLost i) s = done i s (silence i
    (if (paired s i && (getInst s i).rel.livenessRead.isNone && !(getInst s i).rel.claiming) = true
      then some ((getInst s (Machine.other i)).liveness, s.tick) else (getInst s i).rel.livenessRead) s) := by
  refine if_neg ?_
  rw [hr, Bool.or_eq_true, not_or]
  exact ⟨Bool.false_ne_true, fun h => Nat.not_lt.mpr hl (of_decide_eq_true h)⟩

theorem mirrors_heartbeatLost_reads (hp : paired s i = true) (hn : (getInst s i).rel.livenessRead = none) (hc : (getInst s i).rel.claiming = false) :
    Mirrors (.heartbeatLost i) i s (fun t => t = silence i (some ((getInst s (Machine.other i)).liveness, s.tick)) s) := by
  refine ⟨_, exec_heartbeatLost hr hl, ?_⟩
  rw [if_pos]
  rw [hp, hn, hc]
  rfl

theorem mirrors_heartbeatLost_knows (h : paired s i = false ∨ (getInst s i).rel.livenessRead ≠ none ∨ (getInst s i).rel.claiming = true) :
    Mirrors (.heartbeatLost i) i s (fun t => t = modRel i (fun r => { r with pathUp := false }) s) := by
  refine ⟨_, exec_heartbeatLost hr hl, ?_⟩
  rw [if_neg]
  · cases i <;> rfl
  · rcases h with h | h | h
    · rw [h]; exact Bool.false_ne_true
    · rw [Bool.and_eq_true, Bool.and_eq_true, Option.isNone_iff_eq_none]; exact fun hn => h hn.1.2
    · rw [h, Bool.not_true, Bool.and_false]; exact Bool.false_ne_true

end Silent

/-! ### The second look -/

theorem exec_livenessCheck_idle (h : (getInst s i).rel.livenessRead = none ∨ running s i = false ∨ paired s i = false) :
    exec (.livenessCheck i) s = .next s := by
  show execLivenessCheck i s = _
  unfold execLivenessCheck
  split
  · rfl
  next v t hread =>
    refine if_pos ?_
    rcases h with h | h | h
    · rw [h] at hread; cases hread
    · rw [h]; rfl
    · rw [h, Bool.not_false, Bool.or_true]; rfl

section Read

variable {v n : Nat} (hread : (getInst s i).rel.livenessRead = some (v, n))
include hread

theorem exec_livenessCheck : exec (.livenessCheck i) s =
    if (!running s i || !paired s i || decide (s.tick < n + 2)) = true then .next s
    else .next (judge i ((getInst s (Machine.other i)).liveness == v) s) := by
  show execLivenessCheck i s = _
  unfold execLivenessCheck
  rw [hread]

theorem exec_livenessCheck_early (h : s.tick < n + 2) : exec (.livenessCheck i) s = .next s := by
  refine (exec_livenessCheck hread).trans (if_pos ?_)
  rw [Bool.or_eq_true]; exact .inr (decide_eq_true h)

theorem exec_livenessCheck_judges (hr : running s i = true) (hp : paired s i = true) (h : n + 2 ≤ s.tick) :
    exec (.livenessCheck i) s = .next (judge i ((getInst s (Machine.other i)).liveness == v) s) := by
  refine (exec_livenessCheck hread).trans (if_neg ?_)
  rw [hr, hp, Bool.or_eq_true, not_or]
  exact ⟨Bool.false_ne_true, fun hlt => Nat.not_lt.mpr h (of_decide_eq_true hlt)⟩

end Read

theorem judge_silent (i : InstId) (s : State) : judge i true s =
    if (!(getInst s i).rel.active && (getInst s i).rel.mirror == .current) = true then startClaim i s
    else markLost (Machine.other i) (mirrorLost i s) := rfl

/-- A silent twin is claimed from by a CURRENT mirror. -/
theorem judge_claims (ha : (getInst s i).rel.active = false) (hm : (getInst s i).rel.mirror = .current) : judge i true s = startClaim i s := by
  refine (judge_silent i s).trans (if_pos ?_)
  rw [ha, hm]
  rfl

/-- A silent twin of any other is LOST. -/
theorem judge_lost (h : (getInst s i).rel.active = true ∨ (getInst s i).rel.mirror ≠ .current) :
    judge i true s = markLost (Machine.other i) (mirrorLost i s) := by
  refine (judge_silent i s).trans (if_neg ?_)
  rw [Bool.and_eq_true, Bool.not_eq_true', beq_iff_eq, not_and]
  exact fun ha hm => h.elim (fun ht => by rw [ht] at ha; cases ha) (fun hne => hne hm)

theorem judge_live (i : InstId) (s : State) : judge i false s =
    if (getInst s i).rel.active = true then markLost i (mirrorLost (Machine.other i) { s with pathUp := false })
    else markLost (Machine.other i) (mirrorLost i { s with pathUp := false }) := rfl

/-- What the second look tells, by the word and the sides' roles. -/
theorem livenessCheck_tells {v n : Nat} (hread : (getInst s i).rel.livenessRead = some (v, n)) (hr : running s i = true) (hp : paired s i = true)
    (h : n + 2 ≤ s.tick) :
    let r := (getInst s i).rel
    let word := (getInst s (Machine.other i)).liveness
    (word = v → r.active = false → r.mirror = .current → Goes (.livenessCheck i) s (fun t => t = startClaim i s)) ∧
    (word = v → r.active = true ∨ r.mirror ≠ .current → Goes (.livenessCheck i) s (fun t => t = markLost (Machine.other i) (mirrorLost i s))) ∧
    (word ≠ v → r.active = true → Goes (.livenessCheck i) s (fun t => t = markLost i (mirrorLost (Machine.other i) { s with pathUp := false }))) ∧
    (word ≠ v → r.active = false → Goes (.livenessCheck i) s (fun t => t = markLost (Machine.other i) (mirrorLost i { s with pathUp := false }))) := by
  intro r word
  have hexec := exec_livenessCheck_judges hread hr hp h
  have same (he : word = v) : (word == v) = true := beq_iff_eq.mpr he
  have differ (he : word ≠ v) : (word == v) = false := beq_eq_false_iff_ne.mpr he
  refine ⟨fun he ha hm => ⟨_, hexec, ?_⟩, fun he hor => ⟨_, hexec, ?_⟩, fun he ha => ⟨_, hexec, ?_⟩, fun he ha => ⟨_, hexec, ?_⟩⟩
  · rw [same he]; exact judge_claims ha hm
  · rw [same he]; exact judge_lost hor
  · rw [differ he]; exact (judge_live i s).trans (if_pos ha)
  · rw [differ he]; exact (judge_live i s).trans (if_neg (by rw [show (getInst s i).rel.active = false from ha]; exact Bool.false_ne_true))

/-! ### FAIL -/

/-- The twin's FAIL has been heard. -/
def failHeard (i : InstId) (s : State) : State := modRel (Machine.other i) (fun r => { r with failSent := false }) s

/-- The mirror of a pair heeds a FAIL. -/
def heeds (s : State) (i : InstId) : Bool := s.pathUp && follows s i && (getInst s i).rel.mirror == .current

theorem heeds_iff : heeds s i = true ↔ s.pathUp = true ∧ follows s i = true ∧ (getInst s i).rel.mirror = .current := by
  unfold heeds
  rw [Bool.and_eq_true, Bool.and_eq_true, beq_iff_eq, and_assoc]

theorem exec_failMsg : exec (.failMsg i) s = if (!(getInst s (Machine.other i)).rel.failSent) = true then .next s
    else if heeds s i = true then .next (startClaim i (failHeard i s)) else .next (failHeard i s) := rfl

theorem exec_failMsg_none (h : (getInst s (Machine.other i)).rel.failSent = false) : exec (.failMsg i) s = .next s := by
  rw [exec_failMsg, h]; rfl

theorem exec_failMsg_sent (h : (getInst s (Machine.other i)).rel.failSent = true) :
    exec (.failMsg i) s = if heeds s i = true then .next (startClaim i (failHeard i s)) else .next (failHeard i s) := by
  rw [exec_failMsg, h]; rfl

/-! ### Claims -/

theorem exec_claim_idle {o : Nat} (h : (getInst s i).rel.claiming = false ∨ running s i = false ∨ (getInst s i).rel.twinSet.getLsbD o = false) :
    exec (.claim i o) s = .next s := by
  refine if_pos ?_
  rcases h with h | h | h <;> simp [h]

/-- The compute die is the claimant's, which has one more claim. -/
def claimed (i : InstId) (o : Nat) (s : State) : State :=
  modRel i (fun r => { r with claims := r.claims ||| (1#8 <<< o) }) (modOutpost o (fun y => { y with owner := some i }) s)

theorem exec_claim {o : Nat} (hc : (getInst s i).rel.claiming = true) (hr : running s i = true) (hb : (getInst s i).rel.twinSet.getLsbD o = true) :
    exec (.claim i o) s = .next (claimed i o s) := by
  refine if_neg ?_
  simp [hc, hr, hb]

theorem claimed_parts {o : Nat} (ho : o < s.outposts.length) :
    let t := claimed i o s
    (getOutpost t o).owner = some i ∧ (getInst t i).rel = { (getInst s i).rel with claims := (getInst s i).rel.claims ||| (1#8 <<< o) } ∧
      (∀ p, p ≠ o → getOutpost t p = getOutpost s p) ∧ mir t i = mir s i ∧ getInst t (Machine.other i) = getInst s (Machine.other i) := by
  intro t
  have hout (p : Nat) : getOutpost t p = getOutpost (modOutpost o (fun y => { y with owner := some i }) s) p := by cases i <;> rfl
  refine ⟨?_, by cases i <;> rfl, fun p hp => (hout p).trans (getOutpost_modOutpost_ne _ s hp), by cases i <;> rfl, by cases i <;> rfl⟩
  rw [hout o, getOutpost_modOutpost _ ho]

/-! ### The takeover, and the claim that is refused -/

theorem ends_takeover (hc : (getInst s i).rel.claiming = true) (hr : running s i = true)
    (hall : (getInst s i).rel.claims &&& (getInst s i).rel.twinSet = (getInst s i).rel.twinSet) :
    Ends (.takeover i) i s (foyerRound i) (fun v => v = takeOver i s) := by
  refine ⟨takeOver i s, if_pos ?_, rfl⟩
  rw [hc, hr, hall, beq_self_eq_true]
  rfl

theorem exec_takeover_idle (h : ¬ ((getInst s i).rel.claiming = true ∧ running s i = true ∧
    (getInst s i).rel.claims &&& (getInst s i).rel.twinSet = (getInst s i).rel.twinSet)) : exec (.takeover i) s = .next s := by
  refine if_neg ?_
  rw [Bool.and_eq_true, Bool.and_eq_true, beq_iff_eq, and_assoc]
  exact h

/-- The active instance finds an outpost of the pair taken by its twin. -/
def refused (s : State) (i : InstId) : Bool :=
  activeInst s i && !(getInst s i).place.split && s.outposts.any (fun y => y.owner == some (Machine.other i))

theorem refused_iff : refused s i = true ↔ activeInst s i = true ∧ (getInst s i).place.split = false ∧
    s.outposts.any (fun y => y.owner == some (Machine.other i)) = true := by
  unfold refused
  rw [Bool.and_eq_true, Bool.and_eq_true, Bool.not_eq_true', and_assoc]

theorem exec_claimRefused (i : InstId) (s : State) : exec (.claimRefused i) s = if refused s i = true then
    endEvent i s (modRel i (fun r => { r with active := false, mirror := .lost, streamOut := [], acksDue := 0 })
      (failInstance i 0x0E (logFault i 0x0E 0 none 0 0 0 s))) else .next s := rfl

/-- Settles O53: heartbeats and the liveness word, FAIL, claims, the takeover and the refused claim, each row by its own lemma (both sides LOST: log 87; heartbeats: log 73). -/
theorem twinsWatchEachOther : Obligations.TwinsWatchEachOther := by
  unfold Obligations.TwinsWatchEachOther
  refine ⟨fun s => ⟨fun h => if_neg (by rw [h]; exact Bool.false_ne_true), fun hup i => ⟨fun h => ?_, fun h => ?_⟩⟩,
    fun i s => ⟨exec_heartbeatLost_idle, fun hr hl => ⟨mirrors_heartbeatLost_reads hr hl, mirrors_heartbeatLost_knows hr hl⟩, exec_livenessCheck_idle,
      fun v n hread => ⟨exec_livenessCheck_early hread, livenessCheck_tells hread⟩⟩,
    fun i s => ⟨exec_failMsg_none, fun h hh => ?_, fun h hh => ?_, fun o hc hr hb ho => ⟨_, exec_claim hc hr hb, claimed_parts ho⟩,
      fun o h => exec_claim_idle h, ⟨fun h => ends_takeover h.1 h.2.1 h.2.2, exec_takeover_idle⟩, ⟨fun h => ?_, fun h => ?_⟩⟩⟩
  · have hbeat := (heartbeat_getInst i s).trans (if_pos (hears_iff.mpr h))
    exact ⟨_, exec_heartbeat hup, by rw [hbeat]; rfl, by rw [mir_eq, hbeat]; rfl⟩
  · exact ⟨_, exec_heartbeat hup, (heartbeat_getInst i s).trans (if_neg fun hn => h (hears_iff.mp hn))⟩
  · exact ⟨_, (exec_failMsg_sent h).trans (if_pos (heeds_iff.mpr hh)), rfl⟩
  · exact ⟨_, (exec_failMsg_sent h).trans (if_neg fun hn => hh (heeds_iff.mp hn)), rfl⟩
  · exact ⟨_, (exec_claimRefused i s).trans (if_pos (refused_iff.mpr h)), rfl⟩
  · exact (exec_claimRefused i s).trans (if_neg fun hn => h (refused_iff.mp hn))

end Sys2Proof.TwinRules

/-! SUPPORT. The journal's flushes, bulk images and the board drive's answers (spec/17 R373-R379, spec/01 R27, spec/13 R284). -/

namespace Sys2Proof.DriveRules

open Sys2Proof Sys2Proof.Machine Sys2Proof.Laws

variable {i : InstId} {s : State}

/-! ### Flushes -/

section Flush

variable (hd : drives s i = true) (hw : flushWanted (getInst s i) s.tick = true)
include hd hw

theorem exec_journalFlush : exec (.journalFlush i) s =
    if (flushIsForced (getInst s i).rel || !commandWaits s i false) = true then done i s (startFlush i s)
    else done i s (modRel i (fun r => { r with flushDue := some (r.flushDue.getD s.tick) }) s) :=
  if_neg (by rw [hd, hw]; exact Bool.false_ne_true)

theorem mirrors_journalFlush_starts (h : flushIsForced (getInst s i).rel = true ∨ commandWaits s i false = false) :
    Mirrors (.journalFlush i) i s (fun t => t = startFlush i s) := by
  refine ⟨_, (exec_journalFlush hd hw).trans (if_pos ?_), rfl⟩
  rw [Bool.or_eq_true, Bool.not_eq_true']
  exact h

theorem mirrors_journalFlush_defers (hf : flushIsForced (getInst s i).rel = false) (hc : commandWaits s i false = true) :
    Mirrors (.journalFlush i) i s (fun t => t = modRel i (fun r => { r with flushDue := some (r.flushDue.getD s.tick) }) s) := by
  refine ⟨_, (exec_journalFlush hd hw).trans (if_neg ?_), rfl⟩
  rw [hf, hc]
  exact Bool.false_ne_true

end Flush

theorem mirrors_flushDeferExpiry {due : Nat} (hd : drives s i = true) (hdue : (getInst s i).rel.flushDue = some due) (hlate : due + 4000 ≤ s.tick)
    (hn : (getInst s i).rel.flushing = none) (hc : commandWaits s i true = false) :
    Mirrors (.flushDeferExpiry i) i s (fun t => t = startFlush i s) := by
  refine ⟨startFlush i s, ?_, rfl⟩
  show execFlushDeferExpiry i s = _
  unfold execFlushDeferExpiry
  dsimp only
  rw [hdue]
  refine if_pos ?_
  rw [hd, hn, hc, decide_eq_true hlate]
  rfl

/-- A row of the drive's answers acts where the drive has the operation and core 0 is on duty. -/
theorem both_true {a b : Bool} (ha : a = true) (hb : b = true) : (a && b) = true := by rw [ha, hb]; rfl

theorem mirrors_flushComplete (ho : hasOp s i (· == .flush) = true) (hc : onDuty s i 0 = true) :
    Mirrors (.flushComplete i) i s (fun t => t = flushDone i s) :=
  ⟨_, if_pos (both_true ho hc), rfl⟩

/-! ### Bulk images and digests -/

/-- A bulk image that is wanted begins at once: no command waits, or it has been put off to its bound. -/
def bulkNow (s : State) (i : InstId) : Bool :=
  !commandWaits s i false || (decide ((getInst s i).rel.bulkDue.getD s.tick + 4000 ≤ s.tick) && !commandWaits s i true)

theorem bulkNow_iff : bulkNow s i = true ↔
    commandWaits s i false = false ∨ ((getInst s i).rel.bulkDue.getD s.tick + 4000 ≤ s.tick ∧ commandWaits s i true = false) := by
  unfold bulkNow
  rw [Bool.or_eq_true, Bool.and_eq_true, Bool.not_eq_true', Bool.not_eq_true', decide_eq_true_iff]

theorem exec_bulkImageStart (hd : drives s i = true) (hw : bulkWanted (getInst s i) s.tick = true) : exec (.bulkImageStart i) s =
    if bulkNow s i = true then done i s (startBulk i none allClasses s)
    else done i s (modRel i (fun r => { r with bulkDue := some ((getInst s i).rel.bulkDue.getD s.tick) }) s) :=
  if_neg (by rw [hd, hw]; exact Bool.false_ne_true)

theorem mirrors_bulkImageDurable (ho : hasOp s i (· == .bulk) = true) (hc : onDuty s i 0 = true) :
    Mirrors (.bulkImageDurable i) i s (fun t => t = bulkDone i s) :=
  ⟨_, if_pos (both_true ho hc), rfl⟩

theorem mirrors_digestPair {p : Nat × BitVec 384 × Nat} {ps : List (Nat × BitVec 384 × Nat)} (hd : drives s i = true)
    (hc : commandWaits s i false = false) (hin : (getInst s i).rel.digestsIn = p :: ps) :
    Mirrors (.digestPair i) i s (fun t => t = driveIssue i (.digest p) false (modRel i (fun r => { r with digestsIn := ps }) s)) := by
  refine ⟨driveIssue i (.digest p) false (modRel i (fun r => { r with digestsIn := ps }) s), ?_, rfl⟩
  show execDigestPair i s = _
  unfold execDigestPair
  rw [hin]
  refine if_pos ?_
  rw [hd, hc]
  rfl

/-! ### The drive's answers -/

theorem exec_driveCompletion_off (hoff : onDuty s i 0 = false) (ok : Bool) : exec (.driveCompletion i ok) s = .next s := by
  show execDriveCompletion i ok s = _
  unfold execDriveCompletion
  dsimp only
  split
  · rfl
  · exact if_pos (by rw [hoff]; rfl)

theorem mirrors_driveCompletion {d : DriveCmd} {n : Nat} (hon : onDuty s i 0 = true) (ok : Bool) (hend : driveEnds i s = (some d, { s with free := s.free + n })) :
    Mirrors (.driveCompletion i ok) i s (fun t =>
      t = if ok then driveDone i d { s with free := s.free + n } else driveError i d { s with free := s.free + n }) := by
  refine ⟨_, ?_, rfl⟩
  show execDriveCompletion i ok s = _
  unfold execDriveCompletion
  dsimp only
  rw [hend]
  exact if_neg (by rw [hon]; exact Bool.false_ne_true)

/-- The drive ends one of the commands in its queue pair; where there are several, by a free value. -/
theorem driveEnds_one (h : (getInst s i).rel.drive ≠ []) :
    ∃ d ∈ (getInst s i).rel.drive, ∃ n, driveEnds i s = (some d, { s with free := s.free + n }) := by
  unfold driveEnds
  split
  next h0 => exact absurd h0 h
  next d h1 => exact ⟨d, by rw [h1]; exact List.mem_singleton_self d, 0, rfl⟩
  next =>
    have hlt : (takeFree s).1 % (getInst s i).rel.drive.length < (getInst s i).rel.drive.length := Nat.mod_lt _ (List.length_pos_iff.mpr h)
    exact ⟨_, List.getElem_mem hlt, 1, congrArg (·, _) (List.getElem?_eq_getElem hlt)⟩

theorem driveEnds_only {d : DriveCmd} (h : (getInst s i).rel.drive = [d]) : driveEnds i s = (some d, { s with free := s.free + 0 }) := by
  unfold driveEnds
  rw [h] <;> rfl

/-! ### What a command that is over leaves -/

/-- Two states whose sequences and digest log, and whose counts of the drive's errors, are the same in instance `i`. -/
def SameDisk (i : InstId) (s t : State) : Prop :=
  (mir t i).seqs = (mir s i).seqs ∧ (getInst t i).rel.eccCorrected = (getInst s i).rel.eccCorrected ∧ (getInst t i).rel.disk = (getInst s i).rel.disk

theorem SameDisk.trans {s t u : State} (h : SameDisk i s t) (h' : SameDisk i t u) : SameDisk i s u :=
  ⟨h'.1.trans h.1, h'.2.1.trans h.2.1, h'.2.2.trans h.2.2⟩

theorem driveEnter_sameDisk (i : InstId) (op : DriveOp) (again : Bool) (s : State) : SameDisk i s (driveEnter i op again s) := by
  unfold driveEnter
  dsimp only
  split <;> cases i <;> exact ⟨rfl, rfl, rfl⟩

/-- The command leaves the queue pair, and its entry its list. -/
def driveGone (i : InstId) (d : DriveCmd) (s : State) : State := duskDrop i 3 d.handle (modRel i (fun r => { r with drive := r.drive.erase d }) s)

theorem driveGone_sameDisk (i : InstId) (d : DriveCmd) (s : State) : SameDisk i s (driveGone i d s) := by cases i <;> exact ⟨rfl, rfl, rfl⟩

theorem driveOver_sameDisk (i : InstId) (d : DriveCmd) (s : State) : SameDisk i s (driveOver i d s) := by
  refine (driveGone_sameDisk i d s).trans ?_
  show SameDisk i (driveGone i d s) (driveOver i d s)
  unfold driveOver
  dsimp only
  split
  · exact ⟨rfl, rfl, rfl⟩
  next p ps _ =>
    split
    · refine SameDisk.trans (t := modRel i (fun r => { r with driveNext := ps }) (driveGone i d s)) ?_ (driveEnter_sameDisk i _ _ _)
      cases i <;> exact ⟨rfl, rfl, rfl⟩
    · exact ⟨rfl, rfl, rfl⟩

/-- With none waiting for room, the one command leaves the queue pair empty. -/
theorem driveOver_drive {d : DriveCmd} (h : (getInst s i).rel.drive = [d]) (hn : (getInst s i).rel.driveNext = []) :
    (getInst (driveOver i d s) i).rel.drive = [] := by
  have hnext : (getInst (driveGone i d s) i).rel.driveNext = [] := by cases i <;> exact hn
  have hgone : (getInst (driveGone i d s) i).rel.drive = (getInst s i).rel.drive.erase d := by cases i <;> rfl
  have hover : driveOver i d s = driveGone i d s := by
    unfold driveOver
    dsimp only
    split
    · rfl
    next p ps hps => cases hnext.symm.trans hps
  rw [hover, hgone, h, List.erase_cons_head]

theorem countFixed_drive (i : InstId) (n : Nat) (s : State) :
    (getInst (countFixed i n s) i).rel.drive = (getInst s i).rel.drive ∧ (getInst (countFixed i n s) i).rel.driveNext = (getInst s i).rel.driveNext ∧
      (getInst (countFixed i n s) i).rel.disk = (getInst s i).rel.disk ∧ (mir (countFixed i n s) i).seqs = (mir s i).seqs := by
  rw [mir_eq, PathRules.getInst_countFixed]
  exact ⟨rfl, rfl, rfl, rfl⟩

/-- A digest that is written stands in the log, and its command is over. -/
theorem digest_written {d : DriveCmd} {p : Nat × BitVec 384 × Nat} {n : Nat} (h : (getInst s i).rel.drive = [d]) :
    let u := countFixed i n s
    let t := driveOver i d (digestLogged i p u)
    let disk := (getInst s i).rel.disk
    ((getInst s i).rel.driveNext = [] → (getInst t i).rel.drive = []) ∧ (mir t i).seqs = (mir s i).seqs ∧
      (getInst t i).rel.eccCorrected = (getInst u i).rel.eccCorrected ∧
      (getInst t i).rel.disk = { disk with digestLog := put (disk.digestCount % 4096) (digestEntry p) disk.digestLog, digestCount := disk.digestCount + 1 } := by
  intro u t disk
  obtain ⟨hdrive, hnext, hdisk, hseqs⟩ := countFixed_drive i n s
  have hlog : getInst (digestLogged i p u) i = _ := getInst_modRel i _ u
  obtain ⟨tseqs, tecc, tdisk⟩ := driveOver_sameDisk i d (digestLogged i p u)
  refine ⟨fun hn => driveOver_drive (by rw [hlog]; exact hdrive.trans h) (by rw [hlog]; exact hnext.trans hn), ?_, ?_, ?_⟩
  · rw [tseqs, mir_eq, hlog]; exact hseqs
  · rw [tecc, hlog]
  · rw [tdisk, hlog]
    show ({ (getInst u i).rel.disk with digestLog := _, digestCount := _ } : Disk) = _
    rw [hdisk]

/-- What the one command at the drive was for is done, or it is tried once more, or the path fails. -/
theorem driveCompletion_only {d : DriveCmd} (hon : onDuty s i 0 = true) (h : (getInst s i).rel.drive = [d]) :
    let u := countFixed i (if d.retried then 1 else 0) s
    (d.op = .flush → Mirrors (.driveCompletion i true) i s (fun t => t = flushDone i u)) ∧
    (d.op = .bulk → Mirrors (.driveCompletion i true) i s (fun t => t = bulkDone i u)) ∧
    (∀ c, d.op = .probe c → Mirrors (.driveCompletion i true) i s (fun t => t = pathBack i c u)) ∧
    (∀ c, d.op = .restore c → Mirrors (.driveCompletion i true) i s (fun t => t = driveOver i d u)) ∧
    (∀ p, d.op = .digest p → Mirrors (.driveCompletion i true) i s (fun t => t = driveOver i d (digestLogged i p u))) ∧
    (d.retried = false → Mirrors (.driveCompletion i false) i s (fun t => t = driveIssue i d.op true (driveOver i d s))) ∧
    (d.retried = true → Mirrors (.driveCompletion i false) i s (fun t => t = pathFail i s)) := by
  intro u
  obtain ⟨vt, hok, rfl⟩ := mirrors_driveCompletion hon true (driveEnds_only h)
  obtain ⟨vf, hbad, rfl⟩ := mirrors_driveCompletion hon false (driveEnds_only h)
  refine ⟨fun hop => ⟨_, hok, ?_⟩, fun hop => ⟨_, hok, ?_⟩, fun c hop => ⟨_, hok, ?_⟩, fun c hop => ⟨_, hok, ?_⟩, fun p hop => ⟨_, hok, ?_⟩,
    fun hr => ⟨_, hbad, ?_⟩, fun hr => ⟨_, hbad, if_pos hr⟩⟩
  case refine_6 => exact if_neg (show ¬ d.retried = true by rw [hr]; exact Bool.false_ne_true)
  all_goals
    · show driveDone i d s = _
      unfold driveDone
      rw [hop]
      rfl

/-! ### A drive that does not answer -/

theorem mirrors_driveTimeout_timer {f : Nat} {d : DriveCmd} (hon : onDuty s i 0 = true) (ha : (getInst s i).rel.active = true)
    (hd : driveTimer (fireCores i s) i = some (f, d)) :
    Mirrors (.driveTimeout i) i s (fun t => t = driveError i d (releaseEvent i (.unit f) (fireCores i s))) := by
  refine ⟨driveError i d (releaseEvent i (.unit f) (fireCores i s)), ?_, rfl⟩
  refine (if_neg (by rw [hon]; exact Bool.false_ne_true)).trans ((if_pos ha).trans ?_)
  dsimp only
  rw [hd]
  rfl

theorem mirrors_driveTimeout_limit {d : DriveCmd} (hon : onDuty s i 0 = true) (ha : (getInst s i).rel.active = false)
    (hd : (getInst s i).rel.drive.find? (fun d => decide (d.start + 2000000 ≤ s.tick)) = some d) :
    Mirrors (.driveTimeout i) i s (fun t => t = driveError i d s) := by
  refine ⟨driveError i d s, ?_, rfl⟩
  refine (if_neg (by rw [hon]; exact Bool.false_ne_true)).trans ((if_neg (by rw [ha]; exact Bool.false_ne_true)).trans ?_)
  rw [show (getInst s i).rel.drive.find? (fun d => decide (d.start + driveLimit ≤ s.tick)) = some d from hd]
  rfl

/-- Settles O54: flushes, bulk images, digest pairs and the drive's answers, each row by its own lemma (which command ends: log 2). -/
theorem flushesAndDrive : Obligations.FlushesAndDrive := by
  unfold Obligations.FlushesAndDrive
  refine ⟨fun i s => ⟨mirrors_journalFlush_starts, mirrors_journalFlush_defers, fun due => mirrors_flushDeferExpiry, mirrors_flushComplete⟩,
    fun i s => ⟨fun hd hw => ⟨fun h => ?_, fun h => ?_⟩, mirrors_bulkImageDurable, fun p ps => mirrors_digestPair⟩,
    fun i s => ⟨exec_driveCompletion_off, fun ok hon hne => ?_, fun d hon h => ?_, fun hon ha f d => mirrors_driveTimeout_timer hon ha,
      fun hon ha d => mirrors_driveTimeout_limit hon ha⟩⟩
  · exact ⟨_, (exec_bulkImageStart hd hw).trans (if_pos (bulkNow_iff.mpr h)), rfl⟩
  · exact ⟨_, (exec_bulkImageStart hd hw).trans (if_neg fun hn => h (bulkNow_iff.mp hn)), rfl⟩
  · obtain ⟨d, hd, n, hend⟩ := driveEnds_one hne
    obtain ⟨v, hexec, hv⟩ := mirrors_driveCompletion hon ok hend
    exact ⟨d, hd, v, hexec, n, hv⟩
  · obtain ⟨hflush, hbulk, hprobe, hrestore, hdigest, hretry, hfail⟩ := driveCompletion_only hon h
    refine ⟨hflush, hbulk, hprobe, hrestore, fun p hop => ?_, hretry, hfail⟩
    obtain ⟨v, hexec, rfl⟩ := hdigest p hop
    exact ⟨_, hexec, digest_written h⟩

end Sys2Proof.DriveRules

/-! SUPPORT. The Study's own events: the wait graph, the waits it records, the trace's timers and the dumps (spec/18 R391-R402). -/

namespace Sys2Proof.StudyRules

open Sys2Proof Sys2Proof.Machine Sys2Proof.Laws Sys2Proof.Closers Sys2Proof.Memories

variable {i : InstId} {s t : State}

/-! ### Causes -/

theorem study_setCause_held {k : Nat} (h : (getInst s i).study.cause.getLsbD k = true) : setCause i k s = s := if_pos h

/-- A cause that rises is noted, and where it is enabled its interrupt rises. -/
theorem setCause_rises {k : Nat} (h : (getInst s i).study.cause.getLsbD k = false) : setCause i k s =
    if tbit (mir s i).causeEnable k = true then raiseIrq i irqStudy (modStudy i (fun y => { y with cause := y.cause ||| (1#4 <<< k) }) s)
    else modStudy i (fun y => { y with cause := y.cause ||| (1#4 <<< k) }) s :=
  if_neg (by rw [h]; exact Bool.false_ne_true)

theorem or_of_getLsbD {v : BitVec 4} {k : Nat} (h : v.getLsbD k = true) : v ||| (1#4 <<< k) = v := by
  refine BitVec.eq_of_getLsbD_eq fun j hj => ?_
  rw [BitVec.getLsbD_or, BitVec.getLsbD_shiftLeft, BitVec.getLsbD_one]
  rcases Nat.lt_trichotomy j k with hlt | rfl | hgt
  · simp [hlt]
  · rw [h, Bool.true_or]
  · simp [Nat.sub_ne_zero_of_lt hgt]

/-- Of the Study, the cause alone changes. -/
theorem study_setCause (i : InstId) (k : Nat) (s : State) :
    (getInst (setCause i k s) i).study = { (getInst s i).study with cause := (getInst s i).study.cause ||| (1#4 <<< k) } := by
  by_cases h : (getInst s i).study.cause.getLsbD k = true
  · rw [study_setCause_held h, or_of_getLsbD h]
  · rw [setCause_rises (Bool.eq_false_iff.mpr h)]
    split
    · rw [getInst_raiseIrq, getInst_modStudy]
    · rw [getInst_modStudy]

/-- An enabled cause that rises raises the Study's interrupt. -/
theorem irq_setCause {k : Nat} (h : (getInst s i).study.cause.getLsbD k = false) (he : tbit (mir s i).causeEnable k = true) :
    (mir (setCause i k s) i).irq.study = true := by
  rw [setCause_rises h, if_pos he, mir_eq, getInst_raiseIrq]
  show (irqRaise _ irqStudy).getLsbD 34 = true
  rw [Interrupts.getLsbD_irqRaise (by decide)]
  simp [irqStudy]

theorem setCause_host (i : InstId) (k : Nat) (s : State) : (setCause i k s).host = s.host := by
  unfold setCause
  dsimp only
  split
  · rfl
  · split <;> cases i <;> rfl

theorem setCause_hbm (i : InstId) (k : Nat) (s : State) : (setCause i k s).hbm = s.hbm := by
  unfold setCause
  dsimp only
  split
  · rfl
  · split <;> cases i <;> rfl

theorem setCause_seqs (i : InstId) (k : Nat) (s : State) : (mir (setCause i k s) i).seqs = (mir s i).seqs := by
  have h : Tracing.IrqOnly i s (setCause i k s) := Tracing.setCause_irqOnly k (Tracing.IrqOnly.refl i s)
  rw [h]

/-! ### The wait graph -/

/-- The build stands in the Study before its cause is looked at. -/
def graphNoted (i : InstId) (s : State) : State :=
  let g := waitGraph s i
  let again := hasCycle (g.filter fun e => (getInst s i).study.graph.any (sameEdge e))
  modStudy i (fun y => { y with graph := g, graphTick := s.tick, cycle := again || (y.cycle && hasCycle g) }) s

theorem buildGraph_eq (i : InstId) (s : State) : buildGraph i s =
    if hasCycle ((waitGraph s i).filter fun e => (getInst s i).study.graph.any (sameEdge e)) = true then setCause i causeCycle (graphNoted i s)
    else graphNoted i s := rfl

theorem getInst_graphNoted (i : InstId) (s : State) : getInst (graphNoted i s) i =
    { getInst s i with study := { (getInst s i).study with
      graph := waitGraph s i
      graphTick := s.tick
      cycle := hasCycle ((waitGraph s i).filter fun e => (getInst s i).study.graph.any (sameEdge e)) || ((getInst s i).study.cycle && hasCycle (waitGraph s i)) } } :=
  getInst_modStudy i _ s

theorem graphNoted_mir (i : InstId) (s : State) : mir (graphNoted i s) i = mir s i := by rw [mir_eq, getInst_graphNoted]; rfl

theorem graphNoted_hbm (i : InstId) (s : State) : (graphNoted i s).hbm = s.hbm := modStudy_hbm i _ s

theorem graphNoted_host (i : InstId) (s : State) : (graphNoted i s).host = s.host := modStudy_host i _ s

theorem buildGraph_hbm (i : InstId) (s : State) : (buildGraph i s).hbm = s.hbm := by
  rw [buildGraph_eq]
  split
  · rw [setCause_hbm, graphNoted_hbm]
  · exact graphNoted_hbm i s

theorem buildGraph_host (i : InstId) (s : State) : (buildGraph i s).host = s.host := by
  rw [buildGraph_eq]
  split
  · rw [setCause_host, graphNoted_host]
  · exact graphNoted_host i s

theorem buildGraph_seqs (i : InstId) (s : State) : (mir (buildGraph i s) i).seqs = (mir s i).seqs := by
  rw [buildGraph_eq]
  split
  · rw [setCause_seqs, graphNoted_mir]
  · rw [graphNoted_mir]

theorem mirrors_graphBuild (hdue : graphDue s i = true) (hduty : onDuty s i 2 = true) (hwait : commandWaitsAt s i 2 false = false) :
    Mirrors (.graphBuild i) i s (fun t => t = buildGraph i s ∧ (mir t i).seqs = (mir s i).seqs ∧ t.hbm = s.hbm) := by
  refine ⟨buildGraph i s, if_pos ?_, rfl, buildGraph_seqs i s, buildGraph_hbm i s⟩
  rw [hdue, hduty, hwait]
  rfl

theorem exec_graphBuild_idle (h : graphDue s i = false ∨ onDuty s i 2 = false ∨ commandWaitsAt s i 2 false = true) : exec (.graphBuild i) s = .next s := by
  refine if_neg ?_
  rcases h with h | h | h <;> simp [h]

/-- The graph is that of the moment; the same cycle in two builds running sets the flag and raises the cause, a build without one clears the flag. -/
theorem buildGraph_study (i : InstId) (s : State) :
    let y := (getInst s i).study
    let g := waitGraph s i
    let again := hasCycle (g.filter fun e => y.graph.any (sameEdge e))
    let t := buildGraph i s
    (getInst t i).study.graph = g ∧ (getInst t i).study.graphTick = s.tick ∧
      (again = true → (getInst t i).study.cycle = true ∧ (getInst t i).study.cause = y.cause ||| (1#4 <<< causeCycle) ∧
        (y.cause.getLsbD causeCycle = false → tbit (mir s i).causeEnable causeCycle = true → (mir t i).irq.study = true)) ∧
      (again = false → (getInst t i).study.cycle = (y.cycle && hasCycle g) ∧ (getInst t i).study.cause = y.cause ∧ mir t i = mir s i) := by
  intro y g again t
  have hnoted : (getInst (graphNoted i s) i).study = { y with graph := g, graphTick := s.tick, cycle := again || (y.cycle && hasCycle g) } := by
    rw [getInst_graphNoted]
  by_cases h : again = true
  · have ht : t = setCause i causeCycle (graphNoted i s) := (buildGraph_eq i s).trans (if_pos h)
    rw [ht, study_setCause, hnoted]
    refine ⟨rfl, rfl, fun _ => ⟨?_, rfl, fun hc he => ?_⟩, fun hf => absurd (h.symm.trans hf) Bool.noConfusion⟩
    · rw [h]; rfl
    · exact irq_setCause (by rw [hnoted]; exact hc) (by rw [graphNoted_mir]; exact he)
  · have ht : t = graphNoted i s := (buildGraph_eq i s).trans (if_neg h)
    rw [ht, hnoted]
    refine ⟨rfl, rfl, fun hn => absurd hn h, fun hf => ⟨?_, rfl, graphNoted_mir i s⟩⟩
    rw [hf]; rfl

/-! ### Waits -/

/-- The wait that a row names. -/
def namedWait (waiter holder reason object : Nat) : Edge :=
  { src := waiter, dst := holder % 2 ^ 12, reason := reason % 16, object := object % 2 ^ 24 }

/-- A record is added where its waiter's class is traced. -/
def noteRec (i : InstId) (r : TraceRec) (u t : State) : State := if keepsWait u i r = true then traceAdd i r t else t

theorem noteRec_kept {r : TraceRec} {u t : State} (h : keepsWait u i r = true) : noteRec i r u t = traceAdd i r t := if_pos h

theorem noteRec_dropped {r : TraceRec} {u t : State} (h : keepsWait u i r = false) : noteRec i r u t = t :=
  if_neg (by rw [h]; exact Bool.false_ne_true)

/-- The wait goes on as a new one. -/
def waitAgain (i : InstId) (w : Edge) (lim : Nat) (s : State) : State :=
  modStudy i (fun y => { y with waits := y.waits.map fun v => if v == w then { v with since := lim } else v }) s

theorem sameWait_of_find {e w : Edge} {l : List Edge} (h : l.find? (sameWait e) = some w) : w.src = e.src ∧ w.dst = e.dst := by
  have hs := List.find?_some h
  simp only [sameWait, sameEdge, Bool.and_eq_true, beq_iff_eq] at hs
  exact ⟨hs.1.1.1.symm, hs.1.1.2.symm⟩

section Known

variable {waiter holder reason object : Nat} {w : Edge}
  (hw : (getInst s i).study.waits.find? (sameWait (namedWait waiter holder reason object)) = some w)
include hw

theorem exec_traceWaitLimit_known : exec (.traceWaitLimit i waiter holder reason object) s =
    if studyCount s i + 500 ≤ w.since + 0xFFFFFF then .next s
    else done i s (noteRec i (waitRec w (w.since + 0xFFFFFF)) (waitAgain i w (w.since + 0xFFFFFF) s) (waitAgain i w (w.since + 0xFFFFFF) s)) := by
  show execTraceWaitLimit i waiter holder reason object s = _
  unfold execTraceWaitLimit
  dsimp only
  rw [show (getInst s i).study.waits.find? (sameWait { src := waiter, dst := holder % 2 ^ 12, reason := reason % 16, object := object % 2 ^ 24 }) = some w from hw]
  rfl

theorem keepsWait_waitAgain (lim : Nat) (r : TraceRec) : keepsWait (waitAgain i w lim s) i r = keepsWait s i r := by cases i <;> rfl

/-- A wait of the longest duration is recorded as of its waiter and its holder, and goes on. -/
theorem traceWaitLimit_known :
    let lim := w.since + 0xFFFFFF
    let u := waitAgain i w lim s
    (waitRec w lim).duration = 0xFFFFFF ∧ (waitRec w lim).waiter = waiter ∧ (waitRec w lim).holder = holder % 2 ^ 12 ∧
      (studyCount s i + 500 ≤ lim → exec (.traceWaitLimit i waiter holder reason object) s = .next s) ∧
      (lim < studyCount s i + 500 → keepsWait s i (waitRec w lim) = true → Mirrors (.traceWaitLimit i waiter holder reason object) i s (fun t => t = traceAdd i (waitRec w lim) u)) ∧
      (lim < studyCount s i + 500 → keepsWait s i (waitRec w lim) = false → Mirrors (.traceWaitLimit i waiter holder reason object) i s (fun t => t = u)) := by
  intro lim u
  obtain ⟨hsrc, hdst⟩ := sameWait_of_find hw
  have hkeeps : keepsWait u i (waitRec w lim) = keepsWait s i (waitRec w lim) := keepsWait_waitAgain hw lim _
  have hexec := exec_traceWaitLimit_known hw
  refine ⟨?_, hsrc, hdst, fun h => hexec.trans (if_pos h), fun h hk => ⟨_, hexec.trans (if_neg (Nat.not_le.mpr h)), noteRec_kept (hkeeps.trans hk)⟩,
    fun h hk => ⟨_, hexec.trans (if_neg (Nat.not_le.mpr h)), noteRec_dropped (hkeeps.trans hk)⟩⟩
  show min 0xFFFFFF (max 1 (w.since + 0xFFFFFF - w.since)) = 0xFFFFFF
  omega

end Known

/-- The record of a wait that the model does not show: of the lowest reason that applies to its waiter and object. -/
def unseenRec (i : InstId) (e : Edge) (s : State) : TraceRec :=
  { waitRec { e with reason := (((getInst s i).study.waits.filter fun w => w.src == e.src && w.object == e.object).map (·.reason)).foldl min e.reason } (studyCount s i) with
    duration := 0xFFFFFF }

theorem exec_traceWaitLimit_unseen {waiter holder reason object : Nat}
    (hw : (getInst s i).study.waits.find? (sameWait (namedWait waiter holder reason object)) = none) :
    exec (.traceWaitLimit i waiter holder reason object) s =
      if followed waiter = true then .next s
      else done i s (noteRec i (unseenRec i (namedWait waiter holder reason object) s) s s) := by
  show execTraceWaitLimit i waiter holder reason object s = _
  unfold execTraceWaitLimit
  dsimp only
  rw [show (getInst s i).study.waits.find? (sameWait { src := waiter, dst := holder % 2 ^ 12, reason := reason % 16, object := object % 2 ^ 24 }) = none from hw]
  rfl

/-! ### The trace's timers -/

theorem exec_traceBurstTimeout (i : InstId) (s : State) : exec (.traceBurstTimeout i) s =
    if studyTime s i + 500 ≤ (getInst s i).study.lastRec + 4096 then .next s
    else done i s (traceBurst i (getInst s i).study.fifo.length s) := rfl

theorem mirrors_traceBurstTimeout (h : (getInst s i).study.lastRec + 4096 < studyTime s i + 500) :
    Mirrors (.traceBurstTimeout i) i s (fun t => t = traceBurst i (getInst s i).study.fifo.length s) :=
  ⟨_, (exec_traceBurstTimeout i s).trans (if_neg (Nat.not_le.mpr h)), rfl⟩

theorem mirrors_traceSync (hon : (getInst s i).study.traceOn = true) (h : s.tick % 65536 = 0) :
    Mirrors (.traceSync i) i s (fun t => t = traceAdd i (syncRec s i) s) :=
  ⟨_, if_pos (by rw [hon, h]; rfl), rfl⟩

theorem exec_traceSync_idle (h : (getInst s i).study.traceOn = false ∨ s.tick % 65536 ≠ 0) : exec (.traceSync i) s = .next s := by
  refine if_neg ?_
  rcases h with h | h <;> simp [h]

theorem mirrors_traceDrained {cmd : Nat} (h : (getInst s i).study.draining = some cmd) : Mirrors (.traceDrained i) i s (fun t =>
    t = finishCmd i cmd rOk 0 [] (modStudy i (fun y => { y with draining := none }) (traceBurst i (getInst s i).study.fifo.length s))) := by
  refine ⟨drainTrace i s, rfl, ?_⟩
  unfold drainTrace
  rw [h]

theorem mirrors_traceDrained_idle (h : (getInst s i).study.draining = none) : Mirrors (.traceDrained i) i s (fun t => t = s) := by
  refine ⟨drainTrace i s, rfl, ?_⟩
  unfold drainTrace
  rw [h]

/-! ### What a dump writes -/

/-- A section that is placed: its offset, its type and its bytes. -/
abbrev Placed := Nat × Nat × List Byte

/-- The sections written to a memory, from a base on. -/
def putSections (base : Nat) (l : List Placed) (m : Mem) : Mem := l.foldl (fun m p => memPuts m (base + p.1) p.2.2) m

theorem putSections_wf (base : Nat) (l : List Placed) {m : Mem} (hm : Machine.Mem.wf m = true) : Machine.Mem.wf (putSections base l m) = true := by
  induction l generalizing m with
  | nil => exact hm
  | cons p l ih => exact ih (memPuts_wf _ _ hm)

/-- A byte of no section stands. -/
theorem memGet_putSections_outside (base : Nat) {a : Nat} (l : List Placed) {m : Mem} (hm : Machine.Mem.wf m = true)
    (h : ∀ p ∈ l, a < base + p.1 ∨ base + p.1 + p.2.2.length ≤ a) : memGet (putSections base l m) a = memGet m a := by
  induction l generalizing m with
  | nil => rfl
  | cons p l ih =>
    exact (ih (memPuts_wf _ _ hm) fun q hq => h q (List.mem_cons_of_mem _ hq)).trans (memGet_memPuts_outside _ hm (h p List.mem_cons_self))

/-- Runs that read alike byte by byte are the same. -/
theorem memGets_congr {m n : Mem} {a k : Nat} (h : ∀ j, j < k → memGet m (a + j) = memGet n (a + j)) : memGets m a k = memGets n a k :=
  List.map_congr_left fun j hj => h j (List.mem_range.mp hj)

/-- Sections that follow one another read back as written. -/
theorem memGets_putSections (base : Nat) (l : List Placed) {m : Mem} (hm : Machine.Mem.wf m = true)
    (hl : l.Pairwise fun p q => p.1 + p.2.2.length ≤ q.1) : ∀ p ∈ l, memGets (putSections base l m) (base + p.1) p.2.2.length = p.2.2 := by
  induction l generalizing m with
  | nil => exact fun p hp => absurd hp List.not_mem_nil
  | cons q l ih =>
    obtain ⟨hq, hrest⟩ := List.pairwise_cons.mp hl
    have hwf := memPuts_wf q.2.2 (base + q.1) hm
    refine List.forall_mem_cons.mpr ⟨?_, ih hwf hrest⟩
    refine (memGets_congr fun j hj => memGet_putSections_outside base l hwf fun p hp => ?_).trans (memGets_memPuts m _ _ hm)
    have := hq p hp
    omega

theorem le_roundUp (n : Nat) : n ≤ max 0x10000 (roundUp n 0x10000) := by
  unfold roundUp ceilDiv
  rw [if_neg (by decide)]
  omega

/-- The sections stand behind the offset that they begin at, each behind the one before it. -/
theorem placeSections_placed (l : List (Nat × List Byte)) : ∀ off,
    (∀ p ∈ placeSections off l, off ≤ p.1) ∧ (placeSections off l).Pairwise fun p q => p.1 + p.2.2.length ≤ q.1 := by
  induction l with
  | nil => exact fun off => ⟨fun p hp => absurd hp List.not_mem_nil, .nil⟩
  | cons q l ih =>
    intro off
    obtain ⟨hoff, hpair⟩ := ih (off + max 0x10000 (roundUp q.2.length 0x10000))
    have hle := le_roundUp q.2.length
    refine ⟨List.forall_mem_cons.mpr ⟨Nat.le_refl off, fun p hp => ?_⟩, List.pairwise_cons.mpr ⟨fun p hp => ?_, hpair⟩⟩
    · have := hoff p hp
      omega
    · have := hoff p hp
      show off + q.2.length ≤ p.1
      omega

theorem placeSections_length (l : List (Nat × List Byte)) : ∀ off, (placeSections off l).length = l.length := by
  induction l with
  | nil => exact fun _ => rfl
  | cons q l ih => exact fun off => congrArg (· + 1) (ih _)

theorem cutSections_length (incomplete : Bool) (free : Nat) (l : List (Nat × List Byte)) : (cutSections incomplete free l).length = l.length := by
  unfold cutSections
  split
  · rw [List.length_map, List.length_zipIdx]
  · rfl

/-! ### The header -/

/-- A layout of fields that it has room for keeps its length. -/
theorem layout_length {n : Nat} {fs : List (Nat × List Byte)} (hfit : ∀ f ∈ fs, f.1 + f.2.length ≤ n) : (layout n fs).length = n := by
  unfold layout
  suffices ∀ acc : List Byte, acc.length = n → (fs.foldl (fun acc f => acc.take f.1 ++ f.2 ++ acc.drop (f.1 + f.2.length)) acc).length = n from
    this _ List.length_replicate
  induction fs with
  | nil => exact fun acc h => h
  | cons f fs ih =>
    obtain ⟨hf, hfs⟩ := List.forall_mem_cons.mp hfit
    refine fun acc h => ih hfs _ ?_
    rw [List.length_append, List.length_append, List.length_take, List.length_drop, h]
    omega

/-- With its nine sections the header has its 4 KiB. -/
theorem dumpHeader_length (x : Inst) (d : Dump) (incomplete : Bool) (check : Nat) {l : List Placed} (hl : l.length ≤ 9) :
    (dumpHeader x d incomplete check l).length = 0x1000 := by
  unfold dumpHeader
  refine layout_length fun f hf => ?_
  rcases List.mem_append.mp hf with hf | hf
  · simp only [lf, List.mem_cons, List.not_mem_nil, or_false] at hf
    rcases hf with rfl | rfl | rfl | rfl | rfl | rfl | rfl | rfl | rfl | rfl | rfl <;> simp
  · obtain ⟨p, hp, rfl⟩ := List.mem_map.mp hf
    have hlt : p.2 < l.length := by simpa using List.snd_lt_of_mem_zipIdx hp
    simp only [List.length_append, leBytes_length]
    omega

/-! ### DUMP_COMPLETE -/

/-- The sections that a dump of the state writes. -/
def dumpPlaced (i : InstId) (incomplete : Bool) (s : State) : List Placed :=
  placeSections 0x10000 (cutSections incomplete (takeFree s).1 (dumpSections (takeFree s).2 i))

/-- The header that a dump of the state writes. -/
def dumpHead (i : InstId) (d : Dump) (incomplete : Bool) (s : State) : List Byte :=
  let l := dumpPlaced i incomplete s
  let x := getInst (takeFree s).2 i
  dumpHeader x d incomplete (crc32c (dumpHeader x d incomplete 0 l)) l

theorem dumpPlaced_length (i : InstId) (incomplete : Bool) (s : State) : (dumpPlaced i incomplete s).length = 9 := by
  unfold dumpPlaced
  rw [placeSections_length, cutSections_length]
  rfl

theorem dumpHead_length (i : InstId) (d : Dump) (incomplete : Bool) (s : State) : (dumpHead i d incomplete s).length = 0x1000 :=
  dumpHeader_length _ _ _ _ (Nat.le_of_eq (dumpPlaced_length i incomplete s))

theorem foldl_hbmPut (base : Nat) (l : List Placed) (s : State) :
    l.foldl (fun t p => hbmPut (base + p.1) p.2.2 t) s = { s with hbm := putSections base l s.hbm } := by
  induction l generalizing s with
  | nil => rfl
  | cons p l ih => exact ih _

/-- A dump takes a free value and writes its sections and its header to HBM. -/
theorem writeDump_eq (i : InstId) (base : Nat) (d : Dump) (incomplete : Bool) (s : State) : writeDump i base d incomplete s =
    { s with free := s.free + 1, hbm := memPuts (putSections base (dumpPlaced i incomplete s) s.hbm) base (dumpHead i d incomplete s) } :=
  congrArg (hbmPut base (dumpHead i d incomplete s)) (foldl_hbmPut base (dumpPlaced i incomplete s) (takeFree s).2)

/-- What HBM holds after a dump: the header, the sections, and every other byte as it was. -/
theorem writeDump_hbm (i : InstId) (base : Nat) (d : Dump) (incomplete : Bool) (s : State) (hm : Machine.Mem.wf s.hbm = true) :
    let t := writeDump i base d incomplete s
    let h := dumpHead i d incomplete s
    let l := dumpPlaced i incomplete s
    memGets t.hbm base h.length = h ∧ (∀ p ∈ l, memGets t.hbm (base + p.1) p.2.2.length = p.2.2) ∧
      ∀ a, (a < base ∨ base + h.length ≤ a) → (∀ p ∈ l, a < base + p.1 ∨ base + p.1 + p.2.2.length ≤ a) → memGet t.hbm a = memGet s.hbm a := by
  intro t h l
  have hwf := putSections_wf base l hm
  have hlen : h.length = 0x1000 := dumpHead_length i d incomplete s
  obtain ⟨hoff, hpair⟩ : (∀ p ∈ l, 0x10000 ≤ p.1) ∧ l.Pairwise fun (p q : Placed) => p.1 + p.2.2.length ≤ q.1 := placeSections_placed _ 0x10000
  rw [show t.hbm = memPuts (putSections base l s.hbm) base h from congrArg State.hbm (writeDump_eq i base d incomplete s)]
  refine ⟨memGets_memPuts _ _ _ hwf, fun p hp => ?_, fun a ha hl => ?_⟩
  · refine (memGets_congr fun j _ => memGet_memPuts_outside h hwf ?_).trans (memGets_putSections base l hm hpair p hp)
    have := hoff p hp
    omega
  · rw [memGet_memPuts_outside h hwf ha, memGet_putSections_outside base l hm hl]

/-- The dump stands and its cause rises. -/
def dumped (i : InstId) (base : Nat) (d : Dump) (incomplete : Bool) (s : State) : State :=
  setCause i causeDump (modStudy i (fun y => { y with dumpState := if incomplete then 3 else 2 }) (writeDump i base d incomplete (buildGraph i s)))

theorem exec_dumpComplete {incomplete : Bool} {d : Dump} {g : Region} (hd : (getInst s i).study.dump = some d)
    (hg : look 6 (getInst s i).place.regions = some g) : exec (.dumpComplete i incomplete) s =
    if ((getInst s i).study.dumpState != 1 || (getInst s i).hearth.coreUp == 0) = true then .next s else done i s (dumped i g.base d incomplete s) := by
  show execDumpComplete i incomplete s = _
  unfold execDumpComplete
  dsimp only
  rw [hd, hg]
  rfl

theorem dumped_study (i : InstId) (base : Nat) (d : Dump) (incomplete : Bool) (s : State) :
    let t := dumped i base d incomplete s
    (getInst t i).study.dumpState = (if incomplete then 3 else 2) ∧ (getInst t i).study.cause.getLsbD causeDump = true ∧
      (mir t i).seqs = (mir s i).seqs ∧ t.host = s.host := by
  intro t
  have hw (j : InstId) : getInst (writeDump i base d incomplete (buildGraph i s)) j = getInst (buildGraph i s) j := by
    rw [writeDump_eq]; cases j <;> rfl
  have hst : (getInst t i).study = _ := study_setCause i causeDump _
  refine ⟨?_, ?_, ?_, ?_⟩
  · rw [hst, getInst_modStudy]
  · rw [hst]
    show (_ ||| (1#4 <<< causeDump)).getLsbD causeDump = true
    rw [BitVec.getLsbD_or]
    simp [causeDump]
  · refine (setCause_seqs i causeDump _).trans ?_
    rw [mir_eq, getInst_modStudy, hw]
    exact buildGraph_seqs i s
  · refine (setCause_host i causeDump _).trans ((modStudy_host i _ _).trans ?_)
    rw [writeDump_eq]
    exact buildGraph_host i s

theorem dumped_hbm (i : InstId) (base : Nat) (d : Dump) (incomplete : Bool) (s : State) :
    (dumped i base d incomplete s).hbm = (writeDump i base d incomplete (buildGraph i s)).hbm :=
  (setCause_hbm i causeDump _).trans (modStudy_hbm i _ _)

theorem exec_dumpComplete_idle {incomplete : Bool} (h : (getInst s i).study.dumpState ≠ 1 ∨ (getInst s i).hearth.coreUp = 0 ∨
    look 6 (getInst s i).place.regions = none ∨ (getInst s i).study.dump = none) : exec (.dumpComplete i incomplete) s = .next s := by
  cases hd : (getInst s i).study.dump with
  | none =>
    show execDumpComplete i incomplete s = _
    unfold execDumpComplete
    dsimp only
    rw [hd]
  | some d =>
    cases hg : look 6 (getInst s i).place.regions with
    | none =>
      show execDumpComplete i incomplete s = _
      unfold execDumpComplete
      dsimp only
      rw [hd, hg]
    | some g =>
      refine (exec_dumpComplete hd hg).trans (if_pos ?_)
      rw [hd, hg] at h
      rcases h with h | h | h | h
      · simp [h]
      · simp [h]
      · cases h
      · cases h

/-- Settles O55: the graph, the waits, the trace's timers and the dump, each row by its own lemma (free counters: log 2; waits not shown: log 108). -/
theorem studyEvents : Obligations.StudyEvents := by
  unfold Obligations.StudyEvents
  refine ⟨fun i s => ⟨mirrors_graphBuild, exec_graphBuild_idle, buildGraph_study i s, fun waiter holder reason object => ⟨fun w hw => traceWaitLimit_known hw, fun hw => ?_⟩,
      mirrors_traceBurstTimeout, fun h => (exec_traceBurstTimeout i s).trans (if_pos h), mirrors_traceSync, exec_traceSync_idle, fun cmd => mirrors_traceDrained, mirrors_traceDrained_idle⟩,
    fun i incomplete s => ⟨fun g h1 hcore hg hne => ?_, exec_dumpComplete_idle⟩⟩
  · have hexec := exec_traceWaitLimit_unseen hw
    have hshown {p : State → Prop} (hf : followed waiter = false) (hp : p (noteRec i (unseenRec i (namedWait waiter holder reason object) s) s s)) :
        Mirrors (.traceWaitLimit i waiter holder reason object) i s p :=
      ⟨_, hexec.trans (if_neg (by rw [hf]; exact Bool.false_ne_true)), hp⟩
    exact ⟨fun hf => hexec.trans (if_pos hf), fun hf hk => hshown hf (noteRec_kept hk), fun hf hk => hshown hf (noteRec_dropped hk)⟩
  · obtain ⟨d, hd⟩ := Option.ne_none_iff_exists'.mp hne
    obtain ⟨hstate, hcause, hseqs, hhost⟩ := dumped_study i g.base d incomplete s
    refine ⟨dumped i g.base d incomplete s, (exec_dumpComplete hd hg).trans (if_neg ?_), hstate, hcause, hseqs, hhost, fun d' hd' hm => ?_⟩
    · rw [h1, bne_self_eq_false, Bool.false_or, beq_iff_eq]
      exact hcore
    · cases hd.symm.trans hd'
      have hb := buildGraph_hbm i s
      have hall := writeDump_hbm i g.base d incomplete (buildGraph i s) (by rw [hb]; exact hm)
      rw [dumped_hbm]
      rw [hb] at hall
      exact hall

end Sys2Proof.StudyRules

/-! SUPPORT. A write of the register file as one operation (spec/19 R411-R413, R427, spec/00 R8-R10, spec/01 R23, R24). -/

namespace Sys2Proof.RegisterRules

open Sys2Proof Sys2Proof.Machine Sys2Proof.Laws Sys2Proof.Limits

variable {i : InstId} {wide : Bool} {off v : Nat} {s : State} {c : Instr}

/-! ### What a write answers -/

theorem writeBus_misaligned (h : aligned wide off = false) : writeBus i wide off v s = .fault (.undefinedCase 13) :=
  if_pos (by rw [h]; rfl)

theorem writeBus_aligned (h : aligned wide off = true) : writeBus i wide off v s =
    if (!blockTakes s i (off / 8 * 8) || (slotFields s i (off / 8 * 8)).isEmpty) = true then .next s
    else guarded i (writeCase s i (off / 8 * 8) (busWrite wide off v)) s (writeAt i (off / 8 * 8) (busWrite wide off v) s) :=
  if_neg (by rw [h]; exact Bool.false_ne_true)

theorem writeBus_untaken (h : aligned wide off = true) (hno : blockTakes s i (off / 8 * 8) = false ∨ slotFields s i (off / 8 * 8) = []) :
    writeBus i wide off v s = .next s := by
  refine (writeBus_aligned h).trans (if_pos ?_)
  rcases hno with hno | hno <;> simp [hno]

section Taken

variable (h : aligned wide off = true) (htakes : blockTakes s i (off / 8 * 8) = true) (hne : slotFields s i (off / 8 * 8) ≠ [])
include h htakes hne

theorem writeBus_taken : writeBus i wide off v s =
    guarded i (writeCase s i (off / 8 * 8) (busWrite wide off v)) s (writeAt i (off / 8 * 8) (busWrite wide off v) s) := by
  refine (writeBus_aligned h).trans (if_neg ?_)
  rw [htakes, List.isEmpty_eq_false_iff.mpr hne]
  exact Bool.false_ne_true

theorem writeBus_stops {n : Nat} (hcase : writeCase s i (off / 8 * 8) (busWrite wide off v) = some n) :
    writeBus i wide off v s = .fault (.undefinedCase n) := by
  rw [writeBus_taken h htakes hne, hcase]
  rfl

theorem writeBus_writes (hcase : writeCase s i (off / 8 * 8) (busWrite wide off v) = none) :
    writeBus i wide off v s = .next (settled i s (writeAt i (off / 8 * 8) (busWrite wide off v) s)) := by
  rw [writeBus_taken h htakes hne, hcase]
  rfl

end Taken

/-! ### The rows -/

theorem exec_registerWrite (i : InstId) (wide : Bool) (off v : Nat) (s : State) :
    exec (.registerWrite i wide off v) s = writeBus (bar2 i off).1 wide (bar2 i off).2 v s := rfl

/-- An offset in the instance's own slice is its own register's. -/
theorem bar2_own (h : i = .B ∨ off < 0x100000) : bar2 i off = (i, off) := by
  unfold bar2
  cases i with
  | A =>
    have hlt : off < 0x100000 := h.resolve_left InstId.noConfusion
    exact (if_pos (by simpa [ibit] using hlt)).trans (by simp [ibit])
  | B => exact (if_neg (by simp [ibit])).trans (by simp [ibit])

/-- From 0x10_0000 on BAR2 holds the slice of instance B. -/
theorem bar2_beyond (h : 0x100000 ≤ off) : bar2 .A off = (.B, off - 0x100000) := by
  unfold bar2
  exact (if_neg (by simpa [ibit] using h)).trans (by simp [ibit])

theorem aligned_sub (h : 0x100000 ≤ off) : aligned wide (off - 0x100000) = aligned wide off := by
  have h8 : (off - 0x100000) % 8 = off % 8 := by omega
  have h4 : (off - 0x100000) % 4 = off % 4 := by omega
  unfold aligned
  rw [h8, h4]

theorem exec_registerWrite_own (h : i = .B ∨ off < 0x100000) : exec (.registerWrite i wide off v) s = writeBus i wide off v s := by
  rw [exec_registerWrite, bar2_own h]

theorem registerWrite_misaligned (h : aligned wide off = false) : StopsAt (.registerWrite i wide off v) s 13 := by
  by_cases hown : i = .B ∨ off < 0x100000
  · exact (exec_registerWrite_own hown).trans (writeBus_misaligned h)
  · obtain ⟨hi, hoff⟩ := not_or.mp hown
    have hA : i = .A := by cases i <;> first | rfl | exact absurd rfl hi
    have hbeyond := Nat.le_of_not_lt hoff
    subst hA
    show exec _ s = _
    rw [exec_registerWrite, bar2_beyond hbeyond]
    exact writeBus_misaligned ((aligned_sub hbeyond).trans h)

/-- An access reaches a register of the row, at its own offset or, misaligned, in the one above. -/
theorem rowWrite_reached {p : Nat → Bool} (h : (p (off / 8 * 8) || p ((off + if wide then 7 else 3) / 8 * 8)) = true) :
    rowWrite p i wide off v s = writeBus i wide off v s := if_pos h

theorem rowWrite_stops {p : Nat → Bool} (h : (p (off / 8 * 8) || p ((off + if wide then 7 else 3) / 8 * 8)) = true) (ha : aligned wide off = false) :
    rowWrite p i wide off v s = .fault (.undefinedCase 13) :=
  (rowWrite_reached h).trans (writeBus_misaligned ha)

/-- A row's write of a register in the first MiB is the register file's. -/
theorem rowWrite_eq_registerWrite {p : Nat → Bool} (h : p (off / 8 * 8) = true) (hlow : off / 8 * 8 < 0x100000) :
    rowWrite p i wide off v s = exec (.registerWrite i wide off v) s :=
  (rowWrite_reached (by rw [h]; rfl)).trans (exec_registerWrite_own (.inr (by omega))).symm

/-- The registers that KITCHEN_LIMIT_WRITE and LATCH_CONFIG_WRITE write. -/
def kitchenRow (a : Nat) : Bool := decide (0x100 ≤ a) && decide (a < 0x120)
def latchRow (a : Nat) : Bool := decide (0x2000 ≤ a) && decide (a < 0x4000)

theorem and_decide {p q : Prop} [Decidable p] [Decidable q] (hp : p) (hq : q) : (decide p && decide q) = true := by
  rw [decide_eq_true hp, decide_eq_true hq]; rfl

/-- Settles O56: every row's write is `writeBus`, whose branches are its lemmas. -/
theorem registerWrites : Obligations.RegisterWrites := by
  intro i wide off v s w
  refine ⟨registerWrite_misaligned, fun h hown => ⟨fun hno => ?_, fun htakes hne => ⟨fun n hcase => ?_, fun hcase => ⟨_, ?_, rfl⟩⟩⟩, fun h => ?_, fun ha => ?_,
    fun hlo hhi => ?_, fun h => ?_, fun hlo hhi => ?_, fun h => ?_, fun h => ?_⟩
  · exact (exec_registerWrite_own hown).trans (writeBus_untaken h hno)
  · exact (exec_registerWrite_own hown).trans (writeBus_stops h htakes hne hcase)
  · exact (exec_registerWrite_own hown).trans (writeBus_writes h htakes hne hcase)
  · rw [exec_registerWrite, exec_registerWrite, bar2_beyond h, bar2_own (.inl rfl)]
  · exact ⟨fun h => rowWrite_stops (p := kitchenRow) h ha, fun h => rowWrite_stops (p := (· == 0x220)) h ha, fun h => rowWrite_stops (p := latchRow) h ha,
      fun h => rowWrite_stops (p := (· == 0xC08)) h ha, fun h => rowWrite_stops (p := (· == 0xD18)) h ha⟩
  · exact rowWrite_eq_registerWrite (p := kitchenRow) (and_decide hlo hhi) (by omega)
  · exact rowWrite_eq_registerWrite (p := (· == 0x220)) (beq_iff_eq.mpr h) (by omega)
  · exact rowWrite_eq_registerWrite (p := latchRow) (and_decide hlo hhi) (by omega)
  · exact rowWrite_eq_registerWrite (p := (· == 0xC08)) (beq_iff_eq.mpr h) (by omega)
  · exact rowWrite_eq_registerWrite (p := (· == 0xD18)) (beq_iff_eq.mpr h) (by omega)

/-! ### A write of 8 bytes -/

/-- A register whose writes meet no undefined case but that of a reserved bit: neither a ring index nor a latch. -/
def plainSlot (a : Nat) : Bool := decide (a < 0x800) || (decide (0xA00 ≤ a) && decide (a < 0x2000))

theorem writeCase_plain {a : Nat} {w : BusWrite} (hp : plainSlot a = true) (hclear : w.val &&& regReserved (slotFields s i a) = 0) :
    writeCase s i a w = none := by
  simp only [plainSlot, Bool.or_eq_true, Bool.and_eq_true, decide_eq_true_iff] at hp
  rw [writeCase, hclear, if_neg (by decide), if_neg (by omega), if_neg (by omega), if_neg (by omega)]

theorem val_wide : (busWrite true off v).val = BitVec.ofNat 64 v := rfl

/-- A field takes its part of a value of 8 bytes. -/
theorem field_wide {lo width : Nat} (hv : v < 2 ^ 64) (hwidth : 0 < width) (hend : lo + width ≤ 64) :
    (busWrite true off v).field lo width = some (v / 2 ^ lo % 2 ^ width) := by
  rw [field_busWrite (wide := true) hv hwidth hend, if_pos (reached_wide.mpr hend)]
  rw [show accessLo true off = 0 from if_pos (.inl rfl), Nat.pow_zero, Nat.mul_one]

theorem merged_wide {lo width old : Nat} (hv : v < 2 ^ 64) (hwidth : 0 < width) (hend : lo + width ≤ 64) :
    (busWrite true off v).merged lo width old = v / 2 ^ lo % 2 ^ width := by
  rw [BusWrite.merged, field_wide hv hwidth hend]
  rfl

theorem made_wide {lo width old : Nat} (f : Nat → Nat) (hv : v < 2 ^ 64) (hwidth : 0 < width) (hend : lo + width ≤ 64) :
    (busWrite true off v).made lo width f old = f (v / 2 ^ lo % 2 ^ width) := by
  rw [BusWrite.made, field_wide hv hwidth hend]
  rfl

/-- A value below a bound lies in the fields that cover every bit below it. -/
theorem inFields_of_covers {fs : List RegField} {n : Nat} (hcovers : ∀ k, k < n → ∃ f ∈ fs, Covers f k) (hv : v < 2 ^ n) : InFields fs v := fun k hbit =>
  hcovers k ((Nat.pow_lt_pow_iff_right (by decide)).mp (Nat.lt_of_le_of_lt (Nat.ge_two_pow_of_testBit hbit) hv))

/-- The one field in the lowest bits covers them. -/
theorem covers_low {fs : List RegField} {f : RegField} (hf : f ∈ fs) (hlo : f.lo = 0) {k : Nat} (hk : k < f.width) : ∃ f ∈ fs, Covers f k :=
  ⟨f, hf, by rw [hlo]; exact Nat.zero_le k, by rw [hlo, Nat.zero_add]; exact hk⟩

section Wide

variable {a : Nat} (hrow : exec c s = writeBus i true a v s) (ha : a % 8 = 0) (htakes : blockTakes s i a = true)
  {fs : List RegField} (hfs : slotFields s i a = fs) (hne : fs ≠ [])
include hrow ha htakes hfs hne

/-- A write of 8 bytes to a register that takes it. -/
theorem settles_wide (hcase : writeCase s i a (busWrite true a v) = none) : Settles c i s (fun t => t = writeAt i a (busWrite true a v) s) := by
  have hslot : a / 8 * 8 = a := by omega
  have haligned : aligned true a = true := beq_iff_eq.mpr ha
  have hw := writeBus_writes (i := i) (v := v) (s := s) haligned (by rw [hslot]; exact htakes) (by rw [hslot, hfs]; exact hne) (by rw [hslot]; exact hcase)
  rw [hslot] at hw
  exact ⟨_, hrow.trans hw, rfl⟩

/-- Where its value fits the fields. -/
theorem settles_fits (hp : plainSlot a = true) (hfits : InFields fs v) : Settles c i s (fun t => t = writeAt i a (busWrite true a v) s) :=
  settles_wide hrow ha htakes hfs hne (writeCase_plain hp (by rw [hfs]; exact and_regReserved_of_inFields hfits))

end Wide

theorem settles_imp {p q : State → Prop} (h : Settles c i s p) (hpq : ∀ t, p t → q t) : Settles c i s q := by
  obtain ⟨t, hexec, hp⟩ := h
  exact ⟨t, hexec, hpq t hp⟩

end Sys2Proof.RegisterRules

/-! SUPPORT. The Foyer's marks, the fence masks and the write-one-to-clear bits beside them (spec/19 R422-R425, spec/13 R286). -/

namespace Sys2Proof.MarkRules

open Sys2Proof Sys2Proof.Machine Sys2Proof.Laws Sys2Proof.Limits Sys2Proof.RegisterRules

variable {i : InstId} {s : State} {v : Nat}

/-! ### The Foyer's marks -/

/-- A value of a field that fits it is the value written. -/
theorem field_low {lo width off : Nat} (h : v < 2 ^ width) (hw : 0 < width) (hend : width ≤ 64) (hlo : lo = 0) :
    (busWrite true off v).field lo width = some v := by
  subst hlo
  have hv : v < 2 ^ 64 := Nat.lt_of_lt_of_le h (Nat.pow_le_pow_right (by decide) hend)
  rw [field_wide hv hw (by omega), Nat.pow_zero, Nat.div_one, Nat.mod_eq_of_lt h]

/-- The headroom is as written; where it is lower than it was, the deferred requests are evaluated again. -/
def headroomSet (i : InstId) (v : Nat) (s : State) : State :=
  let u := modFoyer i (fun f => { f with pageHeadroom := v }) s
  if v < (mir s i).foyer.pageHeadroom then foyerRound i u else u

theorem writeFoyer_headroom (h : v < 2 ^ 24) : writeFoyer i 0 (busWrite true 0x200 v) s = headroomSet i v s := by
  have hm (f : Foyer) : (busWrite true 0x200 v).merged 0 24 f.pageHeadroom = v := by
    rw [BusWrite.merged, field_low h (by decide) (by decide) rfl]
    rfl
  have hu : modFoyer i (fun f => { f with pageHeadroom := (busWrite true 0x200 v).merged 0 24 f.pageHeadroom }) s = modFoyer i (fun f => { f with pageHeadroom := v }) s := by
    simp only [hm]
  have hmir : (mir (modFoyer i (fun f => { f with pageHeadroom := v }) s) i).foyer.pageHeadroom = v := by cases i <;> rfl
  show (if (mir (modFoyer i _ s) i).foyer.pageHeadroom < (mir s i).foyer.pageHeadroom then foyerRound i (modFoyer i _ s) else modFoyer i _ s) = _
  rw [hu, hmir]
  rfl

theorem settles_pageHeadroomWrite (htakes : limitsTake s i = true) (h : v < 2 ^ 24) : Settles (.pageHeadroomWrite i true v) i s (fun t => t = headroomSet i v s) := by
  have hset := settles_fits (c := .pageHeadroomWrite i true v) (i := i) (v := v) (a := 0x200) (s := s) rfl rfl htakes
    (fs := [fRw 0 24 (mir s i).foyer.pageHeadroom]) rfl (List.cons_ne_nil _ _) rfl
    (inFields_of_covers (fun _ hk => covers_low List.mem_cons_self rfl hk) h)
  exact settles_imp hset fun t ht => ht.trans (writeFoyer_headroom h)

theorem writeFoyer_coolMark (h : v < 2 ^ 17) : writeFoyer i 8 (busWrite true 0x208 v) s =
    coolExcess i (hotCount (mir s i)) (modFoyer i (fun f => { f with coolMark := min 65536 v }) s) := by
  have hcount : hotCount (mir (modFoyer i (fun f => { f with coolMark := min 65536 v }) s) i) = hotCount (mir s i) := by cases i <;> rfl
  rw [← hcount]
  unfold writeFoyer
  rw [field_low h (by decide) (by decide) rfl]
  rfl

theorem settles_coolMarkWrite (htakes : limitsTake s i = true) (h : v < 2 ^ 17) : Settles (.coolMarkWrite i true v) i s (fun t =>
    t = coolExcess i (hotCount (mir s i)) (modFoyer i (fun f => { f with coolMark := min 65536 v }) s)) := by
  have hset := settles_fits (c := .coolMarkWrite i true v) (i := i) (v := v) (a := 0x208) (s := s) rfl rfl htakes
    (fs := [fRw 0 17 (mir s i).foyer.coolMark]) rfl (List.cons_ne_nil _ _) rfl
    (inFields_of_covers (fun _ hk => covers_low List.mem_cons_self rfl hk) h)
  exact settles_imp hset fun t ht => ht.trans (writeFoyer_coolMark h)

/-! ### `epoch_retired` -/

/-- The register's one field, of 64 bits. -/
theorem slotFields_epochRetired (s : State) (i : InstId) : slotFields s i 0x220 = [fW1c 0 64 (mir s i).dir.epochRetired.toNat] := rfl

theorem inFields_epochRetired {n x : Nat} (h : x < 2 ^ 64) : InFields [fW1c 0 64 n] x :=
  inFields_of_covers (fun _ hk => covers_low List.mem_cons_self rfl hk) h

theorem settles_epochRetiredClear (htakes : limitsTake s i = true) (h : v < 2 ^ 64) : Settles (.epochRetiredClear i true 0x220 v) i s (fun t =>
    t = modDir i (fun d => { d with epochRetired := d.epochRetired &&& ~~~BitVec.ofNat 64 v }) s) := by
  have hset := settles_fits (c := .epochRetiredClear i true 0x220 v) (i := i) (v := v) (a := 0x220) (s := s) rfl rfl htakes
    (slotFields_epochRetired s i) (List.cons_ne_nil _ _) rfl (inFields_epochRetired h)
  refine settles_imp hset fun t ht => ht.trans ?_
  show writeFoyer i 0x20 _ s = _
  unfold writeFoyer
  rw [field_low h (by decide) (by decide) rfl]
  rfl

/-- Of a value, an access of 4 bytes takes the low 32 bits. -/
theorem busWrite_narrow (off v : Nat) : busWrite false off v = busWrite false off (v % 2 ^ 32) := by
  unfold busWrite access
  rw [Nat.mod_mod]
  rfl

/-- An access of 4 bytes does not reach the whole of the register. -/
theorem field_narrow (off v : Nat) : (busWrite false off v).field 0 64 = none := by
  have hv : v % 2 ^ 32 < 2 ^ accessWidth false := Nat.mod_lt _ (by decide)
  rw [busWrite_narrow, field_busWrite hv (by decide) (by decide), if_neg]
  by_cases h : off % 8 = 0
  · rw [reached_lowHalf h]; decide
  · rw [reached_highHalf h]; decide

theorem settles_epochRetiredClear_half {off : Nat} (hoff : off = 0x220 ∨ off = 0x224) (htakes : limitsTake s i = true) :
    Settles (.epochRetiredClear i false off v) i s (fun t => t = s) := by
  have hslot : off / 8 * 8 = 0x220 := by omega
  have haligned : aligned false off = true := by rcases hoff with rfl | rfl <;> rfl
  have hcase : writeCase s i 0x220 (busWrite false off v) = none := by
    refine writeCase_plain rfl ?_
    have hv : v % 2 ^ 32 < 2 ^ accessWidth false := Nat.mod_lt _ (by decide)
    rw [busWrite_narrow, busWrite_eq hv, slotFields_epochRetired]
    exact and_regReserved_of_inFields (inFields_epochRetired (value_lt hv))
  refine ⟨writeAt i 0x220 (busWrite false off v) s, ?_, ?_⟩
  · have hw := writeBus_writes (i := i) (v := v) (s := s) haligned (by rw [hslot]; exact htakes)
      (by rw [hslot, slotFields_epochRetired]; exact List.cons_ne_nil _ _) (by rw [hslot]; exact hcase)
    rw [hslot] at hw
    exact (rowWrite_reached (p := (· == 0x220)) (by rw [hslot]; rfl)).trans hw
  · show writeFoyer i 0x20 _ s = s
    unfold writeFoyer
    rw [field_narrow]
    rfl

/-! ### Fence masks -/

/-- The outpost with the instance's `fence_refused` as given. -/
def putRefused (i : InstId) (b : Bool) (x : Outpost) : Outpost :=
  match i with
  | .A => { x with fenceRefusedA := b }
  | .B => { x with fenceRefusedB := b }

theorem refusedOf_putRefused (i : InstId) (b : Bool) (x : Outpost) : refusedOf i (putRefused i b x) = b := by cases i <;> rfl

theorem fenceMask_putRefused (i : InstId) (b : Bool) (x : Outpost) : (putRefused i b x).fenceMask = x.fenceMask := by cases i <;> rfl

section Fence

variable {o : Nat} (ho : o < 8)
include ho

theorem slotFields_outpost (k : Nat) (hk : k < 32) : slotFields s i (0x300 + 32 * o + k) = outpostRegs (getInst s i) o (getOutpost s o) k := by
  have hdiv : (0x300 + 32 * o + k - 0x300) / 32 = o := by omega
  have hmod : (0x300 + 32 * o + k) % 32 = k := by omega
  rw [slotFields, if_pos (by omega), regFields, if_neg (by omega), if_neg (by omega), if_neg (by omega), if_pos (by omega), hdiv, hmod]

theorem blockTakes_outpost (k : Nat) (hk : k < 32) : blockTakes s i (0x300 + 32 * o + k) = limitsTake s i := if_pos (by omega)

theorem writeAt_outpost (w : BusWrite) (k : Nat) (hk : k < 32) : writeAt i (0x300 + 32 * o + k) w s = writeOutpost i o k w s := by
  have hdiv : (0x300 + 32 * o + k - 0x300) / 32 = o := by omega
  have hmod : (0x300 + 32 * o + k) % 32 = k := by omega
  rw [writeAt, if_neg (by omega), if_neg (by omega), if_neg (by omega), if_pos (by omega), hdiv, hmod]

theorem plainSlot_outpost (k : Nat) (hk : k < 32) : plainSlot (0x300 + 32 * o + k) = true := by
  unfold plainSlot
  rw [Bool.or_eq_true, decide_eq_true_iff]
  left
  omega

/-- A mask that is written whole acts as `writeFence` says. -/
theorem settles_fenceMaskWrite (htakes : limitsTake s i = true) (h : v < 2 ^ 32) :
    Settles (.fenceMaskWrite i o true v) i s (fun t => t = writeFence i o v s) := by
  have hset := settles_fits (c := .fenceMaskWrite i o true v) (i := i) (v := v) (a := 0x300 + 32 * o + 0) (s := s)
    (by show writeBus i true (0x300 + 32 * (o % 8)) v s = _; rw [Nat.mod_eq_of_lt ho]; rfl) (by omega)
    ((blockTakes_outpost ho 0 (by decide)).trans htakes) (slotFields_outpost ho 0 (by decide)) (List.cons_ne_nil _ _) (plainSlot_outpost ho 0 (by decide))
    (inFields_of_covers (fun _ hk => covers_low List.mem_cons_self rfl hk) h)
  refine settles_imp hset fun t ht => ht.trans ?_
  rw [writeAt_outpost ho _ 0 (by decide)]
  unfold writeOutpost
  rw [field_low h (by decide) (by decide) rfl]
  rfl

/-- A write of 1 clears `fence_refused`. -/
theorem settles_fenceRefusedClear (htakes : limitsTake s i = true) : Settles (.fenceRefusedClear i o true 8) i s (fun t =>
    t = modOutpost o (putRefused i false) s) := by
  have hfits : InFields (outpostRegs (getInst s i) o (getOutpost s o) 8) 8 := by
    intro k hbit
    have hk : k = 3 := by
      have : Nat.testBit (2 ^ 3) k = true := hbit
      rw [Nat.testBit_two_pow] at this
      exact (of_decide_eq_true this).symm
    subst hk
    exact ⟨fW1c 3 1 (bit (refusedOf (getInst s i).id (getOutpost s o))), by simp [outpostRegs], Nat.le_refl 3, Nat.lt_succ_self 3⟩
  have hset := settles_fits (c := .fenceRefusedClear i o true 8) (i := i) (v := 8) (a := 0x300 + 32 * o + 8) (s := s)
    (by show writeBus i true (0x308 + 32 * (o % 8)) 8 s = _; rw [Nat.mod_eq_of_lt ho]; congr 1; omega) (by omega)
    ((blockTakes_outpost ho 8 (by decide)).trans htakes) (slotFields_outpost ho 8 (by decide)) (List.cons_ne_nil _ _) (plainSlot_outpost ho 8 (by decide)) hfits
  refine settles_imp hset fun t ht => ht.trans ?_
  have hbit : (busWrite true (0x300 + 32 * o + 8) 8).field 3 1 = some 1 := field_wide (by decide) (by decide) (by decide)
  rw [writeAt_outpost ho _ 8 (by decide)]
  cases i <;> exact if_pos (by rw [hbit]; rfl)

end Fence

theorem writeFence_stranger {o : Nat} (h : (getOutpost s o).owner ≠ some i) : writeFence i o v s = s := if_pos (bne_iff_ne.mpr h)

/-- The owner's mask that would fence more than eight groups is refused. -/
theorem writeFence_refused {o : Nat} (h : (getOutpost s o).owner = some i) (h8 : 8 < fencedCount (BitVec.ofNat 32 v ||| (getOutpost s o).testFence)) :
    writeFence i o v s = modOutpost o (putRefused i true) s := by
  have hown : ¬ ((getOutpost s o).owner != some i) = true := by rw [h, bne_self_eq_false]; exact Bool.false_ne_true
  cases i <;> exact (if_neg hown).trans (if_pos h8)

/-- The outpost with the mask in place. -/
def fenced (o v : Nat) (s : State) : State := modOutpost o (fun x => fenceChange o x { x with fenceMask := BitVec.ofNat 32 v }) s

theorem writeFence_sets {o : Nat} (h : (getOutpost s o).owner = some i) (h8 : fencedCount (BitVec.ofNat 32 v ||| (getOutpost s o).testFence) ≤ 8) :
    writeFence i o v s = fenced o v s ∨ ∃ n, writeFence i o v s = outRingOf i o 2 0 0 n (fenced o v s) := by
  have hset : writeFence i o v s = if (fencedOf (getOutpost s o) == BitVec.ofNat 32 v ||| (getOutpost s o).testFence) = true then fenced o v s
      else outRingOf i o 2 0 0 (BitVec.ofNat 32 v ||| (getOutpost s o).testFence).toNat (fenced o v s) :=
    (if_neg (by rw [h, bne_self_eq_false]; exact Bool.false_ne_true)).trans (if_neg (Nat.not_lt.mpr h8))
  rw [hset]
  split
  · exact .inl rfl
  · exact .inr ⟨_, rfl⟩

/-- What a mask in place leaves of the outpost, the others and the mirrored state. -/
theorem fenced_parts {o : Nat} (ho : o < s.outposts.length) {t : State} (houts : ∀ p, getOutpost t p = getOutpost (fenced o v s) p)
    (hmir : mir t i = mir (fenced o v s) i) :
    (getOutpost t o).fenceMask = BitVec.ofNat 32 v ∧ (getOutpost t o).testFence = (getOutpost s o).testFence ∧
      (getOutpost t o).larder = (getOutpost s o).larder ∧ (∀ p, p ≠ o → getOutpost t p = getOutpost s p) ∧ mir t i = mir s i := by
  have hown : getOutpost t o = fenceChange o (getOutpost s o) { getOutpost s o with fenceMask := BitVec.ofNat 32 v } :=
    (houts o).trans (OutpostRules.getOutpost_modOutpost _ ho)
  refine ⟨by rw [hown]; rfl, by rw [hown]; rfl, by rw [hown]; rfl, fun p hp => ?_, hmir.trans (by cases i <;> rfl)⟩
  exact (houts p).trans (OutpostRules.getOutpost_modOutpost_ne _ s hp)

theorem writeFence_parts {o : Nat} (ho : o < s.outposts.length) (h : (getOutpost s o).owner = some i)
    (h8 : fencedCount (BitVec.ofNat 32 v ||| (getOutpost s o).testFence) ≤ 8) :
    let t := writeFence i o v s
    (getOutpost t o).fenceMask = BitVec.ofNat 32 v ∧ (getOutpost t o).testFence = (getOutpost s o).testFence ∧
      (getOutpost t o).larder = (getOutpost s o).larder ∧ (∀ p, p ≠ o → getOutpost t p = getOutpost s p) ∧ mir t i = mir s i := by
  intro t
  rcases writeFence_sets h h8 with ht | ⟨n, ht⟩
  · exact fenced_parts ho (fun p => by rw [show t = _ from ht]) (by rw [show t = _ from ht])
  · refine fenced_parts ho (fun p => ?_) ?_ <;> rw [show t = _ from ht]
    · cases i <;> rfl
    · cases i <;> rfl

/-! ### `wdog_expired` -/

theorem settles_wdogExpiredClear (hd : deaf s i = false) (h : v < 2 ^ 4) : Settles (.wdogExpiredClear i true v) i s (fun t =>
    t = modHearth i (fun x => { x with wdogExpired := x.wdogExpired &&& ~~~BitVec.ofNat 4 v }) s) := by
  have hset := settles_fits (c := .wdogExpiredClear i true v) (i := i) (v := v) (a := 0x420) (s := s) rfl rfl (by show (!deaf s i) = true; rw [hd]; rfl)
    (fs := (List.range 4).map fun b => fW1c b 1 (bit ((getInst s i).hearth.wdogExpired.getLsbD b))) rfl (List.cons_ne_nil _ _) rfl
    (inFields_of_covers (n := 4) (fun k hk => ⟨_, List.mem_map_of_mem (List.mem_range.mpr hk), Nat.le_refl k, Nat.lt_succ_self k⟩) h)
  refine settles_imp hset fun t ht => ht.trans ?_
  show modHearth i (fun x => { x with wdogExpired := x.wdogExpired &&& ~~~(busWrite true 0x420 v).val.setWidth 4 }) s = _
  rw [val_wide, BitVec.setWidth_ofNat_of_le (by decide)]

/-- Settles O58: each register's fields take the value written, and its row of the register file's writes says what follows. -/
theorem marksAndFences : Obligations.MarksAndFences := by
  intro i s v
  refine ⟨settles_pageHeadroomWrite, fun ht hv => settles_imp (settles_coolMarkWrite ht hv) fun t h => ⟨_, rfl, h⟩, settles_epochRetiredClear,
    fun off => settles_epochRetiredClear_half, fun o ho8 hol ht hv => ⟨fun hno => ?_, fun hown h8 => ?_, fun hown h8 => ?_, ?_⟩, settles_wdogExpiredClear⟩
  · exact settles_imp (settles_fenceMaskWrite ho8 ht hv) fun t h => h.trans (writeFence_stranger hno)
  · refine settles_imp (settles_fenceMaskWrite ho8 ht hv) fun t h => ?_
    subst h
    exact writeFence_parts hol hown h8
  · refine settles_imp (settles_fenceMaskWrite ho8 ht hv) fun t h => ?_
    rw [writeFence_refused hown h8] at h
    subst h
    refine ⟨?_, ?_, OutpostRules.onlyOutpost_modOutpost o _ s⟩
    · rw [OutpostRules.getOutpost_modOutpost _ hol]; exact fenceMask_putRefused i true _
    · rw [OutpostRules.getOutpost_modOutpost _ hol]; exact refusedOf_putRefused i true _
  · refine settles_imp (settles_fenceRefusedClear ho8 ht) fun t h => ?_
    subst h
    refine ⟨?_, ?_, OutpostRules.onlyOutpost_modOutpost o _ s⟩
    · rw [OutpostRules.getOutpost_modOutpost _ hol]; exact refusedOf_putRefused i false _
    · rw [OutpostRules.getOutpost_modOutpost _ hol]; exact fenceMask_putRefused i false _

end Sys2Proof.MarkRules

/-! SUPPORT. Latches, timing, seeds, trace and causes as the host writes them (spec/15 R329, R330, spec/16 R356, R357, spec/18 R394, R400, R402, R409). -/

namespace Sys2Proof.ControlRules

open Sys2Proof Sys2Proof.Machine Sys2Proof.Laws Sys2Proof.Limits Sys2Proof.RegisterRules Sys2Proof.MarkRules

variable {i : InstId} {s : State} {a b v : Nat}

/-! ### Two fields in one register -/

/-- A value of the lower field and one above it. -/
theorem low_part {lo width : Nat} (ha : a < 2 ^ lo) (hw : width = lo) : (a + 2 ^ lo * b) / 2 ^ 0 % 2 ^ width = a := by
  subst hw
  rw [Nat.pow_zero, Nat.div_one, Nat.add_mul_mod_self_left, Nat.mod_eq_of_lt ha]

theorem high_part {lo width : Nat} (ha : a < 2 ^ lo) (hb : b < 2 ^ width) : (a + 2 ^ lo * b) / 2 ^ lo % 2 ^ width = b := by
  rw [Nat.add_mul_div_left _ _ (Nat.two_pow_pos lo), Nat.div_eq_of_lt ha, Nat.zero_add, Nat.mod_eq_of_lt hb]

theorem pair_lt {lo width n : Nat} (ha : a < 2 ^ lo) (hb : b < 2 ^ width) (hn : lo + width ≤ n) : a + 2 ^ lo * b < 2 ^ n :=
  calc a + 2 ^ lo * b < 2 ^ lo + 2 ^ lo * b := Nat.add_lt_add_right ha _
    _ = 2 ^ lo * (b + 1) := by rw [Nat.mul_add_one, Nat.add_comm]
    _ ≤ 2 ^ lo * 2 ^ width := Nat.mul_le_mul_left _ hb
    _ = 2 ^ (lo + width) := (Nat.pow_add 2 lo width).symm
    _ ≤ 2 ^ n := Nat.pow_le_pow_right (by decide) hn

theorem inFields_pair {fs : List RegField} {lo width : Nat} (hlow : (0, lo) ∈ fs.map fun f => (f.lo, f.width))
    (hhigh : (lo, width) ∈ fs.map fun f => (f.lo, f.width)) (ha : a < 2 ^ lo) (hb : b < 2 ^ width) : InFields fs (a + 2 ^ lo * b) :=
  (inFields_of_lt hlow ha).add ha hhigh hb

/-- An access of 8 bytes reaches every field. -/
theorem wholly_wide (off v : Nat) (f : RegField) : wholly (busWrite true off v).reach f = true := by
  show (f.mask &&& BitVec.allOnes 64 == f.mask) = true
  rw [BitVec.and_allOnes, beq_self_eq_true]

/-! ### Latches -/

section Latch

variable {n : Nat} (hn : n < 256)
include hn

theorem slotFields_latch : slotFields s i (0x2000 + 32 * n + 8) =
    [fRw 0 16 (getLatch (mir s i) n).maxHold, fRw 16 1 (bit (getLatch (mir s i) n).enable)] := by
  have hdiv : (0x2000 + 32 * n + 8 - 0x2000) / 32 = n := by omega
  have hmod : (0x2000 + 32 * n + 8) % 32 = 8 := by omega
  rw [slotFields, if_pos (by omega), regFields]
  rw [if_neg (by omega), if_neg (by omega), if_neg (by omega), if_neg (by omega), if_neg (by omega), if_neg (by omega), if_neg (by omega), if_neg (by omega),
    if_neg (by omega), if_neg (by omega), if_neg (by omega), if_neg (by omega), if_neg (by omega), if_pos (by omega), hdiv, hmod]
  rfl

theorem blockTakes_latch (h : mirrorTakes s i = true) : blockTakes s i (0x2000 + 32 * n + 8) = true := by
  rw [blockTakes, if_neg (by omega), if_neg (by omega), if_pos (by omega), h]

theorem writeAt_latch (w : BusWrite) : writeAt i (0x2000 + 32 * n + 8) w s = writeLatch i n 8 w s := by
  have hdiv : (0x2000 + 32 * n + 8 - 0x2000) / 32 = n := by omega
  have hmod : (0x2000 + 32 * n + 8) % 32 = 8 := by omega
  rw [writeAt, if_neg (by omega), if_neg (by omega), if_neg (by omega), if_neg (by omega), if_neg (by omega), if_neg (by omega), if_neg (by omega),
    if_neg (by omega), if_neg (by omega), if_neg (by omega), if_neg (by omega), if_neg (by omega), if_neg (by omega), if_pos (by omega), hdiv, hmod]

/-- A write of its configuration meets an undefined case where the latch is in use. -/
theorem writeCase_latch {off : Nat} (hfits : InFields (slotFields s i (0x2000 + 32 * n + 8)) v) :
    writeCase s i (0x2000 + 32 * n + 8) (busWrite true off v) =
      if latchIdle (mir s i) (getLatch (mir s i) n) (getLatch (mir s i) n).models = true then none else some 10 := by
  have hdiv : (0x2000 + 32 * n + 8 - 0x2000) / 32 = n := by omega
  have hmod : (0x2000 + 32 * n + 8) % 32 = 8 := by omega
  have hwrites : writesField s i (0x2000 + 32 * n + 8) (busWrite true off v) = true := by
    rw [writesField, slotFields_latch hn, List.any_cons, wholly_wide]
    rfl
  have hclear : (busWrite true off v).val &&& regReserved (slotFields s i (0x2000 + 32 * n + 8)) = 0 := and_regReserved_of_inFields hfits
  rw [writeCase, hclear, if_neg (by decide), if_neg (by omega), if_neg (by omega), if_pos ⟨by omega, by omega, .inl hmod, hwrites⟩, hdiv, hmod]
  rfl

end Latch

/-- An entry that `f` makes of the list's own is the entry changed by `f`. -/
theorem modAt_const_getD {α : Type} (f : α → α) (d : α) : ∀ (l : List α) (k : Nat), modAt l k (fun _ => f (l.getD k d)) = modAt l k f
  | [], _ => rfl
  | _ :: _, 0 => rfl
  | x :: xs, k + 1 => congrArg (x :: ·) (modAt_const_getD f d xs k)

/-- A latch's bound and its enable as they are written. -/
def configured (a b : Nat) (l : Latch) : Latch := { l with maxHold := a, enable := b == 1 }

theorem latchWritten_config {off : Nat} (ha : a < 2 ^ 16) (hb : b < 2) (l : Latch) : latchWritten 8 (busWrite true off (a + 2 ^ 16 * b)) l = configured a b l := by
  have hv : a + 2 ^ 16 * b < 2 ^ 64 := pair_lt (width := 1) ha hb (by decide)
  have hhold : (busWrite true off (a + 2 ^ 16 * b)).merged 0 16 l.maxHold = a := (merged_wide hv (by decide) (by decide)).trans (low_part ha rfl)
  have henable : (busWrite true off (a + 2 ^ 16 * b)).merged 16 1 (bit l.enable) = b := (merged_wide hv (by decide) (by decide)).trans (high_part ha hb)
  unfold latchWritten configured
  rw [hhold, henable]
  rfl

theorem latchConfig_fits {n : Nat} (hn : n < 256) (ha : a < 2 ^ 16) (hb : b < 2) : InFields (slotFields s i (0x2000 + 32 * n + 8)) (a + 2 ^ 16 * b) := by
  rw [slotFields_latch hn]
  exact inFields_pair (width := 1) List.mem_cons_self (List.mem_cons_of_mem _ List.mem_cons_self) ha hb

/-- The latch with its configuration, and its entry in the journal. -/
def latchConfigured (i : InstId) (n a b : Nat) (s : State) : State :=
  let l := configured a b (getLatch (mir s i) n)
  journalObj i (.latch n l.maxHold l.enable l.models) (modLatch i n (fun _ => l) s)

theorem latchConfigured_parts (i : InstId) (n a b : Nat) (s : State) :
    let t := latchConfigured i n a b s
    mir t i = { mir s i with latches := modAt (mir s i).latches n (configured a b) } ∧ t.tick = s.tick ∧ t.hbm = s.hbm := by
  intro t
  refine ⟨?_, by cases i <;> rfl, by cases i <;> rfl⟩
  rw [← modAt_const_getD (configured a b) {} (mir s i).latches n]
  cases i <;> rfl

/-- The row's write of an 8-byte configuration is the register file's. -/
theorem latchConfigWrite_row {n : Nat} (hn : n < 256) (v : Nat) : exec (.latchConfigWrite i true (0x2000 + 32 * n + 8) v) s = writeBus i true (0x2000 + 32 * n + 8) v s := by
  have hslot : (0x2000 + 32 * n + 8) / 8 * 8 = 0x2000 + 32 * n + 8 := by omega
  refine rowWrite_reached (p := latchRow) ?_
  rw [hslot, show latchRow (0x2000 + 32 * n + 8) = true from and_decide (by omega) (by omega)]
  rfl

theorem settles_latchConfigWrite {n : Nat} (hn : n < 256) (ht : mirrorTakes s i = true) (ha : a < 2 ^ 16) (hb : b < 2)
    (hidle : latchIdle (mir s i) (getLatch (mir s i) n) (getLatch (mir s i) n).models = true) :
    Settles (.latchConfigWrite i true (0x2000 + 32 * n + 8) (a + 2 ^ 16 * b)) i s (fun t => t = latchConfigured i n a b s) := by
  have hset := settles_wide (latchConfigWrite_row (i := i) (s := s) hn (a + 2 ^ 16 * b)) (by omega) (blockTakes_latch hn ht) (slotFields_latch hn)
    (List.cons_ne_nil _ _) ((writeCase_latch hn (latchConfig_fits hn ha hb)).trans (if_pos hidle))
  refine settles_imp hset fun t ht => ht.trans ?_
  rw [writeAt_latch hn]
  unfold writeLatch
  rw [latchWritten_config ha hb]
  rfl

theorem stops_latchConfigWrite {n : Nat} (hn : n < 256) (ht : mirrorTakes s i = true) (ha : a < 2 ^ 16) (hb : b < 2)
    (hused : latchIdle (mir s i) (getLatch (mir s i) n) (getLatch (mir s i) n).models = false) :
    StopsAt (.latchConfigWrite i true (0x2000 + 32 * n + 8) (a + 2 ^ 16 * b)) s 10 := by
  have hslot : (0x2000 + 32 * n + 8) / 8 * 8 = 0x2000 + 32 * n + 8 := by omega
  have haligned : aligned true (0x2000 + 32 * n + 8) = true := beq_iff_eq.mpr (by omega)
  refine (latchConfigWrite_row hn _).trans (writeBus_stops haligned ?_ ?_ ?_) <;> rw [hslot]
  · exact blockTakes_latch hn ht
  · rw [slotFields_latch hn]; exact List.cons_ne_nil _ _
  · rw [writeCase_latch hn (latchConfig_fits hn ha hb), hused]; rfl

/-! ### The Stairwell's times and seed -/

theorem heard_of_deaf (h : deaf s i = false) : (!deaf s i) = true := by rw [h]; rfl

theorem settles_stairwellTimingWrite (hd : deaf s i = false) (ha : a < 2 ^ 16) (hb : b < 2 ^ 32) :
    Settles (.stairwellTimingWrite i true 0xC08 (a + 2 ^ 16 * b)) i s (fun t =>
      t = modStair i (fun x => { x with retryTicks := max 16 a, timeoutTicks := max 1000 b }) s) := by
  have hv : a + 2 ^ 16 * b < 2 ^ 64 := pair_lt ha hb (by decide)
  have hset := settles_fits (c := .stairwellTimingWrite i true 0xC08 (a + 2 ^ 16 * b)) (i := i) (v := a + 2 ^ 16 * b) (a := 0xC08) (s := s) rfl rfl (heard_of_deaf hd)
    (fs := [fRw 0 16 (getInst s i).stair.retryTicks, fRw 16 32 (getInst s i).stair.timeoutTicks]) rfl (List.cons_ne_nil _ _) rfl
    (inFields_pair List.mem_cons_self (List.mem_cons_of_mem _ List.mem_cons_self) ha hb)
  refine settles_imp hset fun t ht => ht.trans ?_
  have hretry (x : Stairwell) : (busWrite true 0xC08 (a + 2 ^ 16 * b)).made 0 16 (max 16) x.retryTicks = max 16 a :=
    (made_wide _ hv (by decide) (by decide)).trans (congrArg (max 16) (low_part ha rfl))
  have htimeout (x : Stairwell) : (busWrite true 0xC08 (a + 2 ^ 16 * b)).made 16 32 (max 1000) x.timeoutTicks = max 1000 b :=
    (made_wide _ hv (by decide) (by decide)).trans (congrArg (max 1000) (high_part ha hb))
  show writeStair i 0x08 _ s = _
  unfold writeStair
  simp only [hretry, htimeout]

theorem settles_injectionSeedWrite (hd : deaf s i = false) (ha : a < 2 ^ 64) : Settles (.injectionSeedWrite i true a) i s (fun t =>
    t = modStair i (fun x => { x with seedHi := BitVec.ofNat 64 a, classes := x.classes.map fun c => { c with count := 0 } }) s) := by
  have hset := settles_fits (c := .injectionSeedWrite i true a) (i := i) (v := a) (a := 0xC50) (s := s) rfl rfl (heard_of_deaf hd)
    (fs := [fRw 0 64 (getInst s i).stair.seedHi.toNat]) rfl (List.cons_ne_nil _ _) rfl
    (inFields_of_covers (fun _ hk => covers_low List.mem_cons_self rfl hk) ha)
  refine settles_imp hset fun t ht => ht.trans ?_
  show writeStair i 0x50 _ s = _
  unfold writeStair
  rw [field_low ha (by decide) (by decide) rfl]
  rfl

/-! ### The Study -/

theorem settles_traceRpWrite (ht : mirrorTakes s i = true ∨ deaf s i = false) (hb : b < 2 ^ 32) : Settles (.traceRpWrite i true 0xD18 (2 ^ 32 * b)) i s (fun t =>
    t = modStudy i (fun y => { y with traceRp := b }) s) := by
  have hd : (!deaf s i) = true := ht.elim (fun h => (Bool.and_eq_true_iff.mp h).1) heard_of_deaf
  have hzero : (0 : Nat) < 2 ^ 32 := by decide
  have hv : 2 ^ 32 * b < 2 ^ 64 := by
    have := pair_lt (n := 64) hzero hb (by decide)
    rwa [Nat.zero_add] at this
  have hfits : InFields [fRo 0 32 (getInst s i).study.traceWp, fRw 32 32 (getInst s i).study.traceRp] (2 ^ 32 * b) := by
    have := inFields_pair (fs := [fRo 0 32 (getInst s i).study.traceWp, fRw 32 32 (getInst s i).study.traceRp]) List.mem_cons_self
      (List.mem_cons_of_mem _ List.mem_cons_self) hzero hb
    rwa [Nat.zero_add] at this
  have hset := settles_fits (c := .traceRpWrite i true 0xD18 (2 ^ 32 * b)) (i := i) (v := 2 ^ 32 * b) (a := 0xD18) (s := s) rfl rfl hd
    (fs := [fRo 0 32 (getInst s i).study.traceWp, fRw 32 32 (getInst s i).study.traceRp]) rfl (List.cons_ne_nil _ _) rfl hfits
  refine settles_imp hset fun t ht => ht.trans ?_
  have hmerged (y : Study) : (busWrite true 0xD18 (2 ^ 32 * b)).merged 32 32 y.traceRp = b := by
    rw [merged_wide hv (by decide) (by decide), Nat.mul_div_cancel_left _ (by decide), Nat.mod_eq_of_lt hb]
  show writeStudy i 0x18 _ s = _
  unfold writeStudy
  simp only [hmerged]

/-- The dump register: `request` in its lowest bit, `ack` above it. -/
theorem settles_dumpWrite {c : Instr} (hrow : exec c s = writeBus i true 0xD08 v s) (hd : deaf s i = false) (hv : v < 2 ^ 2) :
    Settles c i s (fun t => t = writeStudy i 8 (busWrite true 0xD08 v) s) :=
  settles_fits hrow rfl (heard_of_deaf hd) (fs := [fWo 0 1, fWo 1 1]) rfl (List.cons_ne_nil _ _) rfl
    (inFields_of_covers (fun k hk => by
      have : k = 0 ∨ k = 1 := by omega
      rcases this with rfl | rfl
      · exact ⟨_, List.mem_cons_self, Nat.le_refl 0, Nat.lt_succ_self 0⟩
      · exact ⟨_, List.mem_cons_of_mem _ List.mem_cons_self, Nat.le_refl 1, Nat.lt_succ_self 1⟩) hv)

theorem settles_dumpRequest (hd : deaf s i = false) : Settles (.dumpRequest i true 1) i s (fun t => t = requestDump i s) :=
  settles_imp (settles_dumpWrite (i := i) (v := 1) rfl hd (by decide)) fun t ht => ht.trans rfl

theorem settles_dumpAck (hd : deaf s i = false) : Settles (.dumpAck i true 2) i s (fun t => t = ackDump i s) :=
  settles_imp (settles_dumpWrite (i := i) (v := 2) rfl hd (by decide)) fun t ht => ht.trans rfl

/-- The causes that a write names are cleared, and at an instance that is no mirror their enables are as written. -/
def causesCleared (i : InstId) (a b : Nat) (s : State) : State :=
  let u := modStudy i (fun y => { y with cause := y.cause &&& ~~~BitVec.ofNat 4 a }) s
  if mirrorIdle u i = true then u else modMir i (fun m => { m with causeEnable := b }) u

theorem setWidth_low (a b : Nat) : (busWrite true 0xD38 (a + 2 ^ 4 * b)).val.setWidth 4 = BitVec.ofNat 4 a := by
  rw [val_wide, BitVec.setWidth_ofNat_of_le (by decide)]
  refine BitVec.eq_of_toNat_eq ?_
  rw [BitVec.toNat_ofNat, BitVec.toNat_ofNat, Nat.add_mul_mod_self_left]

theorem writeStudy_causes (ha : a < 2 ^ 4) (hb : b < 2 ^ 4) : writeStudy i 0x38 (busWrite true 0xD38 (a + 2 ^ 4 * b)) s = causesCleared i a b s := by
  have hv : a + 2 ^ 4 * b < 2 ^ 64 := pair_lt ha hb (by decide)
  have hmerged (m : Mirrored) : (busWrite true 0xD38 (a + 2 ^ 4 * b)).merged 4 4 m.causeEnable = b :=
    (merged_wide hv (by decide) (by decide)).trans (high_part ha hb)
  unfold writeStudy causesCleared
  simp only [hmerged, setWidth_low]

theorem settles_studyCauseClear (hd : deaf s i = false) (ha : a < 2 ^ 4) (hb : b < 2 ^ 4) :
    Settles (.studyCauseClear i true (a + 2 ^ 4 * b)) i s (fun t => t = causesCleared i a b s) := by
  have hlt : a + 2 ^ 4 * b < 2 ^ 8 := pair_lt ha hb (by decide)
  have hset := settles_fits (c := .studyCauseClear i true (a + 2 ^ 4 * b)) (i := i) (v := a + 2 ^ 4 * b) (a := 0xD38) (s := s) rfl rfl (heard_of_deaf hd)
    (fs := (List.range 4).map (fun k => fW1c k 1 (bit ((getInst s i).study.cause.getLsbD k))) ++ [fRw 4 4 (mir s i).causeEnable]) rfl (List.cons_ne_nil _ _) rfl
    (inFields_of_covers (fun k hk => by
      by_cases h4 : k < 4
      · exact ⟨_, List.mem_append_left _ (List.mem_map_of_mem (List.mem_range.mpr h4)), Nat.le_refl k, Nat.lt_succ_self k⟩
      · exact ⟨_, List.mem_append_right _ List.mem_cons_self, Nat.le_of_not_lt h4, hk⟩) hlt)
  exact settles_imp hset fun t ht => ht.trans (writeStudy_causes ha hb)

theorem causesCleared_parts (i : InstId) (a b : Nat) (s : State) :
    let t := causesCleared i a b s
    (getInst t i).study = { (getInst s i).study with cause := (getInst s i).study.cause &&& ~~~BitVec.ofNat 4 a } ∧
      mir t i = (if mirrorIdle s i then mir s i else { mir s i with causeEnable := b }) ∧ t.hbm = s.hbm := by
  intro t
  have hidle : mirrorIdle (modStudy i (fun y => { y with cause := y.cause &&& ~~~BitVec.ofNat 4 a }) s) i = mirrorIdle s i := by cases i <;> rfl
  have ht : t = if mirrorIdle s i = true then modStudy i (fun y => { y with cause := y.cause &&& ~~~BitVec.ofNat 4 a }) s
      else modMir i (fun m => { m with causeEnable := b }) (modStudy i (fun y => { y with cause := y.cause &&& ~~~BitVec.ofNat 4 a }) s) := by
    show causesCleared i a b s = _
    unfold causesCleared
    dsimp only
    rw [hidle]
  rw [ht]
  split <;> cases i <;> exact ⟨rfl, rfl, rfl⟩

/-- Settles O59: each register's fields take the value written, and its row of the register file's writes says what follows. -/
theorem controlWrites : Obligations.ControlWrites := by
  intro i s a b
  refine ⟨fun n hn ht ha hb => ⟨fun hidle => ?_, stops_latchConfigWrite hn ht ha hb⟩, settles_stairwellTimingWrite, settles_injectionSeedWrite,
    fun hd => settles_traceRpWrite (.inr hd), fun hd => ⟨settles_dumpRequest hd, settles_dumpAck hd⟩, fun hd ha hb => ?_⟩
  · exact settles_imp (settles_latchConfigWrite hn ht ha hb hidle) fun t h => h ▸ latchConfigured_parts i n a b s
  · exact settles_imp (settles_studyCauseClear hd ha hb) fun t h => h ▸ causesCleared_parts i a b s

end Sys2Proof.ControlRules

/-! SUPPORT. A read of the register file: its answer, and the fields that it clears (spec/19 R412, R414, spec/12 R266, spec/20 R436). -/

namespace Sys2Proof.ReadRules

open Sys2Proof Sys2Proof.Machine Sys2Proof.Laws Sys2Proof.Limits Sys2Proof.RegisterRules

variable {i : InstId} {wide : Bool} {off : Nat} {s : State}

/-! ### The answer -/

/-- What a read answers: the register's value, in its half for 4 bytes. -/
def seen (i : InstId) (wide : Bool) (off : Nat) (s : State) : BitVec 64 :=
  if wide then regRead s i (off / 8 * 8) else if off % 8 = 0 then regRead s i (off / 8 * 8) &&& 0xFFFFFFFF else regRead s i (off / 8 * 8) >>> 32

/-- The fields that a read clears: those of the register that it reaches whole and that are RC. -/
def cleared (i : InstId) (wide : Bool) (off : Nat) (s : State) : List RegField :=
  (slotFields s i (off / 8 * 8)).filter fun f => f.acc == .rc && wholly (access wide off 0).2 f

theorem readBus_eq (i : InstId) (wide : Bool) (off : Nat) (s : State) : readBus i wide off s =
    if inReset s i = true then { s with busData := seen i wide off s }
    else (cleared i wide off s).foldl (fun t f => clearRc i (off / 8 * 8) f.lo t) { s with busData := seen i wide off s } := rfl

theorem exec_rcFieldRead (i : InstId) (wide : Bool) (off : Nat) (s : State) : exec (.rcFieldRead i wide off) s =
    if aligned wide (bar2 i off).2 = true then done (bar2 i off).1 s (readBus (bar2 i off).1 wide (bar2 i off).2 s) else .fault (.undefinedCase 13) := by
  show execRcFieldRead i wide off s = _
  unfold execRcFieldRead
  have hoff : aligned wide off = aligned wide (bar2 i off).2 := by
    by_cases h : i = .B ∨ off < 0x100000
    · rw [bar2_own h]
    · obtain ⟨hi, hlt⟩ := not_or.mp h
      have hA : i = .A := by cases i <;> first | rfl | exact absurd rfl hi
      rw [hA, bar2_beyond (Nat.le_of_not_lt hlt)]
      exact (aligned_sub (Nat.le_of_not_lt hlt)).symm
  dsimp only
  rw [hoff]

theorem rcFieldRead_misaligned (h : aligned wide off = false) : StopsAt (.rcFieldRead i wide off) s 13 :=
  if_neg (by rw [h]; exact Bool.false_ne_true)

theorem mirrors_rcFieldRead (h : aligned wide off = true) (hoff : off < 0x100000) :
    Mirrors (.rcFieldRead i wide off) i s (fun t => t = readBus i wide off s) := by
  refine ⟨readBus i wide off s, (exec_rcFieldRead i wide off s).trans ?_, rfl⟩
  rw [bar2_own (.inr hoff)]
  exact if_pos h

/-! ### What a read leaves -/

/-- Two states that differ in what the bus carries and in instance `i` alone, and there in what it mirrors and observes. -/
def ReadOnly (i : InstId) (s t : State) : Prop :=
  t.busData = s.busData ∧ t.tick = s.tick ∧ t.hbm = s.hbm ∧ t.host = s.host ∧ t.outposts = s.outposts ∧
    getInst t (Machine.other i) = getInst s (Machine.other i)

theorem ReadOnly.refl (i : InstId) (s : State) : ReadOnly i s s := ⟨rfl, rfl, rfl, rfl, rfl, rfl⟩

theorem ReadOnly.trans {s t u : State} (h : ReadOnly i s t) (k : ReadOnly i t u) : ReadOnly i s u :=
  ⟨k.1.trans h.1, k.2.1.trans h.2.1, k.2.2.1.trans h.2.2.1, k.2.2.2.1.trans h.2.2.2.1, k.2.2.2.2.1.trans h.2.2.2.2.1, k.2.2.2.2.2.trans h.2.2.2.2.2⟩

theorem modInst_readOnly (i : InstId) (f : Inst → Inst) (s : State) : ReadOnly i s (modInst i f s) := by
  cases i <;> exact ⟨rfl, rfl, rfl, rfl, rfl, rfl⟩

theorem clearRc_readOnly (i : InstId) (a lo : Nat) (s : State) : ReadOnly i s (clearRc i a lo s) := by
  unfold clearRc
  repeat' split
  all_goals first | exact modInst_readOnly i _ s | exact ReadOnly.refl i s

theorem foldl_readOnly {α : Type} {f : State → α → State} (hf : ∀ t x, ReadOnly i t (f t x)) : ∀ (l : List α) (t : State), ReadOnly i t (l.foldl f t)
  | [], t => .refl i t
  | x :: l, t => (hf t x).trans (foldl_readOnly hf l _)

theorem readBus_readOnly (i : InstId) (wide : Bool) (off : Nat) (s : State) : ReadOnly i { s with busData := seen i wide off s } (readBus i wide off s) := by
  rw [readBus_eq]
  split
  · exact ReadOnly.refl i _
  · exact foldl_readOnly (fun t (f : RegField) => clearRc_readOnly i _ f.lo t) _ _

theorem readBus_plain (h : ((slotFields s i (off / 8 * 8)).any fun f => f.acc == .rc && wholly (access wide off 0).2 f) = false) :
    readBus i wide off s = { s with busData := seen i wide off s } := by
  have hnone : cleared i wide off s = [] := List.filter_eq_nil_iff.mpr fun f hf => by
    have := List.any_eq_false.mp h f hf
    exact this
  rw [readBus_eq, hnone]
  exact ite_self _

theorem seen_inReset (h : inReset s i = true) : seen i wide off s = 0 := by
  unfold seen regRead
  rw [if_pos h]
  cases wide
  · rw [if_neg Bool.false_ne_true]
    split <;> rfl
  · rfl

theorem readBus_inReset (h : inReset s i = true) : readBus i wide off s = { s with busData := 0 } := by
  rw [readBus_eq, if_pos h, seen_inReset h]

/-! ### A field that is cleared -/

/-- The reads of 8 bytes of the register, and of 4 bytes of the half that its RC field stands in, clear the field. -/
def Clears (i : InstId) (s : State) (reg lo : Nat) (f : State → State) : Prop :=
  Mirrors (.rcFieldRead i true reg) i s (fun t => t = f { s with busData := regRead s i reg }) ∧
  Mirrors (.rcFieldRead i false (reg + lo / 8)) i s (fun t => t = f { s with busData := if lo = 0 then regRead s i reg &&& 0xFFFFFFFF else regRead s i reg >>> 32 })

section Cleared

variable {reg lo : Nat} {f : RegField} (hin : inReset s i = false) (h8 : reg % 8 = 0) (hreg : reg < 0x100000)
  (hfield : (slotFields s i reg).filter (fun f => f.acc == .rc) = [f]) (hlo : f.lo = lo)

include hin hfield in
/-- The register's one RC field is cleared by a read that reaches it whole. -/
theorem readBus_clears (hslot : off / 8 * 8 = reg) (hwhole : wholly (access wide off 0).2 f = true) :
    readBus i wide off s = clearRc i reg f.lo { s with busData := seen i wide off s } := by
  have hone : cleared i wide off s = [f] := by
    unfold cleared
    have hswap : ∀ g ∈ slotFields s i reg, (g.acc == .rc && wholly (access wide off 0).2 g) = (wholly (access wide off 0).2 g && g.acc == .rc) :=
      fun _ _ => Bool.and_comm _ _
    rw [hslot, List.filter_congr hswap, ← List.filter_filter, hfield, List.filter_cons_of_pos hwhole, List.filter_nil]
  rw [readBus_eq, if_neg (by rw [hin]; exact Bool.false_ne_true), hone, hslot]
  rfl

include hin h8 hreg hfield hlo in
theorem clears_of_field (hhalf : lo = 0 ∧ f.width = 32 ∨ lo = 32 ∧ 0 < f.width ∧ f.width ≤ 32) : Clears i s reg lo (clearRc i reg lo) := by
  have hwide : reg / 8 * 8 = reg := by omega
  have hnarrow : (reg + lo / 8) / 8 * 8 = reg := by omega
  have hmod : (reg + lo / 8) % 8 = 0 ↔ lo = 0 := by omega
  have hfit : f.lo + f.width ≤ 64 := by omega
  have hwhole (wide : Bool) (off : Nat) (hr : accessLo wide off ≤ f.lo ∧ f.lo + f.width ≤ accessLo wide off + accessWidth wide) :
      wholly (access wide off 0).2 f = true := by
    have hreach : (access wide off 0).2 = (accessField wide off).mask := congrArg BusWrite.reach (busWrite_eq (wide := wide) (off := off) (v := 0) (Nat.two_pow_pos _))
    rw [hreach]
    exact (wholly_mask (by omega) hfit).mpr hr
  refine ⟨?_, ?_⟩
  · obtain ⟨v, hexec, hv⟩ := mirrors_rcFieldRead (i := i) (s := s) (wide := true) (off := reg) (beq_iff_eq.mpr h8) hreg
    refine ⟨v, hexec, hv.trans ((readBus_clears hin hfield hwide (hwhole true reg (reached_wide.mpr hfit))).trans ?_)⟩
    rw [hlo, seen, hwide, if_pos rfl]
  · have haligned : aligned false (reg + lo / 8) = true := beq_iff_eq.mpr (by omega)
    have hreached : Reached false (reg + lo / 8) f.lo f.width := by
      by_cases h0 : lo = 0
      · rw [reached_lowHalf (hmod.mpr h0)]; omega
      · rw [reached_highHalf (fun h => h0 (hmod.mp h))]; omega
    obtain ⟨v, hexec, hv⟩ := mirrors_rcFieldRead (i := i) (s := s) (wide := false) (off := reg + lo / 8) haligned (by omega)
    refine ⟨v, hexec, hv.trans ((readBus_clears hin hfield hnarrow (hwhole false _ hreached)).trans ?_)⟩
    rw [hlo, seen, hnarrow, if_neg Bool.false_ne_true]
    simp only [hmod]

end Cleared

/-! ### The registers that have one -/

/-- The Hallway's registers stand from 0x1000 on. -/
theorem slotFields_hall {a : Nat} (ha : a < 0x500) : slotFields s i (0x1000 + a) = hallRegs (getInst s i) a := by
  rw [slotFields, if_pos (by omega), regFields]
  rw [if_neg (by omega), if_neg (by omega), if_neg (by omega), if_neg (by omega), if_neg (by omega), if_neg (by omega), if_neg (by omega), if_neg (by omega),
    if_neg (by omega), if_neg (by omega), if_neg (by omega), if_pos (by omega), Nat.add_sub_cancel_left]

section Registers

variable (hin : inReset s i = false)
include hin

theorem clears_flushDeferMax : Clears i s 0x428 32 (modHearth i fun h => { h with flushDeferMax := 0 }) :=
  clears_of_field (f := fRc 32 32 (getInst s i).hearth.flushDeferMax) hin rfl (by decide) rfl rfl (.inr ⟨rfl, Nat.zero_lt_succ _, Nat.le_of_ble_eq_true rfl⟩)

theorem clears_gaps : Clears i s 0xD28 0 (modStudy i fun y => { y with gaps := 0 }) :=
  clears_of_field (f := fRc 0 32 (getInst s i).study.gaps) hin rfl (by decide) rfl rfl (.inl ⟨rfl, rfl⟩)

theorem clears_sqBadKind {k : Nat} (hk : k < 16) : Clears i s (0x818 + 32 * k) 0 (modCtx i k fun x => { x with sqBadKind := 0 }) := by
  have hdiv : (0x818 + 32 * k - 0x800) / 32 = k := by omega
  have hmod : (0x818 + 32 * k) % 32 = 0x18 := by omega
  have hfs : slotFields s i (0x818 + 32 * k) = contextRegs (getCtx (mir s i) k) 0x18 := by
    rw [slotFields, if_pos (by omega), regFields]
    rw [if_neg (by omega), if_neg (by omega), if_neg (by omega), if_neg (by omega), if_neg (by omega), if_neg (by omega), if_pos (by omega), hdiv, hmod]
    rfl
  have hclear : clearRc i (0x818 + 32 * k) 0 = modCtx i k fun x => { x with sqBadKind := 0 } := funext fun t => by
    rw [clearRc, if_neg (by omega), if_pos (by omega), hdiv]
  rw [← hclear]
  exact clears_of_field (f := fRc 0 32 (getCtx (mir s i) k).sqBadKind) hin (by omega) (by omega) (by rw [hfs]; rfl) rfl (.inl ⟨rfl, rfl⟩)

theorem clears_injected {n : Nat} (hn : n < 4) :
    Clears i s (0xC88 + 16 * n) 0 (modStair i fun t => { t with classes := modAt t.classes n fun c => { c with injected := 0 } }) := by
  have hdiv : (0xC88 + 16 * n - 0xC80) / 16 = n := by omega
  have hfs : ∃ v, slotFields s i (0xC88 + 16 * n) = [fRc 0 32 v] := by
    refine ⟨((getInst s i).stair.classes.getD n {}).injected, ?_⟩
    have hbranch : n = 0 ∨ n = 1 ∨ n = 2 ∨ n = 3 := by omega
    rcases hbranch with rfl | rfl | rfl | rfl <;> rfl
  have hclear : clearRc i (0xC88 + 16 * n) 0 = modStair i fun t => { t with classes := modAt t.classes n fun c => { c with injected := 0 } } := funext fun t => by
    rw [clearRc, if_neg (by omega), if_neg (by omega), if_pos (by omega), hdiv]
  obtain ⟨v, hv⟩ := hfs
  rw [← hclear]
  exact clears_of_field (f := fRc 0 32 v) hin (by omega) (by omega) (by rw [hv]; rfl) rfl (.inl ⟨rfl, rfl⟩)

theorem clears_waitMax {u : Nat} (hu : u < 32) :
    Clears i s (0x1018 + 32 * u) 0 (modHall i fun h => { h with ushers := modAt h.ushers u fun u => { u with waitMax := 0 } }) := by
  have hdiv : (0x1018 + 32 * u - 0x1000) / 32 = u := by omega
  have hmod : (0x18 + 32 * u) % 32 = 0x18 := by omega
  have hfs : slotFields s i (0x1018 + 32 * u) = [fRc 0 32 ((getInst s i).hall.ushers.getD ((0x18 + 32 * u) / 32) {}).waitMax,
      fRo 32 32 ((getInst s i).hall.ushers.getD ((0x18 + 32 * u) / 32) {}).stallUs] := by
    rw [show 0x1018 + 32 * u = 0x1000 + (0x18 + 32 * u) by omega, slotFields_hall (by omega), hallRegs, if_pos (by omega)]
    dsimp only
    rw [hmod]
    rfl
  have hclear : clearRc i (0x1018 + 32 * u) 0 = modHall i fun h => { h with ushers := modAt h.ushers u fun u => { u with waitMax := 0 } } := funext fun t => by
    rw [clearRc, if_neg (by omega), if_neg (by omega), if_neg (by omega), if_neg (by omega), if_pos (by omega), hdiv]
  rw [← hclear]
  exact clears_of_field (f := fRc 0 32 _) hin (by omega) (by omega) (by rw [hfs]; rfl) rfl (.inl ⟨rfl, rfl⟩)

theorem clears_highWater {q : Nat} (hq : q < 5) : Clears i s (0x1400 + 16 * q) 32
    (modHall i fun h => { h with intakes := modAt h.intakes q fun y => { y with highWater := (inIntake q h).length } }) := by
  have hdiv : (0x1400 + 16 * q - 0x1400) / 16 = q := by omega
  have hfs : ∃ f v, slotFields s i (0x1400 + 16 * q) = [fRo 0 14 f, fRc 32 14 v] := by
    refine ⟨(inIntake ((0x400 + 16 * q - 0x400) / 16) (getInst s i).hall).length, ((getInst s i).hall.intakes.getD ((0x400 + 16 * q - 0x400) / 16) {}).highWater, ?_⟩
    rw [show 0x1400 + 16 * q = 0x1000 + (0x400 + 16 * q) by omega, slotFields_hall (by omega), hallRegs, if_neg (by omega), if_pos (by omega)]
    dsimp only
    rw [if_pos (by omega)]
  have hclear : clearRc i (0x1400 + 16 * q) 32 =
      modHall i fun h => { h with intakes := modAt h.intakes q fun y => { y with highWater := (inIntake q h).length } } := funext fun t => by
    rw [clearRc, if_neg (by omega), if_neg (by omega), if_neg (by omega), if_neg (by omega), if_neg (by omega), if_pos (by omega), hdiv]
  obtain ⟨n, v, hv⟩ := hfs
  rw [← hclear]
  exact clears_of_field (f := fRc 32 14 v) hin (by omega) (by omega) (by rw [hv]; rfl) rfl (.inr ⟨rfl, Nat.zero_lt_succ _, Nat.le_of_ble_eq_true rfl⟩)

theorem clears_late {l : Nat} (hl : l < 4) :
    Clears i s (0x1498 + 32 * l) 0 (modHall i fun h => { h with counts := modAt h.counts l fun c => { c with late := 0 } }) := by
  have hdiv : (0x1498 + 32 * l - 0x1480) / 32 = l := by omega
  have hmod : (0x498 + 32 * l) % 32 = 0x18 := by omega
  have hfs : ∃ n v, slotFields s i (0x1498 + 32 * l) = [fRc 0 32 n, fRo 32 32 v] := by
    refine ⟨((getInst s i).hall.counts.getD ((0x498 + 32 * l - 0x480) / 32) {}).late, ((getInst s i).hall.counts.getD ((0x498 + 32 * l - 0x480) / 32) {}).stale, ?_⟩
    rw [show 0x1498 + 32 * l = 0x1000 + (0x498 + 32 * l) by omega, slotFields_hall (by omega), hallRegs, if_neg (by omega), if_neg (by omega), if_pos (by omega)]
    dsimp only
    rw [hmod]
    rfl
  have hclear : clearRc i (0x1498 + 32 * l) 0 = modHall i fun h => { h with counts := modAt h.counts l fun c => { c with late := 0 } } := funext fun t => by
    rw [clearRc, if_neg (by omega), if_neg (by omega), if_neg (by omega), if_neg (by omega), if_neg (by omega), if_neg (by omega), if_pos (by omega), hdiv]
  obtain ⟨n, v, hv⟩ := hfs
  rw [← hclear]
  exact clears_of_field (f := fRc 0 32 n) hin (by omega) (by omega) (by rw [hv]; rfl) rfl (.inl ⟨rfl, rfl⟩)

/-- The flush deferral and its largest value, in one register. -/
theorem regRead_flushDefer : regRead s i 0x428 =
    BitVec.ofNat 64 ((getInst s i).hearth.flushDefer % 2 ^ 32 + 2 ^ 32 * ((getInst s i).hearth.flushDeferMax % 2 ^ 32)) := by
  have hsum : sumNat ([fRo 0 32 (getInst s i).hearth.flushDefer, fRc 32 32 (getInst s i).hearth.flushDeferMax].map fun f => wrapTo f.width f.val * 2 ^ f.lo) =
      (getInst s i).hearth.flushDefer % 2 ^ 32 + 2 ^ 32 * ((getInst s i).hearth.flushDeferMax % 2 ^ 32) := by
    simp [sumNat, wrapTo, fRo, fRc, Nat.mul_comm]
  rw [regRead, if_neg (by rw [hin]; exact Bool.false_ne_true), show slotFields s i 0x428 = [fRo 0 32 (getInst s i).hearth.flushDefer, fRc 32 32 (getInst s i).hearth.flushDeferMax] from rfl,
    regValue, hsum]

end Registers

/-- Settles O60: a read is `readBus`, which clears the register's RC fields that it reaches whole (the depth that an intake queue has: log 109). -/
theorem registerReads : Obligations.RegisterReads := by
  unfold Obligations.RegisterReads
  refine ⟨fun i wide off s => ⟨rcFieldRead_misaligned, fun h => ?_, fun ha hoff => ⟨?_, fun hno => ?_, fun hin => ?_⟩⟩,
    fun i s hin => ⟨clears_flushDeferMax hin, fun k => clears_sqBadKind hin, fun n => clears_injected hin, clears_gaps hin, fun u => clears_waitMax hin,
      fun q => clears_highWater hin, fun l => clears_late hin⟩, fun i s hin => ?_⟩
  · rw [exec_rcFieldRead, exec_rcFieldRead, bar2_beyond h, bar2_own (.inl rfl)]
  · obtain ⟨v, hexec, rfl⟩ := mirrors_rcFieldRead (i := i) (s := s) ha hoff
    exact ⟨_, hexec, readBus_readOnly i wide off s⟩
  · obtain ⟨v, hexec, rfl⟩ := mirrors_rcFieldRead (i := i) (s := s) ha hoff
    exact ⟨_, hexec, readBus_plain hno⟩
  · obtain ⟨v, hexec, rfl⟩ := mirrors_rcFieldRead (i := i) (s := s) ha hoff
    exact ⟨_, hexec, readBus_inReset hin⟩
  · obtain ⟨v, hexec, rfl⟩ := (clears_flushDeferMax hin).1
    refine ⟨_, hexec, ?_, by cases i <;> rfl, by cases i <;> rfl⟩
    rw [← regRead_flushDefer hin]
    cases i <;> rfl

end Sys2Proof.ReadRules

/-! SUPPORT. The events of a migration (spec/16 R351-R356): what of a sequence and of the transfers the shared operations leave alone. -/

namespace Sys2Proof.Steadiness

open Sys2Proof Sys2Proof.Machine Sys2Proof.Laws Sys2Proof.AdmissionRules Sys2Proof.OrderRules

variable {i : InstId} {lid : Nat} {s t : State}

/-! ### What only a sequence's own life writes -/

/-- The fields of a record that a change of state or of the household writes. -/
def recordLife (r : Record) : SeqState × SeqState × Nat × Bool × Nat := (r.state, r.returnState, r.household, r.leader, r.liveMembers)

/-- Those of a sequence, with the Midnights that met its migration. -/
def lifeOf (q : Machine.Seq) : (SeqState × SeqState × Nat × Bool × Nat) × List MidnightInfo := (recordLife q.r, q.migMidnight)

/-- Of a household: its id and its leader. -/
def houseLife (h : Household) : Nat × Nat := (h.id, h.leader)

/-- The transfers, the households and the life of the sequence `lid` stand as they were. -/
structure Steady (i : InstId) (lid : Nat) (s t : State) : Prop where
  houses : (mir t i).households.map houseLife = (mir s i).households.map houseLife
  xfers : (mir t i).outXfers = (mir s i).outXfers
  life : (findSeq (mir t i) lid).map lifeOf = (findSeq (mir s i) lid).map lifeOf

theorem Steady.refl (i : InstId) (lid : Nat) (s : State) : Steady i lid s s := ⟨rfl, rfl, rfl⟩

theorem Steady.of_mir {u : State} (h : Steady i lid s t) (hm : mir u i = mir t i) : Steady i lid s u := by
  refine ⟨?_, ?_, ?_⟩ <;> rw [hm]
  · exact h.houses
  · exact h.xfers
  · exact h.life

theorem Steady.raw {a o f c hm ho p cal br m n bd fr pe} (h : Steady i lid s t) :
    Steady i lid s ⟨a, t.tick, t.a, t.b, o, f, c, hm, ho, p, cal, br, m, n, bd, fr, pe⟩ := h.of_mir (by cases i <;> rfl)

theorem foldl_steady {α : Type} {f : State → α → State} (hf : ∀ t x, Steady i lid s t → Steady i lid s (f t x)) :
    ∀ (l : List α) (t : State), Steady i lid s t → Steady i lid s (l.foldl f t)
  | [], _, h => h
  | x :: l, t, h => foldl_steady hf l _ (hf t x h)

theorem modHall_steady (i : InstId) (f : Hallway → Hallway) (h : Steady i lid s t) : Steady i lid s (modHall i f t) := h.of_mir (by cases i <;> rfl)
theorem modStair_steady (i : InstId) (f : Stairwell → Stairwell) (h : Steady i lid s t) : Steady i lid s (modStair i f t) := h.of_mir (by cases i <;> rfl)
theorem modRel_steady (i : InstId) (f : Reliability → Reliability) (h : Steady i lid s t) : Steady i lid s (modRel i f t) := h.of_mir (by cases i <;> rfl)
theorem modStudy_steady (i : InstId) (f : Study → Study) (h : Steady i lid s t) : Steady i lid s (modStudy i f t) := h.of_mir (by cases i <;> rfl)
theorem hbmPut_steady (a : Nat) (bs : List Byte) (h : Steady i lid s t) : Steady i lid s (hbmPut a bs t) := h.of_mir (by cases i <;> rfl)
theorem hostPut_steady (a : Nat) (bs : List Byte) (h : Steady i lid s t) : Steady i lid s (hostPut a bs t) := h.of_mir (by cases i <;> rfl)

theorem modMir_steady (i : InstId) (f : Mirrored → Mirrored) (hf : ∀ m, (f m).outXfers = m.outXfers ∧ (f m).seqs = m.seqs ∧ (f m).households.map houseLife = m.households.map houseLife) (h : Steady i lid s t) :
    Steady i lid s (modMir i f t) := by
  obtain ⟨hx, hl, hh⟩ := hf (mir t i)
  refine ⟨?_, ?_, ?_⟩ <;> rw [Mailboxes.mir_modMir]
  · exact hh.trans h.houses
  · exact hx.trans h.xfers
  · unfold findSeq
    rw [hl]
    exact h.life

theorem find_map_life {k : Nat} {f : Machine.Seq → Machine.Seq} (hf : ∀ q, (f q).r.localId = q.r.localId ∧ lifeOf (f q) = lifeOf q) : ∀ l : List Machine.Seq,
    ((l.map fun q => if q.r.localId == k then f q else q).find? (·.r.localId == lid)).map lifeOf = (l.find? (·.r.localId == lid)).map lifeOf
  | [] => rfl
  | q :: l => by
    have hid : (if q.r.localId == k then f q else q).r.localId = q.r.localId := by
      split
      · exact (hf q).1
      · rfl
    have hlife : lifeOf (if q.r.localId == k then f q else q) = lifeOf q := by
      split
      · exact (hf q).2
      · rfl
    rw [List.map_cons, List.find?_cons, List.find?_cons, hid]
    cases q.r.localId == lid with
    | true => exact congrArg some hlife
    | false => exact find_map_life hf l

theorem modSeq_steady (i : InstId) (k : Nat) (f : Machine.Seq → Machine.Seq) (hf : ∀ q, (f q).r.localId = q.r.localId ∧ lifeOf (f q) = lifeOf q)
    (h : Steady i lid s t) : Steady i lid s (modSeq i k f t) := by
  obtain ⟨hmir, -⟩ := modSeq_keeps i k f t
  refine ⟨?_, ?_, ?_⟩ <;> rw [hmir]
  · exact h.houses
  · exact h.xfers
  · exact (find_map_life hf _).trans h.life

theorem modRec_steady (i : InstId) (k : Nat) (f : Record → Record) (hf : ∀ r, (f r).localId = r.localId ∧ recordLife (f r) = recordLife r)
    (h : Steady i lid s t) : Steady i lid s (modRec i k f t) :=
  modSeq_steady i k _ (fun q => ⟨(hf q.r).1, congrArg (·, q.migMidnight) (hf q.r).2⟩) h

theorem modKit_steady (i : InstId) (f : Kitchen → Kitchen) (h : Steady i lid s t) : Steady i lid s (modKit i f t) := modMir_steady i _ (fun _ => ⟨rfl, rfl, rfl⟩) h
theorem modDir_steady (i : InstId) (f : Directory → Directory) (h : Steady i lid s t) : Steady i lid s (modDir i f t) := modMir_steady i _ (fun _ => ⟨rfl, rfl, rfl⟩) h
theorem modModel_steady (i : InstId) (k : Nat) (f : Model → Model) (h : Steady i lid s t) : Steady i lid s (modModel i k f t) := modDir_steady i _ h
theorem modCtx_steady (i : InstId) (c : Nat) (f : Ctx → Ctx) (h : Steady i lid s t) : Steady i lid s (modCtx i c f t) := modMir_steady i _ (fun _ => ⟨rfl, rfl, rfl⟩) h
theorem modWin_steady (i : InstId) (w : Nat) (f : Window → Window) (h : Steady i lid s t) : Steady i lid s (modWin i w f t) := modMir_steady i _ (fun _ => ⟨rfl, rfl, rfl⟩) h
theorem modCmd_steady (i : InstId) (n : Nat) (f : MboxCmd → MboxCmd) (h : Steady i lid s t) : Steady i lid s (modCmd i n f t) := modMir_steady i _ (fun _ => ⟨rfl, rfl, rfl⟩) h

/-- A household's charge that falls leaves its id and its leader. -/
theorem lowerCharge_life (n : Nat) (h : Household) : houseLife (lowerCharge n h) = houseLife h := by
  unfold lowerCharge
  split <;> rfl

theorem modHouse_steady (i : InstId) (k : Nat) (f : Household → Household) (hf : ∀ h, houseLife (f h) = houseLife h) (h : Steady i lid s t) :
    Steady i lid s (modHouse i k f t) := by
  refine modMir_steady i _ (fun m => ⟨rfl, rfl, ?_⟩) h
  rw [List.map_map]
  refine List.map_congr_left fun x _ => ?_
  show houseLife (if _ then _ else _) = _
  split
  · exact hf x
  · rfl

/-- A page that loses a reference, or is no household's prefix page any more. -/
theorem forgetPrefix_unref_same (page : Nat) (m : Mirrored) : (forgetPrefix page (unref page m)).outXfers = m.outXfers ∧ (forgetPrefix page (unref page m)).seqs = m.seqs ∧
    (forgetPrefix page (unref page m)).households.map houseLife = m.households.map houseLife := by
  have hunref : (unref page m).outXfers = m.outXfers ∧ (unref page m).seqs = m.seqs ∧ (unref page m).households = m.households := by
    unfold unref
    split
    · split <;> exact ⟨rfl, rfl, rfl⟩
    · exact ⟨rfl, rfl, rfl⟩
    · exact ⟨rfl, rfl, rfl⟩
  obtain ⟨hx, hs, hh⟩ := hunref
  unfold forgetPrefix
  split
  · refine ⟨hx, hs, ?_⟩
    rw [List.map_map, ← hh]
    rfl
  · exact ⟨hx, hs, congrArg _ hh⟩

/-! ### The shared operations of a migration's end -/

theorem duskClear_steady (i : InstId) (x1 x2 : Nat) (h : Steady i lid s t) :
    Steady i lid s (duskClear i x1 x2 t) := by
  unfold duskClear
  repeat' first | (with_reducible first | assumption | exact fun _ => ⟨rfl, rfl⟩ | exact fun _ => ⟨rfl, rfl, rfl⟩ | apply modMir_steady | apply modRec_steady)

theorem journal_steady (i : InstId) (x1 : List JEntry) (h : Steady i lid s t) :
    Steady i lid s (journal i x1 t) := by
  unfold journal
  repeat' first | (with_reducible first | assumption | apply modRel_steady)

theorem writeAttic_steady (i : InstId) (x1 : Nat) (h : Steady i lid s t) :
    Steady i lid s (writeAttic i x1 t) := by
  unfold writeAttic
  repeat' first | (with_reducible first | assumption | apply hbmPut_steady) | split | dsimp only

theorem writeChain_steady (i : InstId) (x0 x1 x2 : Nat) (x3 : Bool) (x4 x5 : List Nat) (h : Steady i lid s t) :
    Steady i lid s (writeChain x0 x1 x2 x3 x4 x5 t) := by
  induction x4 generalizing x3 x5 t with
  | nil => (unfold writeChain; (try dsimp only); exact h)
  | cons a b ih =>
    unfold writeChain
    repeat' first | (with_reducible first | apply ih | assumption | apply hbmPut_steady)

theorem writeList_steady (i : InstId) (x1 : Nat) (h : Steady i lid s t) :
    Steady i lid s (writeList i x1 t) := by
  unfold writeList
  repeat' first | (with_reducible first | assumption | exact fun _ => ⟨rfl, rfl⟩ | apply modSeq_steady | apply writeAttic_steady | apply writeChain_steady)

theorem clearLone_steady (i : InstId) (x1 : Nat) (h : Steady i lid s t) :
    Steady i lid s (clearLone i x1 t) := by
  unfold clearLone
  repeat' first | (with_reducible first | assumption | exact fun _ => ⟨rfl, rfl⟩ | apply modSeq_steady | apply writeList_steady) | split

theorem dropPage_steady (i : InstId) (x1 : Nat) (h : Steady i lid s t) :
    Steady i lid s (dropPage i x1 t) := by
  unfold dropPage
  repeat' first | (with_reducible first | assumption | exact fun m => forgetPrefix_unref_same _ m | apply clearLone_steady | apply modMir_steady)

theorem freeAhead_steady (i : InstId) (x1 : Nat) (x2 : AheadPage → Bool) (h : Steady i lid s t) :
    Steady i lid s (freeAhead i x1 x2 t) := by
  unfold freeAhead
  repeat' first | (with_reducible first | assumption | exact fun _ => ⟨rfl, rfl⟩ | exact fun _ => ⟨rfl, rfl, rfl⟩ | apply modMir_steady | apply modSeq_steady | apply foldl_steady) | intro _

theorem releasePages_steady (i : InstId) (x1 : Nat) (h : Steady i lid s t) :
    Steady i lid s (releasePages i x1 t) := by
  unfold releasePages
  repeat' first | (with_reducible first | assumption | exact fun _ => ⟨rfl, rfl⟩ | apply dropPage_steady | apply freeAhead_steady | apply modSeq_steady | apply writeList_steady | apply foldl_steady) | intro _

theorem askFault_steady (i : InstId) (x1 x2 : Nat) (h : Steady i lid s t) :
    Steady i lid s (askFault i x1 x2 t) := by
  unfold askFault
  repeat' first | (with_reducible first | assumption | apply modCtx_steady)

theorem freeArrival_steady (i : InstId) (x1 : Nat) (h : Steady i lid s t) :
    Steady i lid s (freeArrival i x1 t) := by
  unfold freeArrival
  repeat' first | (with_reducible first | assumption | exact fun _ => ⟨rfl, rfl, rfl⟩ | apply modMir_steady)

theorem discardRecord_steady (i : InstId) (x1 : Completion) (h : Steady i lid s t) :
    Steady i lid s (discardRecord i x1 t) := by
  unfold discardRecord
  repeat' first | (with_reducible first | assumption | apply freeArrival_steady) | split

theorem ringEnter_steady (i : InstId) (x1 : RingEvent) (h : Steady i lid s t) :
    Steady i lid s (ringEnter i x1 t) := by
  unfold ringEnter
  repeat' first | (with_reducible first | assumption | apply modStudy_steady)

theorem ringPush_steady (i : InstId) (x1 x2 x3 x4 : Nat) (x5 : List Nat) (h : Steady i lid s t) :
    Steady i lid s (ringPush i x1 x2 x3 x4 x5 t) := by
  unfold ringPush
  repeat' first | (with_reducible first | assumption | apply ringEnter_steady)

theorem storeRecord_steady (i : InstId) (x1 : Nat) (x2 : Completion) (h : Steady i lid s t) :
    Steady i lid s (storeRecord i x1 x2 t) := by
  unfold storeRecord
  repeat' first | (with_reducible first | assumption | apply hbmPut_steady) | split | dsimp only

theorem postRecord_steady (i : InstId) (x1 : Nat) (x2 : Completion) (h : Steady i lid s t) :
    Steady i lid s (postRecord i x1 x2 t) := by
  unfold postRecord
  repeat' first | (with_reducible first | assumption | apply askFault_steady | apply discardRecord_steady | apply journal_steady | apply modCtx_steady | apply ringPush_steady | apply storeRecord_steady) | split | dsimp only

theorem postSeqRecord_steady (i : InstId) (x1 x2 x3 : Nat) (x4 : Bool) (h : Steady i lid s t) :
    Steady i lid s (postSeqRecord i x1 x2 x3 x4 t) := by
  unfold postSeqRecord
  repeat' first | (with_reducible first | assumption | exact fun _ => ⟨rfl, rfl⟩ | apply modRec_steady | apply postRecord_steady)

theorem traceDrop_steady (i : InstId) (x1 : TraceRec) (h : Steady i lid s t) :
    Steady i lid s (traceDrop i x1 t) := by
  unfold traceDrop
  repeat' first | (with_reducible first | assumption | apply modStudy_steady) | split

theorem sendIrq_steady (i : InstId) (x1 x2 : BitVec 36) (h : Steady i lid s t) :
    Steady i lid s (sendIrq i x1 x2 t) := by
  unfold sendIrq
  repeat' first | (with_reducible first | assumption) | with_reducible apply Steady.raw

theorem raiseIrq_steady (i : InstId) (x1 : Nat) (h : Steady i lid s t) :
    Steady i lid s (raiseIrq i x1 t) := by
  unfold raiseIrq
  repeat' first | (with_reducible first | assumption | exact fun _ => ⟨rfl, rfl, rfl⟩ | apply modMir_steady | apply sendIrq_steady)

theorem setCause_steady (i : InstId) (x1 : Nat) (h : Steady i lid s t) :
    Steady i lid s (setCause i x1 t) := by
  unfold setCause
  repeat' first | (with_reducible first | assumption | apply modStudy_steady | apply raiseIrq_steady) | split | dsimp only

theorem traceStore_steady (i : InstId) (x1 : TraceRec) (h : Steady i lid s t) :
    Steady i lid s (traceStore i x1 t).1 := by
  unfold traceStore
  repeat' first | (with_reducible first | assumption | apply hbmPut_steady | apply modStudy_steady | apply setCause_steady) | split | dsimp only

theorem traceGap_steady (i : InstId) (h : Steady i lid s t) :
    Steady i lid s (traceGap i t) := by
  unfold traceGap
  repeat' first | (with_reducible first | assumption | apply modStudy_steady | apply setCause_steady | apply traceStore_steady) | split | dsimp only

theorem traceWrite_steady (i : InstId) (x1 : TraceRec) (h : Steady i lid s t) :
    Steady i lid s (traceWrite i x1 t) := by
  unfold traceWrite
  repeat' first | (with_reducible first | assumption | apply traceDrop_steady | apply traceGap_steady | apply traceStore_steady) | split | dsimp only

theorem traceBurst_steady (i : InstId) (x1 : Nat) (h : Steady i lid s t) :
    Steady i lid s (traceBurst i x1 t) := by
  unfold traceBurst
  repeat' first | (with_reducible first | assumption | apply modStudy_steady | apply traceWrite_steady | apply foldl_steady) | intro _

theorem traceAdd_steady (i : InstId) (x1 : TraceRec) (h : Steady i lid s t) :
    Steady i lid s (traceAdd i x1 t) := by
  unfold traceAdd
  repeat' first | (with_reducible first | assumption | apply modStudy_steady | apply traceBurst_steady | apply traceDrop_steady) | split | dsimp only

theorem traceMark_steady (i : InstId) (x1 x2 x3 : Nat) (h : Steady i lid s t) :
    Steady i lid s (traceMark i x1 x2 x3 t) := by
  unfold traceMark
  repeat' first | (with_reducible first | assumption | apply traceAdd_steady) | split

theorem commandLatch_steady (i : InstId) (x1 x2 x3 x4 : Nat) (h : Steady i lid s t) :
    Steady i lid s (commandLatch i x1 x2 x3 x4 t) := by
  unfold commandLatch
  repeat' first | (with_reducible first | assumption | apply hbmPut_steady | apply traceMark_steady) | split | dsimp only

theorem duskDrop_steady (i : InstId) (x1 x2 : Nat) (h : Steady i lid s t) :
    Steady i lid s (duskDrop i x1 x2 t) := by
  unfold duskDrop
  repeat' first | (with_reducible first | assumption | exact fun _ => ⟨rfl, rfl, rfl⟩ | apply modMir_steady)

theorem pushResult_steady (i : InstId) (x1 : Nat) (x2 : Bool) (x3 : ResultEntry) (h : Steady i lid s t) :
    Steady i lid s (pushResult i x1 x2 x3 t) := by
  unfold pushResult
  repeat' first | (with_reducible first | assumption | apply modWin_steady | apply raiseIrq_steady) | split

theorem finishCmd_steady (i : InstId) (x1 x2 x3 : Nat) (x4 : List Byte) (h : Steady i lid s t) :
    Steady i lid s (finishCmd i x1 x2 x3 x4 t) := by
  unfold finishCmd
  repeat' first | (with_reducible first | assumption | exact fun _ => ⟨rfl, rfl, rfl⟩ | apply commandLatch_steady | apply duskDrop_steady | apply modMir_steady | apply pushResult_steady | apply ringPush_steady) | split

theorem closeCmd_steady (i : InstId) (x1 : Nat) (h : Steady i lid s t) :
    Steady i lid s (closeCmd i x1 t) := by
  unfold closeCmd
  repeat' first | (with_reducible first | assumption | apply finishCmd_steady) | split

theorem resolveEvent_steady (i : InstId) (x1 : Option Nat) (x2 : Bool) (h : Steady i lid s t) :
    Steady i lid s (resolveEvent i x1 x2 t) := by
  unfold resolveEvent
  repeat' first | (with_reducible first | assumption | apply closeCmd_steady | apply modCmd_steady) | split

theorem voidEvents_steady (i : InstId) (x1 : Nat) (h : Steady i lid s t) :
    Steady i lid s (voidEvents i x1 t) := by
  unfold voidEvents
  repeat' first | (with_reducible first | assumption | apply finishCmd_steady | apply modHall_steady | apply resolveEvent_steady | apply foldl_steady) | split | intro _

theorem epochGone_steady (i : InstId) (x1 : Nat) (h : Steady i lid s t) :
    Steady i lid s (epochGone i x1 t) := by
  unfold epochGone
  repeat' first | (with_reducible first | assumption | apply modDir_steady | apply raiseIrq_steady) | split

theorem requestBit_steady (i : InstId) (x1 : Nat) (x2 : Bool) (h : Steady i lid s t) :
    Steady i lid s (requestBit i x1 x2 t) := by
  unfold requestBit
  repeat' first | (with_reducible first | assumption | apply modDir_steady | apply modModel_steady | apply raiseIrq_steady) | split | dsimp only

theorem grantSlots_steady (i : InstId) (x1 : Nat) (h : Steady i lid s t) :
    Steady i lid s (grantSlots i x1 t) := by
  induction x1 generalizing  t with
  | zero => (unfold grantSlots; (try dsimp only); exact h)
  | succ n ih =>
    unfold grantSlots
    repeat' first | (with_reducible first | apply ih | assumption | apply modDir_steady | apply modModel_steady | apply requestBit_steady) | split | dsimp only

theorem retireCheck_steady (i : InstId) (x1 : Nat) (h : Steady i lid s t) :
    Steady i lid s (retireCheck i x1 t) := by
  unfold retireCheck
  repeat' first | (with_reducible first | assumption | apply epochGone_steady | apply grantSlots_steady | apply modModel_steady) | split | dsimp only

theorem postTo_steady (i : InstId) (x1 : Flow) (x2 : EvKind) (x3 : Bool) (x4 : Nat) (h : Steady i lid s t) :
    Steady i lid s (postTo i x1 x2 x3 x4 t) := by
  unfold postTo
  repeat' first | (with_reducible first | assumption | apply modHall_steady)

theorem flushBcast_steady (i : InstId) (x1 : Nat) (h : Steady i lid s t) :
    Steady i lid s (flushBcast i x1 t) := by
  unfold flushBcast
  repeat' first | (with_reducible first | assumption | exact fun _ => ⟨rfl, rfl⟩ | apply modSeq_steady | apply postTo_steady | apply foldl_steady) | intro _

theorem postSeq_steady (i : InstId) (x1 : Nat) (x2 : EvKind) (h : Steady i lid s t) :
    Steady i lid s (postSeq i x1 x2 t) := by
  unfold postSeq
  repeat' first | (with_reducible first | assumption | apply flushBcast_steady | apply postTo_steady)

theorem chooseVictims_steady (i : InstId) (x1 : Nat) (h : Steady i lid s t) :
    Steady i lid s (chooseVictims i x1 t) := by
  induction x1 generalizing  t with
  | zero => (unfold chooseVictims; (try dsimp only); exact h)
  | succ n ih =>
    unfold chooseVictims
    repeat' first | (with_reducible first | apply ih | assumption | apply modModel_steady | apply requestBit_steady) | split | dsimp only

theorem dirCheck_steady (i : InstId) (h : Steady i lid s t) :
    Steady i lid s (dirCheck i t) := by
  unfold dirCheck
  repeat' first | (with_reducible first | assumption | apply chooseVictims_steady)

theorem dirEdge_steady (i : InstId) (x1 : State) (h : Steady i lid s t) :
    Steady i lid s (dirEdge i x1 t) := by
  unfold dirEdge
  repeat' first | (with_reducible first | assumption | apply dirCheck_steady) | split

theorem holdBlocks_steady (i : InstId) (x1 x2 : Nat) (h : Steady i lid s t) :
    Steady i lid s (holdBlocks i x1 x2 t) := by
  unfold holdBlocks
  repeat' first | (with_reducible first | assumption | exact fun _ => ⟨rfl, rfl⟩ | apply modSeq_steady)

theorem coolExcess_steady (i : InstId) (x1 : Nat) (h : Steady i lid s t) :
    Steady i lid s (coolExcess i x1 t) := by
  induction x1 generalizing  t with
  | zero => (unfold coolExcess; (try dsimp only); exact h)
  | succ n ih =>
    unfold coolExcess
    repeat' first | (with_reducible first | apply ih | assumption | apply postSeq_steady) | split | dsimp only

theorem coolRecord_steady (i : InstId) (x1 : Nat) (h : Steady i lid s t) :
    Steady i lid s (coolRecord i x1 t) := by
  unfold coolRecord
  repeat' first | (with_reducible first | assumption | exact fun _ => ⟨rfl, rfl⟩ | apply modRec_steady | apply writeAttic_steady)

theorem warmRecord_steady (i : InstId) (x1 : Nat) (h : Steady i lid s t) :
    Steady i lid s (warmRecord i x1 t) := by
  unfold warmRecord
  repeat' first | (with_reducible first | assumption | exact fun _ => ⟨rfl, rfl⟩ | apply coolExcess_steady | apply coolRecord_steady | apply flushBcast_steady | apply modSeq_steady) | split | dsimp only

theorem modIn_steady (i : InstId) (x1 : InXfer) (x2 : InXfer → InXfer) (h : Steady i lid s t) :
    Steady i lid s (modIn i x1 x2 t) := by
  unfold modIn
  repeat' first | (with_reducible first | assumption | exact fun _ => ⟨rfl, rfl, rfl⟩ | apply modMir_steady)

theorem sendMsg_steady (i : InstId) (x1 : PeerMsg) (h : Steady i lid s t) :
    Steady i lid s (sendMsg i x1 t) := by
  unfold sendMsg
  repeat' first | (with_reducible first | assumption | apply modStair_steady | apply ringPush_steady)

theorem sendIn_steady (i : InstId) (x1 : InXfer) (x2 : PeerMsg) (h : Steady i lid s t) :
    Steady i lid s (sendIn i x1 x2 t) := by
  unfold sendIn
  repeat' first | (with_reducible first | assumption | apply modIn_steady | apply sendMsg_steady)

theorem sendAccept_steady (i : InstId) (x1 : InXfer) (h : Steady i lid s t) :
    Steady i lid s (sendAccept i x1 t) := by
  unfold sendAccept
  repeat' first | (with_reducible first | assumption | apply sendIn_steady)
end Sys2Proof.Steadiness

/-! SUPPORT. The events of a migration on its sequence (spec/16 R351-R356, spec/02 R40). -/

namespace Sys2Proof.MigrationRules

open Sys2Proof Sys2Proof.Machine Sys2Proof.Laws Sys2Proof.AdmissionRules Sys2Proof.OrderRules Sys2Proof.Steadiness

variable {i : InstId} {lid : Nat} {s t : State}

/-! ### The start -/

theorem exec_migrateOut {cmd dst : Nat} {kv : Bool} (hkind : headKind s i lid = some (.migrateOut cmd kv dst)) :
    exec (.migrateOut i lid) s = endEvent i s (applyMigrateOut i lid cmd kv dst (releaseEvent i (.seq lid) s)) := by
  show execMigrateOut i lid s = _
  unfold execMigrateOut
  rw [hkind]

theorem id_released (i : InstId) (f : Flow) (s : State) : (getInst (releaseEvent i f s) i).id = (getInst s i).id := by
  unfold releaseEvent
  split
  · rfl
  · cases i <;> rfl

theorem migrateOpens_released (r : Record) (dst : Nat) : migrateOpens (getInst (releaseEvent i (.seq lid) s) i) r dst = migrateOpens (getInst s i) r dst := by
  obtain ⟨hmir, -, -, -, -, -, -, hstair, hplace, -⟩ := releaseEvent_keeps i (.seq lid) s
  have hm : (getInst (releaseEvent i (.seq lid) s) i).mir = (getInst s i).mir := hmir
  unfold migrateOpens peerAddr
  rw [hm, hplace, id_released]

theorem migrationsStart (cmd : Nat) (kv : Bool) (dst : Nat) (hkind : headKind s i lid = some (.migrateOut cmd kv dst)) :
    let t := releaseEvent i (.seq lid) s
    let opens := migrateOpens (getInst s i) (seqOf s i lid).r dst
    (opens = false → Ends (.migrateOut i lid) i s (finishCmd i cmd rWrongState 0 []) (fun v => v = t)) ∧
    (opens = true → inFlight (mir s i) lid = true → Ends (.migrateOut i lid) i s (fun v => v) (fun v =>
      mir v i = mapSeq lid (fun x => { x with waiting := x.waiting ++ [.migrateOut cmd kv dst] }) (mir s i) ∧ v.hbm = s.hbm)) ∧
    (opens = true → inFlight (mir s i) lid = false → 64 ≤ (mir s i).outXfers.length → Ends (.migrateOut i lid) i s (finishCmd i cmd rFull 1 []) (fun v => v = t)) ∧
    (opens = true → inFlight (mir s i) lid = false → (mir s i).outXfers.length < 64 → Ends (.migrateOut i lid) i s (openTransfer i lid cmd kv dst) (fun v => v = t)) := by
  intro t opens
  have hrow := exec_migrateOut hkind
  have hmir : mir t i = mir s i := released_mir i lid s
  have hopens : migrateOpens (getInst t i) (seqOf t i lid).r dst = opens := by
    rw [releaseEvent_seqOf]
    exact migrateOpens_released _ dst
  have hflight : inFlight (getInst t i).mir lid = inFlight (mir s i) lid := congrArg (inFlight · lid) hmir
  have hstart : opens = true → startMigration i lid cmd kv dst t =
      if 64 ≤ (mir s i).outXfers.length then finishCmd i cmd rFull 1 [] t else openTransfer i lid cmd kv dst t := by
    intro ho
    refine (if_neg ?_).trans ?_
    · rw [hopens, ho]; exact Bool.false_ne_true
    · rw [show (getInst t i).mir = mir s i from hmir]
  have happly : opens = true → applyMigrateOut i lid cmd kv dst t = if inFlight (mir s i) lid then
      modSeq i lid (fun q => { q with waiting := q.waiting ++ [.migrateOut cmd kv dst] }) t else startMigration i lid cmd kv dst t := by
    intro ho
    refine (if_neg ?_).trans (by rw [hflight])
    rw [hopens, ho]
    exact Bool.false_ne_true
  refine ⟨fun ho => ends_of_event (after := finishCmd i cmd rWrongState 0 []) t hrow (if_pos ?_) rfl,
    fun ho hf => ends_of_event (after := fun v => v) _ hrow ((happly ho).trans (if_pos hf)) (waiting_writes _),
    fun ho hf hfull => ends_of_event (after := finishCmd i cmd rFull 1 []) t hrow (((happly ho).trans (if_neg (by rw [hf]; exact Bool.false_ne_true))).trans ((hstart ho).trans (if_pos hfull))) rfl,
    fun ho hf hroom => ends_of_event (after := openTransfer i lid cmd kv dst) t hrow (((happly ho).trans (if_neg (by rw [hf]; exact Bool.false_ne_true))).trans ((hstart ho).trans (if_neg (Nat.not_le.mpr hroom)))) rfl⟩
  rw [hopens, ho]
  rfl

/-! ### The acknowledgement -/

/-- The sequence has no record, and the transfers are `xs`. -/
structure Gone (i : InstId) (lid : Nat) (xs : List OutXfer) (s : State) : Prop where
  record : findSeq (mir s i) lid = none
  xfers : (mir s i).outXfers = xs

variable {xs : List OutXfer}

theorem Gone.steady (h : Gone i lid xs s) (hst : Steady i lid s t) : Gone i lid xs t :=
  ⟨Option.map_eq_none_iff.mp (hst.life.trans (by rw [h.record]; rfl)), hst.xfers.trans h.xfers⟩

theorem freeSeq_gone (h : (mir t i).outXfers = xs) : Gone i lid xs (freeSeq i lid t) := by
  unfold freeSeq
  refine Gone.steady ?_ (retireCheck_steady i _ (journal_steady i _ (Steady.refl i lid _)))
  refine ⟨?_, ?_⟩ <;> rw [Mailboxes.mir_modMir]
  · exact List.find?_eq_none.mpr fun q hq => by
      simpa using (List.mem_filter.mp hq).2
  · have hst := hbmPut_steady (atticAddr (getInst ([0, 1, 2, 3].foldl (fun s l => duskClear i l lid s) t) i) lid) (List.replicate 512 0)
      (foldl_steady (fun u l hu => duskClear_steady i l lid hu) [0, 1, 2, 3] t (Steady.refl i lid t))
    exact hst.xfers.trans h

theorem freeHouse_gone {k : Nat} (h : Gone i lid xs t) : Gone i lid xs (freeHouse i k t) := by
  unfold freeHouse
  split
  · exact ⟨by rw [Mailboxes.mir_modMir]; exact h.record, by rw [Mailboxes.mir_modMir]; exact h.xfers⟩
  · exact h

/-- The open transfers without `x`. -/
def withoutOut (x : OutXfer) (m : Mirrored) : Mirrored := { m with outXfers := m.outXfers.filter (·.subject != x.subject) }

theorem closeOut_steady (x : OutXfer) (ok : Bool) : Steady i lid (modMir i (withoutOut x) t) (closeOut i x ok t) := by
  unfold closeOut
  refine journal_steady i _ ?_
  have hcount := modStair_steady i (fun st => if ok then { st with transfersDone := satTo 32 (st.transfersDone + 1) }
    else { st with transfersFailed := satTo 32 (st.transfersFailed + 1) }) (Steady.refl i lid (modMir i (withoutOut x) t))
  split
  · exact hcount
  · exact duskClear_steady i _ _ (duskClear_steady i _ _ hcount)

theorem xfers_closeOut (i : InstId) (lid : Nat) (x : OutXfer) (ok : Bool) (t : State) :
    (mir (closeOut i x ok t) i).outXfers = (mir t i).outXfers.filter (fun y => y.subject != x.subject) :=
  (closeOut_steady (lid := lid) x ok).xfers.trans (by rw [Mailboxes.mir_modMir]; rfl)

theorem xfers_modRec (k : Nat) (f : Record → Record) : (mir (modRec i k f t) i).outXfers = (mir t i).outXfers :=
  congrArg (·.outXfers) (modSeq_keeps i k (fun q => { q with r := f q.r }) t).1

/-- The state in which an acknowledged migration frees its record: the transfer is closed, what the sequence held is released, its events are void. -/
def releasedOut (i : InstId) (lid : Nat) (x : OutXfer) (t : State) : State :=
  let rest := (unended (mir t i) (seqOf t i lid).r.household).length - 1
  let u := modRec i lid (fun r => { r with state := .free, kvState := .released }) (releasePages i lid (closeOut i x true t))
  modHouse i (seqOf t i lid).r.household (lowerCharge rest)
    (voidEvents i lid (if teardownHeld (getInst t i) lid then u else postSeqRecord i lid 6 0 (decide (rest = 0)) u))

theorem releasedOut_xfers (i : InstId) (lid : Nat) (x : OutXfer) (t : State) :
    (mir (releasedOut i lid x t) i).outXfers = (mir t i).outXfers.filter (fun y => y.subject != x.subject) := by
  refine (modHouse_steady (lid := lid) i _ _ (lowerCharge_life _) (voidEvents_steady i _ (Steady.refl i lid _))).xfers.trans ?_
  have hrec : (mir (modRec i lid (fun r => { r with state := .free, kvState := .released }) (releasePages i lid (closeOut i x true t))) i).outXfers =
      (mir t i).outXfers.filter (fun y => y.subject != x.subject) :=
    (xfers_modRec _ _).trans ((releasePages_steady (lid := lid) i _ (Steady.refl i lid _)).xfers.trans (xfers_closeOut i lid x true t))
  split
  · exact hrec
  · exact (postSeqRecord_steady (lid := lid) i _ _ _ _ (Steady.refl i lid _)).xfers.trans hrec

theorem applyMigrateAck_gone {x : OutXfer} (hx : outOfSeq (mir t i) lid = some x) :
    Gone i lid ((mir t i).outXfers.filter (fun y => y.subject != x.subject)) (applyMigrateAck i lid t) := by
  have hfreed := freeSeq_gone (lid := lid) (releasedOut_xfers i lid x t)
  have hanswer : ∀ v, Gone i lid ((mir t i).outXfers.filter (fun y => y.subject != x.subject)) v →
      Gone i lid ((mir t i).outXfers.filter (fun y => y.subject != x.subject)) (match x.cmd with | some c => finishCmd i c rOk 0 [] v | none => v) := by
    intro v hv
    split
    · exact hv.steady (finishCmd_steady i _ _ _ _ (Steady.refl i lid v))
    · exact hv
  unfold applyMigrateAck
  rw [hx]
  refine Gone.steady (hanswer _ ?_) (dirEdge_steady i _ (Steady.refl i lid _))
  split
  · exact freeHouse_gone hfreed
  · split
    · exact hfreed.steady (postSeq_steady i _ _ (Steady.refl i lid _))
    · exact freeHouse_gone hfreed

theorem exec_migrateAck (hkind : headKind s i lid = some .migrateAck) : exec (.migrateAck i lid) s = endEvent i s (applyMigrateAck i lid (releaseEvent i (.seq lid) s)) := by
  show execMigrateAck i lid s = _
  unfold execMigrateAck
  rw [hkind]

theorem migrationsAcknowledged (hkind : headKind s i lid = some .migrateAck) :
    let t := releaseEvent i (.seq lid) s
    (outOfSeq (mir s i) lid = none → Ends (.migrateAck i lid) i s (fun v => v) (fun v => v = t)) ∧
    (∀ x, outOfSeq (mir s i) lid = some x → Ends (.migrateAck i lid) i s (fun v => v) (fun v => v = applyMigrateAck i lid t ∧
      findSeq (mir v i) lid = none ∧ (mir v i).outXfers = (mir s i).outXfers.filter (fun y => y.subject != x.subject))) := by
  intro t
  have hmir : mir t i = mir s i := released_mir i lid s
  refine ⟨fun hnone => ends_of_event (after := fun v => v) t (exec_migrateAck hkind) ?_ rfl, fun x hx => ends_of_event (after := fun v => v) _ (exec_migrateAck hkind) rfl ?_⟩
  · unfold applyMigrateAck
    rw [released_mir, hnone]
  · obtain ⟨hrecord, hxfers⟩ := applyMigrateAck_gone (t := t) (hmir.symm ▸ hx)
    exact ⟨rfl, hrecord, hxfers.trans (by rw [hmir])⟩

/-! ### A failure -/

theorem exec_migrateFail {reason : Nat} (hkind : headKind s i lid = some (.migrateFail reason)) :
    exec (.migrateFail i lid) s = endEvent i s (applyMigrateFail i lid reason (releaseEvent i (.seq lid) s)) := by
  show execMigrateFail i lid s = _
  unfold execMigrateFail
  rw [hkind]

theorem lifeOf_closeOut {q : Machine.Seq} (x : OutXfer) (ok : Bool) (hq : findSeq (mir t i) lid = some q) : lifeOf (seqOf (closeOut i x ok t) i lid) = lifeOf q := by
  have hlife := (closeOut_steady (i := i) (lid := lid) (t := t) x ok).life
  rw [Mailboxes.mir_modMir, show findSeq (withoutOut x (mir t i)) lid = findSeq (mir t i) lid from rfl, hq] at hlife
  obtain ⟨p, hp, hpq⟩ := Option.map_eq_some_iff.mp hlife
  rw [seqOf_of_findSeq hp]
  exact hpq

theorem migrationsFail (reason : Nat) (hkind : headKind s i lid = some (.migrateFail reason)) :
    let t := releaseEvent i (.seq lid) s
    (outOfSeq (mir s i) lid = none → Ends (.migrateFail i lid) i s (fun v => v) (fun v => v = t)) ∧
    (∀ x q, outOfSeq (mir s i) lid = some x → findSeq (mir s i) lid = some q →
      let u := closeOut i x false t
      let back := if q.r.state = .migrating then enterState i lid q.r.returnState u else u
      let answer (v : State) : State := x.cmd.elim v (fun c => finishCmd i c rWrongState reason [] v)
      Ends (.migrateFail i lid) i s (fun v => q.migMidnight.foldl (fun v info => applyMidnight i lid info v) (answer (recordDone i lid v)))
        (fun v => v = modSeq i lid (fun y => { y with migMidnight := [], r := { y.r with peerSequence := 0 } }) back)) := by
  intro t
  have hmir : mir t i = mir s i := released_mir i lid s
  refine ⟨fun hnone => ends_of_event (after := fun v => v) t (exec_migrateFail hkind) ?_ rfl, ?_⟩
  · unfold applyMigrateFail
    rw [released_mir, hnone]
  · intro x q hx hq u back answer
    refine ends_of_event (after := fun v => q.migMidnight.foldl (fun v info => applyMidnight i lid info v) (answer (recordDone i lid v))) _ (exec_migrateFail hkind) ?_ rfl
    have hlife : lifeOf (seqOf u i lid) = lifeOf q := lifeOf_closeOut x false (hmir.symm ▸ hq)
    have hstate : (seqOf u i lid).r.state = q.r.state := congrArg (·.1.1) hlife
    have hreturn : (seqOf u i lid).r.returnState = q.r.returnState := congrArg (·.1.2.1) hlife
    have hmid : (seqOf u i lid).migMidnight = q.migMidnight := congrArg (·.2) hlife
    unfold applyMigrateFail
    rw [released_mir, hx]
    show (seqOf u i lid).migMidnight.foldl _ _ = _
    rw [hmid]
    refine congrArg (q.migMidnight.foldl _) ?_
    have hback : (if (seqOf u i lid).r.state == .migrating then enterState i lid (seqOf u i lid).r.returnState u else u) = back := by
      rw [hstate, hreturn]
      exact Serving.ite_of_iff beq_iff_eq rfl rfl
    rw [← hback]
    show _ = x.cmd.elim (recordDone i lid _) (fun c => finishCmd i c rWrongState reason [] (recordDone i lid _))
    cases x.cmd <;> rfl

/-! ### An arrival -/

theorem exec_migrateIn {n : Nat} (hkind : headKind s i lid = some (.migrateIn n)) :
    exec (.migrateIn i lid) s = endEvent i s (applyMigrateIn i lid n (releaseEvent i (.seq lid) s)) := by
  show execMigrateIn i lid s = _
  unfold execMigrateIn
  rw [hkind]

/-- The transfer that an arrival's event names, not yet handed over. -/
def offered (m : Mirrored) (lid n : Nat) : Option InXfer := m.inXfers.find? fun y => y.subject == n && y.lid == lid && !y.forward && !y.handedOver

theorem freeBlocks_released (o : Option Nat) : freeBlocks (getInst (releaseEvent i (.seq lid) s) i) o = freeBlocks (getInst s i) o := by
  obtain ⟨hmir, -, -, -, -, -, -, -, hplace, -⟩ := releaseEvent_keeps i (.seq lid) s
  have hm : (getInst (releaseEvent i (.seq lid) s) i).mir = (getInst s i).mir := hmir
  unfold freeBlocks areaBlocks
  rw [hm, hplace]

theorem applyMigrateIn_none {n : Nat} (h : offered (mir t i) lid n = none) : applyMigrateIn i lid n t = t := by
  unfold applyMigrateIn
  rw [show (mir t i).inXfers.find? _ = none from h]

theorem applyMigrateIn_refused {n : Nat} {y : InXfer} (h : offered (mir t i) lid n = some y) (hno : freeHid (mir t i) = none ∨ freeBlocks (getInst t i) none = 0) :
    applyMigrateIn i lid n t = discardIn i y (sendMsg i { inMsg y tRefuse with reason := 9 } t) := by
  have hroom : (freeHid (mir t i)).filter (fun _ => freeBlocks (getInst t i) none != 0) = none := by
    rcases hno with hid | hblocks
    · rw [hid]
      rfl
    · rw [hblocks]
      cases freeHid (mir t i) <;> rfl
  unfold applyMigrateIn
  rw [show (mir t i).inXfers.find? _ = some y from h, hroom]

theorem findSeq_takeKvPages : ∀ (n : Nat) (acc : List Nat) (t : State), (mir (takeKvPages i n acc t).2 i).seqs = (mir t i).seqs
  | 0, _, _ => rfl
  | n + 1, acc, t => by
    unfold takeKvPages
    split
    · exact (findSeq_takeKvPages n _ _).trans (congrArg (·.seqs) (Mailboxes.mir_modMir i _ t))
    · rfl

/-- An arrival has its place: MIGRATING, the leader of the household `hid`, which is its own. -/
structure Placed (i : InstId) (lid hid : Nat) (s : State) : Prop where
  life : ∃ ret mids, (findSeq (mir s i) lid).map lifeOf = some ((.migrating, ret, hid, true, 1), mids)
  house : (hid, lid) ∈ (mir s i).households.map houseLife

theorem Placed.steady {hid : Nat} (h : Placed i lid hid s) (hst : Steady i lid s t) : Placed i lid hid t := by
  obtain ⟨⟨ret, mids, hlife⟩, hhouse⟩ := h
  exact ⟨⟨ret, mids, hst.life.trans hlife⟩, hst.houses.symm ▸ hhouse⟩

theorem Placed.claims {hid : Nat} (h : Placed i lid hid s) : (seqOf s i lid).r.state = .migrating ∧ (seqOf s i lid).r.household = hid ∧ (seqOf s i lid).r.leader = true ∧
    (seqOf s i lid).r.liveMembers = 1 ∧ ∃ h ∈ (mir s i).households, h.id = hid ∧ h.leader = lid := by
  obtain ⟨⟨ret, mids, hlife⟩, hhouse⟩ := h
  obtain ⟨q, hq, hl⟩ := Option.map_eq_some_iff.mp hlife
  obtain ⟨x, hx, hxl⟩ := List.mem_map.mp hhouse
  rw [seqOf_of_findSeq hq]
  exact ⟨congrArg (·.1.1) hl, congrArg (·.1.2.2.1) hl, congrArg (·.1.2.2.2.1) hl, congrArg (·.1.2.2.2.2) hl, x, hx, congrArg (·.1) hxl, congrArg (·.2) hxl⟩

/-- The record of an arrival takes its place in a household that stands. -/
theorem placed_modRec {hid : Nat} {q : Machine.Seq} (hq : findSeq (mir t i) lid = some q) (hhouse : (hid, lid) ∈ (mir t i).households.map houseLife) :
    Placed i lid hid (modRec i lid (fun r => { r with household := hid, leader := true, siblings := 1, liveMembers := 1, state := .migrating }) t) := by
  obtain ⟨hmir, -⟩ := modSeq_keeps i lid (fun q => { q with r := { q.r with household := hid, leader := true, siblings := 1, liveMembers := 1, state := .migrating } }) t
  unfold modRec
  refine ⟨⟨q.r.returnState, q.migMidnight, ?_⟩, ?_⟩ <;> rw [hmir]
  · refine (congrArg (Option.map lifeOf) (findSeq_mapSeq lid (fun q => { q with r := { q.r with household := hid, leader := true, siblings := 1, liveMembers := 1, state := .migrating } }) _ (fun _ => rfl))).trans ?_
    rw [hq]
    rfl
  · exact hhouse

theorem applyMigrateIn_placed {n hid : Nat} {y : InXfer} {q : Machine.Seq} (h : offered (mir t i) lid n = some y) (hid' : freeHid (mir t i) = some hid)
    (hblocks : freeBlocks (getInst t i) none ≠ 0) (hq : findSeq (mir t i) lid = some q) : Placed i lid hid (applyMigrateIn i lid n t) := by
  have hroom : (freeHid (mir t i)).filter (fun _ => freeBlocks (getInst t i) none != 0) = some hid := by
    rw [hid', Option.filter_some, if_pos (bne_iff_ne.mpr hblocks)]
  unfold applyMigrateIn
  rw [show (mir t i).inXfers.find? _ = some y from h, hroom]
  refine Placed.steady (placed_modRec (q := q) ?_ ?_) (sendAccept_steady i _ (warmRecord_steady i _ (holdBlocks_steady i _ _ (writeList_steady i _ (Steady.refl i lid _)))))
  · rw [Mailboxes.mir_modMir]
    show List.find? _ (mir (modIn i y _ _) i).seqs = _
    rw [modIn, Mailboxes.mir_modMir]
    show List.find? _ (mir (if _ then _ else _ : List Nat × State).2 i).seqs = _
    split
    · rw [findSeq_takeKvPages]
      exact hq
    · exact hq
  · rw [Mailboxes.mir_modMir]
    refine List.mem_map.mpr ⟨_, List.mem_append_right _ (List.mem_singleton.mpr rfl), rfl⟩

theorem migrationsArrive (n : Nat) (hkind : headKind s i lid = some (.migrateIn n)) :
    let t := releaseEvent i (.seq lid) s
    let offer := (mir s i).inXfers.find? (fun y => y.subject == n && y.lid == lid && !y.forward && !y.handedOver)
    (offer = none → Ends (.migrateIn i lid) i s (fun v => v) (fun v => v = t)) ∧
    (∀ y, offer = some y → freeHid (mir s i) = none ∨ freeBlocks (getInst s i) none = 0 → Ends (.migrateIn i lid) i s (discardIn i y) (fun v => v = sendMsg i { inMsg y tRefuse with reason := 9 } t)) ∧
    (∀ y hid q, offer = some y → freeHid (mir s i) = some hid → freeBlocks (getInst s i) none ≠ 0 → findSeq (mir s i) lid = some q → Ends (.migrateIn i lid) i s (fun v => v) (fun v =>
      v = applyMigrateIn i lid n t ∧ (seqOf v i lid).r.state = .migrating ∧ (seqOf v i lid).r.household = hid ∧ (seqOf v i lid).r.leader = true ∧
        (seqOf v i lid).r.liveMembers = 1 ∧ ∃ h ∈ (mir v i).households, h.id = hid ∧ h.leader = lid)) := by
  intro t offer
  have hmir : mir t i = mir s i := released_mir i lid s
  have hblocks : freeBlocks (getInst t i) none = freeBlocks (getInst s i) none := freeBlocks_released none
  have hoffer : offered (mir t i) lid n = offer := congrArg (offered · lid n) hmir
  have hrow := exec_migrateIn hkind
  refine ⟨fun hnone => ends_of_event (after := fun v => v) t hrow (applyMigrateIn_none (hoffer.trans hnone)) rfl,
    fun y hy hno => ends_of_event (after := discardIn i y) _ hrow (applyMigrateIn_refused (hoffer.trans hy) (by rw [hmir, hblocks]; exact hno)) rfl,
    fun y hid q hy hhid hb hq => ends_of_event (after := fun v => v) _ hrow rfl
      ⟨rfl, (applyMigrateIn_placed (hoffer.trans hy) (hmir.symm ▸ hhid) (hblocks.symm ▸ hb) (hmir.symm ▸ hq)).claims⟩⟩

/-! ### The end at the destination -/

theorem exec_migrateDone {n : Nat} (hkind : headKind s i lid = some (.migrateDone n)) :
    exec (.migrateDone i lid) s = endEvent i s (applyMigrateDone i lid n (releaseEvent i (.seq lid) s)) := by
  show execMigrateDone i lid s = _
  unfold execMigrateDone
  rw [hkind]

theorem migrationsDone (n : Nat) (hkind : headKind s i lid = some (.migrateDone n)) :
    let t := releaseEvent i (.seq lid) s
    let due := (mir s i).inXfers.find? (fun y => y.subject == n && y.lid == lid && !y.forward && !y.handedOver && !y.final.isEmpty)
    (due = none → Ends (.migrateDone i lid) i s (fun v => v) (fun v => v = t)) ∧
    (∀ y, due = some y → Ends (.migrateDone i lid) i s (doMigrateDone i lid y) (fun v => v = t)) := by
  intro t due
  have happly : applyMigrateDone i lid n t = due.elim t (fun y => doMigrateDone i lid y t) := by
    unfold applyMigrateDone
    rw [released_mir]
    show _ = Option.elim (List.find? _ _) _ _
    cases List.find? _ _ <;> rfl
  refine ⟨fun hnone => ends_of_event (after := fun v => v) t (exec_migrateDone hkind) (happly.trans (by rw [hnone]; rfl)) rfl,
    fun y hy => ends_of_event (after := doMigrateDone i lid y) t (exec_migrateDone hkind) (happly.trans (by rw [hy]; rfl)) rfl⟩

/-! ### Messages held back -/

theorem heldMessagesLeave (i : InstId) (s : State) :
    let leave := (getInst s i).stair.held.filter fun h => decide (h.due ≤ s.tick)
    (leave ≠ [] → Mirrors (.reorderRelease i) i s (fun v =>
      (getInst v i).stair.outbox = (getInst s i).stair.outbox ++ leave.map (·.sent) ∧
      (getInst v i).stair.held = (getInst s i).stair.held.filter (fun h => !decide (h.due ≤ s.tick)) ∧ mir v i = mir s i)) ∧
    (leave = [] → exec (.reorderRelease i) s = .next s) := by
  intro leave
  refine ⟨fun hsome => ⟨_, if_neg ?_, ?_⟩, fun hnone => if_pos ?_⟩
  · rw [List.isEmpty_iff]
    exact hsome
  · cases i <;> exact ⟨rfl, rfl, rfl⟩
  · rw [List.isEmpty_iff]
    exact hnone

/-- Settles O51: each event of a migration by its branches; what an arrival and a closed transfer leave is carried through the shared operations by `Steady`. -/
theorem migrationEvents : Obligations.MigrationEvents := by
  intro i lid s
  exact ⟨migrationsStart, migrationsAcknowledged, migrationsFail, migrationsArrive, migrationsDone, heldMessagesLeave i s⟩

end Sys2Proof.MigrationRules

/-! SUPPORT. What an operation writes (the footprint): which parts of the package, beside the queue, the tick and the power that `Kept` speaks of, it may change, as one relation under a licence, and the lemmas that compose it. -/

namespace Sys2Proof.Footprint

open Sys2Proof Sys2Proof.Machine Sys2Proof.Laws

/-- A permission that is given, for the search of hypotheses to find. -/
abbrev Granted (p : Prop) : Prop := Nonempty p

theorem Granted.out {p : Prop} (h : Granted p) : p := h.elim id

/-- The parts of the package that may be written. -/
structure Licence where
  inst : InstId → Bool
  place : Bool := false
  outposts : Bool := false
  hbm : Bool := false
  host : Bool := false
  flash : Bool := false
  calib : Bool := false
  reset : Bool := false
  board : Bool := false
  role : Bool := false

abbrev Licence.Place (L : Licence) : Prop := L.place = true
abbrev Licence.Outposts (L : Licence) : Prop := L.outposts = true
abbrev Licence.Hbm (L : Licence) : Prop := L.hbm = true
abbrev Licence.Host (L : Licence) : Prop := L.host = true
abbrev Licence.Flash (L : Licence) : Prop := L.flash = true
abbrev Licence.Calib (L : Licence) : Prop := L.calib = true
abbrev Licence.Reset (L : Licence) : Prop := L.reset = true
abbrev Licence.Board (L : Licence) : Prop := L.board = true
abbrev Licence.Role (L : Licence) : Prop := L.role = true

/-- The role that an instance plays in its pair, and its stream (spec/17 R361-R368). -/
abbrev pairRole (r : Reliability) : Bool × MirrorState × Bool × Bool × Bool × List MirrorMsg := (r.active, r.mirror, r.failed, r.failSent, r.claiming, r.streamOut)

/-- Nothing is written but what the licence names. -/
structure Frame (L : Licence) (s t : State) : Prop where
  inst : ∀ j, L.inst j = false → getInst t j = getInst s j
  place : L.place = false → ∀ j, (getInst t j).place = (getInst s j).place
  outposts : L.outposts = false → t.outposts = s.outposts
  hbm : L.hbm = false → t.hbm = s.hbm
  host : L.host = false → t.host = s.host
  flash : L.flash = false → t.flash = s.flash
  calib : L.calib = false → t.calib = s.calib
  reset : L.reset = false → t.cap = s.cap ∧ t.powered = s.powered
  board : L.board = false → t.board = s.board
  role : L.role = false → ∀ j, pairRole (getInst t j).rel = pairRole (getInst s j).rel

variable {L : Licence} {s t u : State}

theorem Frame.refl (s : State) : Frame L s s := ⟨fun _ _ => rfl, fun _ _ => rfl, fun _ => rfl, fun _ => rfl, fun _ => rfl, fun _ => rfl, fun _ => rfl, fun _ => ⟨rfl, rfl⟩, fun _ => rfl, fun _ _ => rfl⟩

theorem Frame.trans (h : Frame L s t) (k : Frame L t u) : Frame L s u :=
  ⟨fun j e => (k.inst j e).trans (h.inst j e), fun e j => (k.place e j).trans (h.place e j), fun e => (k.outposts e).trans (h.outposts e), fun e => (k.hbm e).trans (h.hbm e),
    fun e => (k.host e).trans (h.host e), fun e => (k.flash e).trans (h.flash e), fun e => (k.calib e).trans (h.calib e),
    fun e => ⟨(k.reset e).1.trans (h.reset e).1, (k.reset e).2.trans (h.reset e).2⟩, fun e => (k.board e).trans (h.board e),
    fun e j => (k.role e j).trans (h.role e j)⟩

/-- What was sent, the path, the bus and the free values are of no licence. -/
theorem Frame.raw {p m n bd fr q tk} (h : Frame L s t) :
    Frame L s ⟨t.powered, tk, t.a, t.b, t.outposts, t.flash, t.cap, t.hbm, t.host, p, t.calib, t.board, m, n, bd, fr, q⟩ :=
  ⟨fun j e => (by cases j <;> rfl : _ = getInst t j).trans (h.inst j e), fun e j => (by cases j <;> rfl : _ = (getInst t j).place).trans (h.place e j),
    h.outposts, h.hbm, h.host, h.flash, h.calib, h.reset, h.board,
    fun e j => (by cases j <;> rfl : _ = pairRole (getInst t j).rel).trans (h.role e j)⟩

theorem licensed {b : Bool} (h : b = true) (p : Prop) : b = false → p := fun e => nomatch h.symm.trans e

theorem Frame.rawFlash {f} [hf : Granted L.Flash] (h : Frame L s t) : Frame L s { t with flash := f } :=
  ⟨fun j e => (by cases j <;> rfl : _ = getInst t j).trans (h.inst j e), fun e j => (by cases j <;> rfl : _ = (getInst t j).place).trans (h.place e j),
    h.outposts, h.hbm, h.host, licensed hf.out _, h.calib, h.reset, h.board,
    fun e j => (by cases j <;> rfl : _ = pairRole (getInst t j).rel).trans (h.role e j)⟩

theorem Frame.rawCalib {c} [hc : Granted L.Calib] (h : Frame L s t) : Frame L s { t with calib := c } :=
  ⟨fun j e => (by cases j <;> rfl : _ = getInst t j).trans (h.inst j e), fun e j => (by cases j <;> rfl : _ = (getInst t j).place).trans (h.place e j),
    h.outposts, h.hbm, h.host, h.flash, licensed hc.out _, h.reset, h.board,
    fun e j => (by cases j <;> rfl : _ = pairRole (getInst t j).rel).trans (h.role e j)⟩

theorem Frame.rawBoard {b} [hb : Granted L.Board] (h : Frame L s t) : Frame L s { t with board := b } :=
  ⟨fun j e => (by cases j <;> rfl : _ = getInst t j).trans (h.inst j e), fun e j => (by cases j <;> rfl : _ = (getInst t j).place).trans (h.place e j),
    h.outposts, h.hbm, h.host, h.flash, h.calib, h.reset, licensed hb.out _,
    fun e j => (by cases j <;> rfl : _ = pairRole (getInst t j).rel).trans (h.role e j)⟩

theorem Frame.rawOutposts {o} [ho : Granted L.Outposts] (h : Frame L s t) : Frame L s { t with outposts := o } :=
  ⟨fun j e => (by cases j <;> rfl : _ = getInst t j).trans (h.inst j e), fun e j => (by cases j <;> rfl : _ = (getInst t j).place).trans (h.place e j),
    licensed ho.out _, h.hbm, h.host, h.flash, h.calib, h.reset, h.board,
    fun e j => (by cases j <;> rfl : _ = pairRole (getInst t j).rel).trans (h.role e j)⟩

theorem foldl_frame {α : Type} {f : State → α → State} (hf : ∀ t x, Frame L s t → Frame L s (f t x)) : ∀ (l : List α) (t : State), Frame L s t → Frame L s (l.foldl f t)
  | [], _, h => h
  | x :: l, t, h => foldl_frame hf l _ (hf t x h)

theorem ite_frame {c : Prop} [Decidable c] (h : Frame L s t) (k : Frame L s u) : Frame L s (if c then t else u) := by
  split
  · exact h
  · exact k

theorem hbmPut_frame (a : Nat) (bs : List Byte) [hb : Granted L.Hbm] (h : Frame L s t) : Frame L s (hbmPut a bs t) :=
  ⟨fun j e => (by cases j <;> rfl : _ = getInst t j).trans (h.inst j e), fun e j => (by cases j <;> rfl : _ = (getInst t j).place).trans (h.place e j),
    h.outposts, licensed hb.out _, h.host, h.flash, h.calib, h.reset, h.board,
    fun e j => (by cases j <;> rfl : _ = pairRole (getInst t j).rel).trans (h.role e j)⟩

theorem hostPut_frame (a : Nat) (bs : List Byte) [hb : Granted L.Host] (h : Frame L s t) : Frame L s (hostPut a bs t) :=
  ⟨fun j e => (by cases j <;> rfl : _ = getInst t j).trans (h.inst j e), fun e j => (by cases j <;> rfl : _ = (getInst t j).place).trans (h.place e j),
    h.outposts, h.hbm, licensed hb.out _, h.flash, h.calib, h.reset, h.board,
    fun e j => (by cases j <;> rfl : _ = pairRole (getInst t j).rel).trans (h.role e j)⟩

theorem modOutpost_frame (o : Nat) (f : Outpost → Outpost) [Granted L.Outposts] (h : Frame L s t) : Frame L s (modOutpost o f t) := h.rawOutposts

theorem takeFree_frame (h : Frame L s t) : Frame L s (takeFree t).2 := h.raw

/-- A change of the instance `i` alone. -/
theorem modInst_frame_of (i : InstId) (f : Inst → Inst) (hp : L.place = false → ∀ x, (f x).place = x.place) (hr : L.role = false → ∀ x, pairRole (f x).rel = pairRole x.rel)
    [hi : Granted (L.inst i = true)] (h : Frame L s t) : Frame L s (modInst i f t) := by
  have hinst : ∀ j, L.inst j = false → getInst (modInst i f t) j = getInst t j := by
    intro j e
    cases i <;> cases j <;> first | rfl | exact absurd (hi.out.symm.trans e) (by decide)
  have hplace : L.place = false → ∀ j, (getInst (modInst i f t) j).place = (getInst t j).place := by
    intro e j
    cases i <;> cases j <;> first | rfl | exact hp e _
  have hrole : L.role = false → ∀ j, pairRole (getInst (modInst i f t) j).rel = pairRole (getInst t j).rel := by
    intro e j
    cases i <;> cases j <;> first | rfl | exact hr e _
  cases i <;> exact ⟨fun j e => (hinst j e).trans (h.inst j e), fun e j => (hplace e j).trans (h.place e j), h.outposts, h.hbm, h.host, h.flash, h.calib, h.reset, h.board,
    fun e j => (hrole e j).trans (h.role e j)⟩

/-- In what neither its placement nor its role in the pair is. -/
theorem modInst_frame (i : InstId) (f : Inst → Inst) (hf : ∀ x, (f x).place = x.place ∧ pairRole (f x).rel = pairRole x.rel) [Granted (L.inst i = true)] (h : Frame L s t) :
    Frame L s (modInst i f t) := modInst_frame_of i f (fun _ x => (hf x).1) (fun _ x => (hf x).2) h

theorem modInst_frame_place (i : InstId) (f : Inst → Inst) (hf : ∀ x, pairRole (f x).rel = pairRole x.rel) [Granted (L.inst i = true)] [hp : Granted L.Place] (h : Frame L s t) :
    Frame L s (modInst i f t) := modInst_frame_of i f (licensed hp.out _) (fun _ => hf) h

theorem modInst_frame_role (i : InstId) (f : Inst → Inst) (hf : ∀ x, (f x).place = x.place) [Granted (L.inst i = true)] [hr : Granted L.Role] (h : Frame L s t) :
    Frame L s (modInst i f t) := modInst_frame_of i f (fun _ => hf) (licensed hr.out _) h

theorem modInst_frame_any (i : InstId) (f : Inst → Inst) [Granted (L.inst i = true)] [hp : Granted L.Place] [hr : Granted L.Role] (h : Frame L s t) :
    Frame L s (modInst i f t) := modInst_frame_of i f (licensed hp.out _) (licensed hr.out _) h

/-- What a block reset writes beside its instance. -/
theorem Frame.rawReset {c o p f} [hc : Granted L.Calib] [ho : Granted L.Outposts] [hr : Granted L.Reset] [hf : Granted L.Flash] (h : Frame L s t) :
    Frame L s { t with calib := c, outposts := o, cap := p, flash := f } :=
  ⟨fun j e => (by cases j <;> rfl : _ = getInst t j).trans (h.inst j e), fun e j => (by cases j <;> rfl : _ = (getInst t j).place).trans (h.place e j),
    licensed ho.out _, h.hbm, h.host, licensed hf.out _, licensed hc.out _, licensed hr.out _, h.board,
    fun e j => (by cases j <;> rfl : _ = pairRole (getInst t j).rel).trans (h.role e j)⟩

theorem Frame.rawRelease {p f} [hr : Granted L.Reset] [hf : Granted L.Flash] (h : Frame L s t) : Frame L s { t with cap := p, flash := f } :=
  ⟨fun j e => (by cases j <;> rfl : _ = getInst t j).trans (h.inst j e), fun e j => (by cases j <;> rfl : _ = (getInst t j).place).trans (h.place e j),
    h.outposts, h.hbm, h.host, licensed hf.out _, h.calib, licensed hr.out _, h.board,
    fun e j => (by cases j <;> rfl : _ = pairRole (getInst t j).rel).trans (h.role e j)⟩

theorem modMir_frame (x0 : InstId) (x1 : Mirrored → Mirrored) [Granted (L.inst x0 = true)] (h : Frame L s t) :
    Frame L s (modMir x0 x1 t) := by
  unfold modMir
  repeat' first | (with_reducible first | assumption | apply modInst_frame | exact fun _ => ⟨rfl, rfl⟩)

theorem modHearth_frame (x0 : InstId) (x1 : Hearth → Hearth) [Granted (L.inst x0 = true)] (h : Frame L s t) :
    Frame L s (modHearth x0 x1 t) := by
  unfold modHearth
  repeat' first | (with_reducible first | assumption | apply modInst_frame | exact fun _ => ⟨rfl, rfl⟩)

theorem modHall_frame (x0 : InstId) (x1 : Hallway → Hallway) [Granted (L.inst x0 = true)] (h : Frame L s t) :
    Frame L s (modHall x0 x1 t) := by
  unfold modHall
  repeat' first | (with_reducible first | assumption | apply modInst_frame | exact fun _ => ⟨rfl, rfl⟩)

theorem modStair_frame (x0 : InstId) (x1 : Stairwell → Stairwell) [Granted (L.inst x0 = true)] (h : Frame L s t) :
    Frame L s (modStair x0 x1 t) := by
  unfold modStair
  repeat' first | (with_reducible first | assumption | apply modInst_frame | exact fun _ => ⟨rfl, rfl⟩)

/-- A change of the reliability block in what its role in the pair is not. -/
theorem modRel_frame (x0 : InstId) (x1 : Reliability → Reliability) (hf : ∀ r, pairRole (x1 r) = pairRole r) [Granted (L.inst x0 = true)] (h : Frame L s t) :
    Frame L s (modRel x0 x1 t) := modInst_frame x0 _ (fun x => ⟨rfl, hf x.rel⟩) h

theorem modRel_frame_role (x0 : InstId) (x1 : Reliability → Reliability) [Granted (L.inst x0 = true)] [Granted L.Role] (h : Frame L s t) :
    Frame L s (modRel x0 x1 t) := modInst_frame_role x0 _ (fun _ => rfl) h

theorem modStudy_frame (x0 : InstId) (x1 : Study → Study) [Granted (L.inst x0 = true)] (h : Frame L s t) :
    Frame L s (modStudy x0 x1 t) := by
  unfold modStudy
  repeat' first | (with_reducible first | assumption | apply modInst_frame | exact fun _ => ⟨rfl, rfl⟩)

theorem modKit_frame (x0 : InstId) (x1 : Kitchen → Kitchen) [Granted (L.inst x0 = true)] (h : Frame L s t) :
    Frame L s (modKit x0 x1 t) := by
  unfold modKit
  repeat' first | (with_reducible first | assumption | apply modMir_frame)

theorem modFoyer_frame (x0 : InstId) (x1 : Foyer → Foyer) [Granted (L.inst x0 = true)] (h : Frame L s t) :
    Frame L s (modFoyer x0 x1 t) := by
  unfold modFoyer
  repeat' first | (with_reducible first | assumption | apply modMir_frame)

theorem modDir_frame (x0 : InstId) (x1 : Directory → Directory) [Granted (L.inst x0 = true)] (h : Frame L s t) :
    Frame L s (modDir x0 x1 t) := by
  unfold modDir
  repeat' first | (with_reducible first | assumption | apply modMir_frame)

theorem modLib_frame (x0 : InstId) (x1 : Library → Library) [Granted (L.inst x0 = true)] (h : Frame L s t) :
    Frame L s (modLib x0 x1 t) := by
  unfold modLib
  repeat' first | (with_reducible first | assumption | apply modMir_frame)

theorem modPantry_frame (x0 : InstId) (x1 : Pantry → Pantry) [Granted (L.inst x0 = true)] (h : Frame L s t) :
    Frame L s (modPantry x0 x1 t) := by
  unfold modPantry
  repeat' first | (with_reducible first | assumption | apply modMir_frame)

theorem modCtx_frame (x0 : InstId) (x1 : Nat) (x2 : Ctx → Ctx) [Granted (L.inst x0 = true)] (h : Frame L s t) :
    Frame L s (modCtx x0 x1 x2 t) := by
  unfold modCtx
  repeat' first | (with_reducible first | assumption | apply modMir_frame)

theorem modAcct_frame (x0 : InstId) (x1 : Nat) (x2 : Acct → Acct) [Granted (L.inst x0 = true)] (h : Frame L s t) :
    Frame L s (modAcct x0 x1 x2 t) := by
  unfold modAcct
  repeat' first | (with_reducible first | assumption | apply modCtx_frame)

theorem modModel_frame (x0 : InstId) (x1 : Nat) (x2 : Model → Model) [Granted (L.inst x0 = true)] (h : Frame L s t) :
    Frame L s (modModel x0 x1 x2 t) := by
  unfold modModel
  repeat' first | (with_reducible first | assumption | apply modDir_frame)

theorem modWin_frame (x0 : InstId) (x1 : Nat) (x2 : Window → Window) [Granted (L.inst x0 = true)] (h : Frame L s t) :
    Frame L s (modWin x0 x1 x2 t) := by
  unfold modWin
  repeat' first | (with_reducible first | assumption | apply modMir_frame)

theorem modLatch_frame (x0 : InstId) (x1 : Nat) (x2 : Latch → Latch) [Granted (L.inst x0 = true)] (h : Frame L s t) :
    Frame L s (modLatch x0 x1 x2 t) := by
  unfold modLatch
  repeat' first | (with_reducible first | assumption | apply modMir_frame)

theorem modSeq_frame (x0 : InstId) (x1 : Nat) (x2 : Machine.Seq → Machine.Seq) [Granted (L.inst x0 = true)] (h : Frame L s t) :
    Frame L s (modSeq x0 x1 x2 t) := by
  unfold modSeq
  repeat' first | (with_reducible first | assumption | apply modMir_frame)

theorem modRec_frame (x0 : InstId) (x1 : Nat) (x2 : Record → Record) [Granted (L.inst x0 = true)] (h : Frame L s t) :
    Frame L s (modRec x0 x1 x2 t) := by
  unfold modRec
  repeat' first | (with_reducible first | assumption | apply modSeq_frame)

theorem modHouse_frame (x0 : InstId) (x1 : Nat) (x2 : Household → Household) [Granted (L.inst x0 = true)] (h : Frame L s t) :
    Frame L s (modHouse x0 x1 x2 t) := by
  unfold modHouse
  repeat' first | (with_reducible first | assumption | apply modMir_frame)

theorem modStep_frame (x0 : InstId) (x1 : Nat) (x2 : Machine.Step → Machine.Step) [Granted (L.inst x0 = true)] (h : Frame L s t) :
    Frame L s (modStep x0 x1 x2 t) := by
  unfold modStep
  repeat' first | (with_reducible first | assumption | apply modKit_frame)

theorem sendIrq_frame (x0 : InstId) (x1 x2 : BitVec 36) [Granted (L.inst x0 = true)] (h : Frame L s t) :
    Frame L s (sendIrq x0 x1 x2 t) := by
  unfold sendIrq
  repeat' first | (with_reducible first | assumption) | with_reducible apply Frame.raw

theorem raiseIrq_frame (x0 : InstId) (x1 : Nat) [Granted (L.inst x0 = true)] (h : Frame L s t) :
    Frame L s (raiseIrq x0 x1 t) := by
  unfold raiseIrq
  repeat' first | (with_reducible first | assumption | apply modMir_frame | apply sendIrq_frame)

theorem logFault_frame (x0 : InstId) (x1 x2 : Nat) (x3 : Option Nat) (x4 x5 x6 : Nat) [Granted (L.inst x0 = true)] (h : Frame L s t) :
    Frame L s (logFault x0 x1 x2 x3 x4 x5 x6 t) := by
  unfold logFault
  repeat' first | (with_reducible first | assumption | apply modRel_frame | exact fun _ => rfl | apply raiseIrq_frame)

theorem countFixed_frame (x0 : InstId) (x1 : Nat) [Granted (L.inst x0 = true)] (h : Frame L s t) :
    Frame L s (countFixed x0 x1 t) := by
  unfold countFixed
  repeat' first | (with_reducible first | assumption | apply modRel_frame | exact fun _ => rfl) | split

theorem ringEnter_frame (x0 : InstId) (x1 : RingEvent) [Granted (L.inst x0 = true)] (h : Frame L s t) :
    Frame L s (ringEnter x0 x1 t) := by
  unfold ringEnter
  repeat' first | (with_reducible first | assumption | apply modStudy_frame)

theorem ringPush_frame (x0 : InstId) (x1 x2 x3 x4 : Nat) (x5 : List Nat) [Granted (L.inst x0 = true)] (h : Frame L s t) :
    Frame L s (ringPush x0 x1 x2 x3 x4 x5 t) := by
  unfold ringPush
  repeat' first | (with_reducible first | assumption | apply ringEnter_frame)

theorem ringMessage_frame (x0 : InstId) (x1 x2 : Nat) (x3 : ChannelMsg) [Granted (L.inst x0 = true)] (h : Frame L s t) :
    Frame L s (ringMessage x0 x1 x2 x3 t) := by
  unfold ringMessage
  repeat' first | (with_reducible first | assumption | apply ringEnter_frame)

theorem postTo_frame (x0 : InstId) (x1 : Flow) (x2 : EvKind) (x3 : Bool) (x4 : Nat) [Granted (L.inst x0 = true)] (h : Frame L s t) :
    Frame L s (postTo x0 x1 x2 x3 x4 t) := by
  unfold postTo
  repeat' first | (with_reducible first | assumption | apply modHall_frame)

theorem flushBcast_frame (x0 : InstId) (x1 : Nat) [Granted (L.inst x0 = true)] (h : Frame L s t) :
    Frame L s (flushBcast x0 x1 t) := by
  unfold flushBcast
  repeat' first | (with_reducible first | assumption | apply modSeq_frame | apply postTo_frame | apply foldl_frame) | intro _

theorem postSeq_frame (x0 : InstId) (x1 : Nat) (x2 : EvKind) [Granted (L.inst x0 = true)] (h : Frame L s t) :
    Frame L s (postSeq x0 x1 x2 t) := by
  unfold postSeq
  repeat' first | (with_reducible first | assumption | apply flushBcast_frame | apply postTo_frame)

theorem postUnit_frame (x0 : InstId) (x1 : Nat) (x2 : EvKind) [Granted (L.inst x0 = true)] (h : Frame L s t) :
    Frame L s (postUnit x0 x1 x2 t) := by
  unfold postUnit
  repeat' first | (with_reducible first | assumption | apply postTo_frame)

theorem broadcastTo_frame (x0 : InstId) (x1 : Bcast) (x2 : Nat) [Granted (L.inst x0 = true)] (h : Frame L s t) :
    Frame L s (broadcastTo x0 x1 x2 t) := by
  unfold broadcastTo
  repeat' first | (with_reducible first | assumption | apply modSeq_frame | apply postTo_frame) | split

theorem broadcast_frame (x0 : InstId) (x1 : Bcast) (x2 : Machine.Seq → Bool) [Granted (L.inst x0 = true)] (h : Frame L s t) :
    Frame L s (broadcast x0 x1 x2 t) := by
  unfold broadcast
  repeat' first | (with_reducible first | assumption | apply broadcastTo_frame | apply foldl_frame) | intro _

theorem releaseEvent_frame (x0 : InstId) (x1 : Flow) [Granted (L.inst x0 = true)] (h : Frame L s t) :
    Frame L s (releaseEvent x0 x1 t) := by
  unfold releaseEvent
  repeat' first | (with_reducible first | assumption | apply modHall_frame | apply ringPush_frame) | split

theorem duskSet_frame (x0 : InstId) (x1 x2 x3 : Nat) [Granted (L.inst x0 = true)] (h : Frame L s t) :
    Frame L s (duskSet x0 x1 x2 x3 t) := by
  unfold duskSet
  repeat' first | (with_reducible first | assumption | apply modMir_frame | apply modRec_frame)

theorem duskClear_frame (x0 : InstId) (x1 x2 : Nat) [Granted (L.inst x0 = true)] (h : Frame L s t) :
    Frame L s (duskClear x0 x1 x2 t) := by
  unfold duskClear
  repeat' first | (with_reducible first | assumption | apply modMir_frame | apply modRec_frame)

theorem duskUnit_frame (x0 : InstId) (x1 x2 x3 : Nat) [Granted (L.inst x0 = true)] (h : Frame L s t) :
    Frame L s (duskUnit x0 x1 x2 x3 t) := by
  unfold duskUnit
  repeat' first | (with_reducible first | assumption | apply modMir_frame)

theorem duskMore_frame (x0 : InstId) (x1 x2 x3 : Nat) [Granted (L.inst x0 = true)] (h : Frame L s t) :
    Frame L s (duskMore x0 x1 x2 x3 t) := by
  unfold duskMore
  repeat' first | (with_reducible first | assumption | apply modMir_frame)

theorem duskDrop_frame (x0 : InstId) (x1 x2 : Nat) [Granted (L.inst x0 = true)] (h : Frame L s t) :
    Frame L s (duskDrop x0 x1 x2 t) := by
  unfold duskDrop
  repeat' first | (with_reducible first | assumption | apply modMir_frame)

theorem retime_frame (x0 : InstId) (x1 : Nat) [Granted (L.inst x0 = true)] (h : Frame L s t) :
    Frame L s (retime x0 x1 t) := by
  unfold retime
  repeat' first | (with_reducible first | assumption | apply duskClear_frame | apply duskSet_frame) | split

theorem fireEntry_frame (x0 : InstId) (x1 : Dusk) [Granted (L.inst x0 = true)] (h : Frame L s t) :
    Frame L s (fireEntry x0 x1 t) := by
  unfold fireEntry
  repeat' first | (with_reducible first | assumption | apply flushBcast_frame | apply modHall_frame | apply modMir_frame | apply postTo_frame) | split

theorem fireSome_frame (x0 : InstId) (x1 : Dusk → Bool) [Granted (L.inst x0 = true)] (h : Frame L s t) :
    Frame L s (fireSome x0 x1 t) := by
  unfold fireSome
  repeat' first | (with_reducible first | assumption | apply fireEntry_frame | apply modHall_frame | apply foldl_frame) | split | intro _

theorem fireLists_frame (x0 : InstId) [Granted (L.inst x0 = true)] (h : Frame L s t) :
    Frame L s (fireLists x0 t) := by
  unfold fireLists
  repeat' first | (with_reducible first | assumption | apply fireSome_frame | apply modHall_frame)

theorem countStale_frame (x0 : InstId) (x1 : Nat) [Granted (L.inst x0 = true)] (h : Frame L s t) :
    Frame L s (countStale x0 x1 t) := by
  unfold countStale
  repeat' first | (with_reducible first | assumption | apply modHall_frame)

theorem enterState_frame (x0 : InstId) (x1 : Nat) (x2 : SeqState) [Granted (L.inst x0 = true)] (h : Frame L s t) :
    Frame L s (enterState x0 x1 x2 t) := by
  unfold enterState
  repeat' first | (with_reducible first | assumption | apply modSeq_frame | apply retime_frame) | split

theorem journal_frame (x0 : InstId) (x1 : List JEntry) [Granted (L.inst x0 = true)] (h : Frame L s t) :
    Frame L s (journal x0 x1 t) := by
  unfold journal
  repeat' first | (with_reducible first | assumption | apply modRel_frame | exact fun _ => rfl)

theorem journalRecord_frame (x0 : InstId) (x1 : Nat) [Granted (L.inst x0 = true)] (h : Frame L s t) :
    Frame L s (journalRecord x0 x1 t) := by
  unfold journalRecord
  repeat' first | (with_reducible first | assumption | apply journal_frame) | split

theorem journalRing_frame (x0 : InstId) (x1 : Nat) [Granted (L.inst x0 = true)] (h : Frame L s t) :
    Frame L s (journalRing x0 x1 t) := by
  unfold journalRing
  repeat' first | (with_reducible first | assumption | apply journal_frame)

theorem journalObj_frame (x0 : InstId) (x1 : JObj) [Granted (L.inst x0 = true)] (h : Frame L s t) :
    Frame L s (journalObj x0 x1 t) := by
  unfold journalObj
  repeat' first | (with_reducible first | assumption | apply journal_frame)

theorem faultAt_frame (x0 : InstId) (x1 x2 : Nat) [Granted (L.inst x0 = true)] (h : Frame L s t) :
    Frame L s (faultAt x0 x1 x2 t) := by
  unfold faultAt
  repeat' first | (with_reducible first | assumption | apply modCtx_frame)

theorem askFault_frame (x0 : InstId) (x1 x2 : Nat) [Granted (L.inst x0 = true)] (h : Frame L s t) :
    Frame L s (askFault x0 x1 x2 t) := by
  unfold askFault
  repeat' first | (with_reducible first | assumption | apply modCtx_frame)

theorem freeArrival_frame (x0 : InstId) (x1 : Nat) [Granted (L.inst x0 = true)] (h : Frame L s t) :
    Frame L s (freeArrival x0 x1 t) := by
  unfold freeArrival
  repeat' first | (with_reducible first | assumption | apply modMir_frame)

theorem discardRecord_frame (x0 : InstId) (x1 : Completion) [Granted (L.inst x0 = true)] (h : Frame L s t) :
    Frame L s (discardRecord x0 x1 t) := by
  unfold discardRecord
  repeat' first | (with_reducible first | assumption | apply freeArrival_frame) | split

theorem storeRecord_frame (x0 : InstId) (x1 : Nat) (x2 : Completion) [Granted (L.inst x0 = true)] [Granted L.Hbm] (h : Frame L s t) :
    Frame L s (storeRecord x0 x1 x2 t) := by
  unfold storeRecord
  repeat' first | (with_reducible first | assumption | apply hbmPut_frame) | split | dsimp only

theorem postRecord_frame (x0 : InstId) (x1 : Nat) (x2 : Completion) [Granted (L.inst x0 = true)] [Granted L.Hbm] (h : Frame L s t) :
    Frame L s (postRecord x0 x1 x2 t) := by
  unfold postRecord
  repeat' first | (with_reducible first | assumption | apply askFault_frame | apply discardRecord_frame | apply journal_frame | apply modCtx_frame | apply ringPush_frame | apply storeRecord_frame) | split | dsimp only

theorem postSeqRecord_frame (x0 : InstId) (x1 x2 x3 : Nat) (x4 : Bool) [Granted (L.inst x0 = true)] [Granted L.Hbm] (h : Frame L s t) :
    Frame L s (postSeqRecord x0 x1 x2 x3 x4 t) := by
  unfold postSeqRecord
  repeat' first | (with_reducible first | assumption | apply modRec_frame | apply postRecord_frame)

theorem postReject_frame (x0 : InstId) (x1 : Nat) (x2 : Request) (x3 : Nat) [Granted (L.inst x0 = true)] [Granted L.Hbm] (h : Frame L s t) :
    Frame L s (postReject x0 x1 x2 x3 t) := by
  unfold postReject
  repeat' first | (with_reducible first | assumption | apply postRecord_frame)

theorem notePlanFaults_frame (x0 : InstId) (x1 x2 : Nat) [Granted (L.inst x0 = true)] (h : Frame L s t) :
    Frame L s (notePlanFaults x0 x1 x2 t) := by
  unfold notePlanFaults
  repeat' first | (with_reducible first | assumption | apply modAcct_frame)

theorem rejectLeft_frame (x0 : InstId) (x1 : Nat) (x2 : Request) (x3 : Nat) [Granted (L.inst x0 = true)] [Granted L.Hbm] (h : Frame L s t) :
    Frame L s (rejectLeft x0 x1 x2 x3 t) := by
  unfold rejectLeft
  repeat' first | (with_reducible first | assumption | apply notePlanFaults_frame | apply postReject_frame | apply ringPush_frame)

theorem mirrorOut_frame (x0 : InstId) (x1 : State) [Granted (L.inst x0 = true)] [Granted L.Role] (h : Frame L s t) :
    Frame L s (mirrorOut x0 x1 t) := by
  unfold mirrorOut
  repeat' first | (with_reducible first | assumption | apply modRel_frame_role) | split | dsimp only

theorem done_frame (x0 : InstId) (x1 : State) [Granted (L.inst x0 = true)] [Granted L.Role] (h : Frame L s t) :
    ResOk (Frame L s) (done x0 x1 t) := by
  unfold done
  repeat' first | (with_reducible first | assumption | apply mirrorOut_frame | apply ResOk.next)

theorem setCause_frame (x0 : InstId) (x1 : Nat) [Granted (L.inst x0 = true)] (h : Frame L s t) :
    Frame L s (setCause x0 x1 t) := by
  unfold setCause
  repeat' first | (with_reducible first | assumption | apply modStudy_frame | apply raiseIrq_frame) | split | dsimp only

theorem traceStore_frame (x0 : InstId) (x1 : TraceRec) [Granted (L.inst x0 = true)] [Granted L.Hbm] (h : Frame L s t) :
    Frame L s (traceStore x0 x1 t).1 := by
  unfold traceStore
  repeat' first | (with_reducible first | assumption | apply hbmPut_frame | apply modStudy_frame | apply setCause_frame) | split | dsimp only

theorem traceGap_frame (x0 : InstId) [Granted (L.inst x0 = true)] [Granted L.Hbm] (h : Frame L s t) :
    Frame L s (traceGap x0 t) := by
  unfold traceGap
  repeat' first | (with_reducible first | assumption | apply modStudy_frame | apply setCause_frame | apply traceStore_frame) | split | dsimp only

theorem traceDrop_frame (x0 : InstId) (x1 : TraceRec) [Granted (L.inst x0 = true)] (h : Frame L s t) :
    Frame L s (traceDrop x0 x1 t) := by
  unfold traceDrop
  repeat' first | (with_reducible first | assumption | apply modStudy_frame) | split

theorem traceWrite_frame (x0 : InstId) (x1 : TraceRec) [Granted (L.inst x0 = true)] [Granted L.Hbm] (h : Frame L s t) :
    Frame L s (traceWrite x0 x1 t) := by
  unfold traceWrite
  repeat' first | (with_reducible first | assumption | apply traceDrop_frame | apply traceGap_frame | apply traceStore_frame) | split | dsimp only

theorem traceBurst_frame (x0 : InstId) (x1 : Nat) [Granted (L.inst x0 = true)] [Granted L.Hbm] (h : Frame L s t) :
    Frame L s (traceBurst x0 x1 t) := by
  unfold traceBurst
  repeat' first | (with_reducible first | assumption | apply modStudy_frame | apply traceWrite_frame | apply foldl_frame) | intro _

theorem traceAdd_frame (x0 : InstId) (x1 : TraceRec) [Granted (L.inst x0 = true)] [Granted L.Hbm] (h : Frame L s t) :
    Frame L s (traceAdd x0 x1 t) := by
  unfold traceAdd
  repeat' first | (with_reducible first | assumption | apply modStudy_frame | apply traceBurst_frame | apply traceDrop_frame) | split | dsimp only

theorem traceMark_frame (x0 : InstId) (x1 x2 x3 : Nat) [Granted (L.inst x0 = true)] [Granted L.Hbm] (h : Frame L s t) :
    Frame L s (traceMark x0 x1 x2 x3 t) := by
  unfold traceMark
  repeat' first | (with_reducible first | assumption | apply traceAdd_frame) | split

theorem writeAttic_frame (x0 : InstId) (x1 : Nat) [Granted (L.inst x0 = true)] [Granted L.Hbm] (h : Frame L s t) :
    Frame L s (writeAttic x0 x1 t) := by
  unfold writeAttic
  repeat' first | (with_reducible first | assumption | apply hbmPut_frame) | split | dsimp only

theorem writeChain_frame (x0 x1 x2 : Nat) (x3 : Bool) (x4 x5 : List Nat) [Granted L.Hbm] (h : Frame L s t) :
    Frame L s (writeChain x0 x1 x2 x3 x4 x5 t) := by
  induction x4 generalizing x3 x5 t with
 | nil => (unfold writeChain; exact h)
 | cons a b ih =>
    unfold writeChain
    repeat' first | (with_reducible first | apply ih | assumption | apply hbmPut_frame)

theorem holdBlocks_frame (x0 : InstId) (x1 x2 : Nat) [Granted (L.inst x0 = true)] (h : Frame L s t) :
    Frame L s (holdBlocks x0 x1 x2 t) := by
  unfold holdBlocks
  repeat' first | (with_reducible first | assumption | apply modSeq_frame)

theorem writeList_frame (x0 : InstId) (x1 : Nat) [Granted (L.inst x0 = true)] [Granted L.Hbm] (h : Frame L s t) : Frame L s (writeList x0 x1 t) := by
  unfold writeList
  dsimp only
  exact writeAttic_frame _ _ (writeChain_frame _ _ _ _ _ _ (writeChain_frame _ _ _ _ _ _ (modSeq_frame _ _ _ h)))

theorem clearLone_frame (x0 : InstId) (x1 : Nat) [Granted (L.inst x0 = true)] [Granted L.Hbm] (h : Frame L s t) :
    Frame L s (clearLone x0 x1 t) := by
  unfold clearLone
  repeat' first | (with_reducible first | assumption | apply modSeq_frame | apply writeList_frame) | split

theorem dropPage_frame (x0 : InstId) (x1 : Nat) [Granted (L.inst x0 = true)] [Granted L.Hbm] (h : Frame L s t) :
    Frame L s (dropPage x0 x1 t) := by
  unfold dropPage
  repeat' first | (with_reducible first | assumption | apply clearLone_frame | apply modMir_frame)

theorem freeAhead_frame (x0 : InstId) (x1 : Nat) (x2 : AheadPage → Bool) [Granted (L.inst x0 = true)] (h : Frame L s t) :
    Frame L s (freeAhead x0 x1 x2 t) := by
  unfold freeAhead
  repeat' first | (with_reducible first | assumption | apply modMir_frame | apply modSeq_frame | apply foldl_frame) | intro _

theorem releasePages_frame (x0 : InstId) (x1 : Nat) [Granted (L.inst x0 = true)] [Granted L.Hbm] (h : Frame L s t) :
    Frame L s (releasePages x0 x1 t) := by
  unfold releasePages
  repeat' first | (with_reducible first | assumption | apply dropPage_frame | apply freeAhead_frame | apply modSeq_frame | apply writeList_frame | apply foldl_frame) | intro _

theorem markShared_frame (x0 : InstId) (x1 : Nat) [Granted (L.inst x0 = true)] [Granted L.Hbm] (h : Frame L s t) :
    Frame L s (markShared x0 x1 t) := by
  unfold markShared
  repeat' first | (with_reducible first | assumption | apply modSeq_frame | apply writeList_frame | apply foldl_frame) | intro _

theorem takePrefix_frame (x0 : InstId) (x1 : Nat) [Granted (L.inst x0 = true)] [Granted L.Hbm] (h : Frame L s t) :
    Frame L s (takePrefix x0 x1 t) := by
  unfold takePrefix
  repeat' first | (with_reducible first | assumption | apply markShared_frame | apply modPantry_frame | apply modSeq_frame | apply writeList_frame | apply foldl_frame) | intro _

theorem takeAhead_frame (x0 : InstId) (x1 : Nat) (x2 : Bool) (x3 : List Nat) [Granted (L.inst x0 = true)] (h : Frame L s t) :
    Frame L s (takeAhead x0 x1 x2 x3 t) := by
  unfold takeAhead
  repeat' first | (with_reducible first | assumption | apply modHouse_frame | apply modPantry_frame | apply modSeq_frame | apply foldl_frame) | split | dsimp only | intro _

theorem ensureTake_frame (x0 : InstId) (x1 : List EnsureReq) [Granted (L.inst x0 = true)] (h : Frame L s t) :
    Frame L s (ensureTake x0 x1 t) := by
  unfold ensureTake
  repeat' first | (with_reducible first | assumption | apply modHouse_frame | apply takeAhead_frame | apply foldl_frame) | intro _

theorem commitAhead_frame (x0 : InstId) (x1 : Nat) (x2 : AheadPage) [Granted (L.inst x0 = true)] [Granted L.Hbm] (h : Frame L s t) :
    Frame L s (commitAhead x0 x1 x2 t) := by
  unfold commitAhead
  repeat' first | (with_reducible first | assumption | apply dropPage_frame | apply modPantry_frame | apply modSeq_frame) | split | dsimp only

theorem sharePrefix_frame (x0 : InstId) (x1 : Nat) (x2 : List Nat) (x3 : AheadPage) [Granted (L.inst x0 = true)] (h : Frame L s t) :
    Frame L s (sharePrefix x0 x1 x2 x3 t) := by
  unfold sharePrefix
  repeat' first | (with_reducible first | assumption | apply modHouse_frame | apply modPantry_frame | apply modSeq_frame | apply foldl_frame) | intro _

theorem commitPrefix_frame (x0 : InstId) (x1 x2 : Nat) (x3 : List Nat) [Granted (L.inst x0 = true)] [Granted L.Hbm] (h : Frame L s t) :
    Frame L s (commitPrefix x0 x1 x2 x3 t) := by
  unfold commitPrefix
  repeat' first | (with_reducible first | assumption | apply sharePrefix_frame | apply writeList_frame | apply foldl_frame) | intro _

theorem notePrefix_frame (x0 : InstId) (x1 x2 : Nat) [Granted (L.inst x0 = true)] (h : Frame L s t) :
    Frame L s (notePrefix x0 x1 x2 t) := by
  unfold notePrefix
  repeat' first | (with_reducible first | assumption | apply modHouse_frame)

theorem commitRebuild_frame (x0 : InstId) (x1 : Nat) [Granted (L.inst x0 = true)] [Granted L.Hbm] (h : Frame L s t) :
    Frame L s (commitRebuild x0 x1 t) := by
  unfold commitRebuild
  repeat' first | (with_reducible first | assumption | apply commitAhead_frame | apply writeList_frame | apply foldl_frame) | intro _

theorem commitTarget_frame (x0 : InstId) (x1 : Nat) [Granted (L.inst x0 = true)] [Granted L.Hbm] (h : Frame L s t) :
    Frame L s (commitTarget x0 x1 t) := by
  unfold commitTarget
  repeat' first | (with_reducible first | assumption | apply commitAhead_frame | apply freeAhead_frame | apply writeList_frame | apply foldl_frame) | intro _

theorem commitDraft_frame (x0 : InstId) (x1 x2 x3 : Nat) [Granted (L.inst x0 = true)] [Granted L.Hbm] (h : Frame L s t) :
    Frame L s (commitDraft x0 x1 x2 x3 t) := by
  unfold commitDraft
  repeat' first | (with_reducible first | assumption | apply commitAhead_frame | apply writeList_frame | apply foldl_frame) | intro _

theorem trimDraft_frame (x0 : InstId) (x1 x2 : Nat) [Granted (L.inst x0 = true)] [Granted L.Hbm] (h : Frame L s t) :
    Frame L s (trimDraft x0 x1 x2 t) := by
  unfold trimDraft
  repeat' first | (with_reducible first | assumption | apply commitDraft_frame | apply freeAhead_frame | apply modMir_frame | apply modSeq_frame | apply writeList_frame | apply foldl_frame) | intro _

theorem evictPass_frame (x0 : InstId) (x1 : List Machine.Seq) (x2 x3 : Nat) [Granted (L.inst x0 = true)] (h : Frame L s t) :
    Frame L s (evictPass x0 x1 x2 x3 t) := by
  induction x1 generalizing x2 x3 t with
 | nil => (unfold evictPass; exact h)
 | cons a b ih =>
    unfold evictPass
    repeat' first | (with_reducible first | apply ih | assumption | apply postSeq_frame) | split | dsimp only

theorem evictResumes_frame (x0 : InstId) (x1 : List Nat) [Granted (L.inst x0 = true)] (h : Frame L s t) :
    Frame L s (evictResumes x0 x1 t) := by
  unfold evictResumes
  repeat' first | (with_reducible first | assumption | apply evictPass_frame) | split | dsimp only

theorem pushResult_frame (x0 : InstId) (x1 : Nat) (x2 : Bool) (x3 : ResultEntry) [Granted (L.inst x0 = true)] (h : Frame L s t) :
    Frame L s (pushResult x0 x1 x2 x3 t) := by
  unfold pushResult
  repeat' first | (with_reducible first | assumption | apply modWin_frame | apply raiseIrq_frame) | split

theorem commandLatch_frame (x0 : InstId) (x1 x2 x3 x4 : Nat) [Granted (L.inst x0 = true)] [Granted L.Hbm] (h : Frame L s t) :
    Frame L s (commandLatch x0 x1 x2 x3 x4 t) := by
  unfold commandLatch
  repeat' first | (with_reducible first | assumption | apply hbmPut_frame | apply traceMark_frame) | split | dsimp only

theorem modCmd_frame (x0 : InstId) (x1 : Nat) (x2 : MboxCmd → MboxCmd) [Granted (L.inst x0 = true)] (h : Frame L s t) :
    Frame L s (modCmd x0 x1 x2 t) := by
  unfold modCmd
  repeat' first | (with_reducible first | assumption | apply modMir_frame)

theorem finishCmd_frame (x0 : InstId) (x1 x2 x3 : Nat) (x4 : List Byte) [Granted (L.inst x0 = true)] [Granted L.Hbm] (h : Frame L s t) :
    Frame L s (finishCmd x0 x1 x2 x3 x4 t) := by
  unfold finishCmd
  repeat' first | (with_reducible first | assumption | apply commandLatch_frame | apply duskDrop_frame | apply modMir_frame | apply pushResult_frame | apply ringPush_frame) | split

theorem closeCmd_frame (x0 : InstId) (x1 : Nat) [Granted (L.inst x0 = true)] [Granted L.Hbm] (h : Frame L s t) :
    Frame L s (closeCmd x0 x1 t) := by
  unfold closeCmd
  repeat' first | (with_reducible first | assumption | apply finishCmd_frame) | split

theorem resolveEvent_frame (x0 : InstId) (x1 : Option Nat) (x2 : Bool) [Granted (L.inst x0 = true)] [Granted L.Hbm] (h : Frame L s t) :
    Frame L s (resolveEvent x0 x1 x2 t) := by
  unfold resolveEvent
  repeat' first | (with_reducible first | assumption | apply closeCmd_frame | apply modCmd_frame) | split

theorem endWatches_frame (x0 : InstId) (x1 : Nat) (x2 : Watch → Bool) [Granted (L.inst x0 = true)] [Granted L.Hbm] (h : Frame L s t) :
    Frame L s (endWatches x0 x1 x2 t) := by
  unfold endWatches
  repeat' first | (with_reducible first | assumption | apply finishCmd_frame | apply modStudy_frame | apply foldl_frame) | intro _

theorem watchAppended_frame (x0 : InstId) (x1 : Nat) [Granted (L.inst x0 = true)] [Granted L.Hbm] (h : Frame L s t) :
    Frame L s (watchAppended x0 x1 t) := by
  unfold watchAppended
  repeat' first | (with_reducible first | assumption | apply endWatches_frame)

theorem watchSweep_frame (x0 : InstId) (x1 : State) [Granted (L.inst x0 = true)] [Granted L.Hbm] (h : Frame L s t) :
    Frame L s (watchSweep x0 x1 t) := by
  unfold watchSweep
  repeat' first | (with_reducible first | assumption | apply endWatches_frame) | split

theorem faultCommands_frame (x0 : InstId) (x1 : Nat) [Granted (L.inst x0 = true)] [Granted L.Hbm] (h : Frame L s t) :
    Frame L s (faultCommands x0 x1 t) := by
  unfold faultCommands
  repeat' first | (with_reducible first | assumption | apply finishCmd_frame | apply modStudy_frame | apply foldl_frame) | intro _

theorem requestBit_frame (x0 : InstId) (x1 : Nat) (x2 : Bool) [Granted (L.inst x0 = true)] (h : Frame L s t) :
    Frame L s (requestBit x0 x1 x2 t) := by
  unfold requestBit
  repeat' first | (with_reducible first | assumption | apply modDir_frame | apply modModel_frame | apply raiseIrq_frame) | split | dsimp only

theorem chooseVictims_frame (x0 : InstId) (x1 : Nat) [Granted (L.inst x0 = true)] (h : Frame L s t) :
    Frame L s (chooseVictims x0 x1 t) := by
  induction x1 generalizing  t with
 | zero => (unfold chooseVictims; exact h)
 | succ n ih =>
    unfold chooseVictims
    repeat' first | (with_reducible first | apply ih | assumption | apply modModel_frame | apply requestBit_frame) | split | dsimp only

theorem dirCheck_frame (x0 : InstId) [Granted (L.inst x0 = true)] (h : Frame L s t) :
    Frame L s (dirCheck x0 t) := by
  unfold dirCheck
  repeat' first | (with_reducible first | assumption | apply chooseVictims_frame)

theorem dirEdge_frame (x0 : InstId) (x1 : State) [Granted (L.inst x0 = true)] (h : Frame L s t) :
    Frame L s (dirEdge x0 x1 t) := by
  unfold dirEdge
  repeat' first | (with_reducible first | assumption | apply dirCheck_frame) | split

theorem grantSlots_frame (x0 : InstId) (x1 : Nat) [Granted (L.inst x0 = true)] (h : Frame L s t) :
    Frame L s (grantSlots x0 x1 t) := by
  induction x1 generalizing  t with
 | zero => (unfold grantSlots; exact h)
 | succ n ih =>
    unfold grantSlots
    repeat' first | (with_reducible first | apply ih | assumption | apply modDir_frame | apply modModel_frame | apply requestBit_frame) | split | dsimp only

theorem demandModel_frame (x0 : InstId) (x1 : Nat) (x2 : Bool) [Granted (L.inst x0 = true)] (h : Frame L s t) :
    Frame L s (demandModel x0 x1 x2 t) := by
  unfold demandModel
  repeat' first | (with_reducible first | assumption | apply dirCheck_frame | apply grantSlots_frame | apply modDir_frame | apply modModel_frame | apply requestBit_frame | apply ringPush_frame) | split | dsimp only

theorem epochGone_frame (x0 : InstId) (x1 : Nat) [Granted (L.inst x0 = true)] (h : Frame L s t) :
    Frame L s (epochGone x0 x1 t) := by
  unfold epochGone
  repeat' first | (with_reducible first | assumption | apply modDir_frame | apply raiseIrq_frame) | split

theorem retireCheck_frame (x0 : InstId) (x1 : Nat) [Granted (L.inst x0 = true)] (h : Frame L s t) :
    Frame L s (retireCheck x0 x1 t) := by
  unfold retireCheck
  repeat' first | (with_reducible first | assumption | apply epochGone_frame | apply grantSlots_frame | apply modModel_frame) | split | dsimp only

theorem libAssign_frame (x0 : InstId) (x1 : Nat) [Granted (L.inst x0 = true)] (h : Frame L s t) :
    Frame L s (libAssign x0 x1 t) := by
  induction x1 generalizing  t with
 | zero => (unfold libAssign; exact h)
 | succ n ih =>
    unfold libAssign
    repeat' first | (with_reducible first | apply ih | assumption | apply modLib_frame | apply ringPush_frame) | split | dsimp only

theorem demandPlan_frame (x0 : InstId) (x1 : Nat) (x2 : Bool) [Granted (L.inst x0 = true)] (h : Frame L s t) :
    Frame L s (demandPlan x0 x1 x2 t) := by
  unfold demandPlan
  repeat' first | (with_reducible first | assumption | apply libAssign_frame | apply modLib_frame | apply ringPush_frame) | split

theorem recordDone_frame (x0 : InstId) (x1 : Nat) [Granted (L.inst x0 = true)] [Granted L.Hbm] (h : Frame L s t) :
    Frame L s (recordDone x0 x1 t) := by
  unfold recordDone
  repeat' first | (with_reducible first | assumption | apply journalRecord_frame | apply modSeq_frame | apply writeAttic_frame)

theorem coolRecord_frame (x0 : InstId) (x1 : Nat) [Granted (L.inst x0 = true)] [Granted L.Hbm] (h : Frame L s t) :
    Frame L s (coolRecord x0 x1 t) := by
  unfold coolRecord
  repeat' first | (with_reducible first | assumption | apply modRec_frame | apply writeAttic_frame)

theorem coolExcess_frame (x0 : InstId) (x1 : Nat) [Granted (L.inst x0 = true)] (h : Frame L s t) :
    Frame L s (coolExcess x0 x1 t) := by
  induction x1 generalizing  t with
 | zero => (unfold coolExcess; exact h)
 | succ n ih =>
    unfold coolExcess
    repeat' first | (with_reducible first | apply ih | assumption | apply postSeq_frame) | split | dsimp only

theorem claimOwn_frame (x0 : InstId) (x1 : Nat) [Granted (L.inst x0 = true)] (h : Frame L s t) :
    Frame L s (claimOwn x0 x1 t) := by
  unfold claimOwn
  repeat' first | (with_reducible first | assumption | apply demandPlan_frame) | split | dsimp only

theorem warmRecord_frame (x0 : InstId) (x1 : Nat) [Granted (L.inst x0 = true)] [Granted L.Hbm] (h : Frame L s t) :
    Frame L s (warmRecord x0 x1 t) := by
  unfold warmRecord
  repeat' first | (with_reducible first | assumption | apply coolExcess_frame | apply coolRecord_frame | apply flushBcast_frame | apply modSeq_frame) | split | dsimp only

theorem resumeSeq_frame (x0 : InstId) (x1 : Nat) [Granted (L.inst x0 = true)] [Granted L.Hbm] (h : Frame L s t) :
    Frame L s (resumeSeq x0 x1 t) := by
  unfold resumeSeq
  repeat' first | (with_reducible first | assumption | apply enterState_frame | apply modRec_frame | apply modSeq_frame | apply releasePages_frame | apply takePrefix_frame | apply warmRecord_frame) | split | dsimp only

theorem settlePrefill_frame (x0 : InstId) (x1 : Nat) [Granted (L.inst x0 = true)] (h : Frame L s t) :
    Frame L s (settlePrefill x0 x1 t) := by
  unfold settlePrefill
  repeat' first | (with_reducible first | assumption | apply enterState_frame) | split | dsimp only

theorem dropDraft_frame (x0 : InstId) (x1 : Nat) [Granted (L.inst x0 = true)] (h : Frame L s t) :
    Frame L s (dropDraft x0 x1 t) := by
  unfold dropDraft
  repeat' first | (with_reducible first | assumption | apply modSeq_frame)

theorem invalidateKv_frame (x0 : InstId) (x1 : Nat) [Granted (L.inst x0 = true)] [Granted L.Hbm] (h : Frame L s t) :
    Frame L s (invalidateKv x0 x1 t) := by
  unfold invalidateKv
  repeat' first | (with_reducible first | assumption | apply modSeq_frame | apply releasePages_frame)

theorem freeSeq_frame (x0 : InstId) (x1 : Nat) [Granted (L.inst x0 = true)] [Granted L.Hbm] (h : Frame L s t) :
    Frame L s (freeSeq x0 x1 t) := by
  unfold freeSeq
  repeat' first | (with_reducible first | assumption | apply duskClear_frame | apply hbmPut_frame | apply journal_frame | apply modMir_frame | apply retireCheck_frame | apply foldl_frame) | intro _

theorem freeHouse_frame (x0 : InstId) (x1 : Nat) [Granted (L.inst x0 = true)] (h : Frame L s t) :
    Frame L s (freeHouse x0 x1 t) := by
  unfold freeHouse
  repeat' first | (with_reducible first | assumption | apply modMir_frame) | split

theorem dropWaiting_frame (x0 : InstId) (x1 : Nat) [Granted (L.inst x0 = true)] [Granted L.Hbm] (h : Frame L s t) :
    Frame L s (dropWaiting x0 x1 t) := by
  unfold dropWaiting
  repeat' first | (with_reducible first | assumption | apply finishCmd_frame | apply modSeq_frame | apply foldl_frame) | split | intro _

theorem finalSeq_frame (x0 : InstId) (x1 x2 : Nat) [Granted (L.inst x0 = true)] [Granted L.Hbm] (h : Frame L s t) :
    Frame L s (finalSeq x0 x1 x2 t) := by
  unfold finalSeq
  repeat' first | (with_reducible first | assumption | apply dropWaiting_frame | apply duskClear_frame | apply freeHouse_frame | apply freeSeq_frame | apply modHouse_frame | apply modRec_frame | apply modSeq_frame | apply postSeq_frame | apply postSeqRecord_frame | apply recordDone_frame | apply releasePages_frame | apply retireCheck_frame | apply foldl_frame) | split | dsimp only | intro _

theorem endSeq_frame (x0 : InstId) (x1 : Nat) (x2 : SeqState) (x3 : Nat) [Granted (L.inst x0 = true)] [Granted L.Hbm] (h : Frame L s t) :
    Frame L s (endSeq x0 x1 x2 x3 t) := by
  unfold endSeq
  repeat' first | (with_reducible first | assumption | apply dirEdge_frame | apply finalSeq_frame | apply modSeq_frame)

theorem parkSeq_frame (x0 : InstId) (x1 : Nat) (x2 : Bool) (x3 : Nat) [Granted (L.inst x0 = true)] [Granted L.Hbm] (h : Frame L s t) :
    Frame L s (parkSeq x0 x1 x2 x3 t) := by
  unfold parkSeq
  repeat' first | (with_reducible first | assumption | apply dirEdge_frame | apply duskSet_frame | apply enterState_frame | apply freeAhead_frame | apply modRec_frame | apply modSeq_frame | apply postSeqRecord_frame | apply recordDone_frame | apply releasePages_frame | apply writeList_frame) | split

theorem killAcct_frame (x0 : Bool) (x1 : Machine.Step) (x3 : InstId) [Granted (L.inst x3 = true)] (h : Frame L s t) :
    Frame L s (killAcct x0 x1 t x3) := by
  unfold killAcct
  repeat' first | (with_reducible first | assumption | apply modAcct_frame | apply foldl_frame) | split | dsimp only | intro _

theorem sweepSteps_frame (x0 : InstId) [Granted (L.inst x0 = true)] (h : Frame L s t) :
    Frame L s (sweepSteps x0 t) := by
  unfold sweepSteps
  repeat' first | (with_reducible first | assumption | apply modKit_frame)

theorem killStep_frame (x0 : InstId) (x1 : Nat) (x2 : Bool) [Granted (L.inst x0 = true)] [Granted L.Outposts] (h : Frame L s t) :
    Frame L s (killStep x0 x1 x2 t) := by
  unfold killStep
  repeat' first | (with_reducible first | assumption | apply killAcct_frame | apply modInst_frame | exact fun _ => ⟨rfl, rfl⟩ | apply modKit_frame | apply modMir_frame | apply modOutpost_frame | apply modSeq_frame | apply modStair_frame | apply modStep_frame | apply postSeq_frame | apply ringPush_frame | apply sweepSteps_frame | apply foldl_frame) | split | intro _ | with_reducible apply Frame.raw

theorem rejectDeferred_frame (x0 : InstId) (x1 x2 : Nat) (x3 : Deferred → Bool) [Granted (L.inst x0 = true)] [Granted L.Hbm] (h : Frame L s t) :
    Frame L s (rejectDeferred x0 x1 x2 x3 t) := by
  unfold rejectDeferred
  repeat' first | (with_reducible first | assumption | apply journal_frame | apply modCtx_frame | apply rejectLeft_frame | apply foldl_frame) | intro _

theorem tearDown_frame (x0 : InstId) (x1 : Nat) [Granted (L.inst x0 = true)] [Granted L.Hbm] [Granted L.Outposts] (h : Frame L s t) :
    Frame L s (tearDown x0 x1 t) := by
  unfold tearDown
  repeat' first | (with_reducible first | assumption | apply broadcast_frame | apply faultCommands_frame | apply killStep_frame | apply logFault_frame | apply modCtx_frame | apply modMir_frame | apply postUnit_frame | apply rejectDeferred_frame | apply foldl_frame) | intro _

theorem tearDue_frame (x0 : InstId) [Granted (L.inst x0 = true)] [Granted L.Hbm] [Granted L.Outposts] (h : Frame L s t) :
    Frame L s (tearDue x0 t) := by
  unfold tearDue
  repeat' first | (with_reducible first | assumption | apply tearDown_frame | apply foldl_frame) | split | dsimp only | intro _

theorem settled_frame (x0 : InstId) (x1 : State) [Granted (L.inst x0 = true)] [Granted L.Hbm] [Granted L.Outposts] [Granted L.Role] (h : Frame L s t) :
    Frame L s (settled x0 x1 t) := by
  unfold settled
  repeat' first | (with_reducible first | assumption | apply mirrorOut_frame | apply tearDue_frame | apply watchSweep_frame)

theorem settle_frame (x0 : InstId) (x1 : State) [Granted (L.inst x0 = true)] [Granted L.Hbm] [Granted L.Outposts] [Granted L.Role] (h : Frame L s t) :
    ResOk (Frame L s) (settle x0 x1 t) := by
  unfold settle
  repeat' first | (with_reducible first | assumption | apply settled_frame | apply ResOk.next)

theorem markLost_frame (x0 : InstId) [Granted (L.inst x0 = true)] [Granted L.Role] (h : Frame L s t) :
    Frame L s (markLost x0 t) := by
  unfold markLost
  repeat' first | (with_reducible first | assumption | apply modRel_frame_role)

theorem mirrorLost_frame (x0 : InstId) [Granted (L.inst x0 = true)] [Granted L.Role] (h : Frame L s t) :
    Frame L s (mirrorLost x0 t) := by
  unfold mirrorLost
  repeat' first | (with_reducible first | assumption | apply logFault_frame | apply markLost_frame) | split

theorem fatalDump_frame (x0 : InstId) (x1 x2 : Nat) [Granted (L.inst x0 = true)] (h : Frame L s t) :
    Frame L s (fatalDump x0 x1 x2 t) := by
  unfold fatalDump
  repeat' first | (with_reducible first | assumption | apply modStudy_frame) | split | dsimp only

theorem failInstance_frame (x0 : InstId) (x1 : Nat) [hall : ∀ j, Granted (L.inst j = true)] [Granted L.Outposts] [Granted L.Role] (h : Frame L s t) : Frame L s (failInstance x0 x1 t) := by
  unfold failInstance
  split
  · exact h
  · have hk : Frame L s (modRel x0 (fun r => { r with failed := true }) (fatalDump x0 x1 ((getInst (((mir t x0).kitchen.steps.filter killable).foldl
        (fun s st => killStep x0 st.num false s) t) x0).rel.faultCount - 1) (((mir t x0).kitchen.steps.filter killable).foldl (fun s st => killStep x0 st.num false s) t))) :=
      modRel_frame_role _ _ (fatalDump_frame _ _ _ (foldl_frame (fun _ _ hu => killStep_frame _ _ _ hu) _ _ h))
    refine ite_frame ?_ hk
    exact markLost_frame _ (mirrorLost_frame _ hk)

theorem instFault_frame (x0 : InstId) (x1 x2 x3 x4 x5 : Nat) (x6 : Bool) [hall : ∀ j, Granted (L.inst j = true)] [Granted L.Outposts] [Granted L.Role] (h : Frame L s t) :
    Frame L s (instFault x0 x1 x2 x3 x4 x5 x6 t) := by
  unfold instFault
  repeat' first | (with_reducible first | assumption | apply failInstance_frame | apply fatalDump_frame | apply killStep_frame | apply logFault_frame | apply modRel_frame_role | apply foldl_frame) | split | dsimp only | intro _

theorem outpostFault_frame (x0 : InstId) (x1 x2 x3 : Nat) [hall : ∀ j, Granted (L.inst j = true)] [Granted L.Outposts] [Granted L.Role] (h : Frame L s t) :
    Frame L s (outpostFault x0 x1 x2 x3 t) := by
  unfold outpostFault
  repeat' first | (with_reducible first | assumption | apply instFault_frame | apply modOutpost_frame)

theorem admitRequest_frame (x0 : InstId) (x1 : Nat) (x2 : Request) [Granted (L.inst x0 = true)] [Granted L.Hbm] (h : Frame L s t) :
    Frame L s (admitRequest x0 x1 x2 t) := by
  unfold admitRequest
  repeat' first | (with_reducible first | assumption | apply journal_frame | apply modCtx_frame | apply modMir_frame | apply postSeq_frame | apply ringPush_frame | apply writeList_frame | apply foldl_frame) | intro _

theorem deferTimer_frame (x0 : InstId) (x1 : Nat) [Granted (L.inst x0 = true)] (h : Frame L s t) :
    Frame L s (deferTimer x0 x1 t) := by
  unfold deferTimer
  repeat' first | (with_reducible first | assumption | apply duskUnit_frame | apply modMir_frame) | split | dsimp only

theorem defer_frame (x0 : InstId) (x1 x2 : Nat) (x3 : Request) (x4 : DeferWhy) [Granted (L.inst x0 = true)] (h : Frame L s t) :
    Frame L s (defer x0 x1 x2 x3 x4 t) := by
  unfold defer
  repeat' first | (with_reducible first | assumption | apply deferTimer_frame | apply journal_frame | apply modCtx_frame | apply ringPush_frame)

theorem deferDemand_frame (x0 : InstId) (x1 x2 : Nat) [Granted (L.inst x0 = true)] (h : Frame L s t) :
    Frame L s (deferDemand x0 x1 x2 t) := by
  unfold deferDemand
  repeat' first | (with_reducible first | assumption | apply demandModel_frame | apply demandPlan_frame) | split | dsimp only

theorem undefer_frame (x0 : InstId) (x1 x2 : Nat) [Granted (L.inst x0 = true)] (h : Frame L s t) :
    Frame L s (undefer x0 x1 x2 t) := by
  unfold undefer
  repeat' first | (with_reducible first | assumption | apply deferTimer_frame | apply journal_frame | apply modCtx_frame) | split | dsimp only

theorem reevaluate_frame (x0 : InstId) (x1 x2 : Nat) [Granted (L.inst x0 = true)] [Granted L.Hbm] (h : Frame L s t) :
    Frame L s (reevaluate x0 x1 x2 t) := by
  unfold reevaluate
  repeat' first | (with_reducible first | assumption | apply admitRequest_frame | apply modCtx_frame | apply rejectLeft_frame | apply undefer_frame) | split | dsimp only

theorem deferDemands_frame (x0 : InstId) [Granted (L.inst x0 = true)] (h : Frame L s t) :
    Frame L s (deferDemands x0 t) := by
  unfold deferDemands
  repeat' first | (with_reducible first | assumption | apply deferDemand_frame | apply foldl_frame) | intro _

theorem reevaluateAll_frame (x0 : InstId) [Granted (L.inst x0 = true)] [Granted L.Hbm] (h : Frame L s t) :
    Frame L s (reevaluateAll x0 t) := by
  unfold reevaluateAll
  repeat' first | (with_reducible first | assumption | apply modFoyer_frame | apply reevaluate_frame | apply foldl_frame) | intro _

theorem passHouse_frame (x0 : InstId) (x1 : Household) [Granted (L.inst x0 = true)] (h : Frame L s t) :
    Frame L s (passHouse x0 x1 t) := by
  unfold passHouse
  repeat' first | (with_reducible first | assumption | apply modSeq_frame | apply postSeq_frame | apply ringPush_frame | apply foldl_frame) | intro _

theorem passAll_frame (x0 : InstId) [Granted (L.inst x0 = true)] (h : Frame L s t) :
    Frame L s (passAll x0 t) := by
  unfold passAll
  repeat' first | (with_reducible first | assumption | apply passHouse_frame | apply foldl_frame) | split | intro _

theorem postProgress_frame (x0 : InstId) (x1 : Nat) [Granted (L.inst x0 = true)] [Granted L.Hbm] (h : Frame L s t) :
    Frame L s (postProgress x0 x1 t) := by
  unfold postProgress
  repeat' first | (with_reducible first | assumption | apply modRec_frame | apply postSeqRecord_frame) | split

theorem endAppend_frame (x0 : InstId) (x1 : Nat) (x2 : AppendEnd) [Granted (L.inst x0 = true)] [Granted L.Hbm] (h : Frame L s t) :
    Frame L s (endAppend x0 x1 x2 t) := by
  unfold endAppend
  repeat' first | (with_reducible first | assumption | apply endSeq_frame | apply enterState_frame | apply postProgress_frame | apply postSeqRecord_frame) | split

theorem advancePenalty_frame (x0 : InstId) (x1 : Nat) [Granted (L.inst x0 = true)] (h : Frame L s t) :
    Frame L s (advancePenalty x0 x1 t) := by
  unfold advancePenalty
  repeat' first | (with_reducible first | assumption | apply modRec_frame)

theorem appendExtend_frame (x0 : InstId) (x1 : Nat) (x2 : List Nat) [Granted (L.inst x0 = true)] [Granted L.Hbm] (h : Frame L s t) :
    Frame L s (appendExtend x0 x1 x2 t) := by
  unfold appendExtend
  repeat' first | (with_reducible first | assumption | apply advancePenalty_frame | apply hbmPut_frame | apply modRec_frame | apply modSeq_frame | apply watchAppended_frame | apply foldl_frame) | split | dsimp only | intro _

theorem appendOne_frame {s : State} (i : InstId) (lid : Nat) (p : Option Plan) (m e : Bool) (n : Nat) (a : Appending) (k : Tok)
    [Granted (L.inst i = true)] [Granted L.Hbm] (h : Frame L s a.s) : Frame L s (appendOne i lid p m e n a k).s := by
  unfold appendOne
  split
  · dsimp only
    repeat' first | with_reducible assumption | with_reducible apply hbmPut_frame | with_reducible apply modSeq_frame | split
  · exact h

theorem appends_frame {s : State} (i : InstId) (lid : Nat) (p : Option Plan) (m e : Bool) (n : Nat) (l : List Tok) [Granted (L.inst i = true)] [Granted L.Hbm] :
    ∀ a : Appending, Frame L s a.s → Frame L s (l.foldl (appendOne i lid p m e n) a).s := by
  induction l with
 | nil => exact fun _ h => h
 | cons k l ih => exact fun a h => ih _ (appendOne_frame i lid p m e n a k h)

theorem appendAll_frame (i : InstId) (lid : Nat) (toks : List Tok) [Granted (L.inst i = true)] [Granted L.Hbm] (h : Frame L s t) : Frame L s (appendAll i lid toks t).s :=
  appends_frame i lid _ _ _ _ toks _ h

theorem sendMsg_frame (x0 : InstId) (x1 : PeerMsg) [Granted (L.inst x0 = true)] (h : Frame L s t) :
    Frame L s (sendMsg x0 x1 t) := by
  unfold sendMsg
  repeat' first | (with_reducible first | assumption | apply modStair_frame | apply ringPush_frame)

theorem announceAll_frame (x0 : InstId) [Granted (L.inst x0 = true)] (h : Frame L s t) :
    Frame L s (announceAll x0 t) := by
  unfold announceAll
  repeat' first | (with_reducible first | assumption | apply modStair_frame | apply sendMsg_frame | apply foldl_frame) | intro _

theorem announceChange_frame (x0 : InstId) [Granted (L.inst x0 = true)] (h : Frame L s t) :
    Frame L s (announceChange x0 t) := by
  unfold announceChange
  repeat' first | (with_reducible first | assumption | apply announceAll_frame) | split | dsimp only

theorem setRole_frame (x0 : InstId) (x1 : Nat) [Granted (L.inst x0 = true)] (h : Frame L s t) :
    Frame L s (setRole x0 x1 t) := by
  unfold setRole
  repeat' first | (with_reducible first | assumption | apply announceAll_frame | apply modStair_frame) | split

theorem raiseGen_frame (x0 : InstId) [Granted (L.inst x0 = true)] (h : Frame L s t) :
    Frame L s (raiseGen x0 t) := by
  unfold raiseGen
  repeat' first | (with_reducible first | assumption | apply announceAll_frame | apply modStair_frame)

theorem notePeer_frame (x0 : InstId) (x1 x2 x3 : Nat) [Granted (L.inst x0 = true)] (h : Frame L s t) :
    Frame L s (notePeer x0 x1 x2 x3 t) := by
  unfold notePeer
  repeat' first | (with_reducible first | assumption | apply modStair_frame)

theorem modOut_frame (x0 : InstId) (x1 : Nat) (x2 : OutXfer → OutXfer) [Granted (L.inst x0 = true)] (h : Frame L s t) :
    Frame L s (modOut x0 x1 x2 t) := by
  unfold modOut
  repeat' first | (with_reducible first | assumption | apply modMir_frame)

theorem modIn_frame (x0 : InstId) (x1 : InXfer) (x2 : InXfer → InXfer) [Granted (L.inst x0 = true)] (h : Frame L s t) :
    Frame L s (modIn x0 x1 x2 t) := by
  unfold modIn
  repeat' first | (with_reducible first | assumption | apply modMir_frame)

theorem sendOut_frame (x0 : InstId) (x1 : PeerMsg) [Granted (L.inst x0 = true)] (h : Frame L s t) :
    Frame L s (sendOut x0 x1 t) := by
  unfold sendOut
  repeat' first | (with_reducible first | assumption | apply modOut_frame | apply sendMsg_frame)

theorem sendIn_frame (x0 : InstId) (x1 : InXfer) (x2 : PeerMsg) [Granted (L.inst x0 = true)] (h : Frame L s t) :
    Frame L s (sendIn x0 x1 x2 t) := by
  unfold sendIn
  repeat' first | (with_reducible first | assumption | apply modIn_frame | apply sendMsg_frame)

theorem sendOffer_frame (x0 : InstId) (x1 : OutXfer) [Granted (L.inst x0 = true)] (h : Frame L s t) :
    Frame L s (sendOffer x0 x1 t) := by
  unfold sendOffer
  repeat' first | (with_reducible first | assumption | apply sendOut_frame) | split

theorem sendData_frame (x0 : InstId) (x1 : OutXfer) [Granted (L.inst x0 = true)] (h : Frame L s t) :
    Frame L s (sendData x0 x1 t) := by
  unfold sendData
  repeat' first | (with_reducible first | assumption | apply sendOut_frame | apply foldl_frame) | intro _

theorem sendHandover_frame (x0 : InstId) (x1 : OutXfer) [Granted (L.inst x0 = true)] (h : Frame L s t) :
    Frame L s (sendHandover x0 x1 t) := by
  unfold sendHandover
  repeat' first | (with_reducible first | assumption | apply sendOut_frame)

theorem resend_frame (x0 : InstId) (x1 : OutXfer) [Granted (L.inst x0 = true)] (h : Frame L s t) :
    Frame L s (resend x0 x1 t) := by
  unfold resend
  repeat' first | (with_reducible first | assumption | apply sendData_frame | apply sendHandover_frame | apply sendOffer_frame) | split

theorem closeOut_frame (x0 : InstId) (x1 : OutXfer) (x2 : Bool) [Granted (L.inst x0 = true)] (h : Frame L s t) :
    Frame L s (closeOut x0 x1 x2 t) := by
  unfold closeOut
  repeat' first | (with_reducible first | assumption | apply duskClear_frame | apply journal_frame | apply modMir_frame | apply modStair_frame) | split

theorem abandonOut_frame (x0 : InstId) (x1 : OutXfer) [Granted (L.inst x0 = true)] (h : Frame L s t) :
    Frame L s (abandonOut x0 x1 t) := by
  unfold abandonOut
  repeat' first | (with_reducible first | assumption | apply closeOut_frame | apply sendMsg_frame)

theorem abandonFor_frame (x0 : InstId) (x1 : Nat) [Granted (L.inst x0 = true)] [Granted L.Hbm] (h : Frame L s t) :
    Frame L s (abandonFor x0 x1 t) := by
  unfold abandonFor
  repeat' first | (with_reducible first | assumption | apply abandonOut_frame | apply finishCmd_frame) | split

theorem discardIn_frame (x0 : InstId) (x1 : InXfer) [Granted (L.inst x0 = true)] (h : Frame L s t) :
    Frame L s (discardIn x0 x1 t) := by
  unfold discardIn
  repeat' first | (with_reducible first | assumption | apply duskClear_frame | apply freeArrival_frame | apply journal_frame | apply modMir_frame | apply modStair_frame | apply foldl_frame) | split | intro _

theorem openTransfer_frame (x0 : InstId) (x1 x2 : Nat) (x3 : Bool) (x4 : Nat) [Granted (L.inst x0 = true)] [Granted L.Hbm] (h : Frame L s t) :
    Frame L s (openTransfer x0 x1 x2 x3 x4 t) := by
  unfold openTransfer
  repeat' first | (with_reducible first | assumption | apply claimOwn_frame | apply dropDraft_frame | apply duskSet_frame | apply enterState_frame | apply journal_frame | apply modMir_frame | apply modRec_frame | apply recordDone_frame | apply sendOffer_frame | apply warmRecord_frame)

theorem startMigration_frame (x0 : InstId) (x1 x2 : Nat) (x3 : Bool) (x4 : Nat) [Granted (L.inst x0 = true)] [Granted L.Hbm] (h : Frame L s t) :
    Frame L s (startMigration x0 x1 x2 x3 x4 t) := by
  unfold startMigration
  repeat' first | (with_reducible first | assumption | apply finishCmd_frame | apply openTransfer_frame) | split | dsimp only

theorem applyMigrateOut_frame (x0 : InstId) (x1 x2 : Nat) (x3 : Bool) (x4 : Nat) [Granted (L.inst x0 = true)] [Granted L.Hbm] (h : Frame L s t) :
    Frame L s (applyMigrateOut x0 x1 x2 x3 x4 t) := by
  unfold applyMigrateOut
  repeat' first | (with_reducible first | assumption | apply finishCmd_frame | apply modSeq_frame | apply startMigration_frame) | split | dsimp only

theorem endWaiting_frame (x0 : InstId) (x1 : Nat) (x2 : SeqState) (x3 : Nat) [Granted (L.inst x0 = true)] [Granted L.Hbm] (h : Frame L s t) :
    Frame L s (endWaiting x0 x1 x2 x3 t) := by
  unfold endWaiting
  repeat' first | (with_reducible first | assumption | apply abandonFor_frame | apply endSeq_frame) | split

theorem applyWaiting_frame (x0 : InstId) (x1 : Nat) [Granted (L.inst x0 = true)] [Granted L.Hbm] (h : Frame L s t) :
    Frame L s (applyWaiting x0 x1 t) := by
  unfold applyWaiting
  repeat' first | (with_reducible first | assumption | apply endWaiting_frame | apply modSeq_frame | apply parkSeq_frame | apply startMigration_frame | apply foldl_frame) | split | intro _

theorem offerForward_frame (x0 : InstId) (x1 x2 : Nat) [Granted (L.inst x0 = true)] (h : Frame L s t) :
    Frame L s (offerForward x0 x1 x2 t) := by
  unfold offerForward
  repeat' first | (with_reducible first | assumption | apply deferTimer_frame | apply journal_frame | apply modCtx_frame | apply modMir_frame | apply ringPush_frame | apply sendOffer_frame) | split | dsimp only

theorem offerForwards_frame (x0 : InstId) [Granted (L.inst x0 = true)] (h : Frame L s t) :
    Frame L s (offerForwards x0 t) := by
  unfold offerForwards
  repeat' first | (with_reducible first | assumption | apply offerForward_frame | apply foldl_frame) | intro _

theorem newRequest_frame (x0 : InstId) (x1 : Nat) (x2 : Request) [Granted (L.inst x0 = true)] [Granted L.Hbm] (h : Frame L s t) :
    Frame L s (newRequest x0 x1 x2 t) := by
  unfold newRequest
  repeat' first | (with_reducible first | assumption | apply admitRequest_frame | apply defer_frame | apply deferDemand_frame | apply modFoyer_frame | apply offerForward_frame | apply postReject_frame | apply ringPush_frame) | split | dsimp only

theorem ackPoint_frame (x0 : InstId) (x1 : Nat) [Granted (L.inst x0 = true)] (h : Frame L s t) :
    Frame L s (ackPoint x0 x1 t) := by
  unfold ackPoint
  repeat' first | (with_reducible first | assumption | apply journal_frame | apply modIn_frame | apply modRel_frame | exact fun _ => rfl) | split

theorem takeForwarded_frame (x0 : InstId) [Granted (L.inst x0 = true)] [Granted L.Hbm] (h : Frame L s t) :
    Frame L s (takeForwarded x0 t) := by
  unfold takeForwarded
  repeat' first | (with_reducible first | assumption | apply ackPoint_frame | apply modFoyer_frame | apply newRequest_frame | apply foldl_frame) | split | intro _

theorem forwardBack_frame (x0 : InstId) (x1 : OutXfer) [Granted (L.inst x0 = true)] (h : Frame L s t) :
    Frame L s (forwardBack x0 x1 t) := by
  unfold forwardBack
  repeat' first | (with_reducible first | assumption | apply deferTimer_frame | apply modCtx_frame)

theorem forwardTimer_frame (x0 : InstId) (x1 : OutXfer) [Granted (L.inst x0 = true)] (h : Frame L s t) :
    Frame L s (forwardTimer x0 x1 t) := by
  unfold forwardTimer
  repeat' first | (with_reducible first | assumption | apply abandonOut_frame | apply forwardBack_frame | apply modOut_frame | apply resend_frame) | split | dsimp only

theorem forwardTimers_frame (x0 : InstId) [Granted (L.inst x0 = true)] (h : Frame L s t) :
    Frame L s (forwardTimers x0 t) := by
  unfold forwardTimers
  repeat' first | (with_reducible first | assumption | apply forwardTimer_frame | apply foldl_frame) | intro _

theorem foyerRound_frame (x0 : InstId) [Granted (L.inst x0 = true)] [Granted L.Hbm] (h : Frame L s t) :
    Frame L s (foyerRound x0 t) := by
  unfold foyerRound
  repeat' first | (with_reducible first | assumption | apply deferDemands_frame | apply forwardTimers_frame | apply offerForwards_frame | apply passAll_frame | apply reevaluateAll_frame | apply takeForwarded_frame)

theorem fireDue_frame (x0 : InstId) (x1 : Nat) (x2 : Flow) [Granted (L.inst x0 = true)] (h : Frame L s t) :
    Frame L s (fireDue x0 x1 x2 t) := by
  unfold fireDue
  repeat' first | (with_reducible first | assumption | apply fireSome_frame) | split

theorem forceCheck_frame (x0 : InstId) [Granted (L.inst x0 = true)] (h : Frame L s t) :
    Frame L s (forceCheck x0 t) := by
  unfold forceCheck
  repeat' first | (with_reducible first | assumption | apply postSeq_frame | apply foldl_frame) | intro _

theorem doMidnight_frame (x0 : InstId) (x1 : Nat) (x2 : Bool) [Granted (L.inst x0 = true)] [Granted L.Hbm] (h : Frame L s t) :
    Frame L s (doMidnight x0 x1 x2 t) := by
  unfold doMidnight
  repeat' first | (with_reducible first | assumption | apply broadcast_frame | apply epochGone_frame | apply foyerRound_frame | apply grantSlots_frame | apply journalObj_frame | apply modKit_frame | apply modMir_frame | apply modModel_frame | apply ringPush_frame) | split

theorem startDiscovery_frame (x0 : InstId) (x1 : Discovery) [Granted (L.inst x0 = true)] (h : Frame L s t) :
    Frame L s (startDiscovery x0 x1 t) := by
  unfold startDiscovery
  repeat' first | (with_reducible first | assumption | apply announceAll_frame | apply modStair_frame)

theorem morningStep_frame (x0 : InstId) [Granted (L.inst x0 = true)] [Granted L.Hbm] (h : Frame L s t) :
    Frame L s (morningStep x0 t) := by
  unfold morningStep
  repeat' first | (with_reducible first | assumption | apply broadcast_frame | apply doMidnight_frame | apply modKit_frame | apply postSeq_frame | apply startDiscovery_frame | apply foldl_frame) | split | dsimp only | intro _

theorem turnCheck_frame (x0 : InstId) [Granted (L.inst x0 = true)] [Granted L.Hbm] (h : Frame L s t) :
    Frame L s (turnCheck x0 t) := by
  unfold turnCheck
  repeat' first | (with_reducible first | assumption | apply broadcast_frame | apply modKit_frame | apply morningStep_frame) | split | dsimp only

theorem closed_frame (x0 : InstId) (x1 : State) [Granted (L.inst x0 = true)] [Granted L.Hbm] [Granted L.Outposts] [Granted L.Role] (h : Frame L s t) :
    Frame L s (closed x0 x1 t) := by
  unfold closed
  repeat' first | (with_reducible first | assumption | apply coolExcess_frame | apply dirEdge_frame | apply evictResumes_frame | apply forceCheck_frame | apply foyerRound_frame | apply libAssign_frame | apply settled_frame | apply turnCheck_frame) | split

theorem endEvent_frame (x0 : InstId) (x1 : State) [Granted (L.inst x0 = true)] [Granted L.Hbm] [Granted L.Outposts] [Granted L.Role] (h : Frame L s t) :
    ResOk (Frame L s) (endEvent x0 x1 t) := by
  unfold endEvent
  repeat' first | (with_reducible first | assumption | apply closed_frame | apply ResOk.next)

theorem planErrorSeq_frame (x0 : InstId) (x1 : Nat) [Granted (L.inst x0 = true)] [Granted L.Hbm] (h : Frame L s t) :
    Frame L s (planErrorSeq x0 x1 t) := by
  unfold planErrorSeq
  repeat' first | (with_reducible first | assumption | apply endSeq_frame | apply notePlanFaults_frame)

theorem claimPlan_frame (x0 : InstId) (x1 : Nat) [Granted (L.inst x0 = true)] [Granted L.Hbm] (h : Frame L s t) :
    Frame L s (claimPlan x0 x1 t) := by
  unfold claimPlan
  repeat' first | (with_reducible first | assumption | apply claimOwn_frame | apply planErrorSeq_frame) | split | dsimp only

theorem memberPrefill_frame (x0 : InstId) (x1 x2 : Nat) [Granted (L.inst x0 = true)] [Granted L.Hbm] (h : Frame L s t) :
    Frame L s (memberPrefill x0 x1 x2 t) := by
  unfold memberPrefill
  repeat' first | (with_reducible first | assumption | apply enterState_frame | apply modRec_frame | apply warmRecord_frame | apply writeAttic_frame) | split | dsimp only

theorem commitPrefill_frame (x0 : InstId) (x1 : StepRow) [Granted (L.inst x0 = true)] [Granted L.Hbm] (h : Frame L s t) :
    Frame L s (commitPrefill x0 x1 t) := by
  unfold commitPrefill
  repeat' first | (with_reducible first | assumption | apply commitPrefix_frame | apply commitRebuild_frame | apply commitTarget_frame | apply enterState_frame | apply memberPrefill_frame | apply modRec_frame | apply notePrefix_frame | apply postSeq_frame | apply foldl_frame) | split | dsimp only | intro _

theorem noteRow_frame (x0 : InstId) (x1 x2 : Nat) [Granted (L.inst x0 = true)] (h : Frame L s t) :
    Frame L s (noteRow x0 x1 x2 t) := by
  unfold noteRow
  repeat' first | (with_reducible first | assumption | apply modSeq_frame)

theorem verifyCommit_frame (x0 : InstId) (x1 x2 : Nat) (x3 : List Source) [Granted (L.inst x0 = true)] [Granted L.Hbm] (h : Frame L s t) :
    Frame L s (verifyCommit x0 x1 x2 x3 t) := by
  unfold verifyCommit
  repeat' first | (with_reducible first | assumption | apply dropDraft_frame | apply modRec_frame | apply modSeq_frame | apply trimDraft_frame)

theorem commitTokens_frame (x0 : InstId) (x1 : Nat) (x2 : StepRow) (x3 : RowResult) (x4 : Bool) (x5 : Nat)
    [Granted (L.inst x0 = true)] [Granted L.Hbm] (h : Frame L s t) : Frame L s (commitTokens x0 x1 x2 x3 x4 x5 t).1 := by
  unfold Sys2Proof.Machine.commitTokens
  extract_lets q plan w a
  have ha : Frame L s a.s := appendAll_frame _ _ _ (enterState_frame _ _ _ h)
  clear_value a
  split
  · exact planErrorSeq_frame _ _ h
  · rename_i t1 t2 t3 t4 t5 t6 t7 t8 hc
    clear hc
    have h1 : Frame L s t1 := watchAppended_frame _ _ (advancePenalty_frame _ _ ha)
    clear_value t1
    have h2 : Frame L s t2 := modRec_frame _ _ _ h1
    clear_value t2
    have h3 : Frame L s t3 := commitTarget_frame _ _ h2
    clear_value t3
    have h4 : Frame L s t4 := by
      unfold t4; split
      · exact verifyCommit_frame _ _ _ _ h3
      · exact h3
    clear_value t4
    have h5 : Frame L s t5 := by
      unfold t5; split
      · exact h4
      · exact dropDraft_frame _ _ h4
    clear_value t5
    have h6 : Frame L s t6 := noteRow_frame _ _ _ h5
    clear_value t6
    exact endAppend_frame _ _ _ (journal_frame _ _ (modAcct_frame _ _ _ h6))

theorem commitDraftRow_frame (x0 : InstId) (x1 : Nat) (x2 : StepRow) (x3 : RowResult) (x4 : Nat) [Granted (L.inst x0 = true)] [Granted L.Hbm] (h : Frame L s t) :
    Frame L s (commitDraftRow x0 x1 x2 x3 x4 t).1 := by
  unfold commitDraftRow
  repeat' first | (with_reducible first | assumption | apply commitDraft_frame | apply journal_frame | apply modSeq_frame | apply noteRow_frame | apply planErrorSeq_frame) | split

theorem commitCatchUp_frame (x0 : InstId) (x1 : Machine.Step) (x2 : StepRow) (x3 : Nat) [Granted (L.inst x0 = true)] [Granted L.Hbm] (h : Frame L s t) :
    Frame L s (commitCatchUp x0 x1 x2 x3 t) := by
  unfold commitCatchUp
  repeat' first | (with_reducible first | assumption | apply commitDraft_frame | apply journal_frame | apply modSeq_frame | apply noteRow_frame)

theorem chargeRow_frame (x0 : InstId) (x1 : StepRow) [Granted (L.inst x0 = true)] (h : Frame L s t) :
    Frame L s (chargeRow x0 x1 t) := by
  unfold chargeRow
  repeat' first | (with_reducible first | assumption | apply modCtx_frame)

theorem markRow_frame (x0 : InstId) (x1 x2 : Nat) [Granted (L.inst x0 = true)] (h : Frame L s t) :
    Frame L s (markRow x0 x1 x2 t) := by
  unfold markRow
  repeat' first | (with_reducible first | assumption | apply modStep_frame)

theorem finishStep_frame (x0 : InstId) (x1 : Nat) [Granted (L.inst x0 = true)] (h : Frame L s t) :
    Frame L s (finishStep x0 x1 t) := by
  unfold finishStep
  repeat' first | (with_reducible first | assumption | apply journal_frame | apply modKit_frame | apply modMir_frame | apply modStair_frame | apply modStep_frame | apply ringPush_frame | apply sweepSteps_frame) | split

theorem commitRow_frame (x0 : InstId) (x1 : Machine.Step) (x2 : Nat) (x3 : StepRow) [Granted (L.inst x0 = true)] [Granted L.Hbm] (h : Frame L s t) :
    Frame L s (commitRow x0 x1 x2 x3 t).1 := by
  unfold commitRow
  repeat' first | (with_reducible first | assumption | apply commitCatchUp_frame | apply commitDraftRow_frame | apply commitPrefill_frame | apply commitTokens_frame | apply journal_frame | apply noteRow_frame) | split

theorem rowUses_frame (x0 : InstId) (x1 : Machine.Step) (x2 : Nat) [Granted (L.inst x0 = true)] (h : Frame L s t) :
    Frame L s (rowUses x0 x1 x2 t) := by
  unfold rowUses
  repeat' first | (with_reducible first | assumption | apply chargeRow_frame | apply modLib_frame | apply modModel_frame | apply foldl_frame) | split | dsimp only | intro _

theorem tryRow_frame (x0 : InstId) (x1 : Machine.Step) (x2 : Nat) (x3 : StepRow) [Granted (L.inst x0 = true)] [Granted L.Hbm] (h : Frame L s t) :
    Frame L s (tryRow x0 x1 x2 x3 t).1 := by
  unfold tryRow
  repeat' first | (with_reducible first | assumption | apply commitRow_frame | apply endSeq_frame) | split

theorem watchRow_frame (x0 : InstId) (x1 : StepRow) (x2 : Nat) [Granted (L.inst x0 = true)] [Granted L.Hbm] (h : Frame L s t) :
    Frame L s (watchRow x0 x1 x2 t) := by
  unfold watchRow
  repeat' first | (with_reducible first | assumption | apply endWatches_frame) | split

theorem commitOne_frame (x0 : InstId) (x1 x2 : Nat) [Granted (L.inst x0 = true)] [Granted L.Hbm] (h : Frame L s t) :
    Frame L s (commitOne x0 x1 x2 t) := by
  unfold commitOne
  repeat' first | (with_reducible first | assumption | apply applyWaiting_frame | apply finishStep_frame | apply markRow_frame | apply rowUses_frame | apply tryRow_frame | apply watchRow_frame | apply foldl_frame) | split | intro _

theorem applyKill_frame (x0 : InstId) (x1 : Nat) [Granted (L.inst x0 = true)] [Granted L.Hbm] (h : Frame L s t) :
    Frame L s (applyKill x0 x1 t) := by
  unfold applyKill
  repeat' first | (with_reducible first | assumption | apply applyWaiting_frame | apply modRec_frame) | split | dsimp only

theorem applyAdmit_frame (x0 : InstId) (x1 : Nat) [Granted (L.inst x0 = true)] [Granted L.Hbm] (h : Frame L s t) :
    Frame L s (applyAdmit x0 x1 t) := by
  unfold applyAdmit
  repeat' first | (with_reducible first | assumption | apply ackPoint_frame | apply enterState_frame | apply postSeqRecord_frame | apply recordDone_frame) | split

theorem forceStart_frame (x0 : InstId) (x1 : Nat) [Granted (L.inst x0 = true)] [Granted L.Hbm] (h : Frame L s t) :
    Frame L s (forceStart x0 x1 t) := by
  unfold forceStart
  repeat' first | (with_reducible first | assumption | apply enterState_frame | apply recordDone_frame) | split | dsimp only

theorem applyWarm_frame (x0 : InstId) (x1 : Nat) [Granted (L.inst x0 = true)] [Granted L.Hbm] (h : Frame L s t) :
    Frame L s (applyWarm x0 x1 t) := by
  unfold applyWarm
  repeat' first | (with_reducible first | assumption | apply claimPlan_frame | apply forceStart_frame | apply warmRecord_frame) | split

theorem applyCool_frame (x0 : InstId) (x1 : Nat) [Granted (L.inst x0 = true)] [Granted L.Hbm] (h : Frame L s t) :
    Frame L s (applyCool x0 x1 t) := by
  unfold applyCool
  repeat' first | (with_reducible first | assumption | apply coolRecord_frame | apply libAssign_frame) | split

theorem applyEvict_frame (x0 : InstId) (x1 : Nat) [Granted (L.inst x0 = true)] [Granted L.Hbm] (h : Frame L s t) :
    Frame L s (applyEvict x0 x1 t) := by
  unfold applyEvict
  repeat' first | (with_reducible first | assumption | apply modRec_frame | apply parkSeq_frame | apply recordDone_frame | apply releasePages_frame) | split | dsimp only

theorem wantModel_frame (x0 : InstId) (x1 : Nat) [Granted (L.inst x0 = true)] (h : Frame L s t) :
    Frame L s (wantModel x0 x1 t) := by
  unfold wantModel
  repeat' first | (with_reducible first | assumption | apply demandModel_frame) | split | dsimp only

theorem resumeFully_frame (x0 : InstId) (x1 : Nat) [Granted (L.inst x0 = true)] [Granted L.Hbm] (h : Frame L s t) :
    Frame L s (resumeFully x0 x1 t) := by
  unfold resumeFully
  repeat' first | (with_reducible first | assumption | apply claimPlan_frame | apply recordDone_frame | apply resumeSeq_frame | apply wantModel_frame)

theorem applyPrefix_frame (x0 : InstId) (x1 : Nat) [Granted (L.inst x0 = true)] [Granted L.Hbm] (h : Frame L s t) :
    Frame L s (applyPrefix x0 x1 t) := by
  unfold applyPrefix
  repeat' first | (with_reducible first | assumption | apply recordDone_frame | apply releasePages_frame | apply settlePrefill_frame | apply takePrefix_frame) | split | dsimp only

theorem endAlive_frame (x0 : InstId) (x1 : Nat) (x2 : SeqState) (x3 : Nat) [Granted (L.inst x0 = true)] [Granted L.Hbm] (h : Frame L s t) :
    Frame L s (endAlive x0 x1 x2 x3 t) := by
  unfold endAlive
  repeat' first | (with_reducible first | assumption | apply abandonFor_frame | apply discardIn_frame | apply endSeq_frame) | split

theorem endOrWait_frame (x0 : InstId) (x1 : Nat) (x2 : SeqState) (x3 : Nat) (x4 : WaitEvent) [Granted (L.inst x0 = true)] [Granted L.Hbm] (h : Frame L s t) :
    Frame L s (endOrWait x0 x1 x2 x3 x4 t) := by
  unfold endOrWait
  repeat' first | (with_reducible first | assumption | apply endAlive_frame | apply modSeq_frame) | split

theorem applyCancel_frame (x0 : InstId) (x1 : Nat) (x2 : Option Nat) [Granted (L.inst x0 = true)] [Granted L.Hbm] (h : Frame L s t) :
    Frame L s (applyCancel x0 x1 x2 t) := by
  unfold applyCancel
  repeat' first | (with_reducible first | assumption | apply endOrWait_frame | apply resolveEvent_frame) | split

theorem applyPark_frame (x0 : InstId) (x1 x2 : Nat) (x3 : Option Nat) [Granted (L.inst x0 = true)] [Granted L.Hbm] (h : Frame L s t) :
    Frame L s (applyPark x0 x1 x2 x3 t) := by
  unfold applyPark
  repeat' first | (with_reducible first | assumption | apply modSeq_frame | apply parkSeq_frame | apply resolveEvent_frame) | split

theorem applyResume_frame (x0 : InstId) (x1 : Nat) [Granted (L.inst x0 = true)] [Granted L.Hbm] (h : Frame L s t) :
    Frame L s (applyResume x0 x1 t).1 := by
  unfold applyResume
  repeat' first | (with_reducible first | assumption | apply duskClear_frame | apply endSeq_frame | apply resumeFully_frame) | split | dsimp only

theorem doExtend_frame (x0 : InstId) (x1 : Nat) (x2 : List Nat) (x3 : Nat × Nat) (x4 : Nat) [Granted (L.inst x0 = true)] [Granted L.Hbm] (h : Frame L s t) :
    Frame L s (doExtend x0 x1 x2 x3 x4 t) := by
  unfold doExtend
  repeat' first | (with_reducible first | assumption | apply appendExtend_frame | apply finishCmd_frame | apply journal_frame | apply modAcct_frame | apply modRec_frame | apply postSeqRecord_frame | apply recordDone_frame)

theorem applyExtend_frame (x0 : InstId) (x1 : Nat) (x2 : List Nat) (x3 x4 x5 x6 : Nat) [Granted (L.inst x0 = true)] [Granted L.Hbm] (h : Frame L s t) :
    Frame L s (applyExtend x0 x1 x2 x3 x4 x5 x6 t) := by
  unfold applyExtend
  repeat' first | (with_reducible first | assumption | apply demandPlan_frame | apply doExtend_frame | apply finishCmd_frame | apply modSeq_frame) | split | dsimp only

theorem applyForce_frame (x0 : InstId) (x1 : Nat) [Granted (L.inst x0 = true)] [Granted L.Hbm] (h : Frame L s t) :
    Frame L s (applyForce x0 x1 t) := by
  unfold applyForce
  repeat' first | (with_reducible first | assumption | apply advancePenalty_frame | apply appendAll_frame | apply dropDraft_frame | apply endAppend_frame | apply journal_frame | apply modAcct_frame | apply modSeq_frame | apply watchAppended_frame) | split | dsimp only

theorem crossTo_frame (x0 : InstId) (x1 : Nat) (x2 : MidnightInfo) [Granted (L.inst x0 = true)] (h : Frame L s t) :
    Frame L s (crossTo x0 x1 x2 t) := by
  unfold crossTo
  repeat' first | (with_reducible first | assumption | apply modSeq_frame)

theorem applyMidnight_frame (x0 : InstId) (x1 : Nat) (x2 : MidnightInfo) [Granted (L.inst x0 = true)] [Granted L.Hbm] (h : Frame L s t) :
    Frame L s (applyMidnight x0 x1 x2 t) := by
  unfold applyMidnight
  repeat' first | (with_reducible first | assumption | apply crossTo_frame | apply endSeq_frame | apply invalidateKv_frame | apply modSeq_frame | apply recordDone_frame | apply resumeSeq_frame | apply retireCheck_frame) | split | dsimp only

theorem applyEvening_frame (x0 : InstId) (x1 : Nat) [Granted (L.inst x0 = true)] [Granted L.Hbm] (h : Frame L s t) :
    Frame L s (applyEvening x0 x1 t) := by
  unfold applyEvening
  repeat' first | (with_reducible first | assumption | apply enterState_frame | apply freeAhead_frame | apply modRec_frame | apply modSeq_frame | apply recordDone_frame | apply releasePages_frame | apply writeList_frame) | split | dsimp only

theorem applyMorning_frame (x0 : InstId) (x1 : Nat) [Granted (L.inst x0 = true)] [Granted L.Hbm] (h : Frame L s t) :
    Frame L s (applyMorning x0 x1 t) := by
  unfold applyMorning
  repeat' first | (with_reducible first | assumption | apply claimPlan_frame | apply enterState_frame | apply invalidateKv_frame | apply modRec_frame | apply recordDone_frame | apply resumeFully_frame | apply warmRecord_frame) | split | dsimp only

theorem applyHousehold_frame (x0 : InstId) (x1 : Nat) [Granted (L.inst x0 = true)] [Granted L.Hbm] (h : Frame L s t) :
    Frame L s (applyHousehold x0 x1 t) := by
  unfold applyHousehold
  repeat' first | (with_reducible first | assumption | apply freeHouse_frame | apply freeSeq_frame | apply modRec_frame | apply recordDone_frame) | split

theorem applyTeardown_frame (x0 : InstId) (x1 : Nat) [Granted (L.inst x0 = true)] [Granted L.Hbm] (h : Frame L s t) :
    Frame L s (applyTeardown x0 x1 t) := by
  unfold applyTeardown
  repeat' first | (with_reducible first | assumption | apply endAlive_frame) | split

theorem applyPlanReady_frame (x0 : InstId) (x1 : Nat) [Granted (L.inst x0 = true)] [Granted L.Hbm] (h : Frame L s t) :
    Frame L s (applyPlanReady x0 x1 t) := by
  unfold applyPlanReady
  repeat' first | (with_reducible first | assumption | apply applyExtend_frame | apply forceStart_frame | apply modSeq_frame | apply foldl_frame) | split | dsimp only | intro _

theorem spendHandle_frame (x0 : InstId) (x1 x2 : Nat) [Granted (L.inst x0 = true)] [Granted L.Hbm] (h : Frame L s t) :
    Frame L s (spendHandle x0 x1 x2 t) := by
  unfold spendHandle
  repeat' first | (with_reducible first | assumption | apply modRec_frame | apply writeAttic_frame)

theorem applyDeadline_frame (x0 : InstId) (x1 x2 : Nat) [Granted (L.inst x0 = true)] [Granted L.Hbm] (h : Frame L s t) :
    Frame L s (applyDeadline x0 x1 x2 t) := by
  unfold applyDeadline
  repeat' first | (with_reducible first | assumption | apply endAlive_frame | apply endOrWait_frame | apply retime_frame | apply writeAttic_frame) | split | dsimp only

theorem sendDown_frame (x0 : InstId) (x1 : DownMsg) (x2 : Nat) [Granted (L.inst x0 = true)] [Granted L.Outposts] (h : Frame L s t) :
    Frame L s (sendDown x0 x1 x2 t) := by
  unfold sendDown
  repeat' first | (with_reducible first | assumption | apply modOutpost_frame | apply ringMessage_frame)

theorem sendAll_frame (x0 : InstId) (x1 : DownMsg) (x2 : BitVec 8) [Granted (L.inst x0 = true)] [Granted L.Outposts] (h : Frame L s t) :
    Frame L s (sendAll x0 x1 x2 t) := by
  unfold sendAll
  repeat' first | (with_reducible first | assumption | apply sendDown_frame | apply foldl_frame) | intro _

theorem stageSampler_frame (x0 : InstId) (x1 : Machine.Step) [Granted (L.inst x0 = true)] [Granted L.Outposts] (h : Frame L s t) :
    Frame L s (stageSampler x0 x1 t) := by
  unfold stageSampler
  repeat' first | (with_reducible first | assumption | apply modInst_frame | exact fun _ => ⟨rfl, rfl⟩ | apply modOutpost_frame | apply sendAll_frame | apply foldl_frame) | intro _

theorem preCompose_frame (x0 : InstId) [Granted (L.inst x0 = true)] [Granted L.Hbm] (h : Frame L s t) :
    Frame L s (preCompose x0 t) := by
  unfold preCompose
  repeat' first | (with_reducible first | assumption | apply modMir_frame | apply planErrorSeq_frame | apply foldl_frame) | intro _

theorem latchWaits_frame (x0 : InstId) (x1 : List Machine.Seq) [Granted (L.inst x0 = true)] (h : Frame L s t) :
    Frame L s (latchWaits x0 x1 t) := by
  unfold latchWaits
  repeat' first | (with_reducible first | assumption | apply modKit_frame | apply modMir_frame)

theorem writeManifest_frame (x0 : InstId) (x1 : Machine.Step) [Granted (L.inst x0 = true)] [Granted L.Hbm] (h : Frame L s t) :
    Frame L s (writeManifest x0 x1 t) := by
  unfold writeManifest
  repeat' first | (with_reducible first | assumption | apply hbmPut_frame)

theorem evictFor_frame (x0 : InstId) (x1 : Machine.Seq) (x2 : Nat) (x3 : Inst) (x4 : Nat) [Granted (L.inst x0 = true)] (h : Frame L s t) :
    Frame L s (evictFor x0 x1 x2 x3 x4 t) := by
  induction x2 generalizing x3 x4 t with
 | zero => (unfold evictFor; exact h)
 | succ n ih =>
    unfold evictFor
    repeat' first | (with_reducible first | apply ih | assumption | apply postSeq_frame | apply ringPush_frame) | split

theorem addRows_frame {s : State} (i : InstId) (c : Candidate) (k : Comp) [Granted (L.inst i = true)] (h : Frame L s k.s) : Frame L s (addRows i c k).s := by
  unfold addRows
  generalize c.rows = rows
  induction rows generalizing k with
 | nil => exact h
 | cons p ps ih =>
    rw [List.foldl_cons]
    apply ih
    exact ensureTake_frame _ _ h

theorem tryCandidate_frame {s : State} (i : InstId) (wide : Bool) (effL effP lid : Nat) (k : Comp) [Granted (L.inst i = true)] (h : Frame L s k.s) :
    Frame L s (tryCandidate i wide effL effP lid k).s := by
  unfold tryCandidate
  extract_lets x m q rs c
  split
  · exact h
  · rename_i es pages lack hc
    split
    · exact h
    · exact addRows_frame _ _ _ h

theorem chooseRows_frame {s : State} (i : InstId) (tick : Nat) (wide : Bool) (effL effP n : Nat) [Granted (L.inst i = true)] :
    ∀ (lids : List Nat) (k : Comp), Frame L s k.s → Frame L s (chooseRows i tick wide effL effP n lids k).s := by
  induction n with
 | zero => exact fun _ _ h => h
 | succ n ih =>
    intro lids k h
    unfold chooseRows
    dsimp only
    split
    · exact h
    · exact ih _ _ (tryCandidate_frame _ _ _ _ _ _ h)

theorem issue_frame {s : State} (i : InstId) (fuse : Bool) (k : Comp) (st : Machine.Step) [Granted (L.inst i = true)] [Granted L.Hbm] [Granted L.Outposts] (h : Frame L s k.s) : Frame L s (issue i fuse k st) := by
  unfold issue
  extract_lets s0 x m kit raised credits rows st1 st2 s1 s2 s3 s4 s5 s6 s7 s8 s9
  clear_value raised st2
  have h1 : Frame L s s1 := modKit_frame _ _ h
  clear_value s1
  have h2 : Frame L s s2 := modStair_frame _ _ h1
  clear_value s2
  have h3 : Frame L s s3 := foldl_frame (fun _ _ hu => modLatch_frame _ _ _ hu) _ _ h2
  clear_value s3
  have h4 : Frame L s s4 := by
    unfold s4; split
    · exact modAcct_frame _ _ _ h3
    · exact h3
  clear_value s4
  have h5 : Frame L s s5 := writeManifest_frame _ _ h4
  clear_value s5
  have h7 : Frame L s s7 := Frame.raw h5
  clear_value s7
  have h8 : Frame L s s8 := ringPush_frame _ _ _ _ _ _ h7
  clear_value s8
  have h9 : Frame L s s9 := ringPush_frame _ _ _ _ _ _ h8
  clear_value s9
  exact stageSampler_frame _ _ h9

theorem composeNow_frame (i : InstId) (fuse : Bool) (first : Machine.Seq) (all : List Machine.Seq) [Granted (L.inst i = true)] [Granted L.Hbm] [Granted L.Outposts] (h : Frame L s t) :
    Frame L s (composeNow i fuse first all t) := by
  unfold composeNow
  extract_lets m md ep caps effL effP el mine s1 k k1 st1 chosen t1
  have h1 : Frame L s s1 := modKit_frame _ _ h
  clear_value s1
  have h2 : Frame L s k.s := chooseRows_frame _ _ _ _ _ _ _ _ h1
  clear_value k
  have h3 : Frame L s k1.s := by
    unfold k1
    dsimp only
    exact modKit_frame _ _ h2
  clear_value k1
  have h4 : Frame L s t1 := by
    unfold t1; split
    · exact h3
    · exact issue_frame _ _ _ _ (modMir_frame _ _ h3)
  clear_value t1
  split
  · exact evictFor_frame _ _ _ _ _ (ringPush_frame _ _ _ _ _ _ h4)
  · exact h4

theorem preemptFor_frame (x0 : InstId) (x1 : Bool) (x2 : Machine.Seq) [Granted (L.inst x0 = true)] [Granted L.Hbm] [Granted L.Outposts] (h : Frame L s t) :
    Frame L s (preemptFor x0 x1 x2 t) := by
  unfold preemptFor
  repeat' first | (with_reducible first | assumption | apply composeNow_frame | apply killStep_frame | apply modAcct_frame) | split | dsimp only

theorem composeOnce_frame (x0 : InstId) (x1 : Bool) (x2 : List Machine.Seq) [Granted (L.inst x0 = true)] [Granted L.Hbm] [Granted L.Outposts] (h : Frame L s t) :
    Frame L s (composeOnce x0 x1 x2 t) := by
  unfold composeOnce
  repeat' first | (with_reducible first | assumption | apply composeNow_frame | apply preemptFor_frame) | split | dsimp only

theorem discardNotice_frame (x0 : InstId) [Granted (L.inst x0 = true)] (h : Frame L s t) :
    Frame L s (discardNotice x0 t) := by
  unfold discardNotice
  repeat' first | (with_reducible first | assumption | apply modStudy_frame)

theorem sampledCheck_frame (x0 : InstId) (x1 : Nat) [Granted (L.inst x0 = true)] (h : Frame L s t) :
    Frame L s (sampledCheck x0 x1 t) := by
  unfold sampledCheck
  repeat' first | (with_reducible first | assumption | apply modStep_frame | apply ringPush_frame) | split | dsimp only

theorem outRingOf_frame (x0 : InstId) (x1 x2 x3 x4 x5 : Nat) [Granted (L.inst x0 = true)] (h : Frame L s t) :
    Frame L s (outRingOf x0 x1 x2 x3 x4 x5 t) := by
  unfold outRingOf
  repeat' first | (with_reducible first | assumption | apply ringPush_frame)

theorem outRing_frame (x0 x1 x2 x3 x4 : Nat) [hall : ∀ j, Granted (L.inst j = true)] (h : Frame L s t) : Frame L s (outRing x0 x1 x2 x3 x4 t) := by
  unfold outRing
  split
  · exact outRingOf_frame _ _ _ _ _ _ h
  · exact h

theorem watchPass_frame (x0 : Nat) (x1 : OutRow) (x2 : List TokVal) [Granted L.Hbm] (h : Frame L s t) :
    Frame L s (watchPass x0 x1 x2 t) := by
  unfold watchPass
  repeat' first | (with_reducible first | assumption | apply hbmPut_frame | apply foldl_frame) | intro _

theorem passDone_frame (x0 : Nat) (x1 : OutRow) (x2 : Nat) [hall : ∀ j, Granted (L.inst j = true)] [Granted L.Hbm] [Granted L.Outposts] (h : Frame L s t) :
    ResOk (Frame L s) (passDone x0 x1 x2 t) := by
  unfold passDone
  repeat' first | (with_reducible first | assumption | apply countFixed_frame | apply modOutpost_frame | apply watchPass_frame | apply ResOk.next | exact ResOk.fault _) | split | dsimp only

theorem passParity_frame (x0 x1 : Nat) (x2 : OutRow) [hall : ∀ j, Granted (L.inst j = true)] [Granted L.Outposts] (h : Frame L s t) :
    ResOk (Frame L s) (passParity x0 x1 x2 t) := by
  unfold passParity
  repeat' first | (with_reducible first | assumption | apply modOutpost_frame | apply outRing_frame | apply ResOk.next) | split

theorem discardDown_frame (x0 : InstId) [Granted (L.inst x0 = true)] (h : Frame L s t) :
    Frame L s (discardDown x0 t) := by
  unfold discardDown
  repeat' first | (with_reducible first | assumption | apply modStudy_frame)

theorem takeDown_frame (x0 : Nat) (x1 : DownMsg → Bool) (x2 : DownMsg → OutRow → OutRow) [hall : ∀ j, Granted (L.inst j = true)] [Granted L.Outposts] (h : Frame L s t) :
    ResOk (Frame L s) (takeDown x0 x1 x2 t) := by
  unfold takeDown
  repeat' first | (with_reducible first | assumption | apply discardDown_frame | apply modOutpost_frame | apply ResOk.next) | split

theorem logFences_frame (x0 : InstId) (x1 : Nat) (x2 : BitVec 32) [Granted (L.inst x0 = true)] (h : Frame L s t) :
    Frame L s (logFences x0 x1 x2 t) := by
  unfold logFences
  repeat' first | (with_reducible first | assumption | apply logFault_frame | apply foldl_frame) | intro _

theorem modLand_frame (x0 : InstId) (x1 : RowHandle) (x2 : LandRow → LandRow) [Granted (L.inst x0 = true)] (h : Frame L s t) :
    Frame L s (modLand x0 x1 x2 t) := by
  unfold modLand
  repeat' first | (with_reducible first | assumption | apply modInst_frame | exact fun _ => ⟨rfl, rfl⟩)

theorem watchCopy_frame (x0 : InstId) (x1 : LandRow) (x2 : RowOut) [Granted (L.inst x0 = true)] [Granted L.Hbm] (h : Frame L s t) :
    Frame L s (watchCopy x0 x1 x2 t) := by
  unfold watchCopy
  repeat' first | (with_reducible first | assumption | apply hbmPut_frame | apply foldl_frame) | intro _

theorem postResult_frame (x0 : InstId) (x1 : LandRow) (x2 : RowResult) [Granted (L.inst x0 = true)] [Granted L.Outposts] (h : Frame L s t) :
    Frame L s (postResult x0 x1 x2 t) := by
  unfold postResult
  repeat' first | (with_reducible first | assumption | apply countFixed_frame | apply modInst_frame | exact fun _ => ⟨rfl, rfl⟩ | apply modStep_frame | apply postSeq_frame | apply sampledCheck_frame | apply sendAll_frame | apply foldl_frame) | split | intro _

theorem decodeDone_frame (x0 : InstId) (x1 : LandRow) (x2 : RowOut) [Granted (L.inst x0 = true)] [Granted L.Hbm] [Granted L.Outposts] (h : Frame L s t) :
    Frame L s (decodeDone x0 x1 x2 t) := by
  unfold decodeDone
  repeat' first | (with_reducible first | assumption | apply postResult_frame | apply watchCopy_frame)

theorem emptyDone_frame (x0 : InstId) (x1 : LandRow) [Granted (L.inst x0 = true)] [Granted L.Outposts] (h : Frame L s t) :
    Frame L s (emptyDone x0 x1 t) := by
  unfold emptyDone
  repeat' first | (with_reducible first | assumption | apply postResult_frame)

theorem draftDone_frame (x0 : InstId) (x1 : LandRow) (x2 : List Nat) [Granted (L.inst x0 = true)] [Granted L.Outposts] (h : Frame L s t) :
    Frame L s (draftDone x0 x1 x2 t) := by
  unfold draftDone
  repeat' first | (with_reducible first | assumption | apply postResult_frame)

theorem restartRows_frame (x0 : InstId) (x1 : List LandRow) [Granted (L.inst x0 = true)] [Granted L.Outposts] (h : Frame L s t) :
    Frame L s (restartRows x0 x1 t) := by
  unfold restartRows
  repeat' first | (with_reducible first | assumption | apply modLand_frame | apply modOutpost_frame | apply sendAll_frame | apply foldl_frame) | intro _

theorem checkFailed_frame (x0 : InstId) (x1 : LandRow) (x2 : List Nat) [Granted (L.inst x0 = true)] [Granted L.Outposts] (h : Frame L s t) :
    Frame L s (checkFailed x0 x1 x2 t) := by
  unfold checkFailed
  repeat' first | (with_reducible first | assumption | apply killStep_frame | apply modLand_frame | apply modOutpost_frame | apply modStudy_frame | apply restartRows_frame | apply foldl_frame) | split | intro _

theorem finishPair_frame (x0 : InstId) (x1 : LandRow) (x2 : List LandRow) (x3 : Verdict) (x4 : Nat) [Granted (L.inst x0 = true)] [Granted L.Hbm] [Granted L.Outposts] (h : Frame L s t) :
    Frame L s (finishPair x0 x1 x2 x3 x4 t) := by
  unfold finishPair
  repeat' first | (with_reducible first | assumption | apply postResult_frame | apply watchCopy_frame) | split

theorem startResid_frame (x0 : InstId) (x1 : LandRow) (x2 : List LandRow) (x3 : Verdict) [Granted (L.inst x0 = true)] [Granted L.Outposts] (h : Frame L s t) :
    Frame L s (startResid x0 x1 x2 x3 t) := by
  unfold startResid
  repeat' first | (with_reducible first | assumption | apply modLand_frame | apply sendAll_frame)

theorem settlePair_frame (x0 : InstId) (x1 : LandRow) (x2 : List LandRow) [Granted (L.inst x0 = true)] [Granted L.Hbm] [Granted L.Outposts] (h : Frame L s t) :
    Frame L s (settlePair x0 x1 x2 t) := by
  unfold settlePair
  repeat' first | (with_reducible first | assumption | apply finishPair_frame | apply postResult_frame | apply startResid_frame) | split | dsimp only

theorem pairReady_frame (x0 : InstId) (x1 : LandRow) [Granted (L.inst x0 = true)] [Granted L.Hbm] [Granted L.Outposts] (h : Frame L s t) :
    Frame L s (pairReady x0 x1 t) := by
  unfold pairReady
  repeat' first | (with_reducible first | assumption | apply modLand_frame | apply settlePair_frame) | split | dsimp only

theorem sendLocate_frame (x0 : InstId) (x1 : LandRow) [Granted (L.inst x0 = true)] [Granted L.Outposts] (h : Frame L s t) :
    Frame L s (sendLocate x0 x1 t) := by
  unfold sendLocate
  repeat' first | (with_reducible first | assumption | apply modLand_frame | apply sendDown_frame) | split | dsimp only

theorem raceWithQuotas_frame (x0 : InstId) (x1 : LandRow) (x2 : List (Nat × Nat × Nat)) [Granted (L.inst x0 = true)] [Granted L.Outposts] (h : Frame L s t) :
    Frame L s (raceWithQuotas x0 x1 x2 t) := by
  unfold raceWithQuotas
  repeat' first | (with_reducible first | assumption | apply modLand_frame | apply sendAll_frame | apply sendDown_frame | apply foldl_frame) | intro _

theorem afterCut_frame (x0 : InstId) (x1 : LandRow) [Granted (L.inst x0 = true)] [Granted L.Hbm] [Granted L.Outposts] (h : Frame L s t) :
    Frame L s (afterCut x0 x1 t) := by
  unfold afterCut
  repeat' first | (with_reducible first | assumption | apply decodeDone_frame | apply draftDone_frame | apply modLand_frame | apply pairReady_frame | apply raceWithQuotas_frame | apply sendAll_frame) | split | dsimp only

theorem cutRound_frame (x0 : InstId) (x1 : LandRow) (x2 : List (Nat × List Bin)) [Granted (L.inst x0 = true)] [Granted L.Hbm] [Granted L.Outposts] (h : Frame L s t) :
    Frame L s (cutRound x0 x1 x2 t) := by
  unfold cutRound
  repeat' first | (with_reducible first | assumption | apply afterCut_frame | apply modLand_frame | apply sendAll_frame) | split

theorem popUp_frame (x0 : InstId) (x1 : Nat) [Granted (L.inst x0 = true)] [Granted L.Outposts] (h : Frame L s t) :
    Frame L s (popUp x0 x1 t) := by
  unfold popUp
  repeat' first | (with_reducible first | assumption | apply modOutpost_frame | apply ringMessage_frame) | split

theorem landEnd_frame (x0 : InstId) (x1 : State) [Granted (L.inst x0 = true)] [Granted L.Hbm] [Granted L.Outposts] [Granted L.Role] (h1 : Frame L s x1) (h : Frame L s t) : ResOk (Frame L s) (landEnd x0 x1 t) := by
  unfold landEnd
  split
  · exact done_frame _ _ (modHall_frame _ _ h1)
  · exact endEvent_frame _ _ h

theorem takeSum_frame (x0 : InstId) (x1 : Nat) (x2 : LandStage) (x3 : UpMsg → Bool) (x4 : LandRow → List (Nat × UpMsg) → State → State) (hf4 : ∀ y0 y1 y2, Frame L s y2 → Frame L s (x4 y0 y1 y2)) [Granted (L.inst x0 = true)] [Granted L.Hbm] [Granted L.Outposts] [Granted L.Role] (h : Frame L s t) :
    ResOk (Frame L s) (takeSum x0 x1 x2 x3 x4 t) := by
  unfold takeSum
  repeat' first | (with_reducible first | assumption | apply hf4 | apply discardDown_frame | apply done_frame | apply landEnd_frame | apply modLand_frame | apply popUp_frame | apply ResOk.next) | split | dsimp only

theorem actMax_frame (x0 : InstId) (x1 : LandRow) (x2 : List (Nat × UpMsg)) [Granted (L.inst x0 = true)] [Granted L.Hbm] [Granted L.Outposts] (h : Frame L s t) :
    Frame L s (actMax x0 x1 x2 t) := by
  unfold actMax
  repeat' first | (with_reducible first | assumption | apply emptyDone_frame | apply modLand_frame | apply pairReady_frame | apply sendAll_frame) | split | dsimp only

theorem actMass_frame (x0 : InstId) (x1 : LandRow) (x2 : List (Nat × UpMsg)) [Granted (L.inst x0 = true)] [Granted L.Hbm] [Granted L.Outposts] (h : Frame L s t) :
    Frame L s (actMass x0 x1 x2 t) := by
  unfold actMass
  repeat' first | (with_reducible first | assumption | apply afterCut_frame | apply checkFailed_frame | apply cutRound_frame | apply decodeDone_frame | apply modLand_frame | apply pairReady_frame) | split | dsimp only

theorem actRound_frame (x0 : InstId) (x1 : LandRow) (x2 : List (Nat × UpMsg)) [Granted (L.inst x0 = true)] [Granted L.Hbm] [Granted L.Outposts] (h : Frame L s t) :
    Frame L s (actRound x0 x1 x2 t) := by
  unfold actRound
  repeat' first | (with_reducible first | assumption | apply checkFailed_frame | apply cutRound_frame) | split | dsimp only

theorem actKept_frame (x0 : InstId) (x1 : LandRow) (x2 : List (Nat × UpMsg)) [Granted (L.inst x0 = true)] [Granted L.Outposts] (h : Frame L s t) :
    Frame L s (actKept x0 x1 x2 t) := by
  unfold actKept
  repeat' first | (with_reducible first | assumption | apply checkFailed_frame | apply modLand_frame | apply raceWithQuotas_frame | apply sendLocate_frame) | split | dsimp only

theorem actResid_frame (x0 : InstId) (x1 : LandRow) (x2 : List (Nat × UpMsg)) [Granted (L.inst x0 = true)] [Granted L.Outposts] (h : Frame L s t) :
    Frame L s (actResid x0 x1 x2 t) := by
  unfold actResid
  repeat' first | (with_reducible first | assumption | apply checkFailed_frame | apply modLand_frame | apply sendDown_frame) | split | dsimp only

theorem actRace_frame (x0 : InstId) (x1 : LandRow) (x2 : List (Nat × UpMsg)) [Granted (L.inst x0 = true)] [Granted L.Hbm] [Granted L.Outposts] (h : Frame L s t) :
    Frame L s (actRace x0 x1 x2 t) := by
  unfold actRace
  repeat' first | (with_reducible first | assumption | apply decodeDone_frame) | split | dsimp only

theorem actLocated_frame (x0 : InstId) (x1 : LandRow) (x2 : Nat) (x3 : LocInfo) [Granted (L.inst x0 = true)] [Granted L.Hbm] [Granted L.Outposts] (h : Frame L s t) :
    Frame L s (actLocated x0 x1 x2 x3 t) := by
  unfold actLocated
  repeat' first | (with_reducible first | assumption | apply checkFailed_frame | apply decodeDone_frame | apply draftDone_frame | apply finishPair_frame | apply modLand_frame | apply sendLocate_frame) | split | dsimp only

theorem larderFault_frame (x0 : InstId) (x1 x2 : Nat) (x3 : Machine.Step) [hall : ∀ j, Granted (L.inst j = true)] [Granted L.Outposts] [Granted L.Role] (h : Frame L s t) :
    Frame L s (larderFault x0 x1 x2 x3 t) := by
  unfold larderFault
  repeat' first | (with_reducible first | assumption | apply killStep_frame | apply logFault_frame | apply modRel_frame | exact fun _ => rfl | apply outpostFault_frame) | split | dsimp only

theorem actParity_frame (x0 : InstId) (x1 : LandRow) (x2 x3 : Nat) [hall : ∀ j, Granted (L.inst j = true)] [Granted L.Outposts] [Granted L.Role] (h : Frame L s t) :
    Frame L s (actParity x0 x1 x2 x3 t) := by
  unfold actParity
  repeat' first | (with_reducible first | assumption | apply larderFault_frame | apply modLand_frame | apply restartRows_frame) | split | dsimp only

theorem answerGo_frame (x0 : InstId) (x1 : Nat) (x2 : CmdHeader) (x3 : Nat) [Granted (L.inst x0 = true)] (h : Frame L s t) :
    Frame L s (answerGo x0 x1 x2 x3 t) := by
  unfold answerGo
  repeat' first | (with_reducible first | assumption | apply pushResult_frame)

theorem acceptCmd_frame (x0 : InstId) (x1 : Nat) (x2 : CmdHeader) (x3 : List Byte) [Granted (L.inst x0 = true)] [Granted L.Hbm] (h : Frame L s t) :
    Frame L s (acceptCmd x0 x1 x2 x3 t) := by
  unfold acceptCmd
  repeat' first | (with_reducible first | assumption | apply commandLatch_frame | apply modMir_frame)

theorem notTaken_frame (x0 : InstId) (x1 : Nat) [Granted (L.inst x0 = true)] [Granted L.Role] (h : Frame L s t) :
    ResOk (Frame L s) (notTaken x0 x1 t) := by
  unfold notTaken
  repeat' first | (with_reducible first | assumption | apply done_frame | apply modHall_frame | apply ResOk.next) | split

theorem startCmd_frame (x0 : InstId) (x1 : MboxCmd) [Granted (L.inst x0 = true)] (h : Frame L s t) :
    Frame L s (startCmd x0 x1 t) := by
  unfold startCmd
  repeat' first | (with_reducible first | assumption | apply modAcct_frame | apply modCmd_frame | apply ringPush_frame)

theorem timeCmd_frame (x0 : InstId) (x1 : MboxCmd) [Granted (L.inst x0 = true)] (h : Frame L s t) :
    Frame L s (timeCmd x0 x1 t) := by
  unfold timeCmd
  repeat' first | (with_reducible first | assumption | apply duskMore_frame | apply modCmd_frame) | split

theorem answerCmd_frame (x0 : InstId) (x1 : MboxCmd) (x2 : Answer) [Granted (L.inst x0 = true)] [Granted L.Hbm] (h : Frame L s t) :
    Frame L s (answerCmd x0 x1 x2 t) := by
  unfold answerCmd
  repeat' first | (with_reducible first | assumption | apply finishCmd_frame | apply timeCmd_frame) | split

theorem serve_frame (x0 : InstId) (x1 x2 : Nat) (x3 : MboxCmd → Option Nat) (x4 : MboxCmd → State → Answer × State) (hf4 : ∀ y0 y1, Frame L s y1 → Frame L s (x4 y0 y1).2) [Granted (L.inst x0 = true)] [Granted L.Hbm] [Granted L.Outposts] [Granted L.Role] (h : Frame L s t) :
    ResOk (Frame L s) (serve x0 x1 x2 x3 x4 t) := by
  unfold serve
  repeat' first | (with_reducible first | assumption | apply hf4 | apply answerCmd_frame | apply endEvent_frame | apply finishCmd_frame | apply notTaken_frame | apply startCmd_frame | apply ResOk.next | exact ResOk.fault _) | split | dsimp only

theorem doClass0Reserve_frame (x0 : InstId) (x1 : MboxCmd) [Granted (L.inst x0 = true)] [Granted L.Hbm] (h : Frame L s t) :
    Frame L s (doClass0Reserve x0 x1 t).2 := by
  unfold doClass0Reserve
  repeat' first | (with_reducible first | assumption | apply coolExcess_frame | apply foyerRound_frame | apply journalObj_frame | apply modFoyer_frame) | split | dsimp only

theorem clearCtxIrq_frame (x0 : InstId) (x1 : Nat) [Granted (L.inst x0 = true)] (h : Frame L s t) :
    Frame L s (clearCtxIrq x0 x1 t) := by
  unfold clearCtxIrq
  repeat' first | (with_reducible first | assumption | apply modMir_frame)

theorem journalCtx_frame (x0 : InstId) (x1 : Nat) [Granted (L.inst x0 = true)] (h : Frame L s t) :
    Frame L s (journalCtx x0 x1 t) := by
  unfold journalCtx
  repeat' first | (with_reducible first | assumption | apply journalObj_frame)

theorem doContextOpen_frame (x0 : InstId) (x1 : MboxCmd) [Granted (L.inst x0 = true)] [Granted L.Hbm] (h : Frame L s t) :
    Frame L s (doContextOpen x0 x1 t).2 := by
  unfold doContextOpen
  repeat' first | (with_reducible first | assumption | apply clearCtxIrq_frame | apply foyerRound_frame | apply freeArrival_frame | apply journalCtx_frame | apply modCtx_frame | apply foldl_frame) | split | dsimp only | intro _

theorem doContextConfigure_frame (x0 : InstId) (x1 : MboxCmd) [Granted (L.inst x0 = true)] [Granted L.Hbm] (h : Frame L s t) :
    Frame L s (doContextConfigure x0 x1 t).2 := by
  unfold doContextConfigure
  repeat' first | (with_reducible first | assumption | apply deferTimer_frame | apply foyerRound_frame | apply journalCtx_frame | apply modCtx_frame) | split | dsimp only

theorem doContextClose_frame (x0 : InstId) (x1 : MboxCmd) [Granted (L.inst x0 = true)] [Granted L.Hbm] (h : Frame L s t) :
    Frame L s (doContextClose x0 x1 t).2 := by
  unfold doContextClose
  repeat' first | (with_reducible first | assumption | apply deferTimer_frame | apply modCtx_frame | apply postSeq_frame | apply postUnit_frame | apply rejectDeferred_frame | apply foldl_frame) | split | dsimp only | intro _

theorem doContextQuery_frame (x0 : InstId) (x1 : MboxCmd) [Granted (L.inst x0 = true)] [Granted L.Hbm] (h : Frame L s t) :
    Frame L s (doContextQuery x0 x1 t).2 := by
  unfold doContextQuery
  repeat' first | (with_reducible first | assumption | apply hbmPut_frame) | split | dsimp only

theorem doRecipeDefine_frame (x0 : InstId) (x1 : List Byte) (x2 : MboxCmd) [Granted (L.inst x0 = true)] [Granted L.Hbm] (h : Frame L s t) :
    Frame L s (doRecipeDefine x0 x1 x2 t).2 := by
  unfold doRecipeDefine
  repeat' first | (with_reducible first | assumption | apply foyerRound_frame | apply journalObj_frame | apply modMir_frame) | split | dsimp only

theorem doRecipeUndefine_frame (x0 : InstId) (x1 : MboxCmd) [Granted (L.inst x0 = true)] (h : Frame L s t) :
    Frame L s (doRecipeUndefine x0 x1 t).2 := by
  unfold doRecipeUndefine
  repeat' first | (with_reducible first | assumption | apply journalObj_frame | apply modMir_frame) | split | dsimp only

theorem doPlanRegister_frame (x0 : InstId) (x1 : MboxCmd) [Granted (L.inst x0 = true)] (h : Frame L s t) :
    Frame L s (doPlanRegister x0 x1 t).2 := by
  unfold doPlanRegister
  repeat' first | (with_reducible first | assumption | apply journalObj_frame | apply modLib_frame) | split | dsimp only

theorem doPlanUnregister_frame (x0 : InstId) (x1 : MboxCmd) [Granted (L.inst x0 = true)] (h : Frame L s t) :
    Frame L s (doPlanUnregister x0 x1 t).2 := by
  unfold doPlanUnregister
  repeat' first | (with_reducible first | assumption | apply journalObj_frame | apply libAssign_frame | apply modLib_frame) | split | dsimp only

theorem doPlanQuery_frame (x0 : InstId) (x1 : MboxCmd) [Granted (L.inst x0 = true)] (h : Frame L s t) :
    Frame L s (doPlanQuery x0 x1 t).2 := by
  unfold doPlanQuery
  repeat' first | (with_reducible first | assumption) | split

theorem fetchPass_frame (x0 : InstId) (x1 : Nat) (x2 : Plan) [Granted (L.inst x0 = true)] [Granted L.Hbm] (h : Frame L s t) :
    Frame L s (fetchPass x0 x1 x2 t) := by
  unfold fetchPass
  repeat' first | (with_reducible first | assumption | apply foyerRound_frame | apply modLib_frame | apply postSeq_frame | apply ringPush_frame | apply foldl_frame) | intro _

theorem fetchFail_frame (x0 : InstId) (x1 x2 : Nat) [Granted (L.inst x0 = true)] [Granted L.Hbm] (h : Frame L s t) :
    Frame L s (fetchFail x0 x1 x2 t) := by
  unfold fetchFail
  repeat' first | (with_reducible first | assumption | apply deferTimer_frame | apply journalObj_frame | apply libAssign_frame | apply modLib_frame | apply postSeq_frame | apply rejectDeferred_frame | apply ringPush_frame | apply foldl_frame) | intro _

theorem awaitEvents_frame (x0 : InstId) (x1 x2 x3 : Nat) [Granted (L.inst x0 = true)] (h : Frame L s t) :
    Frame L s (awaitEvents x0 x1 x2 x3 t) := by
  unfold awaitEvents
  repeat' first | (with_reducible first | assumption | apply modCmd_frame)

theorem postEach_frame (x0 : InstId) (x1 : List Nat) (x2 : EvKind) [Granted (L.inst x0 = true)] (h : Frame L s t) :
    Frame L s (postEach x0 x1 x2 t) := by
  unfold postEach
  repeat' first | (with_reducible first | assumption | apply postSeq_frame | apply foldl_frame) | intro _

theorem doCancel_frame (x0 : InstId) (x1 : MboxCmd) [Granted (L.inst x0 = true)] [Granted L.Hbm] (h : Frame L s t) :
    Frame L s (doCancel x0 x1 t).2 := by
  unfold doCancel
  repeat' first | (with_reducible first | assumption | apply awaitEvents_frame | apply closeCmd_frame | apply deferTimer_frame | apply postEach_frame | apply rejectDeferred_frame) | split | dsimp only

theorem doOrder_frame (x0 : InstId) (x1 : MboxCmd) (x2 : EvKind) [Granted (L.inst x0 = true)] [Granted L.Hbm] (h : Frame L s t) :
    Frame L s (doOrder x0 x1 x2 t).2 := by
  unfold doOrder
  repeat' first | (with_reducible first | assumption | apply awaitEvents_frame | apply closeCmd_frame | apply postEach_frame) | split

theorem warmFirst_frame (x0 : InstId) (x1 : List Nat) [Granted (L.inst x0 = true)] (h : Frame L s t) :
    Frame L s (warmFirst x0 x1 t) := by
  unfold warmFirst
  repeat' first | (with_reducible first | assumption | apply postSeq_frame | apply foldl_frame) | split | dsimp only | intro _

theorem doResume_frame (x0 : InstId) (x1 : MboxCmd) [Granted (L.inst x0 = true)] [Granted L.Hbm] (h : Frame L s t) :
    Frame L s (doResume x0 x1 t).2 := by
  unfold doResume
  repeat' first | (with_reducible first | assumption | apply doOrder_frame | apply warmFirst_frame) | split

theorem doExtendCmd_frame (x0 : InstId) (x1 : List Nat) (x2 : MboxCmd) [Granted (L.inst x0 = true)] [Granted L.Hbm] (h : Frame L s t) :
    Frame L s (doExtendCmd x0 x1 x2 t).2 := by
  unfold doExtendCmd
  repeat' first | (with_reducible first | assumption | apply hbmPut_frame | apply postSeq_frame) | split | dsimp only

theorem doQuerySequence_frame (x0 : InstId) (x1 : MboxCmd) [Granted (L.inst x0 = true)] [Granted L.Hbm] (h : Frame L s t) :
    Frame L s (doQuerySequence x0 x1 t).2 := by
  unfold doQuerySequence
  repeat' first | (with_reducible first | assumption | apply hbmPut_frame) | split | dsimp only

theorem doMigrate_frame (x0 : InstId) (x1 : MboxCmd) [Granted (L.inst x0 = true)] (h : Frame L s t) :
    Frame L s (doMigrate x0 x1 t).2 := by
  unfold doMigrate
  repeat' first | (with_reducible first | assumption | apply postSeq_frame) | split | dsimp only

theorem onModel_frame (x0 : InstId) (x1 : Nat → Model → State → Answer × State) (x2 : MboxCmd) (hf1 : ∀ y0 y1 y2, Frame L s y2 → Frame L s (x1 y0 y1 y2).2) [Granted (L.inst x0 = true)] (h : Frame L s t) :
    Frame L s (onModel x0 x1 x2 t).2 := by
  unfold onModel
  repeat' first | (with_reducible first | assumption | apply hf1) | split | dsimp only

theorem journalModel_frame (x0 : InstId) (x1 : Nat) [Granted (L.inst x0 = true)] (h : Frame L s t) :
    Frame L s (journalModel x0 x1 t) := by
  unfold journalModel
  repeat' first | (with_reducible first | assumption | apply journalObj_frame)

theorem answerRequest_frame (x0 : InstId) (x1 : Nat) (x2 : Bool) [Granted (L.inst x0 = true)] (h : Frame L s t) :
    Frame L s (answerRequest x0 x1 x2 t) := by
  unfold answerRequest
  repeat' first | (with_reducible first | assumption | apply modDir_frame)

theorem doModelDescribe_frame (x0 : InstId) (x1 : List Byte) (x2 : MboxCmd) [Granted (L.inst x0 = true)] (h : Frame L s t) :
    Frame L s (doModelDescribe x0 x1 x2 t).2 := by
  unfold doModelDescribe
  repeat' first | (with_reducible first | assumption | apply journalModel_frame | apply modModel_frame) | split | dsimp only

theorem doModelQuery_frame (x0 : InstId) (x1 : MboxCmd) [Granted (L.inst x0 = true)] [Granted L.Hbm] (h : Frame L s t) :
    Frame L s (doModelQuery x0 x1 t).2 := by
  unfold doModelQuery
  repeat' first | (with_reducible first | assumption | apply hbmPut_frame) | split | dsimp only

theorem doModelForget_frame (x0 : InstId) (x1 : MboxCmd) [Granted (L.inst x0 = true)] [Granted L.Hbm] (h : Frame L s t) :
    Frame L s (doModelForget x0 x1 t).2 := by
  unfold doModelForget
  repeat' first | (with_reducible first | assumption | apply foyerRound_frame | apply grantSlots_frame | apply journalModel_frame | apply modDir_frame | apply onModel_frame) | split | intro _

theorem doModelLoaded_frame (x0 : InstId) (x1 : MboxCmd) [Granted (L.inst x0 = true)] [Granted L.Hbm] (h : Frame L s t) :
    Frame L s (doModelLoaded x0 x1 t).2 := by
  unfold doModelLoaded
  repeat' first | (with_reducible first | assumption | apply answerRequest_frame | apply dirEdge_frame | apply foyerRound_frame | apply journalModel_frame | apply modModel_frame | apply onModel_frame) | split | intro _

theorem rejectOfModel_frame (x0 : InstId) (x1 x2 : Nat) [Granted (L.inst x0 = true)] [Granted L.Hbm] (h : Frame L s t) :
    Frame L s (rejectOfModel x0 x1 x2 t) := by
  unfold rejectOfModel
  repeat' first | (with_reducible first | assumption | apply deferTimer_frame | apply rejectDeferred_frame | apply foldl_frame) | intro _

theorem doModelLoadDeclined_frame (x0 : InstId) (x1 : MboxCmd) [Granted (L.inst x0 = true)] [Granted L.Hbm] (h : Frame L s t) :
    Frame L s (doModelLoadDeclined x0 x1 t).2 := by
  unfold doModelLoadDeclined
  repeat' first | (with_reducible first | assumption | apply answerRequest_frame | apply grantSlots_frame | apply journalModel_frame | apply modModel_frame | apply onModel_frame | apply rejectOfModel_frame) | split | intro _

theorem wantAgain_frame (x0 : InstId) (x1 : Nat) [Granted (L.inst x0 = true)] (h : Frame L s t) :
    Frame L s (wantAgain x0 x1 t) := by
  unfold wantAgain
  repeat' first | (with_reducible first | assumption | apply demandModel_frame) | split | dsimp only

theorem doModelUnloaded_frame (x0 : InstId) (x1 : MboxCmd) [Granted (L.inst x0 = true)] [Granted L.Hbm] (h : Frame L s t) :
    Frame L s (doModelUnloaded x0 x1 t).2 := by
  unfold doModelUnloaded
  repeat' first | (with_reducible first | assumption | apply answerRequest_frame | apply foyerRound_frame | apply grantSlots_frame | apply journalModel_frame | apply modModel_frame | apply onModel_frame | apply wantAgain_frame) | split | intro _

theorem doModelPin_frame (x0 : InstId) (x1 : MboxCmd) [Granted (L.inst x0 = true)] (h : Frame L s t) :
    Frame L s (doModelPin x0 x1 t).2 := by
  unfold doModelPin
  repeat' first | (with_reducible first | assumption | apply dirEdge_frame | apply journalModel_frame | apply modModel_frame | apply onModel_frame) | split | dsimp only | intro _

theorem doEpochStage_frame (x0 : InstId) (x1 : List Byte) (x2 : MboxCmd) [Granted (L.inst x0 = true)] (h : Frame L s t) :
    Frame L s (doEpochStage x0 x1 x2 t).2 := by
  unfold doEpochStage
  repeat' first | (with_reducible first | assumption | apply grantSlots_frame | apply journalModel_frame | apply modModel_frame) | split | dsimp only

theorem doEpochReady_frame (x0 : InstId) (x1 : MboxCmd) [Granted (L.inst x0 = true)] (h : Frame L s t) :
    Frame L s (doEpochReady x0 x1 t).2 := by
  unfold doEpochReady
  repeat' first | (with_reducible first | assumption | apply dirCheck_frame | apply journalModel_frame | apply modModel_frame | apply onModel_frame) | split | intro _

theorem doEpochCommit_frame (x0 : InstId) (x1 : MboxCmd) [Granted (L.inst x0 = true)] (h : Frame L s t) :
    Frame L s (doEpochCommit x0 x1 t).2 := by
  unfold doEpochCommit
  repeat' first | (with_reducible first | assumption | apply journalModel_frame | apply modKit_frame | apply modModel_frame | apply onModel_frame) | split | intro _

theorem doEpochUnstage_frame (x0 : InstId) (x1 : MboxCmd) [Granted (L.inst x0 = true)] (h : Frame L s t) :
    Frame L s (doEpochUnstage x0 x1 t).2 := by
  unfold doEpochUnstage
  repeat' first | (with_reducible first | assumption | apply dirEdge_frame | apply grantSlots_frame | apply journalModel_frame | apply modModel_frame | apply onModel_frame) | split | intro _

theorem doEpochRetire_frame (x0 : InstId) (x1 : MboxCmd) [Granted (L.inst x0 = true)] (h : Frame L s t) :
    Frame L s (doEpochRetire x0 x1 t).2 := by
  unfold doEpochRetire
  repeat' first | (with_reducible first | assumption | apply broadcast_frame | apply onModel_frame | apply retireCheck_frame) | split | intro _

theorem doEvening_frame (x0 : InstId) (x1 : MboxCmd) [Granted (L.inst x0 = true)] (h : Frame L s t) :
    Frame L s (doEvening x0 x1 t).2 := by
  unfold doEvening
  repeat' first | (with_reducible first | assumption | apply modKit_frame) | split

theorem finishCode_frame (x0 : InstId) (x1 x2 : Nat) [Granted (L.inst x0 = true)] [Granted L.Hbm] (h : Frame L s t) :
    Frame L s (finishCode x0 x1 x2 t) := by
  unfold finishCode
  repeat' first | (with_reducible first | assumption | apply finishCmd_frame | apply foldl_frame) | intro _

theorem changeMode_frame (x0 : InstId) (x1 : Bool) [hall : ∀ j, Granted (L.inst j = true)] [Granted L.Place] [Granted L.Role] (h : Frame L s t) : Frame L s (changeMode x0 x1 t) := by
  unfold changeMode
  refine ite_frame h (announceAll_frame _ (ite_frame (logFault_frame _ _ _ _ _ _ _ ?_) ?_))
  · exact modInst_frame_any _ _ (modInst_frame_any _ _ h)
  · exact modInst_frame_any _ _ (modInst_frame_any _ _ h)

theorem assignSet_frame (x0 : InstId) (x1 : BitVec 8) [hall : ∀ j, Granted (L.inst j = true)] [Granted L.Place] [Granted L.Outposts] (h : Frame L s t) : Frame L s (assignSet x0 x1 t) := by
  have hset := foldl_frame (fun u o hu => modOutpost_frame o (fun x => if (x.owner == some x0 || (!(getInst t x0).place.split && x.owner == some (Machine.other x0))) && !x1.getLsbD o
    then { x with owner := none, selftest := false } else x) hu) (List.range 8) t h
  unfold assignSet
  exact ite_frame (modInst_frame_place _ _ (fun _ => rfl) hset) (modInst_frame_place _ _ (fun _ => rfl) (modInst_frame_place _ _ (fun _ => rfl) hset))

theorem beginMorning_frame (x0 : InstId) (x1 : Nat × BitVec 8) [hall : ∀ j, Granted (L.inst j = true)] [Granted L.Hbm] [Granted L.Outposts] [Granted L.Place] [Granted L.Role] (h : Frame L s t) :
    Frame L s (beginMorning x0 x1 t) := by
  unfold beginMorning
  repeat' first | (with_reducible first | assumption | apply assignSet_frame | apply changeMode_frame | apply foyerRound_frame | apply grantSlots_frame | apply modDir_frame | apply modKit_frame | apply modOutpost_frame | apply foldl_frame) | split | intro _

theorem doMorning_frame (x0 : InstId) (x1 : MboxCmd) [hall : ∀ j, Granted (L.inst j = true)] [Granted L.Hbm] [Granted L.Outposts] [Granted L.Place] [Granted L.Role] (h : Frame L s t) :
    Frame L s (doMorning x0 x1 t).2 := by
  unfold doMorning
  repeat' first | (with_reducible first | assumption | apply beginMorning_frame) | split | dsimp only

theorem openMorning_frame (x0 : InstId) [Granted (L.inst x0 = true)] [Granted L.Hbm] (h : Frame L s t) :
    Frame L s (openMorning x0 t) := by
  unfold openMorning
  repeat' first | (with_reducible first | assumption | apply dirEdge_frame | apply finishCode_frame | apply foyerRound_frame | apply journalObj_frame | apply modKit_frame | apply modSeq_frame | apply postSeq_frame | apply setRole_frame | apply foldl_frame) | intro _

theorem doTurnCost_frame (x0 : InstId) (x1 : MboxCmd) [Granted (L.inst x0 = true)] [Granted L.Hbm] (h : Frame L s t) :
    Frame L s (doTurnCost x0 x1 t).2 := by
  unfold doTurnCost
  repeat' first | (with_reducible first | assumption | apply hbmPut_frame) | split | dsimp only

theorem doPoolLend_frame (x0 : InstId) (x1 : MboxCmd) [Granted (L.inst x0 = true)] [Granted L.Hbm] (h : Frame L s t) :
    Frame L s (doPoolLend x0 x1 t).2 := by
  unfold doPoolLend
  repeat' first | (with_reducible first | assumption | apply hbmPut_frame | apply modPantry_frame | apply ringPush_frame) | split | dsimp only

theorem doPoolReturn_frame (x0 : InstId) (x1 : MboxCmd) [Granted (L.inst x0 = true)] (h : Frame L s t) :
    Frame L s (doPoolReturn x0 x1 t).2 := by
  unfold doPoolReturn
  repeat' first | (with_reducible first | assumption | apply modPantry_frame | apply ringPush_frame)

theorem askGrant_frame (x0 : InstId) (x1 : FlashUse) [Granted L.Flash] (h : Frame L s t) : Frame L s (askGrant x0 x1 t) := h.rawFlash

theorem dropGrant_frame (x0 : InstId) [Granted L.Flash] (h : Frame L s t) : Frame L s (dropGrant x0 t) := by
  unfold dropGrant
  split
  · exact ite_frame h.rawFlash h
  · exact h

theorem setStage_frame (x0 : InstId) (x1 : DawnStage) [Granted (L.inst x0 = true)] (h : Frame L s t) :
    Frame L s (setStage x0 x1 t) := by
  unfold setStage
  repeat' first | (with_reducible first | assumption | apply modHearth_frame | apply raiseIrq_frame)

theorem dawnGrant_frame (x0 : InstId) [Granted (L.inst x0 = true)] [Granted L.Flash] (h : Frame L s t) : Frame L s (dawnGrant x0 t) := by
  unfold dawnGrant
  exact ite_frame (setStage_frame _ _ (modHearth_frame _ _ (ite_frame h.rawFlash h))) h

theorem confirmBoot_frame (x0 : InstId) (x1 : Nat) [hall : ∀ j, Granted (L.inst j = true)] [Granted L.Hbm] [Granted L.Flash] (h : Frame L s t) : Frame L s (confirmBoot x0 x1 t) := by
  unfold confirmBoot
  exact finishCmd_frame _ _ _ _ _ (modHearth_frame _ _ (modHearth_frame _ _ (dropGrant_frame _ h.rawFlash)))

theorem nextSlot_frame (x0 : InstId) [Granted (L.inst x0 = true)] [Granted L.Flash] (h : Frame L s t) :
    Frame L s (nextSlot x0 t) := by
  unfold nextSlot
  repeat' first | (with_reducible first | assumption | apply askGrant_frame | apply modHearth_frame | apply setStage_frame) | split

theorem applyTrims_frame (x0 : InstId) (x1 : List (Nat × Nat × Nat × Nat)) [Granted (L.inst x0 = true)] [Granted L.Calib] (h : Frame L s t) : Frame L s (applyTrims x0 x1 t) := by
  unfold applyTrims
  exact modHearth_frame _ _ h.rawCalib

theorem startImage_frame (x0 : InstId) [Granted (L.inst x0 = true)] [Granted L.Calib] (h : Frame L s t) :
    Frame L s (startImage x0 t) := by
  unfold startImage
  repeat' first | (with_reducible first | assumption | apply applyTrims_frame | apply modHearth_frame | apply setStage_frame)

theorem doPlaceRegion_frame (x0 : InstId) (x1 : MboxCmd) [Granted (L.inst x0 = true)] [Granted L.Place] (h : Frame L s t) : Frame L s (doPlaceRegion x0 x1 t).2 := by
  unfold doPlaceRegion
  repeat' first | assumption | exact modInst_frame_place _ _ (fun _ => rfl) h | split | dsimp only

theorem useRange_frame (x0 : InstId) (x1 : Nat × Nat × Nat) [Granted (L.inst x0 = true)] [Granted L.Board] (h : Frame L s t) : Frame L s (useRange x0 x1 t) := by
  unfold useRange
  exact ite_frame h (modRel_frame _ _ (fun _ => rfl) h.rawBoard)

theorem doDriveRange_frame (x0 : InstId) (x1 : MboxCmd) [Granted (L.inst x0 = true)] [Granted L.Board] [Granted L.Place] (h : Frame L s t) : Frame L s (doDriveRange x0 x1 t).2 := by
  unfold doDriveRange
  dsimp only
  exact useRange_frame _ _ (modInst_frame_place _ _ (fun _ => rfl) h)

theorem doIdentity_frame (x0 : InstId) (x1 : MboxCmd) [Granted (L.inst x0 = true)] [Granted L.Place] (h : Frame L s t) : Frame L s (doIdentity x0 x1 t).2 := by
  unfold doIdentity
  dsimp only
  exact modInst_frame_place _ _ (fun _ => rfl) h

theorem doPairing_frame (x0 : InstId) (x1 : MboxCmd) [Granted (L.inst x0 = true)] [Granted L.Place] [Granted L.Outposts] (h : Frame L s t) : Frame L s (doPairing x0 x1 t).2 := by
  unfold doPairing
  repeat' first | assumption | exact modInst_frame_place _ _ (fun _ => rfl) (foldl_frame (fun _ _ hu => modOutpost_frame _ _ hu) _ _ h) | split | dsimp only

theorem doHostTrims_frame (x0 : InstId) (x1 : List Byte) (x2 : MboxCmd) [Granted (L.inst x0 = true)] [Granted L.Calib] (h : Frame L s t) :
    Frame L s (doHostTrims x0 x1 x2 t).2 := by
  unfold doHostTrims
  repeat' first | (with_reducible first | assumption | apply applyTrims_frame) | split | dsimp only

theorem copyFirmware_frame (x0 : InstId) [Granted (L.inst x0 = true)] [Granted L.Hbm] (h : Frame L s t) :
    Frame L s (copyFirmware x0 t) := by
  unfold copyFirmware
  repeat' first | (with_reducible first | assumption | apply hbmPut_frame | apply modHearth_frame)

theorem doDawnComplete_frame (x0 : InstId) (x1 : MboxCmd) [Granted (L.inst x0 = true)] [Granted L.Hbm] [Granted L.Outposts] (h : Frame L s t) :
    Frame L s (doDawnComplete x0 x1 t).2 := by
  unfold doDawnComplete
  repeat' first | (with_reducible first | assumption | apply copyFirmware_frame | apply modOutpost_frame | apply setStage_frame | apply startDiscovery_frame | apply foldl_frame) | split | dsimp only | intro _

theorem pairUp_frame (x0 : InstId) [hall : ∀ j, Granted (L.inst j = true)] [Granted L.Role] (h : Frame L s t) : Frame L s (pairUp x0 t) := by
  unfold pairUp
  exact ite_frame h (ite_frame (modRel_frame_role _ _ (modRel_frame_role _ _ h)) (modRel_frame_role _ _ (mirrorLost_frame _ h)))

theorem openDawn_frame (x0 : InstId) (x1 : Nat) [hall : ∀ j, Granted (L.inst j = true)] [Granted L.Hbm] [Granted L.Role] (h : Frame L s t) :
    Frame L s (openDawn x0 x1 t) := by
  unfold openDawn
  repeat' first | (with_reducible first | assumption | apply finishCmd_frame | apply modRel_frame_role | apply pairUp_frame | apply setRole_frame | apply setStage_frame) | split

theorem afterDiscovery_frame (x0 : InstId) [hall : ∀ j, Granted (L.inst j = true)] [Granted L.Hbm] [Granted L.Role] (h : Frame L s t) :
    Frame L s (afterDiscovery x0 t) := by
  unfold afterDiscovery
  repeat' first | (with_reducible first | assumption | apply modStair_frame | apply openDawn_frame | apply openMorning_frame) | split | dsimp only

theorem fenceCore_frame (x0 : InstId) (x1 : Nat) [hall : ∀ j, Granted (L.inst j = true)] [Granted L.Outposts] [Granted L.Role] (h : Frame L s t) :
    Frame L s (fenceCore x0 x1 t) := by
  unfold fenceCore
  repeat' first | (with_reducible first | assumption | apply instFault_frame | apply logFault_frame | apply modHearth_frame) | split | dsimp only

theorem eccSeq_frame (x0 : InstId) (x1 : Nat) [Granted (L.inst x0 = true)] (h : Frame L s t) :
    Frame L s (eccSeq x0 x1 t) := by
  unfold eccSeq
  repeat' first | (with_reducible first | assumption | apply askFault_frame) | split

theorem readAddr_frame (h : Frame L s t) : Frame L s (readAddr t).2 := h.raw

theorem eccHbm_frame (x0 : InstId) (x1 : Nat) [Granted (L.inst x0 = true)] (h : Frame L s t) :
    Frame L s (eccHbm x0 x1 t) := by
  unfold eccHbm
  repeat' first | (with_reducible first | assumption | apply eccSeq_frame | apply faultAt_frame | apply readAddr_frame) | split

theorem eccFatal_frame (x0 : InstId) (x1 x2 x3 : Nat) [hall : ∀ j, Granted (L.inst j = true)] [Granted L.Outposts] [Granted L.Role] (h : Frame L s t) :
    Frame L s (eccFatal x0 x1 x2 x3 t) := by
  unfold eccFatal
  repeat' first | (with_reducible first | assumption | apply instFault_frame) | split

theorem doImageWrite_frame (x0 : InstId) (x1 : List Byte) (x2 : MboxCmd) [Granted (L.inst x0 = true)] [Granted L.Flash] (h : Frame L s t) :
    Frame L s (doImageWrite x0 x1 x2 t).2 := by
  unfold doImageWrite
  repeat' first | (with_reducible first | assumption | apply askGrant_frame | apply modHearth_frame) | split | dsimp only

theorem doFirmwareConfirm_frame (x0 : InstId) (x1 : MboxCmd) [Granted (L.inst x0 = true)] [Granted L.Flash] (h : Frame L s t) :
    Frame L s (doFirmwareConfirm x0 x1 t).2 := by
  unfold doFirmwareConfirm
  repeat' first | (with_reducible first | assumption | apply askGrant_frame)

theorem writeShadow_frame (x0 : InstId) (x1 : Nat) [Granted (L.inst x0 = true)] [Granted L.Host] (h : Frame L s t) :
    Frame L s (writeShadow x0 x1 t) := by
  unfold writeShadow
  repeat' first | (with_reducible first | assumption | apply hostPut_frame)

theorem setSqTail_frame (x0 : InstId) (x1 x2 : Nat) [Granted (L.inst x0 = true)] (h : Frame L s t) :
    Frame L s (setSqTail x0 x1 x2 t) := by
  unfold setSqTail
  repeat' first | (with_reducible first | assumption | apply modCtx_frame | apply ringPush_frame) | split | dsimp only

theorem setCqHead_frame (x0 : InstId) (x1 x2 : Nat) [Granted (L.inst x0 = true)] (h : Frame L s t) :
    Frame L s (setCqHead x0 x1 x2 t) := by
  unfold setCqHead
  repeat' first | (with_reducible first | assumption | apply freeArrival_frame | apply journalRing_frame | apply modCtx_frame | apply foldl_frame) | split | dsimp only | intro _

theorem guarded_frame (x0 : InstId) (x1 : Option Nat) (x2 : State) [Granted (L.inst x0 = true)] [Granted L.Hbm] [Granted L.Outposts] [Granted L.Role] (h : Frame L s t) :
    ResOk (Frame L s) (guarded x0 x1 x2 t) := by
  unfold guarded
  repeat' first | (with_reducible first | assumption | apply settle_frame | exact ResOk.fault _) | split

theorem testCq_frame (x0 : InstId) (x1 : Nat) [Granted (L.inst x0 = true)] (h : Frame L s t) :
    Frame L s (testCq x0 x1 t) := by
  unfold testCq
  repeat' first | (with_reducible first | assumption | apply raiseIrq_frame) | split

theorem testCqs_frame (x0 : InstId) [Granted (L.inst x0 = true)] (h : Frame L s t) :
    Frame L s (testCqs x0 t) := by
  unfold testCqs
  repeat' first | (with_reducible first | assumption | apply testCq_frame | apply foldl_frame) | intro _

theorem clearCq_frame (x0 : InstId) (x1 : Nat) [Granted (L.inst x0 = true)] (h : Frame L s t) :
    Frame L s (clearCq x0 x1 t) := by
  unfold clearCq
  repeat' first | (with_reducible first | assumption | apply modCtx_frame | apply raiseIrq_frame) | split | dsimp only

theorem clearIrq_frame (x0 : InstId) (x1 : BitVec 36) [Granted (L.inst x0 = true)] (h : Frame L s t) :
    Frame L s (clearIrq x0 x1 t) := by
  unfold clearIrq
  repeat' first | (with_reducible first | assumption | apply clearCq_frame | apply modMir_frame | apply foldl_frame) | intro _

theorem setEnable_frame (x0 : InstId) (x1 : BitVec 36) [Granted (L.inst x0 = true)] (h : Frame L s t) :
    Frame L s (setEnable x0 x1 t) := by
  unfold setEnable
  repeat' first | (with_reducible first | assumption | apply modMir_frame | apply sendIrq_frame)

theorem writeRing_frame (x0 : CtxCfg) (x1 : Nat) (x2 : List Completion) [Granted L.Host] (h : Frame L s t) :
    Frame L s (writeRing x0 x1 x2 t) := by
  induction x2 generalizing x1 t with
 | nil => (unfold writeRing; exact h)
 | cons a b ih =>
    unfold writeRing
    repeat' first | (with_reducible first | apply ih | assumption | apply hostPut_frame)

theorem notRead_frame (x0 : InstId) (x1 : Nat) [Granted (L.inst x0 = true)] [Granted L.Role] (h : Frame L s t) :
    ResOk (Frame L s) (notRead x0 x1 t) := by
  unfold notRead
  repeat' first | (with_reducible first | assumption | apply done_frame | apply modHall_frame | apply ResOk.next) | split | dsimp only

theorem passEntry_frame (x0 : InstId) (x1 : Nat) [Granted (L.inst x0 = true)] [Granted L.Host] (h : Frame L s t) :
    Frame L s (passEntry x0 x1 t) := by
  unfold passEntry
  repeat' first | (with_reducible first | assumption | apply journalRing_frame | apply modCtx_frame | apply writeShadow_frame)

theorem placeBuffers_frame (x0 : Request) (x1 : List Nat) (x2 : List Byte) [Granted L.Hbm] (h : Frame L s t) :
    Frame L s (placeBuffers x0 x1 x2 t) := by
  unfold placeBuffers
  repeat' first | (with_reducible first | assumption | apply hbmPut_frame)

theorem placeEntry_frame (x0 : InstId) (x1 : Nat) (x2 : List Byte) [Granted (L.inst x0 = true)] [Granted L.Host] (h : Frame L s t) :
    Frame L s (placeEntry x0 x1 x2 t) := by
  unfold placeEntry
  repeat' first | (with_reducible first | assumption | apply hostPut_frame)

theorem readSubmit_frame (x0 : InstId) (x1 : Nat) (x2 : List Byte) (x3 : List Nat) (x4 : List Byte) (x5 : State) [Granted (L.inst x0 = true)] [Granted L.Hbm] [Granted L.Host] [Granted L.Outposts] [Granted L.Role] (h : Frame L s t) :
    ResOk (Frame L s) (readSubmit x0 x1 x2 x3 x4 x5 t) := by
  unfold readSubmit
  dsimp only
  repeat' first | (with_reducible first | assumption | apply endEvent_frame | apply newRequest_frame | apply passAll_frame | apply passEntry_frame | apply placeBuffers_frame | exact ResOk.fault _) | split

theorem foyerPeriod_frame (x0 : InstId) (x1 : Nat) [Granted (L.inst x0 = true)] [Granted L.Hbm] (h : Frame L s t) :
    Frame L s (foyerPeriod x0 x1 t) := by
  unfold foyerPeriod
  repeat' first | (with_reducible first | assumption | apply duskUnit_frame | apply foyerRound_frame)

theorem expireDeferred_frame (x0 : InstId) (x1 : Nat) [Granted (L.inst x0 = true)] [Granted L.Hbm] (h : Frame L s t) :
    Frame L s (expireDeferred x0 x1 t) := by
  unfold expireDeferred
  repeat' first | (with_reducible first | assumption | apply deferTimer_frame | apply rejectDeferred_frame)

theorem releaseContext_frame (x0 : InstId) (x1 : Nat) [Granted (L.inst x0 = true)] (h : Frame L s t) :
    Frame L s (releaseContext x0 x1 t) := by
  unfold releaseContext
  repeat' first | (with_reducible first | assumption | apply freeArrival_frame | apply modCtx_frame | apply foldl_frame) | intro _

theorem staleDiscard_frame (x0 : InstId) [Granted (L.inst x0 = true)] (h : Frame L s t) :
    Frame L s (staleDiscard x0 t) := by
  unfold staleDiscard
  repeat' first | (with_reducible first | assumption | apply modStair_frame)

theorem sendBounce_frame (x0 : InstId) (x1 : PeerMsg) [Granted (L.inst x0 = true)] (h : Frame L s t) :
    Frame L s (sendBounce x0 x1 t) := by
  unfold sendBounce
  repeat' first | (with_reducible first | assumption | apply modStair_frame | apply sendMsg_frame)

theorem receiveIf_frame (x0 : InstId) (x1 : Nat) (x2 : PeerMsg) (x3 : State → Option Nat) (x4 : State → State) (hf4 : ∀ y0, Frame L s y0 → Frame L s (x4 y0)) [Granted (L.inst x0 = true)] [Granted L.Hbm] [Granted L.Outposts] [Granted L.Role] (h : Frame L s t) :
    ResOk (Frame L s) (receiveIf x0 x1 x2 x3 x4 t) := by
  unfold receiveIf
  repeat' first | (with_reducible first | assumption | apply hf4 | apply done_frame | apply endEvent_frame | apply modHall_frame | apply modStair_frame | apply ringPush_frame | apply sendBounce_frame | apply ResOk.next | exact ResOk.fault _) | split | dsimp only

theorem receive_frame (x0 : InstId) (x1 : Nat) (x2 : PeerMsg) (x3 : State → State) (hf3 : ∀ y0, Frame L s y0 → Frame L s (x3 y0)) [Granted (L.inst x0 = true)] [Granted L.Hbm] [Granted L.Outposts] [Granted L.Role] (h : Frame L s t) :
    ResOk (Frame L s) (receive x0 x1 x2 x3 t) := by
  unfold receive
  repeat' first | (with_reducible first | assumption | apply receiveIf_frame)

theorem atActive_frame (x0 : InstId) (x1 : State → State) (hf1 : ∀ y0, Frame L s y0 → Frame L s (x1 y0)) [Granted (L.inst x0 = true)] (h : Frame L s t) :
    Frame L s (atActive x0 x1 t) := by
  unfold atActive
  repeat' first | (with_reducible first | assumption | apply hf1 | apply staleDiscard_frame) | split

theorem noteAnnounce_frame (x0 : InstId) (x1 : Bool) (x2 : PeerMsg) [Granted (L.inst x0 = true)] (h : Frame L s t) :
    Frame L s (noteAnnounce x0 x1 x2 t) := by
  unfold noteAnnounce
  repeat' first | (with_reducible first | assumption | apply modStair_frame)

theorem noteProgress_frame (x0 : InstId) (x1 : OutXfer) [Granted (L.inst x0 = true)] (h : Frame L s t) :
    Frame L s (noteProgress x0 x1 t) := by
  unfold noteProgress
  repeat' first | (with_reducible first | assumption | apply duskSet_frame | apply modOut_frame) | split

theorem failTransfer_frame (x0 : InstId) (x1 : OutXfer) (x2 : Nat) [Granted (L.inst x0 = true)] [Granted L.Hbm] (h : Frame L s t) :
    Frame L s (failTransfer x0 x1 x2 t) := by
  unfold failTransfer
  repeat' first | (with_reducible first | assumption | apply closeOut_frame | apply forwardBack_frame | apply foyerRound_frame | apply modOut_frame | apply postSeq_frame) | split

theorem atSource_frame (x0 : InstId) (x1 : PeerMsg) (x2 : OutXfer → State → State) (hf2 : ∀ y0 y1, Frame L s y1 → Frame L s (x2 y0 y1)) [Granted (L.inst x0 = true)] (h : Frame L s t) :
    Frame L s (atSource x0 x1 x2 t) := by
  unfold atSource
  repeat' first | (with_reducible first | assumption | apply hf2 | apply staleDiscard_frame) | split

theorem takeAccept_frame (x0 : InstId) (x1 : PeerMsg) (x2 : OutXfer) [Granted (L.inst x0 = true)] (h : Frame L s t) :
    Frame L s (takeAccept x0 x1 x2 t) := by
  unfold takeAccept
  repeat' first | (with_reducible first | assumption | apply journal_frame | apply modOut_frame | apply modRec_frame | apply noteProgress_frame | apply sendData_frame) | split

theorem takeRefuse_frame (x0 : InstId) (x1 : PeerMsg) (x2 : OutXfer) [Granted (L.inst x0 = true)] [Granted L.Hbm] (h : Frame L s t) :
    Frame L s (takeRefuse x0 x1 x2 t) := by
  unfold takeRefuse
  repeat' first | (with_reducible first | assumption | apply failTransfer_frame | apply staleDiscard_frame) | split

theorem takeDataAck_frame (x0 : InstId) (x1 : PeerMsg) (x2 : OutXfer) [Granted (L.inst x0 = true)] (h : Frame L s t) :
    Frame L s (takeDataAck x0 x1 x2 t) := by
  unfold takeDataAck
  repeat' first | (with_reducible first | assumption | apply duskClear_frame | apply journal_frame | apply modOut_frame | apply noteProgress_frame | apply sendHandover_frame) | split | dsimp only

theorem ackForward_frame (x0 : InstId) (x1 : OutXfer) (x2 : Request) [Granted (L.inst x0 = true)] [Granted L.Hbm] (h : Frame L s t) :
    Frame L s (ackForward x0 x1 x2 t) := by
  unfold ackForward
  repeat' first | (with_reducible first | assumption | apply closeOut_frame | apply foyerRound_frame | apply postRecord_frame | apply undefer_frame) | split

theorem takeAck_frame (x0 : InstId) (x1 : OutXfer) [Granted (L.inst x0 = true)] [Granted L.Hbm] (h : Frame L s t) :
    Frame L s (takeAck x0 x1 t) := by
  unfold takeAck
  repeat' first | (with_reducible first | assumption | apply ackForward_frame | apply postSeq_frame | apply staleDiscard_frame) | split

theorem takeNak_frame (x0 : InstId) (x1 : PeerMsg) (x2 : OutXfer) [Granted (L.inst x0 = true)] [Granted L.Hbm] (h : Frame L s t) :
    Frame L s (takeNak x0 x1 x2 t) := by
  unfold takeNak
  repeat' first | (with_reducible first | assumption | apply failTransfer_frame | apply staleDiscard_frame) | split

theorem sendAccept_frame (x0 : InstId) (x1 : InXfer) [Granted (L.inst x0 = true)] (h : Frame L s t) :
    Frame L s (sendAccept x0 x1 t) := by
  unfold sendAccept
  repeat' first | (with_reducible first | assumption | apply sendIn_frame)

theorem sendRefuse_frame (x0 : InstId) (x1 : PeerMsg) (x2 x3 : Nat) [Granted (L.inst x0 = true)] (h : Frame L s t) :
    Frame L s (sendRefuse x0 x1 x2 x3 t) := by
  unfold sendRefuse
  repeat' first | (with_reducible first | assumption | apply sendMsg_frame)

theorem sendDataAck_frame (x0 : InstId) (x1 : InXfer) (x2 x3 : Nat) [Granted (L.inst x0 = true)] (h : Frame L s t) :
    Frame L s (sendDataAck x0 x1 x2 x3 t) := by
  unfold sendDataAck
  repeat' first | (with_reducible first | assumption | apply sendIn_frame)

theorem sendAck_frame (x0 : InstId) (x1 : InXfer) [Granted (L.inst x0 = true)] (h : Frame L s t) :
    Frame L s (sendAck x0 x1 t) := by
  unfold sendAck
  repeat' first | (with_reducible first | assumption | apply sendIn_frame)

theorem keepOffer_frame (x0 : InstId) (x1 : PeerMsg) [Granted (L.inst x0 = true)] (h : Frame L s t) :
    Frame L s (keepOffer x0 x1 t) := by
  unfold keepOffer
  repeat' first | (with_reducible first | assumption | apply journal_frame | apply modMir_frame | apply postSeq_frame | apply sendAccept_frame) | split | dsimp only

theorem takeOffer_frame (x0 : InstId) (x1 : PeerMsg) [Granted (L.inst x0 = true)] (h : Frame L s t) :
    Frame L s (takeOffer x0 x1 t) := by
  unfold takeOffer
  repeat' first | (with_reducible first | assumption | apply keepOffer_frame | apply sendAccept_frame | apply sendRefuse_frame) | split

theorem refuseArrival_frame (x0 : InstId) (x1 : PeerMsg) (x2 : InXfer) (x3 x4 : Nat) [Granted (L.inst x0 = true)] (h : Frame L s t) :
    Frame L s (refuseArrival x0 x1 x2 x3 x4 t) := by
  unfold refuseArrival
  repeat' first | (with_reducible first | assumption | apply discardIn_frame | apply sendRefuse_frame)

theorem takeRecordPart_frame (x0 : InstId) (x1 : PeerMsg) (x2 : InXfer) [Granted (L.inst x0 = true)] (h : Frame L s t) :
    Frame L s (takeRecordPart x0 x1 x2 t) := by
  unfold takeRecordPart
  repeat' first | (with_reducible first | assumption | apply demandPlan_frame | apply journal_frame | apply modIn_frame | apply modMir_frame | apply modSeq_frame | apply refuseArrival_frame | apply sendDataAck_frame) | split | dsimp only

theorem takeRequestPart_frame (x0 : InstId) (x1 : PeerMsg) (x2 : InXfer) [Granted (L.inst x0 = true)] (h : Frame L s t) :
    Frame L s (takeRequestPart x0 x1 x2 t) := by
  unfold takeRequestPart
  repeat' first | (with_reducible first | assumption | apply journal_frame | apply modIn_frame | apply modMir_frame | apply refuseArrival_frame | apply sendDataAck_frame) | split | dsimp only

theorem takePart_frame (x0 : InstId) (x1 : PeerMsg) (x2 : InXfer) [Granted (L.inst x0 = true)] [Granted L.Hbm] (h : Frame L s t) :
    Frame L s (takePart x0 x1 x2 t) := by
  unfold takePart
  repeat' first | (with_reducible first | assumption | apply hbmPut_frame | apply sendDataAck_frame) | split | dsimp only

theorem takeData_frame (x0 : InstId) (x1 : PeerMsg) [Granted (L.inst x0 = true)] [Granted L.Hbm] (h : Frame L s t) :
    Frame L s (takeData x0 x1 t) := by
  unfold takeData
  repeat' first | (with_reducible first | assumption | apply sendDataAck_frame | apply staleDiscard_frame | apply takePart_frame | apply takeRecordPart_frame | apply takeRequestPart_frame) | split

theorem awaitFlush_frame (x0 : InstId) (x1 : InXfer) [Granted (L.inst x0 = true)] (h : Frame L s t) :
    Frame L s (awaitFlush x0 x1 t) := by
  unfold awaitFlush
  repeat' first | (with_reducible first | assumption | apply modIn_frame | apply modMir_frame | apply modRel_frame | exact fun _ => rfl)

theorem takeForward_frame (x0 : InstId) (x1 : InXfer) (x2 : List Byte) [Granted (L.inst x0 = true)] [Granted L.Hbm] (h : Frame L s t) :
    Frame L s (takeForward x0 x1 x2 t) := by
  unfold takeForward
  repeat' first | (with_reducible first | assumption | apply awaitFlush_frame | apply modFoyer_frame | apply modIn_frame | apply passAll_frame | apply takeForwarded_frame)

theorem sendNak_frame (x0 : InstId) (x1 : PeerMsg) [Granted (L.inst x0 = true)] (h : Frame L s t) :
    Frame L s (sendNak x0 x1 t) := by
  unfold sendNak
  repeat' first | (with_reducible first | assumption | apply sendMsg_frame | apply staleDiscard_frame)

theorem takeHandover_frame (x0 : InstId) (x1 : PeerMsg) [Granted (L.inst x0 = true)] [Granted L.Hbm] (h : Frame L s t) :
    Frame L s (takeHandover x0 x1 t) := by
  unfold takeHandover
  repeat' first | (with_reducible first | assumption | apply modIn_frame | apply postSeq_frame | apply sendAck_frame | apply sendNak_frame | apply takeForward_frame) | split | dsimp only

theorem takeAbandon_frame (x0 : InstId) (x1 : PeerMsg) [Granted (L.inst x0 = true)] [Granted L.Hbm] (h : Frame L s t) :
    Frame L s (takeAbandon x0 x1 t) := by
  unfold takeAbandon
  repeat' first | (with_reducible first | assumption | apply discardIn_frame | apply foyerRound_frame | apply staleDiscard_frame) | split

theorem resendOut_frame (x0 : InstId) (x1 : OutXfer) (x2 : PeerMsg) [Granted (L.inst x0 = true)] (h : Frame L s t) :
    Frame L s (resendOut x0 x1 x2 t) := by
  unfold resendOut
  repeat' first | (with_reducible first | assumption | apply sendHandover_frame | apply sendOffer_frame | apply sendOut_frame) | split

theorem resendIn_frame (x0 : InstId) (x1 : InXfer) (x2 : PeerMsg) [Granted (L.inst x0 = true)] (h : Frame L s t) :
    Frame L s (resendIn x0 x1 x2 t) := by
  unfold resendIn
  repeat' first | (with_reducible first | assumption | apply sendAccept_frame | apply sendAck_frame | apply sendDataAck_frame) | split

theorem takeBounced_frame (x0 : InstId) (x1 x2 : PeerMsg) [Granted (L.inst x0 = true)] [Granted L.Hbm] (h : Frame L s t) :
    Frame L s (takeBounced x0 x1 x2 t) := by
  unfold takeBounced
  repeat' first | (with_reducible first | assumption | apply failTransfer_frame | apply resendIn_frame | apply resendOut_frame) | split

theorem takeBounce_frame (x0 : InstId) (x1 : PeerMsg) [Granted (L.inst x0 = true)] [Granted L.Hbm] (h : Frame L s t) :
    Frame L s (takeBounce x0 x1 t) := by
  unfold takeBounce
  repeat' first | (with_reducible first | assumption | apply modStair_frame | apply notePeer_frame | apply takeBounced_frame) | split | dsimp only

theorem voidEvents_frame (x0 : InstId) (x1 : Nat) [Granted (L.inst x0 = true)] [Granted L.Hbm] (h : Frame L s t) :
    Frame L s (voidEvents x0 x1 t) := by
  unfold voidEvents
  repeat' first | (with_reducible first | assumption | apply finishCmd_frame | apply modHall_frame | apply resolveEvent_frame | apply foldl_frame) | split | intro _

theorem applyMigrateAck_frame (x0 : InstId) (x1 : Nat) [Granted (L.inst x0 = true)] [Granted L.Hbm] (h : Frame L s t) :
    Frame L s (applyMigrateAck x0 x1 t) := by
  unfold applyMigrateAck
  repeat' first | (with_reducible first | assumption | apply closeOut_frame | apply dirEdge_frame | apply finishCmd_frame | apply freeHouse_frame | apply freeSeq_frame | apply modHouse_frame | apply modRec_frame | apply postSeq_frame | apply postSeqRecord_frame | apply releasePages_frame | apply voidEvents_frame) | split

theorem applyMigrateFail_frame (x0 : InstId) (x1 x2 : Nat) [Granted (L.inst x0 = true)] [Granted L.Hbm] (h : Frame L s t) :
    Frame L s (applyMigrateFail x0 x1 x2 t) := by
  unfold applyMigrateFail
  repeat' first | (with_reducible first | assumption | apply applyMidnight_frame | apply closeOut_frame | apply enterState_frame | apply finishCmd_frame | apply modSeq_frame | apply recordDone_frame | apply foldl_frame) | split | intro _

theorem takeKvPages_frame (x0 : InstId) (x1 : Nat) (x2 : List Nat) [Granted (L.inst x0 = true)] (h : Frame L s t) :
    Frame L s (takeKvPages x0 x1 x2 t).2 := by
  induction x1 generalizing x2 t with
 | zero => (unfold takeKvPages; exact h)
 | succ n ih =>
    unfold takeKvPages
    repeat' first | (with_reducible first | apply ih | assumption | apply modPantry_frame) | split

theorem applyMigrateIn_frame (x0 : InstId) (x1 x2 : Nat) [Granted (L.inst x0 = true)] [Granted L.Hbm] (h : Frame L s t) :
    Frame L s (applyMigrateIn x0 x1 x2 t) := by
  unfold applyMigrateIn
  repeat' first | (with_reducible first | assumption | apply discardIn_frame | apply holdBlocks_frame | apply modIn_frame | apply modMir_frame | apply modRec_frame | apply sendAccept_frame | apply sendMsg_frame | apply takeKvPages_frame | apply warmRecord_frame | apply writeList_frame) | split

theorem crossArrival_frame (x0 : InstId) (x1 : Nat) (x2 : MidnightInfo) [Granted (L.inst x0 = true)] [Granted L.Hbm] (h : Frame L s t) :
    Frame L s (crossArrival x0 x1 x2 t) := by
  unfold crossArrival
  repeat' first | (with_reducible first | assumption | apply crossTo_frame | apply invalidateKv_frame) | split | dsimp only

theorem arriveState_frame (x0 : InstId) (x1 : Nat) (x2 : SeqState) [Granted (L.inst x0 = true)] [Granted L.Hbm] (h : Frame L s t) :
    Frame L s (arriveState x0 x1 x2 t) := by
  unfold arriveState
  repeat' first | (with_reducible first | assumption | apply enterState_frame | apply resumeFully_frame) | split

theorem doMigrateDone_frame (x0 : InstId) (x1 : Nat) (x2 : InXfer) [Granted (L.inst x0 = true)] [Granted L.Hbm] (h : Frame L s t) :
    Frame L s (doMigrateDone x0 x1 x2 t) := by
  unfold doMigrateDone
  repeat' first | (with_reducible first | assumption | apply applyMidnight_frame | apply arriveState_frame | apply awaitFlush_frame | apply crossArrival_frame | apply dropPage_frame | apply journal_frame | apply modHouse_frame | apply modRec_frame | apply modSeq_frame | apply postSeqRecord_frame | apply recordDone_frame | apply retime_frame | apply writeList_frame | apply foldl_frame) | split | intro _

theorem applyMigrateDone_frame (x0 : InstId) (x1 x2 : Nat) [Granted (L.inst x0 = true)] [Granted L.Hbm] (h : Frame L s t) :
    Frame L s (applyMigrateDone x0 x1 x2 t) := by
  unfold applyMigrateDone
  repeat' first | (with_reducible first | assumption | apply doMigrateDone_frame) | split

theorem retryMigration_frame (x0 : InstId) (x1 : OutXfer) [Granted (L.inst x0 = true)] [Granted L.Role] (h : Frame L s t) :
    ResOk (Frame L s) (retryMigration x0 x1 t) := by
  unfold retryMigration
  repeat' first | (with_reducible first | assumption | apply countStale_frame | apply done_frame | apply duskSet_frame | apply fireDue_frame | apply releaseEvent_frame | apply resend_frame | apply ResOk.next) | split | dsimp only

theorem staleTimer_frame (x0 : InstId) (x1 x2 : Nat) [Granted (L.inst x0 = true)] [Granted L.Role] (h : Frame L s t) :
    ResOk (Frame L s) (staleTimer x0 x1 x2 t) := by
  unfold staleTimer
  repeat' first | (with_reducible first | assumption | apply countStale_frame | apply done_frame | apply releaseEvent_frame | apply ResOk.next) | split | dsimp only

theorem timeoutMigration_frame (x0 : InstId) (x1 : OutXfer) [Granted (L.inst x0 = true)] [Granted L.Hbm] [Granted L.Outposts] [Granted L.Role] (h : Frame L s t) :
    ResOk (Frame L s) (timeoutMigration x0 x1 t) := by
  unfold timeoutMigration
  repeat' first | (with_reducible first | assumption | apply countStale_frame | apply done_frame | apply endEvent_frame | apply failTransfer_frame | apply fireDue_frame | apply releaseEvent_frame | apply sendMsg_frame | apply spendHandle_frame | apply ResOk.next) | split | dsimp only

theorem doDirectionsSet_frame (x0 : InstId) (x1 : List Byte) (x2 : MboxCmd) [Granted (L.inst x0 = true)] [Granted L.Hbm] (h : Frame L s t) :
    Frame L s (doDirectionsSet x0 x1 x2 t).2 := by
  unfold doDirectionsSet
  repeat' first | (with_reducible first | assumption | apply foyerRound_frame | apply journalObj_frame | apply modMir_frame | apply modStair_frame | apply sendMsg_frame | apply foldl_frame) | split | dsimp only | intro _

theorem drainTrace_frame (x0 : InstId) [Granted (L.inst x0 = true)] [Granted L.Hbm] (h : Frame L s t) :
    Frame L s (drainTrace x0 t) := by
  unfold drainTrace
  repeat' first | (with_reducible first | assumption | apply finishCmd_frame | apply modStudy_frame | apply traceBurst_frame) | split

theorem startTrace_frame (x0 : InstId) (x1 : Nat) [Granted (L.inst x0 = true)] [Granted L.Hbm] (h : Frame L s t) :
    Frame L s (startTrace x0 x1 t) := by
  unfold startTrace
  repeat' first | (with_reducible first | assumption | apply drainTrace_frame | apply modStudy_frame | apply traceAdd_frame)

theorem doTrace_frame (x0 : InstId) (x1 : MboxCmd) [Granted (L.inst x0 = true)] [Granted L.Hbm] (h : Frame L s t) :
    Frame L s (doTrace x0 x1 t).2 := by
  unfold doTrace
  repeat' first | (with_reducible first | assumption | apply drainTrace_frame | apply modStudy_frame | apply startTrace_frame) | split | dsimp only

theorem doCounters_frame (x0 : InstId) (x1 : MboxCmd) [Granted (L.inst x0 = true)] [Granted L.Hbm] (h : Frame L s t) :
    Frame L s (doCounters x0 x1 t).2 := by
  unfold doCounters
  repeat' first | (with_reducible first | assumption | apply hbmPut_frame) | split | dsimp only

theorem doWatch_frame (x0 : InstId) (x1 : MboxCmd) [Granted (L.inst x0 = true)] (h : Frame L s t) :
    Frame L s (doWatch x0 x1 t).2 := by
  unfold doWatch
  repeat' first | (with_reducible first | assumption | apply modStudy_frame) | split | dsimp only

theorem buildGraph_frame (x0 : InstId) [Granted (L.inst x0 = true)] (h : Frame L s t) :
    Frame L s (buildGraph x0 t) := by
  unfold buildGraph
  repeat' first | (with_reducible first | assumption | apply modStudy_frame | apply setCause_frame) | split | dsimp only

theorem noteWaits_frame (x0 : InstId) [Granted (L.inst x0 = true)] [Granted L.Hbm] (h : Frame L s t) : Frame L s (noteWaits x0 t) := by
  unfold noteWaits
  exact foldl_frame (fun _ _ hv => traceAdd_frame _ _ hv) _ _ (modStudy_frame _ _ h.raw)

theorem requestDump_frame (x0 : InstId) [Granted (L.inst x0 = true)] (h : Frame L s t) :
    Frame L s (requestDump x0 t) := by
  unfold requestDump
  repeat' first | (with_reducible first | assumption | apply modStudy_frame) | split | dsimp only

theorem ackDump_frame (x0 : InstId) [Granted (L.inst x0 = true)] (h : Frame L s t) :
    Frame L s (ackDump x0 t) := by
  unfold ackDump
  repeat' first | (with_reducible first | assumption | apply modStudy_frame) | split | dsimp only

theorem clearRc_frame (x0 : InstId) (x1 x2 : Nat) [Granted (L.inst x0 = true)] (h : Frame L s t) :
    Frame L s (clearRc x0 x1 x2 t) := by
  unfold clearRc
  repeat' first | (with_reducible first | assumption | apply modCtx_frame | apply modHall_frame | apply modHearth_frame | apply modStair_frame | apply modStudy_frame) | split

theorem readBus_frame (x0 : InstId) (x1 : Bool) (x2 : Nat) [Granted (L.inst x0 = true)] (h : Frame L s t) :
    Frame L s (readBus x0 x1 x2 t) := by
  unfold readBus
  repeat' first | (with_reducible first | assumption | apply clearRc_frame | apply foldl_frame) | split | intro _ | with_reducible apply Frame.raw

theorem writeKitchen_frame (x0 : InstId) (x1 : Nat) (x2 : BusWrite) [Granted (L.inst x0 = true)] (h : Frame L s t) :
    Frame L s (writeKitchen x0 x1 x2 t) := by
  unfold writeKitchen
  repeat' first | (with_reducible first | assumption | apply modKit_frame)

theorem writeFoyer_frame (x0 : InstId) (x1 : Nat) (x2 : BusWrite) [Granted (L.inst x0 = true)] [Granted L.Hbm] (h : Frame L s t) :
    Frame L s (writeFoyer x0 x1 x2 t) := by
  unfold writeFoyer
  repeat' first | (with_reducible first | assumption | apply coolExcess_frame | apply foyerRound_frame | apply modDir_frame | apply modFoyer_frame) | split | dsimp only

theorem writeFence_frame (x0 : InstId) (x1 x2 : Nat) [Granted (L.inst x0 = true)] [Granted L.Outposts] (h : Frame L s t) :
    Frame L s (writeFence x0 x1 x2 t) := by
  unfold writeFence
  repeat' first | (with_reducible first | assumption | apply modOutpost_frame | apply outRingOf_frame) | split | dsimp only

theorem writeOutpost_frame (x0 : InstId) (x1 x2 : Nat) (x3 : BusWrite) [Granted (L.inst x0 = true)] [Granted L.Outposts] (h : Frame L s t) :
    Frame L s (writeOutpost x0 x1 x2 x3 t) := by
  unfold writeOutpost
  repeat' first | (with_reducible first | assumption | apply modOutpost_frame | apply writeFence_frame) | split

theorem writeContext_frame (x0 : InstId) (x1 x2 : Nat) (x3 : BusWrite) [Granted (L.inst x0 = true)] (h : Frame L s t) :
    Frame L s (writeContext x0 x1 x2 x3 t) := by
  unfold writeContext
  repeat' first | (with_reducible first | assumption | apply journalCtx_frame | apply modCtx_frame | apply setCqHead_frame | apply setSqTail_frame | apply testCq_frame) | split | dsimp only

theorem writeStair_frame (x0 : InstId) (x1 : Nat) (x2 : BusWrite) [Granted (L.inst x0 = true)] (h : Frame L s t) :
    Frame L s (writeStair x0 x1 x2 t) := by
  unfold writeStair
  repeat' first | (with_reducible first | assumption | apply modStair_frame)

theorem writeStudy_frame (x0 : InstId) (x1 : Nat) (x2 : BusWrite) [Granted (L.inst x0 = true)] (h : Frame L s t) :
    Frame L s (writeStudy x0 x1 x2 t) := by
  unfold writeStudy
  repeat' first | (with_reducible first | assumption | apply ackDump_frame | apply modMir_frame | apply modStudy_frame | apply requestDump_frame) | split | dsimp only

theorem writeLatch_frame (x0 : InstId) (x1 x2 : Nat) (x3 : BusWrite) [Granted (L.inst x0 = true)] (h : Frame L s t) :
    Frame L s (writeLatch x0 x1 x2 x3 t) := by
  unfold writeLatch
  repeat' first | (with_reducible first | assumption | apply journalObj_frame | apply modLatch_frame) | split

theorem writeCmd_frame (x0 : InstId) (x1 x2 x3 : Nat) (x4 : BusWrite) [Granted (L.inst x0 = true)] (h : Frame L s t) :
    Frame L s (writeCmd x0 x1 x2 x3 x4 t) := by
  unfold writeCmd
  repeat' first | (with_reducible first | assumption | apply modWin_frame) | split

theorem writeWindow_frame (x0 : InstId) (x1 x2 : Nat) (x3 : BusWrite) [Granted (L.inst x0 = true)] (h : Frame L s t) :
    Frame L s (writeWindow x0 x1 x2 x3 t) := by
  unfold writeWindow
  repeat' first | (with_reducible first | assumption | apply modWin_frame | apply writeCmd_frame) | split

theorem writeAt_frame (x0 : InstId) (x1 : Nat) (x2 : BusWrite) [Granted (L.inst x0 = true)] [Granted L.Hbm] [Granted L.Outposts] (h : Frame L s t) : Frame L s (writeAt x0 x1 x2 t) := by
  unfold writeAt
  refine ite_frame h ?_
  refine ite_frame (writeKitchen_frame _ _ _ h) ?_
  refine ite_frame (writeFoyer_frame _ _ _ h) ?_
  refine ite_frame (writeOutpost_frame _ _ _ _ h) ?_
  refine ite_frame (modHearth_frame _ _ h) ?_
  refine ite_frame h ?_
  refine ite_frame (writeContext_frame _ _ _ _ h) ?_
  refine ite_frame (clearIrq_frame _ _ h) ?_
  refine ite_frame ?_ ?_
  · split
    · exact setEnable_frame _ _ h
    · exact h
  refine ite_frame h ?_
  refine ite_frame (writeStair_frame _ _ _ h) ?_
  refine ite_frame (writeStudy_frame _ _ _ h) ?_
  refine ite_frame h ?_
  refine ite_frame (writeLatch_frame _ _ _ _ h) ?_
  exact ite_frame (writeWindow_frame _ _ _ _ h) h

theorem writeBus_frame (x0 : InstId) (x1 : Bool) (x2 x3 : Nat) [Granted (L.inst x0 = true)] [Granted L.Hbm] [Granted L.Outposts] [Granted L.Role] (h : Frame L s t) :
    ResOk (Frame L s) (writeBus x0 x1 x2 x3 t) := by
  unfold writeBus
  repeat' first | (with_reducible first | assumption | apply guarded_frame | apply writeAt_frame | apply ResOk.next | exact ResOk.fault _) | split | dsimp only

theorem rowWrite_frame (x0 : Nat → Bool) (x1 : InstId) (x2 : Bool) (x3 x4 : Nat) [Granted (L.inst x1 = true)] [Granted L.Hbm] [Granted L.Outposts] [Granted L.Role] (h : Frame L s t) :
    ResOk (Frame L s) (rowWrite x0 x1 x2 x3 x4 t) := by
  unfold rowWrite
  repeat' first | (with_reducible first | assumption | apply writeBus_frame | apply ResOk.next) | split

theorem writeDump_frame (x0 : InstId) (x1 : Nat) (x2 : Dump) (x3 : Bool) [Granted (L.inst x0 = true)] [Granted L.Hbm] (h : Frame L s t) :
    Frame L s (writeDump x0 x1 x2 x3 t) := by
  unfold writeDump
  repeat' first | (with_reducible first | assumption | apply hbmPut_frame | apply takeFree_frame | apply foldl_frame) | intro _

theorem sendDigest_frame (x0 : InstId) [hall : ∀ j, Granted (L.inst j = true)] (h : Frame L s t) :
    Frame L s (sendDigest x0 t) := by
  unfold sendDigest
  repeat' first | (with_reducible first | assumption | apply modRel_frame | exact fun _ => rfl) | split | dsimp only

theorem driveEnter_frame (x0 : InstId) (x1 : DriveOp) (x2 : Bool) [Granted (L.inst x0 = true)] (h : Frame L s t) :
    Frame L s (driveEnter x0 x1 x2 t) := by
  unfold driveEnter
  repeat' first | (with_reducible first | assumption | apply duskMore_frame | apply modRel_frame | exact fun _ => rfl) | split | dsimp only

theorem driveIssue_frame (x0 : InstId) (x1 : DriveOp) (x2 : Bool) [Granted (L.inst x0 = true)] (h : Frame L s t) :
    Frame L s (driveIssue x0 x1 x2 t) := by
  unfold driveIssue
  repeat' first | (with_reducible first | assumption | apply driveEnter_frame | apply modRel_frame | exact fun _ => rfl) | split | dsimp only

theorem driveOver_frame (x0 : InstId) (x1 : DriveCmd) [Granted (L.inst x0 = true)] (h : Frame L s t) :
    Frame L s (driveOver x0 x1 t) := by
  unfold driveOver
  repeat' first | (with_reducible first | assumption | apply driveEnter_frame | apply duskDrop_frame | apply modRel_frame | exact fun _ => rfl) | split | dsimp only

theorem opDone_frame (x0 : InstId) (x1 : DriveOp → Bool) [Granted (L.inst x0 = true)] (h : Frame L s t) :
    Frame L s (opDone x0 x1 t) := by
  unfold opDone
  repeat' first | (with_reducible first | assumption | apply driveOver_frame) | split

theorem digestLogged_frame (x0 : InstId) (x1 : Nat × BitVec 384 × Nat) [Granted (L.inst x0 = true)] (h : Frame L s t) :
    Frame L s (digestLogged x0 x1 t) := by
  unfold digestLogged
  repeat' first | (with_reducible first | assumption | apply modRel_frame | exact fun _ => rfl)

theorem startFlush_frame (x0 : InstId) [Granted (L.inst x0 = true)] (h : Frame L s t) :
    Frame L s (startFlush x0 t) := by
  unfold startFlush
  repeat' first | (with_reducible first | assumption | apply driveIssue_frame | apply journal_frame | apply modHearth_frame | apply modRel_frame | exact fun _ => rfl) | split

theorem ackArrivals_frame (x0 : InstId) (x1 : Nat) [Granted (L.inst x0 = true)] (h : Frame L s t) :
    Frame L s (ackArrivals x0 x1 t) := by
  unfold ackArrivals
  repeat' first | (with_reducible first | assumption | apply modMir_frame | apply modRel_frame | exact fun _ => rfl | apply sendAck_frame | apply foldl_frame) | split | dsimp only | intro _

theorem flushDone_frame (x0 : InstId) [hall : ∀ j, Granted (L.inst j = true)] (h : Frame L s t) :
    Frame L s (flushDone x0 t) := by
  unfold flushDone
  repeat' first | (with_reducible first | assumption | apply ackArrivals_frame | apply modRel_frame | apply opDone_frame | apply sendDigest_frame) | exact fun _ => rfl | split

theorem startBulk_frame (x0 : InstId) (x1 : Option Nat) (x2 : Nat) [Granted (L.inst x0 = true)] (h : Frame L s t) :
    Frame L s (startBulk x0 x1 x2 t) := by
  unfold startBulk
  repeat' first | (with_reducible first | assumption | apply driveIssue_frame | apply modHearth_frame | apply modRel_frame | exact fun _ => rfl)

theorem bulkDone_frame (x0 : InstId) [hall : ∀ j, Granted (L.inst j = true)] [Granted L.Hbm] (h : Frame L s t) :
    Frame L s (bulkDone x0 t) := by
  unfold bulkDone
  repeat' first | (with_reducible first | assumption | apply finishCmd_frame | apply journal_frame | apply modRel_frame | exact fun _ => rfl | apply opDone_frame | apply sendDigest_frame | apply startBulk_frame) | split | dsimp only

theorem pathFail_frame (x0 : InstId) [Granted (L.inst x0 = true)] [Granted L.Hbm] (h : Frame L s t) :
    Frame L s (pathFail x0 t) := by
  unfold pathFail
  repeat' first | (with_reducible first | assumption | apply driveOver_frame | apply finishCmd_frame | apply logFault_frame | apply modRel_frame | exact fun _ => rfl | apply foldl_frame) | split | intro _

theorem driveError_frame (x0 : InstId) (x1 : DriveCmd) [Granted (L.inst x0 = true)] [Granted L.Hbm] (h : Frame L s t) :
    Frame L s (driveError x0 x1 t) := by
  unfold driveError
  repeat' first | (with_reducible first | assumption | apply driveIssue_frame | apply driveOver_frame | apply pathFail_frame) | split

theorem pathBack_frame (x0 : InstId) (x1 : Nat) [Granted (L.inst x0 = true)] [Granted L.Hbm] (h : Frame L s t) :
    Frame L s (pathBack x0 x1 t) := by
  unfold pathBack
  repeat' first | (with_reducible first | assumption | apply finishCmd_frame | apply modRel_frame | exact fun _ => rfl | apply opDone_frame)

theorem driveEnds_frame (x0 : InstId) [Granted (L.inst x0 = true)] (h : Frame L s t) :
    Frame L s (driveEnds x0 t).2 := by
  unfold driveEnds
  repeat' first | (with_reducible first | assumption | apply takeFree_frame) | split

theorem driveDone_frame (x0 : InstId) (x1 : DriveCmd) [hall : ∀ j, Granted (L.inst j = true)] [Granted L.Hbm] (h : Frame L s t) :
    Frame L s (driveDone x0 x1 t) := by
  unfold driveDone
  repeat' first | (with_reducible first | assumption | apply bulkDone_frame | apply countFixed_frame | apply digestLogged_frame | apply driveOver_frame | apply flushDone_frame | apply pathBack_frame) | split

theorem fireCores_frame (x0 : InstId) [Granted (L.inst x0 = true)] (h : Frame L s t) :
    Frame L s (fireCores x0 t) := by
  unfold fireCores
  repeat' first | (with_reducible first | assumption | apply fireDue_frame | apply foldl_frame) | intro _

theorem doSnapshot_frame (x0 : InstId) (x1 : MboxCmd) [Granted (L.inst x0 = true)] (h : Frame L s t) :
    Frame L s (doSnapshot x0 x1 t).2 := by
  unfold doSnapshot
  repeat' first | (with_reducible first | assumption | apply startBulk_frame) | split | dsimp only

theorem doLossBound_frame (x0 : InstId) (x1 : MboxCmd) [Granted (L.inst x0 = true)] (h : Frame L s t) :
    Frame L s (doLossBound x0 x1 t).2 := by
  unfold doLossBound
  repeat' first | (with_reducible first | assumption | apply modRel_frame | exact fun _ => rfl)

theorem doDriveRetry_frame (x0 : InstId) (x1 : MboxCmd) [Granted (L.inst x0 = true)] (h : Frame L s t) :
    Frame L s (doDriveRetry x0 x1 t).2 := by
  unfold doDriveRetry
  repeat' first | (with_reducible first | assumption | apply driveIssue_frame) | split | dsimp only

theorem copyAttic_frame (x0 : InstId) (x1 x2 : Mirrored) [Granted (L.inst x0 = true)] [Granted L.Hbm] (h : Frame L s t) :
    Frame L s (copyAttic x0 x1 x2 t) := by
  unfold copyAttic
  repeat' first | (with_reducible first | assumption | apply hbmPut_frame | apply foldl_frame) | split | intro _

theorem applyMirror_frame (x0 : InstId) (x1 : MirrorMsg) [Granted (L.inst x0 = true)] [Granted L.Hbm] (h : Frame L s t) :
    Frame L s (applyMirror x0 x1 t) := by
  unfold applyMirror
  repeat' first | (with_reducible first | assumption | apply copyAttic_frame | apply modInst_frame | exact fun _ => ⟨rfl, rfl⟩)

theorem pathFault_frame (x0 : InstId) [hall : ∀ j, Granted (L.inst j = true)] [Granted L.Role] (h : Frame L s t) :
    Frame L s (pathFault x0 t) := by
  unfold pathFault
  repeat' first | (with_reducible first | assumption | apply markLost_frame | apply mirrorLost_frame) | with_reducible apply Frame.raw

theorem heartbeatOf_frame (x0 : InstId) [hall : ∀ j, Granted (L.inst j = true)] (h : Frame L s t) :
    Frame L s (heartbeatOf x0 t) := by
  unfold heartbeatOf
  repeat' first | (with_reducible first | assumption | apply modRel_frame | exact fun _ => rfl) | split

theorem startClaim_frame (x0 : InstId) [Granted (L.inst x0 = true)] [Granted L.Role] (h : Frame L s t) :
    Frame L s (startClaim x0 t) := by
  unfold startClaim
  repeat' first | (with_reducible first | assumption | apply modRel_frame_role)

theorem judge_frame (x0 : InstId) (x1 : Bool) [hall : ∀ j, Granted (L.inst j = true)] [Granted L.Role] (h : Frame L s t) :
    Frame L s (judge x0 x1 t) := by
  unfold judge
  repeat' first | (with_reducible first | assumption | apply markLost_frame | apply mirrorLost_frame | apply startClaim_frame) | split | with_reducible apply Frame.raw

theorem settleStep_frame (x0 : InstId) (x1 : Machine.Step) [Granted (L.inst x0 = true)] [Granted L.Hbm] (h : Frame L s t) :
    Frame L s (settleStep x0 x1 t) := by
  unfold settleStep
  repeat' first | (with_reducible first | assumption | apply commitOne_frame | apply finishStep_frame | apply foldl_frame) | intro _

theorem dropFlashOps_frame (x0 : InstId) [Granted (L.inst x0 = true)] [Granted L.Flash] (h : Frame L s t) : Frame L s (dropFlashOps x0 t) := by
  unfold dropFlashOps
  exact modHearth_frame _ _ h.rawFlash

theorem rearmCores_frame (x0 : InstId) [Granted (L.inst x0 = true)] (h : Frame L s t) :
    Frame L s (rearmCores x0 t) := by
  unfold rearmCores
  repeat' first | (with_reducible first | assumption | apply duskMore_frame | apply modMir_frame | apply modRel_frame | exact fun _ => rfl | apply foldl_frame) | intro _

theorem killAgain_frame (x0 : InstId) [Granted (L.inst x0 = true)] (h : Frame L s t) :
    Frame L s (killAgain x0 t) := by
  unfold killAgain
  repeat' first | (with_reducible first | assumption | apply foldl_frame) | intro _ | with_reducible apply Frame.raw

theorem tellPeers_frame (x0 : InstId) [Granted (L.inst x0 = true)] (h : Frame L s t) :
    Frame L s (tellPeers x0 t) := by
  unfold tellPeers
  repeat' first | (with_reducible first | assumption | apply announceAll_frame | apply modStair_frame | apply startDiscovery_frame) | split | dsimp only

theorem creditsBack_frame (x0 x1 : InstId) [hall : ∀ j, Granted (L.inst j = true)] (h : Frame L s t) : Frame L s (creditsBack x0 x1 t) := by
  unfold creditsBack
  exact modStair_frame _ _ (modKit_frame _ _ h)

theorem passSet_frame (x0 : InstId) [hall : ∀ j, Granted (L.inst j = true)] [Granted L.Place] (h : Frame L s t) : Frame L s (passSet x0 t) := by
  unfold passSet
  exact modInst_frame_place _ _ (fun _ => rfl) (modInst_frame_place _ _ (fun _ => rfl) h)

theorem takeOver_frame (x0 : InstId) [hall : ∀ j, Granted (L.inst j = true)] [Granted L.Hbm] [Granted L.Flash] [Granted L.Outposts] [Granted L.Place] [Granted L.Role] (h : Frame L s t) :
    Frame L s (takeOver x0 t) := by
  unfold takeOver
  repeat' first | (with_reducible first | assumption | apply creditsBack_frame | apply dropFlashOps_frame | apply killAgain_frame | apply killStep_frame | apply logFault_frame | apply modInst_frame_role | exact fun _ => rfl | apply modKit_frame | apply modMir_frame | apply modOutpost_frame | apply modRel_frame_role | apply modStair_frame | apply passSet_frame | apply rearmCores_frame | apply settleStep_frame | apply tellPeers_frame | apply foldl_frame) | intro _

theorem resync_frame [hall : ∀ j, Granted (L.inst j = true)] [Granted L.Role] (h : Frame L s t) : Frame L s (resync t) := by
  unfold resync
  exact modRel_frame_role _ _ (modRel_frame_role _ _ h)

theorem doRestore_frame (x0 : InstId) (x1 : MboxCmd) [Granted (L.inst x0 = true)] (h : Frame L s t) :
    Frame L s (doRestore x0 x1 t).2 := by
  unfold doRestore
  repeat' first | (with_reducible first | assumption | apply driveIssue_frame | apply modRel_frame | exact fun _ => rfl) | split | dsimp only

theorem rewriteBuffers_frame (x0 : InstId) (x1 : DurImage) [Granted (L.inst x0 = true)] [Granted L.Hbm] (h : Frame L s t) :
    Frame L s (rewriteBuffers x0 x1 t) := by
  unfold rewriteBuffers
  repeat' first | (with_reducible first | assumption | apply hbmPut_frame | apply writeAttic_frame | apply foldl_frame) | split | intro _

theorem withdrawAll_frame (x0 : InstId) (x1 : DurImage) [Granted (L.inst x0 = true)] [Granted L.Hbm] [Granted L.Host] (h : Frame L s t) :
    Frame L s (withdrawAll x0 x1 t) := by
  unfold withdrawAll
  repeat' first | (with_reducible first | assumption | apply journal_frame | apply postReject_frame | apply writeShadow_frame | apply foldl_frame) | split | intro _

theorem restartSeqs_frame (x0 : InstId) [Granted (L.inst x0 = true)] (h : Frame L s t) :
    Frame L s (restartSeqs x0 t) := by
  unfold restartSeqs
  repeat' first | (with_reducible first | assumption | apply duskSet_frame | apply postSeq_frame | apply retime_frame | apply wantModel_frame | apply foldl_frame) | split | intro _

theorem rebuild_frame (x0 : InstId) (x1 : DurImage) (x2 : RestoreState) (x3 : Nat) [Granted (L.inst x0 = true)] [Granted L.Hbm] [Granted L.Host] (h : Frame L s t) :
    Frame L s (rebuild x0 x1 x2 x3 t) := by
  unfold rebuild
  repeat' first | (with_reducible first | assumption | apply foyerRound_frame | apply logFault_frame | apply modInst_frame | exact fun _ => ⟨rfl, rfl⟩ | apply modRel_frame | exact fun _ => rfl | apply raiseGen_frame | apply restartSeqs_frame | apply rewriteBuffers_frame | apply setRole_frame | apply withdrawAll_frame) | split

theorem restoreFails_frame (x0 : InstId) (x1 x2 : Nat) [Granted (L.inst x0 = true)] [Granted L.Hbm] (h : Frame L s t) :
    Frame L s (restoreFails x0 x1 x2 t) := by
  unfold restoreFails
  repeat' first | (with_reducible first | assumption | apply finishCmd_frame | apply modRel_frame | exact fun _ => rfl)

theorem blockReset_frame (x0 : InstId) (x1 : Nat) [Granted (L.inst x0 = true)] [Granted L.Flash] [Granted L.Calib] [Granted L.Reset] [Granted L.Outposts] [Granted L.Place] [Granted L.Role] (h : Frame L s t) :
    Frame L s (blockReset x0 x1 t) := by
  unfold blockReset
  exact ite_frame h (Frame.rawReset (modInst_frame_any x0 _ h.rawFlash))

theorem releaseReset_frame (x0 : InstId) [Granted (L.inst x0 = true)] [Granted L.Flash] [Granted L.Reset] (h : Frame L s t) : Frame L s (releaseReset x0 t) := by
  unfold releaseReset
  exact ite_frame (modHearth_frame _ _ h.rawRelease) h

theorem tickCounters_frame (x0 : InstId) [Granted (L.inst x0 = true)] (h : Frame L s t) : Frame L s (tickCounters x0 t) := by
  unfold tickCounters
  exact Frame.raw (modInst_frame _ _ (fun _ => ⟨rfl, rfl⟩) h)

theorem tickRegs_place (n : Nat) (x : Inst) : (tickRegs n x).place = x.place := rfl

theorem tickInst_frame (x0 : InstId) [Granted (L.inst x0 = true)] [Granted L.Hbm] [Granted L.Outposts] [Granted L.Role] (h : Frame L s t) :
    Frame L s (tickInst x0 t) := by
  unfold tickInst
  dsimp only
  repeat' first | (with_reducible first | assumption | apply announceChange_frame | apply foyerRound_frame | apply mirrorOut_frame | apply modInst_frame | exact fun _ => ⟨rfl, rfl⟩ | exact tickRegs_place _ | apply noteWaits_frame | apply tearDue_frame | apply testCqs_frame | apply tickCounters_frame) | split

theorem closeTick_frame (x0 : InstId) [Granted (L.inst x0 = true)] [Granted L.Role] (h : Frame L s t) :
    Frame L s (closeTick x0 t) := by
  unfold closeTick
  repeat' first | (with_reducible first | assumption | apply fireLists_frame | apply mirrorOut_frame) | split
end Sys2Proof.Footprint

/-! SUPPORT. What each row writes, by the operations that its meaning is made of (the footprint of `Footprint`). -/

namespace Sys2Proof.RowPrints

open Sys2Proof Sys2Proof.Machine Sys2Proof.Laws Sys2Proof.Rows Sys2Proof.Footprint

variable {L : Licence} {s t : State}

theorem execTokenCommit_frame (i : InstId) (lid : Nat) (s : State) [hall : ∀ j, Granted (L.inst j = true)] [hbm : Granted L.Hbm] [Granted L.Outposts] [role : Granted L.Role] : ResOk (Frame L s) (execTokenCommit i lid s) := by
  have h : Frame L s s := Frame.refl s
  unfold execTokenCommit
  repeat' first | (with_reducible first | assumption | apply commitOne_frame | apply endEvent_frame | apply evictResumes_frame | apply releaseEvent_frame | apply ResOk.next | exact ResOk.fault _) | split | dsimp only

theorem execStopCheck_frame (i : InstId) (lid : Nat) (s : State) [hall : ∀ j, Granted (L.inst j = true)] [hbm : Granted L.Hbm] [Granted L.Outposts] [role : Granted L.Role] : ResOk (Frame L s) (execStopCheck i lid s) := by
  have h : Frame L s s := Frame.refl s
  unfold execStopCheck
  repeat' first | (with_reducible first | assumption | apply endEvent_frame | apply releaseEvent_frame | apply ResOk.next) | split

theorem execKill_frame (i : InstId) (lid : Nat) (s : State) [hall : ∀ j, Granted (L.inst j = true)] [hbm : Granted L.Hbm] [Granted L.Outposts] [role : Granted L.Role] : ResOk (Frame L s) (execKill i lid s) := by
  have h : Frame L s s := Frame.refl s
  unfold execKill
  repeat' first | (with_reducible first | assumption | apply applyKill_frame | apply endEvent_frame | apply releaseEvent_frame | apply ResOk.next) | split

theorem execAdmitSeq_frame (i : InstId) (lid : Nat) (s : State) [hall : ∀ j, Granted (L.inst j = true)] [hbm : Granted L.Hbm] [Granted L.Outposts] [role : Granted L.Role] : ResOk (Frame L s) (execAdmitSeq i lid s) := by
  have h : Frame L s s := Frame.refl s
  unfold execAdmitSeq
  repeat' first | (with_reducible first | assumption | apply applyAdmit_frame | apply endEvent_frame | apply passAll_frame | apply releaseEvent_frame | apply ResOk.next) | split

theorem execWarm_frame (i : InstId) (lid : Nat) (s : State) [hall : ∀ j, Granted (L.inst j = true)] [hbm : Granted L.Hbm] [Granted L.Outposts] [role : Granted L.Role] : ResOk (Frame L s) (execWarm i lid s) := by
  have h : Frame L s s := Frame.refl s
  unfold execWarm
  repeat' first | (with_reducible first | assumption | apply applyWarm_frame | apply endEvent_frame | apply releaseEvent_frame | apply ResOk.next) | split

theorem execCool_frame (i : InstId) (lid : Nat) (s : State) [hall : ∀ j, Granted (L.inst j = true)] [hbm : Granted L.Hbm] [Granted L.Outposts] [role : Granted L.Role] : ResOk (Frame L s) (execCool i lid s) := by
  have h : Frame L s s := Frame.refl s
  unfold execCool
  repeat' first | (with_reducible first | assumption | apply applyCool_frame | apply endEvent_frame | apply releaseEvent_frame | apply ResOk.next) | split

theorem execEvictionPark_frame (i : InstId) (lid : Nat) (s : State) [hall : ∀ j, Granted (L.inst j = true)] [hbm : Granted L.Hbm] [Granted L.Outposts] [role : Granted L.Role] : ResOk (Frame L s) (execEvictionPark i lid s) := by
  have h : Frame L s s := Frame.refl s
  unfold execEvictionPark
  repeat' first | (with_reducible first | assumption | apply applyEvict_frame | apply endEvent_frame | apply releaseEvent_frame | apply ResOk.next) | split

theorem execEvictionResume_frame (i : InstId) (lid : Nat) (s : State) [hall : ∀ j, Granted (L.inst j = true)] [hbm : Granted L.Hbm] [Granted L.Outposts] [role : Granted L.Role] : ResOk (Frame L s) (execEvictionResume i lid s) := by
  have h : Frame L s s := Frame.refl s
  unfold execEvictionResume
  repeat' first | (with_reducible first | assumption | apply applyPrefix_frame | apply endEvent_frame | apply releaseEvent_frame | apply resumeFully_frame | apply ResOk.next) | split

theorem execKvInvalidation_frame (i : InstId) (lid : Nat) (s : State) [hall : ∀ j, Granted (L.inst j = true)] [hbm : Granted L.Hbm] [Granted L.Outposts] [role : Granted L.Role] : ResOk (Frame L s) (execKvInvalidation i lid s) := by
  have h : Frame L s s := Frame.refl s
  unfold execKvInvalidation
  repeat' first | (with_reducible first | assumption | apply endEvent_frame | apply invalidateKv_frame | apply recordDone_frame | apply releaseEvent_frame | apply ResOk.next) | split

theorem execSequenceCancel_frame (i : InstId) (lid : Nat) (s : State) [hall : ∀ j, Granted (L.inst j = true)] [hbm : Granted L.Hbm] [Granted L.Outposts] [role : Granted L.Role] : ResOk (Frame L s) (execSequenceCancel i lid s) := by
  have h : Frame L s s := Frame.refl s
  unfold execSequenceCancel
  repeat' first | (with_reducible first | assumption | apply applyCancel_frame | apply endEvent_frame | apply releaseEvent_frame | apply ResOk.next) | split

theorem execSequencePark_frame (i : InstId) (lid : Nat) (s : State) [hall : ∀ j, Granted (L.inst j = true)] [hbm : Granted L.Hbm] [Granted L.Outposts] [role : Granted L.Role] : ResOk (Frame L s) (execSequencePark i lid s) := by
  have h : Frame L s s := Frame.refl s
  unfold execSequencePark
  repeat' first | (with_reducible first | assumption | apply applyPark_frame | apply endEvent_frame | apply releaseEvent_frame | apply ResOk.next) | split

theorem execSequenceResume_frame (i : InstId) (lid : Nat) (s : State) [hall : ∀ j, Granted (L.inst j = true)] [hbm : Granted L.Hbm] [Granted L.Outposts] [role : Granted L.Role] : ResOk (Frame L s) (execSequenceResume i lid s) := by
  have h : Frame L s s := Frame.refl s
  unfold execSequenceResume
  repeat' first | (with_reducible first | assumption | apply applyResume_frame | apply endEvent_frame | apply releaseEvent_frame | apply resolveEvent_frame | apply ResOk.next) | split

theorem execSequenceExtend_frame (i : InstId) (lid : Nat) (s : State) [hall : ∀ j, Granted (L.inst j = true)] [hbm : Granted L.Hbm] [Granted L.Outposts] [role : Granted L.Role] : ResOk (Frame L s) (execSequenceExtend i lid s) := by
  have h : Frame L s s := Frame.refl s
  unfold execSequenceExtend
  repeat' first | (with_reducible first | assumption | apply applyExtend_frame | apply endEvent_frame | apply releaseEvent_frame | apply ResOk.next) | split

theorem execForceRun_frame (i : InstId) (lid : Nat) (s : State) [hall : ∀ j, Granted (L.inst j = true)] [hbm : Granted L.Hbm] [Granted L.Outposts] [role : Granted L.Role] : ResOk (Frame L s) (execForceRun i lid s) := by
  have h : Frame L s s := Frame.refl s
  unfold execForceRun
  repeat' first | (with_reducible first | assumption | apply applyForce_frame | apply endEvent_frame | apply releaseEvent_frame | apply ResOk.next) | split

theorem execMidnightEvent_frame (i : InstId) (lid : Nat) (s : State) [hall : ∀ j, Granted (L.inst j = true)] [hbm : Granted L.Hbm] [Granted L.Outposts] [role : Granted L.Role] : ResOk (Frame L s) (execMidnightEvent i lid s) := by
  have h : Frame L s s := Frame.refl s
  unfold execMidnightEvent
  repeat' first | (with_reducible first | assumption | apply applyMidnight_frame | apply endEvent_frame | apply releaseEvent_frame | apply ResOk.next) | split

theorem execEpochAbort_frame (i : InstId) (lid : Nat) (s : State) [hall : ∀ j, Granted (L.inst j = true)] [hbm : Granted L.Hbm] [Granted L.Outposts] [role : Granted L.Role] : ResOk (Frame L s) (execEpochAbort i lid s) := by
  have h : Frame L s s := Frame.refl s
  unfold execEpochAbort
  repeat' first | (with_reducible first | assumption | apply endEvent_frame | apply endOrWait_frame | apply releaseEvent_frame | apply ResOk.next) | split

theorem execEveningEvent_frame (i : InstId) (lid : Nat) (s : State) [hall : ∀ j, Granted (L.inst j = true)] [hbm : Granted L.Hbm] [Granted L.Outposts] [role : Granted L.Role] : ResOk (Frame L s) (execEveningEvent i lid s) := by
  have h : Frame L s s := Frame.refl s
  unfold execEveningEvent
  repeat' first | (with_reducible first | assumption | apply applyEvening_frame | apply endEvent_frame | apply releaseEvent_frame | apply ResOk.next) | split

theorem execMorningEvent_frame (i : InstId) (lid : Nat) (s : State) [hall : ∀ j, Granted (L.inst j = true)] [hbm : Granted L.Hbm] [Granted L.Outposts] [role : Granted L.Role] : ResOk (Frame L s) (execMorningEvent i lid s) := by
  have h : Frame L s s := Frame.refl s
  unfold execMorningEvent
  repeat' first | (with_reducible first | assumption | apply applyMorning_frame | apply endEvent_frame | apply releaseEvent_frame | apply ResOk.next) | split

theorem execBroadcastSweep_frame (i : InstId) (lid : Nat) (s : State) [hall : ∀ j, Granted (L.inst j = true)] [role : Granted L.Role] : ResOk (Frame L s) (execBroadcastSweep i lid s) := by
  have h : Frame L s s := Frame.refl s
  unfold execBroadcastSweep
  repeat' first | (with_reducible first | assumption | apply done_frame | apply flushBcast_frame | apply ResOk.next) | split

theorem execHousehold_frame (i : InstId) (lid : Nat) (s : State) [hall : ∀ j, Granted (L.inst j = true)] [hbm : Granted L.Hbm] [Granted L.Outposts] [role : Granted L.Role] : ResOk (Frame L s) (execHousehold i lid s) := by
  have h : Frame L s s := Frame.refl s
  unfold execHousehold
  repeat' first | (with_reducible first | assumption | apply applyHousehold_frame | apply endEvent_frame | apply releaseEvent_frame | apply ResOk.next) | split

theorem execTeardown_frame (i : InstId) (lid : Nat) (s : State) [hall : ∀ j, Granted (L.inst j = true)] [hbm : Granted L.Hbm] [Granted L.Outposts] [role : Granted L.Role] : ResOk (Frame L s) (execTeardown i lid s) := by
  have h : Frame L s s := Frame.refl s
  unfold execTeardown
  repeat' first | (with_reducible first | assumption | apply applyTeardown_frame | apply endEvent_frame | apply releaseEvent_frame | apply ResOk.next) | split

theorem execPlanReady_frame (i : InstId) (lid : Nat) (s : State) [hall : ∀ j, Granted (L.inst j = true)] [hbm : Granted L.Hbm] [Granted L.Outposts] [role : Granted L.Role] : ResOk (Frame L s) (execPlanReady i lid s) := by
  have h : Frame L s s := Frame.refl s
  unfold execPlanReady
  repeat' first | (with_reducible first | assumption | apply applyPlanReady_frame | apply endEvent_frame | apply releaseEvent_frame | apply ResOk.next) | split

theorem execDeadlineEntry_frame (i : InstId) (lid : Nat) (s : State) [hall : ∀ j, Granted (L.inst j = true)] [hbm : Granted L.Hbm] [Granted L.Outposts] [role : Granted L.Role] : ResOk (Frame L s) (execDeadlineEntry i lid s) := by
  have h : Frame L s s := Frame.refl s
  unfold execDeadlineEntry
  repeat' first | (with_reducible first | assumption | apply applyDeadline_frame | apply countStale_frame | apply done_frame | apply endEvent_frame | apply fireDue_frame | apply releaseEvent_frame | apply spendHandle_frame) | split | dsimp only

theorem execParkWake_frame (i : InstId) (lid : Nat) (s : State) [hall : ∀ j, Granted (L.inst j = true)] [hbm : Granted L.Hbm] [Granted L.Outposts] [role : Granted L.Role] : ResOk (Frame L s) (execParkWake i lid s) := by
  have h : Frame L s s := Frame.refl s
  unfold execParkWake
  repeat' first | (with_reducible first | assumption | apply applyResume_frame | apply countStale_frame | apply done_frame | apply endEvent_frame | apply fireDue_frame | apply modSeq_frame | apply releaseEvent_frame | apply spendHandle_frame) | split | dsimp only

theorem execComposeStep_frame (i : InstId) (fuse : Bool) (s : State) [hall : ∀ j, Granted (L.inst j = true)] [hbm : Granted L.Hbm] [Granted L.Outposts] [role : Granted L.Role] : ResOk (Frame L s) (execComposeStep i fuse s) := by
  have h : Frame L s s := Frame.refl s
  unfold execComposeStep
  repeat' first | (with_reducible first | assumption | apply composeOnce_frame | apply endEvent_frame | apply latchWaits_frame | apply preCompose_frame | apply ResOk.next) | split

theorem execWaveLandedNotice_frame (i : InstId) (die step wave : Nat) (s : State) [hall : ∀ j, Granted (L.inst j = true)] [role : Granted L.Role] : ResOk (Frame L s) (execWaveLandedNotice i die step wave s) := by
  have h : Frame L s s := Frame.refl s
  unfold execWaveLandedNotice
  repeat' first | (with_reducible first | assumption | apply discardNotice_frame | apply done_frame | apply modStep_frame | apply ringPush_frame | apply sampledCheck_frame | apply ResOk.next) | split

theorem execCompletionNotice_frame (i : InstId) (die step : Nat) (s : State) [hall : ∀ j, Granted (L.inst j = true)] [role : Granted L.Role] : ResOk (Frame L s) (execCompletionNotice i die step s) := by
  have h : Frame L s s := Frame.refl s
  unfold execCompletionNotice
  repeat' first | (with_reducible first | assumption | apply discardNotice_frame | apply done_frame | apply modStep_frame | apply sampledCheck_frame | apply ResOk.next) | split

theorem execKillAcknowledgement_frame (i : InstId) (die step : Nat) (s : State) [hall : ∀ j, Granted (L.inst j = true)] [role : Granted L.Role] : ResOk (Frame L s) (execKillAcknowledgement i die step s) := by
  have h : Frame L s s := Frame.refl s
  unfold execKillAcknowledgement
  repeat' first | (with_reducible first | assumption | apply discardNotice_frame | apply done_frame | apply modStep_frame | apply sweepSteps_frame | apply ResOk.next) | split

theorem execKernelFault_frame (i : InstId) (die step : Nat) (s : State) [hall : ∀ j, Granted (L.inst j = true)] [hbm : Granted L.Hbm] [Granted L.Outposts] [role : Granted L.Role] : ResOk (Frame L s) (execKernelFault i die step s) := by
  have h : Frame L s s := Frame.refl s
  unfold execKernelFault
  repeat' first | (with_reducible first | assumption | apply askFault_frame | apply discardNotice_frame | apply done_frame | apply endEvent_frame | apply killStep_frame | apply logFault_frame | apply modKit_frame | apply outpostFault_frame | apply ResOk.next) | split | dsimp only

theorem execCommitPoint_frame (i : InstId) (step : Nat) (s : State) [hall : ∀ j, Granted (L.inst j = true)] [role : Granted L.Role] : ResOk (Frame L s) (execCommitPoint i step s) := by
  have h : Frame L s s := Frame.refl s
  unfold execCommitPoint
  repeat' first | (with_reducible first | assumption | apply done_frame | apply finishStep_frame | apply foldl_frame | apply modStep_frame | apply postSeq_frame | apply ringPush_frame | apply ResOk.next) | split | intro _

theorem execLatchRelease_frame (i : InstId) (latch : Nat) (s : State) [hall : ∀ j, Granted (L.inst j = true)] [role : Granted L.Role] : ResOk (Frame L s) (execLatchRelease i latch s) := by
  have h : Frame L s s := Frame.refl s
  unfold execLatchRelease
  repeat' first | (with_reducible first | assumption | apply done_frame | apply modLatch_frame | apply ResOk.next) | split

theorem execMidnight_frame (i : InstId) (m : Nat) (s : State) [hall : ∀ j, Granted (L.inst j = true)] [hbm : Granted L.Hbm] [Granted L.Outposts] [role : Granted L.Role] : ResOk (Frame L s) (execMidnight i m s) := by
  have h : Frame L s s := Frame.refl s
  unfold execMidnight
  repeat' first | (with_reducible first | assumption | apply doMidnight_frame | apply endEvent_frame | apply ResOk.next) | split

theorem execDrawList_frame (o : Nat) (s : State) [hall : ∀ j, Granted (L.inst j = true)] [Granted L.Outposts] : ResOk (Frame L s) (execDrawList o s) := by
  have h : Frame L s s := Frame.refl s
  unfold execDrawList
  repeat' first | (with_reducible first | assumption | apply modOutpost_frame | apply ResOk.next) | split

theorem execKeystreamBlock_frame (o : Nat) (h : RowHandle) (lane low : Nat) (s : State) [hall : ∀ j, Granted (L.inst j = true)] [Granted L.Outposts] : ResOk (Frame L s) (execKeystreamBlock o h lane low s) := by
  have h : Frame L s s := Frame.refl s
  unfold execKeystreamBlock
  repeat' first | (with_reducible first | assumption | apply modOutpost_frame | apply ResOk.next) | split | dsimp only

theorem execClassMapLoaded_frame (o plan lane : Nat) (s : State) [hall : ∀ j, Granted (L.inst j = true)] [Granted L.Outposts] : ResOk (Frame L s) (execClassMapLoaded o plan lane s) := by
  have h : Frame L s s := Frame.refl s
  unfold execClassMapLoaded
  repeat' first | (with_reducible first | assumption | apply modOutpost_frame | apply ResOk.next) | split | dsimp only

theorem execMaxResult_frame (o : Nat) (s : State) [hall : ∀ j, Granted (L.inst j = true)] [Granted L.Outposts] : ResOk (Frame L s) (execMaxResult o s) :=
  takeDown_frame _ _ _ (Frame.refl s)

theorem execRoundReq_frame (o : Nat) (s : State) [hall : ∀ j, Granted (L.inst j = true)] [Granted L.Outposts] : ResOk (Frame L s) (execRoundReq o s) :=
  takeDown_frame _ _ _ (Frame.refl s)

theorem execCut_frame (o : Nat) (s : State) [hall : ∀ j, Granted (L.inst j = true)] [Granted L.Outposts] : ResOk (Frame L s) (execCut o s) :=
  takeDown_frame _ _ _ (Frame.refl s)

theorem execQuotas_frame (o : Nat) (s : State) [hall : ∀ j, Granted (L.inst j = true)] [Granted L.Outposts] : ResOk (Frame L s) (execQuotas o s) :=
  takeDown_frame _ _ _ (Frame.refl s)

theorem execLocate_frame (o : Nat) (s : State) [hall : ∀ j, Granted (L.inst j = true)] [Granted L.Outposts] : ResOk (Frame L s) (execLocate o s) :=
  takeDown_frame _ _ _ (Frame.refl s)

theorem execMaxSum_frame (i : InstId) (o : Nat) (s : State) [hall : ∀ j, Granted (L.inst j = true)] [hbm : Granted L.Hbm] [Granted L.Outposts] [role : Granted L.Role] : ResOk (Frame L s) (execMaxSum i o s) :=
  takeSum_frame _ _ _ _ _ (fun _ _ _ => actMax_frame _ _ _) (Frame.refl s)

theorem execMassSum_frame (i : InstId) (o : Nat) (s : State) [hall : ∀ j, Granted (L.inst j = true)] [hbm : Granted L.Hbm] [Granted L.Outposts] [role : Granted L.Role] : ResOk (Frame L s) (execMassSum i o s) :=
  takeSum_frame _ _ _ _ _ (fun _ _ _ => actMass_frame _ _ _) (Frame.refl s)

theorem execRoundSum_frame (i : InstId) (o : Nat) (s : State) [hall : ∀ j, Granted (L.inst j = true)] [hbm : Granted L.Hbm] [Granted L.Outposts] [role : Granted L.Role] : ResOk (Frame L s) (execRoundSum i o s) :=
  takeSum_frame _ _ _ _ _ (fun _ _ _ => actRound_frame _ _ _) (Frame.refl s)

theorem execKeptSum_frame (i : InstId) (o : Nat) (s : State) [hall : ∀ j, Granted (L.inst j = true)] [hbm : Granted L.Hbm] [Granted L.Outposts] [role : Granted L.Role] : ResOk (Frame L s) (execKeptSum i o s) := by
  have h : Frame L s s := Frame.refl s
  unfold execKeptSum
  repeat' first | (with_reducible first | assumption | apply actKept_frame | apply actResid_frame | apply takeSum_frame) | split | intro _

theorem execRaceSum_frame (i : InstId) (o : Nat) (s : State) [hall : ∀ j, Granted (L.inst j = true)] [hbm : Granted L.Hbm] [Granted L.Outposts] [role : Granted L.Role] : ResOk (Frame L s) (execRaceSum i o s) :=
  takeSum_frame _ _ _ _ _ (fun _ _ _ => actRace_frame _ _ _) (Frame.refl s)

theorem execLocated_frame (i : InstId) (o : Nat) (s : State) [hall : ∀ j, Granted (L.inst j = true)] [hbm : Granted L.Hbm] [Granted L.Outposts] [role : Granted L.Role] : ResOk (Frame L s) (execLocated i o s) := by
  have h : Frame L s s := Frame.refl s
  unfold execLocated
  repeat' first | (with_reducible first | assumption | apply actLocated_frame | apply discardDown_frame | apply done_frame | apply landEnd_frame | apply popUp_frame | apply ResOk.next) | split

theorem execParity_frame (i : InstId) (o : Nat) (s : State) [hall : ∀ j, Granted (L.inst j = true)] [hbm : Granted L.Hbm] [Granted L.Outposts] [role : Granted L.Role] : ResOk (Frame L s) (execParity i o s) := by
  have h : Frame L s s := Frame.refl s
  unfold execParity
  repeat' first | (with_reducible first | assumption | apply actParity_frame | apply discardDown_frame | apply done_frame | apply endEvent_frame | apply popUp_frame | apply ResOk.next) | split

theorem execMailboxGo_frame (i : InstId) (w : Nat) (s : State) [hall : ∀ j, Granted (L.inst j = true)] [role : Granted L.Role] : ResOk (Frame L s) (execMailboxGo i w s) := by
  have h : Frame L s s := Frame.refl s
  unfold execMailboxGo
  repeat' first | (with_reducible first | assumption | apply done_frame | apply modWin_frame | apply ResOk.next) | split

theorem execResHeadWrite_frame (i : InstId) (w v : Nat) (s : State) [hall : ∀ j, Granted (L.inst j = true)] [role : Granted L.Role] : ResOk (Frame L s) (execResHeadWrite i w v s) := by
  have h : Frame L s s := Frame.refl s
  unfold execResHeadWrite
  repeat' first | (with_reducible first | assumption | apply done_frame | apply modWin_frame | apply ResOk.next) | split

theorem execMailboxGoTaken_frame (i : InstId) (w : Nat) (s : State) [hall : ∀ j, Granted (L.inst j = true)] [hbm : Granted L.Hbm] [role : Granted L.Role] : ResOk (Frame L s) (execMailboxGoTaken i w s) := by
  have h : Frame L s s := Frame.refl s
  unfold execMailboxGoTaken
  repeat' first | (with_reducible first | assumption | apply acceptCmd_frame | apply answerGo_frame | apply done_frame | apply modHearth_frame | apply modWin_frame | apply ringPush_frame | apply ResOk.next | exact ResOk.fault _) | split | dsimp only

theorem execClass0Reserve_frame (i : InstId) (w : Nat) (s : State) [hall : ∀ j, Granted (L.inst j = true)] [hbm : Granted L.Hbm] [Granted L.Outposts] [role : Granted L.Role] : ResOk (Frame L s) (execClass0Reserve i w s) :=
  serve_frame _ _ _ _ _ (fun _ _ => doClass0Reserve_frame _ _) (Frame.refl s)

theorem execContextOpen_frame (i : InstId) (w : Nat) (s : State) [hall : ∀ j, Granted (L.inst j = true)] [hbm : Granted L.Hbm] [Granted L.Outposts] [role : Granted L.Role] : ResOk (Frame L s) (execContextOpen i w s) :=
  serve_frame _ _ _ _ _ (fun _ _ => doContextOpen_frame _ _) (Frame.refl s)

theorem execContextConfigure_frame (i : InstId) (w : Nat) (s : State) [hall : ∀ j, Granted (L.inst j = true)] [hbm : Granted L.Hbm] [Granted L.Outposts] [role : Granted L.Role] : ResOk (Frame L s) (execContextConfigure i w s) :=
  serve_frame _ _ _ _ _ (fun _ _ => doContextConfigure_frame _ _) (Frame.refl s)

theorem execContextClose_frame (i : InstId) (w : Nat) (s : State) [hall : ∀ j, Granted (L.inst j = true)] [hbm : Granted L.Hbm] [Granted L.Outposts] [role : Granted L.Role] : ResOk (Frame L s) (execContextClose i w s) :=
  serve_frame _ _ _ _ _ (fun _ _ => doContextClose_frame _ _) (Frame.refl s)

theorem execContextCloseDone_frame (i : InstId) (c : Nat) (s : State) [hall : ∀ j, Granted (L.inst j = true)] [hbm : Granted L.Hbm] [role : Granted L.Role] : ResOk (Frame L s) (execContextCloseDone i c s) := by
  have h : Frame L s s := Frame.refl s
  unfold execContextCloseDone
  repeat' first | (with_reducible first | assumption | apply done_frame | apply finishCmd_frame | apply foldl_frame | apply journalCtx_frame | apply modCtx_frame | apply ResOk.next) | split | dsimp only | intro _

theorem execContextQuery_frame (i : InstId) (w : Nat) (s : State) [hall : ∀ j, Granted (L.inst j = true)] [hbm : Granted L.Hbm] [Granted L.Outposts] [role : Granted L.Role] : ResOk (Frame L s) (execContextQuery i w s) :=
  serve_frame _ _ _ _ _ (fun _ _ => doContextQuery_frame _ _) (Frame.refl s)

theorem execSqTailDoorbell_frame (i : InstId) (c v : Nat) (s : State) [hall : ∀ j, Granted (L.inst j = true)] [hbm : Granted L.Hbm] [Granted L.Outposts] [role : Granted L.Role] : ResOk (Frame L s) (execSqTailDoorbell i c v s) := by
  have h : Frame L s s := Frame.refl s
  unfold execSqTailDoorbell
  repeat' first | (with_reducible first | assumption | apply guarded_frame | apply setSqTail_frame | apply ResOk.next) | split

theorem execCqHeadWrite_frame (i : InstId) (c v : Nat) (s : State) [hall : ∀ j, Granted (L.inst j = true)] [hbm : Granted L.Hbm] [Granted L.Outposts] [role : Granted L.Role] : ResOk (Frame L s) (execCqHeadWrite i c v s) := by
  have h : Frame L s s := Frame.refl s
  unfold execCqHeadWrite
  repeat' first | (with_reducible first | assumption | apply guarded_frame | apply setCqHead_frame | apply ResOk.next) | split

theorem execIrqModerationTimer_frame (i : InstId) (c : Nat) (s : State) [hall : ∀ j, Granted (L.inst j = true)] [role : Granted L.Role] : ResOk (Frame L s) (execIrqModerationTimer i c s) := by
  have h : Frame L s s := Frame.refl s
  unfold execIrqModerationTimer
  repeat' first | (with_reducible first | assumption | apply done_frame | apply testCq_frame | apply ResOk.next) | split

theorem execIrqStatusClear_frame (i : InstId) (wide : Bool) (off v : Nat) (s : State) [hall : ∀ j, Granted (L.inst j = true)] [hbm : Granted L.Hbm] [Granted L.Outposts] [role : Granted L.Role] : ResOk (Frame L s) (execIrqStatusClear i wide off v s) := by
  have h : Frame L s s := Frame.refl s
  unfold execIrqStatusClear
  repeat' first | (with_reducible first | assumption | apply clearIrq_frame | apply guarded_frame | apply ResOk.next | exact ResOk.fault _) | split

theorem execIrqEnableWrite_frame (i : InstId) (wide : Bool) (off v : Nat) (s : State) [hall : ∀ j, Granted (L.inst j = true)] [hbm : Granted L.Hbm] [Granted L.Outposts] [role : Granted L.Role] : ResOk (Frame L s) (execIrqEnableWrite i wide off v s) := by
  have h : Frame L s s := Frame.refl s
  unfold execIrqEnableWrite
  repeat' first | (with_reducible first | assumption | apply guarded_frame | apply setEnable_frame | apply ResOk.next | exact ResOk.fault _) | split

theorem execCqRingWrite_frame (i : InstId) (c : Nat) (s : State) [hall : ∀ j, Granted (L.inst j = true)] [hbm : Granted L.Hbm] [host : Granted L.Host] [Granted L.Outposts] [role : Granted L.Role] : ResOk (Frame L s) (execCqRingWrite i c s) := by
  have h : Frame L s s := Frame.refl s
  unfold execCqRingWrite
  repeat' first | (with_reducible first | assumption | apply foyerRound_frame | apply modCtx_frame | apply ringPush_frame | apply settle_frame | apply testCq_frame | apply writeRing_frame | apply writeShadow_frame | apply ResOk.next) | split | dsimp only

theorem execSubmitEntry_frame (i : InstId) (c : Nat) (entry : List Byte) (prompt : List Nat) (stop : List Byte) (s : State) [hall : ∀ j, Granted (L.inst j = true)] [hbm : Granted L.Hbm] [host : Granted L.Host] [Granted L.Outposts] [role : Granted L.Role] :
    ResOk (Frame L s) (execSubmitEntry i c entry prompt stop s) := by
  have h : Frame L s s := Frame.refl s
  unfold execSubmitEntry
  repeat' first | (with_reducible first | assumption | apply notRead_frame | apply placeEntry_frame | apply readSubmit_frame | apply ResOk.next) | split | dsimp only

theorem execSqNop_frame (i : InstId) (c : Nat) (entry : List Byte) (s : State) [hall : ∀ j, Granted (L.inst j = true)] [host : Granted L.Host] [role : Granted L.Role] : ResOk (Frame L s) (execSqNop i c entry s) := by
  have h : Frame L s s := Frame.refl s
  unfold execSqNop
  repeat' first | (with_reducible first | assumption | apply done_frame | apply notRead_frame | apply passEntry_frame | apply placeEntry_frame | apply ResOk.next | exact ResOk.fault _) | split | dsimp only

theorem execSqBadKind_frame (i : InstId) (c : Nat) (entry : List Byte) (s : State) [hall : ∀ j, Granted (L.inst j = true)] [host : Granted L.Host] [role : Granted L.Role] : ResOk (Frame L s) (execSqBadKind i c entry s) := by
  have h : Frame L s s := Frame.refl s
  unfold execSqBadKind
  repeat' first | (with_reducible first | assumption | apply done_frame | apply modCtx_frame | apply notRead_frame | apply passEntry_frame | apply placeEntry_frame | apply ResOk.next | exact ResOk.fault _) | split | dsimp only

theorem execFoyerReevaluation_frame (i : InstId) (s : State) [hall : ∀ j, Granted (L.inst j = true)] [hbm : Granted L.Hbm] [Granted L.Outposts] [role : Granted L.Role] : ResOk (Frame L s) (execFoyerReevaluation i s) := by
  have h : Frame L s s := Frame.refl s
  unfold execFoyerReevaluation
  repeat' first | (with_reducible first | assumption | apply done_frame | apply endEvent_frame | apply fireDue_frame | apply foyerPeriod_frame | apply releaseEvent_frame) | split | dsimp only

theorem execDeferLimitExpiry_frame (i : InstId) (c : Nat) (s : State) [hall : ∀ j, Granted (L.inst j = true)] [hbm : Granted L.Hbm] [Granted L.Outposts] [role : Granted L.Role] : ResOk (Frame L s) (execDeferLimitExpiry i c s) := by
  have h : Frame L s s := Frame.refl s
  unfold execDeferLimitExpiry
  repeat' first | (with_reducible first | assumption | apply done_frame | apply endEvent_frame | apply expireDeferred_frame | apply fireDue_frame | apply foyerRound_frame | apply releaseEvent_frame) | split | dsimp only

theorem execContext_frame (i : InstId) (c : Nat) (s : State) [hall : ∀ j, Granted (L.inst j = true)] [hbm : Granted L.Hbm] [Granted L.Outposts] [role : Granted L.Role] : ResOk (Frame L s) (execContext i c s) := by
  have h : Frame L s s := Frame.refl s
  unfold execContext
  repeat' first | (with_reducible first | assumption | apply endEvent_frame | apply foyerRound_frame | apply releaseEvent_frame | apply ResOk.next) | split

theorem execDmaError_frame (i : InstId) (c : Nat) (s : State) [hall : ∀ j, Granted (L.inst j = true)] [hbm : Granted L.Hbm] [Granted L.Outposts] [role : Granted L.Role] : ResOk (Frame L s) (execDmaError i c s) := by
  have h : Frame L s s := Frame.refl s
  unfold execDmaError
  repeat' first | (with_reducible first | assumption | apply askFault_frame | apply endEvent_frame | apply ResOk.next) | split

theorem execTeardownComplete_frame (i : InstId) (c : Nat) (s : State) [hall : ∀ j, Granted (L.inst j = true)] [hbm : Granted L.Hbm] [Granted L.Outposts] [role : Granted L.Role] : ResOk (Frame L s) (execTeardownComplete i c s) := by
  have h : Frame L s s := Frame.refl s
  unfold execTeardownComplete
  repeat' first | (with_reducible first | assumption | apply endEvent_frame | apply journalCtx_frame | apply raiseIrq_frame | apply releaseContext_frame | apply ResOk.next) | split

theorem execAnnounce_frame (i : InstId) (msg : PeerMsg) (s : State) [hall : ∀ j, Granted (L.inst j = true)] [hbm : Granted L.Hbm] [Granted L.Outposts] [role : Granted L.Role] : ResOk (Frame L s) (execAnnounce i msg s) := by
  have h : Frame L s s := Frame.refl s
  unfold execAnnounce
  repeat' first | (with_reducible first | assumption | apply noteAnnounce_frame | apply receiveIf_frame | apply sendMsg_frame) | intro _

theorem execAnnounceReply_frame (i : InstId) (msg : PeerMsg) (s : State) [hall : ∀ j, Granted (L.inst j = true)] [hbm : Granted L.Hbm] [Granted L.Outposts] [role : Granted L.Role] : ResOk (Frame L s) (execAnnounceReply i msg s) := by
  have h : Frame L s s := Frame.refl s
  unfold execAnnounceReply
  repeat' first | (with_reducible first | assumption | apply noteAnnounce_frame | apply receiveIf_frame) | intro _

theorem execAccept_frame (i : InstId) (msg : PeerMsg) (s : State) [hall : ∀ j, Granted (L.inst j = true)] [hbm : Granted L.Hbm] [Granted L.Outposts] [role : Granted L.Role] : ResOk (Frame L s) (execAccept i msg s) := by
  have h : Frame L s s := Frame.refl s
  unfold execAccept
  repeat' first | (with_reducible first | assumption | apply atActive_frame | apply atSource_frame | apply receiveIf_frame | apply takeAccept_frame) | intro _

theorem execRefuse_frame (i : InstId) (msg : PeerMsg) (s : State) [hall : ∀ j, Granted (L.inst j = true)] [hbm : Granted L.Hbm] [Granted L.Outposts] [role : Granted L.Role] : ResOk (Frame L s) (execRefuse i msg s) := by
  have h : Frame L s s := Frame.refl s
  unfold execRefuse
  repeat' first | (with_reducible first | assumption | apply atActive_frame | apply atSource_frame | apply receive_frame | apply takeRefuse_frame) | intro _

theorem execDataAck_frame (i : InstId) (msg : PeerMsg) (s : State) [hall : ∀ j, Granted (L.inst j = true)] [hbm : Granted L.Hbm] [Granted L.Outposts] [role : Granted L.Role] : ResOk (Frame L s) (execDataAck i msg s) := by
  have h : Frame L s s := Frame.refl s
  unfold execDataAck
  repeat' first | (with_reducible first | assumption | apply atActive_frame | apply atSource_frame | apply receive_frame | apply takeDataAck_frame) | intro _

theorem execAck_frame (i : InstId) (msg : PeerMsg) (s : State) [hall : ∀ j, Granted (L.inst j = true)] [hbm : Granted L.Hbm] [Granted L.Outposts] [role : Granted L.Role] : ResOk (Frame L s) (execAck i msg s) := by
  have h : Frame L s s := Frame.refl s
  unfold execAck
  repeat' first | (with_reducible first | assumption | apply atActive_frame | apply atSource_frame | apply receive_frame | apply takeAck_frame) | intro _

theorem execNak_frame (i : InstId) (msg : PeerMsg) (s : State) [hall : ∀ j, Granted (L.inst j = true)] [hbm : Granted L.Hbm] [Granted L.Outposts] [role : Granted L.Role] : ResOk (Frame L s) (execNak i msg s) := by
  have h : Frame L s s := Frame.refl s
  unfold execNak
  repeat' first | (with_reducible first | assumption | apply atActive_frame | apply atSource_frame | apply receive_frame | apply takeNak_frame) | intro _

theorem execOffer_frame (i : InstId) (msg : PeerMsg) (s : State) [hall : ∀ j, Granted (L.inst j = true)] [hbm : Granted L.Hbm] [Granted L.Outposts] [role : Granted L.Role] : ResOk (Frame L s) (execOffer i msg s) := by
  have h : Frame L s s := Frame.refl s
  unfold execOffer
  repeat' first | (with_reducible first | assumption | apply receiveIf_frame | apply takeOffer_frame) | intro _

theorem execDataMsg_frame (i : InstId) (msg : PeerMsg) (s : State) [hall : ∀ j, Granted (L.inst j = true)] [hbm : Granted L.Hbm] [Granted L.Outposts] [role : Granted L.Role] : ResOk (Frame L s) (execDataMsg i msg s) := by
  have h : Frame L s s := Frame.refl s
  unfold execDataMsg
  repeat' first | (with_reducible first | assumption | apply atActive_frame | apply receiveIf_frame | apply takeData_frame) | intro _

theorem execHandover_frame (i : InstId) (msg : PeerMsg) (s : State) [hall : ∀ j, Granted (L.inst j = true)] [hbm : Granted L.Hbm] [Granted L.Outposts] [role : Granted L.Role] : ResOk (Frame L s) (execHandover i msg s) := by
  have h : Frame L s s := Frame.refl s
  unfold execHandover
  repeat' first | (with_reducible first | assumption | apply receiveIf_frame | apply sendNak_frame | apply takeHandover_frame) | split | intro _

theorem execAbandon_frame (i : InstId) (msg : PeerMsg) (s : State) [hall : ∀ j, Granted (L.inst j = true)] [hbm : Granted L.Hbm] [Granted L.Outposts] [role : Granted L.Role] : ResOk (Frame L s) (execAbandon i msg s) := by
  have h : Frame L s s := Frame.refl s
  unfold execAbandon
  repeat' first | (with_reducible first | assumption | apply atActive_frame | apply receive_frame | apply takeAbandon_frame) | intro _

theorem execBounce_frame (i : InstId) (msg : PeerMsg) (s : State) [hall : ∀ j, Granted (L.inst j = true)] [hbm : Granted L.Hbm] [Granted L.Outposts] [role : Granted L.Role] : ResOk (Frame L s) (execBounce i msg s) := by
  have h : Frame L s s := Frame.refl s
  unfold execBounce
  repeat' first | (with_reducible first | assumption | apply receiveIf_frame | apply takeBounce_frame) | intro _

theorem execMigrateOut_frame (i : InstId) (lid : Nat) (s : State) [hall : ∀ j, Granted (L.inst j = true)] [hbm : Granted L.Hbm] [Granted L.Outposts] [role : Granted L.Role] : ResOk (Frame L s) (execMigrateOut i lid s) := by
  have h : Frame L s s := Frame.refl s
  unfold execMigrateOut
  repeat' first | (with_reducible first | assumption | apply applyMigrateOut_frame | apply endEvent_frame | apply releaseEvent_frame | apply ResOk.next) | split

theorem execMigrateAck_frame (i : InstId) (lid : Nat) (s : State) [hall : ∀ j, Granted (L.inst j = true)] [hbm : Granted L.Hbm] [Granted L.Outposts] [role : Granted L.Role] : ResOk (Frame L s) (execMigrateAck i lid s) := by
  have h : Frame L s s := Frame.refl s
  unfold execMigrateAck
  repeat' first | (with_reducible first | assumption | apply applyMigrateAck_frame | apply endEvent_frame | apply releaseEvent_frame | apply ResOk.next) | split

theorem execMigrateFail_frame (i : InstId) (lid : Nat) (s : State) [hall : ∀ j, Granted (L.inst j = true)] [hbm : Granted L.Hbm] [Granted L.Outposts] [role : Granted L.Role] : ResOk (Frame L s) (execMigrateFail i lid s) := by
  have h : Frame L s s := Frame.refl s
  unfold execMigrateFail
  repeat' first | (with_reducible first | assumption | apply applyMigrateFail_frame | apply endEvent_frame | apply releaseEvent_frame | apply ResOk.next) | split

theorem execMigrateIn_frame (i : InstId) (lid : Nat) (s : State) [hall : ∀ j, Granted (L.inst j = true)] [hbm : Granted L.Hbm] [Granted L.Outposts] [role : Granted L.Role] : ResOk (Frame L s) (execMigrateIn i lid s) := by
  have h : Frame L s s := Frame.refl s
  unfold execMigrateIn
  repeat' first | (with_reducible first | assumption | apply applyMigrateIn_frame | apply endEvent_frame | apply releaseEvent_frame | apply ResOk.next) | split

theorem execMigrateDone_frame (i : InstId) (lid : Nat) (s : State) [hall : ∀ j, Granted (L.inst j = true)] [hbm : Granted L.Hbm] [Granted L.Outposts] [role : Granted L.Role] : ResOk (Frame L s) (execMigrateDone i lid s) := by
  have h : Frame L s s := Frame.refl s
  unfold execMigrateDone
  repeat' first | (with_reducible first | assumption | apply applyMigrateDone_frame | apply endEvent_frame | apply releaseEvent_frame | apply ResOk.next) | split

theorem execMigrationRetry_frame (i : InstId) (subject : Nat) (s : State) [hall : ∀ j, Granted (L.inst j = true)] [hbm : Granted L.Hbm] [Granted L.Outposts] [role : Granted L.Role] : ResOk (Frame L s) (execMigrationRetry i subject s) := by
  have h : Frame L s s := Frame.refl s
  unfold execMigrationRetry
  repeat' first | (with_reducible first | assumption | apply endEvent_frame | apply forwardTimer_frame | apply retryMigration_frame | apply staleTimer_frame | apply ResOk.next) | split

theorem execMigrationTimeout_frame (i : InstId) (subject : Nat) (s : State) [hall : ∀ j, Granted (L.inst j = true)] [hbm : Granted L.Hbm] [Granted L.Outposts] [role : Granted L.Role] : ResOk (Frame L s) (execMigrationTimeout i subject s) := by
  have h : Frame L s s := Frame.refl s
  unfold execMigrationTimeout
  repeat' first | (with_reducible first | assumption | apply endEvent_frame | apply forwardTimer_frame | apply staleTimer_frame | apply timeoutMigration_frame | apply ResOk.next) | split

theorem execArrivalTimeout_frame (i : InstId) (subject : Nat) (s : State) [hall : ∀ j, Granted (L.inst j = true)] [hbm : Granted L.Hbm] [Granted L.Outposts] [role : Granted L.Role] : ResOk (Frame L s) (execArrivalTimeout i subject s) := by
  have h : Frame L s s := Frame.refl s
  unfold execArrivalTimeout
  repeat' first | (with_reducible first | assumption | apply discardIn_frame | apply endEvent_frame | apply foyerRound_frame | apply ResOk.next) | split

theorem execMailboxCommandTimeout_frame (i : InstId) (core : Nat) (s : State) [hall : ∀ j, Granted (L.inst j = true)] [role : Granted L.Role] : ResOk (Frame L s) (execMailboxCommandTimeout i core s) := by
  have h : Frame L s s := Frame.refl s
  unfold execMailboxCommandTimeout
  repeat' first | (with_reducible first | assumption | apply countStale_frame | apply done_frame | apply fireDue_frame | apply releaseEvent_frame) | split | dsimp only

theorem execDuskSpillRefill_frame (i : InstId) (list : Nat) (s : State) [hall : ∀ j, Granted (L.inst j = true)] [role : Granted L.Role] : ResOk (Frame L s) (execDuskSpillRefill i list s) := by
  have h : Frame L s s := Frame.refl s
  unfold execDuskSpillRefill
  repeat' first | (with_reducible first | assumption | apply done_frame | apply modMir_frame | apply ResOk.next) | split

theorem execReorderRelease_frame (i : InstId) (s : State) [hall : ∀ j, Granted (L.inst j = true)] [role : Granted L.Role] : ResOk (Frame L s) (execReorderRelease i s) := by
  have h : Frame L s s := Frame.refl s
  unfold execReorderRelease
  repeat' first | (with_reducible first | assumption | apply done_frame | apply modStair_frame | apply ResOk.next) | split | dsimp only

theorem execDirectionsSet_frame (i : InstId) (w : Nat) (list : List Byte) (s : State) [hall : ∀ j, Granted (L.inst j = true)] [hbm : Granted L.Hbm] [Granted L.Outposts] [role : Granted L.Role] : ResOk (Frame L s) (execDirectionsSet i w list s) :=
  serve_frame _ _ _ _ _ (fun _ _ => doDirectionsSet_frame _ _ _) (Frame.refl s)

theorem execRecipeDefine_frame (i : InstId) (w : Nat) (img : List Byte) (s : State) [hall : ∀ j, Granted (L.inst j = true)] [hbm : Granted L.Hbm] [Granted L.Outposts] [role : Granted L.Role] : ResOk (Frame L s) (execRecipeDefine i w img s) :=
  serve_frame _ _ _ _ _ (fun _ _ => doRecipeDefine_frame _ _ _) (Frame.refl s)

theorem execRecipeUndefine_frame (i : InstId) (w : Nat) (s : State) [hall : ∀ j, Granted (L.inst j = true)] [hbm : Granted L.Hbm] [Granted L.Outposts] [role : Granted L.Role] : ResOk (Frame L s) (execRecipeUndefine i w s) :=
  serve_frame _ _ _ _ _ (fun _ _ => doRecipeUndefine_frame _ _) (Frame.refl s)

theorem execPlanRegister_frame (i : InstId) (w : Nat) (s : State) [hall : ∀ j, Granted (L.inst j = true)] [hbm : Granted L.Hbm] [Granted L.Outposts] [role : Granted L.Role] : ResOk (Frame L s) (execPlanRegister i w s) :=
  serve_frame _ _ _ _ _ (fun _ _ => doPlanRegister_frame _ _) (Frame.refl s)

theorem execPlanUnregister_frame (i : InstId) (w : Nat) (s : State) [hall : ∀ j, Granted (L.inst j = true)] [hbm : Granted L.Hbm] [Granted L.Outposts] [role : Granted L.Role] : ResOk (Frame L s) (execPlanUnregister i w s) :=
  serve_frame _ _ _ _ _ (fun _ _ => doPlanUnregister_frame _ _) (Frame.refl s)

theorem execPlanQuery_frame (i : InstId) (w : Nat) (s : State) [hall : ∀ j, Granted (L.inst j = true)] [hbm : Granted L.Hbm] [Granted L.Outposts] [role : Granted L.Role] : ResOk (Frame L s) (execPlanQuery i w s) :=
  serve_frame _ _ _ _ _ (fun _ _ => doPlanQuery_frame _ _) (Frame.refl s)

theorem execPlanFetchDone_frame (i : InstId) (plan : Nat) (img : List Byte) (s : State) [hall : ∀ j, Granted (L.inst j = true)] [hbm : Granted L.Hbm] [Granted L.Outposts] [role : Granted L.Role] : ResOk (Frame L s) (execPlanFetchDone i plan img s) := by
  have h : Frame L s s := Frame.refl s
  unfold execPlanFetchDone
  repeat' first | (with_reducible first | assumption | apply endEvent_frame | apply fetchFail_frame | apply fetchPass_frame | apply hbmPut_frame | apply ResOk.next | exact ResOk.fault _) | split | dsimp only

theorem execCancel_frame (i : InstId) (w : Nat) (s : State) [hall : ∀ j, Granted (L.inst j = true)] [hbm : Granted L.Hbm] [Granted L.Outposts] [role : Granted L.Role] : ResOk (Frame L s) (execCancel i w s) :=
  serve_frame _ _ _ _ _ (fun _ _ => doCancel_frame _ _) (Frame.refl s)

theorem execPark_frame (i : InstId) (w : Nat) (s : State) [hall : ∀ j, Granted (L.inst j = true)] [hbm : Granted L.Hbm] [Granted L.Outposts] [role : Granted L.Role] : ResOk (Frame L s) (execPark i w s) := by
  have h : Frame L s s := Frame.refl s
  unfold execPark
  repeat' first | (with_reducible first | assumption | apply doOrder_frame | apply serve_frame) | intro _

theorem execResume_frame (i : InstId) (w : Nat) (s : State) [hall : ∀ j, Granted (L.inst j = true)] [hbm : Granted L.Hbm] [Granted L.Outposts] [role : Granted L.Role] : ResOk (Frame L s) (execResume i w s) :=
  serve_frame _ _ _ _ _ (fun _ _ => doResume_frame _ _) (Frame.refl s)

theorem execExtend_frame (i : InstId) (w : Nat) (toks : List Nat) (s : State) [hall : ∀ j, Granted (L.inst j = true)] [hbm : Granted L.Hbm] [Granted L.Outposts] [role : Granted L.Role] : ResOk (Frame L s) (execExtend i w toks s) :=
  serve_frame _ _ _ _ _ (fun _ _ => doExtendCmd_frame _ _ _) (Frame.refl s)

theorem execQuerySequence_frame (i : InstId) (w : Nat) (s : State) [hall : ∀ j, Granted (L.inst j = true)] [hbm : Granted L.Hbm] [Granted L.Outposts] [role : Granted L.Role] : ResOk (Frame L s) (execQuerySequence i w s) :=
  serve_frame _ _ _ _ _ (fun _ _ => doQuerySequence_frame _ _) (Frame.refl s)

theorem execMigrate_frame (i : InstId) (w : Nat) (s : State) [hall : ∀ j, Granted (L.inst j = true)] [hbm : Granted L.Hbm] [Granted L.Outposts] [role : Granted L.Role] : ResOk (Frame L s) (execMigrate i w s) :=
  serve_frame _ _ _ _ _ (fun _ _ => doMigrate_frame _ _) (Frame.refl s)

theorem execModelDescribe_frame (i : InstId) (w : Nat) (desc : List Byte) (s : State) [hall : ∀ j, Granted (L.inst j = true)] [hbm : Granted L.Hbm] [Granted L.Outposts] [role : Granted L.Role] : ResOk (Frame L s) (execModelDescribe i w desc s) :=
  serve_frame _ _ _ _ _ (fun _ _ => doModelDescribe_frame _ _ _) (Frame.refl s)

theorem execModelQuery_frame (i : InstId) (w : Nat) (s : State) [hall : ∀ j, Granted (L.inst j = true)] [hbm : Granted L.Hbm] [Granted L.Outposts] [role : Granted L.Role] : ResOk (Frame L s) (execModelQuery i w s) :=
  serve_frame _ _ _ _ _ (fun _ _ => doModelQuery_frame _ _) (Frame.refl s)

theorem execModelForget_frame (i : InstId) (w : Nat) (s : State) [hall : ∀ j, Granted (L.inst j = true)] [hbm : Granted L.Hbm] [Granted L.Outposts] [role : Granted L.Role] : ResOk (Frame L s) (execModelForget i w s) :=
  serve_frame _ _ _ _ _ (fun _ _ => doModelForget_frame _ _) (Frame.refl s)

theorem execModelLoaded_frame (i : InstId) (w : Nat) (s : State) [hall : ∀ j, Granted (L.inst j = true)] [hbm : Granted L.Hbm] [Granted L.Outposts] [role : Granted L.Role] : ResOk (Frame L s) (execModelLoaded i w s) :=
  serve_frame _ _ _ _ _ (fun _ _ => doModelLoaded_frame _ _) (Frame.refl s)

theorem execModelLoadDeclined_frame (i : InstId) (w : Nat) (s : State) [hall : ∀ j, Granted (L.inst j = true)] [hbm : Granted L.Hbm] [Granted L.Outposts] [role : Granted L.Role] : ResOk (Frame L s) (execModelLoadDeclined i w s) :=
  serve_frame _ _ _ _ _ (fun _ _ => doModelLoadDeclined_frame _ _) (Frame.refl s)

theorem execModelUnloaded_frame (i : InstId) (w : Nat) (s : State) [hall : ∀ j, Granted (L.inst j = true)] [hbm : Granted L.Hbm] [Granted L.Outposts] [role : Granted L.Role] : ResOk (Frame L s) (execModelUnloaded i w s) :=
  serve_frame _ _ _ _ _ (fun _ _ => doModelUnloaded_frame _ _) (Frame.refl s)

theorem execModelPin_frame (i : InstId) (w : Nat) (s : State) [hall : ∀ j, Granted (L.inst j = true)] [hbm : Granted L.Hbm] [Granted L.Outposts] [role : Granted L.Role] : ResOk (Frame L s) (execModelPin i w s) :=
  serve_frame _ _ _ _ _ (fun _ _ => doModelPin_frame _ _) (Frame.refl s)

theorem execEpochStage_frame (i : InstId) (w : Nat) (desc : List Byte) (s : State) [hall : ∀ j, Granted (L.inst j = true)] [hbm : Granted L.Hbm] [Granted L.Outposts] [role : Granted L.Role] : ResOk (Frame L s) (execEpochStage i w desc s) :=
  serve_frame _ _ _ _ _ (fun _ _ => doEpochStage_frame _ _ _) (Frame.refl s)

theorem execEpochReady_frame (i : InstId) (w : Nat) (s : State) [hall : ∀ j, Granted (L.inst j = true)] [hbm : Granted L.Hbm] [Granted L.Outposts] [role : Granted L.Role] : ResOk (Frame L s) (execEpochReady i w s) :=
  serve_frame _ _ _ _ _ (fun _ _ => doEpochReady_frame _ _) (Frame.refl s)

theorem execEpochCommit_frame (i : InstId) (w : Nat) (s : State) [hall : ∀ j, Granted (L.inst j = true)] [hbm : Granted L.Hbm] [Granted L.Outposts] [role : Granted L.Role] : ResOk (Frame L s) (execEpochCommit i w s) :=
  serve_frame _ _ _ _ _ (fun _ _ => doEpochCommit_frame _ _) (Frame.refl s)

theorem execEpochUnstage_frame (i : InstId) (w : Nat) (s : State) [hall : ∀ j, Granted (L.inst j = true)] [hbm : Granted L.Hbm] [Granted L.Outposts] [role : Granted L.Role] : ResOk (Frame L s) (execEpochUnstage i w s) :=
  serve_frame _ _ _ _ _ (fun _ _ => doEpochUnstage_frame _ _) (Frame.refl s)

theorem execEpochRetire_frame (i : InstId) (w : Nat) (s : State) [hall : ∀ j, Granted (L.inst j = true)] [hbm : Granted L.Hbm] [Granted L.Outposts] [role : Granted L.Role] : ResOk (Frame L s) (execEpochRetire i w s) :=
  serve_frame _ _ _ _ _ (fun _ _ => doEpochRetire_frame _ _) (Frame.refl s)

theorem execEvening_frame (i : InstId) (w : Nat) (s : State) [hall : ∀ j, Granted (L.inst j = true)] [hbm : Granted L.Hbm] [Granted L.Outposts] [role : Granted L.Role] : ResOk (Frame L s) (execEvening i w s) :=
  serve_frame _ _ _ _ _ (fun _ _ => doEvening_frame _ _) (Frame.refl s)

theorem execEveningComplete_frame (i : InstId) (s : State) [hall : ∀ j, Granted (L.inst j = true)] [hbm : Granted L.Hbm] [role : Granted L.Role] : ResOk (Frame L s) (execEveningComplete i s) := by
  have h : Frame L s s := Frame.refl s
  unfold execEveningComplete
  repeat' first | (with_reducible first | assumption | apply done_frame | apply finishCode_frame | apply journalObj_frame | apply modKit_frame | apply setRole_frame | apply ResOk.next) | split | dsimp only

theorem execMorning_frame (i : InstId) (w : Nat) (s : State) [hall : ∀ j, Granted (L.inst j = true)] [hbm : Granted L.Hbm] [Granted L.Outposts] [Granted L.Place] [role : Granted L.Role] : ResOk (Frame L s) (execMorning i w s) := by
  have h : Frame L s s := Frame.refl s
  unfold execMorning
  repeat' first | (with_reducible first | assumption | apply doMorning_frame | apply serve_frame) | intro _

theorem execTurnCost_frame (i : InstId) (w : Nat) (s : State) [hall : ∀ j, Granted (L.inst j = true)] [hbm : Granted L.Hbm] [Granted L.Outposts] [role : Granted L.Role] : ResOk (Frame L s) (execTurnCost i w s) := by
  have h : Frame L s s := Frame.refl s
  unfold execTurnCost
  repeat' first | (with_reducible first | assumption | apply doTurnCost_frame | apply serve_frame) | intro _

theorem execPoolLend_frame (i : InstId) (w : Nat) (s : State) [hall : ∀ j, Granted (L.inst j = true)] [hbm : Granted L.Hbm] [Granted L.Outposts] [role : Granted L.Role] : ResOk (Frame L s) (execPoolLend i w s) := by
  have h : Frame L s s := Frame.refl s
  unfold execPoolLend
  repeat' first | (with_reducible first | assumption | apply doPoolLend_frame | apply serve_frame) | intro _

theorem execPoolReturn_frame (i : InstId) (w : Nat) (s : State) [hall : ∀ j, Granted (L.inst j = true)] [hbm : Granted L.Hbm] [Granted L.Outposts] [role : Granted L.Role] : ResOk (Frame L s) (execPoolReturn i w s) :=
  serve_frame _ _ _ _ _ (fun _ _ => doPoolReturn_frame _ _) (Frame.refl s)

theorem execDigestPair_frame (i : InstId) (s : State) [hall : ∀ j, Granted (L.inst j = true)] [role : Granted L.Role] : ResOk (Frame L s) (execDigestPair i s) := by
  have h : Frame L s s := Frame.refl s
  unfold execDigestPair
  repeat' first | (with_reducible first | assumption | apply done_frame | apply driveIssue_frame | apply modRel_frame | exact fun _ => rfl | apply ResOk.next) | split

theorem execJournalFlush_frame (i : InstId) (s : State) [hall : ∀ j, Granted (L.inst j = true)] [role : Granted L.Role] : ResOk (Frame L s) (execJournalFlush i s) := by
  have h : Frame L s s := Frame.refl s
  unfold execJournalFlush
  repeat' first | (with_reducible first | assumption | apply done_frame | apply modRel_frame | exact fun _ => rfl | apply startFlush_frame | apply ResOk.next) | split | dsimp only

theorem execFlushDeferExpiry_frame (i : InstId) (s : State) [hall : ∀ j, Granted (L.inst j = true)] [role : Granted L.Role] : ResOk (Frame L s) (execFlushDeferExpiry i s) := by
  have h : Frame L s s := Frame.refl s
  unfold execFlushDeferExpiry
  repeat' first | (with_reducible first | assumption | apply done_frame | apply startFlush_frame | apply ResOk.next) | split | dsimp only

theorem execFlushComplete_frame (i : InstId) (s : State) [hall : ∀ j, Granted (L.inst j = true)] [role : Granted L.Role] : ResOk (Frame L s) (execFlushComplete i s) := by
  have h : Frame L s s := Frame.refl s
  unfold execFlushComplete
  repeat' first | (with_reducible first | assumption | apply done_frame | apply flushDone_frame | apply ResOk.next) | split

theorem execBulkImageDurable_frame (i : InstId) (s : State) [hall : ∀ j, Granted (L.inst j = true)] [hbm : Granted L.Hbm] [role : Granted L.Role] : ResOk (Frame L s) (execBulkImageDurable i s) := by
  have h : Frame L s s := Frame.refl s
  unfold execBulkImageDurable
  repeat' first | (with_reducible first | assumption | apply bulkDone_frame | apply done_frame | apply ResOk.next) | split

theorem execBulkImageStart_frame (i : InstId) (s : State) [hall : ∀ j, Granted (L.inst j = true)] [role : Granted L.Role] : ResOk (Frame L s) (execBulkImageStart i s) := by
  have h : Frame L s s := Frame.refl s
  unfold execBulkImageStart
  repeat' first | (with_reducible first | assumption | apply done_frame | apply modRel_frame | exact fun _ => rfl | apply startBulk_frame | apply ResOk.next) | split | dsimp only

theorem execDriveTimeout_frame (i : InstId) (s : State) [hall : ∀ j, Granted (L.inst j = true)] [hbm : Granted L.Hbm] [role : Granted L.Role] : ResOk (Frame L s) (execDriveTimeout i s) := by
  have h : Frame L s s := Frame.refl s
  unfold execDriveTimeout
  repeat' first | (with_reducible first | assumption | apply done_frame | apply driveError_frame | apply fireCores_frame | apply releaseEvent_frame | apply ResOk.next) | split | dsimp only

theorem execSnapshot_frame (i : InstId) (w : Nat) (s : State) [hall : ∀ j, Granted (L.inst j = true)] [hbm : Granted L.Hbm] [Granted L.Outposts] [role : Granted L.Role] : ResOk (Frame L s) (execSnapshot i w s) :=
  serve_frame _ _ _ _ _ (fun _ _ => doSnapshot_frame _ _) (Frame.refl s)

theorem execLossBound_frame (i : InstId) (w : Nat) (s : State) [hall : ∀ j, Granted (L.inst j = true)] [hbm : Granted L.Hbm] [Granted L.Outposts] [role : Granted L.Role] : ResOk (Frame L s) (execLossBound i w s) :=
  serve_frame _ _ _ _ _ (fun _ _ => doLossBound_frame _ _) (Frame.refl s)

theorem execDriveRetry_frame (i : InstId) (w : Nat) (s : State) [hall : ∀ j, Granted (L.inst j = true)] [hbm : Granted L.Hbm] [Granted L.Outposts] [role : Granted L.Role] : ResOk (Frame L s) (execDriveRetry i w s) :=
  serve_frame _ _ _ _ _ (fun _ _ => doDriveRetry_frame _ _) (Frame.refl s)

theorem execMirrorAck_frame (i : InstId) (s : State) [hall : ∀ j, Granted (L.inst j = true)] : ResOk (Frame L s) (execMirrorAck i s) := by
  have h : Frame L s s := Frame.refl s
  unfold execMirrorAck
  repeat' first | (with_reducible first | assumption | apply modRel_frame | exact fun _ => rfl | apply ResOk.next) | split | dsimp only

theorem execHeartbeat_frame (s : State) [hall : ∀ j, Granted (L.inst j = true)] : ResOk (Frame L s) (execHeartbeat s) := by
  have h : Frame L s s := Frame.refl s
  unfold execHeartbeat
  repeat' first | (with_reducible first | assumption | apply heartbeatOf_frame | apply ResOk.next) | split

theorem execHeartbeatLost_frame (i : InstId) (s : State) [hall : ∀ j, Granted (L.inst j = true)] [role : Granted L.Role] : ResOk (Frame L s) (execHeartbeatLost i s) := by
  have h : Frame L s s := Frame.refl s
  unfold execHeartbeatLost
  repeat' first | (with_reducible first | assumption | apply done_frame | apply modRel_frame | exact fun _ => rfl | apply ResOk.next) | split | dsimp only

theorem execLivenessCheck_frame (i : InstId) (s : State) [hall : ∀ j, Granted (L.inst j = true)] [role : Granted L.Role] : ResOk (Frame L s) (execLivenessCheck i s) := by
  have h : Frame L s s := Frame.refl s
  unfold execLivenessCheck
  repeat' first | (with_reducible first | assumption | apply judge_frame | apply ResOk.next) | split

theorem execClaim_frame (i : InstId) (o : Nat) (s : State) [hall : ∀ j, Granted (L.inst j = true)] [Granted L.Outposts] : ResOk (Frame L s) (execClaim i o s) := by
  have h : Frame L s s := Frame.refl s
  unfold execClaim
  repeat' first | (with_reducible first | assumption | apply modOutpost_frame | apply modRel_frame | exact fun _ => rfl | apply ResOk.next) | split | dsimp only

theorem execTakeover_frame (i : InstId) (s : State) [hall : ∀ j, Granted (L.inst j = true)] [hbm : Granted L.Hbm] [flash : Granted L.Flash] [Granted L.Outposts] [Granted L.Place] [role : Granted L.Role] : ResOk (Frame L s) (execTakeover i s) := by
  have h : Frame L s s := Frame.refl s
  unfold execTakeover
  repeat' first | (with_reducible first | assumption | apply endEvent_frame | apply foyerRound_frame | apply takeOver_frame | apply ResOk.next) | split | dsimp only

theorem execClaimRefused_frame (i : InstId) (s : State) [hall : ∀ j, Granted (L.inst j = true)] [hbm : Granted L.Hbm] [Granted L.Outposts] [role : Granted L.Role] : ResOk (Frame L s) (execClaimRefused i s) := by
  have h : Frame L s s := Frame.refl s
  unfold execClaimRefused
  repeat' first | (with_reducible first | assumption | apply endEvent_frame | apply failInstance_frame | apply logFault_frame | apply modRel_frame_role | apply ResOk.next) | split | dsimp only

theorem execLinkCreditsReturned_frame (i : InstId) (n : Nat) (s : State) [hall : ∀ j, Granted (L.inst j = true)] [role : Granted L.Role] : ResOk (Frame L s) (execLinkCreditsReturned i n s) := by
  have h : Frame L s s := Frame.refl s
  unfold execLinkCreditsReturned
  exact done_frame _ _ (modStair_frame _ _ h)

theorem execSignatureVerified_frame (i : InstId) (s : State) [hall : ∀ j, Granted (L.inst j = true)] [flash : Granted L.Flash] [calib : Granted L.Calib] : ResOk (Frame L s) (execSignatureVerified i s) := by
  have h : Frame L s s := Frame.refl s
  unfold execSignatureVerified
  repeat' first | (with_reducible first | assumption | apply nextSlot_frame | apply startImage_frame | apply ResOk.next | exact ResOk.fault _) | split | dsimp only

theorem execCoresReady_frame (i : InstId) (s : State) [hall : ∀ j, Granted (L.inst j = true)] : ResOk (Frame L s) (execCoresReady i s) := by
  have h : Frame L s s := Frame.refl s
  unfold execCoresReady
  repeat' first | (with_reducible first | assumption | apply modHearth_frame | apply setStage_frame | apply ResOk.next) | split | dsimp only

theorem execPlaceRegion_frame (i : InstId) (w : Nat) (s : State) [hall : ∀ j, Granted (L.inst j = true)] [hbm : Granted L.Hbm] [Granted L.Outposts] [Granted L.Place] [role : Granted L.Role] : ResOk (Frame L s) (execPlaceRegion i w s) :=
  serve_frame _ _ _ _ _ (fun _ _ => doPlaceRegion_frame _ _) (Frame.refl s)

theorem execDriveRange_frame (i : InstId) (w : Nat) (s : State) [hall : ∀ j, Granted (L.inst j = true)] [hbm : Granted L.Hbm] [board : Granted L.Board] [Granted L.Outposts] [Granted L.Place] [role : Granted L.Role] : ResOk (Frame L s) (execDriveRange i w s) :=
  serve_frame _ _ _ _ _ (fun _ _ => doDriveRange_frame _ _) (Frame.refl s)

theorem execIdentity_frame (i : InstId) (w : Nat) (s : State) [hall : ∀ j, Granted (L.inst j = true)] [hbm : Granted L.Hbm] [Granted L.Outposts] [Granted L.Place] [role : Granted L.Role] : ResOk (Frame L s) (execIdentity i w s) :=
  serve_frame _ _ _ _ _ (fun _ _ => doIdentity_frame _ _) (Frame.refl s)

theorem execPairing_frame (i : InstId) (w : Nat) (s : State) [hall : ∀ j, Granted (L.inst j = true)] [hbm : Granted L.Hbm] [Granted L.Outposts] [Granted L.Place] [role : Granted L.Role] : ResOk (Frame L s) (execPairing i w s) :=
  serve_frame _ _ _ _ _ (fun _ _ => doPairing_frame _ _) (Frame.refl s)

theorem execHostTrims_frame (i : InstId) (w : Nat) (table : List Byte) (s : State) [hall : ∀ j, Granted (L.inst j = true)] [hbm : Granted L.Hbm] [calib : Granted L.Calib] [Granted L.Outposts] [role : Granted L.Role] : ResOk (Frame L s) (execHostTrims i w table s) :=
  serve_frame _ _ _ _ _ (fun _ _ => doHostTrims_frame _ _ _) (Frame.refl s)

theorem execDawnComplete_frame (i : InstId) (w : Nat) (s : State) [hall : ∀ j, Granted (L.inst j = true)] [hbm : Granted L.Hbm] [Granted L.Outposts] [role : Granted L.Role] : ResOk (Frame L s) (execDawnComplete i w s) :=
  serve_frame _ _ _ _ _ (fun _ _ => doDawnComplete_frame _ _) (Frame.refl s)

theorem execDiscoveryComplete_frame (i : InstId) (s : State) [hall : ∀ j, Granted (L.inst j = true)] [hbm : Granted L.Hbm] [Granted L.Outposts] [role : Granted L.Role] : ResOk (Frame L s) (execDiscoveryComplete i s) := by
  have h : Frame L s s := Frame.refl s
  unfold execDiscoveryComplete
  repeat' first | (with_reducible first | assumption | apply afterDiscovery_frame | apply endEvent_frame | apply ResOk.next) | split

theorem execDiscoveryTimeout_frame (i : InstId) (s : State) [hall : ∀ j, Granted (L.inst j = true)] [hbm : Granted L.Hbm] [Granted L.Outposts] [role : Granted L.Role] : ResOk (Frame L s) (execDiscoveryTimeout i s) := by
  have h : Frame L s s := Frame.refl s
  unfold execDiscoveryTimeout
  repeat' first | (with_reducible first | assumption | apply afterDiscovery_frame | apply endEvent_frame | apply modStair_frame | apply ResOk.next) | split | dsimp only

theorem execWatchdogExpiry_frame (i : InstId) (loss : CoreLoss) (s : State) [hall : ∀ j, Granted (L.inst j = true)] [hbm : Granted L.Hbm] [Granted L.Outposts] [role : Granted L.Role] : ResOk (Frame L s) (execWatchdogExpiry i loss s) := by
  have h : Frame L s s := Frame.refl s
  unfold execWatchdogExpiry
  repeat' first | (with_reducible first | assumption | apply done_frame | apply endEvent_frame | apply fenceCore_frame | apply modHearth_frame | apply raiseIrq_frame | apply ringPush_frame | apply setStage_frame | apply ResOk.next) | split | dsimp only

theorem execCoreRestartDone_frame (i : InstId) (core : Nat) (s : State) [hall : ∀ j, Granted (L.inst j = true)] [role : Granted L.Role] : ResOk (Frame L s) (execCoreRestartDone i core s) := by
  have h : Frame L s s := Frame.refl s
  unfold execCoreRestartDone
  repeat' first | (with_reducible first | assumption | apply done_frame | apply modHearth_frame | apply ResOk.next) | split | dsimp only

theorem execUncorrectableEcc_frame (i : InstId) (site : EccSite) (s : State) [hall : ∀ j, Granted (L.inst j = true)] [hbm : Granted L.Hbm] [Granted L.Outposts] [role : Granted L.Role] : ResOk (Frame L s) (execUncorrectableEcc i site s) := by
  have h : Frame L s s := Frame.refl s
  unfold execUncorrectableEcc
  repeat' first | (with_reducible first | assumption | apply eccFatal_frame | apply eccHbm_frame | apply eccSeq_frame | apply endEvent_frame | apply killStep_frame | apply readAddr_frame | apply ResOk.next) | split

theorem execImageWrite_frame (i : InstId) (w : Nat) (img : List Byte) (s : State) [hall : ∀ j, Granted (L.inst j = true)] [hbm : Granted L.Hbm] [flash : Granted L.Flash] [Granted L.Outposts] [role : Granted L.Role] : ResOk (Frame L s) (execImageWrite i w img s) :=
  serve_frame _ _ _ _ _ (fun _ _ => doImageWrite_frame _ _ _) (Frame.refl s)

theorem execFirmwareConfirm_frame (i : InstId) (w : Nat) (s : State) [hall : ∀ j, Granted (L.inst j = true)] [hbm : Granted L.Hbm] [flash : Granted L.Flash] [Granted L.Outposts] [role : Granted L.Role] : ResOk (Frame L s) (execFirmwareConfirm i w s) := by
  have h : Frame L s s := Frame.refl s
  unfold execFirmwareConfirm
  repeat' first | (with_reducible first | assumption | apply doFirmwareConfirm_frame | apply serve_frame) | intro _

theorem execRestore_frame (i : InstId) (w : Nat) (s : State) [hall : ∀ j, Granted (L.inst j = true)] [hbm : Granted L.Hbm] [Granted L.Outposts] [role : Granted L.Role] : ResOk (Frame L s) (execRestore i w s) :=
  serve_frame _ _ _ _ _ (fun _ _ => doRestore_frame _ _) (Frame.refl s)

theorem execRestoreComplete_frame (i : InstId) (s : State) [hall : ∀ j, Granted (L.inst j = true)] [hbm : Granted L.Hbm] [host : Granted L.Host] [Granted L.Outposts] [role : Granted L.Role] : ResOk (Frame L s) (execRestoreComplete i s) := by
  have h : Frame L s s := Frame.refl s
  unfold execRestoreComplete
  repeat' first | (with_reducible first | assumption | apply done_frame | apply endEvent_frame | apply finishCmd_frame | apply opDone_frame | apply rebuild_frame | apply restoreFails_frame | apply ResOk.next | exact ResOk.fault _) | split | dsimp only

theorem execTrace_frame (i : InstId) (w : Nat) (s : State) [hall : ∀ j, Granted (L.inst j = true)] [hbm : Granted L.Hbm] [Granted L.Outposts] [role : Granted L.Role] : ResOk (Frame L s) (execTrace i w s) :=
  serve_frame _ _ _ _ _ (fun _ _ => doTrace_frame _ _) (Frame.refl s)

theorem execTraceDrained_frame (i : InstId) (s : State) [hall : ∀ j, Granted (L.inst j = true)] [hbm : Granted L.Hbm] [role : Granted L.Role] : ResOk (Frame L s) (execTraceDrained i s) := by
  have h : Frame L s s := Frame.refl s
  unfold execTraceDrained
  exact done_frame _ _ (drainTrace_frame _ h)

theorem execTraceSync_frame (i : InstId) (s : State) [hall : ∀ j, Granted (L.inst j = true)] [hbm : Granted L.Hbm] [role : Granted L.Role] : ResOk (Frame L s) (execTraceSync i s) := by
  have h : Frame L s s := Frame.refl s
  unfold execTraceSync
  repeat' first | (with_reducible first | assumption | apply done_frame | apply traceAdd_frame | apply ResOk.next) | split

theorem execCounters_frame (i : InstId) (w : Nat) (s : State) [hall : ∀ j, Granted (L.inst j = true)] [hbm : Granted L.Hbm] [Granted L.Outposts] [role : Granted L.Role] : ResOk (Frame L s) (execCounters i w s) := by
  have h : Frame L s s := Frame.refl s
  unfold execCounters
  repeat' first | (with_reducible first | assumption | apply doCounters_frame | apply serve_frame) | intro _

theorem execWatch_frame (i : InstId) (w : Nat) (s : State) [hall : ∀ j, Granted (L.inst j = true)] [hbm : Granted L.Hbm] [Granted L.Outposts] [role : Granted L.Role] : ResOk (Frame L s) (execWatch i w s) :=
  serve_frame _ _ _ _ _ (fun _ _ => doWatch_frame _ _) (Frame.refl s)

theorem execGraphBuild_frame (i : InstId) (s : State) [hall : ∀ j, Granted (L.inst j = true)] [role : Granted L.Role] : ResOk (Frame L s) (execGraphBuild i s) := by
  have h : Frame L s s := Frame.refl s
  unfold execGraphBuild
  repeat' first | (with_reducible first | assumption | apply buildGraph_frame | apply done_frame | apply ResOk.next) | split

theorem execLivenessAdvance_frame (i : InstId) (s : State) [hall : ∀ j, Granted (L.inst j = true)] : ResOk (Frame L s) (execLivenessAdvance i s) := by
  have h : Frame L s s := Frame.refl s
  unfold execLivenessAdvance
  repeat' first | (with_reducible first | assumption | apply modInst_frame | exact fun _ => ⟨rfl, rfl⟩ | apply ResOk.next) | split

theorem execKitchenLimitWrite_frame (i : InstId) (wide : Bool) (off v : Nat) (s : State) [hall : ∀ j, Granted (L.inst j = true)] [hbm : Granted L.Hbm] [Granted L.Outposts] [role : Granted L.Role] : ResOk (Frame L s) (execKitchenLimitWrite i wide off v s) :=
  rowWrite_frame _ _ _ _ _ (Frame.refl s)

theorem execPageHeadroomWrite_frame (i : InstId) (wide : Bool) (v : Nat) (s : State) [hall : ∀ j, Granted (L.inst j = true)] [hbm : Granted L.Hbm] [Granted L.Outposts] [role : Granted L.Role] : ResOk (Frame L s) (execPageHeadroomWrite i wide v s) :=
  writeBus_frame _ _ _ _ (Frame.refl s)

theorem execCoolMarkWrite_frame (i : InstId) (wide : Bool) (v : Nat) (s : State) [hall : ∀ j, Granted (L.inst j = true)] [hbm : Granted L.Hbm] [Granted L.Outposts] [role : Granted L.Role] : ResOk (Frame L s) (execCoolMarkWrite i wide v s) :=
  writeBus_frame _ _ _ _ (Frame.refl s)

theorem execEpochRetiredClear_frame (i : InstId) (wide : Bool) (off v : Nat) (s : State) [hall : ∀ j, Granted (L.inst j = true)] [hbm : Granted L.Hbm] [Granted L.Outposts] [role : Granted L.Role] : ResOk (Frame L s) (execEpochRetiredClear i wide off v s) :=
  rowWrite_frame _ _ _ _ _ (Frame.refl s)

theorem execFenceMaskWrite_frame (i : InstId) (o : Nat) (wide : Bool) (v : Nat) (s : State) [hall : ∀ j, Granted (L.inst j = true)] [hbm : Granted L.Hbm] [Granted L.Outposts] [role : Granted L.Role] : ResOk (Frame L s) (execFenceMaskWrite i o wide v s) :=
  writeBus_frame _ _ _ _ (Frame.refl s)

theorem execFenceRefusedClear_frame (i : InstId) (o : Nat) (wide : Bool) (v : Nat) (s : State) [hall : ∀ j, Granted (L.inst j = true)] [hbm : Granted L.Hbm] [Granted L.Outposts] [role : Granted L.Role] :
    ResOk (Frame L s) (execFenceRefusedClear i o wide v s) :=
  writeBus_frame _ _ _ _ (Frame.refl s)

theorem execWdogExpiredClear_frame (i : InstId) (wide : Bool) (v : Nat) (s : State) [hall : ∀ j, Granted (L.inst j = true)] [hbm : Granted L.Hbm] [Granted L.Outposts] [role : Granted L.Role] : ResOk (Frame L s) (execWdogExpiredClear i wide v s) :=
  writeBus_frame _ _ _ _ (Frame.refl s)

theorem execLatchConfigWrite_frame (i : InstId) (wide : Bool) (off v : Nat) (s : State) [hall : ∀ j, Granted (L.inst j = true)] [hbm : Granted L.Hbm] [Granted L.Outposts] [role : Granted L.Role] : ResOk (Frame L s) (execLatchConfigWrite i wide off v s) :=
  rowWrite_frame _ _ _ _ _ (Frame.refl s)

theorem execStairwellTimingWrite_frame (i : InstId) (wide : Bool) (off v : Nat) (s : State) [hall : ∀ j, Granted (L.inst j = true)] [hbm : Granted L.Hbm] [Granted L.Outposts] [role : Granted L.Role] :
    ResOk (Frame L s) (execStairwellTimingWrite i wide off v s) :=
  rowWrite_frame _ _ _ _ _ (Frame.refl s)

theorem execInjectionSeedWrite_frame (i : InstId) (wide : Bool) (v : Nat) (s : State) [hall : ∀ j, Granted (L.inst j = true)] [hbm : Granted L.Hbm] [Granted L.Outposts] [role : Granted L.Role] : ResOk (Frame L s) (execInjectionSeedWrite i wide v s) :=
  writeBus_frame _ _ _ _ (Frame.refl s)

theorem execTraceRpWrite_frame (i : InstId) (wide : Bool) (off v : Nat) (s : State) [hall : ∀ j, Granted (L.inst j = true)] [hbm : Granted L.Hbm] [Granted L.Outposts] [role : Granted L.Role] : ResOk (Frame L s) (execTraceRpWrite i wide off v s) :=
  rowWrite_frame _ _ _ _ _ (Frame.refl s)

theorem execDumpRequest_frame (i : InstId) (wide : Bool) (v : Nat) (s : State) [hall : ∀ j, Granted (L.inst j = true)] [hbm : Granted L.Hbm] [Granted L.Outposts] [role : Granted L.Role] : ResOk (Frame L s) (execDumpRequest i wide v s) :=
  writeBus_frame _ _ _ _ (Frame.refl s)

theorem execDumpAck_frame (i : InstId) (wide : Bool) (v : Nat) (s : State) [hall : ∀ j, Granted (L.inst j = true)] [hbm : Granted L.Hbm] [Granted L.Outposts] [role : Granted L.Role] : ResOk (Frame L s) (execDumpAck i wide v s) :=
  writeBus_frame _ _ _ _ (Frame.refl s)

theorem execStudyCauseClear_frame (i : InstId) (wide : Bool) (v : Nat) (s : State) [hall : ∀ j, Granted (L.inst j = true)] [hbm : Granted L.Hbm] [Granted L.Outposts] [role : Granted L.Role] : ResOk (Frame L s) (execStudyCauseClear i wide v s) :=
  writeBus_frame _ _ _ _ (Frame.refl s)

theorem execDumpComplete_frame (i : InstId) (incomplete : Bool) (s : State) [hall : ∀ j, Granted (L.inst j = true)] [hbm : Granted L.Hbm] [role : Granted L.Role] : ResOk (Frame L s) (execDumpComplete i incomplete s) := by
  have h : Frame L s s := Frame.refl s
  unfold execDumpComplete
  repeat' first | (with_reducible first | assumption | apply buildGraph_frame | apply done_frame | apply modStudy_frame | apply setCause_frame | apply writeDump_frame | apply ResOk.next) | split | dsimp only

theorem execLarderGranuleWrite_frame (o off : Nat) (data : List Byte) (s : State) [hall : ∀ j, Granted (L.inst j = true)] [Granted L.Outposts] : ResOk (Frame L s) (execLarderGranuleWrite o off data s) := by
  have h : Frame L s s := .refl s
  unfold execLarderGranuleWrite
  repeat' first | (with_reducible first | assumption | apply modOutpost_frame | apply ResOk.next | exact ResOk.fault _) | split | dsimp only

theorem execWaveDoneMarker_frame (o : Nat) (a b : Nat) (s : State) [hall : ∀ j, Granted (L.inst j = true)] [Granted L.Outposts] : ResOk (Frame L s) (execWaveDoneMarker o a b s) := by
  have h : Frame L s s := .refl s
  unfold execWaveDoneMarker
  repeat' first | (with_reducible first | assumption | apply modOutpost_frame | apply outRing_frame | apply ResOk.next) | split

theorem execRowSetup_frame (o : Nat) (s : State) [hall : ∀ j, Granted (L.inst j = true)] [Granted L.Outposts] : ResOk (Frame L s) (execRowSetup o s) := by
  have h : Frame L s s := .refl s
  unfold execRowSetup
  repeat' first | (with_reducible first | assumption | apply modOutpost_frame | apply discardDown_frame | apply ResOk.next) | split

theorem execDoneMsg_frame (o : Nat) (s : State) [hall : ∀ j, Granted (L.inst j = true)] [Granted L.Outposts] : ResOk (Frame L s) (execDoneMsg o s) := by
  have h : Frame L s s := .refl s
  unfold execDoneMsg
  repeat' first | (with_reducible first | assumption | apply modOutpost_frame | apply discardDown_frame | apply ResOk.next) | split

theorem execLanePassComplete_frame (o : Nat) (h : RowHandle) (ev : PassEvent) (s : State) [hall : ∀ j, Granted (L.inst j = true)] [hbm : Granted L.Hbm] [Granted L.Outposts] : ResOk (Frame L s) (execLanePassComplete o h ev s) := by
  have hs : Frame L s s := .refl s
  unfold execLanePassComplete
  repeat' first | (with_reducible first | assumption | apply modOutpost_frame | apply passDone_frame | apply passParity_frame | apply ResOk.next) | split | dsimp only

theorem execLaneGroupSelftestDone_frame (o : Nat) (failed : BitVec 32) (s : State) [hall : ∀ j, Granted (L.inst j = true)] [hbm : Granted L.Hbm] [Granted L.Outposts] [role : Granted L.Role] : ResOk (Frame L s) (execLaneGroupSelftestDone o failed s) := by
  have h : Frame L s s := .refl s
  unfold execLaneGroupSelftestDone
  repeat' first | (with_reducible first | assumption | apply modOutpost_frame | apply outRing_frame | apply endEvent_frame | apply outpostFault_frame | apply logFences_frame | apply ResOk.next) | split | dsimp only

theorem execLatchAcquire_frame (i : InstId) (latch step : Nat) (s : State) [hall : ∀ j, Granted (L.inst j = true)] [role : Granted L.Role] : ResOk (Frame L s) (execLatchAcquire i latch step s) := by
  have answered (t : State) (n : BitVec 64) (h : Frame L s t) : Frame L s { t with busData := n } := h.raw
  unfold execLatchAcquire
  dsimp only
  split
  · split
    · exact done_frame _ _ (answered _ _ (modLatch_frame _ _ _ (.refl s)))
    · exact .next (answered _ _ (.refl s))
  · exact .next (answered _ _ (.refl s))

theorem execImageReadComplete_frame (i : InstId) (img : List Byte) (s : State) [hall : ∀ j, Granted (L.inst j = true)] [flash : Granted L.Flash] : ResOk (Frame L s) (execImageReadComplete i img s) := by
  have written (f : Flash) : Frame L s (dropGrant i { s with flash := f }) := dropGrant_frame _ (Frame.refl s).rawFlash
  unfold execImageReadComplete
  dsimp only
  split
  · exact .next (.refl s)
  · refine .next ?_
    split
    · exact nextSlot_frame _ (written _)
    · exact setStage_frame _ _ (modHearth_frame _ _ (written _))

theorem execImageProgramDone_frame (i : InstId) (ok : Bool) (s : State) [hall : ∀ j, Granted (L.inst j = true)] [hbm : Granted L.Hbm] [flash : Granted L.Flash] [role : Granted L.Role] : ResOk (Frame L s) (execImageProgramDone i ok s) := by
  unfold execImageProgramDone
  split
  · exact .next (.refl s)
  · dsimp only
    split
    · exact .next (.refl s)
    · have written (f : Flash) : Frame L s (modHearth i (fun h => { h with imgWrite := none }) { s with flash := f }) :=
        modHearth_frame _ _ (Frame.refl s).rawFlash
      have granted {t : State} (c : Bool) (f : Flash) (h : Frame L s t) : Frame L s (dropGrant i (if c then { t with flash := f } else t)) :=
        dropGrant_frame _ (ite_frame h.rawFlash h)
      split
      · exact done_frame _ _ (finishCmd_frame _ _ _ _ _ (granted _ _ (written _)))
      · split <;> exact done_frame _ _ (finishCmd_frame _ _ _ _ _ (granted _ _ (written _)))

theorem execFlashGrant_frame (s : State) [hall : ∀ j, Granted (L.inst j = true)] [hbm : Granted L.Hbm] [flash : Granted L.Flash] [role : Granted L.Role] : ResOk (Frame L s) (execFlashGrant s) := by
  unfold execFlashGrant
  split
  case h_1 i u rest _ _ =>
    have h : Frame L s { s with flash := { s.flash with holder := some (i, u), waiting := rest } } := (Frame.refl s).rawFlash
    dsimp only
    split
    · exact .next (dawnGrant_frame _ h)
    · exact .next (modHearth_frame _ _ h)
    · exact done_frame _ _ (confirmBoot_frame _ _ h)
  case h_2 => exact .next (.refl s)

theorem execPathRestored_frame (s : State) [hall : ∀ j, Granted (L.inst j = true)] [role : Granted L.Role] : ResOk (Frame L s) (execPathRestored s) := by
  have h : Frame L s { s with pathUp := true } := (Frame.refl s).raw
  unfold execPathRestored
  dsimp only
  split
  · exact .next (.refl s)
  · split
    · exact .next (resync_frame h)
    · exact .next h

theorem execMirrorMessage_frame (i : InstId) (bad : Bool) (s : State) [hall : ∀ j, Granted (L.inst j = true)] [hbm : Granted L.Hbm] [role : Granted L.Role] : ResOk (Frame L s) (execMirrorMessage i bad s) := by
  unfold execMirrorMessage
  dsimp only
  split
  · exact .next (.refl s)
  · split
    · exact .next (.refl s)
    · split
      · split
        · exact .next (modRel_frame_role _ _ (.refl s))
        · exact .next (pathFault_frame _ (.refl s))
      · exact .next (applyMirror_frame _ _ (countFixed_frame _ _ (modRel_frame_role _ _ (.refl s))))

theorem execMirrorSyncComplete_frame (i : InstId) (s : State) [hall : ∀ j, Granted (L.inst j = true)] [hbm : Granted L.Hbm] [role : Granted L.Role] : ResOk (Frame L s) (execMirrorSyncComplete i s) := by
  unfold execMirrorSyncComplete
  dsimp only
  split
  · exact .next (.refl s)
  · exact .next (modRel_frame_role _ _ (modRel_frame_role _ _ (applyMirror_frame i _ (.refl s))))

theorem execFailMsg_frame (i : InstId) (s : State) [hall : ∀ j, Granted (L.inst j = true)] [role : Granted L.Role] : ResOk (Frame L s) (execFailMsg i s) := by
  unfold execFailMsg
  dsimp only
  split
  · exact .next (.refl s)
  · split
    · exact .next (startClaim_frame _ (modRel_frame_role _ _ (.refl s)))
    · exact .next (modRel_frame_role _ _ (.refl s))

theorem execTraceBurstTimeout_frame {i : InstId} {s t : State} [hall : ∀ j, Granted (L.inst j = true)] [hbm : Granted L.Hbm] [role : Granted L.Role] (hnext : execTraceBurstTimeout i s = .next t) : Frame L s t := by
  unfold execTraceBurstTimeout at hnext
  dsimp only at hnext
  generalize (getInst s i).study.lastRec + 4096 = lim at hnext
  split at hnext
  · cases hnext
    exact .refl s
  · cases hnext
    exact mirrorOut_frame _ _ (traceBurst_frame _ _ (.refl s))

theorem execTraceWaitLimit_frame (i : InstId) (waiter holder reason object : Nat) (s : State) [hall : ∀ j, Granted (L.inst j = true)] [hbm : Granted L.Hbm] [role : Granted L.Role] :
    ResOk (Frame L s) (execTraceWaitLimit i waiter holder reason object s) := by
  unfold execTraceWaitLimit
  dsimp only
  generalize 0xFFFFFF = lim
  split
  · split
    · exact .next (.refl s)
    · exact done_frame _ _ (ite_frame (traceAdd_frame _ _ (modStudy_frame _ _ (.refl s))) (modStudy_frame _ _ (.refl s)))
  · split
    · exact .next (.refl s)
    · exact done_frame _ _ (ite_frame (traceAdd_frame _ _ (.refl s)) (.refl s))

theorem execRcFieldRead_frame (i : InstId) (wide : Bool) (off : Nat) (s : State) [hall : ∀ j, Granted (L.inst j = true)] [role : Granted L.Role] : ResOk (Frame L s) (execRcFieldRead i wide off s) := by
  unfold execRcFieldRead
  dsimp only
  split
  · exact done_frame _ _ (readBus_frame _ _ _ (.refl s))
  · exact .fault _

theorem execRegisterWrite_frame (i : InstId) (wide : Bool) (off v : Nat) (s : State) [hall : ∀ j, Granted (L.inst j = true)] [hbm : Granted L.Hbm] [Granted L.Outposts] [role : Granted L.Role] :
    ResOk (Frame L s) (execRegisterWrite i wide off v s) := writeBus_frame _ _ _ _ (.refl s)

theorem execDriveCompletion_frame (i : InstId) (ok : Bool) (s : State) [hall : ∀ j, Granted (L.inst j = true)] [hbm : Granted L.Hbm] [role : Granted L.Role] : ResOk (Frame L s) (execDriveCompletion i ok s) := by
  have hends := driveEnds_frame i (Frame.refl (L := L) s)
  unfold execDriveCompletion
  dsimp only
  split
  · exact .next (.refl s)
  · split
    · exact .next (.refl s)
    · exact done_frame _ _ (ite_frame (driveDone_frame _ _ hends) (driveError_frame _ _ hends))

theorem execFunctionLevelReset_frame (s : State) [hall : ∀ j, Granted (L.inst j = true)] [flash : Granted L.Flash] [calib : Granted L.Calib] [reset : Granted L.Reset] [Granted L.Outposts] [Granted L.Place] [role : Granted L.Role] : ResOk (Frame L s) (execFunctionLevelReset s) :=
  .next (blockReset_frame _ _ (blockReset_frame _ _ (.refl s)))

theorem execResetControlWrite_frame (a b : Bool) (s : State) [hall : ∀ j, Granted (L.inst j = true)] [flash : Granted L.Flash] [calib : Granted L.Calib] [reset : Granted L.Reset] [Granted L.Outposts] [Granted L.Place] [role : Granted L.Role] :
    ResOk (Frame L s) (execResetControlWrite a b s) := by
  have hreset (c : Bool) (i : InstId) (t : State) (h : Frame L s t) : Frame L s (if c then blockReset i 1 t else t) := ite_frame (blockReset_frame i _ h) h
  exact hreset b .B _ (hreset a .A s (.refl s))
end Sys2Proof.RowPrints

/-! SUPPORT. The frames by kind of state (spec/01 R25, spec/13 R276, spec/14 R308, spec/20 R433-R436): every command within its licence. -/

namespace Sys2Proof.Kinds

open Sys2Proof Sys2Proof.Machine Sys2Proof.Laws Sys2Proof.Rows Sys2Proof.Footprint Sys2Proof.RowPrints

variable {L : Licence} {s t : State}

/-- A command that may change the range of the board drive in use (spec/01 R26). -/
def mayMoveDrive : Instr → Bool
  | .driveRange _ _ => true
  | _ => false

/-- What a command may write, by the lists of the statement. -/
def allowed (c : Instr) : Licence where
  inst := fun _ => true
  place := true
  outposts := true
  hbm := !keepsHbm c
  host := mayWriteHost c
  flash := mayWriteFlash c
  calib := mayTrim c
  reset := mayReset c
  board := mayMoveDrive c
  role := true

theorem execBlockReset_frame (i : InstId) (s : State) [hall : ∀ j, Granted (L.inst j = true)] [flash : Granted L.Flash] [calib : Granted L.Calib] [reset : Granted L.Reset] [Granted L.Outposts] [Granted L.Place] [Granted L.Role] :
    ResOk (Frame L s) (execBlockReset i s) := .next (blockReset_frame _ _ (.refl s))

theorem execTick_frame (s : State) [hall : ∀ j, Granted (L.inst j = true)] [hbm : Granted L.Hbm] [flash : Granted L.Flash] [reset : Granted L.Reset] [Granted L.Outposts] [Granted L.Role] :
    ResOk (Frame L s) (execTick s) := by
  unfold execTick
  split
  · exact .next (.refl s)
  · have hclosed : Frame L s (closeTick .B (closeTick .A s)) := closeTick_frame _ (closeTick_frame _ (.refl s))
    have hticked : Frame L s { closeTick .B (closeTick .A s) with outposts := (closeTick .B (closeTick .A s)).outposts.map tickOutpost } := hclosed.rawOutposts
    exact .next (tickInst_frame _ (tickInst_frame _ (releaseReset_frame _ (releaseReset_frame _ hticked.raw))))

/-- A change of power keeps the host's memory and the board drive. -/
theorem power_frame (hinst : L.inst = fun _ => true) (hplace : L.place = true) (houtposts : L.outposts = true) (hhbm : L.hbm = true) (hflash : L.flash = true)
    (hcalib : L.calib = true) (hreset : L.reset = true) (hrole : L.role = true) (hhost : t.host = s.host) (hboard : t.board = s.board) : Frame L s t :=
  ⟨fun j => licensed (congrFun hinst j) _, licensed hplace _, licensed houtposts _, licensed hhbm _, fun _ => hhost, licensed hflash _, licensed hcalib _, licensed hreset _, fun _ => hboard, licensed hrole _⟩

theorem exec_frame (c : Instr) (s : State) : ResOk (Frame (allowed c) s) (exec c s) := by
  have hall : ∀ j, Granted ((allowed c).inst j = true) := fun _ => ⟨rfl⟩
  have houtposts : Granted (allowed c).Outposts := ⟨rfl⟩
  have hplace : Granted (allowed c).Place := ⟨rfl⟩
  have hrole : Granted (allowed c).Role := ⟨rfl⟩
  cases c with
  | powerOnReset => exact .next (power_frame rfl rfl rfl rfl rfl rfl rfl rfl rfl rfl)
  | blockReset _ => exact execBlockReset_frame (flash := ⟨rfl⟩) (calib := ⟨rfl⟩) (reset := ⟨rfl⟩) _ _
  | functionLevelReset => exact execFunctionLevelReset_frame (flash := ⟨rfl⟩) (calib := ⟨rfl⟩) (reset := ⟨rfl⟩) _
  | resetControlWrite _ _ => exact execResetControlWrite_frame (flash := ⟨rfl⟩) (calib := ⟨rfl⟩) (reset := ⟨rfl⟩) _ _ _
  | tick => exact execTick_frame (hbm := ⟨rfl⟩) (flash := ⟨rfl⟩) (reset := ⟨rfl⟩) _
  | livenessAdvance _ => exact execLivenessAdvance_frame _ _
  | flashGrant => exact execFlashGrant_frame (hbm := ⟨rfl⟩) (flash := ⟨rfl⟩) _
  | imageReadComplete _ _ => exact execImageReadComplete_frame (flash := ⟨rfl⟩) _ _ _
  | signatureVerified _ => exact execSignatureVerified_frame (flash := ⟨rfl⟩) (calib := ⟨rfl⟩) _ _
  | coresReady _ => exact execCoresReady_frame _ _
  | discoveryComplete _ => exact execDiscoveryComplete_frame (hbm := ⟨rfl⟩) _ _
  | discoveryTimeout _ => exact execDiscoveryTimeout_frame (hbm := ⟨rfl⟩) _ _
  | watchdogExpiry _ _ => exact execWatchdogExpiry_frame (hbm := ⟨rfl⟩) _ _ _
  | coreRestartDone _ _ => exact execCoreRestartDone_frame _ _ _
  | uncorrectableEcc _ _ => exact execUncorrectableEcc_frame (hbm := ⟨rfl⟩) _ _ _
  | mailboxGo _ _ => exact execMailboxGo_frame _ _ _
  | mailboxGoTaken _ _ => exact execMailboxGoTaken_frame (hbm := ⟨rfl⟩) _ _ _
  | resHeadWrite _ _ _ => exact execResHeadWrite_frame _ _ _ _
  | placeRegion _ _ => exact execPlaceRegion_frame (hbm := ⟨rfl⟩) _ _ _
  | driveRange _ _ => exact execDriveRange_frame (hbm := ⟨rfl⟩) (board := ⟨rfl⟩) _ _ _
  | identity _ _ => exact execIdentity_frame (hbm := ⟨rfl⟩) _ _ _
  | pairing _ _ => exact execPairing_frame (hbm := ⟨rfl⟩) _ _ _
  | hostTrims _ _ _ => exact execHostTrims_frame (hbm := ⟨rfl⟩) (calib := ⟨rfl⟩) _ _ _ _
  | dawnComplete _ _ => exact execDawnComplete_frame (hbm := ⟨rfl⟩) _ _ _
  | class0Reserve _ _ => exact execClass0Reserve_frame (hbm := ⟨rfl⟩) _ _ _
  | contextOpen _ _ => exact execContextOpen_frame (hbm := ⟨rfl⟩) _ _ _
  | contextConfigure _ _ => exact execContextConfigure_frame (hbm := ⟨rfl⟩) _ _ _
  | contextClose _ _ => exact execContextClose_frame (hbm := ⟨rfl⟩) _ _ _
  | contextCloseDone _ _ => exact execContextCloseDone_frame (hbm := ⟨rfl⟩) _ _ _
  | contextQuery _ _ => exact execContextQuery_frame (hbm := ⟨rfl⟩) _ _ _
  | recipeDefine _ _ _ => exact execRecipeDefine_frame (hbm := ⟨rfl⟩) _ _ _ _
  | recipeUndefine _ _ => exact execRecipeUndefine_frame (hbm := ⟨rfl⟩) _ _ _
  | planRegister _ _ => exact execPlanRegister_frame (hbm := ⟨rfl⟩) _ _ _
  | planUnregister _ _ => exact execPlanUnregister_frame (hbm := ⟨rfl⟩) _ _ _
  | planQuery _ _ => exact execPlanQuery_frame (hbm := ⟨rfl⟩) _ _ _
  | cancel _ _ => exact execCancel_frame (hbm := ⟨rfl⟩) _ _ _
  | park _ _ => exact execPark_frame (hbm := ⟨rfl⟩) _ _ _
  | resume _ _ => exact execResume_frame (hbm := ⟨rfl⟩) _ _ _
  | extend _ _ _ => exact execExtend_frame (hbm := ⟨rfl⟩) _ _ _ _
  | querySequence _ _ => exact execQuerySequence_frame (hbm := ⟨rfl⟩) _ _ _
  | modelDescribe _ _ _ => exact execModelDescribe_frame (hbm := ⟨rfl⟩) _ _ _ _
  | modelQuery _ _ => exact execModelQuery_frame (hbm := ⟨rfl⟩) _ _ _
  | modelForget _ _ => exact execModelForget_frame (hbm := ⟨rfl⟩) _ _ _
  | modelLoaded _ _ => exact execModelLoaded_frame (hbm := ⟨rfl⟩) _ _ _
  | modelLoadDeclined _ _ => exact execModelLoadDeclined_frame (hbm := ⟨rfl⟩) _ _ _
  | modelUnloaded _ _ => exact execModelUnloaded_frame (hbm := ⟨rfl⟩) _ _ _
  | modelPin _ _ => exact execModelPin_frame (hbm := ⟨rfl⟩) _ _ _
  | epochStage _ _ _ => exact execEpochStage_frame (hbm := ⟨rfl⟩) _ _ _ _
  | epochReady _ _ => exact execEpochReady_frame (hbm := ⟨rfl⟩) _ _ _
  | epochCommit _ _ => exact execEpochCommit_frame (hbm := ⟨rfl⟩) _ _ _
  | epochUnstage _ _ => exact execEpochUnstage_frame (hbm := ⟨rfl⟩) _ _ _
  | epochRetire _ _ => exact execEpochRetire_frame (hbm := ⟨rfl⟩) _ _ _
  | evening _ _ => exact execEvening_frame (hbm := ⟨rfl⟩) _ _ _
  | eveningComplete _ => exact execEveningComplete_frame (hbm := ⟨rfl⟩) _ _
  | morning _ _ => exact execMorning_frame (hbm := ⟨rfl⟩) _ _ _
  | turnCost _ _ => exact execTurnCost_frame (hbm := ⟨rfl⟩) _ _ _
  | poolLend _ _ => exact execPoolLend_frame (hbm := ⟨rfl⟩) _ _ _
  | poolReturn _ _ => exact execPoolReturn_frame (hbm := ⟨rfl⟩) _ _ _
  | snapshot _ _ => exact execSnapshot_frame (hbm := ⟨rfl⟩) _ _ _
  | restore _ _ => exact execRestore_frame (hbm := ⟨rfl⟩) _ _ _
  | restoreComplete _ => exact execRestoreComplete_frame (hbm := ⟨rfl⟩) (host := ⟨rfl⟩) _ _
  | lossBound _ _ => exact execLossBound_frame (hbm := ⟨rfl⟩) _ _ _
  | driveRetry _ _ => exact execDriveRetry_frame (hbm := ⟨rfl⟩) _ _ _
  | migrate _ _ => exact execMigrate_frame (hbm := ⟨rfl⟩) _ _ _
  | directionsSet _ _ _ => exact execDirectionsSet_frame (hbm := ⟨rfl⟩) _ _ _ _
  | watch _ _ => exact execWatch_frame (hbm := ⟨rfl⟩) _ _ _
  | trace _ _ => exact execTrace_frame (hbm := ⟨rfl⟩) _ _ _
  | traceDrained _ => exact execTraceDrained_frame (hbm := ⟨rfl⟩) _ _
  | counters _ _ => exact execCounters_frame (hbm := ⟨rfl⟩) _ _ _
  | imageWrite _ _ _ => exact execImageWrite_frame (hbm := ⟨rfl⟩) (flash := ⟨rfl⟩) _ _ _ _
  | imageProgramDone _ _ => exact execImageProgramDone_frame (hbm := ⟨rfl⟩) (flash := ⟨rfl⟩) _ _ _
  | firmwareConfirm _ _ => exact execFirmwareConfirm_frame (hbm := ⟨rfl⟩) (flash := ⟨rfl⟩) _ _ _
  | sqTailDoorbell _ _ _ => exact execSqTailDoorbell_frame (hbm := ⟨rfl⟩) _ _ _ _
  | submitEntry _ _ _ _ _ => exact execSubmitEntry_frame (hbm := ⟨rfl⟩) (host := ⟨rfl⟩) _ _ _ _ _ _
  | sqNop _ _ _ => exact execSqNop_frame (host := ⟨rfl⟩) _ _ _ _
  | sqBadKind _ _ _ => exact execSqBadKind_frame (host := ⟨rfl⟩) _ _ _ _
  | foyerReevaluation _ => exact execFoyerReevaluation_frame (hbm := ⟨rfl⟩) _ _
  | deferLimitExpiry _ _ => exact execDeferLimitExpiry_frame (hbm := ⟨rfl⟩) _ _ _
  | cqHeadWrite _ _ _ => exact execCqHeadWrite_frame (hbm := ⟨rfl⟩) _ _ _ _
  | cqRingWrite _ _ => exact execCqRingWrite_frame (hbm := ⟨rfl⟩) (host := ⟨rfl⟩) _ _ _
  | irqModerationTimer _ _ => exact execIrqModerationTimer_frame _ _ _
  | irqStatusClear _ _ _ _ => exact execIrqStatusClear_frame (hbm := ⟨rfl⟩) _ _ _ _ _
  | irqEnableWrite _ _ _ _ => exact execIrqEnableWrite_frame (hbm := ⟨rfl⟩) _ _ _ _ _
  | dmaError _ _ => exact execDmaError_frame (hbm := ⟨rfl⟩) _ _ _
  | teardownComplete _ _ => exact execTeardownComplete_frame (hbm := ⟨rfl⟩) _ _ _
  | composeStep _ _ => exact execComposeStep_frame (hbm := ⟨rfl⟩) _ _ _
  | drawList _ => exact execDrawList_frame _ _
  | keystreamBlock _ _ _ _ => exact execKeystreamBlock_frame _ _ _ _ _
  | classMapLoaded _ _ _ => exact execClassMapLoaded_frame _ _ _ _
  | larderGranuleWrite _ _ _ => exact execLarderGranuleWrite_frame _ _ _ _
  | waveDoneMarker _ _ _ => exact execWaveDoneMarker_frame _ _ _ _
  | waveLandedNotice _ _ _ _ => exact execWaveLandedNotice_frame _ _ _ _ _
  | completionNotice _ _ _ => exact execCompletionNotice_frame _ _ _ _
  | killAcknowledgement _ _ _ => exact execKillAcknowledgement_frame _ _ _ _
  | kernelFault _ _ _ => exact execKernelFault_frame (hbm := ⟨rfl⟩) _ _ _ _
  | lanePassComplete _ _ _ => exact execLanePassComplete_frame (hbm := ⟨rfl⟩) _ _ _ _
  | rowSetup _ => exact execRowSetup_frame _ _
  | maxResult _ => exact execMaxResult_frame _ _
  | roundReq _ => exact execRoundReq_frame _ _
  | cut _ => exact execCut_frame _ _
  | quotas _ => exact execQuotas_frame _ _
  | locate _ => exact execLocate_frame _ _
  | doneMsg _ => exact execDoneMsg_frame _ _
  | maxSum _ _ => exact execMaxSum_frame (hbm := ⟨rfl⟩) _ _ _
  | massSum _ _ => exact execMassSum_frame (hbm := ⟨rfl⟩) _ _ _
  | roundSum _ _ => exact execRoundSum_frame (hbm := ⟨rfl⟩) _ _ _
  | keptSum _ _ => exact execKeptSum_frame (hbm := ⟨rfl⟩) _ _ _
  | raceSum _ _ => exact execRaceSum_frame (hbm := ⟨rfl⟩) _ _ _
  | located _ _ => exact execLocated_frame (hbm := ⟨rfl⟩) _ _ _
  | parity _ _ => exact execParity_frame (hbm := ⟨rfl⟩) _ _ _
  | laneGroupSelftestDone _ _ => exact execLaneGroupSelftestDone_frame (hbm := ⟨rfl⟩) _ _ _
  | fenceMaskWrite _ _ _ _ => exact execFenceMaskWrite_frame (hbm := ⟨rfl⟩) _ _ _ _ _
  | commitPoint _ _ => exact execCommitPoint_frame _ _ _
  | tokenCommit _ _ => exact execTokenCommit_frame (hbm := ⟨rfl⟩) _ _ _
  | stopCheck _ _ => exact execStopCheck_frame (hbm := ⟨rfl⟩) _ _ _
  | kill _ _ => exact execKill_frame (hbm := ⟨rfl⟩) _ _ _
  | admitSeq _ _ => exact execAdmitSeq_frame (hbm := ⟨rfl⟩) _ _ _
  | warm _ _ => exact execWarm_frame (hbm := ⟨rfl⟩) _ _ _
  | cool _ _ => exact execCool_frame (hbm := ⟨rfl⟩) _ _ _
  | coolMarkWrite _ _ _ => exact execCoolMarkWrite_frame (hbm := ⟨rfl⟩) _ _ _ _
  | pageHeadroomWrite _ _ _ => exact execPageHeadroomWrite_frame (hbm := ⟨rfl⟩) _ _ _ _
  | evictionPark _ _ => exact execEvictionPark_frame (hbm := ⟨rfl⟩) _ _ _
  | evictionResume _ _ => exact execEvictionResume_frame (hbm := ⟨rfl⟩) _ _ _
  | kvInvalidation _ _ => exact execKvInvalidation_frame (hbm := ⟨rfl⟩) _ _ _
  | sequenceCancel _ _ => exact execSequenceCancel_frame (hbm := ⟨rfl⟩) _ _ _
  | sequencePark _ _ => exact execSequencePark_frame (hbm := ⟨rfl⟩) _ _ _
  | sequenceResume _ _ => exact execSequenceResume_frame (hbm := ⟨rfl⟩) _ _ _
  | sequenceExtend _ _ => exact execSequenceExtend_frame (hbm := ⟨rfl⟩) _ _ _
  | forceRun _ _ => exact execForceRun_frame (hbm := ⟨rfl⟩) _ _ _
  | midnight _ _ => exact execMidnight_frame (hbm := ⟨rfl⟩) _ _ _
  | midnightEvent _ _ => exact execMidnightEvent_frame (hbm := ⟨rfl⟩) _ _ _
  | epochAbort _ _ => exact execEpochAbort_frame (hbm := ⟨rfl⟩) _ _ _
  | eveningEvent _ _ => exact execEveningEvent_frame (hbm := ⟨rfl⟩) _ _ _
  | morningEvent _ _ => exact execMorningEvent_frame (hbm := ⟨rfl⟩) _ _ _
  | broadcastSweep _ _ => exact execBroadcastSweep_frame _ _ _
  | migrateOut _ _ => exact execMigrateOut_frame (hbm := ⟨rfl⟩) _ _ _
  | migrateAck _ _ => exact execMigrateAck_frame (hbm := ⟨rfl⟩) _ _ _
  | migrateFail _ _ => exact execMigrateFail_frame (hbm := ⟨rfl⟩) _ _ _
  | migrateIn _ _ => exact execMigrateIn_frame (hbm := ⟨rfl⟩) _ _ _
  | migrateDone _ _ => exact execMigrateDone_frame (hbm := ⟨rfl⟩) _ _ _
  | household _ _ => exact execHousehold_frame (hbm := ⟨rfl⟩) _ _ _
  | teardown _ _ => exact execTeardown_frame (hbm := ⟨rfl⟩) _ _ _
  | planReady _ _ => exact execPlanReady_frame (hbm := ⟨rfl⟩) _ _ _
  | context _ _ => exact execContext_frame (hbm := ⟨rfl⟩) _ _ _
  | deadlineEntry _ _ => exact execDeadlineEntry_frame (hbm := ⟨rfl⟩) _ _ _
  | parkWake _ _ => exact execParkWake_frame (hbm := ⟨rfl⟩) _ _ _
  | migrationRetry _ _ => exact execMigrationRetry_frame (hbm := ⟨rfl⟩) _ _ _
  | migrationTimeout _ _ => exact execMigrationTimeout_frame (hbm := ⟨rfl⟩) _ _ _
  | arrivalTimeout _ _ => exact execArrivalTimeout_frame (hbm := ⟨rfl⟩) _ _ _
  | mailboxCommandTimeout _ _ => exact execMailboxCommandTimeout_frame _ _ _
  | duskSpillRefill _ _ => exact execDuskSpillRefill_frame _ _ _
  | planFetchDone _ _ _ => exact execPlanFetchDone_frame (hbm := ⟨rfl⟩) _ _ _ _
  | latchAcquire _ _ _ => exact execLatchAcquire_frame _ _ _ _
  | latchRelease _ _ => exact execLatchRelease_frame _ _ _
  | latchConfigWrite _ _ _ _ => exact execLatchConfigWrite_frame (hbm := ⟨rfl⟩) _ _ _ _ _
  | announce _ _ => exact execAnnounce_frame (hbm := ⟨rfl⟩) _ _ _
  | announceReply _ _ => exact execAnnounceReply_frame (hbm := ⟨rfl⟩) _ _ _
  | offer _ _ => exact execOffer_frame (hbm := ⟨rfl⟩) _ _ _
  | accept _ _ => exact execAccept_frame (hbm := ⟨rfl⟩) _ _ _
  | refuse _ _ => exact execRefuse_frame (hbm := ⟨rfl⟩) _ _ _
  | dataMsg _ _ => exact execDataMsg_frame (hbm := ⟨rfl⟩) _ _ _
  | dataAck _ _ => exact execDataAck_frame (hbm := ⟨rfl⟩) _ _ _
  | handover _ _ => exact execHandover_frame (hbm := ⟨rfl⟩) _ _ _
  | ack _ _ => exact execAck_frame (hbm := ⟨rfl⟩) _ _ _
  | nak _ _ => exact execNak_frame (hbm := ⟨rfl⟩) _ _ _
  | abandon _ _ => exact execAbandon_frame (hbm := ⟨rfl⟩) _ _ _
  | bounce _ _ => exact execBounce_frame (hbm := ⟨rfl⟩) _ _ _
  | reorderRelease _ => exact execReorderRelease_frame _ _
  | injectionSeedWrite _ _ _ => exact execInjectionSeedWrite_frame (hbm := ⟨rfl⟩) _ _ _ _
  | stairwellTimingWrite _ _ _ _ => exact execStairwellTimingWrite_frame (hbm := ⟨rfl⟩) _ _ _ _ _
  | mirrorMessage _ _ => exact execMirrorMessage_frame (hbm := ⟨rfl⟩) _ _ _
  | mirrorAck _ => exact execMirrorAck_frame _ _
  | mirrorSyncComplete _ => exact execMirrorSyncComplete_frame (hbm := ⟨rfl⟩) _ _
  | heartbeat => exact execHeartbeat_frame _
  | heartbeatLost _ => exact execHeartbeatLost_frame _ _
  | livenessCheck _ => exact execLivenessCheck_frame _ _
  | failMsg _ => exact execFailMsg_frame _ _
  | claim _ _ => exact execClaim_frame _ _ _
  | takeover _ => exact execTakeover_frame (hbm := ⟨rfl⟩) (flash := ⟨rfl⟩) _ _
  | claimRefused _ => exact execClaimRefused_frame (hbm := ⟨rfl⟩) _ _
  | digestPair _ => exact execDigestPair_frame _ _
  | driveCompletion _ _ => exact execDriveCompletion_frame (hbm := ⟨rfl⟩) _ _ _
  | driveTimeout _ => exact execDriveTimeout_frame (hbm := ⟨rfl⟩) _ _
  | journalFlush _ => exact execJournalFlush_frame _ _
  | flushDeferExpiry _ => exact execFlushDeferExpiry_frame _ _
  | flushComplete _ => exact execFlushComplete_frame _ _
  | bulkImageStart _ => exact execBulkImageStart_frame _ _
  | bulkImageDurable _ => exact execBulkImageDurable_frame (hbm := ⟨rfl⟩) _ _
  | graphBuild _ => exact execGraphBuild_frame _ _
  | traceWaitLimit _ _ _ _ _ => exact execTraceWaitLimit_frame (hbm := ⟨rfl⟩) _ _ _ _ _ _
  | traceBurstTimeout i =>
    cases hrow : exec (.traceBurstTimeout i) s with
    | next t => exact execTraceBurstTimeout_frame (i := i) (s := s) (hbm := ⟨rfl⟩) hrow
    | _ => trivial
  | traceSync _ => exact execTraceSync_frame (hbm := ⟨rfl⟩) _ _
  | traceRpWrite _ _ _ _ => exact execTraceRpWrite_frame (hbm := ⟨rfl⟩) _ _ _ _ _
  | dumpRequest _ _ _ => exact execDumpRequest_frame (hbm := ⟨rfl⟩) _ _ _ _
  | dumpComplete _ _ => exact execDumpComplete_frame (hbm := ⟨rfl⟩) _ _ _
  | dumpAck _ _ _ => exact execDumpAck_frame (hbm := ⟨rfl⟩) _ _ _ _
  | studyCauseClear _ _ _ => exact execStudyCauseClear_frame (hbm := ⟨rfl⟩) _ _ _ _
  | epochRetiredClear _ _ _ _ => exact execEpochRetiredClear_frame (hbm := ⟨rfl⟩) _ _ _ _ _
  | wdogExpiredClear _ _ _ => exact execWdogExpiredClear_frame (hbm := ⟨rfl⟩) _ _ _ _
  | fenceRefusedClear _ _ _ _ => exact execFenceRefusedClear_frame (hbm := ⟨rfl⟩) _ _ _ _ _
  | kitchenLimitWrite _ _ _ _ => exact execKitchenLimitWrite_frame (hbm := ⟨rfl⟩) _ _ _ _ _
  | rcFieldRead _ _ _ => exact execRcFieldRead_frame _ _ _ _
  | registerWrite _ _ _ _ => exact execRegisterWrite_frame (hbm := ⟨rfl⟩) _ _ _ _ _
  | powerLoss => exact .next (power_frame rfl rfl rfl rfl rfl rfl rfl rfl rfl rfl)
  | linkCreditsReturned _ _ => exact execLinkCreditsReturned_frame _ _ _
  | pathRestored => exact execPathRestored_frame _

/-- Settles O8: every command writes within its licence (`exec_frame`), and each clause reads off one part of it. -/
theorem kindsKept : Obligations.KindsKept := by
  intro c s t hnext
  have h : Frame (allowed c) s t := next_of_resOk (exec_frame c s) hnext
  refine ⟨h.flash, fun e a => congrArg (memGet · a) (h.host e), h.calib, h.reset, fun e a => congrArg (memGet · a) (h.hbm (by rw [allowed, e]; rfl)), fun e => h.board ?_⟩
  cases c with
  | driveRange j w => exact absurd rfl (e j w)
  | _ => rfl

end Sys2Proof.Kinds

/-! SUPPORT. The training turn and the pool lent in it (spec/11 R244-R248, spec/05 R121-R123). -/

namespace Sys2Proof.TurnCommands

open Sys2Proof Sys2Proof.Machine Sys2Proof.Laws Sys2Proof.Serving Sys2Proof.Closers Sys2Proof.Cases Sys2Proof.ContextLifes Sys2Proof.Footprint Sys2Proof.Rows

variable {i : InstId} {w : Nat} {c : MboxCmd} {s t : State}

/-! ### Evening -/

theorem kitchen_startCmd (i : InstId) (c : MboxCmd) (s : State) : (mir (startCmd i c s) i).kitchen = (mir s i).kitchen := by rw [mir_startCmd]

theorem mir_sendMsg (i : InstId) (m : PeerMsg) (s : State) : mir (sendMsg i m s) i = mir s i := by cases i <;> rfl

theorem role_emit (n : Nat) (m : PeerMsg) (st : Stairwell) : (emit n m st).role = st.role := by
  unfold emit
  dsimp only
  split <;> rfl

theorem role_sendMsg (i : InstId) (m : PeerMsg) (s : State) : (getInst (sendMsg i m s) i).stair.role = (getInst s i).stair.role := by
  cases i <;> exact role_emit _ _ _

theorem mir_announceAll (i : InstId) (s : State) : mir (announceAll i s) i = mir s i := by
  have h := Discovery.foldl_keeps (g := fun t => mir t i) (f := fun t (p : Peer) => sendMsg i { mkMsg tAnnounce p.addr with payload := announcePayload (getInst s i) } t)
    (fun t p => mir_sendMsg i _ t) (getInst s i).stair.peers s
  cases i <;> exact h

theorem role_announceAll (i : InstId) (s : State) : (getInst (announceAll i s) i).stair.role = (getInst s i).stair.role := by
  have h := Discovery.foldl_keeps (g := fun t => (getInst t i).stair.role)
    (f := fun t (p : Peer) => sendMsg i { mkMsg tAnnounce p.addr with payload := announcePayload (getInst s i) } t)
    (fun t p => role_sendMsg i _ t) (getInst s i).stair.peers s
  cases i <;> exact h

theorem mir_setRole (i : InstId) (role : Nat) (s : State) : mir (setRole i role s) i = mir s i := by
  unfold setRole
  split
  · rfl
  · exact (mir_announceAll i _).trans (by cases i <;> rfl)

theorem role_setRole (i : InstId) (role : Nat) (s : State) : (getInst (setRole i role s) i).stair.role = role := by
  unfold setRole
  split
  case isTrue h => exact h
  case isFalse => exact (role_announceAll i _).trans (by cases i <;> rfl)

/-- The end of Evening's state: its commands answered, the turn noted in the journal, the role told. -/
def eveningDone (i : InstId) (s : State) : State :=
  journalObj i (.turn true) (setRole i 2 (finishCode i 0x80 rOk (modKit i (fun k => { k with turn := .training }) s)))

theorem eveningDone_tick (i : InstId) (s : State) : (eveningDone i s).tick = s.tick :=
  (journalObj_keptI i _ (setRole_keptI i 2 (finishCode_keptI i _ _ (modKit_keptI i _ (KeptI.refl i s))))).tick

theorem eveningDone_resultOnly (i : InstId) (s : State) : ResultOnly i (modKit i (fun k => { k with turn := .training }) s) (eveningDone i s) := by
  have hcode : ResultOnly i (modKit i (fun k => { k with turn := .training }) s) (finishCode i 0x80 rOk (modKit i (fun k => { k with turn := .training }) s)) :=
    foldl_resultOnly (fun u (x : MboxCmd) => finishCmd_resultOnly i x.id rOk 0 [] u) _ _
  have hmir : mir (eveningDone i s) i = mir (finishCode i 0x80 rOk (modKit i (fun k => { k with turn := .training }) s)) i := by
    rw [eveningDone, journalObj, journal, mir_eq, getInst_modRel, ← mir_eq]
    exact mir_setRole i 2 _
  unfold ResultOnly at hcode ⊢
  rw [hmir]
  exact hcode

theorem eveningsEnd (hact : activeInst s i = true) (hturn : (mir s i).kitchen.turn = .evening) (hsent : (mir s i).kitchen.eveningSent = true)
    (hpend : pendingKind (getInst s i) eveningEvent = false) : exec (.eveningComplete i) s = done i s (eveningDone i s) := by
  refine if_neg ?_
  have h1 : (getInst s i).mir.kitchen.turn = .evening := hturn
  have h2 : (getInst s i).mir.kitchen.eveningSent = true := hsent
  rw [hact, h1, h2, hpend]
  decide

theorem eveningCommands (h : starts i w 0x80 noCase s c = true) :
    ((mir s i).kitchen.turn ≠ .service → Refuses (.evening i w) i c s aWrong) ∧
    ((mir s i).kitchen.turn = .service → Answers (.evening i w) i c s .later (fun v => v) (fun v =>
      v = modKit i (fun k => { k with turn := .evening, quiesced := true, eveningSent := false, raises := [] }) (startCmd i c s))) := by
  have hturn := kitchen_startCmd i c s
  refine ⟨fun hno => refuses_of_starts rfl h (if_pos ?_), fun hyes => answers_of_starts (after := fun v => v) rfl h (if_neg ?_) rfl⟩
  · rw [hturn]
    exact bne_iff_ne.mpr hno
  · rw [hturn, hyes]
    decide

theorem eveningCompletes (hact : activeInst s i = true) (hturn : (mir s i).kitchen.turn = .evening) (hsent : (mir s i).kitchen.eveningSent = true)
    (hpend : pendingKind (getInst s i) eveningEvent = false) :
    Goes (.eveningComplete i) s (fun t => (mir t i).kitchen = { (mir s i).kitchen with turn := .training } ∧ (mir t i).seqs = (mir s i).seqs ∧
      (mir t i).ctxs = (mir s i).ctxs ∧ (getInst t i).stair.role = 2 ∧ t.tick = s.tick) := by
  refine goes_done (eveningsEnd hact hturn hsent hpend) ?_
  have hres := eveningDone_resultOnly i s
  unfold ResultOnly at hres
  rw [Limits.mir_modKit] at hres
  rw [mir_eq, mirrorOut_mir, mirrorOut_stair, mirrorOut_tick, ← mir_eq, hres]
  refine ⟨rfl, rfl, rfl, ?_, eveningDone_tick i s⟩
  rw [eveningDone, journalObj, journal, getInst_modRel]
  exact role_setRole i 2 _

/-! ### Morning -/

theorem morningWrong_startCmd (i : InstId) (c : MboxCmd) (g : Nat × BitVec 8) (s : State) : morningWrong (startCmd i c s) i g = morningWrong s i g := by
  cases i <;> rfl

theorem partnerSet_startCmd (i : InstId) (c : MboxCmd) (s : State) : partnerSet (startCmd i c s) i = partnerSet s i := by cases i <;> rfl

theorem place_startCmd (i : InstId) (c : MboxCmd) (s : State) : (getInst (startCmd i c s) i).place = (getInst s i).place := by rw [getInst_startCmd]

/-- The set that MORNING asks for may be its own. -/
def setMay (s : State) (i : InstId) (g : Nat × BitVec 8) : Prop :=
  setChanges (getInst s i) g = true → g.1 ≤ 1 ∧ setOk (g.1 == 1) g.2 (if g.1 == bit (getInst s i).place.split then partnerSet s i else 0) = true

theorem doMorning_eq (i : InstId) (c : MboxCmd) (s : State) : doMorning i c (startCmd i c s) =
    if setChanges (getInst s i) (morningSet (getInst s i) c) && (decide (1 < (morningSet (getInst s i) c).1) || !setOk ((morningSet (getInst s i) c).1 == 1) (morningSet (getInst s i) c).2
      (if (morningSet (getInst s i) c).1 == bit (getInst s i).place.split then partnerSet s i else 0)) then (aInvalid, startCmd i c s)
    else if morningWrong s i (morningSet (getInst s i) c) then (aWrong, startCmd i c s)
    else (.later, beginMorning i (morningSet (getInst s i) c) (startCmd i c s)) := by
  cases i <;> rfl

theorem setMay_iff (s : State) (i : InstId) (g : Nat × BitVec 8) :
    (setChanges (getInst s i) g && (decide (1 < g.1) || !setOk (g.1 == 1) g.2 (if g.1 == bit (getInst s i).place.split then partnerSet s i else 0))) = true ↔ ¬setMay s i g := by
  unfold setMay
  rw [Bool.and_eq_true, Bool.or_eq_true, decide_eq_true_iff, Bool.not_eq_true', Classical.not_imp, Classical.not_and_iff_not_or_not, Nat.not_le, Bool.not_eq_true]

/-! #### What beginning Morning leaves -/

/-- The licence of a change of the mode: both instances. -/
def modeLicence : Licence := { inst := fun _ => true, place := true, role := true }

/-- The licence of Morning's stages: both instances, HBM and the outposts. -/
def morningLicence : Licence := { inst := fun _ => true, place := true, role := true, hbm := true, outposts := true }

/-- The licence of what follows on a change of the set: both instances, but where they are placed, and HBM. -/
def roundLicence : Licence := { inst := fun _ => true, hbm := true }

/-- Stage 1 of Morning where the set changes. -/
def changedSet (i : InstId) (g : Nat × BitVec 8) (s : State) : State :=
  foyerRound i (grantSlots i 64 (modDir i (refitDir (vocabLimit g.2)) (assignSet i g.2 (changeMode i (g.1 == 1) s))))

/-- Stage 1, and the outposts of the set taken into their self-test. -/
def stageOne (i : InstId) (g : Nat × BitVec 8) (s : State) : State := if setChanges (getInst s i) g then changedSet i g s else s

theorem beginMorning_eq (i : InstId) (g : Nat × BitVec 8) (s : State) : beginMorning i g s =
    modKit i (fun k => { k with turn := .morning, morningStage := 2, newSet := setChanges (getInst s i) g, nextHalf := 0 })
      ((outpostSet (stageOne i g s) i).foldl (fun s o => modOutpost o (morningOutpost i) s) (stageOne i g s)) := rfl

theorem changedSet_frame (i : InstId) (g : Nat × BitVec 8) (s : State) : Frame roundLicence (assignSet i g.2 (changeMode i (g.1 == 1) s)) (changedSet i g s) := by
  have hall : ∀ j, Granted (roundLicence.inst j = true) := fun _ => ⟨rfl⟩
  have hhbm : Granted roundLicence.Hbm := ⟨rfl⟩
  exact foyerRound_frame i (grantSlots_frame i 64 (modDir_frame i _ (.refl _)))

theorem place_modInst_both (i : InstId) (f g : Inst → Inst) (s : State) :
    (getInst (modInst i f (modInst (Machine.other i) g s)) i).place = (f (getInst s i)).place := by cases i <;> rfl

theorem place_changeMode (i : InstId) (split : Bool) (s : State) : (getInst (changeMode i split s) i).place = { (getInst s i).place with split := split } := by
  have hall : ∀ j, Granted (roundLicence.inst j = true) := fun _ => ⟨rfl⟩
  unfold changeMode
  split
  case isTrue h => rw [← eq_of_beq h]
  case isFalse =>
    dsimp only
    refine ((announceAll_frame (L := roundLicence) _ (.refl _)).place rfl i).trans ?_
    split
    · exact ((logFault_frame (L := roundLicence) _ _ _ _ _ _ _ (.refl _)).place rfl i).trans (place_modInst_both i _ _ s)
    · exact place_modInst_both i _ _ s

theorem place_assignSet (i : InstId) (mask : BitVec 8) (s : State) : (getInst (assignSet i mask s) i).place = { (getInst s i).place with outposts := mask } := by
  have hset := Discovery.foldl_keeps (g := fun t => getInst t i) (f := fun t o => modOutpost o (fun x =>
    if (x.owner == some i || (!(getInst s i).place.split && x.owner == some (Machine.other i))) && !mask.getLsbD o then { x with owner := none, selftest := false } else x) t)
    (fun t o => by cases i <;> rfl) (List.range 8) s
  have hput : ∀ u, getInst u i = getInst s i → (getInst (modInst i (fun x => { x with place := { x.place with outposts := mask } }) u) i).place =
      { (getInst s i).place with outposts := mask } := by
    intro u hu
    rw [← hu]
    cases i <;> rfl
  unfold assignSet
  dsimp only
  split
  · exact hput _ hset
  · refine Eq.trans ?_ (hput _ hset)
    cases i <;> rfl

theorem outposts_assignSet (i : InstId) (mask : BitVec 8) (s : State) : (assignSet i mask s).outposts.length = s.outposts.length := by
  have hset := Discovery.foldl_keeps (g := fun t : State => t.outposts.length) (f := fun t o => modOutpost o (fun x =>
    if (x.owner == some i || (!(getInst s i).place.split && x.owner == some (Machine.other i))) && !mask.getLsbD o then { x with owner := none, selftest := false } else x) t)
    (fun t o => modAt_length _ _ _) (List.range 8) s
  unfold assignSet
  dsimp only
  split
  · exact Eq.trans (by cases i <;> rfl) hset
  · exact Eq.trans (by cases i <;> rfl) hset

theorem outposts_changeMode (i : InstId) (split : Bool) (s : State) : (changeMode i split s).outposts = s.outposts := by
  have hall : ∀ j, Granted (modeLicence.inst j = true) := fun _ => ⟨rfl⟩
  have hplace : Granted modeLicence.Place := ⟨rfl⟩
  have hrole : Granted modeLicence.Role := ⟨rfl⟩
  exact (changeMode_frame (L := modeLicence) i split (.refl s)).outposts rfl

theorem place_changedSet (i : InstId) (g : Nat × BitVec 8) (s : State) :
    (getInst (changedSet i g s) i).place = { (getInst s i).place with split := g.1 == 1, outposts := g.2 } := by
  rw [(changedSet_frame i g s).place rfl i, place_assignSet, place_changeMode]

theorem outposts_changedSet (i : InstId) (g : Nat × BitVec 8) (s : State) : (changedSet i g s).outposts.length = s.outposts.length := by
  rw [(changedSet_frame i g s).outposts rfl, outposts_assignSet, outposts_changeMode]

theorem place_stageOne (i : InstId) (g : Nat × BitVec 8) (s : State) : (getInst (stageOne i g s) i).place =
    { (getInst s i).place with split := if setChanges (getInst s i) g then g.1 == 1 else (getInst s i).place.split, outposts := g.2 } := by
  unfold stageOne
  split
  case isTrue => exact place_changedSet i g s
  case isFalse h =>
    unfold setChanges at h
    rw [Bool.or_eq_true, not_or, bne_iff_ne, bne_iff_ne, Classical.not_not, Classical.not_not] at h
    rw [h.2]

theorem outposts_stageOne (i : InstId) (g : Nat × BitVec 8) (s : State) : (stageOne i g s).outposts.length = s.outposts.length := by
  unfold stageOne
  split
  · exact outposts_changedSet i g s
  · rfl

theorem getInst_taken (i j : InstId) (l : List Nat) (s : State) : getInst (l.foldl (fun s o => modOutpost o (morningOutpost i) s) s) j = getInst s j :=
  Discovery.foldl_keeps (g := fun t => getInst t j) (fun t o => by cases j <;> rfl) l s

/-- An outpost of the set is taken. -/
theorem getOutpost_taken {o : Nat} : ∀ (l : List Nat) (s : State), o < s.outposts.length → (o ∈ l ∨ ∃ x, getOutpost s o = morningOutpost i x) →
    ∃ x, getOutpost (l.foldl (fun s o => modOutpost o (morningOutpost i) s) s) o = morningOutpost i x
  | [], _, _, h => h.resolve_left (List.not_mem_nil)
  | p :: l, s, hlen, h => by
    refine getOutpost_taken l _ (lt_of_lt_of_eq hlen (modAt_length _ _ _).symm) ?_
    by_cases hp : p = o
    · subst hp
      exact .inr ⟨_, OutpostRules.getOutpost_modOutpost _ hlen⟩
    · rw [OutpostRules.getOutpost_modOutpost_ne _ _ (Ne.symm hp)]
      exact h.imp_left fun hmem => (List.mem_cons.mp hmem).resolve_left (Ne.symm hp)

theorem mem_maskBits {v : BitVec 8} {o : Nat} (ho : o < 8) (hbit : v.getLsbD o = true) : o ∈ maskBits 8 v.toNat :=
  List.mem_filter.mpr ⟨List.mem_range.mpr ho, hbit⟩

theorem outpostSet_stageOne (i : InstId) (g : Nat × BitVec 8) (s : State) : outpostSet (stageOne i g s) i = maskBits 8 g.2.toNat := by
  rw [outpostSet, place_stageOne]

theorem beginMorning_tick (i : InstId) (g : Nat × BitVec 8) (s : State) : (beginMorning i g s).tick = s.tick :=
  (beginMorning_kept i g (Kept.refl s)).tick

theorem beginMorning_host (i : InstId) (g : Nat × BitVec 8) (s : State) : (beginMorning i g s).host = s.host := by
  have hall : ∀ j, Granted (morningLicence.inst j = true) := fun _ => ⟨rfl⟩
  have hhbm : Granted morningLicence.Hbm := ⟨rfl⟩
  have hout : Granted morningLicence.Outposts := ⟨rfl⟩
  have hplace : Granted morningLicence.Place := ⟨rfl⟩
  have hrole : Granted morningLicence.Role := ⟨rfl⟩
  exact (beginMorning_frame (L := morningLicence) i g (.refl s)).host rfl

theorem getInst_modKit_place (i : InstId) (f : Kitchen → Kitchen) (s : State) : (getInst (modKit i f s) i).place = (getInst s i).place := by cases i <;> rfl

theorem beginMorning_place (i : InstId) (g : Nat × BitVec 8) (s : State) : (getInst (beginMorning i g s) i).place =
    { (getInst s i).place with split := if setChanges (getInst s i) g then g.1 == 1 else (getInst s i).place.split, outposts := g.2 } := by
  rw [beginMorning_eq, getInst_modKit_place, getInst_taken, place_stageOne]

theorem beginMorning_outposts (i : InstId) (g : Nat × BitVec 8) (s : State) {o : Nat} (ho : o < 8) (hlen : o < s.outposts.length) (hbit : g.2.getLsbD o = true) :
    (getOutpost (beginMorning i g s) o).owner = some i ∧ (getOutpost (beginMorning i g s) o).selftest = true := by
  have hmem : o ∈ outpostSet (stageOne i g s) i := by
    rw [outpostSet_stageOne]
    exact mem_maskBits ho hbit
  obtain ⟨x, hx⟩ := getOutpost_taken (i := i) _ (stageOne i g s) (by rw [outposts_stageOne]; exact hlen) (.inl hmem)
  have hlast : getOutpost (beginMorning i g s) o = morningOutpost i x := by
    rw [beginMorning_eq, ← hx]
    cases i <;> rfl
  rw [hlast]
  exact ⟨rfl, rfl⟩

theorem setChanges_startCmd (i : InstId) (c : MboxCmd) (g : Nat × BitVec 8) (s : State) : setChanges (getInst (startCmd i c s) i) g = setChanges (getInst s i) g := by
  unfold setChanges
  rw [place_startCmd]

theorem morningCommand (h : starts i w 0x81 morningCase s c = true) :
    let x := getInst s i
    let g := morningSet x c
    let ok := setChanges x g = true → g.1 ≤ 1 ∧ setOk (g.1 == 1) g.2 (if g.1 == bit x.place.split then partnerSet s i else 0) = true
    (¬ok → Refuses (.morning i w) i c s aInvalid) ∧
    (ok → morningWrong s i g = true → Refuses (.morning i w) i c s aWrong) ∧
    (ok → morningWrong s i g = false →
      Answers (.morning i w) i c s .later (beginMorning i g) (fun v => v = startCmd i c s) ∧
      let v := beginMorning i g (startCmd i c s)
      (mir v i).kitchen.turn = .morning ∧ (mir v i).kitchen.morningStage = 2 ∧ (mir v i).kitchen.newSet = setChanges x g ∧
      (getInst v i).place = { x.place with split := if setChanges x g then g.1 == 1 else x.place.split, outposts := g.2 } ∧ v.tick = s.tick ∧ v.host = s.host ∧
      (∀ o, o < 8 → o < s.outposts.length → g.2.getLsbD o = true → (getOutpost v o).owner = some i ∧ (getOutpost v o).selftest = true) ∧
      (setChanges x g = false → (mir v i).seqs = (mir s i).seqs)) := by
  intro x g ok
  have hbad : ¬ok ↔ _ := (setMay_iff s i g).symm
  have heq := doMorning_eq i c s
  refine ⟨fun hno => refuses_of_starts rfl h (heq.trans (if_pos (hbad.mp hno))), fun hyes hwrong => ?_, fun hyes hright => ⟨?_, ?_⟩⟩
  · exact refuses_of_starts rfl h (heq.trans ((if_neg fun hx => hbad.mpr hx hyes).trans (if_pos hwrong)))
  · exact answers_of_starts (after := beginMorning i g) rfl h
      (heq.trans ((if_neg fun hx => hbad.mpr hx hyes).trans (if_neg ((Bool.not_eq_true _).mpr hright)))) rfl
  · intro v
    have hkit : (mir v i).kitchen = { (mir ((outpostSet (stageOne i g (startCmd i c s)) i).foldl (fun s o => modOutpost o (morningOutpost i) s) (stageOne i g (startCmd i c s))) i).kitchen with
        turn := .morning, morningStage := 2, newSet := setChanges x g, nextHalf := 0 } := by
      show (mir (beginMorning i g (startCmd i c s)) i).kitchen = _
      rw [beginMorning_eq, Limits.mir_modKit, setChanges_startCmd]
    rw [hkit]
    refine ⟨rfl, rfl, rfl, ?_, (beginMorning_tick i g _).trans (startCmd_tick i c s), (beginMorning_host i g _).trans (startCmd_host i c s), fun o ho hlen hbit => ?_, fun hsame => ?_⟩
    · rw [beginMorning_place, setChanges_startCmd, place_startCmd]
    · exact beginMorning_outposts i g _ ho (by rw [startCmd_outposts]; exact hlen) hbit
    · show (mir (beginMorning i g (startCmd i c s)) i).seqs = _
      rw [beginMorning_eq, Limits.mir_modKit]
      rw [mir_eq, getInst_taken, stageOne, setChanges_startCmd, if_neg ((Bool.not_eq_true _).mpr hsame), ← mir_eq, mir_startCmd]

/-! ### The cost of a turn -/

theorem openCtxs_startCmd (i : InstId) (c : MboxCmd) (s : State) : openCtxs (mir (startCmd i c s) i) = openCtxs (mir s i) :=
  List.filter_congr fun k _ => getCtx_startCmd (g := Ctx.isOpen) (fun _ _ => rfl) i c k s

/-- TURN_COST's function on the started state. -/
theorem doTurnCost_eq (i : InstId) (c : MboxCmd) (s : State) : doTurnCost i c (startCmd i c s) =
    if !outputOk (prm c 0 8) then (aInvalid, startCmd i c s)
    else if prm c 8 4 < (openCtxs (mir s i)).length then (.now rFull (openCtxs (mir s i)).length [], startCmd i c s)
    else (.now rOk 0 (leBytes 4 (openCtxs (mir s i)).length),
      hbmPut (prm c 0 8) ((openCtxs (mir s i)).flatMap (costRecord (mir (startCmd i c s) i))) (startCmd i c s)) := by
  unfold doTurnCost
  dsimp only
  rw [openCtxs_startCmd]

theorem outputOk_iff (a : Nat) : (!outputOk a) = true ↔ a % 64 ≠ 0 := by simp [outputOk]

theorem turnCostCommand (h : starts i w 0x82 noCase s c = true) :
    let cs := openCtxs (mir s i)
    (prm c 0 8 % 64 ≠ 0 → Refuses (.turnCost i w) i c s aInvalid) ∧
    (prm c 0 8 % 64 = 0 → prm c 8 4 < cs.length → Refuses (.turnCost i w) i c s (.now rFull cs.length [])) ∧
    (prm c 0 8 % 64 = 0 → cs.length ≤ prm c 8 4 →
      (outCase s 0 (32 * cs.length) c ≠ none → StopsAt (.turnCost i w) s 2) ∧
      (outCase s 0 (32 * cs.length) c = none → Answers (.turnCost i w) i c s (.now rOk 0 (leBytes 4 cs.length)) (fun v => v) (fun v =>
        v = hbmPut (prm c 0 8) (cs.flatMap (costRecord (mir (startCmd i c s) i))) (startCmd i c s)))) := by
  intro cs
  have hrow : exec (.turnCost i w) s = serve i w 0x82 (outCase s 0 (32 * cs.length)) (doTurnCost i) s := rfl
  have hmay := mayRefuse_of_noCase h (outCase_among s 0 (32 * cs.length) c)
  have heq := doTurnCost_eq i c s
  refine ⟨fun hbad => refuses_of_mayRefuse hrow hmay (heq.trans (if_pos ((outputOk_iff _).mpr hbad))) rfl, fun hok hfull => ?_, fun hok hroom => ?_⟩
  · exact refuses_of_mayRefuse hrow hmay (heq.trans ((if_neg fun hx => (outputOk_iff _).mp hx hok).trans (if_pos hfull))) rfl
  · have hdo := heq.trans ((if_neg fun hx => (outputOk_iff _).mp hx hok).trans (if_neg (Nat.not_lt.mpr hroom)))
    refine ⟨fun hmet => ?_, fun hnone => answers_of_starts (after := fun v => v) hrow (starts_of_noCase h hnone) hdo rfl⟩
    obtain ⟨m, hm⟩ := Option.ne_none_iff_exists'.mp hmet
    obtain rfl : m = 2 := by simpa using outCase_among s _ _ c m hm
    exact stopsAt_of_overlap hrow h hm (by rw [hdo]; rfl)

/-! ### The pool lent -/

theorem pantry_startCmd (i : InstId) (c : MboxCmd) (s : State) : (mir (startCmd i c s) i).pantry = (mir s i).pantry := by rw [mir_startCmd]

theorem extents_startCmd (i : InstId) (c : MboxCmd) (s : State) : extents (getInst (startCmd i c s) i) = extents (getInst s i) := by
  cases i <;> rfl

/-- The pool may be lent. -/
def poolMay (m : Mirrored) : Prop := m.kitchen.turn = .training ∧ lentPages m = []

theorem not_poolMay_iff (m : Mirrored) : (m.kitchen.turn != .training || !(lentPages m).isEmpty) = true ↔ ¬poolMay m := by
  unfold poolMay
  rw [Bool.or_eq_true, bne_iff_ne, Bool.not_eq_true', Classical.not_and_iff_not_or_not, ← Bool.not_eq_true, List.isEmpty_iff]

/-- What POOL_LEND lends, and the report of it. -/
def poolLent (i : InstId) (a : Nat) (es : List (Nat × Nat)) (s : State) : State :=
  ringPush i 3 0x023 3 0 [0, sumNat (es.map (·.2)), 0] (modPantry i (lendAll es) (hbmPut a (es.flatMap fun e => leBytes 4 e.1 ++ leBytes 4 e.2) s))

theorem doPoolLend_eq (i : InstId) (c : MboxCmd) (s : State) : doPoolLend i c (startCmd i c s) =
    if !outputOk (prm c 0 8) then (aInvalid, startCmd i c s)
    else if (mir s i).kitchen.turn != .training || !(lentPages (mir s i)).isEmpty then (aWrong, startCmd i c s)
    else if prm c 8 4 < (extents (getInst s i)).length then (.now rFull (extents (getInst s i)).length [], startCmd i c s)
    else (.now rOk 0 (leBytes 4 (extents (getInst s i)).length ++ leBytes 4 0 ++ leBytes 8 (sumNat ((extents (getInst s i)).map (·.2)))),
      poolLent i (prm c 0 8) (extents (getInst s i)) (startCmd i c s)) := by
  unfold doPoolLend
  dsimp only
  rw [extents_startCmd, ← mir_eq, kitchen_startCmd, lentPages, pantry_startCmd]
  rfl

theorem mir_poolLent (i : InstId) (a : Nat) (es : List (Nat × Nat)) (s : State) :
    mir (poolLent i a es s) i = { mir s i with pantry := lendAll es (mir s i).pantry } := by cases i <;> rfl

theorem poolLent_hbm (i : InstId) (a : Nat) (es : List (Nat × Nat)) (s : State) :
    (poolLent i a es s).hbm = memPuts s.hbm a (es.flatMap fun e => leBytes 4 e.1 ++ leBytes 4 e.2) := by cases i <;> rfl

theorem poolLent_host (i : InstId) (a : Nat) (es : List (Nat × Nat)) (s : State) : (poolLent i a es s).host = s.host := by cases i <;> rfl

theorem poolLendCommand (h : starts i w 0x83 noCase s c = true) :
    let es := extents (getInst s i)
    let may := (mir s i).kitchen.turn = .training ∧ lentPages (mir s i) = []
    (prm c 0 8 % 64 ≠ 0 → Refuses (.poolLend i w) i c s aInvalid) ∧
    (prm c 0 8 % 64 = 0 → ¬may → Refuses (.poolLend i w) i c s aWrong) ∧
    (prm c 0 8 % 64 = 0 → may → prm c 8 4 < es.length → Refuses (.poolLend i w) i c s (.now rFull es.length [])) ∧
    (prm c 0 8 % 64 = 0 → may → es.length ≤ prm c 8 4 →
      (outCase s 0 (8 * es.length) c ≠ none → StopsAt (.poolLend i w) s 2) ∧
      (outCase s 0 (8 * es.length) c = none →
        Answers (.poolLend i w) i c s (.now rOk 0 (leBytes 4 es.length ++ leBytes 4 0 ++ leBytes 8 (sumNat (es.map (·.2))))) (fun v => v) (fun v =>
          mir v i = { mir (startCmd i c s) i with pantry := lendAll es (mir s i).pantry } ∧
          v.hbm = memPuts s.hbm (prm c 0 8) (es.flatMap fun e => leBytes 4 e.1 ++ leBytes 4 e.2) ∧ v.host = s.host))) := by
  intro es may
  have hrow : exec (.poolLend i w) s = serve i w 0x83 (outCase s 0 (8 * es.length)) (doPoolLend i) s := rfl
  have hmay := mayRefuse_of_noCase h (outCase_among s 0 (8 * es.length) c)
  have heq := doPoolLend_eq i c s
  have hopen (hok : prm c 0 8 % 64 = 0) (hm : may) := heq.trans ((if_neg fun hx => (outputOk_iff _).mp hx hok).trans (if_neg fun hx => (not_poolMay_iff _).mp hx hm))
  refine ⟨fun hbad => refuses_of_mayRefuse hrow hmay (heq.trans (if_pos ((outputOk_iff _).mpr hbad))) rfl, fun hok hnot => ?_,
    fun hok hm hfull => refuses_of_mayRefuse hrow hmay ((hopen hok hm).trans (if_pos hfull)) rfl, fun hok hm hroom => ?_⟩
  · exact refuses_of_mayRefuse hrow hmay (heq.trans ((if_neg fun hx => (outputOk_iff _).mp hx hok).trans (if_pos ((not_poolMay_iff _).mpr hnot)))) rfl
  · have hdo := (hopen hok hm).trans (if_neg (Nat.not_lt.mpr hroom))
    refine ⟨fun hmet => ?_, fun hnone => answers_of_starts (after := fun v => v) hrow (starts_of_noCase h hnone) hdo ⟨?_, ?_, ?_⟩⟩
    · obtain ⟨m, hm⟩ := Option.ne_none_iff_exists'.mp hmet
      obtain rfl : m = 2 := by simpa using outCase_among s _ _ c m hm
      exact stopsAt_of_overlap hrow h hm (by rw [hdo]; rfl)
    · rw [mir_poolLent, pantry_startCmd]
    · rw [poolLent_hbm, startCmd_hbm]
    · rw [poolLent_host, startCmd_host]

/-- What POOL_RETURN leaves. -/
def poolReturned (i : InstId) (n : Nat) (s : State) : State :=
  let u := modPantry i (fun p => { p with used := p.used.filter (·.2 != .lent) }) s
  ringPush i 3 0x023 4 0 [0, n, freePages (getInst u i)] u

theorem doPoolReturn_eq (i : InstId) (c : MboxCmd) (s : State) : doPoolReturn i c (startCmd i c s) =
    (.now rOk 0 (leBytes 8 (lentPages (mir s i)).length), poolReturned i (lentPages (mir s i)).length (startCmd i c s)) := by
  unfold doPoolReturn
  dsimp only
  rw [lentPages, pantry_startCmd]
  rfl

theorem mir_poolReturned (i : InstId) (n : Nat) (s : State) :
    mir (poolReturned i n s) i = { mir s i with pantry := { used := (mir s i).pantry.used.filter (·.2 != .lent) } } := by cases i <;> rfl

theorem poolReturned_hbm (i : InstId) (n : Nat) (s : State) : (poolReturned i n s).hbm = s.hbm := by cases i <;> rfl

theorem poolReturned_host (i : InstId) (n : Nat) (s : State) : (poolReturned i n s).host = s.host := by cases i <;> rfl

theorem poolReturnCommand (h : starts i w 0x84 noCase s c = true) :
    Answers (.poolReturn i w) i c s (.now rOk 0 (leBytes 8 (lentPages (mir s i)).length)) (fun v => v) (fun v =>
      mir v i = { mir (startCmd i c s) i with pantry := { used := (mir s i).pantry.used.filter (·.2 != .lent) } } ∧ v.hbm = s.hbm ∧ v.host = s.host) := by
  refine answers_of_starts (after := fun v => v) rfl h (doPoolReturn_eq i c s) ⟨?_, ?_, ?_⟩
  · rw [mir_poolReturned, pantry_startCmd]
  · rw [poolReturned_hbm, startCmd_hbm]
  · rw [poolReturned_host, startCmd_host]

/-- Settles O29: each command's function on the started state, and what beginning Morning leaves by the footprints of its stages. -/
theorem dayAndPool : Obligations.DayAndPool := by
  unfold Obligations.DayAndPool
  refine ⟨fun i w s c => ⟨eveningCommands, eveningCompletes, morningCommand⟩, fun i w s c => ?_⟩
  intro cs es
  exact ⟨turnCostCommand, poolLendCommand, poolReturnCommand⟩

end Sys2Proof.TurnCommands

/-! SUPPORT. How a command's meaning ends (spec/00 R12, spec/17 R361): by the mirror stream's step, or with nothing that the stream would carry, or at a numbered undefined case. -/

namespace Sys2Proof.Carriage

open Sys2Proof Sys2Proof.Machine Sys2Proof.Laws Sys2Proof.Cases Sys2Proof.OutpostRules

/-! ### The cases that no earlier lemma bounds -/

theorem openCase_stops (c : MboxCmd) : Stops (openCase c) := tooWide_stops _ _
theorem closeCase_stops (c : MboxCmd) : Stops (closeCase c) := tooWide_stops _ _
theorem modelCase_stops (c : MboxCmd) : Stops (modelCase c) := overId_stops _ _
theorem morningCase_stops (c : MboxCmd) : Stops (morningCase c) := tooWide_stops _ _
theorem noCase_stops (c : MboxCmd) : Stops (noCase c) := among_none
theorem announceCase_stops (m : PeerMsg) : Stops (announceCase m) := reservedCase_stops _
theorem offerCase_stops (p : List Byte) : Stops (offerCase p) := reservedCase_stops _
theorem bouncedCase_stops (b : List Byte) : Stops (bouncedCase b) := reservedCase_stops _
theorem recordCase_stops (b : List Byte) : Stops (recordCase b) := stop_if (by decide) (reservedCase_stops _)

theorem placeCase_stops (s : State) (i : InstId) (c : MboxCmd) : Stops (placeCase s i c) :=
  among_ite among_none (stop_if (by decide) (stop_if (by decide) among_none))

theorem sqTailCase_stops (x : Ctx) (v : Nat) : Stops (sqTailCase x v) := stop_if (by decide) among_none
theorem cqHeadCase_stops (x : Ctx) (v : Nat) : Stops (cqHeadCase x v) := stop_if (by decide) among_none
theorem irqCase_stops (v : BitVec 64) : Stops (irqCase v) := stop_unless (by decide) among_none

theorem bind_stops {α : Type} {o : Option α} {f : α → Option Nat} (hf : ∀ x, Stops (f x)) : Stops (o.bind f) := by
  cases o with
  | none => exact among_none
  | some x => exact hf x

theorem writeCase_stops (s : State) (i : InstId) (a : Nat) (w : BusWrite) : Stops (writeCase s i a w) :=
  stop_if (by decide) (among_ite (bind_stops (sqTailCase_stops _)) (among_ite (bind_stops (cqHeadCase_stops _))
    (among_ite (stop_unless (by decide) among_none) among_none)))

theorem requestCase_stops (s : State) (i : InstId) (r : Request) : Stops (requestCase s i r) :=
  among_ite among_none (stop_if (by decide) (among_ite among_none (stop_if (by decide) (tokenCase_stops _ _))))

theorem arrivedCase_stops (s : State) (t : InXfer) (b : List Byte) : Stops (arrivedCase s t b) := stop_if (by decide) (tokenCase_stops _ _)

theorem bodyCase_stops (s : State) (i : InstId) (m : PeerMsg) : Stops (bodyCase s i m) := by
  unfold bodyCase
  split
  · exact among_ite (reservedCase_stops _) (recordCase_stops _)
  · exact among_none

theorem handoverCase_stops (s : State) (i : InstId) (m : PeerMsg) : Stops (handoverCase s i m) := by
  refine among_or (bodyCase_stops s i m) ?_
  split
  · exact arrivedCase_stops _ _ _
  · exact among_none

/-- A refusal is spared an overlap; every other case stays what it was. -/
theorem caseMet_stops {o : Option Nat} {a : Answer} (ho : Stops o) : Stops (caseMet o a) := among_ite among_none ho

/-! ### How a meaning ends -/

/-- Nothing has changed that a running active twin's stream would carry. -/
def Quiet (i : InstId) (s t : State) : Prop :=
  running s i = true → (getInst t i).rel.active = true → ((getInst t i).rel.mirror = .syncing ∨ (getInst t i).rel.mirror = .current) → mir t i = mir s i

/-- What a command of instance `i` answers: the stream's step ends it, or it is quiet, or it stops at a numbered case. -/
inductive Carried (i : InstId) (s : State) : Result → Prop
  | sent (t : State) : Carried i s (.next (mirrorOut i s t))
  | quiet {t : State} (h : Quiet i s t) : Carried i s (.next t)
  | stops {n : Nat} (h : n ∈ stops) : Carried i s (.fault (.undefinedCase n))

variable {i : InstId} {s t : State}

/-- The mirrored state stands. -/
theorem Carried.same (h : mir t i = mir s i) : Carried i s (.next t) := .quiet fun _ _ _ => h

theorem Carried.stay : Carried i s (.next s) := .same rfl
theorem done_carried (i : InstId) (s t : State) : Carried i s (done i s t) := .sent t
theorem settle_carried (i : InstId) (s t : State) : Carried i s (settle i s t) := .sent _
theorem endEvent_carried (i : InstId) (s t : State) : Carried i s (endEvent i s t) := .sent _

theorem ite_carried {c : Prop} [Decidable c] {r r' : Result} (h : Carried i s r) (k : Carried i s r') : Carried i s (if c then r else r') := by
  split
  · exact h
  · exact k

theorem guarded_carried {n : Option Nat} (hn : Stops n) : Carried i s (guarded i n s t) := by
  unfold guarded
  split
  · exact .stops (hn _ rfl)
  · exact settle_carried i s t

/-- A mailbox command's serving. -/
theorem serve_carried {w code : Nat} {bad : MboxCmd → Option Nat} {f : MboxCmd → State → Answer × State} (hbad : ∀ c, Stops (bad c)) :
    Carried i s (serve i w code bad f s) := by
  unfold serve
  split
  · unfold notTaken
    split
    · exact done_carried i s _
    · exact .stay
  · next c _ =>
    split
    · exact .stay
    · split
      · exact .stay
      · dsimp only
        split
        · exact endEvent_carried i s _
        · split
          · exact .stops (by decide)
          · split
            · next n hn => exact .stops (caseMet_stops (hbad c) n hn)
            · exact endEvent_carried i s _

/-- A peer message's arrival. -/
theorem receiveIf_carried {ty : Nat} {m : PeerMsg} {case' : State → Option Nat} {f : State → State} (hcase : ∀ u, Stops (case' u)) :
    Carried i s (receiveIf i ty m case' f s) := by
  unfold receiveIf
  dsimp only
  split
  · exact .stay
  · split
    · exact done_carried i s _
    · split
      · exact done_carried i s _
      · split
        · exact .stay
        · split
          · exact done_carried i s _
          · split
            · next n hn => exact .stops (among_or (reservedCase_stops _) (hcase _) n hn)
            · exact endEvent_carried i s _

theorem receive_carried (i : InstId) (ty : Nat) (m : PeerMsg) (f : State → State) (s : State) : Carried i s (receive i ty m f s) :=
  receiveIf_carried fun _ => among_none

/-- A register write. -/
theorem writeBus_carried (i : InstId) (wide : Bool) (off v : Nat) (s : State) : Carried i s (writeBus i wide off v s) := by
  unfold writeBus
  dsimp only
  split
  · exact .stops (by decide)
  · split
    · exact .stay
    · exact guarded_carried (writeCase_stops _ _ _ _)

theorem rowWrite_carried (p : Nat → Bool) (i : InstId) (wide : Bool) (off v : Nat) (s : State) : Carried i s (rowWrite p i wide off v s) := by
  unfold rowWrite
  exact ite_carried (writeBus_carried i wide off v s) .stay

theorem notRead_carried (i : InstId) (c : Nat) (s : State) : Carried i s (notRead i c s) := by
  unfold notRead
  dsimp only
  split
  · exact done_carried i s _
  · exact .stay

/-- A request of the ring. -/
theorem readSubmit_carried (i : InstId) (c : Nat) (e : List Byte) (prompt : List Nat) (stop : List Byte) (s u : State) : Carried i s (readSubmit i c e prompt stop s u) := by
  unfold readSubmit
  dsimp only
  split
  · exact .stops (by decide)
  · split
    · next n hn => exact .stops (among_or (hostWriteCase_stops _ _ _) (hostWriteCase_stops _ _ _) n hn)
    · split
      · next n hn => exact .stops (among_ite among_none (requestCase_stops _ _ _) n hn)
      · exact endEvent_carried i s _

theorem landEnd_carried (i : InstId) (s u : State) : Carried i s (landEnd i s u) := by
  unfold landEnd
  split
  · exact done_carried i s _
  · exact endEvent_carried i s u

/-- A summary of a pass. -/
theorem takeSum_carried (i : InstId) (o : Nat) (stage : LandStage) (p : UpMsg → Bool) (act : LandRow → List (Nat × UpMsg) → State → State) (s : State) :
    Carried i s (takeSum i o stage p act s) := by
  unfold takeSum
  split
  · exact .stay
  · dsimp only
    split
    · exact done_carried i s _
    · split
      · exact .stay
      · split
        · exact done_carried i s _
        · split
          · exact landEnd_carried i s _
          · exact done_carried i s _

theorem staleTimer_carried (i : InstId) (list subject : Nat) (s : State) : Carried i s (staleTimer i list subject s) := by
  unfold staleTimer
  dsimp only
  split
  · exact done_carried i s _
  · exact .stay

theorem retryMigration_carried (i : InstId) (x : OutXfer) (s : State) : Carried i s (retryMigration i x s) := by
  unfold retryMigration
  dsimp only
  split
  · exact done_carried i s _
  · split
    · exact done_carried i s _
    · exact done_carried i s _

theorem timeoutMigration_carried (i : InstId) (x : OutXfer) (s : State) : Carried i s (timeoutMigration i x s) := by
  unfold timeoutMigration
  dsimp only
  split
  · exact done_carried i s _
  · split
    · exact done_carried i s _
    · split
      · exact done_carried i s _
      · exact endEvent_carried i s _

/-! ### The outposts' own commands write no mirrored state -/

theorem mir_modOutpost (o : Nat) (f : Outpost → Outpost) (s : State) : mir (modOutpost o f s) i = mir s i := by cases i <;> rfl
theorem mir_discardDown (j : InstId) (s : State) : mir (discardDown j s) i = mir s i := by cases i <;> cases j <;> rfl

theorem takeDown_carried (o : Nat) (p : DownMsg → Bool) (f : DownMsg → OutRow → OutRow) (s : State) : Carried i s (takeDown o p f s) := by
  unfold takeDown
  split
  · exact .stay
  · dsimp only
    split
    · exact .same ((mir_modOutpost _ _ _).trans (mir_modOutpost _ _ _))
    · exact .same ((mir_discardDown _ _).trans (mir_modOutpost _ _ _))

/-! ### The rows -/

theorem execTokenCommit_carried (i : InstId) (lid : Nat) (s : State) : Carried i s (execTokenCommit i lid s) := by
  unfold execTokenCommit
  repeat' first | exact endEvent_carried _ _ _ | exact .stay | exact .stops (by decide) | dsimp only | split

theorem execStopCheck_carried (i : InstId) (lid : Nat) (s : State) : Carried i s (execStopCheck i lid s) := by
  unfold execStopCheck
  split
  · exact endEvent_carried _ _ _
  · exact .stay

theorem execKill_carried (i : InstId) (lid : Nat) (s : State) : Carried i s (execKill i lid s) := by
  unfold execKill
  split
  · exact endEvent_carried _ _ _
  · exact .stay

theorem execAdmitSeq_carried (i : InstId) (lid : Nat) (s : State) : Carried i s (execAdmitSeq i lid s) := by
  unfold execAdmitSeq
  split
  · exact endEvent_carried _ _ _
  · exact .stay

theorem execWarm_carried (i : InstId) (lid : Nat) (s : State) : Carried i s (execWarm i lid s) := by
  unfold execWarm
  split
  · exact endEvent_carried _ _ _
  · exact .stay

theorem execCool_carried (i : InstId) (lid : Nat) (s : State) : Carried i s (execCool i lid s) := by
  unfold execCool
  split
  · exact endEvent_carried _ _ _
  · exact .stay

theorem execEvictionPark_carried (i : InstId) (lid : Nat) (s : State) : Carried i s (execEvictionPark i lid s) := by
  unfold execEvictionPark
  split
  · exact endEvent_carried _ _ _
  · exact .stay

theorem execEvictionResume_carried (i : InstId) (lid : Nat) (s : State) : Carried i s (execEvictionResume i lid s) := by
  unfold execEvictionResume
  repeat' first | exact endEvent_carried _ _ _ | exact .stay | dsimp only | split

theorem execKvInvalidation_carried (i : InstId) (lid : Nat) (s : State) : Carried i s (execKvInvalidation i lid s) := by
  unfold execKvInvalidation
  split
  · exact endEvent_carried _ _ _
  · exact .stay

theorem execSequenceCancel_carried (i : InstId) (lid : Nat) (s : State) : Carried i s (execSequenceCancel i lid s) := by
  unfold execSequenceCancel
  split
  · exact endEvent_carried _ _ _
  · exact .stay

theorem execSequencePark_carried (i : InstId) (lid : Nat) (s : State) : Carried i s (execSequencePark i lid s) := by
  unfold execSequencePark
  split
  · exact endEvent_carried _ _ _
  · exact .stay

theorem execSequenceResume_carried (i : InstId) (lid : Nat) (s : State) : Carried i s (execSequenceResume i lid s) := by
  unfold execSequenceResume
  split
  · exact endEvent_carried _ _ _
  · exact .stay

theorem execSequenceExtend_carried (i : InstId) (lid : Nat) (s : State) : Carried i s (execSequenceExtend i lid s) := by
  unfold execSequenceExtend
  split
  · exact endEvent_carried _ _ _
  · exact .stay

theorem execForceRun_carried (i : InstId) (lid : Nat) (s : State) : Carried i s (execForceRun i lid s) := by
  unfold execForceRun
  repeat' first | exact endEvent_carried _ _ _ | exact .stay | split

theorem execMidnightEvent_carried (i : InstId) (lid : Nat) (s : State) : Carried i s (execMidnightEvent i lid s) := by
  unfold execMidnightEvent
  split
  · exact endEvent_carried _ _ _
  · exact .stay

theorem execEpochAbort_carried (i : InstId) (lid : Nat) (s : State) : Carried i s (execEpochAbort i lid s) := by
  unfold execEpochAbort
  split
  · exact endEvent_carried _ _ _
  · exact .stay

theorem execEveningEvent_carried (i : InstId) (lid : Nat) (s : State) : Carried i s (execEveningEvent i lid s) := by
  unfold execEveningEvent
  split
  · exact endEvent_carried _ _ _
  · exact .stay

theorem execMorningEvent_carried (i : InstId) (lid : Nat) (s : State) : Carried i s (execMorningEvent i lid s) := by
  unfold execMorningEvent
  repeat' first | exact endEvent_carried _ _ _ | exact .stay | split

theorem execBroadcastSweep_carried (i : InstId) (lid : Nat) (s : State) : Carried i s (execBroadcastSweep i lid s) := by
  unfold execBroadcastSweep
  exact ite_carried (done_carried _ _ _) .stay

theorem execHousehold_carried (i : InstId) (lid : Nat) (s : State) : Carried i s (execHousehold i lid s) := by
  unfold execHousehold
  split
  · exact endEvent_carried _ _ _
  · exact .stay

theorem execTeardown_carried (i : InstId) (lid : Nat) (s : State) : Carried i s (execTeardown i lid s) := by
  unfold execTeardown
  split
  · exact endEvent_carried _ _ _
  · exact .stay

theorem execPlanReady_carried (i : InstId) (lid : Nat) (s : State) : Carried i s (execPlanReady i lid s) := by
  unfold execPlanReady
  split
  · exact endEvent_carried _ _ _
  · exact .stay

theorem execDeadlineEntry_carried (i : InstId) (lid : Nat) (s : State) : Carried i s (execDeadlineEntry i lid s) := by
  unfold execDeadlineEntry
  repeat' first | exact endEvent_carried _ _ _ | exact done_carried _ _ _ | dsimp only | split

theorem execParkWake_carried (i : InstId) (lid : Nat) (s : State) : Carried i s (execParkWake i lid s) := by
  unfold execParkWake
  repeat' first | exact endEvent_carried _ _ _ | exact done_carried _ _ _ | dsimp only | split

theorem execComposeStep_carried (i : InstId) (fuse : Bool) (s : State) : Carried i s (execComposeStep i fuse s) := by
  unfold execComposeStep
  repeat' first | exact endEvent_carried _ _ _ | exact .stay | dsimp only | split

theorem execWaveLandedNotice_carried (i : InstId) (die step wave : Nat) (s : State) : Carried i s (execWaveLandedNotice i die step wave s) := by
  unfold execWaveLandedNotice
  repeat' first | exact done_carried _ _ _ | exact .stay | dsimp only | split

theorem execCompletionNotice_carried (i : InstId) (die step : Nat) (s : State) : Carried i s (execCompletionNotice i die step s) := by
  unfold execCompletionNotice
  repeat' first | exact done_carried _ _ _ | exact .stay | split

theorem execKillAcknowledgement_carried (i : InstId) (die step : Nat) (s : State) : Carried i s (execKillAcknowledgement i die step s) := by
  unfold execKillAcknowledgement
  repeat' first | exact done_carried _ _ _ | exact .stay | split

theorem execKernelFault_carried (i : InstId) (die step : Nat) (s : State) : Carried i s (execKernelFault i die step s) := by
  unfold execKernelFault
  repeat' first | exact endEvent_carried _ _ _ | exact done_carried _ _ _ | exact .stay | dsimp only | split

theorem execCommitPoint_carried (i : InstId) (step : Nat) (s : State) : Carried i s (execCommitPoint i step s) := by
  unfold execCommitPoint
  repeat' first | exact done_carried _ _ _ | exact .stay | dsimp only | split

theorem execLatchRelease_carried (i : InstId) (latch : Nat) (s : State) : Carried i s (execLatchRelease i latch s) := by
  unfold execLatchRelease
  exact ite_carried (done_carried _ _ _) .stay

theorem execMidnight_carried (i : InstId) (m : Nat) (s : State) : Carried i s (execMidnight i m s) := by
  unfold execMidnight
  exact ite_carried (endEvent_carried _ _ _) .stay

theorem execMaxResult_carried (i : InstId) (o : Nat) (s : State) : Carried i s (execMaxResult o s) :=
  takeDown_carried _ _ _ _

theorem execRoundReq_carried (i : InstId) (o : Nat) (s : State) : Carried i s (execRoundReq o s) :=
  takeDown_carried _ _ _ _

theorem execCut_carried (i : InstId) (o : Nat) (s : State) : Carried i s (execCut o s) :=
  takeDown_carried _ _ _ _

theorem execQuotas_carried (i : InstId) (o : Nat) (s : State) : Carried i s (execQuotas o s) :=
  takeDown_carried _ _ _ _

theorem execLocate_carried (i : InstId) (o : Nat) (s : State) : Carried i s (execLocate o s) :=
  takeDown_carried _ _ _ _

theorem execMaxSum_carried (i : InstId) (o : Nat) (s : State) : Carried i s (execMaxSum i o s) :=
  takeSum_carried _ _ _ _ _ _

theorem execMassSum_carried (i : InstId) (o : Nat) (s : State) : Carried i s (execMassSum i o s) :=
  takeSum_carried _ _ _ _ _ _

theorem execRoundSum_carried (i : InstId) (o : Nat) (s : State) : Carried i s (execRoundSum i o s) :=
  takeSum_carried _ _ _ _ _ _

theorem execKeptSum_carried (i : InstId) (o : Nat) (s : State) : Carried i s (execKeptSum i o s) := by
  unfold execKeptSum
  repeat' first | exact takeSum_carried _ _ _ _ _ _ | split

theorem execRaceSum_carried (i : InstId) (o : Nat) (s : State) : Carried i s (execRaceSum i o s) :=
  takeSum_carried _ _ _ _ _ _

theorem execLocated_carried (i : InstId) (o : Nat) (s : State) : Carried i s (execLocated i o s) := by
  unfold execLocated
  repeat' first | exact done_carried _ _ _ | exact .stay | exact landEnd_carried _ _ _ | dsimp only | split

theorem execParity_carried (i : InstId) (o : Nat) (s : State) : Carried i s (execParity i o s) := by
  unfold execParity
  repeat' first | exact endEvent_carried _ _ _ | exact done_carried _ _ _ | exact .stay | dsimp only | split

theorem execMailboxGo_carried (i : InstId) (w : Nat) (s : State) : Carried i s (execMailboxGo i w s) := by
  unfold execMailboxGo
  exact ite_carried (done_carried _ _ _) .stay

theorem execResHeadWrite_carried (i : InstId) (w v : Nat) (s : State) : Carried i s (execResHeadWrite i w v s) := by
  unfold execResHeadWrite
  exact ite_carried (done_carried _ _ _) .stay

theorem execMailboxGoTaken_carried (i : InstId) (w : Nat) (s : State) : Carried i s (execMailboxGoTaken i w s) := by
  unfold execMailboxGoTaken
  repeat' first | exact done_carried _ _ _ | exact .stay | exact .stops (by decide) | dsimp only | split

theorem execClass0Reserve_carried (i : InstId) (w : Nat) (s : State) : Carried i s (execClass0Reserve i w s) :=
  serve_carried noCase_stops

theorem execContextOpen_carried (i : InstId) (w : Nat) (s : State) : Carried i s (execContextOpen i w s) :=
  serve_carried openCase_stops

theorem execContextConfigure_carried (i : InstId) (w : Nat) (s : State) : Carried i s (execContextConfigure i w s) :=
  serve_carried openCase_stops

theorem execContextClose_carried (i : InstId) (w : Nat) (s : State) : Carried i s (execContextClose i w s) :=
  serve_carried closeCase_stops

theorem execContextCloseDone_carried (i : InstId) (c : Nat) (s : State) : Carried i s (execContextCloseDone i c s) := by
  unfold execContextCloseDone
  repeat' first | exact done_carried _ _ _ | exact .stay | dsimp only | split

theorem execContextQuery_carried (i : InstId) (w : Nat) (s : State) : Carried i s (execContextQuery i w s) :=
  serve_carried (fun c => outCase_stops s _ _ c)

theorem execSqTailDoorbell_carried (i : InstId) (c v : Nat) (s : State) : Carried i s (execSqTailDoorbell i c v s) := by
  unfold execSqTailDoorbell
  repeat' first | exact .stay | exact guarded_carried (sqTailCase_stops _ _) | split

theorem execCqHeadWrite_carried (i : InstId) (c v : Nat) (s : State) : Carried i s (execCqHeadWrite i c v s) := by
  unfold execCqHeadWrite
  repeat' first | exact .stay | exact guarded_carried (cqHeadCase_stops _ _) | split

theorem execIrqStatusClear_carried (i : InstId) (wide : Bool) (off v : Nat) (s : State) : Carried i s (execIrqStatusClear i wide off v s) := by
  unfold execIrqStatusClear
  repeat' first | exact .stay | exact .stops (by decide) | exact guarded_carried (irqCase_stops _) | dsimp only | split

theorem execIrqEnableWrite_carried (i : InstId) (wide : Bool) (off v : Nat) (s : State) : Carried i s (execIrqEnableWrite i wide off v s) := by
  unfold execIrqEnableWrite
  repeat' first | exact .stay | exact .stops (by decide) | exact guarded_carried (irqCase_stops _) | dsimp only | split

theorem execCqRingWrite_carried (i : InstId) (c : Nat) (s : State) : Carried i s (execCqRingWrite i c s) := by
  unfold execCqRingWrite
  repeat' first | exact .stay | exact settle_carried _ _ _ | dsimp only | split

theorem execSubmitEntry_carried (i : InstId) (c : Nat) (entry : List Byte) (prompt : List Nat) (stop : List Byte) (s : State) : Carried i s (execSubmitEntry i c entry prompt stop s) := by
  unfold execSubmitEntry
  repeat' first | exact .stay | exact notRead_carried _ _ _ | exact readSubmit_carried _ _ _ _ _ _ _ | dsimp only | split

theorem execSqNop_carried (i : InstId) (c : Nat) (entry : List Byte) (s : State) : Carried i s (execSqNop i c entry s) := by
  unfold execSqNop
  repeat' first | exact done_carried _ _ _ | exact .stay | exact .stops (by decide) | exact notRead_carried _ _ _ | dsimp only | split

theorem execSqBadKind_carried (i : InstId) (c : Nat) (entry : List Byte) (s : State) : Carried i s (execSqBadKind i c entry s) := by
  unfold execSqBadKind
  repeat' first | exact done_carried _ _ _ | exact .stay | exact .stops (by decide) | exact notRead_carried _ _ _ | dsimp only | split

theorem execFoyerReevaluation_carried (i : InstId) (s : State) : Carried i s (execFoyerReevaluation i s) := by
  unfold execFoyerReevaluation
  repeat' first | exact endEvent_carried _ _ _ | exact done_carried _ _ _ | dsimp only | split

theorem execDeferLimitExpiry_carried (i : InstId) (c : Nat) (s : State) : Carried i s (execDeferLimitExpiry i c s) := by
  unfold execDeferLimitExpiry
  repeat' first | exact endEvent_carried _ _ _ | exact done_carried _ _ _ | dsimp only | split

theorem execContext_carried (i : InstId) (c : Nat) (s : State) : Carried i s (execContext i c s) := by
  unfold execContext
  repeat' first | exact endEvent_carried _ _ _ | exact .stay | split

theorem execDmaError_carried (i : InstId) (c : Nat) (s : State) : Carried i s (execDmaError i c s) := by
  unfold execDmaError
  exact ite_carried (endEvent_carried _ _ _) .stay

theorem execTeardownComplete_carried (i : InstId) (c : Nat) (s : State) : Carried i s (execTeardownComplete i c s) := by
  unfold execTeardownComplete
  exact ite_carried (endEvent_carried _ _ _) .stay

theorem execAnnounce_carried (i : InstId) (msg : PeerMsg) (s : State) : Carried i s (execAnnounce i msg s) :=
  receiveIf_carried fun _ => announceCase_stops _

theorem execAnnounceReply_carried (i : InstId) (msg : PeerMsg) (s : State) : Carried i s (execAnnounceReply i msg s) :=
  receiveIf_carried fun _ => announceCase_stops _

theorem execAccept_carried (i : InstId) (msg : PeerMsg) (s : State) : Carried i s (execAccept i msg s) :=
  receiveIf_carried fun _ => reservedCase_stops _

theorem execRefuse_carried (i : InstId) (msg : PeerMsg) (s : State) : Carried i s (execRefuse i msg s) :=
  receive_carried _ _ _ _ _

theorem execDataAck_carried (i : InstId) (msg : PeerMsg) (s : State) : Carried i s (execDataAck i msg s) :=
  receive_carried _ _ _ _ _

theorem execAck_carried (i : InstId) (msg : PeerMsg) (s : State) : Carried i s (execAck i msg s) :=
  receive_carried _ _ _ _ _

theorem execNak_carried (i : InstId) (msg : PeerMsg) (s : State) : Carried i s (execNak i msg s) :=
  receive_carried _ _ _ _ _

theorem execOffer_carried (i : InstId) (msg : PeerMsg) (s : State) : Carried i s (execOffer i msg s) :=
  receiveIf_carried fun _ => offerCase_stops _

theorem execDataMsg_carried (i : InstId) (msg : PeerMsg) (s : State) : Carried i s (execDataMsg i msg s) :=
  receiveIf_carried fun _ => among_ite (bodyCase_stops _ _ _) among_none

theorem execHandover_carried (i : InstId) (msg : PeerMsg) (s : State) : Carried i s (execHandover i msg s) :=
  receiveIf_carried fun _ => handoverCase_stops _ _ _

theorem execAbandon_carried (i : InstId) (msg : PeerMsg) (s : State) : Carried i s (execAbandon i msg s) :=
  receive_carried _ _ _ _ _

theorem execBounce_carried (i : InstId) (msg : PeerMsg) (s : State) : Carried i s (execBounce i msg s) :=
  receiveIf_carried fun _ => bouncedCase_stops _

theorem execMigrateOut_carried (i : InstId) (lid : Nat) (s : State) : Carried i s (execMigrateOut i lid s) := by
  unfold execMigrateOut
  split
  · exact endEvent_carried _ _ _
  · exact .stay

theorem execMigrateAck_carried (i : InstId) (lid : Nat) (s : State) : Carried i s (execMigrateAck i lid s) := by
  unfold execMigrateAck
  split
  · exact endEvent_carried _ _ _
  · exact .stay

theorem execMigrateFail_carried (i : InstId) (lid : Nat) (s : State) : Carried i s (execMigrateFail i lid s) := by
  unfold execMigrateFail
  split
  · exact endEvent_carried _ _ _
  · exact .stay

theorem execMigrateIn_carried (i : InstId) (lid : Nat) (s : State) : Carried i s (execMigrateIn i lid s) := by
  unfold execMigrateIn
  split
  · exact endEvent_carried _ _ _
  · exact .stay

theorem execMigrateDone_carried (i : InstId) (lid : Nat) (s : State) : Carried i s (execMigrateDone i lid s) := by
  unfold execMigrateDone
  split
  · exact endEvent_carried _ _ _
  · exact .stay

theorem execMigrationRetry_carried (i : InstId) (subject : Nat) (s : State) : Carried i s (execMigrationRetry i subject s) := by
  unfold execMigrationRetry
  repeat' first | exact endEvent_carried _ _ _ | exact .stay | exact staleTimer_carried _ _ _ _ | exact retryMigration_carried _ _ _ | split

theorem execMigrationTimeout_carried (i : InstId) (subject : Nat) (s : State) : Carried i s (execMigrationTimeout i subject s) := by
  unfold execMigrationTimeout
  repeat' first | exact endEvent_carried _ _ _ | exact .stay | exact staleTimer_carried _ _ _ _ | exact timeoutMigration_carried _ _ _ | split

theorem execArrivalTimeout_carried (i : InstId) (subject : Nat) (s : State) : Carried i s (execArrivalTimeout i subject s) := by
  unfold execArrivalTimeout
  repeat' first | exact endEvent_carried _ _ _ | exact .stay | split

theorem execMailboxCommandTimeout_carried (i : InstId) (core : Nat) (s : State) : Carried i s (execMailboxCommandTimeout i core s) := by
  unfold execMailboxCommandTimeout
  repeat' first | exact done_carried _ _ _ | dsimp only | split

theorem execDuskSpillRefill_carried (i : InstId) (list : Nat) (s : State) : Carried i s (execDuskSpillRefill i list s) := by
  unfold execDuskSpillRefill
  repeat' first | exact done_carried _ _ _ | exact .stay | dsimp only | split

theorem execReorderRelease_carried (i : InstId) (s : State) : Carried i s (execReorderRelease i s) := by
  unfold execReorderRelease
  repeat' first | exact done_carried _ _ _ | exact .stay | dsimp only | split

theorem execDirectionsSet_carried (i : InstId) (w : Nat) (list : List Byte) (s : State) : Carried i s (execDirectionsSet i w list s) :=
  serve_carried (fun c => (directionsCase_among _ _ c).mono (by decide))

theorem execRecipeDefine_carried (i : InstId) (w : Nat) (img : List Byte) (s : State) : Carried i s (execRecipeDefine i w img s) :=
  serve_carried (fun c => (recipeCase_among _ _ _ c).mono (by decide))

theorem execRecipeUndefine_carried (i : InstId) (w : Nat) (s : State) : Carried i s (execRecipeUndefine i w s) :=
  serve_carried (fun c => (undefineCase_among _ c).mono (by decide))

theorem execPlanRegister_carried (i : InstId) (w : Nat) (s : State) : Carried i s (execPlanRegister i w s) :=
  serve_carried (fun c => (planCase_among _ c).mono (by decide))

theorem execPlanUnregister_carried (i : InstId) (w : Nat) (s : State) : Carried i s (execPlanUnregister i w s) :=
  serve_carried noCase_stops

theorem execPlanQuery_carried (i : InstId) (w : Nat) (s : State) : Carried i s (execPlanQuery i w s) :=
  serve_carried noCase_stops

theorem execCancel_carried (i : InstId) (w : Nat) (s : State) : Carried i s (execCancel i w s) :=
  serve_carried (fun c => (cancelCase_among c).mono (by decide))

theorem execPark_carried (i : InstId) (w : Nat) (s : State) : Carried i s (execPark i w s) :=
  serve_carried (fun c => (orderCase_among _ c).mono (by decide))

theorem execResume_carried (i : InstId) (w : Nat) (s : State) : Carried i s (execResume i w s) :=
  serve_carried (fun c => (orderCase_among _ c).mono (by decide))

theorem execExtend_carried (i : InstId) (w : Nat) (toks : List Nat) (s : State) : Carried i s (execExtend i w toks s) :=
  serve_carried (fun c => (extendCase_among _ _ _ c).mono (by decide))

theorem execQuerySequence_carried (i : InstId) (w : Nat) (s : State) : Carried i s (execQuerySequence i w s) :=
  serve_carried (fun c => (queryCase_among _ c).mono (by decide))

theorem execMigrate_carried (i : InstId) (w : Nat) (s : State) : Carried i s (execMigrate i w s) :=
  serve_carried (fun c => (migrateCase_among c).mono (by decide))

theorem execModelDescribe_carried (i : InstId) (w : Nat) (desc : List Byte) (s : State) : Carried i s (execModelDescribe i w desc s) :=
  serve_carried (fun c => (describeCase_among _ _ c).mono (by decide))

theorem execModelQuery_carried (i : InstId) (w : Nat) (s : State) : Carried i s (execModelQuery i w s) :=
  serve_carried (fun c => among_or (modelCase_stops c) (outCase_stops s _ _ c))

theorem execModelForget_carried (i : InstId) (w : Nat) (s : State) : Carried i s (execModelForget i w s) :=
  serve_carried modelCase_stops

theorem execModelLoaded_carried (i : InstId) (w : Nat) (s : State) : Carried i s (execModelLoaded i w s) :=
  serve_carried modelCase_stops

theorem execModelLoadDeclined_carried (i : InstId) (w : Nat) (s : State) : Carried i s (execModelLoadDeclined i w s) :=
  serve_carried modelCase_stops

theorem execModelUnloaded_carried (i : InstId) (w : Nat) (s : State) : Carried i s (execModelUnloaded i w s) :=
  serve_carried modelCase_stops

theorem execModelPin_carried (i : InstId) (w : Nat) (s : State) : Carried i s (execModelPin i w s) :=
  serve_carried modelCase_stops

theorem execEpochStage_carried (i : InstId) (w : Nat) (desc : List Byte) (s : State) : Carried i s (execEpochStage i w desc s) :=
  serve_carried (fun c => (stageCase_among _ _ c).mono (by decide))

theorem execEpochReady_carried (i : InstId) (w : Nat) (s : State) : Carried i s (execEpochReady i w s) :=
  serve_carried modelCase_stops

theorem execEpochCommit_carried (i : InstId) (w : Nat) (s : State) : Carried i s (execEpochCommit i w s) :=
  serve_carried modelCase_stops

theorem execEpochUnstage_carried (i : InstId) (w : Nat) (s : State) : Carried i s (execEpochUnstage i w s) :=
  serve_carried modelCase_stops

theorem execEpochRetire_carried (i : InstId) (w : Nat) (s : State) : Carried i s (execEpochRetire i w s) :=
  serve_carried modelCase_stops

theorem execEvening_carried (i : InstId) (w : Nat) (s : State) : Carried i s (execEvening i w s) :=
  serve_carried noCase_stops

theorem execEveningComplete_carried (i : InstId) (s : State) : Carried i s (execEveningComplete i s) := by
  unfold execEveningComplete
  repeat' first | exact done_carried _ _ _ | exact .stay | dsimp only | split

theorem execMorning_carried (i : InstId) (w : Nat) (s : State) : Carried i s (execMorning i w s) :=
  serve_carried morningCase_stops

theorem execTurnCost_carried (i : InstId) (w : Nat) (s : State) : Carried i s (execTurnCost i w s) :=
  serve_carried (fun c => outCase_stops s _ _ c)

theorem execPoolLend_carried (i : InstId) (w : Nat) (s : State) : Carried i s (execPoolLend i w s) :=
  serve_carried (fun c => outCase_stops s _ _ c)

theorem execPoolReturn_carried (i : InstId) (w : Nat) (s : State) : Carried i s (execPoolReturn i w s) :=
  serve_carried noCase_stops

theorem execDigestPair_carried (i : InstId) (s : State) : Carried i s (execDigestPair i s) := by
  unfold execDigestPair
  repeat' first | exact done_carried _ _ _ | exact .stay | split

theorem execJournalFlush_carried (i : InstId) (s : State) : Carried i s (execJournalFlush i s) := by
  unfold execJournalFlush
  repeat' first | exact done_carried _ _ _ | exact .stay | dsimp only | split

theorem execFlushDeferExpiry_carried (i : InstId) (s : State) : Carried i s (execFlushDeferExpiry i s) := by
  unfold execFlushDeferExpiry
  repeat' first | exact done_carried _ _ _ | exact .stay | dsimp only | split

theorem execFlushComplete_carried (i : InstId) (s : State) : Carried i s (execFlushComplete i s) := by
  unfold execFlushComplete
  exact ite_carried (done_carried _ _ _) .stay

theorem execBulkImageDurable_carried (i : InstId) (s : State) : Carried i s (execBulkImageDurable i s) := by
  unfold execBulkImageDurable
  exact ite_carried (done_carried _ _ _) .stay

theorem execBulkImageStart_carried (i : InstId) (s : State) : Carried i s (execBulkImageStart i s) := by
  unfold execBulkImageStart
  repeat' first | exact done_carried _ _ _ | exact .stay | dsimp only | split

theorem execDriveCompletion_carried (i : InstId) (ok : Bool) (s : State) : Carried i s (execDriveCompletion i ok s) := by
  unfold execDriveCompletion
  repeat' first | exact done_carried _ _ _ | exact .stay | dsimp only | split

theorem execDriveTimeout_carried (i : InstId) (s : State) : Carried i s (execDriveTimeout i s) := by
  unfold execDriveTimeout
  repeat' first | exact done_carried _ _ _ | exact .stay | dsimp only | split

theorem execSnapshot_carried (i : InstId) (w : Nat) (s : State) : Carried i s (execSnapshot i w s) :=
  serve_carried (fun _ => tooWide_stops _ _)

theorem execLossBound_carried (i : InstId) (w : Nat) (s : State) : Carried i s (execLossBound i w s) :=
  serve_carried noCase_stops

theorem execDriveRetry_carried (i : InstId) (w : Nat) (s : State) : Carried i s (execDriveRetry i w s) :=
  serve_carried noCase_stops

theorem execHeartbeatLost_carried (i : InstId) (s : State) : Carried i s (execHeartbeatLost i s) := by
  unfold execHeartbeatLost
  repeat' first | exact done_carried _ _ _ | exact .stay | dsimp only | split

theorem execClaimRefused_carried (i : InstId) (s : State) : Carried i s (execClaimRefused i s) := by
  unfold execClaimRefused
  repeat' first | exact endEvent_carried _ _ _ | exact .stay | dsimp only | split

theorem execLinkCreditsReturned_carried (i : InstId) (n : Nat) (s : State) : Carried i s (execLinkCreditsReturned i n s) := done_carried _ _ _

theorem execPlaceRegion_carried (i : InstId) (w : Nat) (s : State) : Carried i s (execPlaceRegion i w s) :=
  serve_carried (placeCase_stops s i)

theorem execDriveRange_carried (i : InstId) (w : Nat) (s : State) : Carried i s (execDriveRange i w s) :=
  serve_carried noCase_stops

theorem execIdentity_carried (i : InstId) (w : Nat) (s : State) : Carried i s (execIdentity i w s) :=
  serve_carried (fun _ => overId_stops _ _)

theorem execPairing_carried (i : InstId) (w : Nat) (s : State) : Carried i s (execPairing i w s) :=
  serve_carried noCase_stops

theorem execHostTrims_carried (i : InstId) (w : Nat) (table : List Byte) (s : State) : Carried i s (execHostTrims i w table s) :=
  serve_carried (fun c => (trimsCase_among _ _ c).mono (by decide))

theorem execDawnComplete_carried (i : InstId) (w : Nat) (s : State) : Carried i s (execDawnComplete i w s) :=
  serve_carried noCase_stops

theorem execDiscoveryComplete_carried (i : InstId) (s : State) : Carried i s (execDiscoveryComplete i s) := by
  unfold execDiscoveryComplete
  exact ite_carried (endEvent_carried _ _ _) .stay

theorem execDiscoveryTimeout_carried (i : InstId) (s : State) : Carried i s (execDiscoveryTimeout i s) := by
  unfold execDiscoveryTimeout
  repeat' first | exact endEvent_carried _ _ _ | exact .stay | dsimp only | split

theorem execWatchdogExpiry_carried (i : InstId) (loss : CoreLoss) (s : State) : Carried i s (execWatchdogExpiry i loss s) := by
  unfold execWatchdogExpiry
  repeat' first | exact endEvent_carried _ _ _ | exact done_carried _ _ _ | exact .stay | dsimp only | split

theorem execCoreRestartDone_carried (i : InstId) (core : Nat) (s : State) : Carried i s (execCoreRestartDone i core s) := by
  unfold execCoreRestartDone
  repeat' first | exact done_carried _ _ _ | exact .stay | dsimp only | split

theorem execUncorrectableEcc_carried (i : InstId) (site : EccSite) (s : State) : Carried i s (execUncorrectableEcc i site s) := by
  unfold execUncorrectableEcc
  repeat' first | exact endEvent_carried _ _ _ | exact .stay | split

theorem execImageWrite_carried (i : InstId) (w : Nat) (img : List Byte) (s : State) : Carried i s (execImageWrite i w img s) :=
  serve_carried (fun c => (imageCase_among _ _ c).mono (by decide))

theorem execImageProgramDone_carried (i : InstId) (ok : Bool) (s : State) : Carried i s (execImageProgramDone i ok s) := by
  unfold execImageProgramDone
  repeat' first | exact done_carried _ _ _ | exact .stay | dsimp only | split

theorem execFirmwareConfirm_carried (i : InstId) (w : Nat) (s : State) : Carried i s (execFirmwareConfirm i w s) :=
  serve_carried noCase_stops

theorem execRestore_carried (i : InstId) (w : Nat) (s : State) : Carried i s (execRestore i w s) :=
  serve_carried (fun _ => tooWide_stops _ _)

theorem execRestoreComplete_carried (i : InstId) (s : State) : Carried i s (execRestoreComplete i s) := by
  unfold execRestoreComplete
  repeat' first | exact endEvent_carried _ _ _ | exact done_carried _ _ _ | exact .stay | exact .stops (by decide) | dsimp only | split

theorem execTrace_carried (i : InstId) (w : Nat) (s : State) : Carried i s (execTrace i w s) :=
  serve_carried noCase_stops

theorem execTraceDrained_carried (i : InstId) (s : State) : Carried i s (execTraceDrained i s) := done_carried _ _ _

theorem execTraceSync_carried (i : InstId) (s : State) : Carried i s (execTraceSync i s) := by
  unfold execTraceSync
  exact ite_carried (done_carried _ _ _) .stay

theorem execCounters_carried (i : InstId) (w : Nat) (s : State) : Carried i s (execCounters i w s) :=
  serve_carried (fun c => among_ite among_none (outCase_stops s _ _ c))

theorem execWatch_carried (i : InstId) (w : Nat) (s : State) : Carried i s (execWatch i w s) :=
  serve_carried (fun c => (watchCase_among _ c).mono (by decide))

theorem execGraphBuild_carried (i : InstId) (s : State) : Carried i s (execGraphBuild i s) := by
  unfold execGraphBuild
  exact ite_carried (done_carried _ _ _) .stay

theorem execKitchenLimitWrite_carried (i : InstId) (wide : Bool) (off v : Nat) (s : State) : Carried i s (execKitchenLimitWrite i wide off v s) :=
  rowWrite_carried _ _ _ _ _ _

theorem execPageHeadroomWrite_carried (i : InstId) (wide : Bool) (v : Nat) (s : State) : Carried i s (execPageHeadroomWrite i wide v s) :=
  writeBus_carried _ _ _ _ _

theorem execCoolMarkWrite_carried (i : InstId) (wide : Bool) (v : Nat) (s : State) : Carried i s (execCoolMarkWrite i wide v s) :=
  writeBus_carried _ _ _ _ _

theorem execEpochRetiredClear_carried (i : InstId) (wide : Bool) (off v : Nat) (s : State) : Carried i s (execEpochRetiredClear i wide off v s) :=
  rowWrite_carried _ _ _ _ _ _

theorem execFenceMaskWrite_carried (i : InstId) (o : Nat) (wide : Bool) (v : Nat) (s : State) : Carried i s (execFenceMaskWrite i o wide v s) :=
  writeBus_carried _ _ _ _ _

theorem execFenceRefusedClear_carried (i : InstId) (o : Nat) (wide : Bool) (v : Nat) (s : State) : Carried i s (execFenceRefusedClear i o wide v s) :=
  writeBus_carried _ _ _ _ _

theorem execWdogExpiredClear_carried (i : InstId) (wide : Bool) (v : Nat) (s : State) : Carried i s (execWdogExpiredClear i wide v s) :=
  writeBus_carried _ _ _ _ _

theorem execLatchConfigWrite_carried (i : InstId) (wide : Bool) (off v : Nat) (s : State) : Carried i s (execLatchConfigWrite i wide off v s) :=
  rowWrite_carried _ _ _ _ _ _

theorem execStairwellTimingWrite_carried (i : InstId) (wide : Bool) (off v : Nat) (s : State) : Carried i s (execStairwellTimingWrite i wide off v s) :=
  rowWrite_carried _ _ _ _ _ _

theorem execInjectionSeedWrite_carried (i : InstId) (wide : Bool) (v : Nat) (s : State) : Carried i s (execInjectionSeedWrite i wide v s) :=
  writeBus_carried _ _ _ _ _

theorem execTraceRpWrite_carried (i : InstId) (wide : Bool) (off v : Nat) (s : State) : Carried i s (execTraceRpWrite i wide off v s) :=
  rowWrite_carried _ _ _ _ _ _

theorem execDumpRequest_carried (i : InstId) (wide : Bool) (v : Nat) (s : State) : Carried i s (execDumpRequest i wide v s) :=
  writeBus_carried _ _ _ _ _

theorem execDumpAck_carried (i : InstId) (wide : Bool) (v : Nat) (s : State) : Carried i s (execDumpAck i wide v s) :=
  writeBus_carried _ _ _ _ _

theorem execStudyCauseClear_carried (i : InstId) (wide : Bool) (v : Nat) (s : State) : Carried i s (execStudyCauseClear i wide v s) :=
  writeBus_carried _ _ _ _ _

theorem execDumpComplete_carried (i : InstId) (incomplete : Bool) (s : State) : Carried i s (execDumpComplete i incomplete s) := by
  unfold execDumpComplete
  repeat' first | exact done_carried _ _ _ | exact .stay | dsimp only | split

theorem execPlanFetchDone_carried (i : InstId) (plan : Nat) (img : List Byte) (s : State) : Carried i s (execPlanFetchDone i plan img s) := by
  unfold execPlanFetchDone
  split
  · split
    · exact .stay
    · dsimp only
      split
      · next n hn => exact .stops (hostWriteCase_stops _ _ _ n hn)
      · exact endEvent_carried _ _ _
  · exact .stay

theorem execTraceWaitLimit_carried (i : InstId) (waiter holder reason object : Nat) (s : State) : Carried i s (execTraceWaitLimit i waiter holder reason object s) := by
  unfold execTraceWaitLimit
  dsimp only
  split
  · exact ite_carried .stay (done_carried _ _ _)
  · exact ite_carried .stay (done_carried _ _ _)

theorem execTraceBurstTimeout_carried (i : InstId) (s : State) : Carried i s (execTraceBurstTimeout i s) := by
  unfold execTraceBurstTimeout
  exact ite_carried .stay (done_carried _ _ _)

/-- A read may be of the other slice. -/
theorem execRcFieldRead_carried (i : InstId) (wide : Bool) (off : Nat) (s : State) : Carried (bar2 i off).1 s (execRcFieldRead i wide off s) := by
  unfold execRcFieldRead
  exact ite_carried (done_carried _ _ _) (.stops (by decide))

theorem execRegisterWrite_carried (i : InstId) (wide : Bool) (off v : Nat) (s : State) : Carried (bar2 i off).1 s (execRegisterWrite i wide off v s) :=
  writeBus_carried _ _ _ _ _

theorem execIrqModerationTimer_carried (i : InstId) (c : Nat) (s : State) : Carried i s (execIrqModerationTimer i c s) := by
  unfold execIrqModerationTimer
  exact ite_carried (done_carried _ _ _) .stay

/-! ### What no stream carries: the instance is not in service, is no active one any more, or its mirrored state stands -/

theorem mir_busData (v : BitVec 64) (s : State) : mir { s with busData := v } i = mir s i := by cases i <;> rfl

theorem execLatchAcquire_carried (i : InstId) (latch step : Nat) (s : State) : Carried i s (execLatchAcquire i latch step s) := by
  unfold execLatchAcquire
  dsimp only
  split
  · exact ite_carried (done_carried _ _ _) (.same (mir_busData _ _))
  · exact .same (mir_busData _ _)

/-- A reset leaves the instance no active one. -/
theorem execBlockReset_carried (i : InstId) (s : State) : Carried i s (execBlockReset i s) := by
  unfold execBlockReset blockReset
  split
  · exact .stay
  · exact .quiet fun _ hactive _ => absurd hactive (by cases i <;> exact Bool.false_ne_true)

theorem execLivenessAdvance_carried (i : InstId) (s : State) : Carried i s (execLivenessAdvance i s) := by
  unfold execLivenessAdvance
  exact ite_carried .stay (.same (by cases i <;> rfl))

theorem stage_of_running (h : running s i = true) : (getInst s i).hearth.stage = .ready := by
  unfold running at h
  exact eq_of_beq (Bool.and_eq_true_iff.mp h).1

/-- An instance in a stage of Dawn does not run. -/
theorem Carried.inDawn {st : DawnStage} (hst : (getInst s i).hearth.stage = st) (hne : st ≠ .ready) : Carried i s (.next t) :=
  .quiet fun hrun _ _ => absurd (hst.symm.trans (stage_of_running hrun)) hne

theorem execImageReadComplete_carried (i : InstId) (img : List Byte) (s : State) : Carried i s (execImageReadComplete i img s) := by
  unfold execImageReadComplete
  dsimp only
  split
  · exact .stay
  · next h =>
    rw [Bool.or_eq_true, not_or, bne_iff_ne, bne_iff_ne, Classical.not_not, Classical.not_not] at h
    exact .inDawn h.2 (by decide)

theorem execSignatureVerified_carried (i : InstId) (s : State) : Carried i s (execSignatureVerified i s) := by
  unfold execSignatureVerified
  dsimp only
  split
  · exact .stay
  · next h =>
    rw [bne_iff_ne, Classical.not_not] at h
    exact ite_carried (.inDawn h (by decide)) (ite_carried (.stops (by decide)) (.inDawn h (by decide)))

theorem execCoresReady_carried (i : InstId) (s : State) : Carried i s (execCoresReady i s) := by
  unfold execCoresReady
  dsimp only
  split
  · exact .stay
  · next h =>
    rw [bne_iff_ne, Classical.not_not] at h
    exact .inDawn h (by decide)

theorem mir_modRel (j : InstId) (f : Reliability → Reliability) (s : State) : mir (modRel j f s) i = mir s i := by cases i <;> cases j <;> rfl

theorem execMirrorAck_carried (i : InstId) (s : State) : Carried i s (execMirrorAck i s) := by
  unfold execMirrorAck
  exact ite_carried .stay (.same (mir_modRel _ _ _))

theorem execClaim_carried (i : InstId) (o : Nat) (s : State) : Carried i s (execClaim i o s) := by
  unfold execClaim
  exact ite_carried .stay (.same ((mir_modRel _ _ _).trans (mir_modOutpost _ _ _)))

theorem Carried.lost (h : (getInst t i).rel.mirror = .lost) : Carried i s (.next t) :=
  .quiet fun _ _ hpair => absurd h (by obtain h' | h' := hpair <;> rw [h'] <;> decide)

theorem mirror_markLost (i : InstId) (s : State) : (getInst (markLost i s) i).rel.mirror = .lost := by cases i <;> rfl
theorem mirror_markLost_other (i : InstId) (s : State) : (getInst (markLost (Machine.other i) s) i).rel.mirror = (getInst s i).rel.mirror := by cases i <;> rfl
theorem mirror_mirrorLost (i : InstId) (s : State) : (getInst (mirrorLost i s) i).rel.mirror = .lost := mirror_markLost i _

theorem execLivenessCheck_carried (i : InstId) (s : State) : Carried i s (execLivenessCheck i s) := by
  unfold execLivenessCheck
  split
  · exact .stay
  · split
    · exact .stay
    · unfold judge
      dsimp only
      split
      · split
        · exact .same (mir_modRel _ _ _)
        · exact .lost ((mirror_markLost_other _ _).trans (mirror_mirrorLost _ _))
      · split
        · exact .lost (mirror_markLost _ _)
        · exact .lost ((mirror_markLost_other _ _).trans (mirror_mirrorLost _ _))

theorem mir_outRing (o event step wave group : Nat) (s : State) : mir (outRing o event step wave group s) i = mir s i := outRing_mir o event step wave group s i

theorem execWaveDoneMarker_carried (i : InstId) (o step wave : Nat) (s : State) : Carried i s (execWaveDoneMarker o step wave s) := by
  unfold execWaveDoneMarker
  exact ite_carried (.same ((mir_outRing _ _ _ _ _ _).trans (mir_modOutpost _ _ _))) .stay

theorem execRowSetup_carried (i : InstId) (o : Nat) (s : State) : Carried i s (execRowSetup o s) := by
  unfold execRowSetup
  split
  · exact ite_carried (.same ((mir_modOutpost _ _ _).trans (mir_modOutpost _ _ _))) (.same ((mir_discardDown _ _).trans (mir_modOutpost _ _ _)))
  · exact .stay

theorem execDoneMsg_carried (i : InstId) (o : Nat) (s : State) : Carried i s (execDoneMsg o s) := by
  unfold execDoneMsg
  split
  · exact ite_carried (.same ((mir_modOutpost _ _ _).trans (mir_modOutpost _ _ _))) (.same ((mir_discardDown _ _).trans (mir_modOutpost _ _ _)))
  · exact .stay

theorem mir_countFixed (j : InstId) (n : Nat) (s : State) : mir (countFixed j n s) i = mir s i := by
  unfold countFixed
  split
  · rfl
  · exact mir_modRel _ _ _

theorem mir_watchPass (o : Nat) (r : OutRow) (l : List TokVal) (s : State) : mir (watchPass o r l s) i = mir s i :=
  congrArg Inst.mir (LanePasses.getInst_watchPass o r l s i)

theorem passDone_carried (o : Nat) (r : OutRow) (delta : Nat) (s : State) : Carried i s (passDone o r delta s) := by
  unfold passDone
  dsimp only
  split
  · exact .stops (by decide)
  · split
    · exact .stay
    · exact .same ((mir_modOutpost _ _ _).trans ((mir_countFixed _ _ _).trans (mir_watchPass _ _ _ _)))

theorem passParity_carried (o lane : Nat) (r : OutRow) (s : State) : Carried i s (passParity o lane r s) := by
  unfold passParity
  exact ite_carried .stay (.same ((mir_outRing _ _ _ _ _ _).trans (mir_modOutpost _ _ _)))

theorem execLanePassComplete_carried (i : InstId) (o : Nat) (h : RowHandle) (ev : PassEvent) (s : State) : Carried i s (execLanePassComplete o h ev s) := by
  unfold execLanePassComplete
  dsimp only
  split
  · exact .stay
  · refine ite_carried (.same (mir_modOutpost _ _ _)) (ite_carried .stay ?_)
    cases ev with
    | ok => exact passDone_carried _ _ _ _
    | upset delta => exact passDone_carried _ _ _ _
    | parity lane => exact passParity_carried _ _ _ _

theorem execLaneGroupSelftestDone_carried {i : InstId} {o : Nat} (failed : BitVec 32) {s : State} (howner : (getOutpost s o).owner = some i) :
    Carried i s (execLaneGroupSelftestDone o failed s) := by
  unfold execLaneGroupSelftestDone
  dsimp only
  rw [howner]
  exact ite_carried .stay (ite_carried (endEvent_carried _ _ _) (ite_carried (endEvent_carried _ _ _) (endEvent_carried _ _ _)))

/-! ### Every command of an instance -/

/-- Whatever acts for an instance ends by its stream's step, or is quiet, or stops. -/
theorem exec_carried {c : Instr} {i : InstId} {s : State} (h : actsFor s c = some i) : Carried i s (exec c s) := by
  cases c with
  | blockReset _ => cases h; exact execBlockReset_carried _ _
  | livenessAdvance _ => cases h; exact execLivenessAdvance_carried _ _
  | imageReadComplete _ _ => cases h; exact execImageReadComplete_carried _ _ _
  | signatureVerified _ => cases h; exact execSignatureVerified_carried _ _
  | coresReady _ => cases h; exact execCoresReady_carried _ _
  | discoveryComplete _ => cases h; exact execDiscoveryComplete_carried _ _
  | discoveryTimeout _ => cases h; exact execDiscoveryTimeout_carried _ _
  | watchdogExpiry _ _ => cases h; exact execWatchdogExpiry_carried _ _ _
  | coreRestartDone _ _ => cases h; exact execCoreRestartDone_carried _ _ _
  | uncorrectableEcc _ _ => cases h; exact execUncorrectableEcc_carried _ _ _
  | mailboxGo _ _ => cases h; exact execMailboxGo_carried _ _ _
  | mailboxGoTaken _ _ => cases h; exact execMailboxGoTaken_carried _ _ _
  | resHeadWrite _ _ _ => cases h; exact execResHeadWrite_carried _ _ _ _
  | placeRegion _ _ => cases h; exact execPlaceRegion_carried _ _ _
  | driveRange _ _ => cases h; exact execDriveRange_carried _ _ _
  | identity _ _ => cases h; exact execIdentity_carried _ _ _
  | pairing _ _ => cases h; exact execPairing_carried _ _ _
  | hostTrims _ _ _ => cases h; exact execHostTrims_carried _ _ _ _
  | dawnComplete _ _ => cases h; exact execDawnComplete_carried _ _ _
  | class0Reserve _ _ => cases h; exact execClass0Reserve_carried _ _ _
  | contextOpen _ _ => cases h; exact execContextOpen_carried _ _ _
  | contextConfigure _ _ => cases h; exact execContextConfigure_carried _ _ _
  | contextClose _ _ => cases h; exact execContextClose_carried _ _ _
  | contextCloseDone _ _ => cases h; exact execContextCloseDone_carried _ _ _
  | contextQuery _ _ => cases h; exact execContextQuery_carried _ _ _
  | recipeDefine _ _ _ => cases h; exact execRecipeDefine_carried _ _ _ _
  | recipeUndefine _ _ => cases h; exact execRecipeUndefine_carried _ _ _
  | planRegister _ _ => cases h; exact execPlanRegister_carried _ _ _
  | planUnregister _ _ => cases h; exact execPlanUnregister_carried _ _ _
  | planQuery _ _ => cases h; exact execPlanQuery_carried _ _ _
  | cancel _ _ => cases h; exact execCancel_carried _ _ _
  | park _ _ => cases h; exact execPark_carried _ _ _
  | resume _ _ => cases h; exact execResume_carried _ _ _
  | extend _ _ _ => cases h; exact execExtend_carried _ _ _ _
  | querySequence _ _ => cases h; exact execQuerySequence_carried _ _ _
  | modelDescribe _ _ _ => cases h; exact execModelDescribe_carried _ _ _ _
  | modelQuery _ _ => cases h; exact execModelQuery_carried _ _ _
  | modelForget _ _ => cases h; exact execModelForget_carried _ _ _
  | modelLoaded _ _ => cases h; exact execModelLoaded_carried _ _ _
  | modelLoadDeclined _ _ => cases h; exact execModelLoadDeclined_carried _ _ _
  | modelUnloaded _ _ => cases h; exact execModelUnloaded_carried _ _ _
  | modelPin _ _ => cases h; exact execModelPin_carried _ _ _
  | epochStage _ _ _ => cases h; exact execEpochStage_carried _ _ _ _
  | epochReady _ _ => cases h; exact execEpochReady_carried _ _ _
  | epochCommit _ _ => cases h; exact execEpochCommit_carried _ _ _
  | epochUnstage _ _ => cases h; exact execEpochUnstage_carried _ _ _
  | epochRetire _ _ => cases h; exact execEpochRetire_carried _ _ _
  | evening _ _ => cases h; exact execEvening_carried _ _ _
  | eveningComplete _ => cases h; exact execEveningComplete_carried _ _
  | turnCost _ _ => cases h; exact execTurnCost_carried _ _ _
  | poolLend _ _ => cases h; exact execPoolLend_carried _ _ _
  | poolReturn _ _ => cases h; exact execPoolReturn_carried _ _ _
  | snapshot _ _ => cases h; exact execSnapshot_carried _ _ _
  | restore _ _ => cases h; exact execRestore_carried _ _ _
  | restoreComplete _ => cases h; exact execRestoreComplete_carried _ _
  | lossBound _ _ => cases h; exact execLossBound_carried _ _ _
  | driveRetry _ _ => cases h; exact execDriveRetry_carried _ _ _
  | migrate _ _ => cases h; exact execMigrate_carried _ _ _
  | directionsSet _ _ _ => cases h; exact execDirectionsSet_carried _ _ _ _
  | watch _ _ => cases h; exact execWatch_carried _ _ _
  | trace _ _ => cases h; exact execTrace_carried _ _ _
  | traceDrained _ => cases h; exact execTraceDrained_carried _ _
  | counters _ _ => cases h; exact execCounters_carried _ _ _
  | imageWrite _ _ _ => cases h; exact execImageWrite_carried _ _ _ _
  | imageProgramDone _ _ => cases h; exact execImageProgramDone_carried _ _ _
  | firmwareConfirm _ _ => cases h; exact execFirmwareConfirm_carried _ _ _
  | sqTailDoorbell _ _ _ => cases h; exact execSqTailDoorbell_carried _ _ _ _
  | submitEntry _ _ _ _ _ => cases h; exact execSubmitEntry_carried _ _ _ _ _ _
  | sqNop _ _ _ => cases h; exact execSqNop_carried _ _ _ _
  | sqBadKind _ _ _ => cases h; exact execSqBadKind_carried _ _ _ _
  | foyerReevaluation _ => cases h; exact execFoyerReevaluation_carried _ _
  | deferLimitExpiry _ _ => cases h; exact execDeferLimitExpiry_carried _ _ _
  | cqHeadWrite _ _ _ => cases h; exact execCqHeadWrite_carried _ _ _ _
  | cqRingWrite _ _ => cases h; exact execCqRingWrite_carried _ _ _
  | irqModerationTimer _ _ => cases h; exact execIrqModerationTimer_carried _ _ _
  | irqStatusClear _ _ _ _ => cases h; exact execIrqStatusClear_carried _ _ _ _ _
  | irqEnableWrite _ _ _ _ => cases h; exact execIrqEnableWrite_carried _ _ _ _ _
  | dmaError _ _ => cases h; exact execDmaError_carried _ _ _
  | teardownComplete _ _ => cases h; exact execTeardownComplete_carried _ _ _
  | composeStep _ _ => cases h; exact execComposeStep_carried _ _ _
  | waveDoneMarker _ _ _ => exact execWaveDoneMarker_carried _ _ _ _ _
  | waveLandedNotice _ _ _ _ => cases h; exact execWaveLandedNotice_carried _ _ _ _ _
  | completionNotice _ _ _ => cases h; exact execCompletionNotice_carried _ _ _ _
  | killAcknowledgement _ _ _ => cases h; exact execKillAcknowledgement_carried _ _ _ _
  | kernelFault _ _ _ => cases h; exact execKernelFault_carried _ _ _ _
  | lanePassComplete _ _ _ => exact execLanePassComplete_carried _ _ _ _ _
  | rowSetup _ => exact execRowSetup_carried _ _ _
  | maxResult _ => exact execMaxResult_carried _ _ _
  | roundReq _ => exact execRoundReq_carried _ _ _
  | cut _ => exact execCut_carried _ _ _
  | quotas _ => exact execQuotas_carried _ _ _
  | locate _ => exact execLocate_carried _ _ _
  | doneMsg _ => exact execDoneMsg_carried _ _ _
  | maxSum _ _ => cases h; exact execMaxSum_carried _ _ _
  | massSum _ _ => cases h; exact execMassSum_carried _ _ _
  | roundSum _ _ => cases h; exact execRoundSum_carried _ _ _
  | keptSum _ _ => cases h; exact execKeptSum_carried _ _ _
  | raceSum _ _ => cases h; exact execRaceSum_carried _ _ _
  | located _ _ => cases h; exact execLocated_carried _ _ _
  | parity _ _ => cases h; exact execParity_carried _ _ _
  | laneGroupSelftestDone _ failed => exact execLaneGroupSelftestDone_carried failed h
  | fenceMaskWrite _ _ _ _ => cases h; exact execFenceMaskWrite_carried _ _ _ _ _
  | commitPoint _ _ => cases h; exact execCommitPoint_carried _ _ _
  | tokenCommit _ _ => cases h; exact execTokenCommit_carried _ _ _
  | stopCheck _ _ => cases h; exact execStopCheck_carried _ _ _
  | kill _ _ => cases h; exact execKill_carried _ _ _
  | admitSeq _ _ => cases h; exact execAdmitSeq_carried _ _ _
  | warm _ _ => cases h; exact execWarm_carried _ _ _
  | cool _ _ => cases h; exact execCool_carried _ _ _
  | coolMarkWrite _ _ _ => cases h; exact execCoolMarkWrite_carried _ _ _ _
  | pageHeadroomWrite _ _ _ => cases h; exact execPageHeadroomWrite_carried _ _ _ _
  | evictionPark _ _ => cases h; exact execEvictionPark_carried _ _ _
  | evictionResume _ _ => cases h; exact execEvictionResume_carried _ _ _
  | kvInvalidation _ _ => cases h; exact execKvInvalidation_carried _ _ _
  | sequenceCancel _ _ => cases h; exact execSequenceCancel_carried _ _ _
  | sequencePark _ _ => cases h; exact execSequencePark_carried _ _ _
  | sequenceResume _ _ => cases h; exact execSequenceResume_carried _ _ _
  | sequenceExtend _ _ => cases h; exact execSequenceExtend_carried _ _ _
  | forceRun _ _ => cases h; exact execForceRun_carried _ _ _
  | midnight _ _ => cases h; exact execMidnight_carried _ _ _
  | midnightEvent _ _ => cases h; exact execMidnightEvent_carried _ _ _
  | epochAbort _ _ => cases h; exact execEpochAbort_carried _ _ _
  | eveningEvent _ _ => cases h; exact execEveningEvent_carried _ _ _
  | morningEvent _ _ => cases h; exact execMorningEvent_carried _ _ _
  | broadcastSweep _ _ => cases h; exact execBroadcastSweep_carried _ _ _
  | migrateOut _ _ => cases h; exact execMigrateOut_carried _ _ _
  | migrateAck _ _ => cases h; exact execMigrateAck_carried _ _ _
  | migrateFail _ _ => cases h; exact execMigrateFail_carried _ _ _
  | migrateIn _ _ => cases h; exact execMigrateIn_carried _ _ _
  | migrateDone _ _ => cases h; exact execMigrateDone_carried _ _ _
  | household _ _ => cases h; exact execHousehold_carried _ _ _
  | teardown _ _ => cases h; exact execTeardown_carried _ _ _
  | planReady _ _ => cases h; exact execPlanReady_carried _ _ _
  | context _ _ => cases h; exact execContext_carried _ _ _
  | deadlineEntry _ _ => cases h; exact execDeadlineEntry_carried _ _ _
  | parkWake _ _ => cases h; exact execParkWake_carried _ _ _
  | migrationRetry _ _ => cases h; exact execMigrationRetry_carried _ _ _
  | migrationTimeout _ _ => cases h; exact execMigrationTimeout_carried _ _ _
  | arrivalTimeout _ _ => cases h; exact execArrivalTimeout_carried _ _ _
  | mailboxCommandTimeout _ _ => cases h; exact execMailboxCommandTimeout_carried _ _ _
  | duskSpillRefill _ _ => cases h; exact execDuskSpillRefill_carried _ _ _
  | planFetchDone _ _ _ => cases h; exact execPlanFetchDone_carried _ _ _ _
  | latchAcquire _ _ _ => cases h; exact execLatchAcquire_carried _ _ _ _
  | latchRelease _ _ => cases h; exact execLatchRelease_carried _ _ _
  | latchConfigWrite _ _ _ _ => cases h; exact execLatchConfigWrite_carried _ _ _ _ _
  | announce _ _ => cases h; exact execAnnounce_carried _ _ _
  | announceReply _ _ => cases h; exact execAnnounceReply_carried _ _ _
  | offer _ _ => cases h; exact execOffer_carried _ _ _
  | accept _ _ => cases h; exact execAccept_carried _ _ _
  | refuse _ _ => cases h; exact execRefuse_carried _ _ _
  | dataMsg _ _ => cases h; exact execDataMsg_carried _ _ _
  | dataAck _ _ => cases h; exact execDataAck_carried _ _ _
  | handover _ _ => cases h; exact execHandover_carried _ _ _
  | ack _ _ => cases h; exact execAck_carried _ _ _
  | nak _ _ => cases h; exact execNak_carried _ _ _
  | abandon _ _ => cases h; exact execAbandon_carried _ _ _
  | bounce _ _ => cases h; exact execBounce_carried _ _ _
  | reorderRelease _ => cases h; exact execReorderRelease_carried _ _
  | injectionSeedWrite _ _ _ => cases h; exact execInjectionSeedWrite_carried _ _ _ _
  | stairwellTimingWrite _ _ _ _ => cases h; exact execStairwellTimingWrite_carried _ _ _ _ _
  | mirrorAck _ => cases h; exact execMirrorAck_carried _ _
  | heartbeatLost _ => cases h; exact execHeartbeatLost_carried _ _
  | livenessCheck _ => cases h; exact execLivenessCheck_carried _ _
  | claim _ _ => cases h; exact execClaim_carried _ _ _
  | claimRefused _ => cases h; exact execClaimRefused_carried _ _
  | digestPair _ => cases h; exact execDigestPair_carried _ _
  | driveCompletion _ _ => cases h; exact execDriveCompletion_carried _ _ _
  | driveTimeout _ => cases h; exact execDriveTimeout_carried _ _
  | journalFlush _ => cases h; exact execJournalFlush_carried _ _
  | flushDeferExpiry _ => cases h; exact execFlushDeferExpiry_carried _ _
  | flushComplete _ => cases h; exact execFlushComplete_carried _ _
  | bulkImageStart _ => cases h; exact execBulkImageStart_carried _ _
  | bulkImageDurable _ => cases h; exact execBulkImageDurable_carried _ _
  | graphBuild _ => cases h; exact execGraphBuild_carried _ _
  | traceWaitLimit _ _ _ _ _ => cases h; exact execTraceWaitLimit_carried _ _ _ _ _ _
  | traceBurstTimeout _ => cases h; exact execTraceBurstTimeout_carried _ _
  | traceSync _ => cases h; exact execTraceSync_carried _ _
  | traceRpWrite _ _ _ _ => cases h; exact execTraceRpWrite_carried _ _ _ _ _
  | dumpRequest _ _ _ => cases h; exact execDumpRequest_carried _ _ _ _
  | dumpComplete _ _ => cases h; exact execDumpComplete_carried _ _ _
  | dumpAck _ _ _ => cases h; exact execDumpAck_carried _ _ _ _
  | studyCauseClear _ _ _ => cases h; exact execStudyCauseClear_carried _ _ _ _
  | epochRetiredClear _ _ _ _ => cases h; exact execEpochRetiredClear_carried _ _ _ _ _
  | wdogExpiredClear _ _ _ => cases h; exact execWdogExpiredClear_carried _ _ _ _
  | fenceRefusedClear _ _ _ _ => cases h; exact execFenceRefusedClear_carried _ _ _ _ _
  | kitchenLimitWrite _ _ _ _ => cases h; exact execKitchenLimitWrite_carried _ _ _ _ _
  | rcFieldRead _ _ _ => cases h; exact execRcFieldRead_carried _ _ _ _
  | registerWrite _ _ _ _ => cases h; exact execRegisterWrite_carried _ _ _ _ _
  | linkCreditsReturned _ _ => cases h; exact execLinkCreditsReturned_carried _ _ _
  | _ => cases h

end Sys2Proof.Carriage

/-! SUPPORT. Every command goes on or stops at a numbered undefined case (spec/00 R12). -/

namespace Sys2Proof.Carriage

open Sys2Proof Sys2Proof.Machine Sys2Proof.Cases

/-- A meaning goes on or stops at a numbered case. -/
inductive Answered : Result → Prop
  | next (t : State) : Answered (.next t)
  | stops {n : Nat} (h : n ∈ stops) : Answered (.fault (.undefinedCase n))

theorem Carried.answered {i : InstId} {s : State} {r : Result} : Carried i s r → Answered r
  | .sent _ => .next _
  | .quiet _ => .next _
  | .stops h => .stops h

theorem ite_answered {c : Prop} [Decidable c] {r r' : Result} (h : Answered r) (k : Answered r') : Answered (if c then r else r') := by
  split
  · exact h
  · exact k

/-! ### The commands that act for no instance alone -/

theorem execTick_answered (s : State) : Answered (execTick s) := ite_answered (.next _) (.next _)

theorem execFlashGrant_answered (s : State) : Answered (execFlashGrant s) := by
  unfold execFlashGrant
  split
  · dsimp only
    split
    · exact .next _
    · exact .next _
    · exact .next _
  · exact .next _

theorem execDrawList_answered (o : Nat) (s : State) : Answered (execDrawList o s) := by
  unfold execDrawList
  split
  · exact .next _
  · exact .next _

theorem execKeystreamBlock_answered (o : Nat) (h : RowHandle) (lane low : Nat) (s : State) : Answered (execKeystreamBlock o h lane low s) := by
  unfold execKeystreamBlock
  dsimp only
  split
  · exact .next _
  · split
    · exact .next _
    · exact ite_answered (.next _) (.next _)

theorem execClassMapLoaded_answered (o plan lane : Nat) (s : State) : Answered (execClassMapLoaded o plan lane s) := by
  unfold execClassMapLoaded
  dsimp only
  split
  · exact ite_answered (.next _) (.next _)
  · exact .next _

theorem execLarderGranuleWrite_answered (o off : Nat) (data : List Byte) (s : State) : Answered (execLarderGranuleWrite o off data s) :=
  ite_answered (.next _) (ite_answered (.stops (by decide)) (.next _))

theorem execLaneGroupSelftestDone_answered (o : Nat) (failed : BitVec 32) (s : State) : Answered (execLaneGroupSelftestDone o failed s) := by
  cases howner : (getOutpost s o).owner with
  | some i => exact (execLaneGroupSelftestDone_carried failed howner).answered
  | none =>
    unfold execLaneGroupSelftestDone
    dsimp only
    rw [howner]
    exact .next _

theorem execMirrorMessage_answered (i : InstId) (bad : Bool) (s : State) : Answered (execMirrorMessage i bad s) := by
  unfold execMirrorMessage
  dsimp only
  split
  · exact .next _
  · exact ite_answered (.next _) (ite_answered (ite_answered (.next _) (.next _)) (.next _))

theorem execMirrorSyncComplete_answered (i : InstId) (s : State) : Answered (execMirrorSyncComplete i s) := ite_answered (.next _) (.next _)

theorem execHeartbeat_answered (s : State) : Answered (execHeartbeat s) := ite_answered (.next _) (.next _)

theorem execFailMsg_answered (i : InstId) (s : State) : Answered (execFailMsg i s) := ite_answered (.next _) (ite_answered (.next _) (.next _))

theorem execTakeover_answered (i : InstId) (s : State) : Answered (execTakeover i s) := ite_answered (endEvent_carried _ _ _).answered (.next _)

theorem execPathRestored_answered (s : State) : Answered (execPathRestored s) := ite_answered (.next _) (.next _)

/-- Every command answers so: an instance's by `exec_carried`, the others by their own rows. -/
theorem exec_answered (c : Instr) (s : State) : Answered (exec c s) := by
  cases hc : actsFor s c with
  | some i => exact (exec_carried hc).answered
  | none =>
    cases c with
    | powerOnReset => exact .next _
    | functionLevelReset => exact .next _
    | resetControlWrite _ _ => exact .next _
    | tick => exact execTick_answered s
    | flashGrant => exact execFlashGrant_answered s
    | morning _ _ => exact (execMorning_carried _ _ s).answered
    | drawList _ => exact execDrawList_answered _ s
    | keystreamBlock _ _ _ _ => exact execKeystreamBlock_answered _ _ _ _ s
    | classMapLoaded _ _ _ => exact execClassMapLoaded_answered _ _ _ s
    | larderGranuleWrite _ _ _ => exact execLarderGranuleWrite_answered _ _ _ s
    | waveDoneMarker _ _ _ => exact (execWaveDoneMarker_carried .A _ _ _ s).answered
    | lanePassComplete _ _ _ => exact (execLanePassComplete_carried .A _ _ _ s).answered
    | rowSetup _ => exact (execRowSetup_carried .A _ s).answered
    | maxResult _ => exact (execMaxResult_carried .A _ s).answered
    | roundReq _ => exact (execRoundReq_carried .A _ s).answered
    | cut _ => exact (execCut_carried .A _ s).answered
    | quotas _ => exact (execQuotas_carried .A _ s).answered
    | locate _ => exact (execLocate_carried .A _ s).answered
    | doneMsg _ => exact (execDoneMsg_carried .A _ s).answered
    | laneGroupSelftestDone _ _ => exact execLaneGroupSelftestDone_answered _ _ s
    | mirrorMessage _ _ => exact execMirrorMessage_answered _ _ s
    | mirrorSyncComplete _ => exact execMirrorSyncComplete_answered _ s
    | heartbeat => exact execHeartbeat_answered s
    | failMsg _ => exact execFailMsg_answered _ s
    | takeover _ => exact execTakeover_answered _ s
    | powerLoss => exact .next _
    | pathRestored => exact execPathRestored_answered s
    | _ => cases hc

/-- Settles O5, by how each command's meaning ends (`exec_answered`). -/
theorem neverRefused : Obligations.NeverRefused := by
  intro c s
  have h := exec_answered c s
  unfold StopsAt
  generalize exec c s = r at h ⊢
  cases h with
  | next t => exact .inl ⟨t, rfl⟩
  | stops hn => exact .inr ⟨_, hn, rfl⟩

end Sys2Proof.Carriage

/-! SUPPORT. The mirror stream carries what changes (spec/17 R361-R366): for an instance's command by how its meaning ends, for a tick stage by stage. -/

namespace Sys2Proof.Stream

open Sys2Proof Sys2Proof.Machine Sys2Proof.Laws Sys2Proof.Closers Sys2Proof.Footprint Sys2Proof.Carriage

variable {i j : InstId} {s t u v : State}

/-- The stream's last message carries the mirrored state as it is. -/
def Told (i : InstId) (t : State) : Prop := ∃ m, (getInst t i).rel.streamOut.getLast? = some m ∧ m.img = mir t i

/-- The instance streams: it is active, its mirror is SYNCING or CURRENT, and its FAIL has not ended the stream. -/
def Streams (i : InstId) (t : State) : Prop :=
  (getInst t i).rel.active = true ∧ ((getInst t i).rel.mirror = .syncing ∨ (getInst t i).rel.mirror = .current) ∧ streamEnded t i = false

theorem Told.congr (h : Told i s) (hmir : mir t i = mir s i) (hout : (getInst t i).rel.streamOut = (getInst s i).rel.streamOut) : Told i t := by
  unfold Told
  rw [hmir, hout]
  exact h

/-! ### The stream's step -/

theorem rel_mirrorOut (i : InstId) (s t : State) :
    (getInst (mirrorOut i s t) i).rel = { (getInst t i).rel with streamOut := (getInst (mirrorOut i s t) i).rel.streamOut } := by rw [getInst_mirrorOut]

theorem streamEnded_mirrorOut (i : InstId) (s t : State) : streamEnded (mirrorOut i s t) i = streamEnded t i := by
  unfold streamEnded
  rw [mirrorOut_other, rel_mirrorOut]

theorem streams_mirrorOut_iff (i : InstId) (s t : State) : Streams i (mirrorOut i s t) ↔ Streams i t := by
  unfold Streams
  rw [streamEnded_mirrorOut, rel_mirrorOut]

theorem told_push {m : MirrorMsg} (hm : m.img = mir t i) : Told i (modRel i (fun r => { r with streamOut := r.streamOut ++ [m] }) t) :=
  ⟨m, by cases i <;> exact List.getLast?_concat, by rw [mir_modRel, hm]⟩

/-- The step leaves the state, or its message is the last. -/
theorem mirrorOut_cases (i : InstId) (s t : State) : mirrorOut i s t = t ∨ Told i (mirrorOut i s t) := by
  unfold mirrorOut
  dsimp only
  split
  · exact .inr (told_push rfl)
  · exact .inl rfl

/-- A change of the mirrored state is sent. -/
theorem told_mirrorOut (h : Streams i t) (hne : mir t i ≠ mir s i) : Told i (mirrorOut i s t) := by
  obtain ⟨hactive, hpair, hended⟩ := h
  have hpair' : ((getInst t i).rel.mirror == .syncing || (getInst t i).rel.mirror == .current) = true := by
    rw [Bool.or_eq_true, beq_iff_eq, beq_iff_eq]
    exact hpair
  have hdiff : ((getInst s i).mir != (getInst t i).mir) = true := bne_iff_ne.mpr fun he => hne he.symm
  refine (mirrorOut_cases i s t).resolve_left fun hsame => ?_
  have hlen := congrArg (fun x => (getInst x i).rel.streamOut.length) hsame
  unfold mirrorOut at hlen
  dsimp only at hlen
  rw [if_pos (by rw [hactive, hended, hpair', hdiff]; rfl), getInst_modRel, List.length_append] at hlen
  exact absurd hlen (Nat.succ_ne_self _)

/-- A command that acts for the instance. -/
theorem Carried.told {r : Result} (h : Carried i s r) (hrun : running s i = true) (hr : r = .next t) (hst : Streams i t) (hne : mir t i ≠ mir s i) : Told i t := by
  cases h with
  | sent u =>
    cases hr
    refine told_mirrorOut ((streams_mirrorOut_iff i s u).mp hst) ?_
    rwa [mir_eq, mirrorOut_mir, ← mir_eq] at hne
  | quiet hq =>
    cases hr
    exact absurd (hq hrun hst.1 hst.2.1) hne
  | stops _ => cases hr

/-! ### A stage of a tick -/

/-- The role in the pair stands, and what changes of the mirrored state is told. -/
structure Tells (i : InstId) (s t : State) : Prop where
  active : (getInst t i).rel.active = (getInst s i).rel.active
  mirror : (getInst t i).rel.mirror = (getInst s i).rel.mirror
  ended : streamEnded t i = streamEnded s i
  told : Streams i t → Told i t ∨ (mir t i = mir s i ∧ (getInst t i).rel.streamOut = (getInst s i).rel.streamOut)

theorem Tells.streams (h : Tells i s t) (hst : Streams i t) : Streams i s := by
  unfold Streams at hst ⊢
  rwa [h.active, h.mirror, h.ended] at hst

theorem Tells.trans (h : Tells i s t) (k : Tells i t u) : Tells i s u := by
  refine ⟨k.active.trans h.active, k.mirror.trans h.mirror, k.ended.trans h.ended, fun hst => ?_⟩
  obtain hu | ⟨hmir, hout⟩ := k.told hst
  · exact .inl hu
  · obtain ht | ⟨hmir', hout'⟩ := h.told (k.streams hst)
    · exact .inl (ht.congr hmir hout)
    · exact .inr ⟨hmir.trans hmir', hout.trans hout'⟩

theorem streamEnded_congr (h : ∀ j, pairRole (getInst t j).rel = pairRole (getInst s j).rel) : streamEnded t i = streamEnded s i := by
  have hi := h i
  have ho := h (Machine.other i)
  simp only [pairRole, Prod.mk.injEq] at hi ho
  obtain ⟨-, -, hfailed, hsent, -, -⟩ := hi
  obtain ⟨-, -, -, -, hclaiming, -⟩ := ho
  unfold streamEnded
  rw [hfailed, hsent, hclaiming]

theorem Tells.of_role (hmir : mir t i = mir s i) (h : ∀ j, pairRole (getInst t j).rel = pairRole (getInst s j).rel) : Tells i s t := by
  have hi := h i
  simp only [pairRole, Prod.mk.injEq] at hi
  obtain ⟨hactive, hmirror, -, -, -, hout⟩ := hi
  exact ⟨hactive, hmirror, streamEnded_congr h, fun _ => .inr ⟨hmir, hout⟩⟩

/-- A stage within one instance: it, HBM and the outposts. -/
def ownLicence (j : InstId) : Licence := { inst := (· == j), hbm := true, outposts := true }

theorem ownLicence_inst (j : InstId) : Granted ((ownLicence j).inst j = true) := ⟨beq_self_eq_true j⟩

theorem other_not_own (j : InstId) : (ownLicence j).inst (Machine.other j) = false := by cases j <;> rfl

theorem eq_or_other (i j : InstId) : i = j ∨ i = Machine.other j := by cases i <;> cases j <;> decide

/-- A stage that the stream's step ends, seen from its own instance. -/
theorem tells_mirrorOut_own (h : Frame (ownLicence i) s v) : Tells i s (mirrorOut i s v) := by
  have hrole := h.role rfl
  have hi := hrole i
  simp only [pairRole, Prod.mk.injEq] at hi
  obtain ⟨hactive, hmirror, -, -, -, hout⟩ := hi
  refine ⟨?_, ?_, (streamEnded_mirrorOut i s v).trans (streamEnded_congr hrole), fun hst => ?_⟩
  · rw [rel_mirrorOut]
    exact hactive
  · rw [rel_mirrorOut]
    exact hmirror
  · by_cases hmir : mir v i = mir s i
    · obtain hsame | htold := mirrorOut_cases i s v
      · rw [hsame]
        exact .inr ⟨hmir, hout⟩
      · exact .inl htold
    · exact .inl (told_mirrorOut ((streams_mirrorOut_iff i s v).mp hst) hmir)

/-- Seen from the other instance. -/
theorem tells_mirrorOut_other (h : Frame (ownLicence j) s v) : Tells (Machine.other j) s (mirrorOut j s v) := by
  have hinst : getInst (mirrorOut j s v) (Machine.other j) = getInst s (Machine.other j) := (mirrorOut_other j s v).trans (h.inst _ (other_not_own j))
  have hj := h.role rfl j
  simp only [pairRole, Prod.mk.injEq] at hj
  obtain ⟨-, -, -, -, hclaimed, -⟩ := hj
  have hclaim : (getInst (mirrorOut j s v) j).rel.claiming = (getInst s j).rel.claiming := by
    rw [rel_mirrorOut]
    exact hclaimed
  refine ⟨by rw [hinst], by rw [hinst], ?_, fun _ => .inr ⟨by rw [mir_eq, hinst, ← mir_eq], by rw [hinst]⟩⟩
  have hback : Machine.other (Machine.other j) = j := by cases j <;> rfl
  unfold streamEnded
  rw [hback, hinst, hclaim]

theorem tells_mirrorOut (h : Frame (ownLicence j) s v) : Tells i s (mirrorOut j s v) := by
  obtain rfl | rfl := eq_or_other i j
  · exact tells_mirrorOut_own h
  · exact tells_mirrorOut_other h

theorem closeTick_tells (i j : InstId) (s : State) : Tells i s (closeTick j s) := by
  have hown := ownLicence_inst j
  have hhbm : Granted (ownLicence j).Hbm := ⟨rfl⟩
  unfold closeTick
  split
  · exact tells_mirrorOut (fireLists_frame j (.refl s))
  · exact .of_role rfl fun _ => rfl

theorem releaseReset_tells (i j : InstId) (s : State) : Tells i s (releaseReset j s) := by
  unfold releaseReset
  split
  · exact .of_role (by cases i <;> cases j <;> rfl) fun k => by cases k <;> cases j <;> rfl
  · exact .of_role rfl fun _ => rfl

theorem mir_tickCounters (i j : InstId) (s : State) : mir (tickCounters j s) i = mir s i := by cases i <;> cases j <;> rfl

theorem mir_tickRegs (i j : InstId) (n : Nat) (s : State) : mir (modInst j (tickRegs n) s) i = mir s i := by cases i <;> cases j <;> rfl

theorem tickInst_tells (i j : InstId) (s : State) : Tells i s (tickInst j s) := by
  have hown := ownLicence_inst j
  have hhbm : Granted (ownLicence j).Hbm := ⟨rfl⟩
  have houtposts : Granted (ownLicence j).Outposts := ⟨rfl⟩
  have hregs : Frame (ownLicence j) s (tickCounters j (modInst j (tickRegs s.tick) s)) :=
    tickCounters_frame j (modInst_frame j _ (fun x => ⟨tickRegs_place _ x, rfl⟩) (.refl s))
  unfold tickInst
  dsimp only
  split
  · exact .of_role rfl fun _ => rfl
  · split
    · exact .of_role (mir_tickCounters i j s) ((tickCounters_frame (L := ownLicence j) j (.refl s)).role rfl)
    · split
      · exact .of_role ((mir_tickCounters _ _ _).trans (mir_tickRegs _ _ _ _)) (hregs.role rfl)
      · refine tells_mirrorOut (noteWaits_frame j (tearDue_frame j (announceChange_frame j (testCqs_frame j ?_))))
        have hcharged (f : Inst → Mirrored) : Frame (ownLicence j) s (modInst j (fun y => { y with mir := f y }) (tickCounters j (modInst j (tickRegs s.tick) s))) :=
          modInst_frame j _ (fun _ => ⟨rfl, rfl⟩) hregs
        exact ite_frame (foyerRound_frame j (hcharged _)) (hcharged _)

/-- A tick tells what it changes of either instance. -/
theorem tick_tells (i : InstId) (h : exec .tick s = .next t) : Tells i s t := by
  have hexec : exec .tick s = execTick s := rfl
  rw [hexec, execTick] at h
  dsimp only at h
  split at h
  · cases h
    exact .of_role rfl fun _ => rfl
  · cases h
    refine ((closeTick_tells i .A s).trans (closeTick_tells i .B _)).trans (.trans ?_ ((releaseReset_tells i .A _).trans
      ((releaseReset_tells i .B _).trans ((tickInst_tells i .A _).trans (tickInst_tells i .B _)))))
    exact .of_role (by cases i <;> rfl) fun k => by cases k <;> rfl

/-- Settles O9: an instance's command by how its meaning ends (`exec_carried`), a tick stage by stage (`tick_tells`). -/
theorem mirrorCarries : Obligations.MirrorCarries := by
  intro c i s t hc hrun hexec hactive hpair hended hne
  have hst : Streams i t := ⟨hactive, hpair, hended⟩
  obtain hacts | ⟨w, rfl⟩ | rfl := hc
  · exact Carried.told (exec_carried hacts) hrun hexec hst hne
  · exact Carried.told (execMorning_carried i w s) hrun hexec hst hne
  · exact ((tick_tells i hexec).told hst).resolve_right fun h => hne h.1

end Sys2Proof.Stream
